-- ==== Sys2Proof/Word.lean ====
section
/-!
DEFINITION. The word types of the part: registers are 32 bits wide (R5), memory is held in bytes.
-/

namespace Sys2Proof

/-- A register word (R5). -/
abbrev Word := BitVec 32

/-- A byte of a memory. -/
abbrev Byte := BitVec 8

end Sys2Proof
end

