-- ==== Sys2Proof/Machine/Regs.lean ====
section
/-!
DEFINITION. The register space of the part: the page classes of R29, one row per register (or register array) of every
register map of spec/, the named registers, fields and event bits. Offsets, access codes, reset values and field places
are those of the register maps and field tables; a reserved bit is outside its row's write mask (R8).
-/

namespace Sys2Proof.Machine

/-- A bit field of a register: the register's byte address and the field's highest and lowest bit. -/
structure Fld where
  reg : Nat
  hi : Nat
  lo : Nat
  deriving DecidableEq, Repr

/-- An event: the page whose PG_EVENT holds it and the bit (R45). -/
structure Ev where
  page : Nat
  bit : Nat
  deriving DecidableEq, Repr

/-- The access codes of R7. -/
inductive Acc
  | ro | rw | rws | rwl | w1c | wo
  deriving DecidableEq, Repr

/-- What else a register row says: a count that a read clears (`count`), a value that comes from fuses, straps or the
role and that no soft reset changes (`fused`), or neither. -/
inductive RowKind
  | plain | count | fused
  deriving DecidableEq, Repr

/-- One row of a register map: offset in the page, how many registers of the kind and their distance, access code, reset
value, the bits a write may change, and the kind. -/
structure RegRow where
  off : Nat
  cnt : Nat
  stride : Nat
  acc : Acc
  reset : Word
  wmask : Word
  kind : RowKind
  deriving DecidableEq, Repr

/-- The kinds of page of R29; a kind with several pages carries its instance number elsewhere. -/
inductive PClass
  | sys
  | pwr
  | crier
  | bell
  | weather
  | serdes
  | chain
  | ret
  | eth
  | ingest
  | halo
  | csi
  | loom
  | layer
  | scan
  | granCh
  | granMgr
  | arb
  | well
  | pcie
  | twin
  | elder
  | nimbus
  | corr
  | lampGrp
  | lamp
  | gate
  | keys
  | update
  | reeve
  | debug
  deriving DecidableEq, Repr

/-- First page, number of pages, block code, and the roles that implement it (R29). The LOOM layer pages and the
channel pages share a mnemonic with their common page and have a code of their own. -/
structure PInfo where
  base : Nat
  num : Nat
  code : Nat
  sender : Bool
  tile : Bool
  deriving DecidableEq, Repr

/-- The page table of R29. `tile` is the role column; a tile has only quad 0 and chain pages A and B of their classes. -/
def pInfo : PClass → PInfo
  | .sys => ⟨0x000, 1, 0x01, true, true⟩
  | .pwr => ⟨0x001, 1, 0x02, true, true⟩
  | .crier => ⟨0x002, 1, 0x03, true, true⟩
  | .bell => ⟨0x003, 1, 0x04, true, true⟩
  | .weather => ⟨0x004, 1, 0x05, true, true⟩
  | .serdes => ⟨0x010, 12, 0x10, true, true⟩
  | .chain => ⟨0x020, 16, 0x11, true, true⟩
  | .ret => ⟨0x030, 1, 0x12, true, true⟩
  | .eth => ⟨0x040, 2, 0x20, true, false⟩
  | .ingest => ⟨0x042, 4, 0x21, true, false⟩
  | .halo => ⟨0x048, 1, 0x22, true, false⟩
  | .csi => ⟨0x049, 2, 0x23, true, false⟩
  | .loom => ⟨0x050, 1, 0x30, true, false⟩
  | .layer => ⟨0x051, 16, 0x31, true, false⟩
  | .scan => ⟨0x068, 1, 0x32, true, false⟩
  | .granCh => ⟨0x070, 4, 0x40, true, false⟩
  | .granMgr => ⟨0x074, 1, 0x41, true, false⟩
  | .arb => ⟨0x075, 1, 0x42, true, false⟩
  | .well => ⟨0x080, 1, 0x50, true, false⟩
  | .pcie => ⟨0x081, 1, 0x51, true, false⟩
  | .twin => ⟨0x090, 1, 0x52, true, false⟩
  | .elder => ⟨0x091, 1, 0x53, true, true⟩
  | .nimbus => ⟨0x0a0, 1, 0x60, false, true⟩
  | .corr => ⟨0x0a1, 1, 0x61, false, true⟩
  | .lampGrp => ⟨0x0a2, 4, 0x62, false, true⟩
  | .lamp => ⟨0x0a6, 1, 0x63, false, true⟩
  | .gate => ⟨0x0b0, 1, 0x70, true, true⟩
  | .keys => ⟨0x0b1, 1, 0x71, true, true⟩
  | .update => ⟨0x0c0, 1, 0x72, true, true⟩
  | .reeve => ⟨0x0d0, 1, 0x73, true, true⟩
  | .debug => ⟨0x0f0, 1, 0x7f, true, true⟩

/-- Every page kind. -/
def pClasses : List PClass :=
  [.sys, .pwr, .crier, .bell, .weather, .serdes, .chain, .ret, .eth, .ingest, .halo, .csi, .loom, .layer, .scan, .granCh, .granMgr, .arb, .well, .pcie, .twin, .elder, .nimbus, .corr, .lampGrp, .lamp, .gate, .keys, .update, .reeve, .debug]

/-- The kind of a page and its instance in the kind; none for a page that R29 does not list. -/
def classOf (page : Nat) : Option (PClass × Nat) :=
  (pClasses.find? fun c => decide ((pInfo c).base ≤ page ∧ page < (pInfo c).base + (pInfo c).num)).map
    fun c => (c, page - (pInfo c).base)

/-- The register map of the SYS page (R27 and the map beside it). -/
def rows_sys : List RegRow :=
  [⟨0x040, 1, 0x0, .ro, 0x00000000, 0x00000000, .fused⟩,
   ⟨0x044, 1, 0x0, .ro, 0x00000000, 0x00000000, .fused⟩,
   ⟨0x048, 1, 0x0, .ro, 0x00000000, 0x00000000, .fused⟩,
   ⟨0x04c, 1, 0x0, .ro, 0x00000000, 0x00000000, .fused⟩,
   ⟨0x050, 1, 0x0, .ro, 0x00000000, 0x00000000, .fused⟩,
   ⟨0x054, 1, 0x0, .rwl, 0x00000000, 0x0000003f, .plain⟩,
   ⟨0x058, 1, 0x0, .ro, 0x00000000, 0x00000000, .plain⟩,
   ⟨0x05c, 1, 0x0, .rw, 0x00000000, 0x00000007, .plain⟩,
   ⟨0x060, 1, 0x0, .rw, 0x00000000, 0xffffffff, .plain⟩,
   ⟨0x064, 1, 0x0, .rw, 0x00000000, 0xffffffff, .plain⟩,
   ⟨0x068, 1, 0x0, .wo, 0x00000000, 0x00000003, .plain⟩,
   ⟨0x06c, 1, 0x0, .ro, 0x00000000, 0x00000000, .plain⟩,
   ⟨0x070, 1, 0x0, .ro, 0x00000000, 0x00000000, .plain⟩,
   ⟨0x074, 1, 0x0, .rw, 0x00000332, 0x000003ff, .plain⟩,
   ⟨0x080, 16, 0x4, .ro, 0x00000000, 0x00000000, .plain⟩]

/-- The register map of the PWR page (R414 and the map beside it). -/
def rows_pwr : List RegRow :=
  [⟨0x040, 1, 0x0, .ro, 0x01200000, 0x00000000, .plain⟩,
   ⟨0x044, 1, 0x0, .wo, 0x00000000, 0x00000107, .plain⟩,
   ⟨0x048, 1, 0x0, .rw, 0x00000000, 0xffffffff, .plain⟩,
   ⟨0x04c, 1, 0x0, .rw, 0x00000000, 0xffffffff, .plain⟩,
   ⟨0x050, 1, 0x0, .rw, 0x00000010, 0x0000003f, .plain⟩,
   ⟨0x054, 1, 0x0, .rw, 0x00000000, 0xffffffff, .plain⟩,
   ⟨0x058, 1, 0x0, .ro, 0x00000000, 0x00000000, .plain⟩,
   ⟨0x05c, 1, 0x0, .ro, 0x00000000, 0x00000000, .plain⟩,
   ⟨0x060, 1, 0x0, .wo, 0x00000000, 0xffff0001, .plain⟩,
   ⟨0x064, 1, 0x0, .rw, 0x00000000, 0x8000ffff, .plain⟩,
   ⟨0x068, 1, 0x0, .rw, 0x00000032, 0x0000ffff, .plain⟩,
   ⟨0x06c, 1, 0x0, .ro, 0x00000000, 0x00000000, .plain⟩,
   ⟨0x070, 3, 0x4, .ro, 0x00000000, 0x00000000, .plain⟩,
   ⟨0x080, 3, 0x4, .ro, 0x00000000, 0x00000000, .fused⟩]

/-- The register map of the CRIER page (R57 and the map beside it). -/
def rows_crier : List RegRow :=
  [⟨0x040, 1, 0x0, .rwl, 0x00000000, 0x00000007, .plain⟩,
   ⟨0x044, 1, 0x0, .rw, 0x00000000, 0x00000003, .plain⟩,
   ⟨0x048, 1, 0x0, .rw, 0x00000000, 0xffffffff, .plain⟩,
   ⟨0x04c, 1, 0x0, .rw, 0x00000000, 0xffffffff, .plain⟩,
   ⟨0x050, 1, 0x0, .ro, 0x00000000, 0x00000000, .plain⟩,
   ⟨0x054, 1, 0x0, .ro, 0x00000000, 0x00000000, .plain⟩,
   ⟨0x058, 1, 0x0, .ro, 0x00000000, 0x00000000, .plain⟩,
   ⟨0x060, 8, 0x4, .ro, 0x00000000, 0x00000000, .plain⟩,
   ⟨0x080, 4, 0x4, .ro, 0x00000000, 0x00000000, .plain⟩,
   ⟨0x0a0, 1, 0x0, .wo, 0x00000000, 0x000000ff, .plain⟩,
   ⟨0x0a4, 1, 0x0, .wo, 0x00000000, 0x0000003f, .plain⟩,
   ⟨0x0a8, 1, 0x0, .rw, 0x00000000, 0x00000001, .plain⟩,
   ⟨0x0b0, 1, 0x0, .w1c, 0x00000000, 0x0000ffff, .plain⟩,
   ⟨0x0c0, 16, 0x4, .rw, 0x00000100, 0x0000ff03, .plain⟩,
   ⟨0x400, 256, 0x4, .rw, 0x00000000, 0x8f3f030f, .plain⟩]

/-- The register map of the BELL page (R81 and the map beside it). -/
def rows_bell : List RegRow :=
  [⟨0x040, 1, 0x0, .rwl, 0x00000000, 0x0000000f, .plain⟩,
   ⟨0x044, 1, 0x0, .rwl, 0x7f003100, 0xff00f106, .plain⟩,
   ⟨0x048, 1, 0x0, .rw, 0x40000400, 0xffffffff, .plain⟩,
   ⟨0x04c, 1, 0x0, .rw, 0x000003e8, 0xffffffff, .plain⟩,
   ⟨0x050, 1, 0x0, .rw, 0x00000014, 0x0000ffff, .plain⟩,
   ⟨0x054, 1, 0x0, .wo, 0x00000000, 0x00000003, .plain⟩,
   ⟨0x058, 1, 0x0, .ro, 0x00000000, 0x00000000, .plain⟩,
   ⟨0x05c, 1, 0x0, .ro, 0x00000000, 0x00000000, .plain⟩,
   ⟨0x060, 1, 0x0, .ro, 0x00000000, 0x00000000, .plain⟩,
   ⟨0x064, 1, 0x0, .ro, 0x00000000, 0x00000000, .plain⟩,
   ⟨0x068, 1, 0x0, .ro, 0x00000000, 0x00000000, .plain⟩,
   ⟨0x06c, 1, 0x0, .ro, 0x00000000, 0x00000000, .plain⟩,
   ⟨0x070, 1, 0x0, .ro, 0x00000000, 0x00000000, .plain⟩,
   ⟨0x074, 1, 0x0, .rw, 0x00000000, 0x3fffffff, .plain⟩,
   ⟨0x078, 1, 0x0, .rw, 0x00000000, 0xffffffff, .plain⟩,
   ⟨0x07c, 1, 0x0, .rw, 0x00000000, 0x0000ffff, .plain⟩,
   ⟨0x080, 1, 0x0, .rw, 0x00000000, 0x00000001, .plain⟩,
   ⟨0x084, 1, 0x0, .rw, 0x0000003c, 0x000fffff, .plain⟩,
   ⟨0x088, 1, 0x0, .rw, 0x00000001, 0x000fffff, .plain⟩,
   ⟨0x08c, 1, 0x0, .rw, 0x00000000, 0x3fffffff, .plain⟩,
   ⟨0x090, 1, 0x0, .rw, 0x00000000, 0xffffffff, .plain⟩,
   ⟨0x094, 1, 0x0, .rw, 0x00000000, 0x0000ffff, .plain⟩,
   ⟨0x098, 1, 0x0, .rws, 0x000000c8, 0x0000ffff, .plain⟩,
   ⟨0x09c, 1, 0x0, .rws, 0x00140000, 0x00ff01ff, .plain⟩,
   ⟨0x0a0, 1, 0x0, .ro, 0x00000000, 0x00000000, .plain⟩,
   ⟨0x0a4, 1, 0x0, .ro, 0x00000000, 0x00000000, .plain⟩,
   ⟨0x0a8, 1, 0x0, .ro, 0x00000000, 0x00000000, .count⟩,
   ⟨0x0ac, 1, 0x0, .rw, 0x00000000, 0x00000007, .plain⟩,
   ⟨0x0b0, 1, 0x0, .ro, 0x00000000, 0x00000000, .plain⟩,
   ⟨0x0b4, 1, 0x0, .ro, 0x00000000, 0x00000000, .plain⟩,
   ⟨0x0b8, 1, 0x0, .ro, 0x00000000, 0x00000000, .plain⟩,
   ⟨0x0c0, 2, 0x20, .rw, 0x00640000, 0xffff000f, .plain⟩,
   ⟨0x0c4, 2, 0x20, .rw, 0x00000000, 0x3fffffff, .plain⟩,
   ⟨0x0c8, 2, 0x20, .rw, 0x00000000, 0xffffffff, .plain⟩,
   ⟨0x0cc, 2, 0x20, .rw, 0x00000000, 0x0000ffff, .plain⟩,
   ⟨0x0d0, 2, 0x20, .rw, 0x00000000, 0xffffffff, .plain⟩,
   ⟨0x0d4, 2, 0x20, .rw, 0x00000000, 0xffffffff, .plain⟩,
   ⟨0x100, 18, 0x4, .rw, 0x00000000, 0xffffffff, .plain⟩]

/-- The register map of the WEATHER page (R415 and the map beside it). -/
def rows_weather : List RegRow :=
  [⟨0x040, 1, 0x0, .ro, 0x00000000, 0x00000000, .plain⟩,
   ⟨0x044, 1, 0x0, .rw, 0x0000786e, 0x0003ffff, .plain⟩,
   ⟨0x048, 1, 0x0, .rw, 0x00000000, 0x0000ffff, .plain⟩,
   ⟨0x04c, 1, 0x0, .ro, 0x3f800000, 0x00000000, .plain⟩,
   ⟨0x050, 1, 0x0, .ro, 0x00000000, 0x00000000, .plain⟩,
   ⟨0x054, 1, 0x0, .ro, 0x00000000, 0x00000000, .plain⟩,
   ⟨0x058, 1, 0x0, .ro, 0x00000000, 0x00000000, .plain⟩,
   ⟨0x05c, 1, 0x0, .ro, 0x00000000, 0x00000000, .count⟩]

/-- The register map of the SERDES page (R104 and the map beside it). -/
def rows_serdes : List RegRow :=
  [⟨0x040, 1, 0x0, .rwl, 0x00000002, 0x00000303, .plain⟩,
   ⟨0x044, 1, 0x0, .rwl, 0x00000000, 0x0000010f, .plain⟩,
   ⟨0x048, 1, 0x0, .ro, 0x00000000, 0x00000000, .plain⟩,
   ⟨0x04c, 1, 0x0, .rw, 0x00000000, 0xffff00ff, .plain⟩,
   ⟨0x050, 1, 0x0, .rw, 0x00000000, 0x8000010f, .plain⟩,
   ⟨0x054, 1, 0x0, .rw, 0x00280014, 0x03ff007f, .plain⟩,
   ⟨0x080, 4, 0x40, .rws, 0x00060003, 0x01079ff7, .plain⟩,
   ⟨0x084, 4, 0x40, .rw, 0x00000000, 0xcfffffff, .plain⟩,
   ⟨0x088, 4, 0x40, .ro, 0x00000000, 0x00000000, .plain⟩,
   ⟨0x08c, 4, 0x40, .ro, 0x00000000, 0x00000000, .plain⟩,
   ⟨0x090, 4, 0x40, .rw, 0x00000000, 0x00000f0f, .plain⟩,
   ⟨0x094, 4, 0x40, .ro, 0x00000000, 0x00000000, .plain⟩,
   ⟨0x098, 4, 0x40, .ro, 0x00000000, 0x00000000, .plain⟩,
   ⟨0x09c, 4, 0x40, .ro, 0x00000000, 0x00000000, .count⟩,
   ⟨0x0a0, 4, 0x40, .ro, 0x00000000, 0x00000000, .count⟩]

/-- The register map of the CHAIN page (R142 and the map beside it). -/
def rows_chain : List RegRow :=
  [⟨0x040, 1, 0x0, .rwl, 0x00000003, 0x00000103, .plain⟩,
   ⟨0x044, 1, 0x0, .ro, 0x00000000, 0x00000000, .plain⟩,
   ⟨0x048, 1, 0x0, .rws, 0x03e80040, 0xffff00ff, .plain⟩,
   ⟨0x04c, 1, 0x0, .rw, 0x00000008, 0x000000ff, .plain⟩,
   ⟨0x050, 1, 0x0, .rws, 0x00001000, 0x000fffff, .plain⟩,
   ⟨0x054, 1, 0x0, .rw, 0x00000003, 0x0000000f, .plain⟩,
   ⟨0x058, 1, 0x0, .rw, 0x00000000, 0xffffffff, .plain⟩,
   ⟨0x05c, 1, 0x0, .ro, 0x00000000, 0x00000000, .plain⟩,
   ⟨0x060, 1, 0x0, .ro, 0x00000000, 0x00000000, .plain⟩,
   ⟨0x080, 1, 0x0, .ro, 0x00000000, 0x00000000, .count⟩,
   ⟨0x084, 1, 0x0, .ro, 0x00000000, 0x00000000, .count⟩,
   ⟨0x088, 1, 0x0, .ro, 0x00000000, 0x00000000, .count⟩,
   ⟨0x08c, 1, 0x0, .ro, 0x00000000, 0x00000000, .count⟩,
   ⟨0x090, 1, 0x0, .ro, 0x00000000, 0x00000000, .count⟩,
   ⟨0x094, 1, 0x0, .ro, 0x00000000, 0x00000000, .count⟩,
   ⟨0x098, 1, 0x0, .ro, 0x00000000, 0x00000000, .count⟩,
   ⟨0x09c, 1, 0x0, .ro, 0x00000000, 0x00000000, .count⟩,
   ⟨0x0a0, 1, 0x0, .ro, 0x00000000, 0x00000000, .count⟩,
   ⟨0x0a4, 1, 0x0, .ro, 0x00000000, 0x00000000, .count⟩,
   ⟨0x0a8, 1, 0x0, .ro, 0x00000000, 0x00000000, .count⟩,
   ⟨0x0c0, 1, 0x0, .rw, 0x00000000, 0x000000ff, .plain⟩,
   ⟨0x0c4, 1, 0x0, .ro, 0x00000000, 0x00000000, .plain⟩,
   ⟨0x0c8, 1, 0x0, .ro, 0x00000000, 0x00000000, .plain⟩,
   ⟨0x0cc, 1, 0x0, .ro, 0x00000000, 0x00000000, .plain⟩,
   ⟨0x0d0, 1, 0x0, .wo, 0x00000000, 0x8000ffff, .plain⟩]

/-- The register map of the RET page (R143 and the map beside it). -/
def rows_ret : List RegRow :=
  [⟨0x040, 1, 0x0, .rws, 0x000001f4, 0x0000ffff, .plain⟩,
   ⟨0x044, 1, 0x0, .ro, 0x00000000, 0x00000000, .plain⟩,
   ⟨0x048, 1, 0x0, .ro, 0x00000000, 0x00000000, .plain⟩,
   ⟨0x04c, 1, 0x0, .rw, 0x00000000, 0xffffffff, .plain⟩,
   ⟨0x050, 1, 0x0, .ro, 0x00000000, 0x00000000, .plain⟩,
   ⟨0x054, 1, 0x0, .ro, 0x00000000, 0x00000000, .plain⟩,
   ⟨0x058, 1, 0x0, .rw, 0x00000000, 0x000000ff, .plain⟩,
   ⟨0x060, 4, 0x4, .rw, 0x00000000, 0xffffffff, .plain⟩,
   ⟨0x080, 1, 0x0, .ro, 0x00000000, 0x00000000, .count⟩,
   ⟨0x084, 1, 0x0, .ro, 0x00000000, 0x00000000, .count⟩,
   ⟨0x088, 1, 0x0, .ro, 0x00000000, 0x00000000, .count⟩,
   ⟨0x08c, 1, 0x0, .ro, 0x00000000, 0x00000000, .count⟩]

/-- The register map of the ETH page (R163 and the map beside it). -/
def rows_eth : List RegRow :=
  [⟨0x040, 1, 0x0, .rwl, 0x00000001, 0x0fff0007, .plain⟩,
   ⟨0x044, 1, 0x0, .ro, 0x00000000, 0x00000000, .plain⟩,
   ⟨0x048, 1, 0x0, .rwl, 0x00000000, 0xffffffff, .fused⟩,
   ⟨0x04c, 1, 0x0, .rwl, 0x00000000, 0x0000ffff, .fused⟩,
   ⟨0x050, 1, 0x0, .rwl, 0x00000000, 0xffffffff, .plain⟩,
   ⟨0x054, 1, 0x0, .rwl, 0x00000000, 0xffffffff, .plain⟩,
   ⟨0x058, 1, 0x0, .rwl, 0x00000000, 0xffffffff, .plain⟩,
   ⟨0x080, 1, 0x0, .ro, 0x00000000, 0x00000000, .plain⟩,
   ⟨0x084, 1, 0x0, .ro, 0x00000000, 0x00000000, .plain⟩,
   ⟨0x088, 1, 0x0, .ro, 0x00000000, 0x00000000, .count⟩,
   ⟨0x08c, 1, 0x0, .ro, 0x00000000, 0x00000000, .count⟩,
   ⟨0x090, 1, 0x0, .ro, 0x00000000, 0x00000000, .count⟩,
   ⟨0x094, 1, 0x0, .ro, 0x00000000, 0x00000000, .count⟩,
   ⟨0x098, 1, 0x0, .ro, 0x00000000, 0x00000000, .count⟩,
   ⟨0x09c, 1, 0x0, .ro, 0x00000000, 0x00000000, .count⟩]

/-- The register map of the INGEST page (R164 and the map beside it). -/
def rows_ingest : List RegRow :=
  [⟨0x040, 1, 0x0, .ro, 0x00000000, 0x00000000, .plain⟩,
   ⟨0x044, 1, 0x0, .rw, 0x00000000, 0x8003ffff, .plain⟩,
   ⟨0x048, 1, 0x0, .rw, 0x00000000, 0xffffffff, .plain⟩,
   ⟨0x04c, 1, 0x0, .ro, 0x00000000, 0x00000000, .plain⟩,
   ⟨0x050, 1, 0x0, .ro, 0x00000000, 0x00000000, .plain⟩,
   ⟨0x100, 4, 0x80, .rws, 0x00000000, 0xfe1f8000, .plain⟩,
   ⟨0x104, 4, 0x80, .rws, 0x00000000, 0xffffffff, .plain⟩,
   ⟨0x108, 4, 0x80, .rws, 0x00000000, 0xffffffff, .plain⟩,
   ⟨0x10c, 4, 0x80, .rws, 0x00000000, 0x007fffff, .plain⟩,
   ⟨0x110, 4, 0x80, .rws, 0x00000000, 0x7fff7fff, .plain⟩,
   ⟨0x114, 4, 0x80, .rws, 0x00000000, 0xffffffff, .plain⟩,
   ⟨0x118, 4, 0x80, .rws, 0x00000808, 0x1f1f0f0f, .plain⟩,
   ⟨0x11c, 4, 0x80, .rws, 0x00000000, 0x00000f0f, .plain⟩,
   ⟨0x120, 4, 0x80, .rws, 0x00000000, 0x7fff7fff, .plain⟩,
   ⟨0x124, 4, 0x80, .rws, 0x00000000, 0xfffff000, .plain⟩,
   ⟨0x128, 4, 0x80, .rws, 0x00000000, 0x0000001f, .plain⟩,
   ⟨0x12c, 4, 0x80, .rws, 0x00000000, 0xc0ffffff, .plain⟩,
   ⟨0x130, 4, 0x80, .rws, 0x00400000, 0xffffffff, .plain⟩,
   ⟨0x134, 4, 0x80, .rw, 0x000007d0, 0x0000ffff, .plain⟩,
   ⟨0x138, 4, 0x80, .rw, 0x00000000, 0x3fffffff, .plain⟩,
   ⟨0x140, 4, 0x80, .ro, 0x00000000, 0x00000000, .plain⟩,
   ⟨0x144, 4, 0x80, .ro, 0x00000000, 0x00000000, .plain⟩,
   ⟨0x148, 4, 0x80, .ro, 0x00000000, 0x00000000, .plain⟩,
   ⟨0x150, 4, 0x80, .ro, 0x00000000, 0x00000000, .count⟩,
   ⟨0x154, 4, 0x80, .ro, 0x00000000, 0x00000000, .count⟩,
   ⟨0x158, 4, 0x80, .ro, 0x00000000, 0x00000000, .count⟩,
   ⟨0x15c, 4, 0x80, .ro, 0x00000000, 0x00000000, .count⟩,
   ⟨0x160, 4, 0x80, .ro, 0x00000000, 0x00000000, .count⟩]

/-- The register map of the HALO page (R271 and the map beside it). -/
def rows_halo : List RegRow :=
  [⟨0x040, 1, 0x0, .rw, 0x00000000, 0x00000307, .plain⟩,
   ⟨0x044, 1, 0x0, .rw, 0x00000000, 0x3fff3fff, .plain⟩,
   ⟨0x048, 1, 0x0, .rw, 0x00000000, 0x3fff3fff, .plain⟩,
   ⟨0x04c, 1, 0x0, .rw, 0x00000000, 0x01ffffff, .plain⟩,
   ⟨0x050, 1, 0x0, .rw, 0x00000000, 0xffffffff, .plain⟩,
   ⟨0x054, 1, 0x0, .rw, 0x00000000, 0x0000001f, .plain⟩,
   ⟨0x058, 1, 0x0, .rw, 0x00000000, 0xffffffff, .plain⟩,
   ⟨0x05c, 1, 0x0, .rw, 0x00000000, 0xffffffff, .plain⟩,
   ⟨0x060, 1, 0x0, .wo, 0x00000000, 0x00000003, .plain⟩,
   ⟨0x064, 1, 0x0, .ro, 0x00000000, 0x00000000, .plain⟩,
   ⟨0x068, 1, 0x0, .ro, 0x00000000, 0x00000000, .plain⟩,
   ⟨0x06c, 1, 0x0, .ro, 0x00000000, 0x00000000, .plain⟩,
   ⟨0x070, 1, 0x0, .ro, 0x00000000, 0x00000000, .plain⟩,
   ⟨0x074, 1, 0x0, .ro, 0x00000000, 0x00000000, .plain⟩,
   ⟨0x080, 1, 0x0, .rw, 0x00000000, 0xffffffff, .plain⟩,
   ⟨0x084, 1, 0x0, .rw, 0x00000000, 0x0000001f, .plain⟩,
   ⟨0x088, 1, 0x0, .rw, 0x00000000, 0xffffffff, .plain⟩,
   ⟨0x08c, 1, 0x0, .rw, 0x00000000, 0xffffffff, .plain⟩,
   ⟨0x090, 1, 0x0, .wo, 0x00000000, 0x00000003, .plain⟩,
   ⟨0x094, 1, 0x0, .ro, 0x00000000, 0x00000000, .plain⟩,
   ⟨0x0a0, 1, 0x0, .rw, 0x00000000, 0xffffffff, .plain⟩,
   ⟨0x0a4, 1, 0x0, .rw, 0x00000000, 0x0000001f, .plain⟩,
   ⟨0x0a8, 1, 0x0, .rw, 0x00000000, 0x00001fff, .plain⟩,
   ⟨0x0ac, 1, 0x0, .rw, 0x00000000, 0xffffffff, .plain⟩,
   ⟨0x0b0, 1, 0x0, .rw, 0x00000000, 0xffffffff, .plain⟩,
   ⟨0x0b4, 1, 0x0, .wo, 0x00000000, 0x00000007, .plain⟩,
   ⟨0x0b8, 1, 0x0, .ro, 0x00000000, 0x00000000, .plain⟩,
   ⟨0x0bc, 1, 0x0, .rw, 0x00000001, 0x00000001, .plain⟩,
   ⟨0x0c0, 1, 0x0, .rw, 0x3e003400, 0xffffffff, .plain⟩,
   ⟨0x0c4, 1, 0x0, .rw, 0x34001c00, 0xffffffff, .plain⟩,
   ⟨0x100, 8, 0x20, .rw, 0x00400000, 0x0fff0003, .plain⟩,
   ⟨0x104, 8, 0x20, .rw, 0x00000000, 0xffffffff, .plain⟩,
   ⟨0x108, 8, 0x20, .rw, 0x00000000, 0xffffffff, .plain⟩,
   ⟨0x10c, 8, 0x20, .rw, 0x04000400, 0xffffffff, .plain⟩,
   ⟨0x110, 8, 0x20, .rw, 0x04000400, 0xffffffff, .plain⟩,
   ⟨0x114, 8, 0x20, .wo, 0x00000000, 0x00000001, .plain⟩,
   ⟨0x118, 8, 0x20, .ro, 0x00000000, 0x00000000, .plain⟩]

/-- The register map of the CSI page (R272 and the map beside it). -/
def rows_csi : List RegRow :=
  [⟨0x040, 1, 0x0, .rwl, 0x00000002, 0x00000007, .plain⟩,
   ⟨0x044, 1, 0x0, .ro, 0x00000000, 0x00000000, .plain⟩,
   ⟨0x048, 1, 0x0, .ro, 0x00000000, 0x00000000, .count⟩,
   ⟨0x04c, 1, 0x0, .ro, 0x00000000, 0x00000000, .count⟩,
   ⟨0x050, 1, 0x0, .ro, 0x00000000, 0x00000000, .count⟩,
   ⟨0x054, 1, 0x0, .ro, 0x00000000, 0x00000000, .count⟩,
   ⟨0x080, 4, 0x10, .rwl, 0x00000000, 0x8000003f, .plain⟩,
   ⟨0x084, 4, 0x10, .rwl, 0x00000000, 0x3fff3fff, .plain⟩,
   ⟨0x088, 4, 0x10, .rw, 0x00000064, 0x0000ffff, .plain⟩,
   ⟨0x08c, 4, 0x10, .ro, 0x00000000, 0x00000000, .plain⟩]

/-- The register map of the LOOM page (R186 and the map beside it). -/
def rows_loom : List RegRow :=
  [⟨0x040, 1, 0x0, .rws, 0x00000000, 0x00000001, .plain⟩,
   ⟨0x044, 1, 0x0, .rws, 0x76543210, 0xffffffff, .plain⟩,
   ⟨0x048, 1, 0x0, .rws, 0xfedcba98, 0xffffffff, .plain⟩,
   ⟨0x04c, 1, 0x0, .rws, 0x00000000, 0xffffffff, .plain⟩,
   ⟨0x050, 1, 0x0, .rws, 0x00000000, 0x0000ffff, .plain⟩,
   ⟨0x054, 1, 0x0, .rws, 0x00000010, 0x0000001f, .plain⟩,
   ⟨0x058, 1, 0x0, .rw, 0x00000000, 0x0000000f, .plain⟩,
   ⟨0x05c, 1, 0x0, .ro, 0x00000000, 0x00000000, .plain⟩,
   ⟨0x060, 1, 0x0, .ro, 0x00000000, 0x00000000, .plain⟩,
   ⟨0x064, 1, 0x0, .rw, 0x00000000, 0x0000ffff, .plain⟩,
   ⟨0x068, 1, 0x0, .rw, 0x00000000, 0x8007ffff, .plain⟩,
   ⟨0x06c, 1, 0x0, .rw, 0x00000000, 0xffffffff, .plain⟩,
   ⟨0x070, 1, 0x0, .ro, 0x00000000, 0x00000000, .plain⟩,
   ⟨0x074, 1, 0x0, .wo, 0x00000000, 0x0000000f, .plain⟩,
   ⟨0x080, 16, 0x4, .rw, 0x00000000, 0xffffffff, .plain⟩]

/-- The register map of the LAYER page (R187 and the map beside it). -/
def rows_layer : List RegRow :=
  [⟨0x040, 1, 0x0, .rws, 0x00000010, 0xcf37001f, .plain⟩,
   ⟨0x044, 1, 0x0, .rws, 0x00000000, 0xffffff0f, .plain⟩,
   ⟨0x048, 1, 0x0, .rws, 0x00000000, 0x0000001f, .plain⟩,
   ⟨0x04c, 1, 0x0, .rws, 0x00000000, 0x00ffffff, .plain⟩,
   ⟨0x050, 1, 0x0, .rws, 0x00000000, 0x7fff7fff, .plain⟩,
   ⟨0x054, 1, 0x0, .rws, 0x00000000, 0x7fff7fff, .plain⟩,
   ⟨0x058, 1, 0x0, .rws, 0x00000000, 0xffffffff, .plain⟩,
   ⟨0x05c, 1, 0x0, .rws, 0x0000ffff, 0x0000ffff, .plain⟩,
   ⟨0x060, 1, 0x0, .rws, 0x00000000, 0xffffffff, .plain⟩,
   ⟨0x064, 1, 0x0, .rw, 0x00000000, 0x0001ffff, .plain⟩,
   ⟨0x068, 1, 0x0, .wo, 0x00000000, 0x00000001, .plain⟩,
   ⟨0x06c, 1, 0x0, .ro, 0x00000000, 0x00000000, .plain⟩,
   ⟨0x070, 1, 0x0, .ro, 0x00000000, 0x00000000, .plain⟩]

/-- The register map of the SCAN page (R204 and the map beside it). -/
def rows_scan : List RegRow :=
  [⟨0x040, 1, 0x0, .rws, 0x00000000, 0x7fff7fff, .plain⟩,
   ⟨0x044, 1, 0x0, .rws, 0x00000014, 0xffffffff, .plain⟩,
   ⟨0x048, 1, 0x0, .rwl, 0x00000001, 0x00000003, .plain⟩,
   ⟨0x04c, 1, 0x0, .rws, 0x00000000, 0x0000ffff, .plain⟩,
   ⟨0x050, 1, 0x0, .rws, 0x00000000, 0x80007fff, .plain⟩,
   ⟨0x054, 1, 0x0, .rw, 0x00000000, 0x8007ffff, .plain⟩,
   ⟨0x058, 1, 0x0, .rw, 0x00000000, 0xffffffff, .plain⟩,
   ⟨0x05c, 1, 0x0, .ro, 0x00000000, 0x00000000, .plain⟩,
   ⟨0x060, 4, 0x4, .rw, 0x02000080, 0x07ff07ff, .plain⟩,
   ⟨0x070, 1, 0x0, .ro, 0x00000000, 0x00000000, .plain⟩,
   ⟨0x074, 1, 0x0, .ro, 0x00000000, 0x00000000, .plain⟩,
   ⟨0x078, 1, 0x0, .ro, 0x00000000, 0x00000000, .count⟩,
   ⟨0x07c, 1, 0x0, .ro, 0x00000000, 0x00000000, .count⟩,
   ⟨0x080, 1, 0x0, .ro, 0x00000000, 0x00000000, .plain⟩,
   ⟨0x088, 1, 0x0, .rws, 0x00000000, 0xffffffff, .plain⟩,
   ⟨0x08c, 1, 0x0, .ro, 0x00000000, 0x00000000, .plain⟩,
   ⟨0x090, 1, 0x0, .ro, 0x00000000, 0x00000000, .count⟩,
   ⟨0x0c0, 16, 0x4, .ro, 0x00000000, 0x00000000, .plain⟩,
   ⟨0x100, 16, 0x10, .rws, 0x00000000, 0x7fff7fff, .plain⟩,
   ⟨0x104, 16, 0x10, .rws, 0x00000000, 0x7fff7fff, .plain⟩,
   ⟨0x108, 16, 0x10, .rws, 0x00000000, 0xffffffff, .plain⟩,
   ⟨0x10c, 16, 0x10, .ro, 0x00000000, 0x00000000, .plain⟩]

/-- The register map of the GRANCH page (R297 and the map beside it). -/
def rows_granCh : List RegRow :=
  [⟨0x040, 1, 0x0, .rwl, 0x00001014, 0x00011337, .plain⟩,
   ⟨0x044, 1, 0x0, .ro, 0x00000000, 0x00000000, .plain⟩,
   ⟨0x048, 1, 0x0, .rw, 0x00000064, 0x0000ffff, .plain⟩,
   ⟨0x04c, 1, 0x0, .ro, 0x00000000, 0x00000000, .plain⟩,
   ⟨0x050, 1, 0x0, .ro, 0x00000000, 0x00000000, .plain⟩,
   ⟨0x054, 1, 0x0, .ro, 0x00000000, 0x00000000, .plain⟩,
   ⟨0x058, 1, 0x0, .ro, 0x00000000, 0x00000000, .count⟩,
   ⟨0x05c, 1, 0x0, .ro, 0x00000000, 0x00000000, .count⟩,
   ⟨0x060, 1, 0x0, .ro, 0x00000000, 0x00000000, .plain⟩]

/-- The register map of the GRANMGR page (R298 and the map beside it). -/
def rows_granMgr : List RegRow :=
  [⟨0x040, 1, 0x0, .rwl, 0x00011c0f, 0x0001ff0f, .plain⟩,
   ⟨0x044, 1, 0x0, .ro, 0x00000000, 0x00000000, .plain⟩,
   ⟨0x048, 1, 0x0, .ro, 0x00000000, 0x00000000, .plain⟩,
   ⟨0x04c, 1, 0x0, .wo, 0x00000000, 0x80000007, .plain⟩,
   ⟨0x050, 1, 0x0, .wo, 0x00000000, 0xc001ffff, .plain⟩,
   ⟨0x054, 1, 0x0, .rw, 0x00000018, 0x0000ffff, .plain⟩,
   ⟨0x058, 1, 0x0, .ro, 0x00000000, 0x00000000, .plain⟩,
   ⟨0x05c, 1, 0x0, .ro, 0x00000000, 0x00000000, .count⟩,
   ⟨0x060, 1, 0x0, .ro, 0x00000000, 0x00000000, .count⟩,
   ⟨0x064, 1, 0x0, .ro, 0x00000000, 0x00000000, .count⟩,
   ⟨0x068, 1, 0x0, .rw, 0x000003e8, 0x0000ffff, .plain⟩]

/-- The register map of the ARB page (R299 and the map beside it). -/
def rows_arb : List RegRow :=
  [⟨0x040, 1, 0x0, .rw, 0x00000000, 0x00000001, .plain⟩,
   ⟨0x044, 1, 0x0, .rws, 0x00000001, 0x000000ff, .plain⟩,
   ⟨0x048, 1, 0x0, .rw, 0x00000014, 0x0000ffff, .plain⟩,
   ⟨0x04c, 1, 0x0, .w1c, 0x00000000, 0x0000ffff, .plain⟩,
   ⟨0x050, 1, 0x0, .ro, 0x00000000, 0x00000000, .plain⟩,
   ⟨0x054, 1, 0x0, .ro, 0x00000000, 0x00000000, .count⟩,
   ⟨0x080, 1, 0x0, .rws, 0x00001004, 0x0000ff0f, .plain⟩,
   ⟨0x084, 1, 0x0, .rws, 0x00001004, 0x0000ff0f, .plain⟩,
   ⟨0x088, 1, 0x0, .rws, 0x00001004, 0x0000ff0f, .plain⟩,
   ⟨0x08c, 1, 0x0, .rws, 0x00001004, 0x0000ff0f, .plain⟩,
   ⟨0x090, 1, 0x0, .rws, 0x00002002, 0x0000ff0f, .plain⟩,
   ⟨0x094, 1, 0x0, .rws, 0x00002002, 0x0000ff0f, .plain⟩,
   ⟨0x098, 1, 0x0, .rws, 0x00002002, 0x0000ff0f, .plain⟩,
   ⟨0x09c, 1, 0x0, .rws, 0x00002002, 0x0000ff0f, .plain⟩,
   ⟨0x0a0, 1, 0x0, .rws, 0x00001008, 0x0000ff0f, .plain⟩,
   ⟨0x0a4, 1, 0x0, .rws, 0x00000803, 0x0000ff0f, .plain⟩,
   ⟨0x0a8, 1, 0x0, .rws, 0x00001006, 0x0000ff0f, .plain⟩,
   ⟨0x0ac, 1, 0x0, .rws, 0x0000040a, 0x0000ff0f, .plain⟩,
   ⟨0x0b0, 1, 0x0, .rws, 0x00001005, 0x0000ff0f, .plain⟩,
   ⟨0x0b4, 1, 0x0, .rws, 0x00000403, 0x0000ff0f, .plain⟩,
   ⟨0x0b8, 1, 0x0, .rws, 0x0000080c, 0x0000ff0f, .plain⟩,
   ⟨0x0bc, 1, 0x0, .rws, 0x0000040e, 0x0000ff0f, .plain⟩]

/-- The register map of the WELL page (R326 and the map beside it). -/
def rows_well : List RegRow :=
  [⟨0x040, 1, 0x0, .rwl, 0x00000000, 0xfffff000, .plain⟩,
   ⟨0x044, 1, 0x0, .rwl, 0x00000000, 0x0000001f, .plain⟩,
   ⟨0x048, 1, 0x0, .rwl, 0x00000000, 0xfffff000, .plain⟩,
   ⟨0x04c, 1, 0x0, .rwl, 0x00000000, 0x0000001f, .plain⟩,
   ⟨0x050, 1, 0x0, .rwl, 0x00000020, 0x00001fff, .plain⟩,
   ⟨0x054, 1, 0x0, .wo, 0x00000000, 0xf0003fff, .plain⟩,
   ⟨0x058, 1, 0x0, .ro, 0x00000000, 0x00000000, .plain⟩,
   ⟨0x05c, 1, 0x0, .w1c, 0x00000000, 0xffffffff, .plain⟩,
   ⟨0x060, 1, 0x0, .rw, 0x00000014, 0x0000ffff, .plain⟩,
   ⟨0x064, 1, 0x0, .ro, 0x00000000, 0x00000000, .plain⟩,
   ⟨0x068, 1, 0x0, .ro, 0x00000000, 0x00000000, .plain⟩,
   ⟨0x06c, 1, 0x0, .ro, 0x00000000, 0x00000000, .count⟩,
   ⟨0x070, 1, 0x0, .ro, 0x00000000, 0x00000000, .count⟩,
   ⟨0x074, 1, 0x0, .ro, 0x00000000, 0x00000000, .count⟩,
   ⟨0x078, 1, 0x0, .ro, 0x00000000, 0x00000000, .count⟩,
   ⟨0x080, 1, 0x0, .rwl, 0x16300000, 0xffff0001, .plain⟩,
   ⟨0x084, 1, 0x0, .rwl, 0x00000000, 0xffffffff, .plain⟩,
   ⟨0x088, 1, 0x0, .ro, 0x00000000, 0x00000000, .plain⟩,
   ⟨0x08c, 1, 0x0, .ro, 0x00000000, 0x00000000, .plain⟩]

/-- The register map of the PCIE page (R327 and the map beside it). -/
def rows_pcie : List RegRow :=
  [⟨0x040, 1, 0x0, .ro, 0x00000000, 0x00000000, .fused⟩,
   ⟨0x044, 1, 0x0, .rwl, 0x00000024, 0x00000037, .plain⟩,
   ⟨0x048, 1, 0x0, .ro, 0x00000000, 0x00000000, .plain⟩,
   ⟨0x04c, 1, 0x0, .ro, 0x00000000, 0x00000000, .plain⟩,
   ⟨0x050, 1, 0x0, .rw, 0x00000000, 0xffffffff, .plain⟩,
   ⟨0x054, 1, 0x0, .rw, 0x00000000, 0xffffffff, .plain⟩,
   ⟨0x058, 1, 0x0, .ro, 0x00000000, 0x00000000, .count⟩,
   ⟨0x05c, 1, 0x0, .ro, 0x00000000, 0x00000000, .count⟩]

/-- The register map of the TWIN page (R345 and the map beside it). -/
def rows_twin : List RegRow :=
  [⟨0x040, 1, 0x0, .rwl, 0x00000000, 0xc000003f, .plain⟩,
   ⟨0x044, 1, 0x0, .rwl, 0x00000000, 0x0000ffff, .plain⟩,
   ⟨0x048, 1, 0x0, .ro, 0x00000000, 0x00000000, .plain⟩,
   ⟨0x04c, 1, 0x0, .ro, 0x00000000, 0x00000000, .plain⟩,
   ⟨0x050, 1, 0x0, .rw, 0x00000000, 0x0000ffff, .plain⟩,
   ⟨0x054, 1, 0x0, .rw, 0x00000000, 0xffffffff, .plain⟩,
   ⟨0x058, 1, 0x0, .rw, 0x00000000, 0xffffffff, .plain⟩,
   ⟨0x05c, 1, 0x0, .wo, 0x00000000, 0x00000003, .plain⟩,
   ⟨0x060, 1, 0x0, .ro, 0x00000000, 0x00000000, .plain⟩,
   ⟨0x064, 1, 0x0, .ro, 0x00000000, 0x00000000, .plain⟩,
   ⟨0x068, 1, 0x0, .ro, 0x00000000, 0x00000000, .plain⟩,
   ⟨0x06c, 1, 0x0, .ro, 0x00000000, 0x00000000, .count⟩,
   ⟨0x070, 1, 0x0, .ro, 0x00000000, 0x00000000, .count⟩,
   ⟨0x074, 1, 0x0, .ro, 0x00000000, 0x00000000, .count⟩,
   ⟨0x080, 8, 0x8, .rwl, 0x00000000, 0x81ffffff, .plain⟩,
   ⟨0x084, 8, 0x8, .rwl, 0x00000000, 0x0000ffff, .plain⟩]

/-- The register map of the ELDER page (R346 and the map beside it). -/
def rows_elder : List RegRow :=
  [⟨0x040, 3, 0x4, .rwl, 0x00000000, 0x8000ffff, .plain⟩,
   ⟨0x04c, 3, 0x4, .ro, 0x00000000, 0x00000000, .plain⟩,
   ⟨0x058, 1, 0x0, .ro, 0x00000000, 0x00000000, .plain⟩,
   ⟨0x080, 1, 0x0, .rw, 0x00000000, 0x00000003, .plain⟩,
   ⟨0x084, 1, 0x0, .rw, 0x00000000, 0x0000003f, .plain⟩,
   ⟨0x088, 1, 0x0, .rw, 0x00000000, 0xffffffff, .plain⟩,
   ⟨0x08c, 1, 0x0, .rw, 0x00000000, 0xc03f0000, .plain⟩,
   ⟨0x090, 1, 0x0, .rw, 0x00000000, 0x000003ff, .plain⟩,
   ⟨0x094, 1, 0x0, .rw, 0x00000000, 0xffffffff, .plain⟩,
   ⟨0x098, 1, 0x0, .ro, 0x00000000, 0x00000000, .plain⟩]

/-- The register map of the NIMBUS page (R227 and the map beside it). -/
def rows_nimbus : List RegRow :=
  [⟨0x040, 1, 0x0, .ro, 0x00000000, 0x00000000, .plain⟩,
   ⟨0x044, 1, 0x0, .ro, 0x00000000, 0x00000000, .plain⟩,
   ⟨0x048, 1, 0x0, .ro, 0x00000000, 0x00000000, .plain⟩,
   ⟨0x04c, 1, 0x0, .rw, 0x00000000, 0x000000ff, .plain⟩,
   ⟨0x050, 1, 0x0, .ro, 0x00000000, 0x00000000, .count⟩,
   ⟨0x054, 1, 0x0, .ro, 0x00000000, 0x00000000, .count⟩,
   ⟨0x058, 1, 0x0, .ro, 0x00000000, 0x00000000, .count⟩,
   ⟨0x05c, 1, 0x0, .ro, 0x00000000, 0x00000000, .count⟩,
   ⟨0x060, 1, 0x0, .ro, 0x00000000, 0x00000000, .count⟩,
   ⟨0x064, 1, 0x0, .ro, 0x00000000, 0x00000000, .count⟩]

/-- The register map of the CORR page (R226 and the map beside it). -/
def rows_corr : List RegRow :=
  [⟨0x040, 1, 0x0, .rws, 0x00000002, 0x00000313, .plain⟩,
   ⟨0x044, 1, 0x0, .rws, 0x3f800000, 0xffffffff, .plain⟩,
   ⟨0x048, 1, 0x0, .ro, 0x00000000, 0x00000000, .plain⟩,
   ⟨0x04c, 1, 0x0, .ro, 0x00000000, 0x00000000, .plain⟩,
   ⟨0x050, 1, 0x0, .ro, 0x00000000, 0x00000000, .plain⟩,
   ⟨0x054, 1, 0x0, .w1c, 0x00000000, 0x0000000f, .plain⟩,
   ⟨0x058, 1, 0x0, .ro, 0x00000000, 0x00000000, .plain⟩,
   ⟨0x05c, 1, 0x0, .ro, 0x00000000, 0x00000000, .count⟩,
   ⟨0x060, 1, 0x0, .rw, 0x00000000, 0x8007ffff, .plain⟩,
   ⟨0x064, 1, 0x0, .rw, 0x00000000, 0xffffffff, .plain⟩,
   ⟨0x068, 1, 0x0, .ro, 0x00000000, 0x00000000, .count⟩,
   ⟨0x06c, 1, 0x0, .ro, 0x00000000, 0x00000000, .plain⟩]

/-- The register map of the LAMPG page (R250 and the map beside it). -/
def rows_lampGrp : List RegRow :=
  [⟨0x040, 1, 0x0, .ro, 0x00000000, 0x00000000, .plain⟩,
   ⟨0x044, 1, 0x0, .ro, 0x00000000, 0x00000000, .plain⟩,
   ⟨0x050, 4, 0x4, .rw, 0x00000000, 0xffffffff, .plain⟩,
   ⟨0x080, 32, 0x4, .rws, 0x00000000, 0x7f7f7f7f, .plain⟩,
   ⟨0x200, 128, 0x4, .rw, 0x00000000, 0xffffffff, .plain⟩]

/-- The register map of the LAMP page (R249 and the map beside it). -/
def rows_lamp : List RegRow :=
  [⟨0x040, 1, 0x0, .rws, 0x00000005, 0x00000007, .plain⟩,
   ⟨0x044, 1, 0x0, .rws, 0x08081810, 0xffffffff, .plain⟩,
   ⟨0x048, 1, 0x0, .rws, 0x00000000, 0x00000001, .plain⟩,
   ⟨0x04c, 1, 0x0, .rws, 0x00000000, 0xffffffff, .plain⟩,
   ⟨0x050, 1, 0x0, .rws, 0x00404040, 0x00ffffff, .plain⟩,
   ⟨0x054, 1, 0x0, .ro, 0x00000000, 0x00000000, .plain⟩,
   ⟨0x058, 1, 0x0, .ro, 0x00000000, 0x00000000, .plain⟩,
   ⟨0x05c, 1, 0x0, .ro, 0x00000000, 0x00000000, .plain⟩,
   ⟨0x060, 1, 0x0, .rws, 0x3f800000, 0xffffffff, .plain⟩,
   ⟨0x064, 1, 0x0, .rws, 0x00000000, 0x0000ffff, .plain⟩,
   ⟨0x068, 1, 0x0, .ro, 0x00000000, 0x00000000, .plain⟩,
   ⟨0x06c, 1, 0x0, .rw, 0x00001770, 0x00001fff, .plain⟩,
   ⟨0x070, 1, 0x0, .ro, 0x00010000, 0x00000000, .plain⟩,
   ⟨0x074, 1, 0x0, .rw, 0x0a43e8c8, 0xffffffff, .plain⟩,
   ⟨0x078, 1, 0x0, .wo, 0x00000000, 0x00000001, .plain⟩,
   ⟨0x07c, 1, 0x0, .ro, 0x00000000, 0x00000000, .plain⟩,
   ⟨0x080, 1, 0x0, .rw, 0x00000000, 0x8000003f, .plain⟩,
   ⟨0x084, 1, 0x0, .ro, 0x00000000, 0x00000000, .plain⟩,
   ⟨0x088, 1, 0x0, .ro, 0x00000000, 0x00000000, .count⟩,
   ⟨0x08c, 1, 0x0, .ro, 0x00000000, 0x00000000, .plain⟩,
   ⟨0x090, 1, 0x0, .ro, 0x00000000, 0x00000000, .plain⟩,
   ⟨0x094, 1, 0x0, .ro, 0x00000000, 0x00000000, .plain⟩,
   ⟨0x098, 1, 0x0, .ro, 0x00000000, 0x00000000, .plain⟩]

/-- The register map of the GATE page (R371 and the map beside it). -/
def rows_gate : List RegRow :=
  [⟨0x040, 1, 0x0, .ro, 0x00000000, 0x00000000, .fused⟩,
   ⟨0x044, 1, 0x0, .ro, 0x00000000, 0x00000000, .plain⟩,
   ⟨0x048, 1, 0x0, .ro, 0x00000000, 0x00000000, .plain⟩,
   ⟨0x04c, 1, 0x0, .ro, 0x00000000, 0x00000000, .fused⟩,
   ⟨0x050, 1, 0x0, .ro, 0x00000000, 0x00000000, .fused⟩,
   ⟨0x054, 1, 0x0, .ro, 0x00000000, 0x00000000, .fused⟩,
   ⟨0x058, 1, 0x0, .rw, 0x00000000, 0x0000001f, .plain⟩,
   ⟨0x05c, 1, 0x0, .ro, 0x00000000, 0x00000000, .plain⟩,
   ⟨0x060, 1, 0x0, .ro, 0x00000000, 0x00000000, .plain⟩,
   ⟨0x064, 1, 0x0, .rw, 0x00000000, 0x80001fff, .plain⟩,
   ⟨0x068, 1, 0x0, .rw, 0x00000000, 0x0000ffff, .plain⟩,
   ⟨0x06c, 1, 0x0, .wo, 0x00000000, 0x00000001, .plain⟩,
   ⟨0x070, 1, 0x0, .wo, 0x00000000, 0x00000001, .plain⟩,
   ⟨0x074, 1, 0x0, .ro, 0x00000000, 0x00000000, .plain⟩,
   ⟨0x080, 12, 0x4, .rw, 0x00000000, 0xffffffff, .plain⟩,
   ⟨0x200, 116, 0x4, .ro, 0x00000000, 0x00000000, .plain⟩]

/-- The register map of the KEYS page (R372 and the map beside it). -/
def rows_keys : List RegRow :=
  [⟨0x040, 1, 0x0, .rw, 0x00000000, 0x0000001f, .plain⟩,
   ⟨0x044, 1, 0x0, .wo, 0x00000000, 0xf00000ff, .plain⟩,
   ⟨0x048, 1, 0x0, .ro, 0x00000000, 0x00000000, .plain⟩,
   ⟨0x04c, 1, 0x0, .ro, 0x00000000, 0x00000000, .plain⟩,
   ⟨0x050, 1, 0x0, .ro, 0x00000000, 0x00000000, .plain⟩,
   ⟨0x054, 1, 0x0, .ro, 0x00000000, 0x00000000, .plain⟩,
   ⟨0x058, 1, 0x0, .ro, 0x00000000, 0x00000000, .plain⟩,
   ⟨0x05c, 1, 0x0, .ro, 0x00000000, 0x00000000, .count⟩,
   ⟨0x100, 64, 0x4, .rw, 0x00000000, 0xffffffff, .plain⟩]

/-- The register map of the UPDATE page (R389 and the map beside it). -/
def rows_update : List RegRow :=
  [⟨0x040, 1, 0x0, .rw, 0x80000000, 0x8000ffff, .plain⟩,
   ⟨0x044, 1, 0x0, .ro, 0x00000000, 0x00000000, .plain⟩,
   ⟨0x048, 1, 0x0, .rw, 0x00000000, 0xffffffff, .plain⟩,
   ⟨0x04c, 1, 0x0, .rw, 0x00000000, 0x0000001f, .plain⟩,
   ⟨0x050, 1, 0x0, .wo, 0x00000000, 0xc0001fff, .plain⟩,
   ⟨0x054, 1, 0x0, .rw, 0x00000000, 0x000000ff, .plain⟩,
   ⟨0x058, 1, 0x0, .ro, 0x00000000, 0x00000000, .plain⟩,
   ⟨0x05c, 1, 0x0, .wo, 0x00000000, 0xf0000000, .plain⟩,
   ⟨0x060, 1, 0x0, .rw, 0x00000000, 0xffffffff, .plain⟩,
   ⟨0x064, 1, 0x0, .rw, 0x00000000, 0xffffffff, .plain⟩,
   ⟨0x068, 1, 0x0, .ro, 0x00000000, 0x00000000, .plain⟩,
   ⟨0x06c, 1, 0x0, .ro, 0x00000000, 0x00000000, .plain⟩,
   ⟨0x070, 1, 0x0, .ro, 0x00000000, 0x00000000, .plain⟩,
   ⟨0x074, 1, 0x0, .ro, 0x00000000, 0x00000000, .plain⟩,
   ⟨0x078, 1, 0x0, .rws, 0x00004000, 0x000fffff, .plain⟩,
   ⟨0x07c, 1, 0x0, .ro, 0x00000000, 0x00000000, .fused⟩,
   ⟨0x080, 1, 0x0, .ro, 0x00000000, 0x00000000, .plain⟩,
   ⟨0x084, 1, 0x0, .ro, 0x00000000, 0x00000000, .plain⟩,
   ⟨0x088, 1, 0x0, .ro, 0x00000000, 0x00000000, .plain⟩]

/-- The register map of each page kind; the REEVE and DEBUG pages have no register of their own in spec/. -/
def classRows : PClass → List RegRow
  | .sys => rows_sys
  | .pwr => rows_pwr
  | .crier => rows_crier
  | .bell => rows_bell
  | .weather => rows_weather
  | .serdes => rows_serdes
  | .chain => rows_chain
  | .ret => rows_ret
  | .eth => rows_eth
  | .ingest => rows_ingest
  | .halo => rows_halo
  | .csi => rows_csi
  | .loom => rows_loom
  | .layer => rows_layer
  | .scan => rows_scan
  | .granCh => rows_granCh
  | .granMgr => rows_granMgr
  | .arb => rows_arb
  | .well => rows_well
  | .pcie => rows_pcie
  | .twin => rows_twin
  | .elder => rows_elder
  | .nimbus => rows_nimbus
  | .corr => rows_corr
  | .lampGrp => rows_lampGrp
  | .lamp => rows_lamp
  | .gate => rows_gate
  | .keys => rows_keys
  | .update => rows_update
  | .reeve => []
  | .debug => []

/-- The event bits a page kind assigns; the others are reserved. -/
def evMask : PClass → Word
  | .sys => 0x0000007f
  | .pwr => 0x0000003f
  | .crier => 0x00000003
  | .bell => 0x000003ff
  | .weather => 0x000000ff
  | .serdes => 0x000001ff
  | .chain => 0x00007fff
  | .ret => 0x000000ff
  | .eth => 0x0000001f
  | .ingest => 0x000000ff
  | .halo => 0x000003ff
  | .csi => 0x0000003f
  | .loom => 0x00000003
  | .layer => 0x0000001f
  | .scan => 0x0000007f
  | .granCh => 0x0000007f
  | .granMgr => 0x0000007f
  | .arb => 0x00000001
  | .well => 0x000001ff
  | .pcie => 0x0000001f
  | .twin => 0x00001fff
  | .elder => 0x0000000f
  | .nimbus => 0x0000001f
  | .corr => 0x0000001f
  | .lampGrp => 0x00000003
  | .lamp => 0x00001fff
  | .gate => 0x000000ff
  | .keys => 0x0000000f
  | .update => 0x000007ff
  | .reeve => 0x00000000
  | .debug => 0x00000000

/-! ### The common page header (R31) -/

abbrev Reg.PG_ID (page : Nat) : Nat := 0x1000 * page + 0x00
abbrev Reg.PG_CAP (page : Nat) : Nat := 0x1000 * page + 0x04
abbrev Reg.PG_CTRL (page : Nat) : Nat := 0x1000 * page + 0x08
abbrev Reg.PG_COMMIT (page : Nat) : Nat := 0x1000 * page + 0x0c
abbrev Reg.PG_STATUS (page : Nat) : Nat := 0x1000 * page + 0x10
abbrev Reg.PG_EVENT (page : Nat) : Nat := 0x1000 * page + 0x14
abbrev Reg.PG_EVENT_EN (page : Nat) : Nat := 0x1000 * page + 0x18
abbrev Reg.PG_EVENT_SET (page : Nat) : Nat := 0x1000 * page + 0x1c
abbrev Reg.PG_EVENT_CNT (page : Nat) : Nat := 0x1000 * page + 0x20
abbrev Reg.PG_POLICY (page : Nat) : Nat := 0x1000 * page + 0x24
abbrev Fld.PG_ID_BLOCK (page : Nat) : Fld := ⟨Reg.PG_ID page, 31, 24⟩
abbrev Fld.PG_ID_INSTANCE (page : Nat) : Fld := ⟨Reg.PG_ID page, 23, 16⟩
abbrev Fld.PG_ID_MAJOR (page : Nat) : Fld := ⟨Reg.PG_ID page, 15, 8⟩
abbrev Fld.PG_ID_MINOR (page : Nat) : Fld := ⟨Reg.PG_ID page, 7, 0⟩
abbrev Fld.PG_CAP_PRESENT (page : Nat) : Fld := ⟨Reg.PG_CAP page, 31, 31⟩
abbrev Fld.PG_CAP_SHADOWED (page : Nat) : Fld := ⟨Reg.PG_CAP page, 30, 30⟩
abbrev Fld.PG_CAP_LOCKABLE (page : Nat) : Fld := ⟨Reg.PG_CAP page, 29, 29⟩
abbrev Fld.PG_CAP_BLOCK_CAP (page : Nat) : Fld := ⟨Reg.PG_CAP page, 15, 0⟩
abbrev Fld.PG_CTRL_SRST (page : Nat) : Fld := ⟨Reg.PG_CTRL page, 1, 1⟩
abbrev Fld.PG_CTRL_ENABLE (page : Nat) : Fld := ⟨Reg.PG_CTRL page, 0, 0⟩
abbrev Fld.PG_COMMIT_APPLIED_TICK (page : Nat) : Fld := ⟨Reg.PG_COMMIT page, 31, 16⟩
abbrev Fld.PG_COMMIT_PENDING (page : Nat) : Fld := ⟨Reg.PG_COMMIT page, 0, 0⟩
abbrev Fld.PG_STATUS_REJ_WORD (page : Nat) : Fld := ⟨Reg.PG_STATUS page, 25, 16⟩
abbrev Fld.PG_STATUS_BLOCK_STATUS (page : Nat) : Fld := ⟨Reg.PG_STATUS page, 15, 4⟩
abbrev Fld.PG_STATUS_SRST_BUSY (page : Nat) : Fld := ⟨Reg.PG_STATUS page, 2, 2⟩
abbrev Fld.PG_STATUS_ENABLED (page : Nat) : Fld := ⟨Reg.PG_STATUS page, 1, 1⟩
abbrev Fld.PG_STATUS_WR_REJ (page : Nat) : Fld := ⟨Reg.PG_STATUS page, 0, 0⟩
abbrev Fld.PG_EVENT_CNT_COUNT (page : Nat) : Fld := ⟨Reg.PG_EVENT_CNT page, 15, 0⟩
abbrev Fld.PG_POLICY_DRAINING (page : Nat) : Fld := ⟨Reg.PG_POLICY page, 16, 16⟩
abbrev Fld.PG_POLICY_EPOCH (page : Nat) : Fld := ⟨Reg.PG_POLICY page, 15, 0⟩

/-! ### The registers, by their spec names; `i` is the page instance, `k` the index in an array -/

abbrev Reg.SYS_ROLE : Nat := 0x00040
abbrev Reg.SYS_LOT : Nat := 0x00044
abbrev Reg.SYS_DIEPOS : Nat := 0x00048
abbrev Reg.SYS_SERIAL_LO : Nat := 0x0004c
abbrev Reg.SYS_SERIAL_HI : Nat := 0x00050
abbrev Reg.SYS_DOMAIN : Nat := 0x00054
abbrev Reg.SYS_MODE : Nat := 0x00058
abbrev Reg.SYS_MODE_ARM : Nat := 0x0005c
abbrev Reg.SYS_MODE_TICK_LO : Nat := 0x00060
abbrev Reg.SYS_MODE_TICK_HI : Nat := 0x00064
abbrev Reg.SYS_MODE_CTRL : Nat := 0x00068
abbrev Reg.SYS_MODE_STAT : Nat := 0x0006c
abbrev Reg.SYS_MODE_ACKS : Nat := 0x00070
abbrev Reg.SYS_DEFAULT : Nat := 0x00074
abbrev Reg.SYS_PDESC (k : Nat) : Nat := 0x00080 + 0x4 * k
abbrev Reg.CRIER_CTRL : Nat := 0x02040
abbrev Reg.CRIER_FAB_HOLD : Nat := 0x02044
abbrev Reg.CRIER_FAB_REL_TICK_LO : Nat := 0x02048
abbrev Reg.CRIER_FAB_REL_TICK_HI : Nat := 0x0204c
abbrev Reg.CRIER_FAB_STAT : Nat := 0x02050
abbrev Reg.CRIER_FAB_ERR_ADDR : Nat := 0x02054
abbrev Reg.CRIER_FAB_ERR_INFO : Nat := 0x02058
abbrev Reg.CRIER_PEND (k : Nat) : Nat := 0x02060 + 0x4 * k
abbrev Reg.CRIER_CORE_STAT (k : Nat) : Nat := 0x02080 + 0x4 * k
abbrev Reg.CRIER_SGI : Nat := 0x020a0
abbrev Reg.CRIER_MSIX_EOI : Nat := 0x020a4
abbrev Reg.CRIER_PIN_CTRL : Nat := 0x020a8
abbrev Reg.CRIER_GPIO_EDGE : Nat := 0x020b0
abbrev Reg.CRIER_GPIO_CFG (k : Nat) : Nat := 0x020c0 + 0x4 * k
abbrev Reg.CRIER_SRC_CFG (k : Nat) : Nat := 0x02400 + 0x4 * k
abbrev Reg.BELL_SRC_CFG : Nat := 0x03040
abbrev Reg.BELL_PTP_CFG : Nat := 0x03044
abbrev Reg.BELL_SERVO_GAIN : Nat := 0x03048
abbrev Reg.BELL_JUMP_THR : Nat := 0x0304c
abbrev Reg.BELL_SERVO_RANGE : Nat := 0x03050
abbrev Reg.BELL_STEP_CTRL : Nat := 0x03054
abbrev Reg.BELL_STATUS : Nat := 0x03058
abbrev Reg.BELL_OFFSET : Nat := 0x0305c
abbrev Reg.BELL_PATH_DLY : Nat := 0x03060
abbrev Reg.BELL_TIME_SUBNS : Nat := 0x03064
abbrev Reg.BELL_TIME_NS : Nat := 0x03068
abbrev Reg.BELL_TIME_SEC_LO : Nat := 0x0306c
abbrev Reg.BELL_TIME_SEC_HI : Nat := 0x03070
abbrev Reg.BELL_SET_NS : Nat := 0x03074
abbrev Reg.BELL_SET_SEC_LO : Nat := 0x03078
abbrev Reg.BELL_SET_SEC_HI : Nat := 0x0307c
abbrev Reg.BELL_TICK_CTRL : Nat := 0x03080
abbrev Reg.BELL_FRAME_NUM : Nat := 0x03084
abbrev Reg.BELL_FRAME_DEN : Nat := 0x03088
abbrev Reg.BELL_EPOCH_NS : Nat := 0x0308c
abbrev Reg.BELL_EPOCH_SEC_LO : Nat := 0x03090
abbrev Reg.BELL_EPOCH_SEC_HI : Nat := 0x03094
abbrev Reg.BELL_GUARD : Nat := 0x03098
abbrev Reg.BELL_BAND_CFG : Nat := 0x0309c
abbrev Reg.BELL_TICK_IDX_LO : Nat := 0x030a0
abbrev Reg.BELL_TICK_IDX_HI : Nat := 0x030a4
abbrev Reg.BELL_TICK_SKIP : Nat := 0x030a8
abbrev Reg.BELL_SYNC_CFG : Nat := 0x030ac
abbrev Reg.BELL_SYNC_CAP_NS : Nat := 0x030b0
abbrev Reg.BELL_SYNC_CAP_SEC_LO : Nat := 0x030b4
abbrev Reg.BELL_SYNC_CAP_SEC_HI : Nat := 0x030b8
abbrev Reg.BELL_TOUT_CFG (k : Nat) : Nat := 0x030c0 + 0x20 * k
abbrev Reg.BELL_TOUT_START_NS (k : Nat) : Nat := 0x030c4 + 0x20 * k
abbrev Reg.BELL_TOUT_START_SEC_LO (k : Nat) : Nat := 0x030c8 + 0x20 * k
abbrev Reg.BELL_TOUT_START_SEC_HI (k : Nat) : Nat := 0x030cc + 0x20 * k
abbrev Reg.BELL_TOUT_PERIOD_NS (k : Nat) : Nat := 0x030d0 + 0x20 * k
abbrev Reg.BELL_TOUT_OFFSET (k : Nat) : Nat := 0x030d4 + 0x20 * k
abbrev Reg.BELL_ASYM (k : Nat) : Nat := 0x03100 + 0x4 * k
abbrev Reg.SERDES_QCFG (i : Nat) : Nat := 0x10040 + 0x1000 * i
abbrev Reg.SERDES_SSC (i : Nat) : Nat := 0x10044 + 0x1000 * i
abbrev Reg.SERDES_QSTAT (i : Nat) : Nat := 0x10048 + 0x1000 * i
abbrev Reg.SERDES_LB (i : Nat) : Nat := 0x1004c + 0x1000 * i
abbrev Reg.SERDES_MON (i : Nat) : Nat := 0x10050 + 0x1000 * i
abbrev Reg.SERDES_EYE_MIN (i : Nat) : Nat := 0x10054 + 0x1000 * i
abbrev Reg.SERDES_L_TX (i : Nat) (k : Nat) : Nat := 0x10080 + 0x1000 * i + 0x40 * k
abbrev Reg.SERDES_L_RXEQ (i : Nat) (k : Nat) : Nat := 0x10084 + 0x1000 * i + 0x40 * k
abbrev Reg.SERDES_L_EYE (i : Nat) (k : Nat) : Nat := 0x10088 + 0x1000 * i + 0x40 * k
abbrev Reg.SERDES_L_STAT (i : Nat) (k : Nat) : Nat := 0x1008c + 0x1000 * i + 0x40 * k
abbrev Reg.SERDES_L_PRBS (i : Nat) (k : Nat) : Nat := 0x10090 + 0x1000 * i + 0x40 * k
abbrev Reg.SERDES_L_PRBS_ERR_LO (i : Nat) (k : Nat) : Nat := 0x10094 + 0x1000 * i + 0x40 * k
abbrev Reg.SERDES_L_PRBS_ERR_HI (i : Nat) (k : Nat) : Nat := 0x10098 + 0x1000 * i + 0x40 * k
abbrev Reg.SERDES_L_HDR_ERR (i : Nat) (k : Nat) : Nat := 0x1009c + 0x1000 * i + 0x40 * k
abbrev Reg.SERDES_L_BIP_ERR (i : Nat) (k : Nat) : Nat := 0x100a0 + 0x1000 * i + 0x40 * k
abbrev Reg.CHAIN_CFG (i : Nat) : Nat := 0x20040 + 0x1000 * i
abbrev Reg.CHAIN_STATE (i : Nat) : Nat := 0x20044 + 0x1000 * i
abbrev Reg.CHAIN_DISC (i : Nat) : Nat := 0x20048 + 0x1000 * i
abbrev Reg.CHAIN_RSP_TMO (i : Nat) : Nat := 0x2004c + 0x1000 * i
abbrev Reg.CHAIN_CMD_BUDGET (i : Nat) : Nat := 0x20050 + 0x1000 * i
abbrev Reg.CHAIN_LOSS_CNT (i : Nat) : Nat := 0x20054 + 0x1000 * i
abbrev Reg.CHAIN_LINK_DLY (i : Nat) : Nat := 0x20058 + 0x1000 * i
abbrev Reg.CHAIN_HOP_DLY (i : Nat) : Nat := 0x2005c + 0x1000 * i
abbrev Reg.CHAIN_POS (i : Nat) : Nat := 0x20060 + 0x1000 * i
abbrev Reg.CHAIN_HCRC_ERR (i : Nat) : Nat := 0x20080 + 0x1000 * i
abbrev Reg.CHAIN_CRC_ERR (i : Nat) : Nat := 0x20084 + 0x1000 * i
abbrev Reg.CHAIN_TRUNC (i : Nat) : Nat := 0x20088 + 0x1000 * i
abbrev Reg.CHAIN_ORPHAN (i : Nat) : Nat := 0x2008c + 0x1000 * i
abbrev Reg.CHAIN_TAG_ERR (i : Nat) : Nat := 0x20090 + 0x1000 * i
abbrev Reg.CHAIN_REPLAY_REJ (i : Nat) : Nat := 0x20094 + 0x1000 * i
abbrev Reg.CHAIN_DEADLINE_MISS (i : Nat) : Nat := 0x20098 + 0x1000 * i
abbrev Reg.CHAIN_NO_RESP (i : Nat) : Nat := 0x2009c + 0x1000 * i
abbrev Reg.CHAIN_LATE_ANS (i : Nat) : Nat := 0x200a0 + 0x1000 * i
abbrev Reg.CHAIN_SLOT_MISS (i : Nat) : Nat := 0x200a4 + 0x1000 * i
abbrev Reg.CHAIN_ANS_DEFER (i : Nat) : Nat := 0x200a8 + 0x1000 * i
abbrev Reg.CHAIN_LIST_IDX (i : Nat) : Nat := 0x200c0 + 0x1000 * i
abbrev Reg.CHAIN_LIST_SER_LO (i : Nat) : Nat := 0x200c4 + 0x1000 * i
abbrev Reg.CHAIN_LIST_SER_HI (i : Nat) : Nat := 0x200c8 + 0x1000 * i
abbrev Reg.CHAIN_LIST_INFO (i : Nat) : Nat := 0x200cc + 0x1000 * i
abbrev Reg.CHAIN_LIST_WDN (i : Nat) : Nat := 0x200d0 + 0x1000 * i
abbrev Reg.RET_CFG : Nat := 0x30040
abbrev Reg.RET_STAT : Nat := 0x30044
abbrev Reg.RET_UNITS : Nat := 0x30048
abbrev Reg.RET_ADV : Nat := 0x3004c
abbrev Reg.RET_MUTE : Nat := 0x30050
abbrev Reg.RET_EDGE_LAST : Nat := 0x30054
abbrev Reg.RET_GROUP_EN : Nat := 0x30058
abbrev Reg.RET_GROUP (k : Nat) : Nat := 0x30060 + 0x4 * k
abbrev Reg.RET_EDGE_CNT : Nat := 0x30080
abbrev Reg.RET_CLOBBER : Nat := 0x30084
abbrev Reg.RET_TEL_DROP : Nat := 0x30088
abbrev Reg.RET_EVQ_OVF : Nat := 0x3008c
abbrev Reg.ETH_CFG (i : Nat) : Nat := 0x40040 + 0x1000 * i
abbrev Reg.ETH_STAT (i : Nat) : Nat := 0x40044 + 0x1000 * i
abbrev Reg.ETH_MAC_LO (i : Nat) : Nat := 0x40048 + 0x1000 * i
abbrev Reg.ETH_MAC_HI (i : Nat) : Nat := 0x4004c + 0x1000 * i
abbrev Reg.ETH_IP (i : Nat) : Nat := 0x40050 + 0x1000 * i
abbrev Reg.ETH_MASK (i : Nat) : Nat := 0x40054 + 0x1000 * i
abbrev Reg.ETH_GW (i : Nat) : Nat := 0x40058 + 0x1000 * i
abbrev Reg.ETH_RX_OK_LO (i : Nat) : Nat := 0x40080 + 0x1000 * i
abbrev Reg.ETH_RX_OK_HI (i : Nat) : Nat := 0x40084 + 0x1000 * i
abbrev Reg.ETH_RX_FCS (i : Nat) : Nat := 0x40088 + 0x1000 * i
abbrev Reg.ETH_RX_OTHER (i : Nat) : Nat := 0x4008c + 0x1000 * i
abbrev Reg.ETH_FEC_CORR (i : Nat) : Nat := 0x40090 + 0x1000 * i
abbrev Reg.ETH_FEC_UNCORR (i : Nat) : Nat := 0x40094 + 0x1000 * i
abbrev Reg.ETH_PTP_DISC (i : Nat) : Nat := 0x40098 + 0x1000 * i
abbrev Reg.ETH_TC_FWD (i : Nat) : Nat := 0x4009c + 0x1000 * i
abbrev Reg.INGEST_PIPE_STAT (i : Nat) : Nat := 0x42040 + 0x1000 * i
abbrev Reg.INGEST_CRAM_ADDR (i : Nat) : Nat := 0x42044 + 0x1000 * i
abbrev Reg.INGEST_CRAM_DATA (i : Nat) : Nat := 0x42048 + 0x1000 * i
abbrev Reg.INGEST_USE_SCL (i : Nat) : Nat := 0x4204c + 0x1000 * i
abbrev Reg.INGEST_USE_LUT (i : Nat) : Nat := 0x42050 + 0x1000 * i
abbrev Reg.INGEST_CTX_CFG (i : Nat) (k : Nat) : Nat := 0x42100 + 0x1000 * i + 0x80 * k
abbrev Reg.INGEST_CTX_GROUP (i : Nat) (k : Nat) : Nat := 0x42104 + 0x1000 * i + 0x80 * k
abbrev Reg.INGEST_CTX_SRCIP (i : Nat) (k : Nat) : Nat := 0x42108 + 0x1000 * i + 0x80 * k
abbrev Reg.INGEST_CTX_UDP (i : Nat) (k : Nat) : Nat := 0x4210c + 0x1000 * i + 0x80 * k
abbrev Reg.INGEST_CTX_IN_SIZE (i : Nat) (k : Nat) : Nat := 0x42110 + 0x1000 * i + 0x80 * k
abbrev Reg.INGEST_CTX_RATE (i : Nat) (k : Nat) : Nat := 0x42114 + 0x1000 * i + 0x80 * k
abbrev Reg.INGEST_CTX_COLOUR (i : Nat) (k : Nat) : Nat := 0x42118 + 0x1000 * i + 0x80 * k
abbrev Reg.INGEST_CTX_SCALE (i : Nat) (k : Nat) : Nat := 0x4211c + 0x1000 * i + 0x80 * k
abbrev Reg.INGEST_CTX_OUT_SIZE (i : Nat) (k : Nat) : Nat := 0x42120 + 0x1000 * i + 0x80 * k
abbrev Reg.INGEST_CTX_FS_BASE_LO (i : Nat) (k : Nat) : Nat := 0x42124 + 0x1000 * i + 0x80 * k
abbrev Reg.INGEST_CTX_FS_BASE_HI (i : Nat) (k : Nat) : Nat := 0x42128 + 0x1000 * i + 0x80 * k
abbrev Reg.INGEST_CTX_FS_STRIDE (i : Nat) (k : Nat) : Nat := 0x4212c + 0x1000 * i + 0x80 * k
abbrev Reg.INGEST_CTX_LATCH (i : Nat) (k : Nat) : Nat := 0x42130 + 0x1000 * i + 0x80 * k
abbrev Reg.INGEST_CTX_HOLD (i : Nat) (k : Nat) : Nat := 0x42134 + 0x1000 * i + 0x80 * k
abbrev Reg.INGEST_CTX_FILL (i : Nat) (k : Nat) : Nat := 0x42138 + 0x1000 * i + 0x80 * k
abbrev Reg.INGEST_CTX_STAT (i : Nat) (k : Nat) : Nat := 0x42140 + 0x1000 * i + 0x80 * k
abbrev Reg.INGEST_CTX_TS (i : Nat) (k : Nat) : Nat := 0x42144 + 0x1000 * i + 0x80 * k
abbrev Reg.INGEST_CTX_LINE (i : Nat) (k : Nat) : Nat := 0x42148 + 0x1000 * i + 0x80 * k
abbrev Reg.INGEST_CTX_PKT_RX (i : Nat) (k : Nat) : Nat := 0x42150 + 0x1000 * i + 0x80 * k
abbrev Reg.INGEST_CTX_PKT_LOST (i : Nat) (k : Nat) : Nat := 0x42154 + 0x1000 * i + 0x80 * k
abbrev Reg.INGEST_CTX_PKT_LATE (i : Nat) (k : Nat) : Nat := 0x42158 + 0x1000 * i + 0x80 * k
abbrev Reg.INGEST_CTX_FRAME_LATE (i : Nat) (k : Nat) : Nat := 0x4215c + 0x1000 * i + 0x80 * k
abbrev Reg.INGEST_CTX_FRAME_BAD (i : Nat) (k : Nat) : Nat := 0x42160 + 0x1000 * i + 0x80 * k
abbrev Reg.LOOM_CFG : Nat := 0x50040
abbrev Reg.LOOM_ORDER_LO : Nat := 0x50044
abbrev Reg.LOOM_ORDER_HI : Nat := 0x50048
abbrev Reg.LOOM_BG_RG : Nat := 0x5004c
abbrev Reg.LOOM_BG_B : Nat := 0x50050
abbrev Reg.LOOM_POST_LUT : Nat := 0x50054
abbrev Reg.LOOM_GRP_PWR : Nat := 0x50058
abbrev Reg.LOOM_STAT : Nat := 0x5005c
abbrev Reg.LOOM_LOAD : Nat := 0x50060
abbrev Reg.LOOM_FLIP_GROUP : Nat := 0x50064
abbrev Reg.LOOM_LUT_ADDR : Nat := 0x50068
abbrev Reg.LOOM_LUT_DATA : Nat := 0x5006c
abbrev Reg.LOOM_LUT_USE : Nat := 0x50070
abbrev Reg.LOOM_FENCE_INC : Nat := 0x50074
abbrev Reg.LOOM_FENCE (k : Nat) : Nat := 0x50080 + 0x4 * k
abbrev Reg.LOOM_LYR_CFG (i : Nat) : Nat := 0x51040 + 0x1000 * i
abbrev Reg.LOOM_LYR_SRC_LO (i : Nat) : Nat := 0x51044 + 0x1000 * i
abbrev Reg.LOOM_LYR_SRC_HI (i : Nat) : Nat := 0x51048 + 0x1000 * i
abbrev Reg.LOOM_LYR_STRIDE (i : Nat) : Nat := 0x5104c + 0x1000 * i
abbrev Reg.LOOM_LYR_CROP_POS (i : Nat) : Nat := 0x51050 + 0x1000 * i
abbrev Reg.LOOM_LYR_CROP_SIZE (i : Nat) : Nat := 0x51054 + 0x1000 * i
abbrev Reg.LOOM_LYR_DST (i : Nat) : Nat := 0x51058 + 0x1000 * i
abbrev Reg.LOOM_LYR_ALPHA (i : Nat) : Nat := 0x5105c + 0x1000 * i
abbrev Reg.LOOM_LYR_FENCE_WAIT (i : Nat) : Nat := 0x51060 + 0x1000 * i
abbrev Reg.LOOM_LYR_FENCE_TMO (i : Nat) : Nat := 0x51064 + 0x1000 * i
abbrev Reg.LOOM_LYR_FENCE_CANCEL (i : Nat) : Nat := 0x51068 + 0x1000 * i
abbrev Reg.LOOM_LYR_STAT (i : Nat) : Nat := 0x5106c + 0x1000 * i
abbrev Reg.LOOM_LYR_SHOWN (i : Nat) : Nat := 0x51070 + 0x1000 * i
abbrev Reg.SCAN_CANVAS : Nat := 0x68040
abbrev Reg.SCAN_TIMING : Nat := 0x68044
abbrev Reg.SCAN_CODE : Nat := 0x68048
abbrev Reg.SCAN_CC10 : Nat := 0x6804c
abbrev Reg.SCAN_MAP_CFG : Nat := 0x68050
abbrev Reg.SCAN_MAP_ADDR : Nat := 0x68054
abbrev Reg.SCAN_MAP_DATA : Nat := 0x68058
abbrev Reg.SCAN_STAT : Nat := 0x6805c
abbrev Reg.SCAN_WM (k : Nat) : Nat := 0x68060 + 0x4 * k
abbrev Reg.SCAN_FILL_MIN : Nat := 0x68070
abbrev Reg.SCAN_UNDERRUN_LAST : Nat := 0x68074
abbrev Reg.SCAN_UNDERRUN_CNT : Nat := 0x68078
abbrev Reg.SCAN_SWIFT_LATE : Nat := 0x6807c
abbrev Reg.SCAN_SUSPENDED : Nat := 0x68080
abbrev Reg.SCAN_CRC_CFG : Nat := 0x68088
abbrev Reg.SCAN_CRC_MISS : Nat := 0x6808c
abbrev Reg.SCAN_CRC_MISS_CNT : Nat := 0x68090
abbrev Reg.SCAN_CH_STAT (k : Nat) : Nat := 0x680c0 + 0x4 * k
abbrev Reg.SCAN_CRC_POS (k : Nat) : Nat := 0x68100 + 0x10 * k
abbrev Reg.SCAN_CRC_SIZE (k : Nat) : Nat := 0x68104 + 0x10 * k
abbrev Reg.SCAN_CRC_EXP (k : Nat) : Nat := 0x68108 + 0x10 * k
abbrev Reg.SCAN_CRC_VAL (k : Nat) : Nat := 0x6810c + 0x10 * k
abbrev Reg.CORR_CFG : Nat := 0xa1040
abbrev Reg.CORR_BRIGHT : Nat := 0xa1044
abbrev Reg.CORR_SCALE_CUR : Nat := 0xa1048
abbrev Reg.CORR_FADE_CUR : Nat := 0xa104c
abbrev Reg.CORR_DERATE_CUR : Nat := 0xa1050
abbrev Reg.CORR_FLAGS : Nat := 0xa1054
abbrev Reg.CORR_FLAG_FIRST : Nat := 0xa1058
abbrev Reg.CORR_FLAG_FRAMES : Nat := 0xa105c
abbrev Reg.CORR_MEM_ADDR : Nat := 0xa1060
abbrev Reg.CORR_MEM_DATA : Nat := 0xa1064
abbrev Reg.CORR_LOAD_REJ : Nat := 0xa1068
abbrev Reg.CORR_STAT : Nat := 0xa106c
abbrev Reg.NIMBUS_STAT : Nat := 0xa0040
abbrev Reg.NIMBUS_RX : Nat := 0xa0044
abbrev Reg.NIMBUS_LAST_FAIL : Nat := 0xa0048
abbrev Reg.NIMBUS_BAND : Nat := 0xa004c
abbrev Reg.NIMBUS_SWAP_CNT : Nat := 0xa0050
abbrev Reg.NIMBUS_HELD_CNT : Nat := 0xa0054
abbrev Reg.NIMBUS_LATE_CNT : Nat := 0xa0058
abbrev Reg.NIMBUS_INVALID_CNT : Nat := 0xa005c
abbrev Reg.NIMBUS_EMPTY_CNT : Nat := 0xa0060
abbrev Reg.NIMBUS_AFTER_CNT : Nat := 0xa0064
abbrev Reg.LAMP_SCAN_CFG : Nat := 0xa6040
abbrev Reg.LAMP_ROW_TIMING : Nat := 0xa6044
abbrev Reg.LAMP_PRECHG : Nat := 0xa6048
abbrev Reg.LAMP_PHASE : Nat := 0xa604c
abbrev Reg.LAMP_GAIN : Nat := 0xa6050
abbrev Reg.LAMP_IREF : Nat := 0xa6054
abbrev Reg.LAMP_ICOL_RG : Nat := 0xa6058
abbrev Reg.LAMP_ICOL_B : Nat := 0xa605c
abbrev Reg.LAMP_FADE_TARGET : Nat := 0xa6060
abbrev Reg.LAMP_FADE_MS : Nat := 0xa6064
abbrev Reg.LAMP_FADE_STAT : Nat := 0xa6068
abbrev Reg.LAMP_ILIM : Nat := 0xa606c
abbrev Reg.LAMP_ILIM_STAT : Nat := 0xa6070
abbrev Reg.LAMP_FAULT_CFG : Nat := 0xa6074
abbrev Reg.LAMP_SWEEP_CTRL : Nat := 0xa6078
abbrev Reg.LAMP_SWEEP_STAT : Nat := 0xa607c
abbrev Reg.LAMP_FAULT_IDX : Nat := 0xa6080
abbrev Reg.LAMP_FAULT_ENTRY : Nat := 0xa6084
abbrev Reg.LAMP_FAULT_CNT : Nat := 0xa6088
abbrev Reg.LAMP_STAT : Nat := 0xa608c
abbrev Reg.LAMP_GRID_ROW : Nat := 0xa6090
abbrev Reg.LAMP_GRID_ON : Nat := 0xa6094
abbrev Reg.LAMP_ILIM_EST : Nat := 0xa6098
abbrev Reg.LAMP_GRP_STAT (i : Nat) : Nat := 0xa2040 + 0x1000 * i
abbrev Reg.LAMP_GRP_VMIN (i : Nat) : Nat := 0xa2044 + 0x1000 * i
abbrev Reg.LAMP_PINFLT (i : Nat) (k : Nat) : Nat := 0xa2050 + 0x1000 * i + 0x4 * k
abbrev Reg.LAMP_TRIM (i : Nat) (k : Nat) : Nat := 0xa2080 + 0x1000 * i + 0x4 * k
abbrev Reg.LAMP_MASK (i : Nat) (k : Nat) : Nat := 0xa2200 + 0x1000 * i + 0x4 * k
abbrev Reg.HALO_ACC_SRC : Nat := 0x48040
abbrev Reg.HALO_ACC_WIN_POS : Nat := 0x48044
abbrev Reg.HALO_ACC_WIN_SIZE : Nat := 0x48048
abbrev Reg.HALO_ACC_FRAMES : Nat := 0x4804c
abbrev Reg.HALO_ACC_BASE_LO : Nat := 0x48050
abbrev Reg.HALO_ACC_BASE_HI : Nat := 0x48054
abbrev Reg.HALO_ACC_START_LO : Nat := 0x48058
abbrev Reg.HALO_ACC_START_HI : Nat := 0x4805c
abbrev Reg.HALO_ACC_CTRL : Nat := 0x48060
abbrev Reg.HALO_ACC_STAT : Nat := 0x48064
abbrev Reg.HALO_ACC_DONE : Nat := 0x48068
abbrev Reg.HALO_ACC_SAT : Nat := 0x4806c
abbrev Reg.HALO_ACC_SAT_FRAME : Nat := 0x48070
abbrev Reg.HALO_ACC_DISCARD : Nat := 0x48074
abbrev Reg.HALO_JOB_LO : Nat := 0x48080
abbrev Reg.HALO_JOB_HI : Nat := 0x48084
abbrev Reg.HALO_JOB_TICK_LO : Nat := 0x48088
abbrev Reg.HALO_JOB_TICK_HI : Nat := 0x4808c
abbrev Reg.HALO_JOB_CTRL : Nat := 0x48090
abbrev Reg.HALO_JOB_STAT : Nat := 0x48094
abbrev Reg.HALO_PUSH_LIST_LO : Nat := 0x480a0
abbrev Reg.HALO_PUSH_LIST_HI : Nat := 0x480a4
abbrev Reg.HALO_PUSH_COUNT : Nat := 0x480a8
abbrev Reg.HALO_PUSH_TICK_LO : Nat := 0x480ac
abbrev Reg.HALO_PUSH_TICK_HI : Nat := 0x480b0
abbrev Reg.HALO_PUSH_CTRL : Nat := 0x480b4
abbrev Reg.HALO_PUSH_STAT : Nat := 0x480b8
abbrev Reg.HALO_PUSH_CFG : Nat := 0x480bc
abbrev Reg.HALO_LIM_DIAG : Nat := 0x480c0
abbrev Reg.HALO_LIM_MISC : Nat := 0x480c4
abbrev Reg.HALO_S_CFA (k : Nat) : Nat := 0x48100 + 0x20 * k
abbrev Reg.HALO_S_BLACK_LO (k : Nat) : Nat := 0x48104 + 0x20 * k
abbrev Reg.HALO_S_BLACK_HI (k : Nat) : Nat := 0x48108 + 0x20 * k
abbrev Reg.HALO_S_GAIN_LO (k : Nat) : Nat := 0x4810c + 0x20 * k
abbrev Reg.HALO_S_GAIN_HI (k : Nat) : Nat := 0x48110 + 0x20 * k
abbrev Reg.HALO_S_APPLY (k : Nat) : Nat := 0x48114 + 0x20 * k
abbrev Reg.HALO_S_STAT (k : Nat) : Nat := 0x48118 + 0x20 * k
abbrev Reg.CSI_CFG (i : Nat) : Nat := 0x49040 + 0x1000 * i
abbrev Reg.CSI_STAT (i : Nat) : Nat := 0x49044 + 0x1000 * i
abbrev Reg.CSI_ECC_CORR (i : Nat) : Nat := 0x49048 + 0x1000 * i
abbrev Reg.CSI_ECC_ERR (i : Nat) : Nat := 0x4904c + 0x1000 * i
abbrev Reg.CSI_CRC_ERR (i : Nat) : Nat := 0x49050 + 0x1000 * i
abbrev Reg.CSI_FRAME_DROP (i : Nat) : Nat := 0x49054 + 0x1000 * i
abbrev Reg.CSI_VC_CFG (i : Nat) (k : Nat) : Nat := 0x49080 + 0x1000 * i + 0x10 * k
abbrev Reg.CSI_VC_SIZE (i : Nat) (k : Nat) : Nat := 0x49084 + 0x1000 * i + 0x10 * k
abbrev Reg.CSI_VC_TMO (i : Nat) (k : Nat) : Nat := 0x49088 + 0x1000 * i + 0x10 * k
abbrev Reg.CSI_VC_STAT (i : Nat) (k : Nat) : Nat := 0x4908c + 0x1000 * i + 0x10 * k
abbrev Reg.GRAN_CH_CFG (i : Nat) : Nat := 0x70040 + 0x1000 * i
abbrev Reg.GRAN_CH_STAT (i : Nat) : Nat := 0x70044 + 0x1000 * i
abbrev Reg.GRAN_CH_RETRAIN (i : Nat) : Nat := 0x70048 + 0x1000 * i
abbrev Reg.GRAN_CH_ERR_ADDR_LO (i : Nat) : Nat := 0x7004c + 0x1000 * i
abbrev Reg.GRAN_CH_ERR_ADDR_HI (i : Nat) : Nat := 0x70050 + 0x1000 * i
abbrev Reg.GRAN_CH_ERR_INFO (i : Nat) : Nat := 0x70054 + 0x1000 * i
abbrev Reg.GRAN_CH_CE_CNT (i : Nat) : Nat := 0x70058 + 0x1000 * i
abbrev Reg.GRAN_CH_UE_CNT (i : Nat) : Nat := 0x7005c + 0x1000 * i
abbrev Reg.GRAN_CH_MARGIN (i : Nat) : Nat := 0x70060 + 0x1000 * i
abbrev Reg.GRAN_MGR_CFG : Nat := 0x74040
abbrev Reg.GRAN_MGR_TOP : Nat := 0x74044
abbrev Reg.GRAN_MGR_STAT : Nat := 0x74048
abbrev Reg.GRAN_MGR_CTRL : Nat := 0x7404c
abbrev Reg.GRAN_MGR_UNW : Nat := 0x74050
abbrev Reg.GRAN_MGR_SCRUB : Nat := 0x74054
abbrev Reg.GRAN_MGR_MIG_MS : Nat := 0x74058
abbrev Reg.GRAN_MGR_POISON_CNT : Nat := 0x7405c
abbrev Reg.GRAN_MGR_POISON_RD : Nat := 0x74060
abbrev Reg.GRAN_MGR_OOR : Nat := 0x74064
abbrev Reg.GRAN_MGR_CE_THR : Nat := 0x74068
abbrev Reg.ARB_CFG : Nat := 0x75040
abbrev Reg.ARB_URG : Nat := 0x75044
abbrev Reg.ARB_STARVE_TMO : Nat := 0x75048
abbrev Reg.ARB_STARVE : Nat := 0x7504c
abbrev Reg.ARB_GRANT : Nat := 0x75050
abbrev Reg.ARB_STARVE_CNT : Nat := 0x75054
abbrev Reg.ARB_REQ_CFG (k : Nat) : Nat := 0x75080 + 0x4 * k
abbrev Reg.WELL_RT_BASE_LO : Nat := 0x80040
abbrev Reg.WELL_RT_BASE_HI : Nat := 0x80044
abbrev Reg.WELL_SPILL_BASE_LO : Nat := 0x80048
abbrev Reg.WELL_SPILL_BASE_HI : Nat := 0x8004c
abbrev Reg.WELL_SPILL_SIZE : Nat := 0x80050
abbrev Reg.WELL_RING_CTRL : Nat := 0x80054
abbrev Reg.WELL_RING_RES : Nat := 0x80058
abbrev Reg.WELL_NOTIFY : Nat := 0x8005c
abbrev Reg.WELL_NOTIFY_CFG : Nat := 0x80060
abbrev Reg.WELL_BURST : Nat := 0x80064
abbrev Reg.WELL_INFLIGHT : Nat := 0x80068
abbrev Reg.WELL_TEL_DROP : Nat := 0x8006c
abbrev Reg.WELL_EVT_DROP : Nat := 0x80070
abbrev Reg.WELL_DB_ERR : Nat := 0x80074
abbrev Reg.WELL_SPILLED : Nat := 0x80078
abbrev Reg.WELL_MGMT_CFG : Nat := 0x80080
abbrev Reg.WELL_MGMT_IP : Nat := 0x80084
abbrev Reg.WELL_MGMT_PEER : Nat := 0x80088
abbrev Reg.WELL_MGMT_STAT : Nat := 0x8008c
abbrev Reg.PCIE_ID : Nat := 0x81040
abbrev Reg.PCIE_CFG : Nat := 0x81044
abbrev Reg.PCIE_LINK : Nat := 0x81048
abbrev Reg.PCIE_MSIX : Nat := 0x8104c
abbrev Reg.PCIE_NOTIFY_LO : Nat := 0x81050
abbrev Reg.PCIE_NOTIFY_HI : Nat := 0x81054
abbrev Reg.PCIE_CORR_CNT : Nat := 0x81058
abbrev Reg.PCIE_UNCORR_CNT : Nat := 0x8105c
abbrev Reg.TWIN_CFG : Nat := 0x90040
abbrev Reg.TWIN_RING : Nat := 0x90044
abbrev Reg.TWIN_STAT : Nat := 0x90048
abbrev Reg.TWIN_PORTS : Nat := 0x9004c
abbrev Reg.TWIN_REJOIN : Nat := 0x90050
abbrev Reg.TWIN_REJOIN_TICK_LO : Nat := 0x90054
abbrev Reg.TWIN_REJOIN_TICK_HI : Nat := 0x90058
abbrev Reg.TWIN_CTRL : Nat := 0x9005c
abbrev Reg.TWIN_COPY_STAT : Nat := 0x90060
abbrev Reg.TWIN_HEALTH : Nat := 0x90064
abbrev Reg.TWIN_MIRROR_LAG : Nat := 0x90068
abbrev Reg.TWIN_COPY_LATE : Nat := 0x9006c
abbrev Reg.TWIN_REPLAYED : Nat := 0x90070
abbrev Reg.TWIN_SWITCH_CNT : Nat := 0x90074
abbrev Reg.TWIN_MW_BASE (k : Nat) : Nat := 0x90080 + 0x8 * k
abbrev Reg.TWIN_MW_SIZE (k : Nat) : Nat := 0x90084 + 0x8 * k
abbrev Reg.ELDER_NOM (k : Nat) : Nat := 0x91040 + 0x4 * k
abbrev Reg.ELDER_MAND (k : Nat) : Nat := 0x9104c + 0x4 * k
abbrev Reg.ELDER_HEARD : Nat := 0x91058
abbrev Reg.ELDER_T_CFG : Nat := 0x91080
abbrev Reg.ELDER_T_HOLDER : Nat := 0x91084
abbrev Reg.ELDER_T_EPOCH : Nat := 0x91088
abbrev Reg.ELDER_T_PEER : Nat := 0x9108c
abbrev Reg.ELDER_T_ALT : Nat := 0x91090
abbrev Reg.ELDER_T_ALT_ADV : Nat := 0x91094
abbrev Reg.ELDER_T_STAT : Nat := 0x91098
abbrev Reg.GATE_LIFECYCLE : Nat := 0xb0040
abbrev Reg.GATE_FUSE_DIS : Nat := 0xb0044
abbrev Reg.GATE_BOOT : Nat := 0xb0048
abbrev Reg.GATE_CLAIM : Nat := 0xb004c
abbrev Reg.GATE_OWNER_ID_LO : Nat := 0xb0050
abbrev Reg.GATE_OWNER_ID_HI : Nat := 0xb0054
abbrev Reg.GATE_TAMPER_EN : Nat := 0xb0058
abbrev Reg.GATE_TAMPER_STAT : Nat := 0xb005c
abbrev Reg.GATE_QUAR : Nat := 0xb0060
abbrev Reg.GATE_POL_ADDR : Nat := 0xb0064
abbrev Reg.GATE_POL_DATA : Nat := 0xb0068
abbrev Reg.GATE_POL_COMMIT : Nat := 0xb006c
abbrev Reg.GATE_ATT_CTRL : Nat := 0xb0070
abbrev Reg.GATE_ATT_STAT : Nat := 0xb0074
abbrev Reg.GATE_ATT_NONCE (k : Nat) : Nat := 0xb0080 + 0x4 * k
abbrev Reg.GATE_ATT_REPORT (k : Nat) : Nat := 0xb0200 + 0x4 * k
abbrev Reg.KEYS_SEL : Nat := 0xb1040
abbrev Reg.KEYS_CTRL : Nat := 0xb1044
abbrev Reg.KEYS_STAT : Nat := 0xb1048
abbrev Reg.KEYS_INFO : Nat := 0xb104c
abbrev Reg.KEYS_KID_LO : Nat := 0xb1050
abbrev Reg.KEYS_KID_HI : Nat := 0xb1054
abbrev Reg.KEYS_IN_USE : Nat := 0xb1058
abbrev Reg.KEYS_REVOKED : Nat := 0xb105c
abbrev Reg.KEYS_BUF (k : Nat) : Nat := 0xb1100 + 0x4 * k
abbrev Reg.UPDATE_CFG : Nat := 0xc0040
abbrev Reg.UPDATE_DL_STAT : Nat := 0xc0044
abbrev Reg.UPDATE_CHUNK_LO : Nat := 0xc0048
abbrev Reg.UPDATE_CHUNK_HI : Nat := 0xc004c
abbrev Reg.UPDATE_CHUNK_CTRL : Nat := 0xc0050
abbrev Reg.UPDATE_BITMAP_IDX : Nat := 0xc0054
abbrev Reg.UPDATE_BITMAP : Nat := 0xc0058
abbrev Reg.UPDATE_ACT_CTRL : Nat := 0xc005c
abbrev Reg.UPDATE_ACT_TICK_LO : Nat := 0xc0060
abbrev Reg.UPDATE_ACT_TICK_HI : Nat := 0xc0064
abbrev Reg.UPDATE_ACT_STAT : Nat := 0xc0068
abbrev Reg.UPDATE_ACT_ACKS : Nat := 0xc006c
abbrev Reg.UPDATE_SLOTS : Nat := 0xc0070
abbrev Reg.UPDATE_CFG_GEN : Nat := 0xc0074
abbrev Reg.UPDATE_BOOT_BUDGET : Nat := 0xc0078
abbrev Reg.UPDATE_SVN : Nat := 0xc007c
abbrev Reg.UPDATE_T_STAT : Nat := 0xc0080
abbrev Reg.UPDATE_T_IMAGE : Nat := 0xc0084
abbrev Reg.UPDATE_T_STAGE : Nat := 0xc0088
abbrev Reg.PWR_STATE : Nat := 0x01040
abbrev Reg.PWR_STATE_CTRL : Nat := 0x01044
abbrev Reg.PWR_STATE_TICK_LO : Nat := 0x01048
abbrev Reg.PWR_STATE_TICK_HI : Nat := 0x0104c
abbrev Reg.PWR_WAKE_EN : Nat := 0x01050
abbrev Reg.PWR_WAKE_TIMER : Nat := 0x01054
abbrev Reg.PWR_WAKE_CAUSE : Nat := 0x01058
abbrev Reg.PWR_RESET_CAUSE : Nat := 0x0105c
abbrev Reg.PWR_RESET_CTRL : Nat := 0x01060
abbrev Reg.PWR_WDT : Nat := 0x01064
abbrev Reg.PWR_DWELL : Nat := 0x01068
abbrev Reg.PWR_SEQ_STAT : Nat := 0x0106c
abbrev Reg.PWR_DOM_ON (k : Nat) : Nat := 0x01070 + 0x4 * k
abbrev Reg.PWR_DOM_ROLE (k : Nat) : Nat := 0x01080 + 0x4 * k
abbrev Reg.WEATHER_TEMP : Nat := 0x04040
abbrev Reg.WEATHER_CFG : Nat := 0x04044
abbrev Reg.WEATHER_OFFSET : Nat := 0x04048
abbrev Reg.WEATHER_DERATE : Nat := 0x0404c
abbrev Reg.WEATHER_PEAK : Nat := 0x04050
abbrev Reg.WEATHER_STAT : Nat := 0x04054
abbrev Reg.WEATHER_TRIP_CNT : Nat := 0x04058
abbrev Reg.WEATHER_FAULT_CNT : Nat := 0x0405c

/-! ### The fields: register name, underscore, field name -/

abbrev Fld.SYS_ROLE_FACTORY : Fld := ⟨Reg.SYS_ROLE, 13, 13⟩
abbrev Fld.SYS_ROLE_DESC_BAD : Fld := ⟨Reg.SYS_ROLE, 12, 12⟩
abbrev Fld.SYS_ROLE_DESC_SRC : Fld := ⟨Reg.SYS_ROLE, 9, 8⟩
abbrev Fld.SYS_ROLE_GEO_SEL : Fld := ⟨Reg.SYS_ROLE, 6, 4⟩
abbrev Fld.SYS_ROLE_ROLE : Fld := ⟨Reg.SYS_ROLE, 1, 0⟩
abbrev Fld.SYS_LOT_WAFER : Fld := ⟨Reg.SYS_LOT, 28, 24⟩
abbrev Fld.SYS_LOT_LOT : Fld := ⟨Reg.SYS_LOT, 23, 0⟩
abbrev Fld.SYS_DIEPOS_SITE : Fld := ⟨Reg.SYS_DIEPOS, 19, 16⟩
abbrev Fld.SYS_DIEPOS_DIE_Y : Fld := ⟨Reg.SYS_DIEPOS, 15, 8⟩
abbrev Fld.SYS_DIEPOS_DIE_X : Fld := ⟨Reg.SYS_DIEPOS, 7, 0⟩
abbrev Fld.SYS_DOMAIN_WDN : Fld := ⟨Reg.SYS_DOMAIN, 31, 16⟩
abbrev Fld.SYS_DOMAIN_WDN_VALID : Fld := ⟨Reg.SYS_DOMAIN, 15, 15⟩
abbrev Fld.SYS_DOMAIN_SENDER_IDX : Fld := ⟨Reg.SYS_DOMAIN, 5, 0⟩
abbrev Fld.SYS_MODE_MODE : Fld := ⟨Reg.SYS_MODE, 2, 0⟩
abbrev Fld.SYS_MODE_ARM_MODE : Fld := ⟨Reg.SYS_MODE_ARM, 2, 0⟩
abbrev Fld.SYS_MODE_CTRL_CANCEL : Fld := ⟨Reg.SYS_MODE_CTRL, 1, 1⟩
abbrev Fld.SYS_MODE_CTRL_ARM : Fld := ⟨Reg.SYS_MODE_CTRL, 0, 0⟩
abbrev Fld.SYS_MODE_STAT_CAUSE : Fld := ⟨Reg.SYS_MODE_STAT, 11, 8⟩
abbrev Fld.SYS_MODE_STAT_STATE : Fld := ⟨Reg.SYS_MODE_STAT, 2, 0⟩
abbrev Fld.SYS_MODE_ACKS_EXPECTED : Fld := ⟨Reg.SYS_MODE_ACKS, 31, 16⟩
abbrev Fld.SYS_MODE_ACKS_ACKED : Fld := ⟨Reg.SYS_MODE_ACKS, 15, 0⟩
abbrev Fld.SYS_DEFAULT_AUTO_STREAM : Fld := ⟨Reg.SYS_DEFAULT, 9, 9⟩
abbrev Fld.SYS_DEFAULT_IDLE_PAT_EN : Fld := ⟨Reg.SYS_DEFAULT, 8, 8⟩
abbrev Fld.SYS_DEFAULT_BRIGHT_CAP : Fld := ⟨Reg.SYS_DEFAULT, 7, 0⟩
abbrev Fld.CRIER_CTRL_PRIGROUP : Fld := ⟨Reg.CRIER_CTRL, 2, 0⟩
abbrev Fld.CRIER_FAB_HOLD_AT_TICK : Fld := ⟨Reg.CRIER_FAB_HOLD, 1, 1⟩
abbrev Fld.CRIER_FAB_HOLD_HOLD : Fld := ⟨Reg.CRIER_FAB_HOLD, 0, 0⟩
abbrev Fld.CRIER_FAB_STAT_RELEASE_PENDING : Fld := ⟨Reg.CRIER_FAB_STAT, 31, 31⟩
abbrev Fld.CRIER_FAB_STAT_REL_LATE : Fld := ⟨Reg.CRIER_FAB_STAT, 30, 30⟩
abbrev Fld.CRIER_FAB_STAT_HELD_PAGES : Fld := ⟨Reg.CRIER_FAB_STAT, 11, 0⟩
abbrev Fld.CRIER_FAB_ERR_ADDR_ADDR : Fld := ⟨Reg.CRIER_FAB_ERR_ADDR, 23, 0⟩
abbrev Fld.CRIER_FAB_ERR_INFO_COUNT : Fld := ⟨Reg.CRIER_FAB_ERR_INFO, 31, 16⟩
abbrev Fld.CRIER_FAB_ERR_INFO_CAUSE : Fld := ⟨Reg.CRIER_FAB_ERR_INFO, 15, 12⟩
abbrev Fld.CRIER_FAB_ERR_INFO_WRITE : Fld := ⟨Reg.CRIER_FAB_ERR_INFO, 8, 8⟩
abbrev Fld.CRIER_FAB_ERR_INFO_REQUESTER : Fld := ⟨Reg.CRIER_FAB_ERR_INFO, 3, 0⟩
abbrev Fld.CRIER_CORE_STAT_MASKED (k : Nat) : Fld := ⟨Reg.CRIER_CORE_STAT k, 31, 31⟩
abbrev Fld.CRIER_CORE_STAT_ASLEEP (k : Nat) : Fld := ⟨Reg.CRIER_CORE_STAT k, 30, 30⟩
abbrev Fld.CRIER_CORE_STAT_DEPTH (k : Nat) : Fld := ⟨Reg.CRIER_CORE_STAT k, 28, 24⟩
abbrev Fld.CRIER_CORE_STAT_ACTIVE (k : Nat) : Fld := ⟨Reg.CRIER_CORE_STAT k, 20, 20⟩
abbrev Fld.CRIER_CORE_STAT_RUN_PRIO (k : Nat) : Fld := ⟨Reg.CRIER_CORE_STAT k, 19, 16⟩
abbrev Fld.CRIER_CORE_STAT_ACTIVE_SRC (k : Nat) : Fld := ⟨Reg.CRIER_CORE_STAT k, 7, 0⟩
abbrev Fld.CRIER_SGI_SET : Fld := ⟨Reg.CRIER_SGI, 7, 0⟩
abbrev Fld.CRIER_MSIX_EOI_VECTOR : Fld := ⟨Reg.CRIER_MSIX_EOI, 5, 0⟩
abbrev Fld.CRIER_PIN_CTRL_LEVEL : Fld := ⟨Reg.CRIER_PIN_CTRL, 31, 31⟩
abbrev Fld.CRIER_PIN_CTRL_MASK : Fld := ⟨Reg.CRIER_PIN_CTRL, 0, 0⟩
abbrev Fld.CRIER_GPIO_EDGE_EDGE : Fld := ⟨Reg.CRIER_GPIO_EDGE, 15, 0⟩
abbrev Fld.CRIER_GPIO_CFG_FILT (k : Nat) : Fld := ⟨Reg.CRIER_GPIO_CFG k, 15, 8⟩
abbrev Fld.CRIER_GPIO_CFG_TRIG (k : Nat) : Fld := ⟨Reg.CRIER_GPIO_CFG k, 1, 0⟩
abbrev Fld.CRIER_SRC_CFG_EN (k : Nat) : Fld := ⟨Reg.CRIER_SRC_CFG k, 31, 31⟩
abbrev Fld.CRIER_SRC_CFG_PRIO (k : Nat) : Fld := ⟨Reg.CRIER_SRC_CFG k, 27, 24⟩
abbrev Fld.CRIER_SRC_CFG_VECTOR (k : Nat) : Fld := ⟨Reg.CRIER_SRC_CFG k, 21, 16⟩
abbrev Fld.CRIER_SRC_CFG_PIN_EN (k : Nat) : Fld := ⟨Reg.CRIER_SRC_CFG k, 9, 9⟩
abbrev Fld.CRIER_SRC_CFG_MSIX_EN (k : Nat) : Fld := ⟨Reg.CRIER_SRC_CFG k, 8, 8⟩
abbrev Fld.CRIER_SRC_CFG_CORE_EN (k : Nat) : Fld := ⟨Reg.CRIER_SRC_CFG k, 3, 0⟩
abbrev Fld.BELL_SRC_CFG_PTP_PORT : Fld := ⟨Reg.BELL_SRC_CFG, 3, 2⟩
abbrev Fld.BELL_SRC_CFG_SRC : Fld := ⟨Reg.BELL_SRC_CFG, 1, 0⟩
abbrev Fld.BELL_PTP_CFG_DOMAIN : Fld := ⟨Reg.BELL_PTP_CFG, 31, 24⟩
abbrev Fld.BELL_PTP_CFG_ANN_TIMEOUT : Fld := ⟨Reg.BELL_PTP_CFG, 15, 12⟩
abbrev Fld.BELL_PTP_CFG_TC_EN : Fld := ⟨Reg.BELL_PTP_CFG, 8, 8⟩
abbrev Fld.BELL_PTP_CFG_DREQ_UNICAST : Fld := ⟨Reg.BELL_PTP_CFG, 2, 2⟩
abbrev Fld.BELL_PTP_CFG_P2P : Fld := ⟨Reg.BELL_PTP_CFG, 1, 1⟩
abbrev Fld.BELL_SERVO_GAIN_KP : Fld := ⟨Reg.BELL_SERVO_GAIN, 31, 16⟩
abbrev Fld.BELL_SERVO_GAIN_KI : Fld := ⟨Reg.BELL_SERVO_GAIN, 15, 0⟩
abbrev Fld.BELL_SERVO_RANGE_RANGE : Fld := ⟨Reg.BELL_SERVO_RANGE, 15, 0⟩
abbrev Fld.BELL_STEP_CTRL_SET : Fld := ⟨Reg.BELL_STEP_CTRL, 1, 1⟩
abbrev Fld.BELL_STEP_CTRL_FORCE_STEP : Fld := ⟨Reg.BELL_STEP_CTRL, 0, 0⟩
abbrev Fld.BELL_STATUS_SPREAD : Fld := ⟨Reg.BELL_STATUS, 11, 11⟩
abbrev Fld.BELL_STATUS_TICKING : Fld := ⟨Reg.BELL_STATUS, 10, 10⟩
abbrev Fld.BELL_STATUS_SYNC_TICKS : Fld := ⟨Reg.BELL_STATUS, 9, 9⟩
abbrev Fld.BELL_STATUS_REFUSING : Fld := ⟨Reg.BELL_STATUS, 8, 8⟩
abbrev Fld.BELL_STATUS_PORT : Fld := ⟨Reg.BELL_STATUS, 5, 4⟩
abbrev Fld.BELL_STATUS_STATE : Fld := ⟨Reg.BELL_STATUS, 2, 0⟩
abbrev Fld.BELL_TIME_SUBNS_SUBNS : Fld := ⟨Reg.BELL_TIME_SUBNS, 15, 0⟩
abbrev Fld.BELL_TIME_NS_NS : Fld := ⟨Reg.BELL_TIME_NS, 29, 0⟩
abbrev Fld.BELL_TIME_SEC_HI_SEC : Fld := ⟨Reg.BELL_TIME_SEC_HI, 15, 0⟩
abbrev Fld.BELL_SET_NS_NS : Fld := ⟨Reg.BELL_SET_NS, 29, 0⟩
abbrev Fld.BELL_SET_SEC_HI_SEC : Fld := ⟨Reg.BELL_SET_SEC_HI, 15, 0⟩
abbrev Fld.BELL_TICK_CTRL_TICK_EN : Fld := ⟨Reg.BELL_TICK_CTRL, 0, 0⟩
abbrev Fld.BELL_FRAME_NUM_VALUE : Fld := ⟨Reg.BELL_FRAME_NUM, 19, 0⟩
abbrev Fld.BELL_FRAME_DEN_VALUE : Fld := ⟨Reg.BELL_FRAME_DEN, 19, 0⟩
abbrev Fld.BELL_EPOCH_NS_NS : Fld := ⟨Reg.BELL_EPOCH_NS, 29, 0⟩
abbrev Fld.BELL_EPOCH_SEC_HI_SEC : Fld := ⟨Reg.BELL_EPOCH_SEC_HI, 15, 0⟩
abbrev Fld.BELL_GUARD_GUARD : Fld := ⟨Reg.BELL_GUARD, 15, 0⟩
abbrev Fld.BELL_BAND_CFG_GUARD : Fld := ⟨Reg.BELL_BAND_CFG, 23, 16⟩
abbrev Fld.BELL_BAND_CFG_COUNT : Fld := ⟨Reg.BELL_BAND_CFG, 8, 0⟩
abbrev Fld.BELL_TICK_SKIP_COUNT : Fld := ⟨Reg.BELL_TICK_SKIP, 15, 0⟩
abbrev Fld.BELL_SYNC_CFG_EDGE : Fld := ⟨Reg.BELL_SYNC_CFG, 2, 2⟩
abbrev Fld.BELL_SYNC_CFG_MODE : Fld := ⟨Reg.BELL_SYNC_CFG, 1, 0⟩
abbrev Fld.BELL_SYNC_CAP_NS_NS : Fld := ⟨Reg.BELL_SYNC_CAP_NS, 29, 0⟩
abbrev Fld.BELL_SYNC_CAP_SEC_HI_SEC : Fld := ⟨Reg.BELL_SYNC_CAP_SEC_HI, 15, 0⟩
abbrev Fld.BELL_TOUT_CFG_WIDTH (k : Nat) : Fld := ⟨Reg.BELL_TOUT_CFG k, 31, 16⟩
abbrev Fld.BELL_TOUT_CFG_POL (k : Nat) : Fld := ⟨Reg.BELL_TOUT_CFG k, 3, 3⟩
abbrev Fld.BELL_TOUT_CFG_MODE (k : Nat) : Fld := ⟨Reg.BELL_TOUT_CFG k, 2, 0⟩
abbrev Fld.BELL_TOUT_START_NS_NS (k : Nat) : Fld := ⟨Reg.BELL_TOUT_START_NS k, 29, 0⟩
abbrev Fld.BELL_TOUT_START_SEC_HI_SEC (k : Nat) : Fld := ⟨Reg.BELL_TOUT_START_SEC_HI k, 15, 0⟩
abbrev Fld.SERDES_QCFG_CLK_HI (i : Nat) : Fld := ⟨Reg.SERDES_QCFG i, 9, 9⟩
abbrev Fld.SERDES_QCFG_CLK_LO (i : Nat) : Fld := ⟨Reg.SERDES_QCFG i, 8, 8⟩
abbrev Fld.SERDES_QCFG_RATE (i : Nat) : Fld := ⟨Reg.SERDES_QCFG i, 1, 0⟩
abbrev Fld.SERDES_SSC_EN (i : Nat) : Fld := ⟨Reg.SERDES_SSC i, 8, 8⟩
abbrev Fld.SERDES_SSC_DEPTH (i : Nat) : Fld := ⟨Reg.SERDES_SSC i, 3, 0⟩
abbrev Fld.SERDES_QSTAT_PLL_LOCK (i : Nat) : Fld := ⟨Reg.SERDES_QSTAT i, 31, 31⟩
abbrev Fld.SERDES_QSTAT_HOLDOVER (i : Nat) : Fld := ⟨Reg.SERDES_QSTAT i, 30, 30⟩
abbrev Fld.SERDES_QSTAT_FREQ_PPM (i : Nat) : Fld := ⟨Reg.SERDES_QSTAT i, 15, 0⟩
abbrev Fld.SERDES_LB_TIMEOUT (i : Nat) : Fld := ⟨Reg.SERDES_LB i, 31, 16⟩
abbrev Fld.SERDES_LB_L3 (i : Nat) : Fld := ⟨Reg.SERDES_LB i, 7, 6⟩
abbrev Fld.SERDES_LB_L2 (i : Nat) : Fld := ⟨Reg.SERDES_LB i, 5, 4⟩
abbrev Fld.SERDES_LB_L1 (i : Nat) : Fld := ⟨Reg.SERDES_LB i, 3, 2⟩
abbrev Fld.SERDES_LB_L0 (i : Nat) : Fld := ⟨Reg.SERDES_LB i, 1, 0⟩
abbrev Fld.SERDES_MON_EN (i : Nat) : Fld := ⟨Reg.SERDES_MON i, 31, 31⟩
abbrev Fld.SERDES_MON_LANE (i : Nat) : Fld := ⟨Reg.SERDES_MON i, 8, 8⟩
abbrev Fld.SERDES_MON_PORT (i : Nat) : Fld := ⟨Reg.SERDES_MON i, 3, 0⟩
abbrev Fld.SERDES_EYE_MIN_HEIGHT (i : Nat) : Fld := ⟨Reg.SERDES_EYE_MIN i, 25, 16⟩
abbrev Fld.SERDES_EYE_MIN_WIDTH (i : Nat) : Fld := ⟨Reg.SERDES_EYE_MIN i, 6, 0⟩
abbrev Fld.SERDES_L_TX_TX_INV (i : Nat) (k : Nat) : Fld := ⟨Reg.SERDES_L_TX i k, 24, 24⟩
abbrev Fld.SERDES_L_TX_SWING (i : Nat) (k : Nat) : Fld := ⟨Reg.SERDES_L_TX i k, 18, 16⟩
abbrev Fld.SERDES_L_TX_CUSTOM (i : Nat) (k : Nat) : Fld := ⟨Reg.SERDES_L_TX i k, 15, 15⟩
abbrev Fld.SERDES_L_TX_POST (i : Nat) (k : Nat) : Fld := ⟨Reg.SERDES_L_TX i k, 12, 8⟩
abbrev Fld.SERDES_L_TX_PRE (i : Nat) (k : Nat) : Fld := ⟨Reg.SERDES_L_TX i k, 7, 4⟩
abbrev Fld.SERDES_L_TX_PRESET (i : Nat) (k : Nat) : Fld := ⟨Reg.SERDES_L_TX i k, 2, 0⟩
abbrev Fld.SERDES_L_RXEQ_MODE (i : Nat) (k : Nat) : Fld := ⟨Reg.SERDES_L_RXEQ i k, 31, 30⟩
abbrev Fld.SERDES_L_RXEQ_CTLE (i : Nat) (k : Nat) : Fld := ⟨Reg.SERDES_L_RXEQ i k, 27, 24⟩
abbrev Fld.SERDES_L_RXEQ_DFE4 (i : Nat) (k : Nat) : Fld := ⟨Reg.SERDES_L_RXEQ i k, 23, 18⟩
abbrev Fld.SERDES_L_RXEQ_DFE3 (i : Nat) (k : Nat) : Fld := ⟨Reg.SERDES_L_RXEQ i k, 17, 12⟩
abbrev Fld.SERDES_L_RXEQ_DFE2 (i : Nat) (k : Nat) : Fld := ⟨Reg.SERDES_L_RXEQ i k, 11, 6⟩
abbrev Fld.SERDES_L_RXEQ_DFE1 (i : Nat) (k : Nat) : Fld := ⟨Reg.SERDES_L_RXEQ i k, 5, 0⟩
abbrev Fld.SERDES_L_EYE_VALID (i : Nat) (k : Nat) : Fld := ⟨Reg.SERDES_L_EYE i k, 31, 31⟩
abbrev Fld.SERDES_L_EYE_HEIGHT (i : Nat) (k : Nat) : Fld := ⟨Reg.SERDES_L_EYE i k, 25, 16⟩
abbrev Fld.SERDES_L_EYE_WIDTH (i : Nat) (k : Nat) : Fld := ⟨Reg.SERDES_L_EYE i k, 6, 0⟩
abbrev Fld.SERDES_L_STAT_STATE (i : Nat) (k : Nat) : Fld := ⟨Reg.SERDES_L_STAT i k, 18, 16⟩
abbrev Fld.SERDES_L_STAT_RX_INV (i : Nat) (k : Nat) : Fld := ⟨Reg.SERDES_L_STAT i k, 15, 15⟩
abbrev Fld.SERDES_L_STAT_LANE_ID (i : Nat) (k : Nat) : Fld := ⟨Reg.SERDES_L_STAT i k, 14, 14⟩
abbrev Fld.SERDES_L_STAT_HI_BER (i : Nat) (k : Nat) : Fld := ⟨Reg.SERDES_L_STAT i k, 13, 13⟩
abbrev Fld.SERDES_L_STAT_SKEW (i : Nat) (k : Nat) : Fld := ⟨Reg.SERDES_L_STAT i k, 9, 0⟩
abbrev Fld.SERDES_L_PRBS_CHK_LOCK (i : Nat) (k : Nat) : Fld := ⟨Reg.SERDES_L_PRBS i k, 16, 16⟩
abbrev Fld.SERDES_L_PRBS_CHK_EN (i : Nat) (k : Nat) : Fld := ⟨Reg.SERDES_L_PRBS i k, 11, 11⟩
abbrev Fld.SERDES_L_PRBS_CHK_PAT (i : Nat) (k : Nat) : Fld := ⟨Reg.SERDES_L_PRBS i k, 10, 8⟩
abbrev Fld.SERDES_L_PRBS_GEN_EN (i : Nat) (k : Nat) : Fld := ⟨Reg.SERDES_L_PRBS i k, 3, 3⟩
abbrev Fld.SERDES_L_PRBS_GEN_PAT (i : Nat) (k : Nat) : Fld := ⟨Reg.SERDES_L_PRBS i k, 2, 0⟩
abbrev Fld.CHAIN_CFG_ENC (i : Nat) : Fld := ⟨Reg.CHAIN_CFG i, 8, 8⟩
abbrev Fld.CHAIN_CFG_AUTO_ADMIT (i : Nat) : Fld := ⟨Reg.CHAIN_CFG i, 1, 1⟩
abbrev Fld.CHAIN_CFG_DISC_EN (i : Nat) : Fld := ⟨Reg.CHAIN_CFG i, 0, 0⟩
abbrev Fld.CHAIN_STATE_CENSUS (i : Nat) : Fld := ⟨Reg.CHAIN_STATE i, 31, 16⟩
abbrev Fld.CHAIN_STATE_ADMITTED (i : Nat) : Fld := ⟨Reg.CHAIN_STATE i, 15, 4⟩
abbrev Fld.CHAIN_STATE_TAIL (i : Nat) : Fld := ⟨Reg.CHAIN_STATE i, 3, 3⟩
abbrev Fld.CHAIN_STATE_STATE (i : Nat) : Fld := ⟨Reg.CHAIN_STATE i, 2, 0⟩
abbrev Fld.CHAIN_DISC_PERIOD (i : Nat) : Fld := ⟨Reg.CHAIN_DISC i, 31, 16⟩
abbrev Fld.CHAIN_DISC_ANS_SLOTS (i : Nat) : Fld := ⟨Reg.CHAIN_DISC i, 7, 0⟩
abbrev Fld.CHAIN_RSP_TMO_TICKS (i : Nat) : Fld := ⟨Reg.CHAIN_RSP_TMO i, 7, 0⟩
abbrev Fld.CHAIN_CMD_BUDGET_BLOCKS (i : Nat) : Fld := ⟨Reg.CHAIN_CMD_BUDGET i, 19, 0⟩
abbrev Fld.CHAIN_LOSS_CNT_COUNT (i : Nat) : Fld := ⟨Reg.CHAIN_LOSS_CNT i, 3, 0⟩
abbrev Fld.CHAIN_POS_POSITION (i : Nat) : Fld := ⟨Reg.CHAIN_POS i, 26, 16⟩
abbrev Fld.CHAIN_POS_DEPTH (i : Nat) : Fld := ⟨Reg.CHAIN_POS i, 10, 0⟩
abbrev Fld.CHAIN_LIST_IDX_IDX (i : Nat) : Fld := ⟨Reg.CHAIN_LIST_IDX i, 7, 0⟩
abbrev Fld.CHAIN_LIST_INFO_VALID (i : Nat) : Fld := ⟨Reg.CHAIN_LIST_INFO i, 31, 31⟩
abbrev Fld.CHAIN_LIST_INFO_KIND (i : Nat) : Fld := ⟨Reg.CHAIN_LIST_INFO i, 30, 28⟩
abbrev Fld.CHAIN_LIST_INFO_DEPTH (i : Nat) : Fld := ⟨Reg.CHAIN_LIST_INFO i, 26, 16⟩
abbrev Fld.CHAIN_LIST_INFO_REASON (i : Nat) : Fld := ⟨Reg.CHAIN_LIST_INFO i, 3, 0⟩
abbrev Fld.CHAIN_LIST_WDN_ASSIGN (i : Nat) : Fld := ⟨Reg.CHAIN_LIST_WDN i, 31, 31⟩
abbrev Fld.CHAIN_LIST_WDN_WDN (i : Nat) : Fld := ⟨Reg.CHAIN_LIST_WDN i, 15, 0⟩
abbrev Fld.RET_CFG_RET_START : Fld := ⟨Reg.RET_CFG, 15, 0⟩
abbrev Fld.RET_STAT_LENGTH : Fld := ⟨Reg.RET_STAT, 31, 16⟩
abbrev Fld.RET_STAT_UNITS : Fld := ⟨Reg.RET_STAT, 10, 0⟩
abbrev Fld.RET_UNITS_FIRST : Fld := ⟨Reg.RET_UNITS, 26, 16⟩
abbrev Fld.RET_UNITS_COUNT : Fld := ⟨Reg.RET_UNITS, 7, 0⟩
abbrev Fld.RET_MUTE_ACTIVE : Fld := ⟨Reg.RET_MUTE, 31, 31⟩
abbrev Fld.RET_MUTE_COUNT : Fld := ⟨Reg.RET_MUTE, 23, 16⟩
abbrev Fld.RET_MUTE_WDN : Fld := ⟨Reg.RET_MUTE, 15, 0⟩
abbrev Fld.RET_EDGE_LAST_OFFSET : Fld := ⟨Reg.RET_EDGE_LAST, 31, 24⟩
abbrev Fld.RET_EDGE_LAST_RUN : Fld := ⟨Reg.RET_EDGE_LAST, 23, 16⟩
abbrev Fld.RET_EDGE_LAST_WDN : Fld := ⟨Reg.RET_EDGE_LAST, 15, 0⟩
abbrev Fld.RET_GROUP_EN_EN : Fld := ⟨Reg.RET_GROUP_EN, 7, 0⟩
abbrev Fld.RET_GROUP_GROUP_HI (k : Nat) : Fld := ⟨Reg.RET_GROUP k, 31, 16⟩
abbrev Fld.RET_GROUP_GROUP_LO (k : Nat) : Fld := ⟨Reg.RET_GROUP k, 15, 0⟩
abbrev Fld.ETH_CFG_VID (i : Nat) : Fld := ⟨Reg.ETH_CFG i, 27, 16⟩
abbrev Fld.ETH_CFG_IGMP_V2 (i : Nat) : Fld := ⟨Reg.ETH_CFG i, 2, 2⟩
abbrev Fld.ETH_CFG_VLAN_EN (i : Nat) : Fld := ⟨Reg.ETH_CFG i, 1, 1⟩
abbrev Fld.ETH_CFG_FEC_EN (i : Nat) : Fld := ⟨Reg.ETH_CFG i, 0, 0⟩
abbrev Fld.ETH_STAT_LINK (i : Nat) : Fld := ⟨Reg.ETH_STAT i, 31, 31⟩
abbrev Fld.ETH_STAT_FEC_LOCK (i : Nat) : Fld := ⟨Reg.ETH_STAT i, 30, 30⟩
abbrev Fld.ETH_STAT_AM_LOCK (i : Nat) : Fld := ⟨Reg.ETH_STAT i, 29, 29⟩
abbrev Fld.ETH_STAT_HI_BER (i : Nat) : Fld := ⟨Reg.ETH_STAT i, 28, 28⟩
abbrev Fld.ETH_STAT_LANE_LOCK (i : Nat) : Fld := ⟨Reg.ETH_STAT i, 3, 0⟩
abbrev Fld.INGEST_PIPE_STAT_CAUSE (i : Nat) : Fld := ⟨Reg.INGEST_PIPE_STAT i, 31, 28⟩
abbrev Fld.INGEST_PIPE_STAT_CTX (i : Nat) : Fld := ⟨Reg.INGEST_PIPE_STAT i, 27, 26⟩
abbrev Fld.INGEST_PIPE_STAT_AGG (i : Nat) : Fld := ⟨Reg.INGEST_PIPE_STAT i, 25, 16⟩
abbrev Fld.INGEST_PIPE_STAT_LOAD (i : Nat) : Fld := ⟨Reg.INGEST_PIPE_STAT i, 9, 0⟩
abbrev Fld.INGEST_CRAM_ADDR_AUTO_INC (i : Nat) : Fld := ⟨Reg.INGEST_CRAM_ADDR i, 31, 31⟩
abbrev Fld.INGEST_CRAM_ADDR_ADDR (i : Nat) : Fld := ⟨Reg.INGEST_CRAM_ADDR i, 17, 0⟩
abbrev Fld.INGEST_USE_SCL_MATRIX (i : Nat) : Fld := ⟨Reg.INGEST_USE_SCL i, 31, 16⟩
abbrev Fld.INGEST_USE_SCL_SET (i : Nat) : Fld := ⟨Reg.INGEST_USE_SCL i, 15, 0⟩
abbrev Fld.INGEST_USE_LUT_MATRIX (i : Nat) : Fld := ⟨Reg.INGEST_USE_LUT i, 31, 16⟩
abbrev Fld.INGEST_USE_LUT_SET (i : Nat) : Fld := ⟨Reg.INGEST_USE_LUT i, 15, 0⟩
abbrev Fld.INGEST_CTX_CFG_EN (i : Nat) (k : Nat) : Fld := ⟨Reg.INGEST_CTX_CFG i k, 31, 31⟩
abbrev Fld.INGEST_CTX_CFG_SWIFT (i : Nat) (k : Nat) : Fld := ⟨Reg.INGEST_CTX_CFG i k, 30, 30⟩
abbrev Fld.INGEST_CTX_CFG_SRC (i : Nat) (k : Nat) : Fld := ⟨Reg.INGEST_CTX_CFG i k, 29, 28⟩
abbrev Fld.INGEST_CTX_CFG_CSI_PORT (i : Nat) (k : Nat) : Fld := ⟨Reg.INGEST_CTX_CFG i k, 27, 27⟩
abbrev Fld.INGEST_CTX_CFG_CSI_VC (i : Nat) (k : Nat) : Fld := ⟨Reg.INGEST_CTX_CFG i k, 26, 25⟩
abbrev Fld.INGEST_CTX_CFG_SAMPLING (i : Nat) (k : Nat) : Fld := ⟨Reg.INGEST_CTX_CFG i k, 20, 19⟩
abbrev Fld.INGEST_CTX_CFG_DEPTH (i : Nat) (k : Nat) : Fld := ⟨Reg.INGEST_CTX_CFG i k, 18, 17⟩
abbrev Fld.INGEST_CTX_CFG_COLOUR (i : Nat) (k : Nat) : Fld := ⟨Reg.INGEST_CTX_CFG i k, 16, 16⟩
abbrev Fld.INGEST_CTX_CFG_PACK (i : Nat) (k : Nat) : Fld := ⟨Reg.INGEST_CTX_CFG i k, 15, 15⟩
abbrev Fld.INGEST_CTX_UDP_PT (i : Nat) (k : Nat) : Fld := ⟨Reg.INGEST_CTX_UDP i k, 22, 16⟩
abbrev Fld.INGEST_CTX_UDP_PORT (i : Nat) (k : Nat) : Fld := ⟨Reg.INGEST_CTX_UDP i k, 15, 0⟩
abbrev Fld.INGEST_CTX_IN_SIZE_HEIGHT (i : Nat) (k : Nat) : Fld := ⟨Reg.INGEST_CTX_IN_SIZE i k, 30, 16⟩
abbrev Fld.INGEST_CTX_IN_SIZE_WIDTH (i : Nat) (k : Nat) : Fld := ⟨Reg.INGEST_CTX_IN_SIZE i k, 14, 0⟩
abbrev Fld.INGEST_CTX_RATE_NUM (i : Nat) (k : Nat) : Fld := ⟨Reg.INGEST_CTX_RATE i k, 31, 12⟩
abbrev Fld.INGEST_CTX_RATE_DEN (i : Nat) (k : Nat) : Fld := ⟨Reg.INGEST_CTX_RATE i k, 11, 0⟩
abbrev Fld.INGEST_CTX_COLOUR_MATRIX (i : Nat) (k : Nat) : Fld := ⟨Reg.INGEST_CTX_COLOUR i k, 28, 24⟩
abbrev Fld.INGEST_CTX_COLOUR_GAMUT (i : Nat) (k : Nat) : Fld := ⟨Reg.INGEST_CTX_COLOUR i k, 20, 16⟩
abbrev Fld.INGEST_CTX_COLOUR_OUT_LUT (i : Nat) (k : Nat) : Fld := ⟨Reg.INGEST_CTX_COLOUR i k, 11, 8⟩
abbrev Fld.INGEST_CTX_COLOUR_IN_LUT (i : Nat) (k : Nat) : Fld := ⟨Reg.INGEST_CTX_COLOUR i k, 3, 0⟩
abbrev Fld.INGEST_CTX_SCALE_V_SET (i : Nat) (k : Nat) : Fld := ⟨Reg.INGEST_CTX_SCALE i k, 11, 8⟩
abbrev Fld.INGEST_CTX_SCALE_H_SET (i : Nat) (k : Nat) : Fld := ⟨Reg.INGEST_CTX_SCALE i k, 3, 0⟩
abbrev Fld.INGEST_CTX_OUT_SIZE_HEIGHT (i : Nat) (k : Nat) : Fld := ⟨Reg.INGEST_CTX_OUT_SIZE i k, 30, 16⟩
abbrev Fld.INGEST_CTX_OUT_SIZE_WIDTH (i : Nat) (k : Nat) : Fld := ⟨Reg.INGEST_CTX_OUT_SIZE i k, 14, 0⟩
abbrev Fld.INGEST_CTX_FS_BASE_LO_ADDR (i : Nat) (k : Nat) : Fld := ⟨Reg.INGEST_CTX_FS_BASE_LO i k, 31, 12⟩
abbrev Fld.INGEST_CTX_FS_BASE_HI_ADDR (i : Nat) (k : Nat) : Fld := ⟨Reg.INGEST_CTX_FS_BASE_HI i k, 4, 0⟩
abbrev Fld.INGEST_CTX_FS_STRIDE_FMT (i : Nat) (k : Nat) : Fld := ⟨Reg.INGEST_CTX_FS_STRIDE i k, 31, 30⟩
abbrev Fld.INGEST_CTX_FS_STRIDE_STRIDE (i : Nat) (k : Nat) : Fld := ⟨Reg.INGEST_CTX_FS_STRIDE i k, 23, 0⟩
abbrev Fld.INGEST_CTX_LATCH_LOSS_MAX (i : Nat) (k : Nat) : Fld := ⟨Reg.INGEST_CTX_LATCH i k, 31, 16⟩
abbrev Fld.INGEST_CTX_LATCH_OFFSET (i : Nat) (k : Nat) : Fld := ⟨Reg.INGEST_CTX_LATCH i k, 15, 0⟩
abbrev Fld.INGEST_CTX_HOLD_MS (i : Nat) (k : Nat) : Fld := ⟨Reg.INGEST_CTX_HOLD i k, 15, 0⟩
abbrev Fld.INGEST_CTX_FILL_R (i : Nat) (k : Nat) : Fld := ⟨Reg.INGEST_CTX_FILL i k, 29, 20⟩
abbrev Fld.INGEST_CTX_FILL_G (i : Nat) (k : Nat) : Fld := ⟨Reg.INGEST_CTX_FILL i k, 19, 10⟩
abbrev Fld.INGEST_CTX_FILL_B (i : Nat) (k : Nat) : Fld := ⟨Reg.INGEST_CTX_FILL i k, 9, 0⟩
abbrev Fld.INGEST_CTX_STAT_STATE (i : Nat) (k : Nat) : Fld := ⟨Reg.INGEST_CTX_STAT i k, 31, 29⟩
abbrev Fld.INGEST_CTX_STAT_LIVE0 (i : Nat) (k : Nat) : Fld := ⟨Reg.INGEST_CTX_STAT i k, 28, 28⟩
abbrev Fld.INGEST_CTX_STAT_LIVE1 (i : Nat) (k : Nat) : Fld := ⟨Reg.INGEST_CTX_STAT i k, 27, 27⟩
abbrev Fld.INGEST_CTX_STAT_LATCHED (i : Nat) (k : Nat) : Fld := ⟨Reg.INGEST_CTX_STAT i k, 5, 4⟩
abbrev Fld.INGEST_CTX_STAT_NEWEST (i : Nat) (k : Nat) : Fld := ⟨Reg.INGEST_CTX_STAT i k, 1, 0⟩
abbrev Fld.INGEST_CTX_LINE_WRITE (i : Nat) (k : Nat) : Fld := ⟨Reg.INGEST_CTX_LINE i k, 17, 16⟩
abbrev Fld.INGEST_CTX_LINE_LINES (i : Nat) (k : Nat) : Fld := ⟨Reg.INGEST_CTX_LINE i k, 14, 0⟩
abbrev Fld.LOOM_CFG_ORDER_MODE : Fld := ⟨Reg.LOOM_CFG, 0, 0⟩
abbrev Fld.LOOM_BG_RG_R : Fld := ⟨Reg.LOOM_BG_RG, 31, 16⟩
abbrev Fld.LOOM_BG_RG_G_B : Fld := ⟨Reg.LOOM_BG_RG, 15, 0⟩
abbrev Fld.LOOM_BG_B_R : Fld := ⟨Reg.LOOM_BG_B, 31, 16⟩
abbrev Fld.LOOM_BG_B_G_B : Fld := ⟨Reg.LOOM_BG_B, 15, 0⟩
abbrev Fld.LOOM_POST_LUT_LUT : Fld := ⟨Reg.LOOM_POST_LUT, 4, 0⟩
abbrev Fld.LOOM_GRP_PWR_ON : Fld := ⟨Reg.LOOM_GRP_PWR, 3, 0⟩
abbrev Fld.LOOM_STAT_CAUSE : Fld := ⟨Reg.LOOM_STAT, 31, 28⟩
abbrev Fld.LOOM_STAT_GRP_RDY : Fld := ⟨Reg.LOOM_STAT, 19, 16⟩
abbrev Fld.LOOM_LOAD_G3 : Fld := ⟨Reg.LOOM_LOAD, 31, 24⟩
abbrev Fld.LOOM_LOAD_G2 : Fld := ⟨Reg.LOOM_LOAD, 23, 16⟩
abbrev Fld.LOOM_LOAD_G1 : Fld := ⟨Reg.LOOM_LOAD, 15, 8⟩
abbrev Fld.LOOM_LOAD_G0 : Fld := ⟨Reg.LOOM_LOAD, 7, 0⟩
abbrev Fld.LOOM_FLIP_GROUP_MEMBERS : Fld := ⟨Reg.LOOM_FLIP_GROUP, 15, 0⟩
abbrev Fld.LOOM_LUT_ADDR_AUTO_INC : Fld := ⟨Reg.LOOM_LUT_ADDR, 31, 31⟩
abbrev Fld.LOOM_LUT_ADDR_ADDR : Fld := ⟨Reg.LOOM_LUT_ADDR, 18, 0⟩
abbrev Fld.LOOM_LUT_USE_SLOT : Fld := ⟨Reg.LOOM_LUT_USE, 15, 0⟩
abbrev Fld.LOOM_FENCE_INC_IDX : Fld := ⟨Reg.LOOM_FENCE_INC, 3, 0⟩
abbrev Fld.LOOM_LYR_CFG_EN (i : Nat) : Fld := ⟨Reg.LOOM_LYR_CFG i, 31, 31⟩
abbrev Fld.LOOM_LYR_CFG_FENCE_EN (i : Nat) : Fld := ⟨Reg.LOOM_LYR_CFG i, 30, 30⟩
abbrev Fld.LOOM_LYR_CFG_FENCE_SEL (i : Nat) : Fld := ⟨Reg.LOOM_LYR_CFG i, 27, 24⟩
abbrev Fld.LOOM_LYR_CFG_ALPHA_MODE (i : Nat) : Fld := ⟨Reg.LOOM_LYR_CFG i, 21, 20⟩
abbrev Fld.LOOM_LYR_CFG_FMT (i : Nat) : Fld := ⟨Reg.LOOM_LYR_CFG i, 18, 16⟩
abbrev Fld.LOOM_LYR_CFG_PRE_LUT (i : Nat) : Fld := ⟨Reg.LOOM_LYR_CFG i, 4, 0⟩
abbrev Fld.LOOM_LYR_SRC_LO_BASE (i : Nat) : Fld := ⟨Reg.LOOM_LYR_SRC_LO i, 31, 8⟩
abbrev Fld.LOOM_LYR_SRC_LO_PIPE (i : Nat) : Fld := ⟨Reg.LOOM_LYR_SRC_LO i, 3, 2⟩
abbrev Fld.LOOM_LYR_SRC_LO_CTX (i : Nat) : Fld := ⟨Reg.LOOM_LYR_SRC_LO i, 1, 0⟩
abbrev Fld.LOOM_LYR_SRC_HI_BASE (i : Nat) : Fld := ⟨Reg.LOOM_LYR_SRC_HI i, 4, 0⟩
abbrev Fld.LOOM_LYR_STRIDE_STRIDE (i : Nat) : Fld := ⟨Reg.LOOM_LYR_STRIDE i, 23, 0⟩
abbrev Fld.LOOM_LYR_CROP_POS_Y_H (i : Nat) : Fld := ⟨Reg.LOOM_LYR_CROP_POS i, 30, 16⟩
abbrev Fld.LOOM_LYR_CROP_POS_X_W (i : Nat) : Fld := ⟨Reg.LOOM_LYR_CROP_POS i, 14, 0⟩
abbrev Fld.LOOM_LYR_CROP_SIZE_Y_H (i : Nat) : Fld := ⟨Reg.LOOM_LYR_CROP_SIZE i, 30, 16⟩
abbrev Fld.LOOM_LYR_CROP_SIZE_X_W (i : Nat) : Fld := ⟨Reg.LOOM_LYR_CROP_SIZE i, 14, 0⟩
abbrev Fld.LOOM_LYR_DST_Y (i : Nat) : Fld := ⟨Reg.LOOM_LYR_DST i, 31, 16⟩
abbrev Fld.LOOM_LYR_DST_X (i : Nat) : Fld := ⟨Reg.LOOM_LYR_DST i, 15, 0⟩
abbrev Fld.LOOM_LYR_ALPHA_ALPHA (i : Nat) : Fld := ⟨Reg.LOOM_LYR_ALPHA i, 15, 0⟩
abbrev Fld.LOOM_LYR_FENCE_TMO_ACTION (i : Nat) : Fld := ⟨Reg.LOOM_LYR_FENCE_TMO i, 16, 16⟩
abbrev Fld.LOOM_LYR_FENCE_TMO_TICKS (i : Nat) : Fld := ⟨Reg.LOOM_LYR_FENCE_TMO i, 15, 0⟩
abbrev Fld.LOOM_LYR_FENCE_CANCEL_CANCEL (i : Nat) : Fld := ⟨Reg.LOOM_LYR_FENCE_CANCEL i, 0, 0⟩
abbrev Fld.LOOM_LYR_STAT_HELD (i : Nat) : Fld := ⟨Reg.LOOM_LYR_STAT i, 31, 31⟩
abbrev Fld.LOOM_LYR_STAT_NO_FRAME (i : Nat) : Fld := ⟨Reg.LOOM_LYR_STAT i, 30, 30⟩
abbrev Fld.LOOM_LYR_STAT_CLIPPED (i : Nat) : Fld := ⟨Reg.LOOM_LYR_STAT i, 29, 29⟩
abbrev Fld.LOOM_LYR_STAT_CAUSE (i : Nat) : Fld := ⟨Reg.LOOM_LYR_STAT i, 27, 24⟩
abbrev Fld.LOOM_LYR_STAT_HELD_TICKS (i : Nat) : Fld := ⟨Reg.LOOM_LYR_STAT i, 15, 0⟩
abbrev Fld.LOOM_LYR_SHOWN_BASE (i : Nat) : Fld := ⟨Reg.LOOM_LYR_SHOWN i, 31, 8⟩
abbrev Fld.LOOM_LYR_SHOWN_BUF (i : Nat) : Fld := ⟨Reg.LOOM_LYR_SHOWN i, 1, 0⟩
abbrev Fld.SCAN_CANVAS_H : Fld := ⟨Reg.SCAN_CANVAS, 30, 16⟩
abbrev Fld.SCAN_CANVAS_W : Fld := ⟨Reg.SCAN_CANVAS, 14, 0⟩
abbrev Fld.SCAN_TIMING_ACTIVE_END : Fld := ⟨Reg.SCAN_TIMING, 31, 16⟩
abbrev Fld.SCAN_TIMING_V_START : Fld := ⟨Reg.SCAN_TIMING, 15, 0⟩
abbrev Fld.SCAN_CODE_WTF : Fld := ⟨Reg.SCAN_CODE, 1, 0⟩
abbrev Fld.SCAN_CC10_CHAIN : Fld := ⟨Reg.SCAN_CC10, 15, 0⟩
abbrev Fld.SCAN_MAP_CFG_BANK : Fld := ⟨Reg.SCAN_MAP_CFG, 31, 31⟩
abbrev Fld.SCAN_MAP_CFG_COUNT : Fld := ⟨Reg.SCAN_MAP_CFG, 14, 0⟩
abbrev Fld.SCAN_MAP_ADDR_AUTO_INC : Fld := ⟨Reg.SCAN_MAP_ADDR, 31, 31⟩
abbrev Fld.SCAN_MAP_ADDR_ADDR : Fld := ⟨Reg.SCAN_MAP_ADDR, 18, 0⟩
abbrev Fld.SCAN_STAT_CAUSE : Fld := ⟨Reg.SCAN_STAT, 31, 28⟩
abbrev Fld.SCAN_STAT_ACTIVE_END : Fld := ⟨Reg.SCAN_STAT, 15, 0⟩
abbrev Fld.SCAN_WM_LOW (k : Nat) : Fld := ⟨Reg.SCAN_WM k, 26, 16⟩
abbrev Fld.SCAN_WM_CRIT (k : Nat) : Fld := ⟨Reg.SCAN_WM k, 10, 0⟩
abbrev Fld.SCAN_UNDERRUN_LAST_VALID : Fld := ⟨Reg.SCAN_UNDERRUN_LAST, 31, 31⟩
abbrev Fld.SCAN_UNDERRUN_LAST_LINE : Fld := ⟨Reg.SCAN_UNDERRUN_LAST, 30, 16⟩
abbrev Fld.SCAN_UNDERRUN_LAST_PIXEL : Fld := ⟨Reg.SCAN_UNDERRUN_LAST, 14, 0⟩
abbrev Fld.SCAN_SUSPENDED_COUNT : Fld := ⟨Reg.SCAN_SUSPENDED, 14, 0⟩
abbrev Fld.SCAN_CRC_CFG_CMP : Fld := ⟨Reg.SCAN_CRC_CFG, 31, 16⟩
abbrev Fld.SCAN_CRC_CFG_EN : Fld := ⟨Reg.SCAN_CRC_CFG, 15, 0⟩
abbrev Fld.SCAN_CRC_MISS_MISS : Fld := ⟨Reg.SCAN_CRC_MISS, 15, 0⟩
abbrev Fld.SCAN_CH_STAT_MARGIN (k : Nat) : Fld := ⟨Reg.SCAN_CH_STAT k, 31, 16⟩
abbrev Fld.SCAN_CH_STAT_LOAD (k : Nat) : Fld := ⟨Reg.SCAN_CH_STAT k, 9, 0⟩
abbrev Fld.SCAN_CRC_POS_Y (k : Nat) : Fld := ⟨Reg.SCAN_CRC_POS k, 30, 16⟩
abbrev Fld.SCAN_CRC_POS_X (k : Nat) : Fld := ⟨Reg.SCAN_CRC_POS k, 14, 0⟩
abbrev Fld.SCAN_CRC_SIZE_H (k : Nat) : Fld := ⟨Reg.SCAN_CRC_SIZE k, 30, 16⟩
abbrev Fld.SCAN_CRC_SIZE_W (k : Nat) : Fld := ⟨Reg.SCAN_CRC_SIZE k, 14, 0⟩
abbrev Fld.CORR_CFG_LBANK : Fld := ⟨Reg.CORR_CFG, 9, 9⟩
abbrev Fld.CORR_CFG_CBANK : Fld := ⟨Reg.CORR_CFG, 8, 8⟩
abbrev Fld.CORR_CFG_BYPASS_M : Fld := ⟨Reg.CORR_CFG, 4, 4⟩
abbrev Fld.CORR_CFG_DITHER : Fld := ⟨Reg.CORR_CFG, 1, 0⟩
abbrev Fld.CORR_FLAGS_CLIP_LO : Fld := ⟨Reg.CORR_FLAGS, 3, 3⟩
abbrev Fld.CORR_FLAGS_CLIP_HI : Fld := ⟨Reg.CORR_FLAGS, 2, 2⟩
abbrev Fld.CORR_FLAGS_UNF : Fld := ⟨Reg.CORR_FLAGS, 1, 1⟩
abbrev Fld.CORR_FLAGS_OVF : Fld := ⟨Reg.CORR_FLAGS, 0, 0⟩
abbrev Fld.CORR_FLAG_FIRST_VALID : Fld := ⟨Reg.CORR_FLAG_FIRST, 31, 31⟩
abbrev Fld.CORR_FLAG_FIRST_SCALE : Fld := ⟨Reg.CORR_FLAG_FIRST, 20, 20⟩
abbrev Fld.CORR_FLAG_FIRST_FLAGS : Fld := ⟨Reg.CORR_FLAG_FIRST, 19, 16⟩
abbrev Fld.CORR_FLAG_FIRST_COLOUR : Fld := ⟨Reg.CORR_FLAG_FIRST, 14, 13⟩
abbrev Fld.CORR_FLAG_FIRST_ENTRY : Fld := ⟨Reg.CORR_FLAG_FIRST, 12, 0⟩
abbrev Fld.CORR_MEM_ADDR_AUTO_INC : Fld := ⟨Reg.CORR_MEM_ADDR, 31, 31⟩
abbrev Fld.CORR_MEM_ADDR_ADDR : Fld := ⟨Reg.CORR_MEM_ADDR, 18, 0⟩
abbrev Fld.CORR_STAT_LBANK : Fld := ⟨Reg.CORR_STAT, 9, 9⟩
abbrev Fld.CORR_STAT_CBANK : Fld := ⟨Reg.CORR_STAT, 8, 8⟩
abbrev Fld.NIMBUS_STAT_FRONT : Fld := ⟨Reg.NIMBUS_STAT, 31, 31⟩
abbrev Fld.NIMBUS_STAT_ARMED : Fld := ⟨Reg.NIMBUS_STAT, 30, 30⟩
abbrev Fld.NIMBUS_STAT_SLICE : Fld := ⟨Reg.NIMBUS_STAT, 26, 24⟩
abbrev Fld.NIMBUS_STAT_FRAME_SHOWN : Fld := ⟨Reg.NIMBUS_STAT, 15, 0⟩
abbrev Fld.NIMBUS_RX_FRAME : Fld := ⟨Reg.NIMBUS_RX, 31, 16⟩
abbrev Fld.NIMBUS_RX_PIXELS : Fld := ⟨Reg.NIMBUS_RX, 12, 0⟩
abbrev Fld.NIMBUS_LAST_FAIL_FRAME : Fld := ⟨Reg.NIMBUS_LAST_FAIL, 31, 16⟩
abbrev Fld.NIMBUS_LAST_FAIL_CAUSE : Fld := ⟨Reg.NIMBUS_LAST_FAIL, 3, 0⟩
abbrev Fld.NIMBUS_BAND_BAND : Fld := ⟨Reg.NIMBUS_BAND, 7, 0⟩
abbrev Fld.LAMP_SCAN_CFG_SEG_LOG2 : Fld := ⟨Reg.LAMP_SCAN_CFG, 2, 0⟩
abbrev Fld.LAMP_ROW_TIMING_SETTLE : Fld := ⟨Reg.LAMP_ROW_TIMING, 31, 24⟩
abbrev Fld.LAMP_ROW_TIMING_DEAD_ON : Fld := ⟨Reg.LAMP_ROW_TIMING, 23, 16⟩
abbrev Fld.LAMP_ROW_TIMING_PRECHG : Fld := ⟨Reg.LAMP_ROW_TIMING, 15, 8⟩
abbrev Fld.LAMP_ROW_TIMING_DEAD_OFF : Fld := ⟨Reg.LAMP_ROW_TIMING, 7, 0⟩
abbrev Fld.LAMP_PRECHG_EN : Fld := ⟨Reg.LAMP_PRECHG, 0, 0⟩
abbrev Fld.LAMP_GAIN_B : Fld := ⟨Reg.LAMP_GAIN, 23, 16⟩
abbrev Fld.LAMP_GAIN_G : Fld := ⟨Reg.LAMP_GAIN, 15, 8⟩
abbrev Fld.LAMP_GAIN_R : Fld := ⟨Reg.LAMP_GAIN, 7, 0⟩
abbrev Fld.LAMP_IREF_VALID : Fld := ⟨Reg.LAMP_IREF, 31, 31⟩
abbrev Fld.LAMP_IREF_FAULT : Fld := ⟨Reg.LAMP_IREF, 30, 30⟩
abbrev Fld.LAMP_IREF_CURRENT : Fld := ⟨Reg.LAMP_IREF, 15, 0⟩
abbrev Fld.LAMP_ICOL_RG_G : Fld := ⟨Reg.LAMP_ICOL_RG, 31, 16⟩
abbrev Fld.LAMP_ICOL_RG_R_B : Fld := ⟨Reg.LAMP_ICOL_RG, 15, 0⟩
abbrev Fld.LAMP_ICOL_B_G : Fld := ⟨Reg.LAMP_ICOL_B, 31, 16⟩
abbrev Fld.LAMP_ICOL_B_R_B : Fld := ⟨Reg.LAMP_ICOL_B, 15, 0⟩
abbrev Fld.LAMP_FADE_MS_MS : Fld := ⟨Reg.LAMP_FADE_MS, 15, 0⟩
abbrev Fld.LAMP_FADE_STAT_RUNNING : Fld := ⟨Reg.LAMP_FADE_STAT, 31, 31⟩
abbrev Fld.LAMP_FADE_STAT_LEFT : Fld := ⟨Reg.LAMP_FADE_STAT, 23, 0⟩
abbrev Fld.LAMP_ILIM_MA : Fld := ⟨Reg.LAMP_ILIM, 12, 0⟩
abbrev Fld.LAMP_ILIM_STAT_LIMK : Fld := ⟨Reg.LAMP_ILIM_STAT, 16, 0⟩
abbrev Fld.LAMP_FAULT_CFG_SWEEP_MIN : Fld := ⟨Reg.LAMP_FAULT_CFG, 31, 24⟩
abbrev Fld.LAMP_FAULT_CFG_ROW_OPEN : Fld := ⟨Reg.LAMP_FAULT_CFG, 23, 20⟩
abbrev Fld.LAMP_FAULT_CFG_SHORT : Fld := ⟨Reg.LAMP_FAULT_CFG, 19, 10⟩
abbrev Fld.LAMP_FAULT_CFG_OPEN : Fld := ⟨Reg.LAMP_FAULT_CFG, 9, 0⟩
abbrev Fld.LAMP_SWEEP_CTRL_START : Fld := ⟨Reg.LAMP_SWEEP_CTRL, 0, 0⟩
abbrev Fld.LAMP_SWEEP_STAT_RUNNING : Fld := ⟨Reg.LAMP_SWEEP_STAT, 31, 31⟩
abbrev Fld.LAMP_SWEEP_STAT_FOUND : Fld := ⟨Reg.LAMP_SWEEP_STAT, 30, 30⟩
abbrev Fld.LAMP_SWEEP_STAT_AGE : Fld := ⟨Reg.LAMP_SWEEP_STAT, 15, 0⟩
abbrev Fld.LAMP_FAULT_IDX_CLEAR : Fld := ⟨Reg.LAMP_FAULT_IDX, 31, 31⟩
abbrev Fld.LAMP_FAULT_IDX_IDX : Fld := ⟨Reg.LAMP_FAULT_IDX, 5, 0⟩
abbrev Fld.LAMP_FAULT_ENTRY_VALID : Fld := ⟨Reg.LAMP_FAULT_ENTRY, 31, 31⟩
abbrev Fld.LAMP_FAULT_ENTRY_KIND : Fld := ⟨Reg.LAMP_FAULT_ENTRY, 30, 28⟩
abbrev Fld.LAMP_FAULT_ENTRY_PORT : Fld := ⟨Reg.LAMP_FAULT_ENTRY, 24, 16⟩
abbrev Fld.LAMP_FAULT_ENTRY_ROW : Fld := ⟨Reg.LAMP_FAULT_ENTRY, 12, 8⟩
abbrev Fld.LAMP_STAT_CAUSE : Fld := ⟨Reg.LAMP_STAT, 31, 28⟩
abbrev Fld.LAMP_STAT_ICAP : Fld := ⟨Reg.LAMP_STAT, 27, 27⟩
abbrev Fld.LAMP_STAT_STATE : Fld := ⟨Reg.LAMP_STAT, 26, 24⟩
abbrev Fld.LAMP_STAT_SEG_USED : Fld := ⟨Reg.LAMP_STAT, 18, 16⟩
abbrev Fld.LAMP_STAT_SCAN : Fld := ⟨Reg.LAMP_STAT, 13, 8⟩
abbrev Fld.LAMP_STAT_FORCED : Fld := ⟨Reg.LAMP_STAT, 0, 0⟩
abbrev Fld.LAMP_GRID_ROW_GCLK : Fld := ⟨Reg.LAMP_GRID_ROW, 19, 0⟩
abbrev Fld.LAMP_GRID_ON_GCLK : Fld := ⟨Reg.LAMP_GRID_ON, 19, 0⟩
abbrev Fld.LAMP_ILIM_EST_MA : Fld := ⟨Reg.LAMP_ILIM_EST, 18, 0⟩
abbrev Fld.LAMP_GRP_STAT_CAUSE (i : Nat) : Fld := ⟨Reg.LAMP_GRP_STAT i, 31, 28⟩
abbrev Fld.LAMP_GRP_STAT_MASKED (i : Nat) : Fld := ⟨Reg.LAMP_GRP_STAT i, 27, 16⟩
abbrev Fld.LAMP_GRP_STAT_USED (i : Nat) : Fld := ⟨Reg.LAMP_GRP_STAT i, 7, 0⟩
abbrev Fld.LAMP_GRP_VMIN_MV (i : Nat) : Fld := ⟨Reg.LAMP_GRP_VMIN i, 31, 16⟩
abbrev Fld.LAMP_GRP_VMIN_ROW (i : Nat) : Fld := ⟨Reg.LAMP_GRP_VMIN i, 12, 8⟩
abbrev Fld.LAMP_GRP_VMIN_PORT (i : Nat) : Fld := ⟨Reg.LAMP_GRP_VMIN i, 6, 0⟩
abbrev Fld.LAMP_TRIM_T3 (i : Nat) (k : Nat) : Fld := ⟨Reg.LAMP_TRIM i k, 30, 24⟩
abbrev Fld.LAMP_TRIM_T2 (i : Nat) (k : Nat) : Fld := ⟨Reg.LAMP_TRIM i k, 22, 16⟩
abbrev Fld.LAMP_TRIM_T1 (i : Nat) (k : Nat) : Fld := ⟨Reg.LAMP_TRIM i k, 14, 8⟩
abbrev Fld.LAMP_TRIM_T0 (i : Nat) (k : Nat) : Fld := ⟨Reg.LAMP_TRIM i k, 6, 0⟩
abbrev Fld.HALO_ACC_SRC_BIN : Fld := ⟨Reg.HALO_ACC_SRC, 9, 8⟩
abbrev Fld.HALO_ACC_SRC_SENSOR : Fld := ⟨Reg.HALO_ACC_SRC, 2, 0⟩
abbrev Fld.HALO_ACC_WIN_POS_Y_H : Fld := ⟨Reg.HALO_ACC_WIN_POS, 29, 16⟩
abbrev Fld.HALO_ACC_WIN_POS_X_W : Fld := ⟨Reg.HALO_ACC_WIN_POS, 13, 0⟩
abbrev Fld.HALO_ACC_WIN_SIZE_Y_H : Fld := ⟨Reg.HALO_ACC_WIN_SIZE, 29, 16⟩
abbrev Fld.HALO_ACC_WIN_SIZE_X_W : Fld := ⟨Reg.HALO_ACC_WIN_SIZE, 13, 0⟩
abbrev Fld.HALO_ACC_FRAMES_FRAMES : Fld := ⟨Reg.HALO_ACC_FRAMES, 24, 0⟩
abbrev Fld.HALO_ACC_BASE_HI_ADDR : Fld := ⟨Reg.HALO_ACC_BASE_HI, 4, 0⟩
abbrev Fld.HALO_ACC_CTRL_ABORT : Fld := ⟨Reg.HALO_ACC_CTRL, 1, 1⟩
abbrev Fld.HALO_ACC_CTRL_START : Fld := ⟨Reg.HALO_ACC_CTRL, 0, 0⟩
abbrev Fld.HALO_ACC_STAT_CAUSE : Fld := ⟨Reg.HALO_ACC_STAT, 31, 28⟩
abbrev Fld.HALO_ACC_STAT_STATE : Fld := ⟨Reg.HALO_ACC_STAT, 2, 0⟩
abbrev Fld.HALO_JOB_HI_ADDR : Fld := ⟨Reg.HALO_JOB_HI, 4, 0⟩
abbrev Fld.HALO_JOB_CTRL_ABORT : Fld := ⟨Reg.HALO_JOB_CTRL, 1, 1⟩
abbrev Fld.HALO_JOB_CTRL_START : Fld := ⟨Reg.HALO_JOB_CTRL, 0, 0⟩
abbrev Fld.HALO_JOB_STAT_CAUSE : Fld := ⟨Reg.HALO_JOB_STAT, 31, 28⟩
abbrev Fld.HALO_JOB_STAT_STATE : Fld := ⟨Reg.HALO_JOB_STAT, 27, 24⟩
abbrev Fld.HALO_JOB_STAT_TILES : Fld := ⟨Reg.HALO_JOB_STAT, 6, 0⟩
abbrev Fld.HALO_PUSH_LIST_HI_ADDR : Fld := ⟨Reg.HALO_PUSH_LIST_HI, 4, 0⟩
abbrev Fld.HALO_PUSH_COUNT_COUNT : Fld := ⟨Reg.HALO_PUSH_COUNT, 12, 0⟩
abbrev Fld.HALO_PUSH_CTRL_ALL_OR_NONE : Fld := ⟨Reg.HALO_PUSH_CTRL, 2, 2⟩
abbrev Fld.HALO_PUSH_CTRL_ABORT : Fld := ⟨Reg.HALO_PUSH_CTRL, 1, 1⟩
abbrev Fld.HALO_PUSH_CTRL_START : Fld := ⟨Reg.HALO_PUSH_CTRL, 0, 0⟩
abbrev Fld.HALO_PUSH_STAT_CAUSE : Fld := ⟨Reg.HALO_PUSH_STAT, 31, 28⟩
abbrev Fld.HALO_PUSH_STAT_STATE : Fld := ⟨Reg.HALO_PUSH_STAT, 27, 25⟩
abbrev Fld.HALO_PUSH_STAT_SWITCHED : Fld := ⟨Reg.HALO_PUSH_STAT, 12, 0⟩
abbrev Fld.HALO_PUSH_CFG_GUARD : Fld := ⟨Reg.HALO_PUSH_CFG, 0, 0⟩
abbrev Fld.HALO_LIM_DIAG_DIAG_MAX_OFF_MAX : Fld := ⟨Reg.HALO_LIM_DIAG, 31, 16⟩
abbrev Fld.HALO_LIM_DIAG_DIAG_MIN_OFS_MAX : Fld := ⟨Reg.HALO_LIM_DIAG, 15, 0⟩
abbrev Fld.HALO_LIM_MISC_DIAG_MAX_OFF_MAX : Fld := ⟨Reg.HALO_LIM_MISC, 31, 16⟩
abbrev Fld.HALO_LIM_MISC_DIAG_MIN_OFS_MAX : Fld := ⟨Reg.HALO_LIM_MISC, 15, 0⟩
abbrev Fld.HALO_S_CFA_THRESH (k : Nat) : Fld := ⟨Reg.HALO_S_CFA k, 27, 16⟩
abbrev Fld.HALO_S_CFA_CFA (k : Nat) : Fld := ⟨Reg.HALO_S_CFA k, 1, 0⟩
abbrev Fld.HALO_S_BLACK_LO_Gr_B (k : Nat) : Fld := ⟨Reg.HALO_S_BLACK_LO k, 31, 16⟩
abbrev Fld.HALO_S_BLACK_LO_R_Gb (k : Nat) : Fld := ⟨Reg.HALO_S_BLACK_LO k, 15, 0⟩
abbrev Fld.HALO_S_BLACK_HI_Gr_B (k : Nat) : Fld := ⟨Reg.HALO_S_BLACK_HI k, 31, 16⟩
abbrev Fld.HALO_S_BLACK_HI_R_Gb (k : Nat) : Fld := ⟨Reg.HALO_S_BLACK_HI k, 15, 0⟩
abbrev Fld.HALO_S_GAIN_LO_Gr_B (k : Nat) : Fld := ⟨Reg.HALO_S_GAIN_LO k, 31, 16⟩
abbrev Fld.HALO_S_GAIN_LO_R_Gb (k : Nat) : Fld := ⟨Reg.HALO_S_GAIN_LO k, 15, 0⟩
abbrev Fld.HALO_S_GAIN_HI_Gr_B (k : Nat) : Fld := ⟨Reg.HALO_S_GAIN_HI k, 31, 16⟩
abbrev Fld.HALO_S_GAIN_HI_R_Gb (k : Nat) : Fld := ⟨Reg.HALO_S_GAIN_HI k, 15, 0⟩
abbrev Fld.HALO_S_APPLY_APPLY (k : Nat) : Fld := ⟨Reg.HALO_S_APPLY k, 0, 0⟩
abbrev Fld.HALO_S_STAT_PENDING (k : Nat) : Fld := ⟨Reg.HALO_S_STAT k, 31, 31⟩
abbrev Fld.HALO_S_STAT_FRAMES (k : Nat) : Fld := ⟨Reg.HALO_S_STAT k, 15, 0⟩
abbrev Fld.CSI_CFG_CLK_CONT (i : Nat) : Fld := ⟨Reg.CSI_CFG i, 2, 2⟩
abbrev Fld.CSI_CFG_LANES (i : Nat) : Fld := ⟨Reg.CSI_CFG i, 1, 0⟩
abbrev Fld.CSI_STAT_ACTIVE (i : Nat) : Fld := ⟨Reg.CSI_STAT i, 31, 31⟩
abbrev Fld.CSI_STAT_SKEW_OK (i : Nat) : Fld := ⟨Reg.CSI_STAT i, 30, 30⟩
abbrev Fld.CSI_STAT_STOP (i : Nat) : Fld := ⟨Reg.CSI_STAT i, 3, 0⟩
abbrev Fld.CSI_VC_CFG_EN (i : Nat) (k : Nat) : Fld := ⟨Reg.CSI_VC_CFG i k, 31, 31⟩
abbrev Fld.CSI_VC_CFG_DT (i : Nat) (k : Nat) : Fld := ⟨Reg.CSI_VC_CFG i k, 5, 0⟩
abbrev Fld.CSI_VC_SIZE_HEIGHT (i : Nat) (k : Nat) : Fld := ⟨Reg.CSI_VC_SIZE i k, 29, 16⟩
abbrev Fld.CSI_VC_SIZE_WIDTH (i : Nat) (k : Nat) : Fld := ⟨Reg.CSI_VC_SIZE i k, 13, 0⟩
abbrev Fld.CSI_VC_TMO_MS (i : Nat) (k : Nat) : Fld := ⟨Reg.CSI_VC_TMO i k, 15, 0⟩
abbrev Fld.CSI_VC_STAT_CAUSE (i : Nat) (k : Nat) : Fld := ⟨Reg.CSI_VC_STAT i k, 31, 28⟩
abbrev Fld.CSI_VC_STAT_FRAME_NUM (i : Nat) (k : Nat) : Fld := ⟨Reg.CSI_VC_STAT i k, 15, 0⟩
abbrev Fld.GRAN_CH_CFG_RDIMM (i : Nat) : Fld := ⟨Reg.GRAN_CH_CFG i, 16, 16⟩
abbrev Fld.GRAN_CH_CFG_RANKS (i : Nat) : Fld := ⟨Reg.GRAN_CH_CFG i, 12, 12⟩
abbrev Fld.GRAN_CH_CFG_DENSITY (i : Nat) : Fld := ⟨Reg.GRAN_CH_CFG i, 9, 8⟩
abbrev Fld.GRAN_CH_CFG_WIDTH (i : Nat) : Fld := ⟨Reg.GRAN_CH_CFG i, 5, 4⟩
abbrev Fld.GRAN_CH_CFG_SPEED (i : Nat) : Fld := ⟨Reg.GRAN_CH_CFG i, 2, 0⟩
abbrev Fld.GRAN_CH_STAT_TRAIN_MS (i : Nat) : Fld := ⟨Reg.GRAN_CH_STAT i, 31, 16⟩
abbrev Fld.GRAN_CH_STAT_ERASED (i : Nat) : Fld := ⟨Reg.GRAN_CH_STAT i, 15, 15⟩
abbrev Fld.GRAN_CH_STAT_ERASED_RANK (i : Nat) : Fld := ⟨Reg.GRAN_CH_STAT i, 14, 14⟩
abbrev Fld.GRAN_CH_STAT_ERASED_SUBCH (i : Nat) : Fld := ⟨Reg.GRAN_CH_STAT i, 13, 13⟩
abbrev Fld.GRAN_CH_STAT_ERASED_DEV (i : Nat) : Fld := ⟨Reg.GRAN_CH_STAT i, 12, 9⟩
abbrev Fld.GRAN_CH_STAT_HOT (i : Nat) : Fld := ⟨Reg.GRAN_CH_STAT i, 8, 8⟩
abbrev Fld.GRAN_CH_STAT_RETIRED (i : Nat) : Fld := ⟨Reg.GRAN_CH_STAT i, 5, 4⟩
abbrev Fld.GRAN_CH_STAT_STATE (i : Nat) : Fld := ⟨Reg.GRAN_CH_STAT i, 2, 0⟩
abbrev Fld.GRAN_CH_RETRAIN_MS (i : Nat) : Fld := ⟨Reg.GRAN_CH_RETRAIN i, 15, 0⟩
abbrev Fld.GRAN_CH_ERR_INFO_TYPE (i : Nat) : Fld := ⟨Reg.GRAN_CH_ERR_INFO i, 31, 28⟩
abbrev Fld.GRAN_CH_ERR_INFO_REQUESTER (i : Nat) : Fld := ⟨Reg.GRAN_CH_ERR_INFO i, 27, 24⟩
abbrev Fld.GRAN_CH_ERR_INFO_RANK (i : Nat) : Fld := ⟨Reg.GRAN_CH_ERR_INFO i, 20, 20⟩
abbrev Fld.GRAN_CH_ERR_INFO_SUBCH (i : Nat) : Fld := ⟨Reg.GRAN_CH_ERR_INFO i, 19, 19⟩
abbrev Fld.GRAN_CH_ERR_INFO_SYMBOL (i : Nat) : Fld := ⟨Reg.GRAN_CH_ERR_INFO i, 12, 8⟩
abbrev Fld.GRAN_CH_MARGIN_WRITE (i : Nat) : Fld := ⟨Reg.GRAN_CH_MARGIN i, 31, 16⟩
abbrev Fld.GRAN_CH_MARGIN_READ (i : Nat) : Fld := ⟨Reg.GRAN_CH_MARGIN i, 15, 0⟩
abbrev Fld.GRAN_MGR_CFG_HOLD_SCAN : Fld := ⟨Reg.GRAN_MGR_CFG, 16, 16⟩
abbrev Fld.GRAN_MGR_CFG_SPARE_CH : Fld := ⟨Reg.GRAN_MGR_CFG, 15, 14⟩
abbrev Fld.GRAN_MGR_CFG_SPARE_EN : Fld := ⟨Reg.GRAN_MGR_CFG, 13, 13⟩
abbrev Fld.GRAN_MGR_CFG_HASH_EN : Fld := ⟨Reg.GRAN_MGR_CFG, 12, 12⟩
abbrev Fld.GRAN_MGR_CFG_GRAIN : Fld := ⟨Reg.GRAN_MGR_CFG, 11, 8⟩
abbrev Fld.GRAN_MGR_CFG_CH_EN : Fld := ⟨Reg.GRAN_MGR_CFG, 3, 0⟩
abbrev Fld.GRAN_MGR_TOP_MIB : Fld := ⟨Reg.GRAN_MGR_TOP, 17, 0⟩
abbrev Fld.GRAN_MGR_STAT_PROGRESS : Fld := ⟨Reg.GRAN_MGR_STAT, 31, 24⟩
abbrev Fld.GRAN_MGR_STAT_RETIRED : Fld := ⟨Reg.GRAN_MGR_STAT, 11, 4⟩
abbrev Fld.GRAN_MGR_STAT_SPARE_AVAIL : Fld := ⟨Reg.GRAN_MGR_STAT, 3, 3⟩
abbrev Fld.GRAN_MGR_STAT_STATE : Fld := ⟨Reg.GRAN_MGR_STAT, 2, 0⟩
abbrev Fld.GRAN_MGR_CTRL_RETIRE : Fld := ⟨Reg.GRAN_MGR_CTRL, 31, 31⟩
abbrev Fld.GRAN_MGR_CTRL_RANK : Fld := ⟨Reg.GRAN_MGR_CTRL, 2, 2⟩
abbrev Fld.GRAN_MGR_CTRL_CH : Fld := ⟨Reg.GRAN_MGR_CTRL, 1, 0⟩
abbrev Fld.GRAN_MGR_UNW_OP : Fld := ⟨Reg.GRAN_MGR_UNW, 31, 30⟩
abbrev Fld.GRAN_MGR_UNW_REGION : Fld := ⟨Reg.GRAN_MGR_UNW, 16, 0⟩
abbrev Fld.GRAN_MGR_SCRUB_HOURS : Fld := ⟨Reg.GRAN_MGR_SCRUB, 15, 0⟩
abbrev Fld.GRAN_MGR_CE_THR_COUNT : Fld := ⟨Reg.GRAN_MGR_CE_THR, 15, 0⟩
abbrev Fld.ARB_CFG_COMPAT : Fld := ⟨Reg.ARB_CFG, 0, 0⟩
abbrev Fld.ARB_URG_CRIT : Fld := ⟨Reg.ARB_URG, 7, 4⟩
abbrev Fld.ARB_URG_URG : Fld := ⟨Reg.ARB_URG, 3, 0⟩
abbrev Fld.ARB_STARVE_TMO_US : Fld := ⟨Reg.ARB_STARVE_TMO, 15, 0⟩
abbrev Fld.ARB_STARVE_REQ : Fld := ⟨Reg.ARB_STARVE, 15, 0⟩
abbrev Fld.ARB_GRANT_ACTIVE : Fld := ⟨Reg.ARB_GRANT, 19, 16⟩
abbrev Fld.ARB_GRANT_OWNER : Fld := ⟨Reg.ARB_GRANT, 15, 0⟩
abbrev Fld.ARB_REQ_CFG_LIMIT (k : Nat) : Fld := ⟨Reg.ARB_REQ_CFG k, 15, 8⟩
abbrev Fld.ARB_REQ_CFG_PRIO (k : Nat) : Fld := ⟨Reg.ARB_REQ_CFG k, 3, 0⟩
abbrev Fld.WELL_RT_BASE_LO_ADDR : Fld := ⟨Reg.WELL_RT_BASE_LO, 31, 12⟩
abbrev Fld.WELL_RT_BASE_HI_ADDR : Fld := ⟨Reg.WELL_RT_BASE_HI, 4, 0⟩
abbrev Fld.WELL_SPILL_BASE_LO_ADDR : Fld := ⟨Reg.WELL_SPILL_BASE_LO, 31, 12⟩
abbrev Fld.WELL_SPILL_BASE_HI_ADDR : Fld := ⟨Reg.WELL_SPILL_BASE_HI, 4, 0⟩
abbrev Fld.WELL_SPILL_SIZE_MIB : Fld := ⟨Reg.WELL_SPILL_SIZE, 12, 0⟩
abbrev Fld.WELL_RING_CTRL_OP : Fld := ⟨Reg.WELL_RING_CTRL, 31, 28⟩
abbrev Fld.WELL_RING_CTRL_RING : Fld := ⟨Reg.WELL_RING_CTRL, 13, 0⟩
abbrev Fld.WELL_RING_RES_BUSY : Fld := ⟨Reg.WELL_RING_RES, 31, 31⟩
abbrev Fld.WELL_RING_RES_RESULT : Fld := ⟨Reg.WELL_RING_RES, 30, 28⟩
abbrev Fld.WELL_RING_RES_RING : Fld := ⟨Reg.WELL_RING_RES, 13, 0⟩
abbrev Fld.WELL_NOTIFY_CFG_HOLDOFF : Fld := ⟨Reg.WELL_NOTIFY_CFG, 15, 0⟩
abbrev Fld.WELL_BURST_SPILLING : Fld := ⟨Reg.WELL_BURST, 31, 31⟩
abbrev Fld.WELL_BURST_FILL : Fld := ⟨Reg.WELL_BURST, 13, 0⟩
abbrev Fld.WELL_INFLIGHT_COUNT : Fld := ⟨Reg.WELL_INFLIGHT, 20, 0⟩
abbrev Fld.WELL_MGMT_CFG_PORT : Fld := ⟨Reg.WELL_MGMT_CFG, 31, 16⟩
abbrev Fld.WELL_MGMT_CFG_EN : Fld := ⟨Reg.WELL_MGMT_CFG, 0, 0⟩
abbrev Fld.WELL_MGMT_STAT_LINK : Fld := ⟨Reg.WELL_MGMT_STAT, 31, 31⟩
abbrev Fld.WELL_MGMT_STAT_SESSION : Fld := ⟨Reg.WELL_MGMT_STAT, 30, 30⟩
abbrev Fld.WELL_MGMT_STAT_AUTH_FAIL : Fld := ⟨Reg.WELL_MGMT_STAT, 15, 0⟩
abbrev Fld.PCIE_ID_DEVICE : Fld := ⟨Reg.PCIE_ID, 31, 16⟩
abbrev Fld.PCIE_ID_VENDOR : Fld := ⟨Reg.PCIE_ID, 15, 0⟩
abbrev Fld.PCIE_CFG_WIDTH : Fld := ⟨Reg.PCIE_CFG, 5, 4⟩
abbrev Fld.PCIE_CFG_GEN : Fld := ⟨Reg.PCIE_CFG, 2, 0⟩
abbrev Fld.PCIE_LINK_UP : Fld := ⟨Reg.PCIE_LINK, 31, 31⟩
abbrev Fld.PCIE_LINK_WIDTH : Fld := ⟨Reg.PCIE_LINK, 10, 8⟩
abbrev Fld.PCIE_LINK_GEN : Fld := ⟨Reg.PCIE_LINK, 2, 0⟩
abbrev Fld.PCIE_MSIX_ENABLE : Fld := ⟨Reg.PCIE_MSIX, 31, 31⟩
abbrev Fld.PCIE_MSIX_FUNC_MASK : Fld := ⟨Reg.PCIE_MSIX, 30, 30⟩
abbrev Fld.TWIN_CFG_EN : Fld := ⟨Reg.TWIN_CFG, 31, 31⟩
abbrev Fld.TWIN_CFG_PRIMARY : Fld := ⟨Reg.TWIN_CFG, 30, 30⟩
abbrev Fld.TWIN_CFG_PEER_SIDX : Fld := ⟨Reg.TWIN_CFG, 5, 0⟩
abbrev Fld.TWIN_RING_PORTS : Fld := ⟨Reg.TWIN_RING, 15, 0⟩
abbrev Fld.TWIN_STAT_ROLE : Fld := ⟨Reg.TWIN_STAT, 31, 29⟩
abbrev Fld.TWIN_STAT_SYNCED : Fld := ⟨Reg.TWIN_STAT, 28, 28⟩
abbrev Fld.TWIN_STAT_ELIGIBLE : Fld := ⟨Reg.TWIN_STAT, 27, 27⟩
abbrev Fld.TWIN_STAT_PEER : Fld := ⟨Reg.TWIN_STAT, 26, 25⟩
abbrev Fld.TWIN_STAT_MANDATES : Fld := ⟨Reg.TWIN_STAT, 24, 23⟩
abbrev Fld.TWIN_STAT_SOLO : Fld := ⟨Reg.TWIN_STAT, 22, 22⟩
abbrev Fld.TWIN_PORTS_SPLIT : Fld := ⟨Reg.TWIN_PORTS, 31, 16⟩
abbrev Fld.TWIN_PORTS_NEAR : Fld := ⟨Reg.TWIN_PORTS, 15, 0⟩
abbrev Fld.TWIN_REJOIN_PORTS : Fld := ⟨Reg.TWIN_REJOIN, 15, 0⟩
abbrev Fld.TWIN_CTRL_RESYNC : Fld := ⟨Reg.TWIN_CTRL, 1, 1⟩
abbrev Fld.TWIN_CTRL_REJOIN : Fld := ⟨Reg.TWIN_CTRL, 0, 0⟩
abbrev Fld.TWIN_COPY_STAT_ACK_TICK : Fld := ⟨Reg.TWIN_COPY_STAT, 31, 16⟩
abbrev Fld.TWIN_COPY_STAT_KIB : Fld := ⟨Reg.TWIN_COPY_STAT, 15, 0⟩
abbrev Fld.TWIN_HEALTH_FLAGS : Fld := ⟨Reg.TWIN_HEALTH, 8, 0⟩
abbrev Fld.TWIN_MW_BASE_EN (k : Nat) : Fld := ⟨Reg.TWIN_MW_BASE k, 31, 31⟩
abbrev Fld.TWIN_MW_BASE_ADDR (k : Nat) : Fld := ⟨Reg.TWIN_MW_BASE k, 24, 0⟩
abbrev Fld.TWIN_MW_SIZE_MIB (k : Nat) : Fld := ⟨Reg.TWIN_MW_SIZE k, 15, 0⟩
abbrev Fld.ELDER_NOM_VALID (k : Nat) : Fld := ⟨Reg.ELDER_NOM k, 31, 31⟩
abbrev Fld.ELDER_NOM_WDN (k : Nat) : Fld := ⟨Reg.ELDER_NOM k, 15, 0⟩
abbrev Fld.ELDER_MAND_VALID (k : Nat) : Fld := ⟨Reg.ELDER_MAND k, 31, 31⟩
abbrev Fld.ELDER_MAND_HOLDER (k : Nat) : Fld := ⟨Reg.ELDER_MAND k, 29, 24⟩
abbrev Fld.ELDER_MAND_EPOCH (k : Nat) : Fld := ⟨Reg.ELDER_MAND k, 23, 0⟩
abbrev Fld.ELDER_HEARD_AGE2 : Fld := ⟨Reg.ELDER_HEARD, 23, 16⟩
abbrev Fld.ELDER_HEARD_AGE1 : Fld := ⟨Reg.ELDER_HEARD, 15, 8⟩
abbrev Fld.ELDER_HEARD_AGE0 : Fld := ⟨Reg.ELDER_HEARD, 7, 0⟩
abbrev Fld.ELDER_T_CFG_ELDER : Fld := ⟨Reg.ELDER_T_CFG, 1, 1⟩
abbrev Fld.ELDER_T_CFG_RING : Fld := ⟨Reg.ELDER_T_CFG, 0, 0⟩
abbrev Fld.ELDER_T_PEER_PEER_SILENT : Fld := ⟨Reg.ELDER_T_PEER, 31, 31⟩
abbrev Fld.ELDER_T_PEER_ELIGIBLE : Fld := ⟨Reg.ELDER_T_PEER, 30, 30⟩
abbrev Fld.ELDER_T_PEER_SIDX : Fld := ⟨Reg.ELDER_T_PEER, 21, 16⟩
abbrev Fld.ELDER_T_PEER_AGE : Fld := ⟨Reg.ELDER_T_PEER, 7, 0⟩
abbrev Fld.ELDER_T_ALT_UNIT : Fld := ⟨Reg.ELDER_T_ALT, 9, 0⟩
abbrev Fld.ELDER_T_STAT_TURNS : Fld := ⟨Reg.ELDER_T_STAT, 7, 4⟩
abbrev Fld.ELDER_T_STAT_FACING_B : Fld := ⟨Reg.ELDER_T_STAT, 3, 3⟩
abbrev Fld.ELDER_T_STAT_STATE : Fld := ⟨Reg.ELDER_T_STAT, 2, 0⟩
abbrev Fld.GATE_LIFECYCLE_DEBUG_OPEN : Fld := ⟨Reg.GATE_LIFECYCLE, 8, 8⟩
abbrev Fld.GATE_LIFECYCLE_STATE : Fld := ⟨Reg.GATE_LIFECYCLE, 1, 0⟩
abbrev Fld.GATE_FUSE_DIS_COUNT : Fld := ⟨Reg.GATE_FUSE_DIS, 15, 0⟩
abbrev Fld.GATE_BOOT_RESULT : Fld := ⟨Reg.GATE_BOOT, 31, 28⟩
abbrev Fld.GATE_BOOT_STAGE : Fld := ⟨Reg.GATE_BOOT, 27, 24⟩
abbrev Fld.GATE_BOOT_SLOT : Fld := ⟨Reg.GATE_BOOT, 16, 16⟩
abbrev Fld.GATE_CLAIM_CLAIMED : Fld := ⟨Reg.GATE_CLAIM, 31, 31⟩
abbrev Fld.GATE_CLAIM_SPENT : Fld := ⟨Reg.GATE_CLAIM, 30, 30⟩
abbrev Fld.GATE_CLAIM_USED : Fld := ⟨Reg.GATE_CLAIM, 3, 0⟩
abbrev Fld.GATE_TAMPER_EN_TGLITCH : Fld := ⟨Reg.GATE_TAMPER_EN, 4, 4⟩
abbrev Fld.GATE_TAMPER_EN_CGLITCH : Fld := ⟨Reg.GATE_TAMPER_EN, 3, 3⟩
abbrev Fld.GATE_TAMPER_EN_VGLITCH : Fld := ⟨Reg.GATE_TAMPER_EN, 2, 2⟩
abbrev Fld.GATE_TAMPER_EN_PIN1 : Fld := ⟨Reg.GATE_TAMPER_EN, 1, 1⟩
abbrev Fld.GATE_TAMPER_EN_PIN0 : Fld := ⟨Reg.GATE_TAMPER_EN, 0, 0⟩
abbrev Fld.GATE_TAMPER_STAT_COUNTER : Fld := ⟨Reg.GATE_TAMPER_STAT, 31, 27⟩
abbrev Fld.GATE_TAMPER_STAT_SEEN : Fld := ⟨Reg.GATE_TAMPER_STAT, 15, 8⟩
abbrev Fld.GATE_TAMPER_STAT_LATCHED : Fld := ⟨Reg.GATE_TAMPER_STAT, 4, 0⟩
abbrev Fld.GATE_QUAR_ACTIVE : Fld := ⟨Reg.GATE_QUAR, 31, 31⟩
abbrev Fld.GATE_QUAR_CAUSE : Fld := ⟨Reg.GATE_QUAR, 30, 28⟩
abbrev Fld.GATE_POL_ADDR_AUTO_INC : Fld := ⟨Reg.GATE_POL_ADDR, 31, 31⟩
abbrev Fld.GATE_POL_ADDR_IDX : Fld := ⟨Reg.GATE_POL_ADDR, 12, 0⟩
abbrev Fld.GATE_POL_DATA_WRITE : Fld := ⟨Reg.GATE_POL_DATA, 15, 8⟩
abbrev Fld.GATE_POL_DATA_READ : Fld := ⟨Reg.GATE_POL_DATA, 7, 0⟩
abbrev Fld.GATE_POL_COMMIT_COMMIT : Fld := ⟨Reg.GATE_POL_COMMIT, 0, 0⟩
abbrev Fld.GATE_ATT_CTRL_START : Fld := ⟨Reg.GATE_ATT_CTRL, 0, 0⟩
abbrev Fld.GATE_ATT_STAT_BUSY : Fld := ⟨Reg.GATE_ATT_STAT, 31, 31⟩
abbrev Fld.GATE_ATT_STAT_VALID : Fld := ⟨Reg.GATE_ATT_STAT, 30, 30⟩
abbrev Fld.GATE_ATT_STAT_RESULT : Fld := ⟨Reg.GATE_ATT_STAT, 29, 28⟩
abbrev Fld.KEYS_SEL_SLOT : Fld := ⟨Reg.KEYS_SEL, 4, 0⟩
abbrev Fld.KEYS_CTRL_OP : Fld := ⟨Reg.KEYS_CTRL, 31, 28⟩
abbrev Fld.KEYS_CTRL_LEN : Fld := ⟨Reg.KEYS_CTRL, 7, 0⟩
abbrev Fld.KEYS_STAT_BUSY : Fld := ⟨Reg.KEYS_STAT, 31, 31⟩
abbrev Fld.KEYS_STAT_PENDING_WRITE : Fld := ⟨Reg.KEYS_STAT, 30, 30⟩
abbrev Fld.KEYS_STAT_RESULT : Fld := ⟨Reg.KEYS_STAT, 27, 24⟩
abbrev Fld.KEYS_STAT_SLOT : Fld := ⟨Reg.KEYS_STAT, 4, 0⟩
abbrev Fld.KEYS_INFO_STATE : Fld := ⟨Reg.KEYS_INFO, 31, 30⟩
abbrev Fld.KEYS_INFO_KIND : Fld := ⟨Reg.KEYS_INFO, 27, 24⟩
abbrev Fld.KEYS_INFO_EPOCH : Fld := ⟨Reg.KEYS_INFO, 23, 16⟩
abbrev Fld.KEYS_INFO_USERS : Fld := ⟨Reg.KEYS_INFO, 15, 0⟩
abbrev Fld.UPDATE_CFG_OWNER_REQ : Fld := ⟨Reg.UPDATE_CFG, 31, 31⟩
abbrev Fld.UPDATE_CFG_TRIAL_MIN : Fld := ⟨Reg.UPDATE_CFG, 15, 0⟩
abbrev Fld.UPDATE_DL_STAT_CAUSE : Fld := ⟨Reg.UPDATE_DL_STAT, 31, 28⟩
abbrev Fld.UPDATE_DL_STAT_STATE : Fld := ⟨Reg.UPDATE_DL_STAT, 27, 25⟩
abbrev Fld.UPDATE_DL_STAT_HELD : Fld := ⟨Reg.UPDATE_DL_STAT, 12, 0⟩
abbrev Fld.UPDATE_CHUNK_CTRL_OP : Fld := ⟨Reg.UPDATE_CHUNK_CTRL, 31, 30⟩
abbrev Fld.UPDATE_CHUNK_CTRL_INDEX : Fld := ⟨Reg.UPDATE_CHUNK_CTRL, 12, 0⟩
abbrev Fld.UPDATE_ACT_CTRL_OP : Fld := ⟨Reg.UPDATE_ACT_CTRL, 31, 28⟩
abbrev Fld.UPDATE_ACT_STAT_CAUSE : Fld := ⟨Reg.UPDATE_ACT_STAT, 31, 28⟩
abbrev Fld.UPDATE_ACT_STAT_STATE : Fld := ⟨Reg.UPDATE_ACT_STAT, 27, 24⟩
abbrev Fld.UPDATE_ACT_ACKS_EXPECTED : Fld := ⟨Reg.UPDATE_ACT_ACKS, 31, 16⟩
abbrev Fld.UPDATE_ACT_ACKS_ACKED : Fld := ⟨Reg.UPDATE_ACT_ACKS, 15, 0⟩
abbrev Fld.UPDATE_SLOTS_SEN_A : Fld := ⟨Reg.UPDATE_SLOTS, 31, 28⟩
abbrev Fld.UPDATE_SLOTS_SEN_B : Fld := ⟨Reg.UPDATE_SLOTS, 27, 24⟩
abbrev Fld.UPDATE_SLOTS_TIL_A : Fld := ⟨Reg.UPDATE_SLOTS, 23, 20⟩
abbrev Fld.UPDATE_SLOTS_TIL_B : Fld := ⟨Reg.UPDATE_SLOTS, 19, 16⟩
abbrev Fld.UPDATE_SLOTS_RUN_B : Fld := ⟨Reg.UPDATE_SLOTS, 8, 8⟩
abbrev Fld.UPDATE_SLOTS_ATTEMPTS : Fld := ⟨Reg.UPDATE_SLOTS, 1, 0⟩
abbrev Fld.UPDATE_BOOT_BUDGET_BLOCKS : Fld := ⟨Reg.UPDATE_BOOT_BUDGET, 19, 0⟩
abbrev Fld.UPDATE_SVN_COUNT : Fld := ⟨Reg.UPDATE_SVN, 6, 0⟩
abbrev Fld.UPDATE_T_STAT_STATE : Fld := ⟨Reg.UPDATE_T_STAT, 31, 28⟩
abbrev Fld.UPDATE_T_STAT_PIECES : Fld := ⟨Reg.UPDATE_T_STAT, 12, 0⟩
abbrev Fld.PWR_STATE_CAUSE : Fld := ⟨Reg.PWR_STATE, 31, 28⟩
abbrev Fld.PWR_STATE_STATE : Fld := ⟨Reg.PWR_STATE, 26, 24⟩
abbrev Fld.PWR_STATE_TARGET : Fld := ⟨Reg.PWR_STATE, 22, 20⟩
abbrev Fld.PWR_STATE_BUSY : Fld := ⟨Reg.PWR_STATE, 19, 19⟩
abbrev Fld.PWR_STATE_TICK_PENDING : Fld := ⟨Reg.PWR_STATE, 18, 18⟩
abbrev Fld.PWR_STATE_DOMAIN : Fld := ⟨Reg.PWR_STATE, 6, 0⟩
abbrev Fld.PWR_STATE_CTRL_AT_TICK : Fld := ⟨Reg.PWR_STATE_CTRL, 8, 8⟩
abbrev Fld.PWR_STATE_CTRL_TARGET : Fld := ⟨Reg.PWR_STATE_CTRL, 2, 0⟩
abbrev Fld.PWR_WAKE_EN_TAMPER : Fld := ⟨Reg.PWR_WAKE_EN, 5, 5⟩
abbrev Fld.PWR_WAKE_EN_RST_N : Fld := ⟨Reg.PWR_WAKE_EN, 4, 4⟩
abbrev Fld.PWR_WAKE_EN_CHAIN : Fld := ⟨Reg.PWR_WAKE_EN, 3, 3⟩
abbrev Fld.PWR_WAKE_EN_LANE_M : Fld := ⟨Reg.PWR_WAKE_EN, 2, 2⟩
abbrev Fld.PWR_WAKE_EN_GPIO0 : Fld := ⟨Reg.PWR_WAKE_EN, 1, 1⟩
abbrev Fld.PWR_WAKE_EN_TIMER : Fld := ⟨Reg.PWR_WAKE_EN, 0, 0⟩
abbrev Fld.PWR_WAKE_CAUSE_TAMPER : Fld := ⟨Reg.PWR_WAKE_CAUSE, 5, 5⟩
abbrev Fld.PWR_WAKE_CAUSE_RST_N : Fld := ⟨Reg.PWR_WAKE_CAUSE, 4, 4⟩
abbrev Fld.PWR_WAKE_CAUSE_CHAIN : Fld := ⟨Reg.PWR_WAKE_CAUSE, 3, 3⟩
abbrev Fld.PWR_WAKE_CAUSE_LANE_M : Fld := ⟨Reg.PWR_WAKE_CAUSE, 2, 2⟩
abbrev Fld.PWR_WAKE_CAUSE_GPIO0 : Fld := ⟨Reg.PWR_WAKE_CAUSE, 1, 1⟩
abbrev Fld.PWR_WAKE_CAUSE_TIMER : Fld := ⟨Reg.PWR_WAKE_CAUSE, 0, 0⟩
abbrev Fld.PWR_RESET_CAUSE_WARM : Fld := ⟨Reg.PWR_RESET_CAUSE, 15, 8⟩
abbrev Fld.PWR_RESET_CAUSE_CAUSE : Fld := ⟨Reg.PWR_RESET_CAUSE, 2, 0⟩
abbrev Fld.PWR_RESET_CTRL_KEY : Fld := ⟨Reg.PWR_RESET_CTRL, 31, 16⟩
abbrev Fld.PWR_RESET_CTRL_RESET : Fld := ⟨Reg.PWR_RESET_CTRL, 0, 0⟩
abbrev Fld.PWR_WDT_KICK : Fld := ⟨Reg.PWR_WDT, 31, 31⟩
abbrev Fld.PWR_WDT_MS : Fld := ⟨Reg.PWR_WDT, 15, 0⟩
abbrev Fld.PWR_DWELL_US : Fld := ⟨Reg.PWR_DWELL, 15, 0⟩
abbrev Fld.PWR_SEQ_STAT_REVERSALS : Fld := ⟨Reg.PWR_SEQ_STAT, 31, 16⟩
abbrev Fld.PWR_SEQ_STAT_FAIL : Fld := ⟨Reg.PWR_SEQ_STAT, 7, 7⟩
abbrev Fld.PWR_SEQ_STAT_DOMAIN : Fld := ⟨Reg.PWR_SEQ_STAT, 6, 0⟩
abbrev Fld.WEATHER_TEMP_VALID : Fld := ⟨Reg.WEATHER_TEMP, 31, 31⟩
abbrev Fld.WEATHER_TEMP_LEVEL : Fld := ⟨Reg.WEATHER_TEMP, 17, 16⟩
abbrev Fld.WEATHER_TEMP_TF : Fld := ⟨Reg.WEATHER_TEMP, 15, 0⟩
abbrev Fld.WEATHER_CFG_TRIP_HOLD : Fld := ⟨Reg.WEATHER_CFG, 17, 17⟩
abbrev Fld.WEATHER_CFG_AUTO_RESUME : Fld := ⟨Reg.WEATHER_CFG, 16, 16⟩
abbrev Fld.WEATHER_CFG_ORDERLY_C : Fld := ⟨Reg.WEATHER_CFG, 15, 8⟩
abbrev Fld.WEATHER_CFG_WARN_C : Fld := ⟨Reg.WEATHER_CFG, 7, 0⟩
abbrev Fld.WEATHER_OFFSET_OFFSET : Fld := ⟨Reg.WEATHER_OFFSET, 15, 0⟩
abbrev Fld.WEATHER_PEAK_TF : Fld := ⟨Reg.WEATHER_PEAK, 15, 0⟩
abbrev Fld.WEATHER_STAT_SENSOR : Fld := ⟨Reg.WEATHER_STAT, 31, 31⟩
abbrev Fld.WEATHER_STAT_PHASE : Fld := ⟨Reg.WEATHER_STAT, 25, 24⟩
abbrev Fld.WEATHER_STAT_RAW : Fld := ⟨Reg.WEATHER_STAT, 15, 0⟩

/-! ### The event bits -/

abbrev Ev.SYS_MODE_DONE : Ev := ⟨0x000, 0⟩
abbrev Ev.SYS_MODE_ABORT : Ev := ⟨0x000, 1⟩
abbrev Ev.SYS_MODE_REFUSED : Ev := ⟨0x000, 2⟩
abbrev Ev.SYS_CANCEL_LATE : Ev := ⟨0x000, 3⟩
abbrev Ev.SYS_DESC_BAD : Ev := ⟨0x000, 4⟩
abbrev Ev.SYS_LOCATOR : Ev := ⟨0x000, 5⟩
abbrev Ev.SYS_MISWIRED : Ev := ⟨0x000, 6⟩
abbrev Ev.CRIER_FAB_ERR : Ev := ⟨0x002, 0⟩
abbrev Ev.CRIER_REL_LATE : Ev := ⟨0x002, 1⟩
abbrev Ev.BELL_TIME_JUMP_REFUSED : Ev := ⟨0x003, 0⟩
abbrev Ev.BELL_LOCKED : Ev := ⟨0x003, 1⟩
abbrev Ev.BELL_HOLDOVER : Ev := ⟨0x003, 2⟩
abbrev Ev.BELL_OUT_OF_RANGE : Ev := ⟨0x003, 3⟩
abbrev Ev.BELL_STEP_DONE : Ev := ⟨0x003, 4⟩
abbrev Ev.BELL_GM_CHANGE : Ev := ⟨0x003, 5⟩
abbrev Ev.BELL_TICK_SKIPPED : Ev := ⟨0x003, 6⟩
abbrev Ev.BELL_TOUT0_MISSED : Ev := ⟨0x003, 7⟩
abbrev Ev.BELL_TOUT1_MISSED : Ev := ⟨0x003, 8⟩
abbrev Ev.BELL_SYNC_EDGE : Ev := ⟨0x003, 9⟩
abbrev Ev.SERDES_LINK_UP (i : Nat) : Ev := ⟨0x010 + i, 0⟩
abbrev Ev.SERDES_LINK_DOWN (i : Nat) : Ev := ⟨0x010 + i, 1⟩
abbrev Ev.SERDES_HI_BER (i : Nat) : Ev := ⟨0x010 + i, 2⟩
abbrev Ev.SERDES_EYE_LOW (i : Nat) : Ev := ⟨0x010 + i, 3⟩
abbrev Ev.SERDES_FREQ_OOR (i : Nat) : Ev := ⟨0x010 + i, 4⟩
abbrev Ev.SERDES_PLL_UNLOCK (i : Nat) : Ev := ⟨0x010 + i, 5⟩
abbrev Ev.SERDES_PRBS_ERR (i : Nat) : Ev := ⟨0x010 + i, 6⟩
abbrev Ev.SERDES_LB_END (i : Nat) : Ev := ⟨0x010 + i, 7⟩
abbrev Ev.SERDES_HOLDOVER (i : Nat) : Ev := ⟨0x010 + i, 8⟩
abbrev Ev.CHAIN_LONELY (i : Nat) : Ev := ⟨0x020 + i, 0⟩
abbrev Ev.CHAIN_FOUND (i : Nat) : Ev := ⟨0x020 + i, 1⟩
abbrev Ev.CHAIN_STRANGER (i : Nat) : Ev := ⟨0x020 + i, 2⟩
abbrev Ev.CHAIN_FOREIGN (i : Nat) : Ev := ⟨0x020 + i, 3⟩
abbrev Ev.CHAIN_ADMITTED (i : Nat) : Ev := ⟨0x020 + i, 4⟩
abbrev Ev.CHAIN_SLOT_MISS (i : Nat) : Ev := ⟨0x020 + i, 5⟩
abbrev Ev.CHAIN_TILE_LOST (i : Nat) : Ev := ⟨0x020 + i, 6⟩
abbrev Ev.CHAIN_DEADLINE_MISS (i : Nat) : Ev := ⟨0x020 + i, 7⟩
abbrev Ev.CHAIN_TAG_FAIL (i : Nat) : Ev := ⟨0x020 + i, 8⟩
abbrev Ev.CHAIN_NO_RESPONDER (i : Nat) : Ev := ⟨0x020 + i, 9⟩
abbrev Ev.CHAIN_CENSUS_CHANGE (i : Nat) : Ev := ⟨0x020 + i, 10⟩
abbrev Ev.CHAIN_TAIL (i : Nat) : Ev := ⟨0x020 + i, 11⟩
abbrev Ev.CHAIN_LIST_OVF (i : Nat) : Ev := ⟨0x020 + i, 12⟩
abbrev Ev.CHAIN_READMITTED (i : Nat) : Ev := ⟨0x020 + i, 13⟩
abbrev Ev.CHAIN_UNASSIGNED (i : Nat) : Ev := ⟨0x020 + i, 14⟩
abbrev Ev.RET_SLOT_EDGE : Ev := ⟨0x030, 0⟩
abbrev Ev.RET_MUTE_ON : Ev := ⟨0x030, 1⟩
abbrev Ev.RET_MUTE_OFF : Ev := ⟨0x030, 2⟩
abbrev Ev.RET_CLOBBER : Ev := ⟨0x030, 3⟩
abbrev Ev.RET_TEL_DROP : Ev := ⟨0x030, 4⟩
abbrev Ev.RET_EVQ_OVF : Ev := ⟨0x030, 5⟩
abbrev Ev.RET_RACK_MISS : Ev := ⟨0x030, 6⟩
abbrev Ev.RET_TIMING_BAD : Ev := ⟨0x030, 7⟩
abbrev Ev.ETH_LINK_UP (i : Nat) : Ev := ⟨0x040 + i, 0⟩
abbrev Ev.ETH_LINK_DOWN (i : Nat) : Ev := ⟨0x040 + i, 1⟩
abbrev Ev.ETH_FEC_UNCORR (i : Nat) : Ev := ⟨0x040 + i, 2⟩
abbrev Ev.ETH_HI_BER (i : Nat) : Ev := ⟨0x040 + i, 3⟩
abbrev Ev.ETH_ADDR_CONFLICT (i : Nat) : Ev := ⟨0x040 + i, 4⟩
abbrev Ev.INGEST_STREAM_UP (i : Nat) : Ev := ⟨0x042 + i, 0⟩
abbrev Ev.INGEST_STREAM_LOST (i : Nat) : Ev := ⟨0x042 + i, 1⟩
abbrev Ev.INGEST_PKT_LOSS (i : Nat) : Ev := ⟨0x042 + i, 2⟩
abbrev Ev.INGEST_FRAME_LATE (i : Nat) : Ev := ⟨0x042 + i, 3⟩
abbrev Ev.INGEST_FRAME_BAD (i : Nat) : Ev := ⟨0x042 + i, 4⟩
abbrev Ev.INGEST_CFG_BAD (i : Nat) : Ev := ⟨0x042 + i, 5⟩
abbrev Ev.INGEST_PATH_LOST (i : Nat) : Ev := ⟨0x042 + i, 6⟩
abbrev Ev.INGEST_FILL_ON (i : Nat) : Ev := ⟨0x042 + i, 7⟩
abbrev Ev.LOOM_CFG_BAD : Ev := ⟨0x050, 0⟩
abbrev Ev.LOOM_GRP_READY : Ev := ⟨0x050, 1⟩
abbrev Ev.LAYER_FLIP (i : Nat) : Ev := ⟨0x051 + i, 0⟩
abbrev Ev.LAYER_FENCE_HELD (i : Nat) : Ev := ⟨0x051 + i, 1⟩
abbrev Ev.LAYER_FENCE_TIMEOUT (i : Nat) : Ev := ⟨0x051 + i, 2⟩
abbrev Ev.LAYER_CFG_BAD (i : Nat) : Ev := ⟨0x051 + i, 3⟩
abbrev Ev.LAYER_CLIPPED (i : Nat) : Ev := ⟨0x051 + i, 4⟩
abbrev Ev.SCAN_CFG_BAD : Ev := ⟨0x068, 0⟩
abbrev Ev.SCAN_UNDERRUN : Ev := ⟨0x068, 1⟩
abbrev Ev.SCAN_CRC_MISMATCH : Ev := ⟨0x068, 2⟩
abbrev Ev.SCAN_MAP_MISMATCH : Ev := ⟨0x068, 3⟩
abbrev Ev.SCAN_CAP_EXCEED : Ev := ⟨0x068, 4⟩
abbrev Ev.SCAN_SWIFT_LATE : Ev := ⟨0x068, 5⟩
abbrev Ev.SCAN_WM_CRIT : Ev := ⟨0x068, 6⟩
abbrev Ev.CORR_OVF : Ev := ⟨0x0a1, 0⟩
abbrev Ev.CORR_UNF : Ev := ⟨0x0a1, 1⟩
abbrev Ev.CORR_CLIP_HI : Ev := ⟨0x0a1, 2⟩
abbrev Ev.CORR_CLIP_LO : Ev := ⟨0x0a1, 3⟩
abbrev Ev.CORR_LOAD_REJ : Ev := ⟨0x0a1, 4⟩
abbrev Ev.NIMBUS_HELD : Ev := ⟨0x0a0, 0⟩
abbrev Ev.NIMBUS_LATE : Ev := ⟨0x0a0, 1⟩
abbrev Ev.NIMBUS_INVALID : Ev := ⟨0x0a0, 2⟩
abbrev Ev.NIMBUS_GMAC_FAIL : Ev := ⟨0x0a0, 3⟩
abbrev Ev.NIMBUS_AFTER : Ev := ⟨0x0a0, 4⟩
abbrev Ev.LAMP_CFG_BAD : Ev := ⟨0x0a6, 0⟩
abbrev Ev.LAMP_FADE_DONE : Ev := ⟨0x0a6, 1⟩
abbrev Ev.LAMP_LAMP_OPEN : Ev := ⟨0x0a6, 2⟩
abbrev Ev.LAMP_LAMP_SHORT : Ev := ⟨0x0a6, 3⟩
abbrev Ev.LAMP_PIN_SHORT : Ev := ⟨0x0a6, 4⟩
abbrev Ev.LAMP_ROW_FAULT : Ev := ⟨0x0a6, 5⟩
abbrev Ev.LAMP_OVERCURRENT : Ev := ⟨0x0a6, 6⟩
abbrev Ev.LAMP_ILIM_ACT : Ev := ⟨0x0a6, 7⟩
abbrev Ev.LAMP_IREF_FAULT : Ev := ⟨0x0a6, 8⟩
abbrev Ev.LAMP_SWEEP_DONE : Ev := ⟨0x0a6, 9⟩
abbrev Ev.LAMP_LIST_OVF : Ev := ⟨0x0a6, 10⟩
abbrev Ev.LAMP_ICAP : Ev := ⟨0x0a6, 11⟩
abbrev Ev.LAMP_TIMING_FORCED : Ev := ⟨0x0a6, 12⟩
abbrev Ev.LAMPG_FAULT (i : Nat) : Ev := ⟨0x0a2 + i, 0⟩
abbrev Ev.LAMPG_CFG_BAD (i : Nat) : Ev := ⟨0x0a2 + i, 1⟩
abbrev Ev.HALO_RUN_DONE : Ev := ⟨0x048, 0⟩
abbrev Ev.HALO_RUN_ABORT : Ev := ⟨0x048, 1⟩
abbrev Ev.HALO_ACC_SAT : Ev := ⟨0x048, 2⟩
abbrev Ev.HALO_JOB_DONE : Ev := ⟨0x048, 3⟩
abbrev Ev.HALO_JOB_FAIL : Ev := ⟨0x048, 4⟩
abbrev Ev.HALO_PUSH_DONE : Ev := ⟨0x048, 5⟩
abbrev Ev.HALO_PUSH_REFUSED : Ev := ⟨0x048, 6⟩
abbrev Ev.HALO_PUSH_ABORT : Ev := ⟨0x048, 7⟩
abbrev Ev.HALO_CAL_REFUSED : Ev := ⟨0x048, 8⟩
abbrev Ev.HALO_CARD_FAIL : Ev := ⟨0x048, 9⟩
abbrev Ev.CSI_LINK_ACTIVE (i : Nat) : Ev := ⟨0x049 + i, 0⟩
abbrev Ev.CSI_LINK_STOP (i : Nat) : Ev := ⟨0x049 + i, 1⟩
abbrev Ev.CSI_ECC_ERR (i : Nat) : Ev := ⟨0x049 + i, 2⟩
abbrev Ev.CSI_CRC_ERR (i : Nat) : Ev := ⟨0x049 + i, 3⟩
abbrev Ev.CSI_FRAME_DROP (i : Nat) : Ev := ⟨0x049 + i, 4⟩
abbrev Ev.CSI_SKEW_FAIL (i : Nat) : Ev := ⟨0x049 + i, 5⟩
abbrev Ev.GRANCH_CE (i : Nat) : Ev := ⟨0x070 + i, 0⟩
abbrev Ev.GRANCH_UE (i : Nat) : Ev := ⟨0x070 + i, 1⟩
abbrev Ev.GRANCH_CA_ERR (i : Nat) : Ev := ⟨0x070 + i, 2⟩
abbrev Ev.GRANCH_FROZEN (i : Nat) : Ev := ⟨0x070 + i, 3⟩
abbrev Ev.GRANCH_TRAIN_FAIL (i : Nat) : Ev := ⟨0x070 + i, 4⟩
abbrev Ev.GRANCH_HOT (i : Nat) : Ev := ⟨0x070 + i, 5⟩
abbrev Ev.GRANCH_DEV_ERASED (i : Nat) : Ev := ⟨0x070 + i, 6⟩
abbrev Ev.GRANMGR_MIG_START : Ev := ⟨0x074, 0⟩
abbrev Ev.GRANMGR_RETIRED : Ev := ⟨0x074, 1⟩
abbrev Ev.GRANMGR_UE_NOSPARE : Ev := ⟨0x074, 2⟩
abbrev Ev.GRANMGR_POISON : Ev := ⟨0x074, 3⟩
abbrev Ev.GRANMGR_OUT_OF_RANGE : Ev := ⟨0x074, 4⟩
abbrev Ev.GRANMGR_CE_STORM : Ev := ⟨0x074, 5⟩
abbrev Ev.GRANMGR_SPARE_LOST : Ev := ⟨0x074, 6⟩
abbrev Ev.ARB_STARVE : Ev := ⟨0x075, 0⟩
abbrev Ev.WELL_CQ_NOTIFY : Ev := ⟨0x080, 0⟩
abbrev Ev.WELL_RING_HALT : Ev := ⟨0x080, 1⟩
abbrev Ev.WELL_DB_ERR : Ev := ⟨0x080, 2⟩
abbrev Ev.WELL_SPILL : Ev := ⟨0x080, 3⟩
abbrev Ev.WELL_TEL_DROP : Ev := ⟨0x080, 4⟩
abbrev Ev.WELL_EVT_DROP : Ev := ⟨0x080, 5⟩
abbrev Ev.WELL_RING_DONE : Ev := ⟨0x080, 6⟩
abbrev Ev.WELL_MGMT_UP : Ev := ⟨0x080, 7⟩
abbrev Ev.WELL_MGMT_AUTH_FAIL : Ev := ⟨0x080, 8⟩
abbrev Ev.PCIE_LINK_UP : Ev := ⟨0x081, 0⟩
abbrev Ev.PCIE_LINK_DOWN : Ev := ⟨0x081, 1⟩
abbrev Ev.PCIE_FLR : Ev := ⟨0x081, 2⟩
abbrev Ev.PCIE_CORR_ERR : Ev := ⟨0x081, 3⟩
abbrev Ev.PCIE_UNCORR_ERR : Ev := ⟨0x081, 4⟩
abbrev Ev.TWIN_ACTIVE_ON : Ev := ⟨0x090, 0⟩
abbrev Ev.TWIN_YIELDED : Ev := ⟨0x090, 1⟩
abbrev Ev.TWIN_SPLIT_ON : Ev := ⟨0x090, 2⟩
abbrev Ev.TWIN_SPLIT_OFF : Ev := ⟨0x090, 3⟩
abbrev Ev.TWIN_PEER_SILENT : Ev := ⟨0x090, 4⟩
abbrev Ev.TWIN_PEER_INELIGIBLE : Ev := ⟨0x090, 5⟩
abbrev Ev.TWIN_COPY_LATE : Ev := ⟨0x090, 6⟩
abbrev Ev.TWIN_LINK_DOWN : Ev := ⟨0x090, 7⟩
abbrev Ev.TWIN_LINK_UP : Ev := ⟨0x090, 8⟩
abbrev Ev.TWIN_SYNCED : Ev := ⟨0x090, 9⟩
abbrev Ev.TWIN_REJOIN_DONE : Ev := ⟨0x090, 10⟩
abbrev Ev.TWIN_ISOLATED : Ev := ⟨0x090, 11⟩
abbrev Ev.TWIN_READMITTED : Ev := ⟨0x090, 12⟩
abbrev Ev.ELDER_MANDATE_MOVED : Ev := ⟨0x091, 0⟩
abbrev Ev.ELDER_ELDER_SILENT : Ev := ⟨0x091, 1⟩
abbrev Ev.ELDER_ELDERS_LOST : Ev := ⟨0x091, 2⟩
abbrev Ev.ELDER_TURNED : Ev := ⟨0x091, 3⟩
abbrev Ev.GATE_TAMPER : Ev := ⟨0x0b0, 0⟩
abbrev Ev.GATE_QUARANTINE : Ev := ⟨0x0b0, 1⟩
abbrev Ev.GATE_POLICY_DONE : Ev := ⟨0x0b0, 2⟩
abbrev Ev.GATE_ATT_DONE : Ev := ⟨0x0b0, 3⟩
abbrev Ev.GATE_CLAIMED : Ev := ⟨0x0b0, 4⟩
abbrev Ev.GATE_RELEASED : Ev := ⟨0x0b0, 5⟩
abbrev Ev.GATE_FUSE_DISAGREE : Ev := ⟨0x0b0, 6⟩
abbrev Ev.GATE_DEBUG_OPEN : Ev := ⟨0x0b0, 7⟩
abbrev Ev.KEYS_KEY_ERASED_IN_USE : Ev := ⟨0x0b1, 0⟩
abbrev Ev.KEYS_OP_DONE : Ev := ⟨0x0b1, 1⟩
abbrev Ev.KEYS_OP_FAIL : Ev := ⟨0x0b1, 2⟩
abbrev Ev.KEYS_REKEYED : Ev := ⟨0x0b1, 3⟩
abbrev Ev.UPDATE_CHUNK_BAD : Ev := ⟨0x0c0, 0⟩
abbrev Ev.UPDATE_BUNDLE_READY : Ev := ⟨0x0c0, 1⟩
abbrev Ev.UPDATE_BUNDLE_BAD : Ev := ⟨0x0c0, 2⟩
abbrev Ev.UPDATE_STAGED : Ev := ⟨0x0c0, 3⟩
abbrev Ev.UPDATE_ACT_DONE : Ev := ⟨0x0c0, 4⟩
abbrev Ev.UPDATE_ACT_ABORT : Ev := ⟨0x0c0, 5⟩
abbrev Ev.UPDATE_FALLBACK : Ev := ⟨0x0c0, 6⟩
abbrev Ev.UPDATE_CONFIRMED : Ev := ⟨0x0c0, 7⟩
abbrev Ev.UPDATE_CFG_NO_MAJORITY : Ev := ⟨0x0c0, 8⟩
abbrev Ev.UPDATE_TRIAL_EXPIRED : Ev := ⟨0x0c0, 9⟩
abbrev Ev.UPDATE_UPD_MISS : Ev := ⟨0x0c0, 10⟩
abbrev Ev.PWR_STATE_DONE : Ev := ⟨0x001, 0⟩
abbrev Ev.PWR_STATE_REFUSED : Ev := ⟨0x001, 1⟩
abbrev Ev.PWR_WAKE : Ev := ⟨0x001, 2⟩
abbrev Ev.PWR_REVERSED : Ev := ⟨0x001, 3⟩
abbrev Ev.PWR_DOM_FAIL : Ev := ⟨0x001, 4⟩
abbrev Ev.PWR_WDT_RESET : Ev := ⟨0x001, 5⟩
abbrev Ev.WEATHER_WARN : Ev := ⟨0x004, 0⟩
abbrev Ev.WEATHER_WARN_CLEAR : Ev := ⟨0x004, 1⟩
abbrev Ev.WEATHER_ORDERLY : Ev := ⟨0x004, 2⟩
abbrev Ev.WEATHER_ORDERLY_DONE : Ev := ⟨0x004, 3⟩
abbrev Ev.WEATHER_SENSOR_FAIL : Ev := ⟨0x004, 4⟩
abbrev Ev.WEATHER_SENSOR_OK : Ev := ⟨0x004, 5⟩
abbrev Ev.WEATHER_TRIPPED : Ev := ⟨0x004, 6⟩
abbrev Ev.WEATHER_RESUMED : Ev := ⟨0x004, 7⟩

end Sys2Proof.Machine
end

