-- ==== Sys2Proof/Machine/Sparse.lean ====
section
/-!
DEFINITION. Sparse stores in one canonical form: a list of key and value pairs with strictly rising keys and no entry that
equals what an unlisted key reads as. Registers, shadows and every addressed memory of the part are held so. With them
the plain bit-field helpers on words and the reset values of the registers.
-/

namespace Sys2Proof.Machine

/-- What key `a` of a sparse store reads as; `d` says what an unlisted key reads as. -/
def spGet {α : Type} (d : Nat → α) : List (Nat × α) → Nat → α
  | [], a => d a
  | (k, v) :: r, a => if a = k then v else spGet d r a

/-- Remove key `a`. -/
def spDel {α : Type} : List (Nat × α) → Nat → List (Nat × α)
  | [], _ => []
  | (k, v) :: r, a => if a = k then spDel r a else (k, v) :: spDel r a

/-- Put `v` at key `a` in place, keys rising. -/
def spIns {α : Type} : List (Nat × α) → Nat → α → List (Nat × α)
  | [], a, v => [(a, v)]
  | (k, w) :: r, a, v =>
    if a < k then (a, v) :: (k, w) :: r
    else if a = k then (a, v) :: r
    else (k, w) :: spIns r a v

/-- Write `v` at key `a`: a value equal to the unlisted one removes the entry, so that equal stores are equal data. -/
def spSet {α : Type} [DecidableEq α] (d : Nat → α) (m : List (Nat × α)) (a : Nat) (v : α) : List (Nat × α) :=
  if v = d a then spDel m a else spIns m a v

/-- The canonical form from key `lo` upward: keys at least `lo` and strictly rising, no entry at its unlisted value. -/
def spWfFrom {α : Type} [DecidableEq α] (d : Nat → α) : Nat → List (Nat × α) → Bool
  | _, [] => true
  | lo, (k, v) :: r => decide (lo ≤ k) && decide (v ≠ d k) && spWfFrom d (k + 1) r

/-- The canonical form of a sparse store. -/
def spWf {α : Type} [DecidableEq α] (d : Nat → α) (m : List (Nat × α)) : Bool := spWfFrom d 0 m

/-- Keep the entries whose key satisfies `p`. -/
def spKeep {α : Type} (p : Nat → Bool) : List (Nat × α) → List (Nat × α)
  | [] => []
  | (k, v) :: r => if p k then (k, v) :: spKeep p r else spKeep p r

/-- Write every entry of a list; of two for one key the first stands, as it does when the list is read. -/
def spSetAll {α : Type} [DecidableEq α] (d : Nat → α) (m : List (Nat × α)) : List (Nat × α) → List (Nat × α)
  | [] => m
  | (k, v) :: r => spSet d (spSetAll d m r) k v

/-- A byte memory: address and byte pairs. Unlisted bytes read 0 (R281, R400). -/
abbrev Mem := List Host.Cell

/-- What an unlisted byte of a memory reads as. -/
def memZero (_ : Nat) : Byte := 0

/-- One byte of a memory. -/
def memRd (m : Mem) (a : Nat) : Byte := spGet memZero m a

/-- Write one byte of a memory. -/
def memWr (m : Mem) (a : Nat) (b : Byte) : Mem := spSet memZero m a b

/-- The canonical form of a byte memory. -/
abbrev memWf (m : Mem) : Bool := spWf memZero m

/-- `n` bytes of a memory from address `a` upward. -/
def memBytes (m : Mem) (a : Nat) : Nat → List Byte
  | 0 => []
  | n + 1 => memRd m a :: memBytes m (a + 1) n

/-- The entries that bytes from address `a` upward make: one for each byte that is not 0. -/
def memCells (a : Nat) : List Byte → Mem
  | [] => []
  | b :: r => if b = 0 then memCells (a + 1) r else (a, b) :: memCells (a + 1) r

/-- Write a list of bytes from address `a` upward. -/
def memPut (m : Mem) (a : Nat) (l : List Byte) : Mem :=
  spKeep (fun k => decide (k < a)) m ++ (memCells a l ++ spKeep (fun k => decide (a + l.length ≤ k)) m)

/-- A little-endian value of a list of bytes (R4). -/
def leNat : List Byte → Nat
  | [] => 0
  | b :: r => b.toNat + 256 * leNat r

/-- The `n` little-endian bytes of a value (R4). -/
def leBytes : Nat → Nat → List Byte
  | 0, _ => []
  | n + 1, v => BitVec.ofNat 8 v :: leBytes n (v / 256)

/-- An `n`-byte little-endian value at address `a`. -/
def memLe (m : Mem) (a n : Nat) : Nat := leNat (memBytes m a n)

/-- Bits `hi` down to `lo` of a word, as a number. -/
def bitsOf (v : Word) (hi lo : Nat) : Nat := v.toNat / 2 ^ lo % 2 ^ (hi + 1 - lo)

/-- A word with bits `hi` down to `lo` replaced by the low bits of `n`. -/
def withBits (v : Word) (hi lo n : Nat) : Word :=
  let m : Word := BitVec.ofNat 32 ((2 ^ (hi + 1 - lo) - 1) * 2 ^ lo)
  (v &&& ~~~m) ||| (BitVec.ofNat 32 (n % 2 ^ (hi + 1 - lo) * 2 ^ lo))

/-- The row of a register map that holds offset `off`, if one does. -/
def rowAt (rows : List RegRow) (off : Nat) : Option RegRow :=
  rows.find? fun r =>
    decide (r.off ≤ off) &&
      (if r.stride = 0 then off == r.off
       else (off - r.off) % r.stride == 0 && decide ((off - r.off) / r.stride < r.cnt))

/-- The register row at a byte address of the register space, if the page and the offset are assigned. -/
def rowOf (a : Nat) : Option RegRow :=
  match classOf (a / 0x1000) with
  | none => none
  | some (c, _) => if a % 0x1000 < 0x40 then none else rowAt (classRows c) (a % 0x1000)

/-- The reset value of the register at a byte address, from the register maps (header registers reset to 0, R31). -/
def regReset (a : Nat) : Word :=
  match rowOf a with
  | none => 0
  | some r => r.reset

/-- A saturating count of `w` bits. -/
def satInc (w n : Nat) : Nat := if n + 1 < 2 ^ w then n + 1 else 2 ^ w - 1

/-- Signed value of the low `w` bits of a number. -/
def signOf (w n : Nat) : Int :=
  if n % 2 ^ w < 2 ^ (w - 1) then (n % 2 ^ w : Nat) else (n % 2 ^ w : Nat) - (2 ^ w : Nat)

/-- The low `w` bits of an integer, as a number. -/
def wrapTo (w : Nat) (i : Int) : Nat := (i % (2 ^ w : Nat)).toNat

/-- Is bit `n` of a number 1? -/
def bitAt (v n : Nat) : Bool := v / 2 ^ n % 2 == 1

/-- A number with bit `n` set to `b`. -/
def setBitAt (v n : Nat) (b : Bool) : Nat :=
  if bitAt v n == b then v else if b then v + 2 ^ n else v - 2 ^ n

end Sys2Proof.Machine
end

