-- ==== Sys2Proof/Machine/Types.lean ====
section
/-!
DEFINITION. The data the part holds beside its registers, block by block: what the chapters give each block that no
register of its page shows whole. Every type is plain data.
-/

namespace Sys2Proof.Machine

/-! ### Register fabric and Crier -/

/-- Who makes a register access (CRIER_FAB_ERR_INFO.REQUESTER, R28). -/
inductive Requester
  | pcie
  | mgmt
  | core (n : Nat)
  | chain
  | debug
  deriving DecidableEq, Repr

/-- A release of held commits that waits for its tick: the named tick if the release named one that was still ahead, and the
part's age at the release (R39). -/
structure Release where
  tick : Option Nat
  at_ : Nat
  deriving DecidableEq, Repr

/-- A commit that waits: its page, the part's age when its write arrived, whether the fabric hold has it, and the release of
its group (R35, R39). -/
structure Commit where
  page : Nat
  at_ : Nat
  held : Bool
  released : Option Release
  deriving DecidableEq, Repr

/-- A Reeve core's interrupt interface: its mask, sleep, and the running handlers, innermost first, as source and
priority (R49, R50). -/
structure Core where
  masked : Bool
  asleep : Bool
  stack : List (Nat × Nat)
  deriving DecidableEq, Repr

/-- The fabric and the Crier (R6, R28–R57). `held64` are the holding registers of R6 and the time latches of R58, by
register address; `vecSeen` and `vecHeld` are the MSI-X vectors with a pending source and those whose message masking holds; `gpioRun` counts each pin's samples in a row at the level not yet accepted (R55). -/
structure Fabric where
  commits : List Commit
  held64 : List (Nat × Word)
  sgi : Nat
  gpio : Nat
  gpioRun : List Nat
  vecSeen : List Nat
  vecHeld : List Nat
  cores : List Core
  epoch : Nat
  draining : Nat
  deriving DecidableEq, Repr

/-! ### Bellringer -/

/-- The tick parameters a beacon carries (R62): rate, epoch in sub-nanoseconds, guard in µs, band configuration register
value, tick enable, and the spread in force. -/
structure TickParams where
  num : Nat
  den : Nat
  epoch : Nat
  guard : Nat
  band : Nat
  en : Bool
  spread : Nat
  deriving DecidableEq, Repr

/-- What an Announce says of its grandmaster, in the order of comparison, and its interval (R60). -/
structure Announce where
  rank : List Nat
  logInterval : Int
  deriving DecidableEq, Repr

/-- A TICK_OUT pin as armed: mode, the start instant held at the arming write, and the next pulse's number (R78, R79). -/
structure Tout where
  mode : Nat
  start : Nat
  k : Nat
  deriving DecidableEq, Repr

/-- The Bellringer. Time and ages are in sub-nanoseconds (2^−16 ns). `time` is domain time, `freq` the servo's
frequency correction in units of 2^−48, `slew` the phase still to be slewed out over the next `slewDur`, `inRange` the run
of measurements within RANGE, `offset` the last measured offset, `tick` the last executed index, `gridTick` the last one of the
grid in force, `tickUp` and
`tickTime` the part's age and the domain time at it, `floor` the earliest domain time of the next tick (R72, R80), `open_`
whether the tick's work waits for what falls due at the same instant (R38). Of PTP by Ethernet port: the age of the last Announce,
the mean path delay of the link, whether a delay request is unanswered; the age of the parent's last Sync and its interval's
logarithm (R60, R66). `enAt` is the age of the page's ENABLE, `spread` the spread depth in force (R59), `echoed` by TICK_OUT pin the
mark of the last tick echoed (R79). -/
structure Bell where
  time : Nat
  freq : Int
  slew : Int
  slewDur : Nat
  inRange : Nat
  offset : Int
  measAt : Nat
  stepPending : Bool
  stepArmedTick : Option Nat
  tick : Option Nat
  gridTick : Option Nat
  tickUp : Nat
  tickTime : Nat
  floor : Nat
  open_ : Bool
  lastBeacon : Option TickParams
  beaconRun : Nat
  noBeaconSince : Nat
  tout : List (Option Tout)
  syncLast : Option Nat
  syncCap : Nat
  ptp : List (Option Announce)
  parent : Option (Nat × List Nat)
  annAt : List Nat
  syncAt : Nat
  syncLog : Int
  linkDly : List Nat
  asked : List Bool
  enAt : Nat
  spread : Nat
  echoed : List Nat
  deriving DecidableEq, Repr

/-! ### Power sequencer and Weathervane -/

/-- The power states (R392); `offTrip` is Off after a trip, waiting for its restart (R411). -/
inductive PState
  | off | offTrip | waking | run | dim | deep | quarantine
  deriving DecidableEq, Repr

/-- The domain step in progress: the domain, on or off, and whether this is the retry (R394). -/
structure DomStep where
  dom : Nat
  on : Bool
  retry : Bool
  since : Nat
  deriving DecidableEq, Repr

/-- What the boot ROM finds at a start (R349, R399): the straps as sampled, whether the fuse rows of identity have a
majority and how many bits disagree, the enabled tamper sources active at step 2 as a bit set, whether the ROM's digest is
right, and the panel card's record (none where no card answers). -/
structure BootIn where
  role : Nat
  geo : Nat
  fuseOk : Bool
  disagree : Nat
  tamper : Nat
  romOk : Bool
  card : Option (List Byte)
  deriving DecidableEq, Repr

/-- What a tamper source sees (R366): a pin's consecutive low samples of the 1 MHz oscillator; a supply's deviation from nominal in
tenths of a percent and for how many ns; the worst deviation of a REFCLK period in tenths of a percent and the longest time without an
edge in ns, while REFCLK is enabled; the always-on diode's temperature in tenths of a °C and for how many µs. -/
inductive Tamper
  | pin (k low : Nat)
  | supply (dev ns : Nat)
  | clock (dev gap : Nat)
  | diode (temp : Int) (us : Nat)
  deriving DecidableEq, Repr

/-- The power sequencer (R390–R406). `dom` are the domains on, `sram` those initialised, `failed` those FAILED, each a
bit set; `queue` the single-domain requests in arrival order; `safe` the age and direction of each domain's last safe
point; `atTick` the request waiting for its tick; `deepWake` that this start is a Deep wake; `wdtAt` the age at the last
kick; of a Deep request the age it was judged at, the TOKEN of a tile's write, the tick before it (R406); the age Deep began at. -/
structure Power where
  state : PState
  target : PState
  held : Bool
  step : Option DomStep
  queue : List (Nat × Bool)
  dom : Nat
  sram : Nat
  failed : Nat
  safe : List (Nat × Nat × Bool)
  atTick : Option (PState × Nat)
  deepWake : Bool
  wdtAt : Nat
  wdtStart : Bool
  tripStart : Bool
  booted : Bool
  biasAt : Option Nat
  deepAck : Option Nat
  deepTok : Option Nat
  deepTick : Nat
  deepAt : Nat
  deriving DecidableEq, Repr

/-- Weathervane (R407–R413): the last 8 plausible readings, newest first, the previous reading, the run of plausible
readings since a failure, ages of the orderly stop's start, of T_f falling below WARN_C, of the trips,
whether WEATHER_PEAK starts anew, and the ages of the last reading and update of T_f. -/
structure Weather where
  readings : List Int
  prev : Option Int
  okRun : Nat
  orderlyAt : Option Nat
  coolAt : Option Nat
  trips : List Nat
  peakNew : Bool
  readAt : Nat
  tfAt : Nat
  deriving DecidableEq, Repr

/-! ### PCIe endpoint -/

/-- The endpoint's configuration space state that the spec names (R321–R323): link up, MSI-X enable and function mask,
vectors masked in the MSI-X table, and the table's address and data by vector. -/
structure Pcie where
  up : Bool
  msixEn : Bool
  funcMask : Bool
  vecMask : List Nat
  table : List (Nat × Nat × Nat)
  deriving DecidableEq, Repr

/-! ### Granary -/

/-- How a DRAM access fared (R278, R287): clean; a symbol corrected; an x4 device found by erasure decoding; uncorrectable,
with whether the re-read of R290 corrects the line; a CA parity or write CRC error recovered by retry, or persisting. -/
inductive Ecc
  | ok
  | ce (symbol : Nat)
  | erase (dev : Nat)
  | ue (reread : Bool)
  | caRetry
  | wcrcRetry
  | caFail (reread : Bool)
  | wcrcFail (reread : Bool)
  deriving DecidableEq, Repr

/-- Where a line lies in the DRAM (R275, R276): channel, rank, sub-channel, column line, bank group, bank, row. -/
structure DramPlace where
  chan : Nat
  rank : Nat
  sub : Nat
  col : Nat
  group : Nat
  bank : Nat
  row : Nat
  deriving DecidableEq, Repr

/-- An access of a requester (R292) that waits for a region fill or a frozen channel: a write's bytes, or a read's length; or
a region to clear at `addr` that waits for the accesses before it (R281). -/
structure GAcc where
  req : Nat
  addr : Nat
  write : Bool
  data : List Byte
  len : Nat
  clear : Bool
  deriving DecidableEq, Repr

/-- A Granary channel beside its registers: the corrections of the running day as (rank, age), the ranks whose CE_STORM was told
in it, refreshes postponed, a retraining pause due, whether HOT is told, an uncorrectable error that waits for a
migration to end (line address, re-read outcome), arbiter owner, transfers under the grant, last owner, the ages of the last
refresh and of the last retraining pause, and who asks for the channel without a grant: requester, since which age, whether
STARVE was told of it. -/
structure GChan where
  ce : List (Nat × Nat)
  storm : List (Nat × Nat)
  postponed : Nat
  retrainDue : Bool
  waitUe : Option (Nat × Bool)
  owner : Option Nat
  done : Nat
  last : Nat
  refAt : Nat
  pauseAt : Nat
  asks : List (Nat × Nat × Bool)
  deriving DecidableEq, Repr

/-- The Granary (R273–R296): memory by system address, poisoned lines, written and filling 1 MiB regions, waiting accesses in
order, channels, the rank being migrated with the age of its error, whether the spare is in use, whether the manager stops
after the migration, the age of the last patrol scrub. -/
structure Gran where
  mem : Mem
  poison : List Nat
  written : List Nat
  filling : List Nat
  waiting : List GAcc
  chans : List GChan
  migr : Option (Nat × Nat × Nat)
  spareUsed : Bool
  disableWait : Bool
  scrubAt : Nat
  asleep : List Nat
  deriving DecidableEq, Repr

/-! ### Management channel -/

/-- A management request held until the gap before it is filled (R325). -/
structure MgmtReq where
  seq : Nat
  kind : Nat
  a : Nat
  b : Nat
  bytes : List Byte
  deriving DecidableEq, Repr

/-- The management channel (R324, R325, R359): session up, peer, hello under way, last SEQ processed, responses kept by SEQ,
requests held out of order, age of the last message, ages of the last NOTIFY by vector. -/
structure Mgmt where
  session : Bool
  hello : Option Nat
  lastSeq : Nat
  kept : List (Nat × Nat × List Byte)
  held : List MgmtReq
  heardAt : Nat
  notified : List (Nat × Nat)
  deriving DecidableEq, Repr

/-! ### Ronuno lanes -/

/-- A 66-bit block (R84): the two header bits in the order sent, as a number (1 data, 2 control, 0 and 3 invalid), and the eight
payload bytes. -/
structure Block where
  hdr : Nat
  pay : List Byte
  deriving DecidableEq, Repr

/-- One lane's hidden state: eye measurements in a row below threshold and at or above it, whether EYE_LOW has been raised
since the lane last recovered (R97), whether its checker has seen an error since it locked (R103); the last 58 bits sent and
received, the newest lowest (R85), and BIP8 of what was sent after the last marker (R88); marker slots in a row without a valid
marker and validity of the last 63 headers, newest first (R99); the blocks received in the last marker period while the port's
other lane has not brought its own (R86); the generator's register (R103), the checker's register and its run of error-free bits
(R103). -/
structure Lane where
  low : Nat
  good : Nat
  told : Bool
  prbsSeen : Bool
  scr : Nat
  des : Nat
  bip : Nat
  missed : Nat
  hdrs : List Bool
  rx : List Block
  gen : Nat
  chk : Nat
  run : Nat
  deriving DecidableEq, Repr

/-- The transmit side of a port (R86, R87, R98): whether it sends, the SEQ of its next marker, and the blocks dealt to its lanes
since its last markers. -/
structure Tx where
  on : Bool
  seq : Nat
  pos : Nat
  idleAt : Option Nat
  deriving DecidableEq, Repr

/-- The lanes of a quad, the age at which its loopback timer started (R102), the last marker SEQ received on each of its two
ports (R87), and their transmit sides. -/
structure Quad where
  lanes : List Lane
  lbAt : Option Nat
  seq : List Nat
  tx : List Tx
  deriving DecidableEq, Repr

/-- Why a lane is lost (R99): no signal; at a tile an upstream frequency outside the window for 10 µs, in ppm; the headers of blocks
received on a lane, oldest first; marker slots in a row without a valid marker. -/
inductive Loss
  | signal
  | frequency (ppm : Int)
  | headers (k : Nat) (hdrs : List Nat)
  | markers
  deriving DecidableEq, Repr

/-! ### Cells of the chain protocol -/

/-- What the cell header says of the addressee and the sender (R106). -/
structure Hdr where
  amode : Nat
  dest : Nat
  ke : Nat
  sidx : Nat
  port : Nat
  deriving DecidableEq, Repr

/-- A beacon's fields (R112): origin and correction in sub-nanoseconds, sequence, tick parameters, mode code, return
timing, census, and whether it carries a tag. -/
structure Beacon where
  origin : Nat
  corr : Int
  bseq : Nat
  params : TickParams
  mode : Nat
  retStart : Nat
  ansSlots : Nat
  census : Nat
  switch : Nat
  tagged : Bool
  deriving DecidableEq, Repr

/-- A command cell's fields (R114). -/
structure Cmd where
  ctr : Nat
  token : Nat
  op : Nat
  unauth : Bool
  replay : Bool
  addr : Nat
  arg : Nat
  data : List Byte
  deriving DecidableEq, Repr

/-- A pixel cell's first block (R119). -/
structure PixHdr where
  frame : Nat
  off : Nat
  npix : Nat
  last : Bool
  enc : Bool
  code : Nat
  deriving DecidableEq, Repr

/-- A record of a return slot (R130, R331). -/
inductive Rec
  | completion (token : Nat) (status : Nat) (cause : Nat) (dup : Bool) (data : List Byte)
  | event (page : Nat) (bits : Nat) (occ : Nat)
  | telemetry (sub : Nat) (sample : List Byte)
  | modeAck (n : Nat) (mode : Nat)
  | boot (image : Nat) (first : Nat) (last : Nat) (state : Nat)
  | muteReport (wdn : Nat) (unit : Nat) (off : Int) (clean : Bool)
  | drops (n : Nat)
  | mandate (holder : Nat) (epoch : Nat)
  | presence (silent : Bool) (eligible : Bool) (flags : Nat) (tick : Nat)
  deriving DecidableEq, Repr

/-- The fixed fields of a SLOT cell and its records (R129). -/
structure Slot where
  wdn : Nat
  rseq : Nat
  shown : Nat
  status : Nat
  offset : Nat
  seqU : Nat
  b1 : Nat
  b2 : Nat
  seqD : Nat
  a1 : Nat
  a2 : Nat
  recs : List Rec
  deriving DecidableEq, Repr

/-- An ANSWER cell (before R133). -/
structure Answer where
  serial : Nat
  depth : Nat
  state : Nat
  kind : Nat
  part : Nat
  body : List Byte
  deriving DecidableEq, Repr

/-- A cell's content, by type (R105). -/
inductive Cell
  | beacon (b : Beacon)
  | rack (tick : Nat) (units : List Nat)
  | command (h : Hdr) (c : Cmd)
  | boot (h : Hdr) (image : Nat) (off : Nat) (data : List Byte)
  | pixel (h : Hdr) (p : PixHdr) (data : List Byte)
  | slot (unit : Nat) (s : Slot)
  | answer (unit : Nat) (a : Answer)
  | census (depth : Nat)
  | muted (wdn : Nat)
  | idle
  deriving DecidableEq, Repr

/-- What arrives with a cell's fields (R107, R122): the blocks that came before it since the cell before and belong to none, its
HCRC, its 16 tag bytes where its type has a tag, its trailer's CRC-32C; and if it was cut short, how many of its blocks came and
the block that cut it. -/
structure Rx where
  pre : List Block
  hcrc : Nat
  tag : List Byte
  crc : Nat
  cut : Option (Nat × Block)
  deriving DecidableEq, Repr

/-- An owner whose forwarded units drift (R139): WDN, run of edges, clean run, last offset, unit, muted, UNMUTE taken. -/
structure Drift where
  wdn : Nat
  run : Nat
  clean : Nat
  off : Int
  unit : Nat
  muted : Bool
  deriving DecidableEq, Repr

/-! ### Chain ports of a sender -/

/-- The sender's device states (R135). -/
inductive DevState
  | found | verifying | keying | unassigned | assigned | booted | admitted | suspended | lost | stranger | foreign
  deriving DecidableEq, Repr

/-- A calibration record of a tile (R268, R269): domain seconds of the measurement, the serial whose trims it holds, trims
and coefficients if present. -/
structure CalRec where
  time : Nat
  serial : Nat
  trims : Option (List Byte)
  coeff : Option (List Byte)
  deriving DecidableEq, Repr

/-- The record a sender keeps of a device serial on a port (R135): state, WDN, depth, slot units as first and count, the
hash of firmware the HELLO named, ID_REQs unanswered, ID_PARTs held, empty superframes in a row, last accepted RSEQ per
unit, whether the tamper check is passed, the tick it was admitted for, the age of its listing, descriptor bytes, whether
it came back by UNMUTE, how far its calibration is loaded (0 not begun, 1 CORR_CFG being read,
2 loaded), the calibration record of its panel card as read. -/
structure Dev where
  serial : Nat
  st : DevState
  wdn : Nat
  depth : Nat
  first : Nat
  count : Nat
  hash : Nat
  idReqs : Nat
  parts : List (Nat × List Byte)
  missed : Nat
  rseq : List (Nat × Nat)
  tamperOk : Bool
  admitTick : Nat
  listedAt : Nat
  desc : List Byte
  unmuting : Bool
  svn : Nat
  image : Nat
  shown : Nat
  status : Nat
  orient : Nat
  groups : List Nat
  adv : Nat
  capSusp : Bool
  tamper : Nat
  cal : Nat
  card : Option CalRec
  deriving DecidableEq, Repr

/-- An entry of the CHAIN list (CHAIN_LIST_INFO): serial, kind, depth, reason. -/
structure ListEntry where
  serial : Nat
  kind : Nat
  depth : Nat
  reason : Nat
  deriving DecidableEq, Repr

/-- A command in flight on a port: its cell, the tick period it was sent in, and the WDNs whose completion is missing
(R140); the Well's pair and descriptor number when a ring sent it. -/
structure InFlight where
  hdr : Hdr
  cmd : Cmd
  sentTick : Nat
  waits : List Nat
  src : Option (Nat × Nat)
  deriving DecidableEq, Repr

/-- Superframe timing as start in µs and answer units, the tick index from which they apply, with the change announced for a later
tick (R127). -/
structure RetTiming where
  start : Nat
  slots : Nat
  since : Nat
  next : Option (Nat × Nat × Nat)
  again : Bool
  deriving DecidableEq, Repr

/-- A session key known on a port or tile (R122, R123): the epoch in force, and whether the next epoch's key is held. -/
structure Session where
  epoch : Nat
  next : Bool
  old : Bool
  deriving DecidableEq, Repr

/-- A sender's chain port (R111–R141): cells waiting by rank, blocks spent in the tick period, whether the port has no
pixel cell of the frame left, counters, session, device records, the CHAIN list, commands in flight, discovery rounds,
units received in the current superframe, return timing, link delay samples by position, owners it mutes,
one more than the index of the tick it last took its own stamps in, and by WDN what the cells of unfinished slices have given their
tags: authenticated data and ciphertext (R121). -/
structure Port where
  beacons : List Cell
  racks : List Cell
  cmds : List (Hdr × Cmd × Option (Nat × Nat))
  boots : List Cell
  pixels : List Cell
  cmdSpent : Nat
  bootSpent : Nat
  pixDone : Bool
  bseq : Nat
  ctr : Nat
  session : Option Session
  devs : List Dev
  list : List ListEntry
  flight : List InFlight
  quiet : Nat
  silent : Nat
  fresh : Bool
  discAt : Nat
  units : List Nat
  ret : Option RetTiming
  delays : List (Nat × List Int)
  delayAvg : List (Nat × Int)
  stamps : List (Nat × Nat × Nat × Nat)
  rekeySent : Nat
  drift : List Drift
  frameSent : Nat
  stampTick : Nat
  slices : List (Nat × List Byte × List Byte)
  deriving DecidableEq, Repr

/-! ### The tile's chain state -/

/-- A telemetry subscription (R305): number, first word address, words, period in ticks, ticks left, sample waiting. -/
structure TelSub where
  id : Nat
  addr : Nat
  words : Nat
  period : Nat
  left : Nat
  deriving DecidableEq, Repr

/-- An image arriving in boot cells (R118, R448): identity, length once its header is known, pieces held, and the state
reported in BOOT records. -/
structure Image where
  id : Nat
  length : Option Nat
  pieces : List Nat
  state : Nat
  staged : Bool
  data : Mem
  held : Mem
  deriving DecidableEq, Repr

/-- A mode switch armed at a tile (R23): mode, tick index, go held. -/
structure TileArm where
  mode : Nat
  n : Nat
  go : Bool
  deriving DecidableEq, Repr

/-- A Cavas release armed at a tile (R383): image, tick, go held, whether the image is staged (or already runs), the TOKEN of
the ACT_ARM whose completion waits for that. -/
structure TileRel where
  image : Nat
  t : Nat
  go : Bool
  staged : Bool
  token : Nat
  deriving DecidableEq, Repr

/-- The tile's side of the chain (R108–R139): the upstream port chosen, the state code of R135, the session, the highest
CTR accepted, kept TOKENs with their completions newest first, WDN's admission tick, RSEQ by unit, records waiting and
those sent and not yet acknowledged by unit, event records, subscriptions, drifting owners, images, the hash of the firmware
in RAM and whether it runs, armed switch and release, status bits for the next slot, answers waiting, the age of the last valid
beacon by sender index, the age of a turn's trigger, the port whose recovered clock the transmit PLL tracks (R91, R92), whether the
upstream port has brought a beacon since it was chosen (R11), and the sender index and port number that the upstream's beacons
name (R106). -/
structure Tile where
  up : Option Nat
  st : Nat
  session : Option Session
  ctrMax : Nat
  kept : List (Nat × Rec)
  admitTick : Nat
  rseq : List (Nat × Nat)
  recs : List Rec
  sent : List (Nat × List Rec)
  evq : List (Nat × Nat × Nat)
  evqOvf : Bool
  subs : List TelSub
  telDrops : Nat
  drift : List Drift
  unmute : List Nat
  image : Option Image
  firmware : Option Nat
  arm : Option TileArm
  rel : Option TileRel
  modeMiss : Bool
  gmacFail : Bool
  held : Bool
  dupSeen : Bool
  shown : Nat
  ret : Option RetTiming
  tailOff : Bool
  nonce : Nat
  answers : List Answer
  running : Bool
  bootTold : Bool
  locator : Bool
  stampU : Nat × Nat × Nat
  stampD : Nat × Nat × Nat
  stampTick : Nat
  turnAt : Option Nat
  beaconMode : Nat
  owner : Option Nat
  heard : List (Nat × Nat)
  trigAt : Option Nat
  clk : Option Nat
  locked : Bool
  sidx : Nat
  sport : Nat
  deriving DecidableEq, Repr

/-! ### Well -/

/-- A descriptor as the Well read it (R304). -/
structure Desc where
  op : Nat
  dflags : Nat
  tgt : Nat
  group : Nat
  pmask : Nat
  user : Nat
  count : Nat
  addr : Nat
  arg : Nat
  buf : Nat
  aux : Nat
  inl : List Byte
  deriving DecidableEq, Repr

/-- A descriptor taken and not yet completed (R306, R315): number, pair, SQ index, descriptor, token, ports its cells have
not left yet, responders still waited for as port and WDN, outcomes so far, whether it is a replay, the earlier
descriptors a BARRIER waits for, CFLAGS.DUP, data returned, and the responders that had their outcome, as port and WDN. -/
structure Taken where
  num : Nat
  pair : Nat
  sq : Nat
  desc : Desc
  token : Nat
  cells : List Nat
  waits : List (Nat × Nat)
  ok : Nat
  bad : List (Nat × Nat × Nat)
  replay : Bool
  after : List Nat
  dup : Bool
  data : List Byte
  got : List (Nat × Nat)
  deriving DecidableEq, Repr

/-- A ring pair (R300–R312): the host's fields as read at ENABLE, indices, state, halt reason, drops, next token, multicast
count, drops not yet reported, the end of a flush, the taken descriptor that holds the ring's later ones, the age at which
each unconsumed entry was written and whether it was notified for its HOLDOFF, oldest first (R318). -/
structure Pair where
  wdn : Nat
  sqBase : Nat
  cqBase : Nat
  sqLog : Nat
  cqLog : Nat
  ngrp : Nat
  rflags : Nat
  nthresh : Nat
  sqHead : Nat
  sqTail : Nat
  cqTail : Nat
  cqHead : Nat
  state : Nat
  haltCode : Nat
  haltCause : Nat
  telDrop : Nat
  evtDrop : Nat
  nextToken : Nat
  mcount : Nat
  dropTel : Nat
  dropEvt : Nat
  flushTo : Option Nat
  block : Option Nat
  stamps : List (Nat × Bool)
  deriving DecidableEq, Repr

/-- An entry that waits for the acknowledgement of a state copy (R337): pair, type, bytes 1 to 31, notify wish, and the
tick period its outcome arrived in. -/
structure HeldEntry where
  pair : Nat
  type : Nat
  bytes : List Byte
  notify : Bool
  period : Nat
  deriving DecidableEq, Repr

/-- The Well beside its registers: enabled pairs by number, descriptors in flight oldest first, next descriptor number,
firmware and multicast token counters, the burst queue with its spill as port, WDN and record in order of arrival, and
entries held for a copy. -/
structure Well where
  pairs : List (Nat × Pair)
  taken : List Taken
  nextNum : Nat
  fwToken : Nat
  mcToken : Nat
  queue : List (Nat × Nat × Rec)
  held : List HeldEntry
  draining : Bool
  deriving DecidableEq, Repr

/-! ### Mode switch and stored configuration -/

/-- A pending mode switch at a sender (R23): mode, tick index, tiles expected and acknowledged as port and WDN, the tick of
the last go cell. -/
structure Switch where
  mode : Nat
  n : Nat
  expected : List (Nat × Nat)
  acked : List (Nat × Nat)
  lastGo : Nat
  deriving DecidableEq, Repr

/-- What a sender's configuration in force holds beside register values (R16, R18, R25, R343, R352, R370): whether there is
none, WDNs, descriptors and tamper counters by tile serial, and its owner certificate; the calibration records of the store by tile
serial (R269, R377). -/
structure Store where
  factory : Bool
  wdns : List (Nat × Nat)
  descs : List (Nat × List Byte)
  tampers : List (Nat × Nat)
  owner : Option (List Byte)
  cals : List (Nat × CalRec)
  deriving DecidableEq, Repr

/-! ### Gatehouse -/

/-- A key slot (R361, R362): state EMPTY 0, LOADED 1, WRITE_PENDING 2, BLOCKED 3; kind; key; next epoch's key; epoch;
operations in progress that name it; the pending write's kind and key. -/
structure KeySlot where
  state : Nat
  kind : Nat
  key : Nat
  next : Option Nat
  epoch : Nat
  users : Nat
  pend : Option (Nat × Nat)
  deriving DecidableEq, Repr

/-- The Gatehouse (R347–R370): M0–M3, key slots and their retention copy, the policy in force and its shadow by entry,
authority keys revoked, the nonce of the report under way, whether the bit of the tamper event that led to Quarantine is burned. -/
structure Gate where
  m : List Nat
  slots : List KeySlot
  retained : List KeySlot
  pol : List (Nat × Nat)
  polShadow : List (Nat × Nat)
  revoked : Nat
  nonce : List Byte
  quarFrom : Nat
  deriving DecidableEq, Repr

/-! ### Cavas -/

/-- An image slot of the sender's flash (R378): STATE as 0 EMPTY, 1 STAGED, 2 TRIAL, 3 CONFIRMED, 4 REVOKED; ATTEMPTS bits
cleared; the image's bytes. -/
structure ImgSlot where
  state : Nat
  attempts : Nat
  bytes : List Byte
  deriving DecidableEq, Repr

/-- A configuration copy (R379, R380): generation, sections as FORMAT and data, whether it is valid. -/
structure CfgCopy where
  gen : Nat
  sections : List (Nat × List Byte)
  valid : Bool
  deriving DecidableEq, Repr

/-- A release armed at a sender (R383): tick, IMAGE_ID of the tiles' image, whether it is a fall-back, covered tiles as port
and WDN, those that acknowledged ACT_ARM and those that acknowledged ACT_GO, whether the manifest names one sender alone, GO
taken, the decision made. -/
structure Rel where
  t : Nat
  image : Nat
  fallback : Bool
  covered : List (Nat × Nat)
  acked : List (Nat × Nat)
  gone : List (Nat × Nat)
  alone : Bool
  go : Bool
  decided : Bool
  deriving DecidableEq, Repr

/-- What a sender's flash holds when it is first read: image slots sender A, sender B, tile A, tile B, configuration copies,
what the sealed settings sections say (R377–R380), and its size in bytes. -/
structure Flash where
  size : Nat
  slots : List ImgSlot
  cfgs : List CfgCopy
  store : Store
  chunks : List (Nat × List Byte)
  dirOk : Bool
  deriving DecidableEq, Repr

/-- The Cavas engine of a sender (R373–R387): chunks held by index, whether the directory stands, image slots sender A, sender
B, tile A, tile B, configuration copies, whether the flash has been read, the armed release, the age a trial began, tiles of
the last release without a go and its tick, the settings sections a fall-back returns to, whether the running image came from
slot B. -/
structure Upd where
  chunks : List (Nat × List Byte)
  dirOk : Bool
  slots : List ImgSlot
  cfgs : List CfgCopy
  read : Bool
  rel : Option Rel
  trialAt : Option Nat
  missed : List (Nat × Nat)
  retryAt : Nat
  oldSections : List (Nat × List Byte)
  runB : Bool
  deriving DecidableEq, Repr

/-! ### Twin senders -/

/-- A sender's count of an Elder's record (R340): whether one has been counted, holder, epoch, whether two records of that
epoch name different holders, superframes since the Elder was last heard, whether its silence is told. -/
structure Mandate where
  known : Bool
  holder : Nat
  epoch : Nat
  split : Bool
  age : Nat
  told : Bool
  deriving DecidableEq, Repr

/-- What a state copy holds of a ring port (R336): admission records, command counter, session, the session keys of both live
epochs. -/
structure PortCopy where
  n : Nat
  devs : List Dev
  ctr : Nat
  session : Option Session
  key : KeySlot
  census : Nat
  deriving DecidableEq, Repr

/-- The state copy of a tick period (R336, R341, R342): the period, the Well's pairs, descriptors in flight and tokens, the
ring ports, commits as page, held and the tick of their release, fence counters, flip-group holds, servo state,
frequency and offset, last executed index, the pending mode switch with SYS_MODE_STAT, the pending release, CRC rectangle values, latched RTP timestamps
of the running contexts, and whether a Halo job and an accumulation run are in progress, which end with the sender. -/
structure Copy where
  period : Nat
  pairs : List (Nat × Pair)
  taken : List Taken
  fwToken : Nat
  ports : List PortCopy
  commits : List (Nat × Bool × Option (Option Nat))
  fences : List Nat
  holds : List (Nat × Nat)
  servo : Nat
  freq : Int
  offset : Int
  last : Nat
  switch : Option Switch
  modeStat : Nat
  rel : Option Rel
  crcs : List Nat
  stamps : List (Nat × Nat)
  job : Bool
  run : Bool
  deriving DecidableEq, Repr

/-- The twin engine (R328–R342): link up, pair key established, the peer's configuration as R328 asks, age at which the peer
was last heard and at which a beacon of the active sender last arrived, the peer's near ports, consecutive good health
reports, whether ELIGIBLE is frozen, whether a resynchronisation runs, the period of the copy sent and not acknowledged,
whether its lateness is told, doorbells that wait for mirror writes, the rejoin in progress as ports and tick, ports in
electrical idle of a yield and since when, the Elders' records, the last copy taken, whether its digest agreed, the mirrored
SQ_TAILs, pairs being replayed with the SQ index at which their replay ends, the pair key's epoch, and the ages of the last
keep-alive and of the start of the resynchronisation. -/
structure Twin where
  up : Bool
  keyed : Bool
  peerOk : Bool
  heardAt : Nat
  beaconAt : Nat
  peerNear : Nat
  good : Nat
  frozen : Bool
  resync : Bool
  copyOut : Option Nat
  late : Bool
  doorbells : List (Nat × Nat × Nat)
  rejoin : Option (Nat × Nat)
  yieldPorts : Nat
  yieldAt : Nat
  mand : List Mandate
  copy : Option Copy
  digestOk : Bool
  tails : List (Nat × Nat)
  replay : List (Nat × Nat)
  epoch : Nat
  aliveAt : Nat
  resyncAt : Nat
  deriving DecidableEq, Repr

/-- A message over the twin link that the peer performs (R335, R336, R343): a mirror write, a register write, an SQ doorbell, a
save of the configuration store, a descriptor for a tile of the segment the peer serves, a record of such a tile. -/
inductive TwinMsg
  | write (addr : Nat) (bytes : List Byte)
  | reg (addr : Nat) (v : Word)
  | tail (pair : Nat) (v : Nat)
  | store (cfg : CfgCopy) (s : Store)
  | command (wdn : Nat) (cmd : Cmd)
  | record (port : Nat) (wdn : Nat) (r : Rec)
  deriving DecidableEq, Repr

/-! ### Scanout -/

/-- A slice-map entry (R194) with its index. -/
structure MapEntry where
  idx : Nat
  wdn : Nat
  x : Nat
  y : Nat
  w : Nat
  h : Nat
  deriving DecidableEq, Repr

/-- An entry's slice in the making: entry, port, tag fields, pixels coded and not yet in a cell, the next cell's SLICE_OFF,
the calibration pattern shown in its place (R260). -/
structure Slicing where
  entry : MapEntry
  port : Nat
  off : Nat
  codes : List (Nat × Nat × Nat)
  pat : Option Nat
  deriving DecidableEq, Repr

/-- Scanout (R188–R204): map RAM, frame in production and its next line, slices in the making, mapped entries whose mismatch
is told, what has been told this frame, CRC accumulators by rectangle, groups whose lowest fill starts anew, as bits, and the
registers of the Loom and SCAN pages as they were at the frame's tick. -/
structure Scan where
  map : Mem
  frame : Nat
  line : Nat
  run : Bool
  slices : List Slicing
  told : List Nat
  swiftTold : Bool
  underTold : Bool
  critTold : List Nat
  crc : List Nat
  rearm : Nat
  view : List (Nat × Word)
  deriving DecidableEq, Repr

/-! ### Ingest -/

/-- One sample row data segment of a video packet (R147): line, first pixel, and the samples in the order of the sampling
(4:2:2: Cb Y Cr Y; 4:4:4: Cb Y Cr, or R G B). -/
structure Seg where
  line : Nat
  off : Nat
  samples : List Nat
  deriving DecidableEq, Repr

/-- A received Ethernet frame as R144 asks about it: bytes with its FCS, the VID of its IEEE 802.1Q tag if it has one, whether
its FCS is right, and the codewords its FEC corrected and could not correct. -/
structure EthFrame where
  size : Nat
  tag : Option Nat
  fcs : Bool
  corr : Nat
  uncorr : Nat
  deriving DecidableEq, Repr

/-- What a frame carries beside ARP and IGMP (R144): a whole UDP datagram in IPv4, a fragment of a datagram, or anything else
(another network layer or protocol, a pause frame). -/
inductive NetKind
  | udp
  | fragment
  | other
  deriving DecidableEq, Repr

/-- The form of an ST 2110-20 payload (R147): bytes of UDP payload, block packing mode, a field of an interlaced or segmented
picture. -/
structure PayForm where
  bytes : Nat
  block : Bool
  isField : Bool
  deriving DecidableEq, Repr

/-- A video packet held in a reorder window (R148): extended sequence number, RTP timestamp, marker, domain time of
arrival, segments. -/
structure Pkt where
  seq : Nat
  rtp : Nat
  marker : Bool
  at_ : Nat
  segs : List Seg
  deriving DecidableEq, Repr

/-- What a frame-store buffer holds (R156, R157): source time, RTP timestamp, whether its frame is complete, whether it has
ended, output lines written, and the domain times at which that number rose, each with the number reached. -/
structure FBuf where
  src : Nat
  rtp : Nat
  complete : Bool
  ended : Bool
  lines : Nat
  steps : List (Nat × Nat)
  deriving DecidableEq, Repr

/-- The frame being received (R148, R151): RTP timestamp, buffer, packets lost, input lines settled, and the samples present
by line, pixel and component, kept one higher than their value. -/
structure InFrame where
  rtp : Nat
  buf : Nat
  lost : Nat
  settled : Nat
  samples : List (Nat × Nat)
  deriving DecidableEq, Repr

/-- An ingest context (R146–R161): next sequence number expected, highest seen on each path, packets held, the age the
oldest gap opened, sequence numbers seen with their ages, losses not yet charged to a frame, the frame being received, the
last RTP timestamp ended or abandoned, the four buffers, the buffer latched, ages of the last valid packets on each path,
the age HOLDING began. -/
structure Ctx where
  base : Option Nat
  hi0 : Option Nat
  hi1 : Option Nat
  held : List Pkt
  gapAt : Option Nat
  seen : List (Nat × Nat)
  debt : Nat
  frame : Option InFrame
  lastRtp : Option Nat
  bufs : List (Option FBuf)
  latched : Option Nat
  at0 : Option Nat
  at1 : Option Nat
  holdAt : Nat
  deriving DecidableEq, Repr

/-- An IGMP message that is due (R146): port, join or leave, group, source filter. -/
structure Igmp where
  port : Nat
  join : Bool
  group : Nat
  src : Nat
  deriving DecidableEq, Repr

/-- The ingest pipes: contexts 4 × pipe + context, coefficient RAM, IGMP messages due, repeats due with the age of their
join. -/
structure Ingest where
  ctxs : List Ctx
  cram : Mem
  joins : List Igmp
  repeats : List (Igmp × Nat)
  deriving DecidableEq, Repr

/-! ### Loom -/

/-- Loom beside its registers (R175, R181, R183): LUT RAM, recent changes of fence counters as domain time, counter and
value before, ticks each layer's commit has been held, the buffer of each context latched at the last tick. -/
structure Loom where
  lut : Mem
  fences : List (Nat × Nat × Nat)
  held : List (Nat × Nat)
  bufs : List (Option Nat)
  deriving DecidableEq, Repr

/-! ### Correction and Nimbus -/

/-- The pixel engine beside its registers (R205–R225): correction memory with both Nimbus buffers, the wall code of the
slice, the cause of its failure, the period's tick index, whether the decision has been made, what the swap will show,
whether a swap was performed since the page was enabled, whether HELD is told, flags set in this frame, the sum of code ×
port current of the slice, LIMK for the armed swap, whether the frame shown is limited, the band of the period, what the slice's
cells give its tag and the tag as received (R121, R122), and the domain time at which it was VERIFIED. -/
structure Nimbus where
  mem : Mem
  code : Nat
  cause : Nat
  period : Nat
  open_ : Bool
  decided : Bool
  swapped : Bool
  heldTold : Bool
  frameFlags : Nat
  sum : Nat
  limk : Nat
  limited : Bool
  band : Nat
  aad : List Byte
  ct : List Byte
  tag : List Byte
  hdr : Hdr
  readyAt : Nat
  deriving DecidableEq, Repr

/-! ### Lamplighter -/

/-- A scan grid (R235): N, T_seg, T_row, W and P in GCLK, SCAN, the domain time of its anchor, the row timing it runs by, and how
far its anchor lies behind its tick. -/
structure Grid where
  n : Nat
  tseg : Nat
  trow : Nat
  w : Nat
  p : Nat
  scan : Nat
  anchor : Nat
  timing : Nat
  phase : Nat
  deriving DecidableEq, Repr

/-- What the Lamplighter drives in a row slot (R230, R231, R237), times in GCLK after its start: segment and row, the domain time
it starts, when the pre-charge switches of the used columns close and open, when its ROWD goes active and inactive, when the on
window opens, the on-time of each column lit, when the slot ends or is cut, and the levels of the ROWD pins without and with the
row active (none: high impedance). -/
structure SlotDrive where
  seg : Nat
  row : Nat
  start : Nat
  precharge : Option (Nat × Nat)
  active : Option (Nat × Nat)
  window : Nat
  on : List (Nat × Nat)
  stop : Nat
  idle : List (Option Bool)
  rows : List (Option Bool)
  deriving DecidableEq, Repr

/-- A fade (R241): start and target factors in binary32, the tick it starts at if known, its length in ticks, told. -/
structure Fade where
  f0 : Nat
  f1 : Nat
  start : Option Nat
  len : Nat
  told : Bool
  deriving DecidableEq, Repr

/-- The Lamplighter beside its registers: grid, next segment and row slot, failing runs by lamp as kind and length, readback
runs by row, opens confirmed and lamps sampled in the frame by row, overcurrent runs by group with the ages of overcurrents
and the pairs of a pin test still to run, groups dark until re-enabled, the pairs of a sweep still to run, the age the last
sweep ended, the fault list, the latest valid I_IREF in 10 nA, since when it has been valid after a fault, the fade, whether a new one starts at the next tick, whether
its registers have been written since the last commit, the factor held, whether driving waits for a tick, lowest sample
by group, the segment and row of the last slot, the orderly stop's fade with whether it runs back
(R410), the readings of TRIM_MEASURE by port in µA, the grid that begins once the one in progress has run to its anchor, the
segment, row and pulses of a slot that was in progress at the last swap, the pulses of the last slot not sampled yet. -/
structure Lamp where
  grid : Option Grid
  seg : Nat
  row : Nat
  runs : List (Nat × Nat × Nat)
  rowRuns : List (Nat × Nat)
  opens : List (Nat × Nat)
  sampled : List (Nat × Nat)
  ocRuns : List Nat
  ocAges : List (Nat × Nat)
  ocPairs : List (Nat × List Nat)
  ocOff : List Nat
  dark : List Nat
  sweep : List Nat
  sweepOn : Bool
  sweepAt : Nat
  faults : List (Nat × Nat × Nat)
  iref : Nat
  irefOk : Option Nat
  fade : Fade
  fadeNext : Bool
  fadeWr : Bool
  factor : Nat
  waitTick : Bool
  vmin : List (Option (Nat × Nat × Nat))
  last : Nat × Nat
  cover : Option (Bool × Fade)
  meas : List (Nat × Nat)
  next : Option Grid
  held : Option (Nat × Nat × List (Nat × Nat))
  lastOn : List (Nat × Nat)
  deriving DecidableEq, Repr

/-! ### Halo and CSI-2 -/

/-- An ISP parameter set (R254–R256): CFA, threshold, black levels and gains of R, Gr, Gb, B. -/
structure Isp where
  cfa : Nat
  thresh : Nat
  black : List Nat
  gain : List Nat
  deriving DecidableEq, Repr

/-- A frame open on a virtual channel (R253): number, the age of its start, the tick executed last at its start, whether
the ISP processes it, lines of raw codes, newest first, the first rule it broke. -/
structure CsiFrame where
  num : Nat
  at_ : Nat
  tick : Option Nat
  isp : Bool
  lines : List (List Nat)
  cause : Nat
  deriving DecidableEq, Repr

/-- A sensor: pending and working parameter sets, open frame (R253, R256). -/
structure Sensor where
  pending : Option Isp
  working : Isp
  frame : Option CsiFrame
  deriving DecidableEq, Repr

/-- An entry of a push list in progress (R263): index, WDN, kind, flags, set address, status, cause, first bad, the bank it
is loaded into (2 while unknown), the tile's CORR_CFG, its load cells that wait for a completion, whether the arming cells
went out, the session epoch and admission tick at START, the bank and the applied ticks read back. -/
structure PushEntry where
  idx : Nat
  wdn : Nat
  kind : Nat
  flags : Nat
  src : Nat
  status : Nat
  cause : Nat
  bad : Nat
  bank : Nat
  cfg : Nat
  waits : Nat
  armed : Bool
  mark : Nat × Nat
  gotBank : Option Nat
  gotTicks : List (Nat × Nat)
  deriving DecidableEq, Repr

/-- A push (R263): tick T, ALL_OR_NONE, the list's address, entries, whether the job runs it, whether the decision is past. -/
structure Push where
  t : Nat
  all : Bool
  base : Nat
  entries : List PushEntry
  job : Bool
  decided : Bool
  deriving DecidableEq, Repr

/-- A calibration job (R260): the record's fields, each tile's CORR_CFG as read in step 1, tiles not yet read, the pattern
shown (0 to 63 registration, 64 black, 65 red, 66 green, 67 blue) if one is, and whether its run is started. -/
structure Job where
  sensor : Nat
  bin : Nat
  frames : Nat
  win : Nat × Nat × Nat × Nat
  level : Nat
  flags : Nat
  tiles : List Nat
  work : Nat
  out : Nat
  cfgs : List (Nat × Nat)
  left : List Nat
  pattern : Option Nat
  started : Bool
  deriving DecidableEq, Repr

/-- A tile's calibration that the sender loads once it has read CORR_CFG and CORR_STAT: serial, CORR_CFG once it is read,
coefficients and trims if any (R269, R446). -/
structure CalLoad where
  serial : Nat
  cfg : Option Nat
  coeff : Option (List Byte)
  trims : Option (List Byte)
  deriving DecidableEq, Repr

/-- Halo (R251–R270): sensors, the captured start tick of the run, the age of its last accepted frame or its arming, whether
the array is being zeroed, the push, the job, entries whose panel card is being written, calibrations to load. -/
structure Halo where
  sensors : List Sensor
  startTick : Nat
  frameAt : Nat
  zeroing : Bool
  push : Option Push
  job : Option Job
  cards : List Nat
  cals : List CalLoad
  deriving DecidableEq, Repr

/-! ### What arrives with commands -/

/-- What arrives with a write beside its value: whether the bytes it names are what they must be (a chunk's hash, a blob's
unwrapping, a token's signature), and for a completed bundle directory the verdicts on its table, vendor and owner
signatures with the chunks that fail it (R351, R362, R376). -/
structure Verdict where
  ok : Bool
  table : Bool
  vendor : Bool
  owner : Bool
  bad : List Nat
  deriving DecidableEq, Repr

/-- A stream as its SDP announces it (R25 step 4): Ethernet port, group, source filter, UDP port, payload type, sampling
(0 4:2:2, 1 4:4:4), depth code, RGB, size, rate, and the matrix and input LUT that its colorimetry selects. -/
structure Sdp where
  port : Nat
  group : Nat
  src : Nat
  udp : Nat
  pt : Nat
  samp : Nat
  depth : Nat
  rgb : Bool
  w : Nat
  h : Nat
  num : Nat
  den : Nat
  matrix : Nat
  inLut : Nat
  deriving DecidableEq, Repr

end Sys2Proof.Machine
end

