-- ==== Sys2Proof/Syntax.lean ====
section
/-!
DEFINITION. The commands of the part: one constructor per row of the table of operations and events. An operand is what
arrives with the command, or what the table leaves to the outside. Commands with operands come first, then those without,
each group in the order of the table.
-/

namespace Sys2Proof

open Machine

/-- A command. -/
inductive Instr
  /-- INTERNAL_RESET_RELEASE: The internal reset is released 100 us after the last of the supply, oscillator and reset pin conditions, the straps are sampled and the boot ROM starts. -/
  | internalResetRelease (b : BootIn)
  /-- ROLE_STRAP_RESAMPLE: While ROLE_SEL reads 1x the part holds reset and samples the straps again every 1 ms. -/
  | roleStrapResample (b : BootIn)
  /-- WDT_KICK: A write of PWR_WDT.KICK restarts the watchdog count. -/
  | wdtKick (rq : Requester) (v : Word)
  /-- SOFTWARE_RESET: A write of PWR_RESET_CTRL with the key and RESET = 1 causes a warm reset with cause SOFTWARE. -/
  | softwareReset (rq : Requester)
  /-- FACTORY_DEFAULT_START: A sender with no stored configuration runs Plain at 60 Hz, discovers, assigns provisional WDNs, lays the tiles out and joins the first announced stream. -/
  | factoryDefaultStart (sdp : Option Sdp)
  /-- MODE_SWITCH_ARM: A write of SYS_MODE_CTRL.ARM checks the requested switch and either refuses it or sends arm cells and enters ARMED. -/
  | modeSwitchArm (rq : Requester)
  /-- MODE_SWITCH_CANCEL: A write of SYS_MODE_CTRL.CANCEL aborts a pending switch before the decision, and is otherwise ignored or reported as CANCEL_LATE. -/
  | modeSwitchCancel (rq : Requester) (arm : Bool)
  /-- REGISTER_WRITE: A write to a register with no row of its own takes effect according to its access code. -/
  | registerWrite (rq : Requester) (a : Nat) (ws : List (Word × Bool))
  /-- PAGE_ENABLE: A write of PG_CTRL.ENABLE = 1 starts the block and requests its power domain. -/
  | pageEnable (rq : Requester) (p : Nat)
  /-- PAGE_DISABLE: A write of PG_CTRL.ENABLE = 0 makes the block stop at its next safe point and drain. -/
  | pageDisable (rq : Requester) (p : Nat)
  /-- DRAIN_COMPLETE: A disabled block finishes draining and ENABLED reads 0. -/
  | drainComplete (p : Nat)
  /-- PAGE_SOFT_RESET: A write of PG_CTRL.SRST = 1 returns the page to its reset values and cancels a pending commit. -/
  | pageSoftReset (rq : Requester) (p : Nat)
  /-- SOFT_RESET_COMPLETE: The soft reset completes within 2 us and SRST_BUSY clears. -/
  | softResetComplete (p : Nat)
  /-- PAGE_COMMIT: A write of PG_COMMIT.COMMIT freezes the shadows and sets PENDING, or applies at once while the page is disabled or no tick is generated. -/
  | pageCommit (rq : Requester) (p : Nat)
  /-- COMMIT_APPLY: At the first frame tick at least 1 us after the commit, the page checks and applies its shadows and records APPLIED_TICK. -/
  | commitApply (p : Nat)
  /-- PG_EVENT_CLEAR: A W1C write to PG_EVENT clears flags and ends the page's pending state as a Crier source. -/
  | pgEventClear (rq : Requester) (p : Nat) (v : Word)
  /-- PG_EVENT_SET: A write to PG_EVENT_SET acts as an occurrence of each event named: it sets the flag, counts and forwards it. -/
  | pgEventSet (rq : Requester) (p : Nat) (v : Word)
  /-- PG_STATUS_READ: A read of PG_STATUS by any requester but the debug port clears WR_REJ and REJ_WORD. -/
  | pgStatusRead (rq : Requester) (p : Nat)
  /-- COUNTER_READ_CLEAR: A read of a clear-on-read counter returns the count and sets it to 0, except through the debug port. -/
  | counterReadClear (rq : Requester) (a : Nat) (be : List Bool)
  /-- COUNTER_LOW_READ: A read of the low word of a 64-bit counter latches the high word for the next read. -/
  | counterLowRead (rq : Requester) (a : Nat) (be : List Bool)
  /-- TIME_LATCH_READ: A read of BELL_TIME_SUBNS latches the nanoseconds and seconds of domain time for the next reads. -/
  | timeLatchRead (rq : Requester)
  /-- SYNC_CAP_READ: A read of BELL_SYNC_CAP_NS latches the seconds of the captured SYNC_IN edge. -/
  | syncCapRead (rq : Requester)
  /-- FAB_HOLD: A write of CRIER_FAB_HOLD.HOLD = 1 holds every commit written on the device. -/
  | fabHold (rq : Requester) (atTick : Bool)
  /-- FAB_RELEASE: A write of HOLD = 0 releases the held commits as one group, at the next tick or at the named tick. -/
  | fabRelease (rq : Requester) (atTick : Bool)
  /-- READ_TIMEOUT: A register read not completed 1 ms after reaching the fabric ends with zero and a TIMEOUT fabric error. -/
  | readTimeout (rq : Requester) (a : Nat)
  /-- SRC_CFG_WRITE: A write to CRIER_SRC_CFGn takes effect at once, and CORE_EN is taken only from the Reeve cores. -/
  | srcCfgWrite (rq : Requester) (n : Nat) (v : Word)
  /-- SGI_SET: A write to CRIER_SGI makes the named software sources pending. -/
  | sgiSet (rq : Requester) (v : Word)
  /-- MSIX_EOI: A write of a vector to CRIER_MSIX_EOI sends its MSI-X message again if a source on it is still pending. -/
  | msixEoi (rq : Requester) (v : Word)
  /-- MSIX_UNMASK: Removing MSI-X function or vector masking sends a held message if its source is still pending. -/
  | msixUnmask (en func : Bool) (masked : List Nat) (table : List (Nat × Nat × Nat))
  /-- INTERRUPT_TAKE: A Reeve core takes the best pending source that pre-empts its running priority, waking from sleep if needed. -/
  | interruptTake (core : Nat) (masked asleep : Bool)
  /-- HANDLER_END: A Reeve handler ends, the pre-empted priority is restored and pending sources are chosen again. -/
  | handlerEnd (core : Nat)
  /-- GPIO_EDGE_ACCEPT: A GPIO level change stable for FILT samples is accepted, latching an edge or changing a level source. -/
  | gpioEdgeAccept (pin : Nat) (samples : List Bool)
  /-- PTP_SYNC_RECEIVE: A sender takes a Sync measurement and runs the servo state machine on it. -/
  | ptpSyncReceive (port dt : Nat) (f : EthFrame) (origin : Nat) (corr interval : Int) (domain : Nat)
  /-- PTP_ANNOUNCE_RECEIVE: A sender takes an Announce into master selection, raising GM_CHANGE when its parent changes. -/
  | ptpAnnounceReceive (port dt : Nat) (f : EthFrame) (a : Announce) (domain : Nat)
  /-- PTP_TRANSPARENT_FORWARD: A PTP message received on E0 or E1 is forwarded out of the other port with residence time added. -/
  | ptpTransparentForward (port : Nat) (f : EthFrame) (kind residence : Nat) (corr : Int)
  /-- SOURCE_LOST: No valid beacon for 500 us, or no Sync for 3 intervals or the announce timeout, takes the servo to HOLDOVER. -/
  | sourceLost (announce : Bool)
  /-- TIME_SET: BELL_STEP_CTRL.SET loads BELL_SET in UNSET or FREE. -/
  | timeSet (rq : Requester)
  /-- FORCE_STEP: BELL_STEP_CTRL.FORCE_STEP accepts a refused jump at the next step point. -/
  | forceStep (rq : Requester)
  /-- BAND_TICK: In Swift mode a band tick falls within the tick period; tiles of that band swap. -/
  | bandTick (k : Nat)
  /-- TICK_ENABLE: A write of BELL_TICK_CTRL.TICK_EN starts or stops frame ticks, or is refused while switches or releases are pending. -/
  | tickEnable (rq : Requester) (en : Bool)
  /-- BEACON_DUE: Every 125 us a sender chain port queues a beacon with its origin timestamp and tick parameters. -/
  | beaconDue (port dt : Nat)
  /-- BEACON_RECEIVE: A tile forwards the beacon with its residence added, verifies its tag, measures its offset, runs the servo and adopts parameters. -/
  | beaconReceive (port dt : Nat) (h : Hdr) (b : Beacon) (rx : Rx)
  /-- TOUT_ARM: A write of BELL_TOUTn_CFG sets the output mode and arms one-shot or periodic output from the start values. -/
  | toutArm (rq : Requester) (pin : Nat) (v : Word)
  /-- TOUT_PULSE: A TICK_OUT pin gives a pulse at its scheduled instant. -/
  | toutPulse (pin k : Nat)
  /-- SYNC_IN_EDGE: A SYNC_IN edge is timestamped, and in tile tick-source mode it executes a frame tick 100 ns later. -/
  | syncInEdge (falling : Bool) (dt : Nat)
  /-- PLL_LOCK: A quad PLL locks after enable and its ports go from DOWN to DETECT. -/
  | pllLock (q : Nat)
  /-- PLL_UNLOCK: A quad PLL loses lock and PLL_UNLOCK is raised. -/
  | pllUnlock (q : Nat)
  /-- SIGNAL_DETECT: Signal is present at a valid rate on a port in DETECT, and CDR starts. -/
  | signalDetect (q h rate spread : Nat)
  /-- CDR_LOCK: CDR locks with the frequency inside the window and block search starts. -/
  | cdrLock (q h : Nat) (ppm : Int)
  /-- BLOCK_LOCK: Sixty-four consecutive valid sync headers on each lane give block lock and marker search starts. -/
  | blockLock (q h : Nat) (hdrs0 hdrs1 : List Nat)
  /-- MARKER_LOCK: Two valid markers on each lane fix lane order, polarity and deskew. -/
  | markerLock (q h : Nat) (a b : Block × Block) (skew : Int)
  /-- LINK_UP: Adaptation converges or 1 ms passes with the transmit PLL locked, the port reaches UP and LINK_UP is raised. -/
  | linkUp (q h : Nat)
  /-- LINK_DOWN: A loss criterion takes the port from UP to DETECT and raises LINK_DOWN, with its tile and sender consequences. -/
  | linkDown (q h : Nat) (w : Loss)
  /-- ALIGNMENT_MARKER: A received marker has its BIP8 checked and, at a tile, is replaced by the tile's own marker with the same SEQ. -/
  | alignmentMarker (q k : Nat) (blocks : List Block) (m : Block) (gap dt : Nat)
  /-- EYE_MEASURE: Every 1 ms the eye monitor measures width and height and raises EYE_LOW after 1 ms below threshold. -/
  | eyeMeasure (q k width height : Nat) (ppm : Int)
  /-- RXEQ_WRITE: A write of SERDES_Lk_RXEQ sets the equaliser to ADAPT, FREEZE or LOAD with the written values. -/
  | rxeqWrite (rq : Requester) (q k : Nat) (v : Word)
  /-- SSC_SET: A write of SERDES_SSC sets the quad's down-spread and takes its chains down and up again. -/
  | sscSet (rq : Requester) (q : Nat) (v : Word)
  /-- MONITOR_SOURCE_SET: A write of SERDES_MON selects the chain lane copied on the monitor tap. -/
  | monitorSourceSet (rq : Requester) (v : Word)
  /-- LOOPBACK_SET: A write of SERDES_LB sets lane loopbacks in Service mode and starts their timeout, or is rejected. -/
  | loopbackSet (rq : Requester) (q : Nat) (v : Word)
  /-- LOOPBACK_TIMEOUT: The SERDES_LB timeout expires, loopbacks and generators end and LB_END is raised. -/
  | loopbackTimeout (q : Nat)
  /-- PRBS_GENERATOR_SET: A write of GEN_EN starts or stops a PRBS generator on a lane in Service mode. -/
  | prbsGeneratorSet (rq : Requester) (q k : Nat) (v : Word)
  /-- PRBS_CHECKER_ENABLE: Writing CHK_EN from 0 to 1 clears the error count and restarts checker locking. -/
  | prbsCheckerEnable (rq : Requester) (q k : Nat)
  /-- PRBS_CHECKER_LOCK: The checker locks after 64 error-free bits and then counts errors, raising PRBS_ERR at the first. -/
  | prbsCheckerLock (q k : Nat) (bits : List Bool)
  /-- CELL_SCHEDULE: At a cell boundary a sender port starts the waiting cell of highest rank within the command and boot budgets. -/
  | cellSchedule (port dt : Nat)
  /-- PIXEL_DEADLINE: At P - G - D_tail unsent pixel cells of the frame are dropped and counted as a deadline miss. -/
  | pixelDeadline (port : Nat)
  /-- REG_RD: A tile reads COUNT / 4 register words from ADDR and returns them in a completion. -/
  | regRd (port : Nat) (h : Hdr) (x : Cmd) (rx : Rx)
  /-- REG_WR: A tile writes the DATA words to its registers from ADDR upward in ascending order. -/
  | regWr (port : Nat) (h : Hdr) (x : Cmd) (rx : Rx)
  /-- BULK_WR: A tile writes DATA into its correction memory after checking range, alignment, finiteness and bank locks. -/
  | bulkWr (port : Nat) (h : Hdr) (x : Cmd) (rx : Rx)
  /-- BULK_RD: A tile reads COUNT bytes of its correction memory space and returns them. -/
  | bulkRd (port : Nat) (h : Hdr) (x : Cmd) (rx : Rx)
  /-- ACTION: A tile performs firmware action ADDR with argument ARG. -/
  | action (port : Nat) (h : Hdr) (x : Cmd) (rx : Rx) (sig burn : Bool)
  /-- TEL_SUB: A tile creates or cancels a telemetry subscription of register words sampled every ARG[7:0] ticks. -/
  | telSub (port : Nat) (h : Hdr) (x : Cmd) (rx : Rx)
  /-- DISCOVER: A tile without a slot answers HELLO in a randomly chosen answer unit. -/
  | discover (port : Nat) (h : Hdr) (x : Cmd) (rx : Rx)
  /-- ANSWER_TRANSMIT: A device inserts its ANSWER in its answer unit, or defers to the next superframe if a start block arrives there. -/
  | answerTransmit (busy : Bool)
  /-- ID_REQ: A tile draws a nonce and answers its certificate, nonce and challenge signature in four ID_PART answers. -/
  | idReq (port : Nat) (h : Hdr) (x : Cmd) (rx : Rx)
  /-- KEYX: A tile checks certificate, nonce, signature and claim, unwraps the session keys and answers KEYX_RESP or REFUSED. -/
  | keyx (port : Nat) (h : Hdr) (x : Cmd) (rx : Rx) (cert sig owner wrap : Bool) (epoch : Nat) (next : Bool)
  /-- ASSIGN: A keyed tile takes its WDN, slot units and return advance and starts sending slots. -/
  | assign (port : Nat) (h : Hdr) (x : Cmd) (rx : Rx)
  /-- ADMIT: An assigned tile accepts pixel cells from the named tick index. -/
  | admitTile (port : Nat) (h : Hdr) (x : Cmd) (rx : Rx)
  /-- REKEY: A tile derives the next session key epoch from the carried random value. -/
  | rekey (port : Nat) (h : Hdr) (x : Cmd) (rx : Rx)
  /-- UNMUTE: A muting tile stops muting the named owner from the next superframe. -/
  | unmute (port : Nat) (h : Hdr) (x : Cmd) (rx : Rx)
  /-- TAIL_OFF: A tail tile gives up the tail role from the next superframe. -/
  | tailOff (port : Nat) (h : Hdr) (x : Cmd) (rx : Rx)
  /-- GROUPS: A tile sets its multicast group memberships from DATA. -/
  | groups (port : Nat) (h : Hdr) (x : Cmd) (rx : Rx)
  /-- MODE_ARM: A tile arms a mode switch to the given mode at tick index N and acknowledges it. -/
  | modeArm (port : Nat) (h : Hdr) (x : Cmd) (rx : Rx)
  /-- MODE_GO: A tile records the go for its armed switch. -/
  | modeGo (port : Nat) (h : Hdr) (x : Cmd) (rx : Rx)
  /-- MODE_ABORT: A tile drops its armed switch. -/
  | modeAbort (port : Nat) (h : Hdr) (x : Cmd) (rx : Rx)
  /-- BOOT_CELL: A tile that is loading or staging an image stores a piece and updates its bitmap of held pieces. -/
  | bootCell (port : Nat) (h : Hdr) (id off : Nat) (data : List Byte) (rx : Rx)
  /-- IMAGE_VERIFY_DONE: A complete image's header, signature, hash and SVN are checked and the result goes in the BOOT record. -/
  | imageVerifyDone (sig : Bool)
  /-- FIRMWARE_START: Tile firmware starts, fills the identity coefficients and linear LUT, and enables CORR and NIMBUS. -/
  | firmwareStart (iref : Nat)
  /-- PIXEL_CELL: An admitted tile decrypts, corrects and stores a pixel cell's pixels and advances the slice state. -/
  | pixelCell (port : Nat) (h : Hdr) (p : PixHdr) (data : List Byte) (rx : Rx)
  /-- RACK_DUE: Ten microseconds after the last superframe block the sender port sends a RACK bitmap of the units received. -/
  | rackDue (port : Nat)
  /-- RACK_RECEIVE: A tile learns whether its slot was acknowledged and advances RSEQ or repeats its records. -/
  | rackReceive (port : Nat) (h : Hdr) (units : List Nat) (rx : Rx)
  /-- SLOT_TRANSMIT: At T(n, j) - RET_ADV a tile sends the SLOT cell of each unit it owns, replacing downstream blocks. -/
  | slotTransmit (unit clobber : Nat)
  /-- FAR_PRESENCE_SLOT: A far sender places its PRESENCE SLOT cell in answer unit 0 every superframe. -/
  | farPresenceSlot (port : Nat)
  /-- SLOT_RECEIVE: The sender checks a SLOT cell's CRC and tag, takes its fixed fields and link stamps, and accepts new records. -/
  | slotReceive (port unit : Nat) (h : Hdr) (slot : Slot) (rx : Rx)
  /-- CENSUS: At block 0 a tile takes the downstream depth, sends CENSUS with its own depth and recomputes its position. -/
  | census (d : Option (Hdr × Rx))
  /-- CENSUS_RECEIVE: The sender takes the census count from block 0 and raises CENSUS_CHANGE when it changes. -/
  | censusReceive (port : Nat) (h : Hdr) (rx : Rx)
  /-- HELLO_RECEIVE: The sender records a new device as FOUND and sends ID_REQ by position. -/
  | helloReceive (port : Nat) (h : Hdr) (a : Answer) (orient : Nat) (card : Option CalRec) (rx : Rx)
  /-- ID_PART_RECEIVE: The sender verifies the tile's certificate and signature, then sends KEYX or lists a stranger. -/
  | idPartReceive (port : Nat) (h : Hdr) (a : Answer) (cert sig : Bool) (rx : Rx)
  /-- ID_REQ_TIMEOUT: After eight unanswered ID_REQs the device is listed as a stranger. -/
  | idReqTimeout (port serial : Nat)
  /-- KEYX_RESP_RECEIVE: The sender verifies the KEYX_RESP and sends ASSIGN, or lists the tile as unassigned. -/
  | keyxRespReceive (port : Nat) (h : Hdr) (a : Answer) (ok : Bool) (rx : Rx)
  /-- REFUSED_RECEIVE: A REFUSED answer makes the tile foreign for cause 1, or returns its record to FOUND otherwise. -/
  | refusedReceive (port : Nat) (h : Hdr) (a : Answer) (rx : Rx)
  /-- CHAIN_LIST_WDN: A write with ASSIGN = 1 gives the selected unassigned entry a WDN, stores it and sends ASSIGN. -/
  | chainListWdn (rq : Requester) (port : Nat) (v : Word)
  /-- MUTED_RECEIVE: A MUTED cell naming an admitted tile suspends it. -/
  | mutedReceive (port : Nat) (h : Hdr) (rx : Rx)
  /-- SLOT_UNIT_FORWARD: A tile measures a forwarded unit start block against its expected instant, counts SLOT_EDGE and mutes a drifting owner. -/
  | slotUnitForward (port unit : Nat) (x : Cell) (h : Hdr) (rx : Rx) (off : Int)
  /-- UNIT_EMPTY: An admitted tile's unit arrives empty, SLOT_MISS is raised, and after CHAIN_LOSS_CNT superframes the tile is LOST. -/
  | unitEmpty (port wdn : Nat)
  /-- NO_RESPONDER: A command without a completion by the end of superframe k + CHAIN_RSP_TMO completes NO_RESPONDER. -/
  | noResponder (port : Nat)
  /-- LONELY_TIMEOUT: A port without UP 1 s after enable, or at each 1 s retry, becomes LONELY or sends DISCOVER. -/
  | lonelyTimeout (port : Nat)
  /-- DISCOVERY_ROUND: DISC_PERIOD elapses while SERVING and the sender sends DISCOVER. -/
  | discoveryRound (port : Nat)
  /-- DISCOVERY_TIMEOUT: Sixteen superframes without census or HELLO take a discovering port to LONELY. -/
  | discoveryTimeout (port : Nat)
  /-- RET_SWITCH: Sixteen ticks after a RET_CFG or CHAIN_DISC commit, sender and tiles time superframes with the new values. -/
  | retSwitch (port : Nat)
  /-- REKEY_SEND: At least 64 ticks before an epoch boundary the sender sends REKEY on the chain. -/
  | rekeySend (port : Option Nat)
  /-- ETH_LINK_UP: An Ethernet port's PCS comes up, it sends a gratuitous ARP and joins its groups. -/
  | ethLinkUp (n : Nat)
  /-- ETH_LINK_DOWN: An Ethernet port's PCS goes down and LINK_DOWN is raised. -/
  | ethLinkDown (n : Nat)
  /-- ARP_RECEIVE: A port answers ARP requests for ETH_IP and raises ADDR_CONFLICT when another station claims it. -/
  | arpReceive (n sender target : Nat) (request : Bool) (f : EthFrame)
  /-- IGMP_QUERY: A general or group query is answered with reports within its maximum response time. -/
  | igmpQuery (n : Nat) (group : Option Nat) (f : EthFrame)
  /-- VIDEO_PACKET: A matching RTP packet is reordered, merged, converted, scaled and written into the frame store. -/
  | videoPacket (n : Nat) (f : EthFrame) (net : NetKind) (dst src udp pt : Nat) (form : PayForm) (q : Pkt) (dt : Nat)
  /-- STREAM_LOST: No valid packet for 100 ms takes the context to HOLDING and raises STREAM_LOST. -/
  | streamLost (p k : Nat)
  /-- PATH_LOST: One merged path without packets for 100 ms clears its LIVE bit and raises PATH_LOST. -/
  | pathLost (p k n : Nat)
  /-- FILL_TIMEOUT: HOLD.MS elapses in HOLDING and the fill colour is latched with FILL_ON raised. -/
  | fillTimeout (p k : Nat)
  /-- CRAM_DATA_WRITE: A write to INGEST_CRAM_DATA stores a coefficient word unless its slot is in use, then auto-increments. -/
  | cramDataWrite (rq : Requester) (p : Nat) (v : Word)
  /-- CRAM_DATA_READ: A read of INGEST_CRAM_DATA returns the word and auto-increments the address. -/
  | cramDataRead (rq : Requester) (p : Nat)
  /-- GRP_PWR_WRITE: A write of LOOM_GRP_PWR powers fetch groups, or is rejected for a group with an enabled layer. -/
  | grpPwrWrite (rq : Requester) (v : Word)
  /-- GRP_READY: A powered fetch group becomes ready and GRP_READY is raised. -/
  | grpReady (g : Nat)
  /-- LUT_DATA_WRITE: A write to LOOM_LUT_DATA stores a LUT word unless its slot is in use, then auto-increments. -/
  | lutDataWrite (rq : Requester) (v : Word)
  /-- LUT_DATA_READ: A read of LOOM_LUT_DATA returns the word and auto-increments the address. -/
  | lutDataRead (rq : Requester)
  /-- FENCE_INC: A write of LOOM_FENCE_INC adds 1 to the named fence counter. -/
  | fenceInc (rq : Requester) (v : Word)
  /-- FENCE_CANCEL: A write of LOOM_LYR_FENCE_CANCEL withdraws a held commit as DROP does. -/
  | fenceCancel (rq : Requester) (layer : Nat)
  /-- FLIP_GROUP_WRITE: A write of LOOM_FLIP_GROUP sets the members, or is rejected while a member has a pending commit. -/
  | flipGroupWrite (rq : Requester) (v : Word)
  /-- SCAN_LINE: Scanout produces a canvas line, codes it and queues the cells it completes on their chains. -/
  | scanLine (under : Option Nat) (fills : List (Nat × Nat))
  /-- MAP_DATA_WRITE: A write to SCAN_MAP_DATA stores a map word unless its bank is in use, then auto-increments. -/
  | mapDataWrite (rq : Requester) (v : Word)
  /-- MAP_DATA_READ: A read of SCAN_MAP_DATA returns the word and auto-increments the address. -/
  | mapDataRead (rq : Requester)
  /-- FILL_MIN_READ: A read of SCAN_FILL_MIN returns the lowest fills and re-arms all four. -/
  | fillMinRead (rq : Requester)
  /-- CORR_MEM_DATA_WRITE: A write to CORR_MEM_DATA stores two entries if finite and unlocked, then auto-increments. -/
  | corrMemDataWrite (rq : Requester) (v : Word)
  /-- CORR_MEM_DATA_READ: A read of CORR_MEM_DATA returns two entries and auto-increments the address. -/
  | corrMemDataRead (rq : Requester)
  /-- ROW_SLOT: A row slot runs its dead time, pre-charge, row on and on window, and ends. -/
  | rowSlot (bad : List Nat) (micro : List (Nat × Nat)) (short : Bool)
  /-- PULSE_SAMPLE: At the end of a pulse the column pin voltage is sampled and a lamp is confirmed open or shorted. -/
  | pulseSample (p mv : Nat)
  /-- IREF_MEASURE: Every 1 ms I_IREF is measured, an IREF fault stops every sink and port currents are held at the cap. -/
  | irefMeasure (cur dt : Nat)
  /-- SWEEP_START: A write of LAMP_SWEEP_CTRL.START starts a sweep unless one is running. -/
  | sweepStart (rq : Requester)
  /-- FAULT_LIST_CLEAR: A write of LAMP_FAULT_IDX.CLEAR empties the fault list without touching masks. -/
  | faultListClear (rq : Requester)
  /-- PIN_FAULT_CLEAR: Clearing a LAMP_PINFLT bit unmasks the port for retest at the next sweep, or at once for a ROWD. -/
  | pinFaultClear (rq : Requester) (g k : Nat) (v : Word)
  /-- DESCRIPTOR_CHANGE: A new descriptor in force stops the outputs, clears masks and the fault list, and runs a power-up sweep. -/
  | descriptorChange (cfg card : Option (List Byte))
  /-- TRIM_MEASURE: The tile action measures each used column sink's current through the group measurement. -/
  | trimMeasure (readings : List (Nat × Nat))
  /-- CSI_FRAME_START: A frame start packet opens a frame on its virtual channel, applying any pending ISP set. -/
  | csiFrameStart (p vc ext ecc num dt : Nat)
  /-- CSI_LONG_PACKET: A line packet is ECC-checked, CRC-checked and processed by the ISP. -/
  | csiLongPacket (p vc ext ecc type : Nat) (crc : Bool) (codes : List Nat) (dt : Nat)
  /-- CSI_FRAME_END: A frame end closes the frame, which is accepted or discarded by the watchdog. -/
  | csiFrameEnd (p vc ext ecc num dt : Nat)
  /-- CSI_FRAME_TIMEOUT: No frame end arrives within CSI_VCn_TMO and the open frame is discarded with cause TIMEOUT. -/
  | csiFrameTimeout (v : Nat)
  /-- SENSOR_APPLY: A write of HALO_Sv_APPLY copies the staging parameters into the pending set. -/
  | sensorApply (rq : Requester) (v : Nat)
  /-- ACC_START: A write of HALO_ACC_CTRL.START checks and starts an accumulation run, zeroing its array. -/
  | accStart (rq : Requester)
  /-- ACC_ABORT: A write of HALO_ACC_CTRL.ABORT ends the run ABORTED with cause HOST. -/
  | accAbort (rq : Requester)
  /-- JOB_START: A write of HALO_JOB_CTRL.START runs a calibration job from its record. -/
  | jobStart (rq : Requester)
  /-- JOB_ABORT: A write of HALO_JOB_CTRL.ABORT fails the job with cause HOST. -/
  | jobAbort (rq : Requester)
  /-- PUSH_START: A write of HALO_PUSH_CTRL.START checks and loads each push set for tick T. -/
  | pushStart (rq : Requester) (all : Bool)
  /-- PUSH_ABORT: A write of HALO_PUSH_CTRL.ABORT before step 4 marks undecided entries ABORTED. -/
  | pushAbort (rq : Requester)
  /-- CARD_WRITE_DONE: A panel card calibration write completes, or fails with cause CARD and CARD_FAIL. -/
  | cardWriteDone (entry : Nat) (ok : Bool)
  /-- GRANARY_READ: A requester's read is mapped, ordered and decoded with ECC, or frozen on an uncorrectable error. -/
  | granaryRead (req a n : Nat) (ecc : Ecc)
  /-- GRANARY_WRITE: A requester's write is mapped and queued, with read-merge-write for partial lines and region fill for unwritten regions. -/
  | granaryWrite (req a : Nat) (bytes : List Byte) (ecc : Ecc)
  /-- REGION_FILL: GRAN_MGR_UNW with OP = FILL fills a region with zeros in advance. -/
  | regionFill (rq : Requester) (r : Nat)
  /-- REGION_CLEAR: GRAN_MGR_UNW with OP = CLEAR makes a written region unwritten. -/
  | regionClear (rq : Requester) (r : Nat)
  /-- REGION_FILL_DONE: A region fill completes and waiting accesses proceed. -/
  | regionFillDone (r : Nat)
  /-- TRAINING_DONE: A channel finishes training as READY or FAILED, and the manager enables itself once all are READY. -/
  | trainingDone (n : Nat) (ok : Bool) (rd wr ms : Nat)
  /-- REFRESH: A channel issues all-bank refresh every 3.9 us or 1.95 us when hot. -/
  | refresh (n : Nat) (hot : Bool) (fills : List Nat)
  /-- RETRAINING_PAUSE: Every GRAN_CH_RETRAIN.MS a channel appends a retraining pause to a refresh. -/
  | retrainingPause (n : Nat)
  /-- PATROL_SCRUB: Every SCRUB.HOURS hours the manager reads every written line and writes back corrected ones. -/
  | patrolScrub (res : List (Nat × Ecc)) (dt : Nat)
  /-- MIGRATION_DONE: The failed rank is copied to the spare, remapped and unfrozen, and RETIRED is raised. -/
  | migrationDone (bad : List Nat) (dt : Nat)
  /-- RANK_RETIRE: A write of GRAN_MGR_CTRL.RETIRE freezes the named channel and starts migration. -/
  | rankRetire (rq : Requester) (n rank : Nat)
  /-- ARB_DECISION: During the last beat of a transfer the arbiter grants the channel to the lowest effective priority. -/
  | arbDecision (fills : List Nat) (n : Nat) (reqs : List Nat)
  /-- STARVE: A request pending ARB_STARVE_TMO us without a grant sets its starvation bit and raises STARVE. -/
  | starve (n : Nat)
  /-- COMPAT_SET: A write of ARB_CFG.COMPAT switches arbiter settings between immediate and shadowed writes. -/
  | compatSet (rq : Requester) (v : Word)
  /-- RING_ENABLE: WELL_RING_CTRL ENABLE checks a ring table entry and activates the pair. -/
  | ringEnable (rq : Requester) (w : Nat)
  /-- RING_FLUSH: WELL_RING_CTRL FLUSH completes the halted ring's outstanding descriptors FAILED with FLUSHED. -/
  | ringFlush (rq : Requester) (w : Nat)
  /-- RING_RESUME: WELL_RING_CTRL RESUME restarts a halted ring at SQ_HEAD. -/
  | ringResume (rq : Requester) (w : Nat)
  /-- RING_DISABLE: WELL_RING_CTRL DISABLE disables an empty ring with nothing in flight. -/
  | ringDisable (rq : Requester) (w : Nat)
  /-- SQ_DOORBELL: A BAR2 write sets a pair's SQ_TAIL, or is refused and raises DB_ERR. -/
  | sqDoorbell (w v : Nat)
  /-- CQ_DOORBELL: A BAR2 write sets a pair's CQ_HEAD, freeing credits, or is refused. -/
  | cqDoorbell (w v : Nat)
  /-- DESCRIPTOR_TAKE: The Well takes a head descriptor when a credit is free, checks it and sends its command cells. -/
  | descriptorTake (w : Nat)
  /-- BARRIER: A BARRIER descriptor completes once every earlier descriptor it waits for has completed. -/
  | barrier (w : Nat)
  /-- TICK_FENCE: A TICK_FENCE descriptor holds its ring until the named tick, or completes LATE at once. -/
  | tickFence (w : Nat)
  /-- NOTIFY_HOLDOFF: An entry unconsumed for HOLDOFF us sets its notify group and raises CQ_NOTIFY. -/
  | notifyHoldoff (w dt : Nat)
  /-- BAR4_READ: A PCIe read of BAR4 reads the Granary, marking poisoned or out-of-range data with EP. -/
  | bar4Read (a n : Nat) (ecc : Ecc)
  /-- BAR4_WRITE: A PCIe write of BAR4 writes the Granary with byte enables honoured. -/
  | bar4Write (a : Nat) (data : List (Option Byte)) (ecc : Ecc)
  /-- PCIE_LINK_UP: The PCIe link comes up and LINK_UP is raised. -/
  | pcieLinkUp (gen width : Nat)
  /-- MGMT_REG_RD: A management REG_RD message reads register words as BAR0 does. -/
  | mgmtRegRd (seq a words : Nat) (tag : Bool)
  /-- MGMT_REG_WR: A management REG_WR message writes register words as BAR0 does. -/
  | mgmtRegWr (seq a : Nat) (bytes : List Byte) (tag : Bool)
  /-- MGMT_MEM_RD: A management MEM_RD message reads Granary bytes as BAR4 does. -/
  | mgmtMemRd (seq a n : Nat) (tag : Bool)
  /-- MGMT_MEM_WR: A management MEM_WR message writes Granary bytes as BAR4 does. -/
  | mgmtMemWr (seq a : Nat) (bytes : List Byte) (tag : Bool)
  /-- MGMT_DOORBELL: A management DOORBELL message acts as a BAR2 write. -/
  | mgmtDoorbell (seq off v : Nat) (tag : Bool)
  /-- M_HELLO: An operator's M_HELLO is verified and answered with M_ACCEPT, unless a live session is held. -/
  | mHello (peer : Nat) (data : List Byte) (ok : Bool)
  /-- M_FINISH: An operator's M_FINISH completes the management session key exchange. -/
  | mFinish (seq : Nat) (ok : Bool)
  /-- M_CLOSE: An M_CLOSE ends the management session. -/
  | mClose (tag : Bool)
  /-- TWIN_PAIR_HANDSHAKE: The two senders exchange certificates and ephemeral keys and derive the pair key. -/
  | twinPairHandshake (cert owner sig peer : Bool) (eph : Nat)
  /-- STATE_COPY_RECEIVE: The standby takes the state copy of a period, checks the digest and answers with its health report. -/
  | stateCopyReceive (copy : Copy) (same : Bool)
  /-- COPY_ACK: The active sender receives the acknowledgement of a copy and releases held Well entries. -/
  | copyAck (period flags near : Nat)
  /-- RESYNC: A write of TWIN_CTRL.RESYNC starts a full resynchronisation. -/
  | resync (rq : Requester)
  /-- MANDATE_RECORD: A sender counts an Elder's MANDATE record, becoming active or yielding as the count changes. -/
  | mandateRecord (m : Option (Nat × Nat × Nat))
  /-- PRESENCE_RECORD: An Elder takes a far sender's PRESENCE record as its report of that sender. -/
  | presenceRecord (sidx : Nat) (silent eligible tag : Bool)
  /-- ELDER_SILENT: Nothing heard from an Elder for 8 superframes raises ELDER_SILENT, or ELDERS_LOST below two. -/
  | elderSilent (k : Nat)
  /-- REJOIN: A write of TWIN_CTRL.REJOIN schedules the rejoin of split ring ports at tick T. -/
  | rejoin (rq : Requester)
  /-- REJOIN_AT_TICK: At tick T the non-active sender yields the named ports and the segment turns back. -/
  | rejoinAtTick (ports t : Nat)
  /-- ATT_START: A write of GATE_ATT_CTRL.START makes the Gatehouse produce a signed attestation report. -/
  | attStart (rq : Requester)
  /-- KEY_ERASE: KEYS_CTRL ERASE zeroises a slot and ends operations using it with KEY_REVOKED. -/
  | keyErase (rq : Requester)
  /-- WRITE_PUBLIC: KEYS_CTRL WRITE_PUBLIC loads a public key into the selected slot. -/
  | writePublic (rq : Requester) (len : Nat)
  /-- KEY_IMPORT: KEYS_CTRL IMPORT unwraps a sealed blob into the selected slot. -/
  | keyImport (rq : Requester) (len : Nat) (ok : Bool)
  /-- GENERATE_AES: KEYS_CTRL GENERATE_AES draws an AES key into the slot and leaves it wrapped in KEYS_BUF. -/
  | generateAes (rq : Requester)
  /-- GENERATE_EC: KEYS_CTRL GENERATE_EC draws a P-384 key and leaves the wrapped key and public key in KEYS_BUF. -/
  | generateEc (rq : Requester)
  /-- OPEN_DEBUG: KEYS_CTRL OPEN_DEBUG checks a debug token, opens the debug port and zeroises volatile slots. -/
  | openDebug (rq : Requester) (len : Nat) (ok : Bool)
  /-- PENDING_KEY_WRITE: A write pending on a slot in use takes effect once the earlier users complete. -/
  | pendingKeyWrite (n : Nat)
  /-- POL_DATA_WRITE: A write to GATE_POL_DATA stores a shadow policy entry and auto-increments. -/
  | polDataWrite (rq : Requester) (v : Word)
  /-- POLICY_COMMIT: A write of GATE_POL_COMMIT puts the shadow policy in force and increments the epoch. -/
  | policyCommit (rq : Requester)
  /-- TAMPER_EN_WRITE: A write of GATE_TAMPER_EN sets tamper source enables, which never clear. -/
  | tamperEnWrite (rq : Requester) (v : Word)
  /-- TAMPER_EVENT: An enabled tamper source fires and the part zeroises secrets and enters Quarantine. -/
  | tamperEvent (x : Tamper)
  /-- CLAIM: ACTION CLAIM verifies the owner signature and burns the next claim record. -/
  | claim (port : Nat) (h : Hdr) (x : Cmd) (rx : Rx) (sig burn : Bool)
  /-- RELEASE: ACTION RELEASE verifies the owner signature and burns the release bit. -/
  | releaseClaim (port : Nat) (h : Hdr) (x : Cmd) (rx : Rx) (sig burn : Bool)
  /-- ACT_ARM: A tile arms a release for tick T and stages the named image. -/
  | actArm (port : Nat) (h : Hdr) (x : Cmd) (rx : Rx)
  /-- ACT_GO: A tile records the go for its armed release. -/
  | actGo (port : Nat) (h : Hdr) (x : Cmd) (rx : Rx)
  /-- ACT_ABORT: A tile drops its armed release. -/
  | actAbort (port : Nat) (h : Hdr) (x : Cmd) (rx : Rx)
  /-- ANTI_ROLLBACK_BURN: ACTION 0x0000_0204 burns the tile's anti-rollback counter up to the image SVN. -/
  | antiRollbackBurn (port : Nat) (h : Hdr) (x : Cmd) (rx : Rx)
  /-- CHUNK_PUT: UPDATE_CHUNK_CTRL PUT copies a chunk into staging flash, checks it and sets its bitmap bit. -/
  | chunkPut (rq : Requester) (index : Nat) (x : Verdict)
  /-- DISCARD_ALL: UPDATE_CHUNK_CTRL DISCARD_ALL clears the staging region and bitmap unless a staged release depends on them. -/
  | discardAll (rq : Requester)
  /-- BUNDLE_VERIFY_DONE: With every chunk held the item hashes are checked and BUNDLE_READY is raised. -/
  | bundleVerifyDone (ok : Bool)
  /-- STAGE: UPDATE_ACT_CTRL STAGE writes the bundle's images and settings beside those in force. -/
  | stage (rq : Requester)
  /-- RELEASE_ARM: UPDATE_ACT_CTRL ARM checks the release for tick T and sends ACT_ARM to covered tiles. -/
  | releaseArm (rq : Requester)
  /-- RELEASE_GO: UPDATE_ACT_CTRL GO is accepted while READY before the decision. -/
  | releaseGo (rq : Requester)
  /-- RELEASE_ABORT: UPDATE_ACT_CTRL ABORT before the decision aborts the release with cause HOST. -/
  | releaseAbort (rq : Requester)
  /-- CONFIRM: UPDATE_ACT_CTRL CONFIRM marks slots CONFIRMED and burns the anti-rollback counters. -/
  | confirm (rq : Requester)
  /-- FALLBACK: UPDATE_ACT_CTRL FALLBACK releases the slot B images and old settings at tick T2. -/
  | fallback (rq : Requester)
  /-- STATE_REQUEST_RUN: PWR_STATE_CTRL TARGET RUN requests Run, at once or at a tick. -/
  | stateRequestRun (rq : Requester) (atTick : Bool)
  /-- STATE_REQUEST_DIM: PWR_STATE_CTRL TARGET DIM requests Dim, at once or at a tick. -/
  | stateRequestDim (rq : Requester) (atTick : Bool)
  /-- STATE_REQUEST_DEEP: PWR_STATE_CTRL TARGET DEEP requests Deep from Dim, at once or at a tick. -/
  | stateRequestDeep (rq : Requester) (atTick : Bool)
  /-- SRAM_INIT_DONE: A domain's SRAM initialisation completes and stalled accesses finish. -/
  | sramInitDone (d : Nat)
  /-- DEEP_WAKE: An enabled wake source brings the part from Deep through Waking to Dim. -/
  | deepWake (src low : Nat)
  /-- TEMP_READING: Every 125 us the diode is read, checked for plausibility and, if plausible, kept for T_f. -/
  | tempReading (raw : Int) (fault : Bool)
  /-- WEATHER_PEAK_READ: A read of WEATHER_PEAK returns the highest T_f and re-arms it. -/
  | weatherPeakRead (rq : Requester)
  /-- SENDER_FIRMWARE_START: A sender's boot ROM finishes reading, verifying and measuring its flash image and configuration, starts firmware and enters Run, or Dim after a Deep wake. -/
  | senderFirmwareStart (okA okB formatOk : Bool) (flash : Flash)
  /-- JOB_COMPUTE_DONE: The Halo job finishes computing the coefficient sets, writes the push list at OUT and moves on to its push. -/
  | jobComputeDone (fail : Nat) (sets : List (Nat × List Byte × List Nat))
  /-- MIRROR_WRITE_RECEIVE: The standby receives a mirror write or a mirrored register write over the twin link and performs it on its Granary or pages. -/
  | mirrorWriteReceive (m : TwinMsg)
  /-- SPLIT_GRANT: A non-active near sender receives a grant or withdrawal of SPLIT for a ring port over the twin link, and starts or stops serving that segment. -/
  | splitGrant (n : Nat) (on : Bool)
  /-- DELAY_RESP_RECEIVE: A sender receives a PTP Delay_Resp, or a Pdelay response, and updates the mean path delay of its source link in BELL_PATH_DLY. -/
  | delayRespReceive (port : Nat) (f : EthFrame) (domain : Nat) (p2p : Bool) (t1 t2 t3 t4 : Nat) (corr : Int)
  /-- CSI_LINK_ACTIVE: A CSI-2 clock lane becomes active and LINK_ACTIVE is raised. -/
  | csiLinkActive (p stop : Nat)
  /-- CSI_LINK_STOP: The CSI-2 lanes enter the stop state and LINK_STOP is raised. -/
  | csiLinkStop (p stop : Nat) (act : Bool)
  /-- CSI_SKEW_CALIBRATION: A skew calibration sequence is received above 1.5 Gb/s, and SKEW_OK is set or SKEW_FAIL is raised. -/
  | csiSkewCalibration (p : Nat) (ok : Bool)
  /-- LANE_M_LINK: The 1000BASE-X management link on lane M comes up or goes down, and WELL_MGMT_STAT.LINK follows. -/
  | laneMLink (up : Bool)
  /-- PCIE_AER_ERROR: The PCIe endpoint detects a correctable or uncorrectable error, counts it and raises CORR_ERR or UNCORR_ERR. -/
  | pcieAerError (corr : Bool)
  /-- ETH_HI_BER: An Ethernet port's PCS enters or leaves its high bit error ratio condition, setting ETH_STAT.HI_BER and raising HI_BER. -/
  | ethHiBer (n : Nat) (on : Bool)
  /-- WARM_RESET_PIN: RST_N held low for 4 samples resets every switched domain; it is ignored in Quarantine. -/
  | warmResetPin (low : Nat)
  /-- THERMAL_TRIP: The comparator at 130 C for 10 us switches every domain off and counts a trip. -/
  | thermalTrip (temp : Int) (held : Nat)
  /-- POWER_FAIL_DETECT: VDD_IO below 1.60 V for 1 us acts as PORST_N going low and disarms VGLITCH. -/
  | powerFailDetect
  /-- SLICE_TAG_RESULT: The slice tag check completes, and the slice becomes VERIFIED or FAILED with GMAC_FAIL. -/
  | sliceTagResult
  /-- POWER_ON_RESET: PORST_N low or the D0 supply out of range resets everything, D0 included, and the part goes Off. -/
  | powerOnReset
  /-- WATCHDOG_EXPIRY: PWR_WDT expires without a kick and causes a warm reset with cause WATCHDOG. -/
  | watchdogExpiry
  /-- LOCATOR_TIMEOUT: A tile that hears no beacon for 2 s draws the locator pattern and raises LOCATOR. -/
  | locatorTimeout
  /-- MODE_ACK: A MODE_ACK record from a tile counts in ACKED, and READY follows when ACKED equals EXPECTED. -/
  | modeAck
  /-- MODE_DECISION: At tick N - 4 the sender sends go cells if READY, and otherwise sends an abort cell and raises MODE_ABORT. -/
  | modeDecision
  /-- MODE_SWITCH: At tick N the tiles that hold a go cell and the sender take the new mode, and MODE_DONE is raised. -/
  | modeSwitch
  /-- FAB_RELEASE_APPLY: At the release tick every commit of the released group applies in the same instant. -/
  | fabReleaseApply
  /-- FREE_RUN_START: A sender with automatic or free-run source and no Sync 3 s after enable starts time from BELL_SET in FREE. -/
  | freeRunStart
  /-- STEP_APPLY: At the step point local time is stepped, skipped ticks are counted and pending tick actions move to the next executed tick. -/
  | stepApply
  /-- FRAME_TICK: Local time reaches t_n and the device executes frame tick n. -/
  | frameTick
  /-- TELEMETRY_SAMPLE: A subscription's tick count expires and the tile reads the words and queues a TELEMETRY record. -/
  | telemetrySample
  /-- SWAP_DECISION: Two microseconds before the swap instant the tile closes the slice, arms the swap or counts it late, failed or empty. -/
  | swapDecision
  /-- SWAP: At the swap instant an armed swap exchanges the Nimbus buffers, or the unarmed swap is counted and HELD raised. -/
  | swap
  /-- RACK_MISS: A tile receives no valid RACK for a superframe, raises RACK_MISS and repeats its slot. -/
  | rackMiss
  /-- BOOT_RECORD: The sender takes a tile's BOOT record, resends missing pieces, or marks the tile BOOTED. -/
  | bootRecord
  /-- MUTE_REPORT: A MUTE_REPORT with CLEAN = 1 makes the sender send UNMUTE to the muting tile. -/
  | muteReport
  /-- KEY_EPOCH_BOUNDARY: At tick index k x 2^20 the sender tags under the new epoch and flips KE. -/
  | keyEpochBoundary
  /-- OLD_KEY_EXPIRY: Sixteen ticks after the boundary a tile drops the old epoch key. -/
  | oldKeyExpiry
  /-- COMPLETION_RECORD: A COMPLETION record is matched by TOKEN and becomes a completion entry, or is discarded as late. -/
  | completionRecord
  /-- EVENT_RECORD: An EVENT record becomes EVENT entries in the tile's pairs with EVT_EN. -/
  | eventRecord
  /-- TELEMETRY_RECORD: A TELEMETRY record becomes TELEMETRY entries in every active pair bound to the tile. -/
  | telemetryRecord
  /-- DROPS_RECORD: A DROPS record is added to the next DROPS entry. -/
  | dropsRecord
  /-- IGMP_JOIN: Within 1 ms of an applied enable or group change the port sends a join, or a leave for the last user. -/
  | igmpJoin
  /-- IGMP_REPEAT: One second after a join the robustness repeat is sent. -/
  | igmpRepeat
  /-- FENCE_TIMEOUT: A fence-held commit held for TICKS ticks is dropped or applied, and FENCE_TIMEOUT is raised. -/
  | fenceTimeout
  /-- GRID_END: No frame tick has been executed by the end of the grid, so the Lamplighter starts the next grid itself. -/
  | gridEnd
  /-- SWEEP_DUE: SWEEP_MIN minutes elapse and a diagnostic pin sweep starts. -/
  | sweepDue
  /-- ACC_ZEROED: The run's array and bitmap are zeroed and the run is ARMED. -/
  | accZeroed
  /-- ACC_NO_FRAMES: No accepted frame for 1 s aborts the run with cause NO_FRAMES. -/
  | accNoFrames
  /-- PUSH_DECISION: At tick T - 8 the push decides and arms each loaded tile's held release for T. -/
  | pushDecision
  /-- PUSH_CONFIRM: At T + 2 each tile's bank and applied tick are read back and entries become SWITCHED or NOT_CONFIRMED. -/
  | pushConfirm
  /-- TICK_FENCE_DONE: The sender executes the named tick and the fence completes OK. -/
  | tickFenceDone
  /-- FLR: A Function Level Reset resets the PCIe configuration space and MSI-X state only. -/
  | flr
  /-- PCIE_LINK_DOWN: The PCIe link goes down and the endpoint state is reset as for FLR. -/
  | pcieLinkDown
  /-- MGMT_SESSION_SILENCE: Ten seconds of silence end the management session. -/
  | mgmtSessionSilence
  /-- COPY_LATE: A copy not acknowledged by P / 2 after its tick raises COPY_LATE and clears SYNCED. -/
  | copyLate
  /-- KEEP_ALIVE: Every 125 us the standby sends a keep-alive over the twin link. -/
  | keepAlive
  /-- HEALTH_REPORT: The standby evaluates its health flags at each tick and updates ELIGIBLE. -/
  | healthReport
  /-- TWIN_LINK_QUIET: After 125 us with nothing from the peer, ELIGIBLE is frozen. -/
  | twinLinkQuiet
  /-- PEER_SILENT: After 500 us of twin link silence and no active beacon, the standby sets PEER_SILENT. -/
  | peerSilent
  /-- TWIN_LINK_DOWN: The twin link goes down, the active sender runs SOLO and the standby is not eligible. -/
  | twinLinkDown
  /-- TWIN_LINK_UP: The twin link returns and a full resynchronisation starts. -/
  | twinLinkUp
  /-- RESYNC_DONE: A full resynchronisation completes and SYNCED reads 1. -/
  | resyncDone
  /-- TURN_TRIGGER: A ring tile's upstream is lost or silent for 500 us and it idles its downstream transmitter. -/
  | turnTrigger
  /-- TURN_COMPLETE: After 10 us idle with the other port UP, the tile takes it as upstream and raises TURNED. -/
  | turnComplete
  /-- TURN_TIMEOUT: The other port is not UP within 2 ms of the trigger and the tile enters HOLD. -/
  | turnTimeout
  /-- MANDATE_TRANSFER: An Elder without beacons from its holder for 500 us moves its mandate to an eligible silent peer. -/
  | mandateTransfer
  /-- YIELD_IDLE_END: One millisecond after yielding the sender transmits as a far sender. -/
  | yieldIdleEnd
  /-- ISOLATED: An active sender with a silent twin link and no Elder record for 8 superframes becomes ISOLATED. -/
  | isolated
  /-- ATTESTATION_DONE: The report is complete in GATE_ATT_REPORT and ATT_DONE is raised. -/
  | attestationDone
  /-- POLICY_DRAIN_DONE: The last access of an older epoch completes, DRAINING clears and POLICY_DONE is raised. -/
  | policyDrainDone
  /-- STAGING_DONE: Staging completes, STATE = STAGED and STAGED is raised. -/
  | stagingDone
  /-- RELEASE_DECISION: At tick T - 8 the sender marks slots TRIAL and sends ACT_GO, or sends ACT_ABORT. -/
  | releaseDecision
  /-- RELEASE_ACTIVATION: At tick T devices holding a go hand over to the staged image and ACT_DONE is raised. -/
  | releaseActivation
  /-- RELEASE_RETRY: At T + 16 a tile without a go raises UPD_MISS and is sent ACT_ARM and ACT_GO alone. -/
  | releaseRetry
  /-- TRIAL_EXPIRY: An unconfirmed trial older than TRIAL_MIN starts a fall-back and raises TRIAL_EXPIRED. -/
  | trialExpiry
  /-- STATE_REQUEST_AT_TICK: A power state request waiting for its tick is judged and takes effect at that tick. -/
  | stateRequestAtTick
  /-- DOMAIN_STEP_DONE: A domain reaches its safe point and the sequencer takes the next domain toward the target. -/
  | domainStepDone
  /-- DOMAIN_RETRY: Power good not reached is retried once after 20 us, and a second failure raises DOM_FAIL. -/
  | domainRetry
  /-- WAKE_TIMER: PWR_WAKE_TIMER expires in Deep and wakes the part. -/
  | wakeTimer
  /-- TILE_DEEP_ENTRY: A tile enters Deep once the completion of its DEEP write is acknowledged, or two superframes later. -/
  | tileDeepEntry
  /-- TF_UPDATE: Every 1 ms T_f is updated and sets the thermal level and DERATE. -/
  | tfUpdate
  /-- ORDERLY_DIM: Five hundred milliseconds into the orderly stop the part enters Dim and raises ORDERLY_DONE. -/
  | orderlyDim
  /-- ORDERLY_END: T_f below WARN_C for 10 s with the sensor OK ends ORDERLY, resuming Run if AUTO_RESUME. -/
  | orderlyEnd
  /-- TRIP_RESTART: After 10 s below 100 C the part restarts as a warm reset with cause TRIP, unless held Off. -/
  | tripRestart
  /-- DWELL_ELAPSED: PWR_DWELL.US passes after a domain's safe point, and the sequencer starts the reversing step it was holding back. -/
  | dwellElapsed
  deriving DecidableEq, Repr

end Sys2Proof
end

