-- ==== Sys2Proof/Decode.lean ====
section
/-!
DEFINITION. The part takes commands, not instruction words: spec/opcode_table.json gives no row bits or fields, so that no word
spells a command.
-/

namespace Sys2Proof

/-- The command that a word spells by the table's bits: none, since the table gives no row bits (log entry 2). -/
def decodeTableWord (_ _ : Nat) : Option Instr := none

end Sys2Proof
end

