-- ==== Sys2Proof/Config.lean ====
section
/-!
DEFINITION. What the spec leaves to the implementation or to chance: opaque constants without a body, so that no proof
can rest on a value of them. Each is applied to a counter of the state that a step advances (a fresh value every time) or
to the data it depends on.
-/

namespace Sys2Proof

/-- A value the spec leaves open, by the number of the draw (the state's own counter). DESIGN CHOICE, log entry 5. -/
opaque Config.free : Nat → Nat

/-- A random number the part draws: a nonce, a key, the answer unit of R133. Log entry 5. -/
opaque Config.random : Nat → Nat

/-- A part's own residence of a block, by rate code: R110 bounds it and gives no value. Log entry 5. -/
opaque Config.hop : Nat → Nat

/-- PG_ID.MAJOR and MINOR of a page: R31 says "per page" and the spec gives no number. Log entry 6. -/
opaque Config.pgVersion : Nat → Nat

/-- SHA-384 of a list of bytes. The function is fixed by FIPS 180-4, not by the spec: its values are left open here. Log
entry 7. -/
opaque Config.sha384 : List Byte → Nat

/-- HKDF and key-unwrapping results, by purpose and inputs. Log entry 7. -/
opaque Config.kdf : Nat → List Nat → Nat

/-- An ECDSA P-384 signature the part makes, by key and digest. Log entry 7. -/
opaque Config.sign : Nat → List Byte → List Byte

/-- An AES-256-GCM ciphertext or tag the part makes, by key, IV and data. Log entry 7. -/
opaque Config.gcm : Nat → Nat → List Byte → List Byte

/-- A byte of an AES-256-GCM key stream, by key, IV and byte offset. Log entry 7. -/
opaque Config.keystream : Nat → Nat → Nat → Byte

/-- A P-384 public key, by private key. Log entry 7. -/
opaque Config.public : Nat → List Byte

/-- The bytes of an item by which a measurement register is extended, by what happened and its number: R350 names the
occasions and gives no bytes. Log entry 20. -/
opaque Config.measured : Nat → Nat → List Byte

/-- A coefficient of the scaler kernels that firmware loads, by set, axis and phase and tap: R154 names the kernels and
gives no values. Log entry 8. -/
opaque Config.kernel : Nat → BitVec 16

/-- The number of a refusal cause in a push entry: R262 and R270 name the causes NONFINITE, DIAG, OFF, OFS, TRIM_RANGE (1 to 5
here), CARD (6), and a load not finished by T − 8 (7), and number none of them. Log entry 34. -/
opaque Config.pushCause : Nat → Nat

/-- Whether the digits of the locator pattern light a pixel, by sender port number, chain position, x and y: R26 draws the two
numbers and gives no glyphs. Log entry 37. -/
opaque Config.locator : Nat → Nat → Nat → Nat → Bool

/-- A colour of a tile's idle pattern, by tick, WDN, x and y on the tile, and colour: R25 calls it slow, says that it carries each tile's WDN, and
gives no picture. Log entry 39. -/
opaque Config.idle : Nat → Nat → Nat → Nat → Nat → Nat

/-- The WDN that a settings section gives a serial, if it gives one: R380 gives a section's frame and not its content. Log entry
162. -/
opaque Config.wdnOf : List Byte → Nat → Option Nat

/-- The sender's owner certificate that a settings section holds, if it holds one (R352, R380). Log entry 162. -/
opaque Config.ownerCert : List Byte → Option (List Byte)

/-- The tamper counter that a settings section holds for a serial, if it holds one (R370, R380). Log entry 162. -/
opaque Config.tamperOf : List Byte → Nat → Option Nat

end Sys2Proof
end

