-- ==== Sys2Proof/Machine/Chip.lean ====
section
/-!
DEFINITION. The part: its registers and shadows, everything its blocks hold beside them, its pins and fuses, and the
record of what it sends. State adds the queue of waiting commands.
-/

namespace Sys2Proof.Machine

/-- What leaves the part: a cell out of a chain port, a forwarded one, a port's transmitters starting or going to electrical idle, the
clock a port transmits on, the blocks on a lane as sent, a test pattern's start, bits sent back by a far-end loopback, a lane
driver's taps (pre-cursor, main, post-cursor) with its swing and polarity, the block stream rebuilt from a port's lanes, a pulse on TICK_OUT, an MSI-X message, an Ethernet, twin-link,
management or PCIe message, by kind and numbers, what a register read answers, a record of a
tile served for the peer (R335), a state copy (R336). -/
inductive Out
  | cell (port : Nat) (c : Cell)
  | forward (port : Nat) (c : Cell)
  | tx (quad : Nat) (half : Nat) (on : Bool)
  | clock (quad : Nat) (half : Nat) (recovered : Bool)
  | lane (quad : Nat) (lane : Nat) (blocks : List Block)
  | pattern (quad : Nat) (lane : Nat) (pat : Nat) (bits : Nat)
  | looped (quad : Nat) (lane : Nat) (bits : List Bool)
  | drive (quad : Nat) (lane : Nat) (taps : Nat × Nat × Nat) (mv : Nat) (inv : Bool)
  | stream (quad : Nat) (half : Nat) (blocks : List Block)
  | pulse (pin : Nat) (start : Nat) (width : Nat) (low : Bool)
  | msix (vector : Nat)
  | eth (port : Nat) (kind : Nat) (args : List Nat) (tag : Option Nat)
  | twin (kind : Nat) (args : List Nat) (bytes : List Byte)
  | mgmt (kind : Nat) (args : List Nat) (bytes : List Byte)
  | pcie (kind : Nat) (args : List Nat) (bytes : List Byte)
  | lamp (d : SlotDrive)
  | rowd (pins : List (Option Bool))
  | dram (write : Bool) (lines : List DramPlace)
  | mem (req : Nat) (addr : Nat) (bytes : List Byte) (poisoned : Bool)
  | i2c (addr : Nat) (bytes : List Byte)
  | read (addr : Nat) (v : Word)
  | segment (port : Nat) (wdn : Nat) (r : Rec)
  | copy (cp : Copy)
  deriving DecidableEq, Repr

/-- Fused values (R347, R353, R368, R387): the secret of the identity key, lot, wafer, die position and site, serial, Ethernet address, PCIe identity,
lifecycle, claim records (owner hash, released), tamper counter, anti-rollback count, debug and owner keys' presence. -/
structure Fuses where
  secret : Nat
  lot : Nat
  wafer : Nat
  dieX : Nat
  dieY : Nat
  site : Nat
  serial : Nat
  mac : Nat
  pcieId : Nat
  lifecycle : Nat
  claims : List (Nat × Bool)
  tamperCnt : Nat
  svn : Nat
  disagree : Nat
  deriving DecidableEq, Repr

/-- The part. -/
structure Chip where
  regs : List (Nat × Word)
  shadow : List (Nat × Word)
  age : Nat
  fuses : Fuses
  fab : Fabric
  bell : Bell
  pwr : Power
  wx : Weather
  quads : List Quad
  ports : List Port
  tile : Tile
  pcie : Pcie
  gran : Gran
  well : Well
  mgmt : Mgmt
  switch : Option Switch
  store : Store
  gate : Gate
  twin : Twin
  upd : Upd
  scan : Scan
  ing : Ingest
  loom : Loom
  nim : Nimbus
  lamp : Lamp
  halo : Halo
  scanHold : Nat
  out : List Out
  draws : Nat
  deriving DecidableEq, Repr

end Sys2Proof.Machine
end

