-- ==== Sys2Proof/Machine/Ops.lean ====
section
/-!
DEFINITION. The named operations on registers, fields, counters, output and draws: every meaning reads and writes the part
through these.
-/

namespace Sys2Proof.Machine

/-- The register at a byte address as it stands (for an RWS register the applied value). -/
def Chip.rd (c : Chip) (a : Nat) : Word := spGet regReset c.regs a

/-- Store a register. -/
def Chip.wr (c : Chip) (a : Nat) (v : Word) : Chip := { c with regs := spSet regReset c.regs a v }

/-- The shadow of an RWS register (R7). -/
def Chip.rdS (c : Chip) (a : Nat) : Word := spGet regReset c.shadow a

/-- Store the shadow of an RWS register. -/
def Chip.wrS (c : Chip) (a : Nat) (v : Word) : Chip := { c with shadow := spSet regReset c.shadow a v }

/-- A field of a register, as a number. -/
def Chip.get (c : Chip) (f : Fld) : Nat := bitsOf (c.rd f.reg) f.hi f.lo

/-- A field of a shadow, as a number. -/
def Chip.getS (c : Chip) (f : Fld) : Nat := bitsOf (c.rdS f.reg) f.hi f.lo

/-- Store a field, leaving the register's other bits. -/
def Chip.put (c : Chip) (f : Fld) (n : Nat) : Chip := c.wr f.reg (withBits (c.rd f.reg) f.hi f.lo n)

/-- A one-bit field as a truth value. -/
def Chip.flag (c : Chip) (f : Fld) : Bool := c.get f == 1

/-- A whole register as a number. -/
def Chip.nat (c : Chip) (a : Nat) : Nat := (c.rd a).toNat

/-- Store a whole register from a number, its low 32 bits. -/
def Chip.setNat (c : Chip) (a n : Nat) : Chip := c.wr a (BitVec.ofNat 32 n)

/-- Add to a 32-bit counter, saturating at 0xFFFF_FFFF. -/
def Chip.countBy (c : Chip) (a n : Nat) : Chip := c.setNat a (min (c.nat a + n) 0xffffffff)

/-- Count one in a 32-bit counter. -/
def Chip.count (c : Chip) (a : Nat) : Chip := c.countBy a 1

/-- Count one in a field, saturating at its highest value. -/
def Chip.countF (c : Chip) (f : Fld) : Chip := c.put f (satInc (f.hi + 1 - f.lo) (c.get f))

/-- A 64-bit pair of registers. -/
def Chip.pair (c : Chip) (lo hi : Nat) : Nat := c.nat lo + 2 ^ 32 * c.nat hi

/-- Store a 64-bit pair of registers. -/
def Chip.setPair (c : Chip) (lo hi n : Nat) : Chip := (c.setNat lo n).setNat hi (n / 2 ^ 32)

/-- What the part sends is recorded, newest first. -/
def Chip.emit (c : Chip) (o : Out) : Chip := { c with out := o :: c.out }

/-- A number the spec leaves open; the draw counter moves on. -/
def Chip.drawn (c : Chip) : Nat := Config.free c.draws

/-- Move the draw counter on. -/
def Chip.redraw (c : Chip) : Chip := { c with draws := c.draws + 1 }

/-- The part is out of reset in the Sender role (R1). -/
def Chip.isSender (c : Chip) : Bool := c.get .SYS_ROLE_ROLE == 1

/-- The part is in the Tile role (R1). -/
def Chip.isTile (c : Chip) : Bool := c.get .SYS_ROLE_ROLE == 0

/-- The mode code in force (R22). -/
def Chip.mode (c : Chip) : Nat := c.get .SYS_MODE_MODE

/-- PG_STATUS.ENABLED of a page. -/
def Chip.enabled (c : Chip) (page : Nat) : Bool := c.flag (.PG_STATUS_ENABLED page)

/-- Is a power domain at or past its safe point (PWR_DOM_ON)? -/
def Chip.domOn (c : Chip) (d : Nat) : Bool := bitAt c.pwr.dom d

/-- A write is rejected: WR_REJ is set and REJ_WORD keeps the first rejected word since the last clear (R7). -/
def Chip.reject (c : Chip) (a : Nat) : Chip :=
  let page := a / 0x1000
  if c.flag (.PG_STATUS_WR_REJ page) then c
  else (c.put (.PG_STATUS_WR_REJ page) 1).put (.PG_STATUS_REJ_WORD page) (a % 0x1000 / 4)

/-- Do `f` when `b` holds. -/
def Chip.when (c : Chip) (b : Bool) (f : Chip → Chip) : Chip := if b then f c else c

/-- Do `f` for every element of a list, in order. -/
def Chip.each {α : Type} (c : Chip) (l : List α) (f : Chip → α → Chip) : Chip := l.foldl f c

/-- The element of a list at an index, or a default. -/
def listAt {α : Type} (l : List α) (n : Nat) (d : α) : α := l.getD n d

/-- Replace the element of a list at an index. -/
def listPut {α : Type} : List α → Nat → α → List α
  | [], _, _ => []
  | _ :: r, 0, v => v :: r
  | x :: r, n + 1, v => x :: listPut r n v

/-- The value kept under a number in a list of pairs. -/
def assoc {α : Type} (l : List (Nat × α)) (k : Nat) : Option α := (l.find? fun p => p.1 == k).map (·.2)

/-- Keep a value under a number, replacing what was there. -/
def assocPut {α : Type} (l : List (Nat × α)) (k : Nat) (v : α) : List (Nat × α) :=
  (k, v) :: l.filter fun p => p.1 != k

/-- Change the fabric's part. -/
def Chip.onFab (c : Chip) (f : Fabric → Fabric) : Chip := { c with fab := f c.fab }

/-- Change the Bellringer's part. -/
def Chip.onBell (c : Chip) (f : Bell → Bell) : Chip := { c with bell := f c.bell }

/-- Change the power sequencer's part. -/
def Chip.onPwr (c : Chip) (f : Power → Power) : Chip := { c with pwr := f c.pwr }

/-- Change Weathervane's part. -/
def Chip.onWx (c : Chip) (f : Weather → Weather) : Chip := { c with wx := f c.wx }

/-- Change the tile's chain part. -/
def Chip.onTile (c : Chip) (f : Tile → Tile) : Chip := { c with tile := f c.tile }

/-- Change the endpoint's part. -/
def Chip.onPcie (c : Chip) (f : Pcie → Pcie) : Chip := { c with pcie := f c.pcie }

/-- Change the Granary's part. -/
def Chip.onGran (c : Chip) (f : Gran → Gran) : Chip := { c with gran := f c.gran }

/-- Change the Well's part. -/
def Chip.onWell (c : Chip) (f : Well → Well) : Chip := { c with well := f c.well }

/-- Change the management channel's part. -/
def Chip.onMgmt (c : Chip) (f : Mgmt → Mgmt) : Chip := { c with mgmt := f c.mgmt }

/-- Change the Gatehouse's part. -/
def Chip.onGate (c : Chip) (f : Gate → Gate) : Chip := { c with gate := f c.gate }

/-- Change the twin engine's part. -/
def Chip.onTwin (c : Chip) (f : Twin → Twin) : Chip := { c with twin := f c.twin }

/-- Change the stored configuration. -/
def Chip.onStore (c : Chip) (f : Store → Store) : Chip := { c with store := f c.store }

/-- Change the Cavas engine's part. -/
def Chip.onUpd (c : Chip) (f : Upd → Upd) : Chip := { c with upd := f c.upd }

/-- Change scanout's part. -/
def Chip.onScan (c : Chip) (f : Scan → Scan) : Chip := { c with scan := f c.scan }

/-- Change the ingest pipes' part. -/
def Chip.onIng (c : Chip) (f : Ingest → Ingest) : Chip := { c with ing := f c.ing }

/-- Change Loom's part. -/
def Chip.onLoom (c : Chip) (f : Loom → Loom) : Chip := { c with loom := f c.loom }

/-- Change the pixel engine's part. -/
def Chip.onNim (c : Chip) (f : Nimbus → Nimbus) : Chip := { c with nim := f c.nim }

/-- Change the Lamplighter's part. -/
def Chip.onLamp (c : Chip) (f : Lamp → Lamp) : Chip := { c with lamp := f c.lamp }

/-- Change Halo's part. -/
def Chip.onHalo (c : Chip) (f : Halo → Halo) : Chip := { c with halo := f c.halo }

/-- Nanoseconds in sub-nanoseconds (R58). -/
def ns (n : Nat) : Nat := n * 65536

/-- Microseconds in sub-nanoseconds. -/
def us (n : Nat) : Nat := ns (n * 1000)

/-- Milliseconds in sub-nanoseconds. -/
def ms (n : Nat) : Nat := us (n * 1000)

/-- Rounding half up of a quotient of naturals. -/
def roundDiv (a b : Nat) : Nat := (2 * a + b) / (2 * b)

end Sys2Proof.Machine
end

