-- ==== Sys2Proof/Machine/Flags.lean ====
section
/-!
DEFINITION. Event flags and the Crier: an occurrence of an event (R45), the pending sources (R46, R47), their order (R48),
IRQ_N (R51), MSI-X messages (R52), and the capture of fabric errors (R30).
-/

namespace Sys2Proof.Machine

/-- An event's flag is set whatever PG_EVENT_EN holds, and PG_EVENT_CNT counts it (R45). -/
def Chip.setEvent (c : Chip) (e : Ev) : Chip :=
  let flags := c.rd (Reg.PG_EVENT e.page)
  let c := c.wr (Reg.PG_EVENT e.page) (flags ||| BitVec.ofNat 32 (2 ^ e.bit))
  c.countF (.PG_EVENT_CNT_COUNT e.page)

/-- An event record of a tile that holds slot units: an occurrence adds to the record of its page and bit; one that finds
64 records sets EVQ_OVF and is counted (R130). -/
def Chip.forwardEvent (c : Chip) (e : Ev) : Chip :=
  if !c.isTile || c.get .RET_UNITS_COUNT == 0 then c
  else
    let q := c.tile.evq
    if q.any fun x => x.1 == e.page && x.2.1 == e.bit then
      c.onTile fun t => { t with evq := q.map fun x =>
        if x.1 = e.page ∧ x.2.1 = e.bit then (x.1, x.2.1, satInc 16 x.2.2) else x }
    else if q.length < 64 then c.onTile fun t => { t with evq := q ++ [(e.page, e.bit, 1)] }
    else ((c.onTile fun t => { t with evqOvf := true }).count Reg.RET_EVQ_OVF).setEvent .RET_EVQ_OVF

/-- An event occurs: its flag is set, it is counted, and a tile forwards it to its sender (R45, R130). -/
def Chip.raise (c : Chip) (e : Ev) : Chip := (c.setEvent e).forwardEvent e

/-- Is a page implemented in the role (R29)? A tile has quad Q0 and chain pages A and B only. -/
def pageInRole (c : Chip) (page : Nat) : Bool :=
  match classOf page with
  | none => false
  | some (k, i) =>
    if c.isSender then (pInfo k).sender
    else (pInfo k).tile && (if k = .serdes then i == 0 else if k = .chain then decide (i < 2) else true)

/-- A page's pending state as a Crier source: some flag set and enabled (R46). -/
def pagePending (c : Chip) (page : Nat) : Bool :=
  pageInRole c page && (c.rd (Reg.PG_EVENT page) &&& c.rd (Reg.PG_EVENT_EN page)) != 0

/-- A GPIO source is pending: by its accepted level, or by its latched edge (R47, R56). -/
def gpioPending (c : Chip) (n : Nat) : Bool :=
  match c.get (.CRIER_GPIO_CFG_TRIG n) with
  | 0 => bitAt c.fab.gpio n
  | 1 => !bitAt c.fab.gpio n
  | _ => bitAt (c.nat Reg.CRIER_GPIO_EDGE) n

/-- Is a Crier source pending, whatever its enable and routing (R47)? -/
def srcPending (c : Chip) (n : Nat) : Bool :=
  if n < 0xe0 || n == 0xf0 then pagePending c n
  else if n < 0xf0 then gpioPending c (n - 0xe0)
  else if 0xf8 ≤ n && n < 0x100 then bitAt c.fab.sgi (n - 0xf8)
  else false

/-- The 32 sources of CRIER_PENDk, as a number. -/
def pendWord (c : Chip) (k : Nat) : Nat :=
  (List.range 32).foldl (fun v b => if srcPending c (32 * k + b) then v + 2 ^ b else v) 0

/-- The sources whose CRIER_SRC_CFG is not at its reset value 0: only these can be enabled. -/
def routedSources (c : Chip) : List Nat :=
  (c.regs.filter fun p => decide (Reg.CRIER_SRC_CFG 0 ≤ p.1 ∧ p.1 ≤ Reg.CRIER_SRC_CFG 255)).map
    fun p => (p.1 - Reg.CRIER_SRC_CFG 0) / 4

/-- The priority a source is chosen by: group part, sub-priority, source number, lowest first (R48). -/
def srcRank (c : Chip) (n : Nat) : Nat × Nat × Nat :=
  let g := min (c.get .CRIER_CTRL_PRIGROUP) 4
  let p := c.get (.CRIER_SRC_CFG_PRIO n)
  (p / 2 ^ g, p % 2 ^ g, n)

/-- One rank comes before another (R48). -/
def rankLt (a b : Nat × Nat × Nat) : Bool :=
  decide (a.1 < b.1) || (a.1 == b.1 && (decide (a.2.1 < b.2.1) || (a.2.1 == b.2.1 && decide (a.2.2 < b.2.2))))

/-- The best source of a list under R48. -/
def bestSource (c : Chip) : List Nat → Option Nat
  | [] => none
  | n :: r =>
    match bestSource c r with
    | none => some n
    | some m => if rankLt (srcRank c m) (srcRank c n) then some m else some n

/-- The pending sources enabled for a target: `f` is the target's enable bit in CRIER_SRC_CFG. -/
def targetSources (c : Chip) (f : Nat → Fld) : List Nat :=
  (routedSources c).filter fun n => c.flag (.CRIER_SRC_CFG_EN n) && c.flag (f n) && srcPending c n

/-- IRQ_N is driven low (R51). -/
def irqLow (c : Chip) : Bool :=
  !c.flag .CRIER_PIN_CTRL_MASK && !(targetSources c .CRIER_SRC_CFG_PIN_EN).isEmpty

/-- MSI-X masking of a vector: MSI-X disabled, the function masked, or the vector masked (R52, R321). -/
def msixMasked (c : Chip) (v : Nat) : Bool :=
  !c.pcie.msixEn || c.pcie.funcMask || c.pcie.vecMask.contains v

/-- The vectors with a pending source; none in the Tile role (CRIER_SRC_CFG.MSIX_EN). -/
def pendingVectors (c : Chip) : List Nat :=
  if c.isSender then ((targetSources c .CRIER_SRC_CFG_MSIX_EN).map fun n => c.get (.CRIER_SRC_CFG_VECTOR n)).eraseDups
  else []

/-- The best pending source on a vector. -/
def vectorBest (c : Chip) (v : Nat) : Option Nat :=
  bestSource c ((targetSources c .CRIER_SRC_CFG_MSIX_EN).filter fun n => c.get (.CRIER_SRC_CFG_VECTOR n) == v)

/-- Put a vector in its place by R48. -/
def insertVector (c : Chip) (v : Nat) : List Nat → List Nat
  | [] => [v]
  | w :: r =>
    match vectorBest c v, vectorBest c w with
    | some a, some b => if rankLt (srcRank c a) (srcRank c b) then v :: w :: r else w :: insertVector c v r
    | _, _ => w :: insertVector c v r

/-- Send a vector's message, or hold it while masked (R52). -/
def sendVector (c : Chip) (v : Nat) : Chip :=
  if msixMasked c v then { c with fab := { c.fab with vecHeld := v :: c.fab.vecHeld.filter (· != v) } }
  else { c.emit (.msix v) with fab := { c.fab with vecHeld := c.fab.vecHeld.filter (· != v) } }

/-- A vector that became due and has its PCIE_NOTIFY bit goes to the management peer in a NOTIFY, at most once in 1 ms
(R325). -/
def notifyPeer (c : Chip) (v : Nat) : Chip :=
  let bit := if v < 32 then bitAt (c.nat Reg.PCIE_NOTIFY_LO) v else bitAt (c.nat Reg.PCIE_NOTIFY_HI) (v - 32)
  let recent := (assoc c.mgmt.notified v).any fun a => decide (c.age < a + ms 1)
  if c.mgmt.session && bit && !recent then
    (c.emit (.mgmt 0x20 [v] [])).onMgmt fun m => { m with notified := assocPut m.notified v c.age }
  else c

/-- After each command: vectors that went from no pending source to one send their message, in the order of R48; a held
message whose sources are all gone is no longer held (R52). -/
def Chip.settle (c : Chip) : Chip :=
  let now := pendingVectors c
  let new := (now.filter fun v => !c.fab.vecSeen.contains v).foldr (insertVector c) []
  let c := { c with fab := { c.fab with vecSeen := now, vecHeld := c.fab.vecHeld.filter fun v => now.contains v } }
  (c.each new sendVector).each new notifyPeer

/-- A requester's code in CRIER_FAB_ERR_INFO. -/
def Requester.code : Requester → Nat
  | .pcie => 0
  | .mgmt => 1
  | .core n => 2 + n % 4
  | .chain => 6
  | .debug => 7

/-- A fabric error is counted, the first since FAB_ERR was last cleared is captured, and FAB_ERR is raised (R30). -/
def Chip.fabErr (c : Chip) (rq : Requester) (addr : Nat) (write : Bool) (cause : Nat) : Chip :=
  let first := c.get .CRIER_FAB_ERR_INFO_COUNT == 0
  let c := if first then
      ((((c.put .CRIER_FAB_ERR_ADDR_ADDR addr).put .CRIER_FAB_ERR_INFO_CAUSE cause).put
        .CRIER_FAB_ERR_INFO_WRITE (if write then 1 else 0)).put .CRIER_FAB_ERR_INFO_REQUESTER rq.code)
    else c
  (c.countF .CRIER_FAB_ERR_INFO_COUNT).raise .CRIER_FAB_ERR

end Sys2Proof.Machine
end

