-- ==== Sys2Proof/Machine/OpsTime.lean ====
section
/-!
DEFINITION. The Bellringer's operations: domain time (R58, R59), the servo (R64–R67), the tick grid (R68–R71), band ticks
(R76), TICK_OUT (R78, R79). All times are in sub-nanoseconds of 2^−16 ns.
-/

namespace Sys2Proof.Machine

/-- A PTP time of seconds and nanoseconds registers, in sub-nanoseconds (R58). -/
def Chip.timeOf (c : Chip) (secHi secLo nsReg : Nat) : Nat :=
  ns ((c.nat secHi % 65536 * 2 ^ 32 + c.nat secLo) * 1000000000 + c.nat nsReg % 2 ^ 30)

/-- Whole seconds of a time. -/
def secOf (t : Nat) : Nat := t / 65536 / 1000000000

/-- Nanoseconds within the second of a time. -/
def nsOf (t : Nat) : Nat := t / 65536 % 1000000000

/-- The servo state (BELL_STATUS.STATE): 0 UNSET, 1 ACQUIRE, 2 LOCKED, 3 HOLDOVER, 4 FREE. -/
def Chip.servo (c : Chip) : Nat := c.get .BELL_STATUS_STATE

/-- The epoch E of R68. -/
def Chip.epoch (c : Chip) : Nat :=
  c.timeOf Reg.BELL_EPOCH_SEC_HI Reg.BELL_EPOCH_SEC_LO Reg.BELL_EPOCH_NS

/-- Numerator of the frame rate. -/
def Chip.rateNum (c : Chip) : Nat := c.get .BELL_FRAME_NUM_VALUE

/-- Denominator of the frame rate. -/
def Chip.rateDen (c : Chip) : Nat := c.get .BELL_FRAME_DEN_VALUE

/-- The rate lies between 24000/1001 and 240 Hz (R68). -/
def rateOk (num den : Nat) : Bool :=
  decide (0 < num) && decide (0 < den) && decide (24000 * den ≤ 1001 * num) && decide (num ≤ 240 * den)

/-- The tick grid: t_n = E + round_half_up(n × DEN × 10^9 × 2^16 ÷ NUM) (R68). -/
def gridTime (epoch num den n : Nat) : Nat := epoch + roundDiv (n * den * 1000000000 * 65536) num

/-- The instant of tick n. -/
def Chip.tickTime (c : Chip) (n : Nat) : Nat := gridTime c.epoch c.rateNum c.rateDen n

/-- The tick period P, from one tick to the next. -/
def Chip.period (c : Chip) : Nat := roundDiv (c.rateDen * 1000000000 * 65536) c.rateNum

/-- The band count B in force: 0 when there are no band ticks (BELL_BAND_CFG, R76). -/
def Chip.bands (c : Chip) : Nat :=
  let n := c.get .BELL_BAND_CFG_COUNT
  if n < 2 then 0 else min n 256

/-- The band guard in µs; values below 10 act as 10. -/
def Chip.bandGuard (c : Chip) : Nat := max (c.get .BELL_BAND_CFG_GUARD) 10

/-- The instant of band tick k of tick period n (R76). -/
def Chip.bandTime (c : Chip) (n k : Nat) : Nat :=
  c.tickTime n + roundDiv (k * c.rateDen * 1000000000 * 65536) (c.rateNum * c.bands)

/-- Band ticks are generated: Swift mode with at least two bands (R76). -/
def Chip.banding (c : Chip) : Bool := c.mode == 3 && decide (2 ≤ c.bands)

/-- The guard G in sub-nanoseconds: below 20 µs acts as 20, P ÷ 2 or more acts as P ÷ 2 (BELL_GUARD). -/
def Chip.guard (c : Chip) : Nat := min (max (us 20) (us (c.get .BELL_GUARD_GUARD))) (c.period / 2)

/-- The Bellringer makes ticks of the grid: powered, servo not UNSET, ticks enabled with a valid rate (R70). -/
def Chip.tickSource (c : Chip) : Bool :=
  c.domOn 8 && c.servo != 0 && c.flag .BELL_TICK_CTRL_TICK_EN && rateOk c.rateNum c.rateDen

/-- SYNC_IN is the tick source: MODE 2 at a tile whose servo is not LOCKED (R80, BELL_STATUS.SYNC_TICKS). -/
def Chip.syncTicks (c : Chip) : Bool :=
  c.isTile && c.domOn 8 && c.get .BELL_SYNC_CFG_MODE == 2 && c.servo != 2

/-- Frame ticks are generated now (R70): the grid's, from the epoch on, or a tile's from SYNC_IN (R80). -/
def Chip.ticking (c : Chip) : Bool :=
  (c.tickSource && decide (c.epoch ≤ c.bell.time)) || c.syncTicks

/-- The first index of the grid whose instant is at or after time `t`. -/
def Chip.indexAt (c : Chip) (t : Nat) : Nat :=
  let g := (t - c.epoch) * c.rateNum / (c.rateDen * 1000000000 * 65536)
  if t ≤ c.tickTime (g - 1) then g - 1
  else if t ≤ c.tickTime g then g
  else if t ≤ c.tickTime (g + 1) then g + 1
  else g + 2

/-- The next index the device executes: never one already executed on the grid in force, none passed over, none before the
floor of R72 and R80. -/
def Chip.nextTick (c : Chip) : Nat :=
  let g := c.indexAt (max c.bell.time c.bell.floor)
  match c.bell.gridTick with
  | none => g
  | some n => max (n + 1) g

/-- The index of the last executed tick, 0 when none has been (R37). -/
def Chip.lastIndex (c : Chip) : Nat := c.bell.tick.getD 0

/-- The mean frequency factor of a spread of `d` steps of 0.05 %, in 1/4000: 1 − d × 0.025 % (R93). -/
def spreadMean (d : Nat) : Nat := 4000 - min d 10

/-- What the counter's clock adds to it while `dt` passes (R59): at a tile with an upstream link the clock is the recovered one,
slowed by the spread it measures (SERDES_SSC), and the increment is scaled by the factor the beacons carry. A sender's reference
never spreads. -/
def Chip.counted (c : Chip) (dt : Nat) : Nat :=
  if c.isTile && c.tile.up.isSome then
    dt * spreadMean (if c.flag (.SERDES_SSC_EN 0) then c.get (.SERDES_SSC_DEPTH 0) else 0) / spreadMean c.bell.spread
  else dt

/-- Time passes by `dt`: the counter advances at its corrected rate and takes its share of the phase being slewed out; it never
moves backward (R59, R65). -/
def Chip.elapse (c : Chip) (dt : Nat) : Chip :=
  let b := c.bell
  let run := c.counted dt
  let corr := (run : Int) * b.freq / 2 ^ 48
  let part : Int := if dt ≥ b.slewDur then b.slew else b.slew * dt / b.slewDur
  { c with
    age := c.age + dt
    bell := { b with
      time := max b.time (b.time + run + corr + part).toNat
      slew := b.slew - part
      slewDur := b.slewDur - dt } }

/-- Set domain time. -/
def Chip.setTime (c : Chip) (t : Nat) : Chip := { c with bell := { c.bell with time := t } }

/-- Time passes up to a domain time ahead. -/
def Chip.elapseTo (c : Chip) (t : Nat) : Chip := if c.bell.time < t then (c.elapse (t - c.bell.time)).setTime t else c

/-- Time passes up to an age of the part, if it is still ahead. -/
def Chip.elapseAge (c : Chip) (t : Nat) : Chip := if c.age < t then c.elapse (t - c.age) else c

/-- Set the servo state. -/
def Chip.setServo (c : Chip) (n : Nat) : Chip := c.put .BELL_STATUS_STATE n

/-- The run of measurements within RANGE starts anew. -/
def Chip.clearRun (c : Chip) : Chip := { c with bell := { c.bell with inRange := 0 } }

/-- BELL_OFFSET shows an offset in units of 2^−4 ns, saturating. -/
def Chip.showOffset (c : Chip) (o : Int) : Chip :=
  c.setNat Reg.BELL_OFFSET (wrapTo 32 (max (-2147483648) (min 2147483647 (o / 4096))))

/-- The servo slews out KP × offset over the next interval, at most 100 ppm, and adds KI × offset ÷ interval to its
frequency correction (R65). -/
def Chip.slewBy (c : Chip) (o : Int) (interval : Nat) : Chip :=
  let kp := c.get .BELL_SERVO_GAIN_KP
  let ki := c.get .BELL_SERVO_GAIN_KI
  let lim : Int := interval / 10000
  let s : Int := -(o * kp / 65536)
  { c with bell := { c.bell with
      slew := max (-lim) (min lim s)
      slewDur := interval
      freq := c.bell.freq - (if interval = 0 then 0 else o * ki * 2 ^ 32 / interval) } }

/-- When the servo reaches LOCKED, SYNC_IN stops making ticks, and the tile's next tick lies at least 1 µs ahead (R80). -/
def Chip.lockServo (c : Chip) : Chip :=
  let c := if c.syncTicks then { c with bell := { c.bell with floor := c.bell.time + us 1 } } else c
  (c.setServo 2).raise .BELL_LOCKED

/-- A new grid begins: its indices have not been executed, whatever the last one of the old grid was (R68, R72). -/
def Chip.newGrid (c : Chip) : Chip :=
  { c with bell := { c.bell with
      gridTick := none
      floor := max c.bell.floor (c.bell.time + 1)
      echoed := [0, 0] } }

/-- A measurement is applied: phase and frequency corrected, then the state moves under R66. -/
def Chip.trackOffset (c : Chip) (o : Int) (interval : Nat) : Chip :=
  let range := c.get .BELL_SERVO_RANGE_RANGE
  let within := decide (o.natAbs ≤ ns range)
  let c := (c.slewBy o interval).put .BELL_STATUS_REFUSING 0
  match c.servo with
  | 1 =>
    if within then
      let run := c.bell.inRange + 1
      let c := { c with bell := { c.bell with inRange := run } }
      if 16 ≤ run ∧ range ≠ 0 then c.lockServo else c
    else c.clearRun
  | 2 => if within || range == 0 then c else ((c.setServo 1).clearRun).raise .BELL_OUT_OF_RANGE
  | _ => (c.setServo 1).clearRun

/-- A step is wanted; its point is 1 µs after the next executed tick, which a later wish before it does not move (R67). -/
def Chip.wantStep (c : Chip) : Chip :=
  if c.bell.stepPending then c else { c with bell := { c.bell with stepPending := true, stepArmedTick := c.bell.tick } }

/-- The indices a forward step from `a` to `b` passes over: those of the grid with a ≤ t_n < b not yet executed (R67). -/
def Chip.skipped (c : Chip) (a b : Nat) : Nat :=
  if c.tickSource then
    let lo := max (c.indexAt (max a c.epoch)) (match c.bell.gridTick with | none => 0 | some n => n + 1)
    let hi := c.indexAt (max b c.epoch)
    hi - lo
  else 0

/-- A pulse of an armed output that lies in the range a step passed over is dropped (R79). -/
def toutPassed (t : Tout) (periodNs : Nat) (a b : Nat) : Option Nat :=
  let next := if t.mode = 1 then t.start else t.start + t.k * ns periodNs
  if a ≤ next ∧ next < b then
    some (if t.mode = 1 ∨ periodNs = 0 then 0 else (b - t.start + ns periodNs - 1) / ns periodNs)
  else none

/-- PERIOD_NS as it acts: 1–19 act as 20. -/
def Chip.toutPeriod (c : Chip) (pin : Nat) : Nat :=
  let p := c.nat (Reg.BELL_TOUT_PERIOD_NS pin)
  if p = 0 then 0 else max p 20

/-- TOUTn_MISSED of a pin. -/
def toutMissed (pin : Nat) : Ev := if pin = 0 then .BELL_TOUT0_MISSED else .BELL_TOUT1_MISSED

/-- What a step does to one armed output of mode 1 or 2 (R79). -/
def Chip.toutStep (c : Chip) (pin a b : Nat) (t : Tout) : Chip :=
  match toutPassed t (c.toutPeriod pin) a b with
  | none => c
  | some k =>
    let t' := if t.mode = 1 ∨ c.toutPeriod pin = 0 then none else some { t with k := k }
    { c with bell := { c.bell with tout := listPut c.bell.tout pin t' } }.raise (toutMissed pin)

/-- MODE of a TICK_OUT pin as it acts: 5–7 act as 0. -/
def Chip.toutMode (c : Chip) (pin : Nat) : Nat :=
  let m := c.get (.BELL_TOUT_CFG_MODE pin)
  if m < 5 then m else 0


/-- OFFSET of a pin taken modulo the tick period, or in mode 4 with bands modulo the band period in whole ns (R79). -/
def Chip.toutOffset (c : Chip) (pin : Nat) : Nat :=
  let o := signOf 32 (c.nat (Reg.BELL_TOUT_OFFSET pin))
  if c.toutMode pin = 4 ∧ c.banding = true then
    ns (o % ((c.rateDen * 1000000000 / (c.rateNum * c.bands) : Nat) : Int)).toNat
  else (o * 65536 % (c.period : Int)).toNat


/-- The instant of the pulse a pin gives next: for modes 3 and 4 the echo of the last executed tick, or of its band tick
`k`. -/
def Chip.toutInstant (c : Chip) (pin : Nat) (t : Tout) (k : Nat) : Nat :=
  match t.mode with
  | 1 => t.start
  | 2 => t.start + t.k * ns (c.toutPeriod pin)
  | 4 =>
    if c.banding = true ∧ k ≠ 0 then c.bandTime c.lastIndex k + c.toutOffset pin
    else c.bell.tickTime + c.toutOffset pin
  | _ => c.bell.tickTime + c.toutOffset pin


/-- The pulses an echoing output gives in a tick period: one, or in mode 4 one for each band while band ticks are generated. -/
def Chip.echoes (c : Chip) (t : Tout) : Nat := if t.mode = 4 && c.banding then c.bands else 1

/-- The mark of the last executed tick's echo, or of its band tick `k`: a later one is greater. -/
def Chip.echoMark (c : Chip) (k : Nat) : Nat := c.lastIndex * 256 + k + 1

/-- A pin's echoes up to a mark are given or dropped, whatever is armed later (R79). -/
def Chip.setEchoed (c : Chip) (pin m : Nat) : Chip := { c with bell := { c.bell with echoed := listPut c.bell.echoed pin m } }

/-- What a step does to an output that echoes ticks (R79): the echoes of the last executed tick and of its band ticks that it
passes over are dropped. An echo is marked by its tick and band tick. -/
def Chip.echoStep (c : Chip) (pin a b : Nat) (t : Tout) : Chip :=
  let gone := (List.range (c.echoes t)).filter fun k =>
    decide (listAt c.bell.echoed pin 0 < c.echoMark k) && decide (a ≤ c.toutInstant pin t k) && decide (c.toutInstant pin t k < b)
  match gone.reverse with
  | k :: _ => if c.bell.tick.isNone then c else (c.setEchoed pin (c.echoMark k)).raise (toutMissed pin)
  | [] => c

/-- What a step does to a pin. -/
def Chip.pinStep (c : Chip) (pin a b : Nat) : Chip :=
  match listAt c.bell.tout pin none with
  | none => c
  | some t => if 3 ≤ t.mode then c.echoStep pin a b t else c.toutStep pin a b t

/-- A released group whose named tick a step passes over applies at the first tick afterwards, with REL_LATE (R39, R67). -/
def Chip.releaseStep (c : Chip) (a b : Nat) : Chip :=
  let passed := fun (x : Commit) => match x.released with
    | some ⟨some n, _⟩ => c.tickSource && decide (a ≤ c.tickTime n) && decide (c.tickTime n < b)
    | _ => false
  if c.fab.commits.any passed then
    let c := c.onFab fun f => { f with
      commits := f.commits.map fun x => if passed x then { x with released := x.released.map fun r => ⟨none, r.at_⟩ } else x }
    (c.put .CRIER_FAB_STAT_REL_LATE 1).raise .CRIER_REL_LATE
  else c

/-- A tile whose mode-switch tick a step passes over keeps its old mode and reports MODE_MISS (R23, R67). -/
def Chip.modeStep (c : Chip) (a b : Nat) : Chip :=
  match c.tile.arm with
  | some m =>
    if c.isTile && c.tickSource && decide (a ≤ c.tickTime m.n ∧ c.tickTime m.n < b) then
      { c with tile := { c.tile with arm := none, modeMiss := true } }
    else c
  | none => c

/-- Local time moves to `b` at once, and drops the pulses it passes over (R79). -/
def Chip.jumpTo (c : Chip) (b : Nat) : Chip :=
  let a := c.bell.time
  (((c.pinStep 0 a b).pinStep 1 a b).setTime b).onLamp fun l => { l with
    grid := l.grid.map fun g => { g with anchor := g.anchor + b - a }
    next := l.next.map fun g => { g with anchor := g.anchor + b - a } }

/-- The step itself: local time moves to the source's, skipped indices are counted, what was named for a skipped tick
follows its own rule, the servo acquires, STEP_DONE is raised (R66, R67). With JUMP_THR = 0 several measurements may come before
the step point: the step goes to the latest. DESIGN CHOICE, log entry 157. -/
def Chip.doStep (c : Chip) : Chip :=
  let a := c.bell.time
  let b := ((a : Int) - c.bell.offset).toNat
  let n := c.skipped a b
  let c := ((c.releaseStep a b).modeStep a b).jumpTo b
  let c := if n = 0 then c
    else (c.put .BELL_TICK_SKIP_COUNT (min (c.get .BELL_TICK_SKIP_COUNT + n) 0xffff)).raise .BELL_TICK_SKIPPED
  let c := { c with bell := { c.bell with stepPending := false, slew := 0, inRange := 0 } }
  ((c.put .BELL_STATUS_REFUSING 0).setServo 1).raise .BELL_STEP_DONE

/-- A measured offset enters the servo (R65, R66). `interval` is the time since the last measurement. -/
def Chip.measure (c : Chip) (o : Int) : Chip :=
  let interval := c.age - c.bell.measAt
  let c := { c with bell := { c.bell with offset := o, measAt := c.age } }.showOffset o
  let thr := c.nat Reg.BELL_JUMP_THR
  let range := c.get .BELL_SERVO_RANGE_RANGE
  if c.servo = 0 then
    ((c.jumpTo ((c.bell.time : Int) - o).toNat).setServo 1).clearRun
  else if thr ≠ 0 ∧ ns thr < o.natAbs then
    ((c.when (decide (ns range < o.natAbs)) Chip.clearRun).put .BELL_STATUS_REFUSING 1).raise .BELL_TIME_JUMP_REFUSED
  else if thr = 0 ∧ ns range < o.natAbs then
    let c := if c.servo = 2 then c.raise .BELL_OUT_OF_RANGE else c
    let c := ((c.setServo 1).clearRun).put .BELL_STATUS_REFUSING 0
    if c.ticking then c.wantStep else c.doStep
  else c.trackOffset o interval

/-- The source is lost: ACQUIRE and LOCKED go to HOLDOVER, the frequency correction kept (R66). -/
def Chip.sourceGone (c : Chip) : Chip :=
  if c.servo = 1 ∨ c.servo = 2 then (((c.setServo 3).clearRun).raise .BELL_HOLDOVER) else c

/-- The time in BELL_SET. -/
def Chip.setValue (c : Chip) : Nat := c.timeOf Reg.BELL_SET_SEC_HI Reg.BELL_SET_SEC_LO Reg.BELL_SET_NS

/-- STEP_CTRL.SET: in UNSET or FREE, load BELL_SET with sub-ns 0 (R66). -/
def Chip.loadSet (c : Chip) : Chip :=
  if c.servo = 0 ∨ c.servo = 4 then (c.jumpTo c.setValue).setServo 4 else c

/-- STEP_CTRL.FORCE_STEP: while REFUSING is 1 and not in UNSET, step at the step point (R66, R67). -/
def Chip.forceStep (c : Chip) : Chip :=
  if c.servo ≠ 0 && c.flag .BELL_STATUS_REFUSING then
    if c.ticking then c.wantStep else c.doStep
  else c

/-- The tick parameters in force, as a beacon carries them (R62). -/
def Chip.params (c : Chip) : TickParams :=
  { num := c.rateNum, den := c.rateDen, epoch := c.epoch
    guard := c.get .BELL_GUARD_GUARD, band := c.nat Reg.BELL_BAND_CFG
    en := c.flag .BELL_TICK_CTRL_TICK_EN, spread := 0 }

/-- A tile takes the parameters of the beacons into its registers, the shadowed ones with their shadows. Where ticks resume on a
new grid, or the grid changes under them, the next tick lies at least 1 ms ahead; on the same grid none is lost (R72). -/
def Chip.adopt (c : Chip) (p : TickParams) : Chip :=
  let resume := p.en && !(c.flag .BELL_TICK_CTRL_TICK_EN)
  let grid := p.num != c.rateNum || p.den != c.rateDen || p.epoch != c.epoch
  let c := (c.setNat Reg.BELL_FRAME_NUM p.num).setNat Reg.BELL_FRAME_DEN p.den
  let c := ((c.setNat Reg.BELL_EPOCH_NS (nsOf p.epoch)).setNat Reg.BELL_EPOCH_SEC_LO (secOf p.epoch)).setNat
    Reg.BELL_EPOCH_SEC_HI (secOf p.epoch / 2 ^ 32)
  let both := fun (c : Chip) (a n : Nat) => (c.setNat a n).wrS a (BitVec.ofNat 32 n)
  let c := (both (both c Reg.BELL_GUARD p.guard) Reg.BELL_BAND_CFG p.band).put .BELL_TICK_CTRL_TICK_EN (if p.en then 1 else 0)
  let c := (c.put .BELL_STATUS_SPREAD (if p.spread = 0 then 0 else 1)).onBell fun x => { x with spread := p.spread }
  let c := if grid then c.newGrid else c
  if p.en && (resume || grid) && c.bell.gridTick.isNone then c.onBell fun x => { x with floor := x.time + ms 1 } else c

/-- Of a beacon's parameters those that the beacon before carried too; the others as they are in force. The rate is one value. -/
def settled (p last now : TickParams) : TickParams :=
  let rate := p.num == last.num && p.den == last.den
  { num := if rate then p.num else now.num, den := if rate then p.den else now.den
    epoch := if p.epoch = last.epoch then p.epoch else now.epoch
    guard := if p.guard = last.guard then p.guard else now.guard
    band := if p.band = last.band then p.band else now.band
    en := if p.en = last.en then p.en else now.en
    spread := if p.spread = last.spread then p.spread else now.spread }

/-- Each parameter's changed value is adopted when two consecutive beacons carry it (R72). -/
def Chip.offerParams (c : Chip) (p : TickParams) : Chip :=
  let now := { c.params with spread := c.bell.spread }
  let new := match c.bell.lastBeacon with
    | some l => settled p l now
    | none => now
  let c := c.onBell fun x => { x with lastBeacon := some p }
  if new = now then c else c.adopt new

/-- START of a TICK_OUT pin. -/
def Chip.toutStart (c : Chip) (pin : Nat) : Nat :=
  c.timeOf (Reg.BELL_TOUT_START_SEC_HI pin) (Reg.BELL_TOUT_START_SEC_LO pin) (Reg.BELL_TOUT_START_NS pin)

/-- Arm a TICK_OUT pin from its CFG as just written: a one-shot in the past is missed, a periodic output begins at its
first future instant (R78, R79). -/
def Chip.armTout (c : Chip) (pin : Nat) : Chip :=
  let start := c.toutStart pin
  let p := c.toutPeriod pin
  let past := decide (start < c.bell.time)
  let put := fun (c : Chip) (t : Option Tout) => { c with bell := { c.bell with tout := listPut c.bell.tout pin t } }
  match c.toutMode pin with
  | 1 => if past then (put c none).raise (toutMissed pin) else put c (some ⟨1, start, 0⟩)
  | 2 =>
    if p = 0 then if past then (put c none).raise (toutMissed pin) else put c (some ⟨2, start, 0⟩)
    else put c (some ⟨2, start, if past then (c.bell.time - start + ns p - 1) / ns p else 0⟩)
  | 3 => put c (some ⟨3, 0, 0⟩)
  | 4 => put c (some ⟨4, 0, 0⟩)
  | _ => put c none

/-- The pulse width in ns: 0 acts as 1 unit of 10 ns; PERIOD_NS or more is cut to PERIOD_NS − 10 ns (R79). -/
def Chip.toutWidth (c : Chip) (pin : Nat) : Nat :=
  let w := max (c.get (.BELL_TOUT_CFG_WIDTH pin)) 1 * 10
  let p := c.toutPeriod pin
  if c.toutMode pin = 2 ∧ p ≠ 0 ∧ p ≤ w then p - 10 else w

/-- A pin gives its pulse: recorded with its instant, width and level; a one-shot is spent, a periodic output moves on,
an echo is given once for each tick and band tick (R78, R79: a pulse is never given twice). -/
def Chip.givePulse (c : Chip) (pin k : Nat) : Chip :=
  match listAt c.bell.tout pin none with
  | none => c
  | some t =>
    let at_ := c.toutInstant pin t k
    let new := c.bell.tick.isSome && decide (k < c.echoes t) && decide (listAt c.bell.echoed pin 0 < c.echoMark k)
    let give := fun (c : Chip) =>
      (c.elapseTo at_).emit (.pulse pin at_ (c.toutWidth pin) (c.flag (.BELL_TOUT_CFG_POL pin)))
    let keep := fun (c : Chip) (t : Option Tout) => { c with bell := { c.bell with tout := listPut c.bell.tout pin t } }
    match t.mode with
    | 1 => keep (give c) none
    | 2 => keep (give c) (if c.toutPeriod pin = 0 then none else some { t with k := t.k + 1 })
    | _ => if new then (give c).setEchoed pin (c.echoMark k) else c

end Sys2Proof.Machine
end

