-- ==== Sys2Proof/Machine/OpsWire.lean ====
section
/-!
DEFINITION. What goes over a Ronuno lane: 66-bit blocks and the scrambler (R84, R85), alignment markers and BIP8 (R87 to R89),
the two lanes of a port (R86), the driver's taps (R96), test patterns (R103); and the bytes of a cell: header and HCRC (R106),
trailer (R107), the layouts of R112, R114, R118, R119, R129 to R131 and of an ANSWER, with the IV and data of its tag (R122).
-/

namespace Sys2Proof.Machine

/-- Bytes of a number most significant first (R4). -/
def beBytes (n v : Nat) : List Byte := (leBytes n v).reverse

/-- A number from bytes most significant first. -/
def beNat (l : List Byte) : Nat := leNat l.reverse

/-! ### Blocks and scrambling -/

/-- A header that opens a block: 01 data or 10 control (R84). -/
def Block.valid (b : Block) : Bool := b.hdr == 1 || b.hdr == 2

/-- Byte j of a block's payload, as a number. -/
def Block.byte (b : Block) (j : Nat) : Nat := (listAt b.pay j 0).toNat

/-- The idle block (R84). -/
def idleBlock : Block := ⟨2, 0x1e :: leBytes 7 0⟩

/-- The error block, which stands for a block with an invalid header (R107). -/
def errorBlock : Block := ⟨2, 0xe1 :: leBytes 7 0⟩

/-- A block whose 66 bits are all inverted. -/
def Block.inverted (b : Block) : Block := ⟨3 - b.hdr % 4, b.pay.map (~~~ ·)⟩

/-- Bits of bytes in transmission order: each byte's most significant bit first (R4). -/
def bitsOfBytes (l : List Byte) : List Bool := l.flatMap fun b => (List.range 8).map fun j => bitAt b.toNat (7 - j)

/-- Bytes from bits in transmission order. -/
def bytesOfBits : Nat → List Bool → List Byte
  | 0, _ => []
  | n + 1, l => BitVec.ofNat 8 ((l.take 8).foldl (fun a b => 2 * a + b.toNat) 0) :: bytesOfBits n (l.drop 8)

/-- One more bit enters the last 58 bits of a lane, the newest lowest. -/
def shift58 (s : Nat) (b : Bool) : Nat := (2 * s + b.toNat) % 2 ^ 58

/-- The bit that x^58 + x^39 + 1 combines with the next one (R85): the bits 39 and 58 before it. -/
def scrBit (s : Nat) : Bool := bitAt s 38 ^^ bitAt s 57

/-- Scramble bits from a state: the new state and the bits sent (R85). -/
def scramble (s : Nat) : List Bool → Nat × List Bool
  | [] => (s, [])
  | b :: r =>
    let o := b ^^ scrBit s
    let x := scramble (shift58 s o) r
    (x.1, o :: x.2)

/-- Descramble received bits from a state: the new state and the bits meant (R85). -/
def descramble (s : Nat) : List Bool → Nat × List Bool
  | [] => (s, [])
  | b :: r =>
    let x := descramble (shift58 s b) r
    (x.1, (b ^^ scrBit s) :: x.2)

/-- A block as a lane sends it, its payload scrambled, with the state after it. -/
def scrBlock (s : Nat) (b : Block) : Nat × Block :=
  let x := scramble s (bitsOfBytes b.pay)
  (x.1, ⟨b.hdr, bytesOfBits 8 x.2⟩)

/-- A received block with its payload descrambled, and the state after it. -/
def desBlock (s : Nat) (b : Block) : Nat × Block :=
  let x := descramble s (bitsOfBytes b.pay)
  (x.1, ⟨b.hdr, bytesOfBits 8 x.2⟩)

/-- Descramble a run of received blocks. -/
def desBlocks (s : Nat) : List Block → Nat × List Block
  | [] => (s, [])
  | b :: r =>
    let x := desBlock s b
    let y := desBlocks x.1 r
    (y.1, x.2 :: y.2)

/-! ### Markers -/

/-- BIP8 over one more block's payload as sent (R88): bit j in transmission order is the XOR of payload bits j, j + 8 and so on,
which the bytes' XOR holds in the same order. -/
def bipStep (v : Nat) (b : Block) : Nat := b.pay.foldl (fun v x => v ^^^ x.toNat) v

/-- BIP8 of a run of blocks. -/
def bip8 (l : List Block) : Nat := l.foldl bipStep 0

/-- The marker of a lane (R87). -/
def markerBlock (lane seq bip : Nat) : Block :=
  ⟨2, BitVec.ofNat 8 0xa5 :: BitVec.ofNat 8 lane :: (beBytes 2 seq ++
    [BitVec.ofNat 8 bip, 0x5a, BitVec.ofNat 8 (255 - lane % 256), BitVec.ofNat 8 (255 - bip % 256)])⟩

/-- A received block is a valid marker (R89). -/
def Block.isMarker (b : Block) : Bool :=
  b.hdr == 2 && b.pay.length == 8 && b.byte 0 == 0xa5 && b.byte 5 == 0x5a && b.byte 1 + b.byte 6 == 255 &&
    b.byte 4 + b.byte 7 == 255

/-- LANE of a marker. -/
def Block.laneId (b : Block) : Nat := b.byte 1

/-- SEQ of a marker. -/
def Block.seq (b : Block) : Nat := beNat ((b.pay.drop 2).take 2)

/-- BIP8 of a marker. -/
def Block.bip (b : Block) : Nat := b.byte 4

/-- Bits of a byte that are 1. -/
def ones8 (v : Nat) : Nat := ((List.range 8).filter (bitAt v)).length

/-- Blocks of one lane between two markers (R87). -/
def periodBlocks : Nat := 16383

/-- A lane sends a block: its state, and the block as it leaves. -/
def Lane.send (l : Lane) (b : Block) : Lane × Block :=
  let x := scrBlock l.scr b
  ({ l with scr := x.1, bip := bipStep l.bip x.2 }, x.2)

/-- A lane sends a marker, which bypasses the scrambler, and counts BIP8 anew (R85, R87, R88). -/
def Lane.sendMarker (l : Lane) (id seq : Nat) : Lane × Block := ({ l with bip := 0 }, markerBlock id seq l.bip)

/-- A port's two lanes with what each has sent, newest first, and the port's transmit side. -/
structure Pairing where
  t : Tx
  l0 : Lane
  l1 : Lane
  b0 : List Block
  b1 : List Block
  deriving DecidableEq, Repr

/-- Both lanes of a port send their markers, in one block slot (R86). -/
def Pairing.mark (p : Pairing) (seq : Nat) : Pairing :=
  let x := p.l0.sendMarker 0 seq
  let y := p.l1.sendMarker 1 seq
  { p with t := { p.t with pos := 0 }, l0 := x.1, l1 := y.1, b0 := x.2 :: p.b0, b1 := y.2 :: p.b1 }

/-- One block of a port's stream goes on the lane whose turn it is: after a marker lane 0, then lane 1, and so on (R86). A port that
sources its own markers sends them first when its 2 × 16,383 blocks are out, with the next SEQ (R87). -/
def Pairing.deal (own : Bool) (p : Pairing) (b : Block) : Pairing :=
  let p := if own && decide (2 * periodBlocks ≤ p.t.pos) then
      let q := p.mark p.t.seq
      { q with t := { q.t with seq := (p.t.seq + 1) % 65536 } }
    else p
  if p.t.pos % 2 = 0 then
    let x := p.l0.send b
    { p with t := { p.t with pos := p.t.pos + 1 }, l0 := x.1, b0 := x.2 :: p.b0 }
  else
    let x := p.l1.send b
    { p with t := { p.t with pos := p.t.pos + 1 }, l1 := x.1, b1 := x.2 :: p.b1 }

/-- A port's block stream rebuilt from what its lanes brought between two markers, lane 0's block first (R86). -/
def rejoin : List Block → List Block → List Block
  | [], m => m
  | a :: l, m => a :: (match m with | [] => l | b :: r => b :: rejoin l r)

/-! ### Driver and test patterns -/

/-- Taps of a preset (R96): PRE, POST. -/
def presetTaps (k : Nat) : Nat × Nat :=
  match k with
  | 0 => (0, 0)
  | 1 => (0, 6)
  | 2 => (0, 12)
  | 3 => (4, 8)
  | 4 => (4, 14)
  | 5 => (6, 18)
  | 6 => (8, 22)
  | _ => (10, 24)

/-- Taps and swing of a SERDES_Lk_TX value (R96): pre-cursor, main and post-cursor in 1/63 of the swing, the swing in mV. -/
def driverOf (v : Word) : (Nat × Nat × Nat) × Nat :=
  let x := if bitsOf v 15 15 = 1 then (bitsOf v 7 4, bitsOf v 12 8) else presetTaps (bitsOf v 2 0)
  ((x.1, 63 - x.1 - x.2, x.2), 400 + 100 * bitsOf v 18 16)

/-- The exponents of a pattern's polynomial (R103); 5 to 7 act as 4. -/
def prbsTaps (k : Nat) : Nat × Nat :=
  match k with
  | 0 => (7, 6)
  | 1 => (9, 5)
  | 2 => (15, 14)
  | 3 => (23, 18)
  | _ => (31, 28)

/-- The bit a pattern's polynomial gives after the bits in a register, newest lowest (R103). -/
def prbsNext (k reg : Nat) : Bool := bitAt reg ((prbsTaps k).1 - 1) ^^ bitAt reg ((prbsTaps k).2 - 1)

/-- A bit enters a pattern register of 31 bits. -/
def prbsShift (reg : Nat) (b : Bool) : Nat := (2 * reg + b.toNat) % 2 ^ 31

/-- The next bits of a generator: its register after them, and the bits (R103). -/
def prbsBits (k : Nat) : Nat → Nat → Nat × List Bool
  | reg, 0 => (reg, [])
  | reg, n + 1 =>
    let b := prbsNext k reg
    let x := prbsBits k (prbsShift reg b) n
    (x.1, b :: x.2)

/-! ### Cells -/

/-- CRC-8 of x^8 + x^2 + x + 1 after one bit. -/
def crc8Bit (v : Nat) : Nat := if 128 ≤ v then (2 * v) % 256 ^^^ 7 else 2 * v

/-- HCRC (R106): CRC-8 of bytes from 0. -/
def crc8 (l : List Byte) : Nat := l.foldl (fun v b => (List.range 8).foldl (fun v _ => crc8Bit v) (v ^^^ b.toNat)) 0

/-- A CRC register after one bit, reflected polynomial `poly`. -/
def crcBit (poly v : Nat) : Nat := if v % 2 = 1 then (v / 2) ^^^ poly else v / 2

/-- A CRC register after one byte. -/
def crcByte (poly v : Nat) (b : Nat) : Nat := (List.range 8).foldl (fun v _ => crcBit poly v) (v ^^^ b)

/-- CRC-32C of bytes, from a register value (R107). -/
def crc32c (v : Nat) (l : List Nat) : Nat := l.foldl (crcByte 0x82f63b78) v

/-- Bytes padded with zeros to whole blocks. -/
def padBlock (l : List Byte) : List Byte := l ++ leBytes ((8 - l.length % 8) % 8) 0

/-- A record's type and value (R130, R331). -/
def Rec.value : Rec → Nat × List Byte
  | .completion t s k d l => (1, beBytes 4 t ++ beBytes 1 s ++ beBytes 1 k ++ beBytes 1 d.toNat ++ l)
  | .event p b n => (2, beBytes 2 p ++ beBytes 4 b ++ beBytes 2 (min n 65535))
  | .telemetry s l => (3, beBytes 2 s ++ l)
  | .modeAck n m => (4, beBytes 4 n ++ beBytes 1 m)
  | .boot i f l s => (5, beBytes 4 i ++ beBytes 4 f ++ beBytes 4 l ++ beBytes 1 s)
  | .muteReport w u o k => (6, beBytes 2 w ++ beBytes 2 u ++ beBytes 1 (wrapTo 8 o) ++ beBytes 1 k.toNat)
  | .drops n => (7, beBytes 4 (min n 0xffffffff))
  | .mandate h e => (8, beBytes 1 h ++ beBytes 4 e)
  | .presence s e f t => (9, beBytes 1 s.toNat ++ beBytes 1 e.toNat ++ beBytes 4 f ++ beBytes 4 t)

/-- A record's bytes: type, length, value (R130). -/
def Rec.bytes (r : Rec) : List Byte := beBytes 1 r.value.1 ++ beBytes 1 r.value.2.length ++ r.value.2

/-- The 112 bytes of a SLOT before its tag (R129). -/
def Slot.bytes (s : Slot) : List Byte :=
  beBytes 2 s.wdn ++ beBytes 1 s.rseq ++ beBytes 1 0 ++ beBytes 2 s.shown ++ beBytes 2 s.status ++ beBytes 4 s.offset ++
    beBytes 2 s.seqU ++ beBytes 4 s.b1 ++ beBytes 4 s.b2 ++ beBytes 2 s.seqD ++ beBytes 4 s.a1 ++ beBytes 4 s.a2 ++
    ((s.recs.flatMap Rec.bytes) ++ leBytes 80 0).take 80

/-- The 128 bytes of an ANSWER. -/
def Answer.bytes (a : Answer) : List Byte :=
  beBytes 8 a.serial ++ beBytes 2 a.depth ++ beBytes 1 a.state ++ beBytes 1 a.kind ++ beBytes 2 a.part ++ beBytes 2 0 ++
    (a.body ++ leBytes 112 0).take 112

/-- A RACK's bitmap (R131): bit u is bit 7 − u mod 8 of byte u ÷ 8. -/
def rackBitmap (units : List Nat) : List Byte :=
  (List.range 128).map fun k => BitVec.ofNat 8 ((List.range 8).foldl (fun a j => 2 * a + (if units.contains (8 * k + j) then 1 else 0)) 0)

/-- Blocks 1 to 7 of a beacon (R112). -/
def Beacon.bytes (b : Beacon) : List Byte :=
  let o := b.origin
  let e := b.params.epoch
  let flags := (if b.params.en then 128 else 0) + (if b.tagged then 64 else 0) + b.params.spread % 16
  beBytes 6 (o / 65536 / 1000000000) ++ beBytes 2 o ++ beBytes 4 (o / 65536 % 1000000000) ++ beBytes 2 b.bseq ++ beBytes 2 0 ++
    beBytes 8 (wrapTo 64 b.corr) ++ beBytes 3 b.params.num ++ beBytes 3 b.params.den ++ beBytes 2 b.params.guard ++
    beBytes 6 (e / 65536 / 1000000000) ++ beBytes 2 (b.params.band % 512) ++ beBytes 4 (e / 65536 % 1000000000) ++
    beBytes 1 (b.params.band / 65536) ++ beBytes 1 flags ++ beBytes 1 b.mode ++ beBytes 1 0 ++ beBytes 2 b.retStart ++
    beBytes 1 b.ansSlots ++ beBytes 2 b.census ++ beBytes 2 b.switch ++ beBytes 1 0

/-- A cell's type code (R105). -/
def Cell.type : Cell → Nat
  | .rack _ _ => 0x2d
  | .beacon _ => 0x33
  | .command _ _ => 0x4b
  | .boot _ _ _ _ => 0x55
  | .pixel _ _ _ => 0x66
  | .slot _ _ => 0x78
  | .answer _ _ => 0x87
  | .census _ => 0x96
  | .muted _ => 0xb4
  | .idle => 0x1e

/-- The types that travel in the return direction (R105). -/
def Cell.returns (x : Cell) : Bool := [0x78, 0x87, 0x96, 0xb4].contains x.type

/-- A cell's data before its tag. -/
def Cell.body : Cell → List Byte
  | .beacon b => b.bytes
  | .rack _ u => rackBitmap u
  | .command _ x =>
    beBytes 8 x.ctr ++ beBytes 4 x.token ++ beBytes 1 x.op ++
      beBytes 1 ((if x.unauth then 128 else 0) + if x.replay then 64 else 0) ++ beBytes 2 x.data.length ++ beBytes 4 x.addr ++
      beBytes 4 x.arg ++ padBlock x.data
  | .boot _ i o d => beBytes 4 i ++ beBytes 4 o ++ padBlock d
  | .pixel _ p d =>
    beBytes 2 p.frame ++ beBytes 2 p.off ++ beBytes 2 p.npix ++
      beBytes 1 ((if p.last then 128 else 0) + (if p.enc then 64 else 0) + p.code % 4) ++ beBytes 1 0 ++ padBlock d
  | .slot _ s => s.bytes
  | .answer _ a => a.bytes
  | .census _ => []
  | .muted _ => []
  | .idle => []

/-- Does a cell carry a tag: beacons, RACKs, commands and slots, and a slice's last pixel cell? -/
def Cell.hasTag : Cell → Bool
  | .beacon _ => true
  | .rack _ _ => true
  | .command _ _ => true
  | .pixel _ p _ => p.last
  | .slot _ _ => true
  | _ => false

/-- Does a cell have data blocks, the last of them its trailer (R107)? -/
def Cell.hasData (x : Cell) : Bool := !([0x96, 0xb4, 0x1e].contains x.type)

/-- LEN: the data blocks that follow the start block (R105). -/
def Cell.len (x : Cell) : Nat := if x.hasData then x.body.length / 8 + (if x.hasTag then 2 else 0) + 1 else 0

/-- Blocks of a cell with its start block. -/
def Cell.blocks (x : Cell) : Nat := x.len + 1

/-- The header a cell carries (R106); a beacon, a RACK, a slot, an answer, a CENSUS and a MUTED cell name in AMODE and DEST what
R106 and R112 say, and a RACK all tiles of the chain, an answer WDN 0 (log entry 161). -/
def Cell.hdrOf (ke sidx port : Nat) : Cell → Hdr
  | .command h _ => h
  | .boot h _ _ _ => h
  | .pixel h _ _ => h
  | .beacon _ => ⟨3, 0, ke, sidx, port⟩
  | .rack _ _ => ⟨3, 0, ke, sidx, port⟩
  | .slot _ s => ⟨0, s.wdn, ke, sidx, port⟩
  | .answer _ _ => ⟨0, 0, 0, sidx, port⟩
  | .census d => ⟨0, d, 0, sidx, port⟩
  | .muted w => ⟨0, w, 0, sidx, port⟩
  | .idle => ⟨0, 0, 0, 0, 0⟩

/-- Bytes 0 to 6 of a cell's start block (R106). -/
def Cell.start (x : Cell) (h : Hdr) : List Byte :=
  match x with
  | .idle => 0x1e :: leBytes 6 0
  | _ => beBytes 1 x.type ++ beBytes 1 (h.amode % 4 * 64 + h.ke % 2 * 32 + x.len / 256 % 16) ++ beBytes 1 x.len ++
      beBytes 2 h.dest ++ beBytes 1 (h.sidx % 64) ++ beBytes 1 (h.port % 16)

/-- The HCRC of a cell. -/
def Cell.hcrc (x : Cell) (h : Hdr) : Nat :=
  match x with
  | .idle => 0
  | _ => crc8 (x.start h)

/-- The trailer's CRC-32C of a cell with its tag bytes (R107). -/
def Cell.crc (x : Cell) (h : Hdr) (tag : List Byte) : Nat :=
  crc32c 0xffffffff ((x.start h ++ x.body ++ if x.hasTag then tag else []).map (·.toNat)) ^^^ 0xffffffff

/-- Blocks of data bytes. -/
def dataRun : Nat → List Byte → List Block
  | 0, _ => []
  | n + 1, l => ⟨1, l.take 8⟩ :: dataRun n (l.drop 8)

/-- The blocks of a cell with HCRC, tag and trailer CRC as given (R105 to R107). -/
def Cell.wire (x : Cell) (h : Hdr) (hcrc : Nat) (tag : List Byte) (crc : Nat) : List Block :=
  ⟨2, x.start h ++ [BitVec.ofNat 8 hcrc]⟩ ::
    dataRun x.len (x.body ++ (if x.hasTag then tag else []) ++ beBytes 4 crc ++ leBytes 4 0)

/-- The blocks of a cell as its sender makes it. -/
def Cell.made (x : Cell) (h : Hdr) (tag : List Byte) : List Block := x.wire h (x.hcrc h) tag (x.crc h tag)

/-- A cell that came whole with both its CRCs right and the tag bytes given. -/
def Cell.sound (x : Cell) (h : Hdr) (tag : List Byte) : Rx := ⟨[], x.hcrc h, tag, x.crc h tag, none⟩

/-- No tag: zero bytes (R112, R116). -/
def zeroTag : List Byte := leBytes 16 0

/-! ### Tags -/

/-- The last eight bytes of a tag's IV (R122); `n` is the tick index. -/
def Cell.ivTail (n : Nat) : Cell → List Byte
  | .beacon b => beBytes 4 (b.origin / 65536 / 1000000000) ++ beBytes 4 (b.origin / 65536 % 1000000000)
  | .command _ x => beBytes 8 x.ctr
  | .pixel h _ _ => beBytes 2 h.dest ++ beBytes 6 n
  | .rack t _ => beBytes 8 t
  | .slot u s => beBytes 2 s.wdn ++ beBytes 4 n ++ beBytes 2 u
  | _ => leBytes 8 0

/-- A tag's 96-bit IV (R122). -/
def Cell.iv (x : Cell) (h : Hdr) (epoch n : Nat) : Nat :=
  beNat (beBytes 1 h.sidx ++ beBytes 1 h.port ++ beBytes 1 x.type ++ beBytes 1 epoch ++ x.ivTail n)

/-- The data a tag authenticates (R112, R122): the start block's bytes 0 to 6 and the data before the tag, a beacon's CORRECTION taken
as zero. -/
def Cell.authData (x : Cell) (h : Hdr) : List Byte :=
  match x with
  | .beacon b => x.start h ++ ({ b with corr := 0 } : Beacon).bytes
  | _ => x.start h ++ x.body

/-- A 16-byte AES-256-GCM tag. -/
def gcmTag (key iv : Nat) (data : List Byte) : List Byte := (Config.gcm key iv data ++ leBytes 16 0).take 16

/-- The tag of a cell under a key and its epoch, at tick index `n` (R122). -/
def Cell.tag (x : Cell) (h : Hdr) (key epoch n : Nat) : List Byte := gcmTag key (x.iv h epoch n) (x.authData h)

/-- What a slice's tag has taken in, authenticated data and ciphertext, after one more cell (R121): with ENC = 0 block 1 and the pixel
data are authenticated, with ENC = 1 block 1 is and the pixel data is ciphertext. -/
def sliceAdd (a : List Byte × List Byte) (h : Hdr) (p : PixHdr) (d : List Byte) : List Byte × List Byte :=
  if p.enc then (a.1 ++ (Cell.pixel h p []).body, a.2 ++ padBlock d) else (a.1 ++ (Cell.pixel h p d).body, a.2)

/-- A slice's tag (R121): over both, with the length of the ciphertext, which the code takes in beside them. The
form in which the three are given to the opaque function is the model's (DESIGN CHOICE, log entry 201). -/
def sliceTagOf (key iv : Nat) (a : List Byte × List Byte) : List Byte := gcmTag key iv (a.1 ++ a.2 ++ beBytes 8 a.2.length)

/-- A slice's pixel data under ENC (R121): the key stream of its IV added from a byte offset on; the same twice gives the data back. -/
def cipher (key iv off : Nat) : List Byte → List Byte
  | [] => []
  | b :: r => (b ^^^ Config.keystream key iv off) :: cipher key iv (off + 1) r

end Sys2Proof.Machine
end

