-- ==== Sys2Proof/Machine/OpsLanes.lean ====
section
/-!
DEFINITION. The lane layer's operations: lane and port states of R98, what the lanes send and receive (R84 to R90), clocks (R91 to
R94), equaliser and eye (R97), loopbacks and PRBS (R101 to R103). Chain port n sits on quad n ÷ 2, half n mod 2; a tile's ports A
and B are halves 0 and 1 of quad 0 (R82).
-/

namespace Sys2Proof.Machine

/-- A lane with nothing of it known: before anything was sent its 58 bits and its BIP8 are 0 (the scrambler needs no seed, R85). -/
def emptyLane : Lane :=
  { low := 0, good := 0, told := false, prbsSeen := false, scr := 0, des := 0, bip := 0, missed := 0, hdrs := [], rx := []
    gen := 0, chk := 0, run := 0 }

/-- A port's transmit side before it starts: markers come first. -/
def emptyTx : Tx := ⟨false, 0, 2 * periodBlocks, none⟩

/-- A quad at reset. -/
def emptyQuad : Quad := ⟨List.replicate 4 emptyLane, none, [0, 0], [emptyTx, emptyTx]⟩

/-- A quad's hidden state. -/
def Chip.quad (c : Chip) (q : Nat) : Quad := listAt c.quads q emptyQuad

/-- Store a quad's hidden state. -/
def Chip.setQuad (c : Chip) (q : Nat) (x : Quad) : Chip := { c with quads := listPut c.quads q x }

/-- Lane states (SERDES_Lk_STAT.STATE): 0 DOWN, 1 DETECT, 2 CDR, 3 BLOCK, 4 ALIGN, 5 ADAPT, 6 UP, 7 TEST. -/
def Chip.laneState (c : Chip) (q k : Nat) : Nat := c.get (.SERDES_L_STAT_STATE q k)

/-- The state of the port on half `h` of a quad: TEST when either lane is in test, else its lane 0's. -/
def Chip.portState (c : Chip) (q h : Nat) : Nat :=
  if c.laneState q (2 * h) = 7 ∨ c.laneState q (2 * h + 1) = 7 then 7 else c.laneState q (2 * h)

/-- Both lanes of a port take a state. -/
def Chip.setPortState (c : Chip) (q h n : Nat) : Chip :=
  (c.put (.SERDES_L_STAT_STATE q (2 * h)) n).put (.SERDES_L_STAT_STATE q (2 * h + 1)) n

/-- The chain port n (a tile's A is 0, B is 1) is UP. -/
def Chip.linkUpAt (c : Chip) (n : Nat) : Bool := c.portState (n / 2) (n % 2) == 6

/-- The rate code in force on a quad: 3 acts as 2; a quad that is no chain quad runs at the rate of its function (R83). -/
def Chip.rateCode (c : Chip) (q : Nat) : Nat := if q < 8 then min (c.get (.SERDES_QCFG_RATE q)) 2 else 2

/-- A lane that carries Ronuno blocks: the chain lanes and the twin link's (R82, R95). -/
def ronuno (q k : Nat) : Bool := decide (q < 8) || (q == 10 && decide (k < 2))

/-- The block period β of a port's two-lane stream (R110), in units of 2^−16 ÷ 100 ns: 5.12, 2.56 or 1.28 ns. -/
def betaOf (rate : Nat) : Nat := 65536 * (if rate = 0 then 512 else if rate = 1 then 256 else 128)

/-- Scanout still has pixel cells of the frame to queue on a chain port (R111): not with SCAN stopped or held. -/
def Chip.pixMore (c : Chip) (n : Nat) : Bool := c.scan.run && c.scanHold == 0 && c.scan.slices.any (·.port == n)

/-- Scanout has stopped queuing: the ports with nothing queued have no pixel cells of the frame left to send (R111). -/
def Chip.pixSettle (c : Chip) : Chip :=
  { c with ports := (c.ports.zip (List.range 16)).map fun x =>
      { x.1 with pixDone := x.1.pixDone || (x.1.pixels.isEmpty && !c.pixMore x.2) } }

/-- The greatest hop delay H in ns (R110). -/
def hopMax (rate : Nat) : Nat := if rate = 0 then 480 else if rate = 1 then 250 else 160

/-- The greatest skew in UI that a port accepts: 16 ns at the lane rate (R89). -/
def skewMax (rate : Nat) : Nat := if rate = 0 then 103 else if rate = 1 then 206 else 412

/-- One lane's hidden state. -/
def Chip.lane (c : Chip) (q k : Nat) : Lane := listAt (c.quad q).lanes k emptyLane

/-- Store one lane's hidden state. -/
def Chip.setLane (c : Chip) (q k : Nat) (l : Lane) : Chip :=
  c.setQuad q { c.quad q with lanes := listPut (c.quad q).lanes k l }

/-- Set the age at which a quad's loopback timer started. -/
def Chip.setLbAt (c : Chip) (q : Nat) (t : Option Nat) : Chip := c.setQuad q { c.quad q with lbAt := t }

/-- Set the last marker SEQ of a port. -/
def Chip.setSeq (c : Chip) (q h n : Nat) : Chip := c.setQuad q { c.quad q with seq := listPut (c.quad q).seq h n }

/-- The transmit side of a port. -/
def Chip.txOf (c : Chip) (q h : Nat) : Tx := listAt (c.quad q).tx h emptyTx

/-- Store the transmit side of a port. -/
def Chip.setTx (c : Chip) (q h : Nat) (t : Tx) : Chip := c.setQuad q { c.quad q with tx := listPut (c.quad q).tx h t }

/-- The loopback code of a lane (SERDES_LB.Lk). -/
def Chip.lbCode (c : Chip) (q k : Nat) : Nat := c.nat (Reg.SERDES_LB q) / 4 ^ k % 4

/-- A lane is looped or generating (R102). -/
def Chip.laneTest (c : Chip) (q k : Nat) : Bool :=
  c.lbCode q k != 0 || c.flag (.SERDES_L_PRBS_GEN_EN q k)

/-- The lanes of a quad that have loopbacks and PRBS: lanes 0–41 of the part (R101). -/
def testable (q k : Nat) : Bool := decide (4 * q + k < 42)

/-- The halves of a quad that are ports of two Ronuno lanes with states of R98: chain ports and the twin link. Q8, Q9 and Q11 are
ports of other kinds, and lanes 42 and 43 no port (R82). -/
def ronunoPort (q h : Nat) : Bool := decide (q < 8) || (q == 10 && h == 0)

/-- A lane of the port is looped or generating: the port carries no cells (R102). -/
def Chip.portTest (c : Chip) (q h : Nat) : Bool := c.laneTest q (2 * h) || c.laneTest q (2 * h + 1)

/-! ### Transmitting -/

/-- The page whose ENABLE a port's transmitter needs beside its quad's: a sender's chain page (R98). -/
def Chip.mayTransmit (c : Chip) (q h : Nat) : Bool :=
  c.enabled (0x10 + q) && c.flag (.SERDES_QSTAT_PLL_LOCK q) && (c.txOf q h).idleAt.isNone && (decide (8 ≤ q) || c.enabled (0x20 + 2 * q + h))

/-- A port's two transmitters start; markers come first (R87, R91, R98). -/
def Chip.txStart (c : Chip) (q h : Nat) : Chip :=
  if (c.txOf q h).on then c
  else (c.setTx q h { c.txOf q h with on := true, pos := 2 * periodBlocks }).emit (.tx q h true)

/-- A sender's ports transmit from the moment their quad's PLL is locked and their CHAIN page is enabled (R98). -/
def Chip.txEnable (c : Chip) (q : Nat) : Chip :=
  if c.isTile then c else c.each ([0, 1].filter fun h => ronunoPort q h && c.mayTransmit q h) fun c h => c.txStart q h

/-- A port's lanes go to electrical idle. -/
def Chip.txStop (c : Chip) (q h : Nat) : Chip :=
  if (c.txOf q h).on then (c.setTx q h { c.txOf q h with on := false }).emit (.tx q h false) else c

/-- The blocks of a lane leave at its transmit pair, unless a generator or a far-end loopback has taken their place (R101, R103), inverted
where TX_INV says so; the monitor tap copies the lane of the port that
SERDES_MON names, if that port is enabled (R95). -/
def Chip.laneOut (c : Chip) (q k : Nat) (l : List Block) : Chip :=
  if l = [] ∨ c.lbCode q k = 3 ∨ c.flag (.SERDES_L_PRBS_GEN_EN q k) = true then c
  else
    let l := if c.flag (.SERDES_L_TX_TX_INV q k) then l.map Block.inverted else l
    let c := c.emit (.lane q k l)
    let tapped := c.isSender && c.flag (.SERDES_MON_EN 10) && decide (q < 8) &&
      2 * q + k / 2 == c.get (.SERDES_MON_PORT 10) && k % 2 == c.get (.SERDES_MON_LANE 10) && c.enabled (0x20 + 2 * q + k / 2)
    c.when tapped fun c => c.emit (.lane 10 3 l)

/-- A port's lanes as a pairing. -/
def Chip.pairing (c : Chip) (q h : Nat) : Pairing := ⟨c.txOf q h, c.lane q (2 * h), c.lane q (2 * h + 1), [], []⟩

/-- What a pairing has sent leaves, and its lanes are kept. -/
def Chip.sendPairing (c : Chip) (q h : Nat) (p : Pairing) : Chip :=
  let c := ((c.setTx q h p.t).setLane q (2 * h) p.l0).setLane q (2 * h + 1) p.l1
  (c.laneOut q (2 * h) p.b0.reverse).laneOut q (2 * h + 1) p.b1.reverse

/-- Blocks of a port's stream are dealt to its two lanes, scrambled and sent; a sender's port puts in its own markers (R84 to R88). -/
def Chip.transmit (c : Chip) (q h : Nat) (l : List Block) : Chip :=
  if (c.txOf q h).on then c.sendPairing q h (l.foldl (Pairing.deal c.isSender) (c.pairing q h)) else c

/-- A tile's own markers on a port, in the block slot and with the SEQ of those it takes out (R90). -/
def Chip.sendMarkers (c : Chip) (p seq : Nat) : Chip :=
  if (c.txOf 0 p).on then c.sendPairing 0 p ((c.pairing 0 p).mark seq) else c

/-- A port re-enters DOWN; with its quad enabled and its PLL locked it goes on to DETECT at once (R98, R102). -/
def Chip.restartPort (c : Chip) (q h : Nat) : Chip :=
  c.setPortState q h (if c.enabled (0x10 + q) && c.flag (.SERDES_QSTAT_PLL_LOCK q) then 1 else 0)

/-- The millisecond of electrical idle after an erase of the port's key is over: the port restarts (R363). -/
def Chip.idleOver (c : Chip) (q h : Nat) : Chip :=
  let c := c.setTx q h { c.txOf q h with idleAt := none }
  if c.mayTransmit q h then (c.restartPort q h).txStart q h else c

/-- Time passes to the end of a port's millisecond of electrical idle, if it is in one (R363). -/
def Chip.idleEnd (c : Chip) (q h : Nat) : Chip :=
  match (c.txOf q h).idleAt with
  | none => c
  | some a => (c.elapseAge (a + ms 1)).idleOver q h

/-- The electrical idle of a port ends if its millisecond has passed (R363). -/
def Chip.idleDue (c : Chip) (q h : Nat) : Chip := if (c.txOf q h).idleAt.any fun a => decide (a + ms 1 ≤ c.age) then c.idleOver q h else c

/-! ### Bring-up -/

/-- The equaliser of a lane adapts (R97): in ADAPT mode its CTLE step and DFE taps become what it finds, a free value (log entry
163); FREEZE and LOAD leave them. -/
def Chip.adaptLane (c : Chip) (q k : Nat) : Chip :=
  let a := Reg.SERDES_L_RXEQ q k
  if c.get (.SERDES_L_RXEQ_MODE q k) = 0 then (c.setNat a (c.drawn % 2 ^ 28)).redraw else c

/-- Both lanes of a port adapt. -/
def Chip.adaptPort (c : Chip) (q h : Nat) : Chip := (c.adaptLane q (2 * h)).adaptLane q (2 * h + 1)

/-- The PLL locks: the receivers are armed and each port in DOWN goes to DETECT; a sender's enabled ports begin to transmit (R98). -/
def Chip.pllLock (c : Chip) (q : Nat) : Chip :=
  if c.enabled (0x10 + q) then
    let c := c.put (.SERDES_QSTAT_PLL_LOCK q) 1
    (c.each ([0, 1].filter (ronunoPort q)) fun c h => if c.portState q h = 0 then c.setPortState q h 1 else c).txEnable q
  else c

/-- The PLL loses lock: PLL_UNLOCK is raised (R104). The states of the quad's ports stay: R98 and R99 take them down by the signal
that is then lost at the partner, not by this event (DESIGN CHOICE, log entry 164). -/
def Chip.pllUnlock (c : Chip) (q : Nat) : Chip :=
  if c.flag (.SERDES_QSTAT_PLL_LOCK q) then
    (c.put (.SERDES_QSTAT_PLL_LOCK q) 0).raise (.SERDES_PLL_UNLOCK q)
  else c

/-- Signal at a valid rate: a tile takes the rate it detects, both ports the same one (R83); a sender accepts only its own; CDR
starts (R91, R98). -/
def Chip.signalAt (c : Chip) (q h rate spread : Nat) : Chip :=
  if ronunoPort q h = true ∧ c.portState q h = 1 ∧ rate < 3 then
    if c.isTile then
      if c.tile.up.isSome && rate != c.rateCode q then c
      else
        let c := if c.tile.up.isNone then
            (c.put (.SERDES_QCFG_RATE q) rate).setNat (Reg.SERDES_SSC q)
              (if spread = 0 then 0 else 256 + min spread 10)
          else c
        c.setPortState q h 2
    else if rate = c.rateCode q then c.setPortState q h 2 else c
  else c

/-- A frequency outside the window that a tile accepts, −5,150 to +150 ppm of its own reference (R91). -/
def freqOut (ppm : Int) : Bool := decide (ppm < -5150) || decide (150 < ppm)

/-- FREQ_PPM of a tile follows the mean of the last millisecond on the port it takes its clock from (R104). -/
def Chip.freqSeen (c : Chip) (q h : Nat) (ppm : Int) : Chip :=
  if c.isTile && (c.tile.clk.isNone || c.tile.clk == some h) then c.put (.SERDES_QSTAT_FREQ_PPM q) (wrapTo 16 ppm) else c

/-- CDR locks; outside the window a tile's port raises FREQ_OOR and returns to DETECT (R91); else block search and adaptation start
(R97, R98). -/
def Chip.cdrLocked (c : Chip) (q h : Nat) (ppm : Int) : Chip :=
  if ronunoPort q h = true ∧ c.portState q h = 2 then
    let c := c.freqSeen q h ppm
    if c.isTile && freqOut ppm then (c.setPortState q h 1).raise (.SERDES_FREQ_OOR q)
    else (c.setPortState q h 3).adaptPort q h
  else c

/-- Do the headers received on a lane end in 64 valid ones (R98)? -/
def blockLock (hdrs : List Nat) : Bool := decide (64 ≤ hdrs.length) && (hdrs.reverse.take 64).all fun x => x == 1 || x == 2

/-- Sixty-four valid sync headers in a row on each lane: marker search starts (R98). -/
def Chip.blockLocked (c : Chip) (q h : Nat) (hdrs0 hdrs1 : List Nat) : Chip :=
  if c.portState q h = 3 ∧ (blockLock hdrs0 && blockLock hdrs1) = true then c.setPortState q h 4 else c

/-- Two blocks one marker period apart make a lane's marker lock: both valid markers of one LANE with SEQ one apart, or both the exact
complement of such, which shows inverted polarity (R89, R98). The answer is LANE and whether the lane is inverted. -/
def laneLock (a b : Block) : Option (Nat × Bool) :=
  let good := fun (a b : Block) => a.isMarker && b.isMarker && a.laneId == b.laneId && decide (a.laneId < 2) &&
    b.seq == (a.seq + 1) % 65536
  if good a b then some (a.laneId, false)
  else if good a.inverted b.inverted then some (a.inverted.laneId, true)
  else none

/-- Two valid markers on each lane, of different LANE: order, polarity and skew are fixed; over 16 ns the port stays in ALIGN with
SKEW 0x3FF (R89, R98). `a` and `b` are the blocks in two marker slots of lane 0 and of lane 1, `skew` how many UI lane 0 arrives
after lane 1; SKEW stands on the lane that is delayed, the earlier one. -/
def Chip.markerLocked (c : Chip) (q h : Nat) (a b : Block × Block) (skew : Int) : Chip :=
  match if c.portState q h = 4 then (laneLock a.1 a.2, laneLock b.1 b.2) else (none, none) with
  | (some x, some y) =>
    if x.1 = y.1 then c
    else
    let k := 2 * h
    let c := (c.put (.SERDES_L_STAT_RX_INV q k) x.2.toNat).put (.SERDES_L_STAT_RX_INV q (k + 1)) y.2.toNat
    let c := (c.put (.SERDES_L_STAT_LANE_ID q k) x.1).put (.SERDES_L_STAT_LANE_ID q (k + 1)) y.1
    if skewMax (c.rateCode q) < skew.natAbs then
      (c.put (.SERDES_L_STAT_SKEW q k) 0x3ff).put (.SERDES_L_STAT_SKEW q (k + 1)) 0x3ff
    else
      ((c.put (.SERDES_L_STAT_SKEW q k) (if skew < 0 then skew.natAbs else 0)).put (.SERDES_L_STAT_SKEW q (k + 1))
        (if 0 < skew then skew.natAbs else 0)).setPortState q h 5
  | _ => c

/-! ### Receiving -/

/-- The blocks of a lane as received at the pins, upright: inverted where RX_INV says so (R89). -/
def Chip.upright (c : Chip) (q k : Nat) (l : List Block) : List Block :=
  if c.flag (.SERDES_L_STAT_RX_INV q k) then l.map Block.inverted else l

/-- Sixteen or more invalid headers in 64 consecutive blocks, in a run of validity marks (R99). -/
def headersLost : List Bool → Bool
  | [] => false
  | b :: r => decide (16 ≤ ((b :: r).take 64).countP (!·)) || headersLost r

/-- HI_BER after a marker period with so many invalid headers (R99). -/
def Chip.hiBerPeriod (c : Chip) (q k bad : Nat) : Chip :=
  if 32 < bad then
    let was := c.flag (.SERDES_L_STAT_HI_BER q k)
    let c := c.put (.SERDES_L_STAT_HI_BER q k) 1
    if was then c else c.raise (.SERDES_HI_BER q)
  else c.put (.SERDES_L_STAT_HI_BER q k) 0

/-- The lane's part of a port's rebuilt stream: once both lanes have brought a period's blocks they are joined again, lane 0's block
first (R86). -/
def Chip.rebuild (c : Chip) (q k : Nat) (l : List Block) : Chip :=
  let o := if k % 2 = 0 then k + 1 else k - 1
  let other := (c.lane q o).rx
  if other = [] then c.setLane q k { c.lane q k with rx := l }
  else
    let c := (c.setLane q k { c.lane q k with rx := [] }).setLane q o { c.lane q o with rx := [] }
    let s := if c.get (.SERDES_L_STAT_LANE_ID q k) = 0 then rejoin l other else rejoin other l
    c.emit (.stream q (k / 2) s)

/-- A marker period of lane k has been received: `l` are the blocks after the marker before, as at the pins, `m` the block in the
marker slot. Invalid headers and, with a valid marker, mismatched bits of BIP8 are counted; HI_BER follows; the payloads are
descrambled and joined with the other lane's (R85 to R89, R99). The second component is whether a loss criterion holds. -/
def Chip.markerIn (c : Chip) (q k : Nat) (l : List Block) (m : Block) : Chip × Bool :=
  if ronuno q k = true ∧ 2 ≤ c.laneState q k ∧ c.laneState q k ≠ 7 then
    let l := c.upright q k l
    let ok := (c.upright q k [m]).all Block.isMarker
    let m := listAt (c.upright q k [m]) 0 m
    let bad := l.countP fun b => !b.valid
    let x := c.lane q k
    let hdrs := (l.map Block.valid).reverse ++ x.hdrs
    let d := desBlocks x.des l
    let c := c.countBy (Reg.SERDES_L_HDR_ERR q k) bad
    let c := c.when ok fun c => (c.countBy (Reg.SERDES_L_BIP_ERR q k) (ones8 (bip8 l ^^^ m.bip))).setSeq q (k / 2) m.seq
    let missed := if ok then 0 else x.missed + 1
    let c := c.setLane q k { x with des := d.1, hdrs := hdrs.take 63, missed := missed }
    let c := (c.hiBerPeriod q k bad).rebuild q k d.2
    (c, headersLost hdrs || decide (4 ≤ missed))
  else (c, false)

/-- A lane under a far-end loopback sends what it receives out of its own transmit pair (R101). -/
def Chip.farLoop (c : Chip) (q k : Nat) (bits : List Bool) : Chip :=
  if c.lbCode q k = 3 then c.emit (.looped q k bits) else c

/-- Bits of blocks as they travel: the two header bits, then the payload (R84). -/
def wireBits (l : List Block) : List Bool :=
  l.flatMap fun b => bitAt b.hdr 1 :: bitAt b.hdr 0 :: bitsOfBytes b.pay

/-- The eye of a lane is measured while UP, and a tile's mean frequency with it; EYE_LOW is raised once when the eye has stayed below a
threshold for 1 ms, that is over two measurements 1 ms apart, and again only after it has recovered for 1 ms (R97). In ADAPT mode the
equaliser has kept adapting. When the lane leaves UP the figures with VALID, and the run below a threshold, stay until the next
measurement (DESIGN CHOICE, log entry 165). -/
def Chip.eyeMeasured (c : Chip) (q k w hgt : Nat) (ppm : Int) : Chip :=
  if c.laneState q k = 6 then
    let c := c.adaptLane q k
    let c := if k % 2 = 0 then c.freqSeen q (k / 2) ppm else c
    let c := ((c.put (.SERDES_L_EYE_VALID q k) 1).put (.SERDES_L_EYE_WIDTH q k) w).put (.SERDES_L_EYE_HEIGHT q k) hgt
    let wmin := c.get (.SERDES_EYE_MIN_WIDTH q)
    let hmin := c.get (.SERDES_EYE_MIN_HEIGHT q)
    let low := decide (w < wmin) || decide (hgt < hmin)
    let l := c.lane q k
    if low then
      let l := { l with low := l.low + 1, good := 0 }
      if 2 ≤ l.low ∧ l.told = false then (c.setLane q k { l with told := true }).raise (.SERDES_EYE_LOW q)
      else c.setLane q k l
    else
      let l := { l with low := 0, good := l.good + 1 }
      c.setLane q k (if 2 ≤ l.good then { l with told := false } else l)
  else c

/-- SERDES_Lk_RXEQ: only MODE = 2 (LOAD) takes the values written with it (R97). -/
def Chip.rxeqSet (c : Chip) (q k : Nat) (v : Word) : Chip :=
  let a := Reg.SERDES_L_RXEQ q k
  if bitsOf v 31 30 = 2 then c.wr a (v &&& 0xcfffffff)
  else c.wr a (withBits (c.rd a) 31 30 (bitsOf v 31 30))

/-- A generator starts: its register begins at a value that is not 0, which the spec does not give (log entry 5); its raw pattern takes
the place of the coded stream (R103). -/
def Chip.generatorStart (c : Chip) (q k : Nat) : Chip :=
  let n := (prbsTaps (c.get (.SERDES_L_PRBS_GEN_PAT q k))).1
  let r := c.drawn % (2 ^ n - 1) + 1
  ((c.setLane q k { c.lane q k with gen := r }).redraw).emit (.pattern q k (c.get (.SERDES_L_PRBS_GEN_PAT q k)) r)

/-- A checker starts: its count is 0 and it locks anew (R103). -/
def Chip.checkerStart (c : Chip) (q k : Nat) : Chip :=
  let c := (c.setPair (Reg.SERDES_L_PRBS_ERR_LO q k) (Reg.SERDES_L_PRBS_ERR_HI q k) 0).put
    (.SERDES_L_PRBS_CHK_LOCK q k) 0
  c.setLane q k { c.lane q k with prbsSeen := false, chk := 0, run := 0 }

/-- A checker takes bits: register, run of error-free bits, and mismatches counted since its lock. Until 64 bits in a row are what the
pattern gives after those before them it follows what it receives; from its lock it runs on by itself and counts every mismatched
bit (R103). A register of zeros is in no pattern and matches nothing (DEDUCED, log
entry 200). -/
def prbsCheck (pat : Nat) : Nat × Nat × Nat → List Bool → Nat × Nat × Nat
  | s, [] => s
  | s, b :: r =>
    let want := prbsNext pat s.1
    let hit := b == want && s.1 % 2 ^ (prbsTaps pat).1 != 0
    if 64 ≤ s.2.1 then prbsCheck pat (prbsShift s.1 want, s.2.1, s.2.2 + (if b == want then 0 else 1)) r
    else prbsCheck pat (prbsShift s.1 b, (if hit then s.2.1 + 1 else 0), s.2.2) r

/-- The next idle blocks of a lane as it sends them. -/
def Lane.idles : Lane → Nat → List Block
  | _, 0 => []
  | l, n + 1 =>
    let x := l.send idleBlock
    x.2 :: Lane.idles x.1 n

/-- What a lane's receiver gets in place of the bits at its receive pair: under a near-end loopback the lane's own transmit data, a
running generator's pattern or else the coded stream, in which a port in test carries nothing but idle blocks (R101, R102). -/
def Chip.received (c : Chip) (q k : Nat) (bits : List Bool) : List Bool :=
  let n := bits.length
  if c.lbCode q k = 0 ∨ c.lbCode q k = 3 then bits
  else if c.flag (.SERDES_L_PRBS_GEN_EN q k) then (prbsBits (c.get (.SERDES_L_PRBS_GEN_PAT q k)) (c.lane q k).gen n).2
  else (wireBits ((c.lane q k).idles (n / 66 + 1))).take n

/-- A generator runs on for so many bits. -/
def Chip.generate (c : Chip) (q k n : Nat) : Chip :=
  if c.flag (.SERDES_L_PRBS_GEN_EN q k) then
    c.setLane q k { c.lane q k with gen := (prbsBits (c.get (.SERDES_L_PRBS_GEN_PAT q k)) (c.lane q k).gen n).1 }
  else c

/-- A lane's checker takes received bits: it locks after 64 error-free ones and then counts mismatched bits; the first after lock
raises PRBS_ERR (R103). -/
def Chip.checkBits (c : Chip) (q k : Nat) (bits : List Bool) : Chip :=
  if c.flag (.SERDES_L_PRBS_CHK_EN q k) then
    let l := c.lane q k
    let x := prbsCheck (c.get (.SERDES_L_PRBS_CHK_PAT q k)) (l.chk, l.run, 0) bits
    let c := c.put (.SERDES_L_PRBS_CHK_LOCK q k) (if 64 ≤ x.2.1 then 1 else 0)
    let lo := Reg.SERDES_L_PRBS_ERR_LO q k
    let hi := Reg.SERDES_L_PRBS_ERR_HI q k
    let c := c.setPair lo hi (min (c.pair lo hi + x.2.2) (2 ^ 64 - 1))
    let first := decide (0 < x.2.2) && !l.prbsSeen
    let c := c.setLane q k { l with chk := x.1, run := x.2.1, prbsSeen := l.prbsSeen || first }
    c.when first fun c => c.raise (.SERDES_PRBS_ERR q)
  else c

/-- Bits arrive on a lane with PRBS: the checker takes them, a far-end loopback sends them on, a generator runs on (R101, R103). -/
def Chip.prbsBitsIn (c : Chip) (q k : Nat) (bits : List Bool) : Chip :=
  if testable q k then ((c.checkBits q k (c.received q k bits)).farLoop q k bits).generate q k bits.length else c

/-- A lane driver takes the taps and the swing its register says (R96). -/
def Chip.drive (c : Chip) (q k : Nat) : Chip :=
  let x := driverOf (c.rd (Reg.SERDES_L_TX q k))
  c.emit (.drive q k x.1 x.2 (c.flag (.SERDES_L_TX_TX_INV q k)))

/-- The lane driver's taps: PRE + POST may not exceed 39 (R96). -/
def txOk (v : Word) : Bool := decide (bitsOf v 7 4 + bitsOf v 12 8 ≤ 39)

end Sys2Proof.Machine
end

