-- ==== Sys2Proof/Machine/OpsGran.lean ====
section
/-!
DEFINITION. The Granary's operations: the address map (R275), reads and writes by system address with poison and unwritten
regions (R277–R283), training and enabling (R284), errors, migration and sparing (R287–R291), the arbiter (R292–R296).
-/

namespace Sys2Proof.Machine

/-- Density in GiB per device (GRAN_CH_CFG.DENSITY). -/
def granDens (n : Nat) : Nat := if n = 0 then 2 else if n = 1 then 3 else 4

/-- S: the capacity in bytes of one rank of one channel (R274): 2 sub-channels × data devices × density. -/
def Chip.granS (c : Chip) : Nat :=
  2 * (if c.get (.GRAN_CH_CFG_WIDTH 0) = 0 then 8 else 4) * granDens (c.get (.GRAN_CH_CFG_DENSITY 0)) * 2 ^ 30

/-- C: the number of enabled channels. -/
def Chip.granC (c : Chip) : Nat :=
  match c.get .GRAN_MGR_CFG_CH_EN with
  | 1 => 1
  | 3 => 2
  | _ => 4

/-- Two ranks per channel. -/
def Chip.granRanks (c : Chip) : Nat := c.get (.GRAN_CH_CFG_RANKS 0) + 1

/-- Sparing is on (R275). -/
def Chip.sparing (c : Chip) : Bool := c.flag .GRAN_MGR_CFG_SPARE_EN && c.granRanks == 2

/-- The mapped size in bytes (R275). -/
def Chip.granMapped (c : Chip) : Nat :=
  if c.granRanks = 1 then c.granC * c.granS
  else if c.sparing then (2 * c.granC - 1) * c.granS
  else 2 * c.granC * c.granS

/-- The channels enabled. -/
def Chip.granChannels (c : Chip) : List Nat := List.range c.granC

/-- An address's channel, rank and local address by the map of R275. -/
def Chip.granPlace (c : Chip) (a : Nat) : Nat × Nat × Nat :=
  let g := 2 ^ c.get .GRAN_MGR_CFG_GRAIN
  let n := c.granC
  if a < n * c.granS then
    let u := a / g
    (u % n, 0, u / n * g + a % g)
  else
    let a' := a - n * c.granS
    let u := a' / g
    if c.sparing then
      let chans := (List.range n).filter (· != c.get .GRAN_MGR_CFG_SPARE_CH)
      (listAt chans (u % (n - 1)) 0, 1, u / (n - 1) * g + a' % g)
    else (u % n, 1, u / n * g + a' % g)

/-- An address's channel, rank and local address: a retired rank's accesses go to the spare (R275, R288). -/
def Chip.granMap (c : Chip) (a : Nat) : Nat × Nat × Nat :=
  let p := c.granPlace a
  if c.sparing && bitAt (c.get .GRAN_MGR_STAT_RETIRED) (2 * p.1 + p.2.1) then (c.get .GRAN_MGR_CFG_SPARE_CH, 1, p.2.2) else p

/-- The sub-channel of a local address (R276). -/
def subChannel (loc : Nat) : Nat := loc / 64 % 2

/-- Where an address lies in the DRAM: the split of its local address, and the bank hash with HASH_EN (R275, R276). -/
def Chip.dramPlace (c : Chip) (a : Nat) : DramPlace :=
  let p := c.granMap a
  let col := if c.get (.GRAN_CH_CFG_WIDTH 0) = 0 then 7 else 6
  let up := p.2.2 / 2 ^ (7 + col)
  let row := up / 32
  let hash := fun x => if c.flag .GRAN_MGR_CFG_HASH_EN then x else 0
  ⟨p.1, p.2.1, subChannel p.2.2, p.2.2 / 128 % 2 ^ col, (up % 8) ^^^ hash (row % 8), (up / 8 % 4) ^^^ hash (row / 8 % 4), row⟩

/-- TOP in bytes (GRAN_MGR_TOP). -/
def Chip.granTop (c : Chip) : Nat := c.get .GRAN_MGR_TOP_MIB * 2 ^ 20

/-- One channel's population lies in the subset of R273 and R274. -/
def Chip.popOk (c : Chip) (n : Nat) : Bool :=
  let w := c.get (.GRAN_CH_CFG_WIDTH n)
  let d := c.get (.GRAN_CH_CFG_DENSITY n)
  let r := c.get (.GRAN_CH_CFG_RANKS n)
  decide (c.get (.GRAN_CH_CFG_SPEED n) ≤ 4) &&
    ((w == 1 && d == 0) || (w == 1 && d == 1 && r == 0) || (w == 1 && d == 2 && r == 0) || (w == 0 && d == 0 && r == 0))

/-- The manager's configuration can be enabled: channels, grain, populations alike, sparing with two ranks (R273, R274), the
spare in an enabled channel (DESIGN CHOICE, log entry 190). -/
def Chip.granCfgOk (c : Chip) : Bool :=
  let en := c.get .GRAN_MGR_CFG_CH_EN
  let gr := c.get .GRAN_MGR_CFG_GRAIN
  (en == 1 || en == 3 || en == 15) && decide (8 ≤ gr) && decide (gr ≤ 16) &&
    c.granChannels.all (fun n => c.popOk n && (c.nat (Reg.GRAN_CH_CFG n) == c.nat (Reg.GRAN_CH_CFG 0))) &&
    (!c.flag .GRAN_MGR_CFG_SPARE_EN || (c.granRanks == 2 && c.granChannels.contains (c.get .GRAN_MGR_CFG_SPARE_CH)))

/-- A channel's state (GRAN_CH_STAT.STATE): 0 OFF, 1 TRAINING, 2 READY, 3 FROZEN, 4 SELF_REFRESH, 5 FAILED. -/
def Chip.chanState (c : Chip) (n : Nat) : Nat := c.get (.GRAN_CH_STAT_STATE n)

/-- The Granary serves accesses: the manager is enabled (R281 and its page). -/
def Chip.granOn (c : Chip) : Bool := c.enabled 0x74

/-- A channel's hidden state. -/
def Chip.gchan (c : Chip) (n : Nat) : GChan :=
  listAt c.gran.chans n ⟨[], [], 0, false, none, none, 0, 0, 0, 0, []⟩

/-- Store a channel's hidden state. -/
def Chip.setGchan (c : Chip) (n : Nat) (g : GChan) : Chip :=
  { c with gran := { c.gran with chans := listPut c.gran.chans n g } }

/-- The manager enables itself once every enabled channel reads READY: the map is built and every region is unwritten
(R281, R284). -/
def Chip.granTryEnable (c : Chip) : Chip :=
  if c.flag (.PG_CTRL_ENABLE 0x74) && !c.granOn && c.granCfgOk && c.granChannels.all (fun n => c.chanState n == 2) then
    let c := ((c.put (.PG_STATUS_ENABLED 0x74) 1).put .GRAN_MGR_TOP_MIB (c.granMapped / 2 ^ 20 - 1)).put
      .GRAN_MGR_STAT_STATE 1
    let c := (c.put .GRAN_MGR_STAT_SPARE_AVAIL (if c.sparing then 1 else 0)).put .GRAN_MGR_STAT_RETIRED 0
    let c := c.each [0, 1, 2, 3] fun c n => c.put (.GRAN_CH_STAT_RETIRED n) 0
    { c with gran := { c.gran with mem := [], poison := [], written := [], filling := [], waiting := [], spareUsed := false, scrubAt := c.age } }
  else c

/-- A channel finishes training (R284). -/
def Chip.trained (c : Chip) (n : Nat) (ok : Bool) (rd wr ms : Nat) : Chip :=
  if c.chanState n = 1 then
    let c := ((c.put (.GRAN_CH_MARGIN_READ n) rd).put (.GRAN_CH_MARGIN_WRITE n) wr).put (.GRAN_CH_STAT_TRAIN_MS n) ms
    if ok then
      let c := (c.put (.GRAN_CH_STAT_STATE n) 2).put (.PG_STATUS_ENABLED (0x70 + n)) 1
      let c := c.put (.GRAN_CH_STAT_ERASED n) 0
      (c.setGchan n { c.gchan n with refAt := c.age, pauseAt := c.age }).granTryEnable
    else (c.put (.GRAN_CH_STAT_STATE n) 5).raise (.GRANCH_TRAIN_FAIL n)
  else c

/-- The 64-byte lines an access touches. -/
def linesOf (a n : Nat) : List Nat := if n = 0 then [] else (List.range ((a + n - 1) / 64 + 1 - a / 64)).map (· + a / 64)

/-- The 1 MiB regions an access touches. -/
def regionsOf (a n : Nat) : List Nat :=
  if n = 0 then [] else (List.range ((a + n - 1) / 2 ^ 20 + 1 - a / 2 ^ 20)).map (· + a / 2 ^ 20)

/-- The bytes of an access below TOP (R277). -/
def Chip.belowTop (c : Chip) (a n : Nat) : Nat := min n (c.granTop - a)

/-- An access that reaches TOP is counted once and raises OUT_OF_RANGE (R277). -/
def Chip.oor (c : Chip) (a n : Nat) : Chip :=
  if c.granOn && decide (c.granTop < a + n) then (c.count Reg.GRAN_MGR_OOR).raise .GRANMGR_OUT_OF_RANGE else c

/-- What a read returns: bytes and whether they are marked poisoned. While the manager is disabled, or at or above TOP,
zeros marked poisoned; an unwritten region reads zeros (R277, R280, R281). -/
def Chip.gPeek (c : Chip) (a n : Nat) : List Byte × Bool :=
  if c.granOn then
    let m := c.belowTop a n
    (memBytes c.gran.mem a m ++ List.replicate (n - m) 0,
      decide (m < n) || (linesOf a m).any (fun l => c.gran.poison.contains l))
  else (List.replicate n 0, true)

/-- Count a read's poison and its reach beyond TOP. -/
def Chip.gReadCount (c : Chip) (a n : Nat) : Chip :=
  let c := c.oor a n
  if c.granOn && (linesOf a (c.belowTop a n)).any (fun l => c.gran.poison.contains l) then
    c.count Reg.GRAN_MGR_POISON_RD
  else c

/-- An address lies in an enabled mirror window of the active sender with its twin link up (R336). -/
def Chip.mirrored (c : Chip) (a : Nat) : Bool :=
  c.mode == 4 && c.get .TWIN_STAT_ROLE == 3 && !c.flag .TWIN_STAT_SOLO && c.twin.up &&
    (List.range 8).any fun k =>
      let base := c.get (.TWIN_MW_BASE_ADDR k) * 4096
      c.flag (.TWIN_MW_BASE_EN k) && decide (base ≤ a) && decide (a < base + c.get (.TWIN_MW_SIZE_MIB k) * 2 ^ 20)

/-- A write that falls in a mirror window goes to the standby, and waits there for its acknowledgement (R336). -/
def Chip.mirror (c : Chip) (a : Nat) (bs : List Byte) : Chip :=
  if c.mirrored a && !bs.isEmpty then
    (c.emit (.twin 1 [a] bs)).countBy Reg.TWIN_MIRROR_LAG (linesOf a bs.length).length
  else c

/-- Write bytes: below TOP only; each written region becomes written; a full line clears its poison (R277, R280, R281). -/
def Chip.gWrite (c : Chip) (a : Nat) (bs : List Byte) : Chip :=
  if c.granOn then
    let m := c.belowTop a bs.length
    let c := c.oor a bs.length
    let full := fun l => decide (a ≤ 64 * l) && decide (64 * l + 64 ≤ a + m)
    { c with gran := { c.gran with
        mem := memPut c.gran.mem a (bs.take m)
        poison := c.gran.poison.filter fun l => !(full l)
        written := ((regionsOf a m).filter fun r => !(c.gran.written.contains r)) ++ c.gran.written } }.mirror a (bs.take m)
  else c

/-- A little-endian number in the Granary. -/
def Chip.gLe (c : Chip) (a n : Nat) : Nat := leNat (c.gPeek a n).1

/-- Mark a line poisoned (R280). -/
def Chip.poisonLine (c : Chip) (l : Nat) : Chip :=
  if c.gran.poison.contains l then c else { c with gran := { c.gran with poison := l :: c.gran.poison } }

/-- Does an access wait: a channel it maps to is not READY, or its region is being filled, or a write opens an unwritten
region (R281, R287)? -/
def Chip.gBlocked (c : Chip) (a n : Nat) : Bool :=
  (linesOf a (c.belowTop a n)).any fun l =>
    let ch := (c.granMap (64 * l)).1
    c.chanState ch != 2 || c.gran.filling.contains (l / 16384)

/-- A waiting write that overlaps a read; the exact match of R283 is answered from it. -/
def overlaps (w : GAcc) (a n : Nat) : Bool := w.write && !w.clear && decide (w.addr / 64 ≤ (a + n - 1) / 64) &&
  decide (a / 64 ≤ (w.addr + w.data.length - 1) / 64)

/-- The bytes an access touches. -/
def GAcc.size (x : GAcc) : Nat := if x.write then x.data.length else x.len

/-- A written region becomes unwritten: its contents are lost (R281). -/
def Chip.clearNow (c : Chip) (r : Nat) : Chip :=
  if c.gran.written.contains r then
    { c with gran := { c.gran with
        mem := spKeep (fun a => a / 2 ^ 20 != r) c.gran.mem
        poison := c.gran.poison.filter fun l => l / 16384 != r
        written := c.gran.written.filter (· != r) } }
  else c

/-- The DRAM lines of an access: none above TOP, none of an unwritten region (R277, R281). -/
def Chip.dramLines (c : Chip) (a n : Nat) : List DramPlace :=
  ((linesOf a (c.belowTop a n)).filter fun l => c.gran.written.contains (l / 16384)).map fun l => c.dramPlace (64 * l)

/-- The DRAM bus carries an access. -/
def Chip.onBus (c : Chip) (x : GAcc) : Chip :=
  let l := c.dramLines x.addr x.size
  if c.granOn && !l.isEmpty then c.emit (.dram x.write l) else c

/-- Perform one access: a write lands, a read returns its data to the requester (R283); a region is cleared. -/
def Chip.gPerform (c : Chip) (x : GAcc) : Chip :=
  if x.clear then c.clearNow (x.addr / 2 ^ 20)
  else
  let c := c.onBus x
  if x.write then c.gWrite x.addr x.data
  else
    let r := c.gPeek x.addr x.len
    (c.gReadCount x.addr x.len).emit (.mem x.req x.addr r.1 r.2)

/-- A waiting access stands before an access to `n` bytes at `a` (R281, R283): a write that overlaps it, or a clear of a region
it touches. -/
def Chip.standsBefore (c : Chip) (a n : Nat) : Bool :=
  c.gran.waiting.any fun w => overlaps w a n || (w.clear && (regionsOf a n).contains (w.addr / 2 ^ 20))

/-- An access joins those that wait. -/
def Chip.gWait (c : Chip) (x : GAcc) : Chip := { c with gran := { c.gran with waiting := c.gran.waiting ++ [x] } }

/-- Must an access wait? A clear waits for the accesses queued to its region (R281). -/
def Chip.mustWait (c : Chip) (x : GAcc) : Bool :=
  if x.clear then c.gran.waiting.any fun w => (regionsOf w.addr w.size).contains (x.addr / 2 ^ 20)
  else c.gBlocked x.addr x.size || c.standsBefore x.addr x.size

/-- Perform the waiting accesses that nothing blocks any more, in the order they were accepted. -/
def Chip.gDrain (c : Chip) : Chip :=
  let c' := { c with gran := { c.gran with waiting := [] } }
  c.gran.waiting.foldl (fun c x => if c.mustWait x then c.gWait x else c.gPerform x) c'

/-- The manager stops: accesses are discarded from now on, those that wait among them; TOP reads 0. -/
def Chip.granStop (c : Chip) : Chip :=
  (((c.put (.PG_STATUS_ENABLED 0x74) 0).put .GRAN_MGR_TOP_MIB 0).put .GRAN_MGR_STAT_STATE 0).gDrain

/-- A channel captures an error; an uncorrectable one takes the place of a correctable one, and the first of its kind since
its event was cleared stays (GRAN_CH_ERR_*). -/
def Chip.gCapture (c : Chip) (n req addr type rank sub sym : Nat) : Chip :=
  let ueHeld := bitAt (c.nat (Reg.PG_EVENT (0x70 + n))) 1
  let ceHeld := bitAt (c.nat (Reg.PG_EVENT (0x70 + n))) 0
  if (if type = 1 then ueHeld || ceHeld else ueHeld) then c
  else
    let c := (c.setNat (Reg.GRAN_CH_ERR_ADDR_LO n) addr).setNat (Reg.GRAN_CH_ERR_ADDR_HI n) (addr / 2 ^ 32)
    c.setNat (Reg.GRAN_CH_ERR_INFO n)
      (type * 2 ^ 28 + req % 16 * 2 ^ 24 + rank * 2 ^ 20 + sub * 2 ^ 19 + sym % 32 * 2 ^ 8)

/-- A corrected read is counted, raises CE, and counts towards its rank's CE_STORM of the running day (R278). -/
def Chip.gCorrected (c : Chip) (n req addr rank sub sym : Nat) : Chip :=
  let c := c.gCapture n req addr 1 rank sub sym
  let c := (c.count (Reg.GRAN_CH_CE_CNT n)).raise (.GRANCH_CE n)
  let g := c.gchan n
  let day := fun (x : Nat × Nat) => decide (c.age - x.2 < 5662310400000000000)
  let g := { g with ce := (rank, c.age) :: g.ce.filter day, storm := g.storm.filter day }
  let k := (g.ce.filter fun x => x.1 == rank).length
  let thr := c.get .GRAN_MGR_CE_THR_COUNT
  if thr ≠ 0 ∧ thr < k ∧ (g.storm.any fun x => x.1 == rank) = false then
    (c.setGchan n { g with storm := (rank, c.age) :: g.storm }).raise .GRANMGR_CE_STORM
  else c.setGchan n g

/-- The spare can take a failed rank (R288). -/
def Chip.spareFree (c : Chip) : Bool := c.flag .GRAN_MGR_STAT_SPARE_AVAIL && c.gran.migr.isNone

/-- Migration of a rank begins: MIG_START, and with HOLD_SCAN scanout queues no further cell (R288). -/
def Chip.migStart (c : Chip) (n rank : Nat) : Chip :=
  let c := (c.raise .GRANMGR_MIG_START).put .GRAN_MGR_STAT_STATE 2
  let c := { c with gran := { c.gran with migr := some (n, rank, c.age) } }
  if c.flag .GRAN_MGR_CFG_HOLD_SCAN then { c with scanHold := 1 }.pixSettle else c

/-- Without a spare the line is re-read once, written back corrected or poisoned, and the channel unfrozen (R290). -/
def Chip.noSpare (c : Chip) (n addr : Nat) (reread : Bool) : Chip :=
  let c := if reread then c else c.poisonLine (addr / 64)
  let c := (c.put (.GRAN_CH_STAT_STATE n) 2).raise .GRANMGR_UE_NOSPARE
  let c := if c.gran.spareUsed && c.sparing && n == c.get .GRAN_MGR_CFG_SPARE_CH && (c.granMap addr).2.1 == 1 then c.raise .GRANMGR_SPARE_LOST else c
  c.gDrain

/-- An uncorrectable error: the channel freezes and captures it, UE and FROZEN are raised; then the spare is taken, or the
line handled without one, or the channel waits for a migration under way to end (R287, R288, R290, R291). -/
def Chip.gFreeze (c : Chip) (n req addr type : Nat) (reread : Bool) : Chip :=
  let at_ := c.granMap addr
  let rank := at_.2.1
  let loc := at_.2.2
  let c := c.gCapture n req addr type rank (subChannel loc) 0
  let c := (c.put (.GRAN_CH_STAT_STATE n) 3).count (Reg.GRAN_CH_UE_CNT n)
  let c := (c.raise (.GRANCH_UE n)).raise (.GRANCH_FROZEN n)
  if c.gran.migr.isSome then c.setGchan n { c.gchan n with waitUe := some (addr, reread) }
  else if c.spareFree then c.migStart n rank
  else c.noSpare n addr reread

/-- The bytes of the failed rank that lie in written regions (R289). -/
def Chip.rankBytes (c : Chip) (n rank : Nat) : Nat :=
  let g := 2 ^ c.get .GRAN_MGR_CFG_GRAIN
  g * (c.gran.written.flatMap fun r =>
    (List.range (2 ^ 20 / g)).filter fun k => let p := c.granPlace (r * 2 ^ 20 + k * g); p.1 == n && p.2.1 == rank).length

/-- Transfers per second of a channel in millions (GRAN_CH_CFG.SPEED). -/
def Chip.granRate (c : Chip) : Nat := listAt [3200, 4000, 4800, 5600, 6400] (c.get (.GRAN_CH_CFG_SPEED 0)) 6400

/-- The longest time of a migration of a rank in sub-nanoseconds (R289). -/
def Chip.migBound (c : Chip) (n rank : Nat) : Nat :=
  let t := ms 3 + c.rankBytes n rank * ms 32 * 6400 / (2 ^ 30 * c.granRate)
  if n = c.get .GRAN_MGR_CFG_SPARE_CH then 2 * t else t

/-- Time passes while a migration runs, no longer than it can take (R289). -/
def Chip.migElapse (c : Chip) (dt : Nat) : Chip :=
  match c.gran.migr with
  | none => c.elapse dt
  | some m => c.elapse (min dt (m.2.2 + c.migBound m.1 m.2.1 - c.age))

/-- The poisoned lines of a copy are marked and counted (R288): lines of the failed rank in written regions. -/
def Chip.migPoison (c : Chip) (n rank : Nat) (bad : List Nat) : Chip :=
  let mine := bad.filter fun l =>
    let p := c.granPlace (64 * l)
    p.1 == n && p.2.1 == rank && c.gran.written.contains (l / 16384)
  c.each mine fun c l => ((c.poisonLine l).count Reg.GRAN_MGR_POISON_CNT).raise .GRANMGR_POISON

/-- The registers that tell a finished migration of rank `rank` of channel `n` begun at age `since` (R288). -/
def Chip.migShow (c : Chip) (n rank since : Nat) : Chip :=
  let c := c.put .GRAN_MGR_STAT_RETIRED (setBitAt (c.get .GRAN_MGR_STAT_RETIRED) (2 * n + rank) true)
  let c := c.put (.GRAN_CH_STAT_RETIRED n) (setBitAt (c.get (.GRAN_CH_STAT_RETIRED n)) rank true)
  let c := (c.put .GRAN_MGR_STAT_SPARE_AVAIL 0).put .GRAN_MGR_STAT_STATE 1
  let c := c.when (c.get (.GRAN_CH_STAT_ERASED_RANK n) == rank) fun c => c.put (.GRAN_CH_STAT_ERASED n) 0
  (c.put (.GRAN_CH_STAT_STATE n) 2).setNat Reg.GRAN_MGR_MIG_MS ((c.age - since) / 65536000000)

/-- A channel that froze during a migration is handled without a spare (R291). -/
def Chip.waitedUe (c : Chip) (m : Nat) : Chip :=
  match (c.gchan m).waitUe with
  | none => c
  | some x => (c.setGchan m { c.gchan m with waitUe := none }).noSpare m x.1 x.2

/-- The rank's copy is done: lines that still cannot be corrected are poisoned, the rank's accesses go to the spare, the
channel is unfrozen, RETIRED is raised (R288); channels that froze meanwhile are handled without a spare (R291). -/
def Chip.migDone (c : Chip) (bad : List Nat) : Chip :=
  match c.gran.migr with
  | none => c
  | some m =>
    let c := (c.migPoison m.1 m.2.1 bad).migShow m.1 m.2.1 m.2.2
    let c := (c.onGran fun g => { g with migr := none, spareUsed := true }).raise .GRANMGR_RETIRED
    let c := c.when (c.scanHold == 1) fun c => { c with scanHold := 2 }
    let c := c.gDrain.each [0, 1, 2, 3] Chip.waitedUe
    if c.gran.disableWait then c.granStop.onGran fun g => { g with disableWait := false } else c

/-- GRAN_MGR_CTRL.RETIRE: the named channel freezes and its rank is migrated; ignored with WR_REJ during a migration, or for
the spare or a retired rank (R290, R291). Without an available spare the rank stays in service. -/
def Chip.retire (c : Chip) (n rank : Nat) : Chip :=
  let spare := c.sparing && n == c.get .GRAN_MGR_CFG_SPARE_CH && rank == 1
  let retired := bitAt (c.get .GRAN_MGR_STAT_RETIRED) (2 * n + rank)
  if c.gran.migr.isSome || spare || retired then c.reject Reg.GRAN_MGR_CTRL
  else if !c.granOn || c.chanState n ≠ 2 then c
  else if c.spareFree then (c.put (.GRAN_CH_STAT_STATE n) 3).migStart n rank
  else c.raise .GRANMGR_UE_NOSPARE

/-- What an access's outcome is worth where a device is erased (R278): its own symbols are decoded without it, another symbol
is uncorrectable (and stays so when re-read: DESIGN CHOICE, log entry 190), and one device a channel can be erased, in an x4
population only. -/
def Chip.eccSeen (c : Chip) (ch rank sub : Nat) (e : Ecc) : Ecc :=
  let erased := c.flag (.GRAN_CH_STAT_ERASED ch)
  let here := erased && c.get (.GRAN_CH_STAT_ERASED_RANK ch) == rank && c.get (.GRAN_CH_STAT_ERASED_SUBCH ch) == sub
  match e with
  | .ce sym => if !here then .ce sym else if sym % 10 = c.get (.GRAN_CH_STAT_ERASED_DEV ch) then .ok else .ue false
  | .erase d =>
    if here && d == c.get (.GRAN_CH_STAT_ERASED_DEV ch) then .ok
    else if c.get (.GRAN_CH_CFG_WIDTH 0) = 0 && !erased then .erase d else .ue false
  | e => e

/-- A DRAM access of a requester meets its outcome (R278, R287): corrections are counted, a device is erased, a recovered CA or
write CRC error is told; answers the type of an error that freezes the channel, with its re-read (R290). -/
def Chip.eccMeet (c : Chip) (req a : Nat) (e : Ecc) : Chip × Option (Nat × Bool) :=
  let p := c.granMap a
  let ch := p.1
  let rank := p.2.1
  let sub := subChannel p.2.2
  match c.eccSeen ch rank sub e with
  | .ok => (c, none)
  | .ce sym => (c.gCorrected ch req a rank sub sym, none)
  | .erase d =>
    let c := (((c.put (.GRAN_CH_STAT_ERASED ch) 1).put (.GRAN_CH_STAT_ERASED_RANK ch) rank).put
      (.GRAN_CH_STAT_ERASED_SUBCH ch) sub).put (.GRAN_CH_STAT_ERASED_DEV ch) d
    ((c.gCorrected ch req a rank sub d).raise (.GRANCH_DEV_ERASED ch), none)
  | .caRetry => (c.raise (.GRANCH_CA_ERR ch), none)
  | .wcrcRetry => (c.raise (.GRANCH_CA_ERR ch), none)
  | .ue rr => (c, some (2, rr))
  | .caFail rr => (c, some (3, rr))
  | .wcrcFail rr => (c, some (4, rr))

/-- A requester's read arrives with the way its DRAM access fares (R277–R287). -/
def Chip.gRead (c : Chip) (req a n : Nat) (e : Ecc) : Chip :=
  let x : GAcc := ⟨req, a, false, [], n, false⟩
  let live := c.granOn && decide (a < c.granTop) && c.gran.written.contains (a / 2 ^ 20)
  let exact := (c.gran.waiting.filter fun w => overlaps w a n).getLast?
  match exact with
  | some w => if w.addr = a ∧ w.data.length = n then c.emit (.mem req a w.data false) else c.gWait x
  | none =>
    if c.granOn && c.mustWait x then c.gWait x
    else if !live then c.gPerform x
    else
      let r := c.eccMeet req a e
      match r.2 with
      | none => r.1.gPerform x
      | some k => ((r.1.onBus x).emit (.mem req a (c.gPeek a n).1 true)).gFreeze (c.granMap a).1 req a k.1 k.2

/-- The outcomes that a write can have: a whole line is not read (R282). -/
def Ecc.ofWrite (e : Ecc) (part : Bool) : Ecc :=
  match e with
  | .ok => .ok
  | .ce s => if part then .ce s else .ok
  | .erase d => if part then .erase d else .ok
  | .ue r => if part then .ue r else .ok
  | .caRetry => .caRetry
  | .wcrcRetry => .wcrcRetry
  | .caFail r => .caFail r
  | .wcrcFail r => .wcrcFail r

/-- A requester's write arrives: the first write to an unwritten region starts its fill and waits for it; a partial line is
read, merged and written, and an uncorrectable result of that read leaves the line poisoned (R281–R283, R287). -/
def Chip.gWriteReq (c : Chip) (req a : Nat) (bs : List Byte) (e : Ecc) : Chip :=
  let n := bs.length
  let x : GAcc := ⟨req, a, true, bs, 0, false⟩
  if !c.granOn then c
  else
    let unw := (regionsOf a (c.belowTop a n)).filter fun r => !(c.gran.written.contains r) && !(c.gran.filling.contains r)
    let c := { c with gran := { c.gran with filling := c.gran.filling ++ unw } }
    if c.mustWait x then c.gWait x
    else
      let r := c.eccMeet req a (e.ofWrite (decide (a % 64 ≠ 0) || decide (n % 64 ≠ 0)))
      let d := r.1.gPerform x
      match r.2 with
      | none => d
      | some k =>
        let l := if a % 64 = 0 then (a + n - 1) / 64 else a / 64
        (d.when (k.1 == 2) fun c => c.poisonLine l).gFreeze (c.granMap a).1 req a k.1 k.2

/-- A region fill starts in advance (R281). -/
def Chip.regionFill (c : Chip) (r : Nat) : Chip :=
  if c.gran.written.contains r || c.gran.filling.contains r then c
  else { c with gran := { c.gran with filling := c.gran.filling ++ [r] } }

/-- A region fill completes: its lines hold zeros, it is written, and what waited for it proceeds (R281). -/
def Chip.regionFilled (c : Chip) (r : Nat) : Chip :=
  if c.gran.filling.contains r then
    { c with gran := { c.gran with
        filling := c.gran.filling.filter (· != r)
        written := if c.gran.written.contains r then c.gran.written else r :: c.gran.written } }.gDrain
  else c

/-- OP = CLEAR (R281): a written region becomes unwritten once the accesses already queued to it are complete. -/
def Chip.regionClear (c : Chip) (r : Nat) : Chip :=
  let x : GAcc := ⟨15, r * 2 ^ 20, true, [], 0, true⟩
  if c.mustWait x then c.gWait x else c.clearNow r

/-- A requester's effective priority at a decision (R293); `urg` is the urgency of each Loom group. -/
def Chip.effPrio (c : Chip) (urg : List Nat) (n : Nat) : Nat :=
  let p := c.get (.ARB_REQ_CFG_PRIO n)
  if 4 ≤ n ∧ n < 8 then
    match listAt urg (n - 4) 0 with
    | 1 => min p (c.get .ARB_URG_URG)
    | 2 => min p (c.get .ARB_URG_CRIT)
    | _ => p
  else p

/-- The winner of a decision: the lowest effective priority, ties round-robin from the index after the last owner (R293). -/
def Chip.arbWinner (c : Chip) (urg : List Nat) (last : Nat) (reqs : List Nat) : Option Nat :=
  let order := (List.range 16).map fun k => (last + 1 + k) % 16
  (order.filter reqs.contains).foldl (fun best n =>
    match best with
    | none => some n
    | some b => if c.effPrio urg n < c.effPrio urg b then some n else some b) none

/-- Who asks for channel `n` without a grant, and since when (R295); `o` is the owner. -/
def Chip.arbAsks (c : Chip) (n : Nat) (reqs : List Nat) (o : Option Nat) : Chip :=
  let g := c.gchan n
  let since := fun r => (g.asks.find? fun x => x.1 == r).getD (r, c.age, false)
  c.setGchan n { g with asks := (reqs.filter fun r => o != some r).eraseDups.map since }

/-- A decision on a channel: a grant runs on while its owner still asks and is within its LIMIT; else the next owner is
chosen (R293). -/
def Chip.arbDecide (c : Chip) (urg : List Nat) (n : Nat) (reqs : List Nat) : Chip :=
  let g := c.gchan n
  let stays := match g.owner with
    | none => false
    | some o => reqs.contains o && (c.get (.ARB_REQ_CFG_LIMIT o) == 0 || decide (g.done < c.get (.ARB_REQ_CFG_LIMIT o)))
  if stays then (c.setGchan n { g with done := g.done + 1 }).arbAsks n reqs g.owner
  else
    match c.arbWinner urg g.last reqs with
    | none =>
      (c.setGchan n { g with owner := none, done := 0, asks := [] }).put .ARB_GRANT_ACTIVE
        (setBitAt (c.get .ARB_GRANT_ACTIVE) n false)
    | some o =>
      let c := (c.setGchan n { g with owner := some o, done := 1, last := o }).arbAsks n reqs (some o)
      let c := c.put .ARB_GRANT_ACTIVE (setBitAt (c.get .ARB_GRANT_ACTIVE) n true)
      c.put ⟨Reg.ARB_GRANT, 4 * n + 3, 4 * n⟩ o

/-- The age at which requester `r`, which asks for channel `n` without a grant, starves; none if it does not ask or was told of
(R295). -/
def Chip.starvesAt (c : Chip) (r n : Nat) : Option Nat :=
  ((c.gchan n).asks.find? fun x => x.1 == r && !x.2.2).map fun x => x.2.1 + us (c.get .ARB_STARVE_TMO_US)

/-- STARVE of a requester (R295): time passes until it has waited ARB_STARVE_TMO for a channel; its bit is set, counted, and
STARVE is raised, once for a wait. Off while ARB_STARVE_TMO is 0. -/
def Chip.starve (c : Chip) (r : Nat) : Chip :=
  if c.get .ARB_STARVE_TMO_US = 0 then c
  else
    match (List.range 4).find? (fun n => (c.starvesAt r n).isSome) with
    | none => c
    | some n =>
      let c := c.elapseAge ((c.starvesAt r n).getD 0)
      let c := c.setGchan n { c.gchan n with asks := (c.gchan n).asks.map fun x => if x.1 = r then (x.1, x.2.1, true) else x }
      ((c.put .ARB_STARVE_REQ (setBitAt (c.get .ARB_STARVE_REQ) r true)).count Reg.ARB_STARVE_CNT).raise .ARB_STARVE

/-- The time between refreshes (R285): 3.9 µs, or 1.95 µs while HOT. -/
def Chip.refreshEvery (c : Chip) (n : Nat) : Nat := ns (if c.flag (.GRAN_CH_STAT_HOT n) then 1950 else 3900)

/-- A retraining pause can be appended to this refresh of channel `n` (R285): one is due, no fetch group signals urgency 2, and
no other channel paused within 1 ms. -/
def Chip.pauseFits (c : Chip) (n : Nat) (urgent : Bool) : Bool :=
  (c.gchan n).retrainDue && !urgent &&
    (List.range 4).all fun m => m == n || decide ((c.gchan m).pauseAt + us 1000 ≤ c.age)

/-- A refresh: time reaches it; doubled while the DRAM reports above 85 °C, HOT raised once while that lasts; postponed up to
four times while a Loom group signals urgency 2; one that fits carries the retraining pause that is due (R285). -/
def Chip.refresh (c : Chip) (n : Nat) (hot urgent : Bool) : Chip :=
  if c.chanState n = 2 ∨ c.chanState n = 3 then
    let c := c.elapseAge ((c.gchan n).refAt + c.refreshEvery n)
    let was := c.flag (.GRAN_CH_STAT_HOT n)
    let c := c.put (.GRAN_CH_STAT_HOT n) (if hot then 1 else 0)
    let c := if hot && !was then c.raise (.GRANCH_HOT n) else c
    let g : GChan := { c.gchan n with refAt := c.age }
    if urgent && decide (g.postponed < 4) then c.setGchan n { g with postponed := g.postponed + 1 }
    else if c.pauseFits n urgent then c.setGchan n { g with postponed := 0, retrainDue := false, pauseAt := c.age }
    else c.setGchan n { g with postponed := 0 }
  else c

/-- GRAN_CH_RETRAIN.MS after its last pause a channel's next retraining pause falls due (R285). -/
def Chip.retrain (c : Chip) (n : Nat) : Chip :=
  let t := c.get (.GRAN_CH_RETRAIN_MS n)
  if c.chanState n = 2 ∧ t ≠ 0 then
    let c := c.elapseAge ((c.gchan n).pauseAt + us (1000 * t))
    c.setGchan n { c.gchan n with retrainDue := true }
  else c

end Sys2Proof.Machine
end

