-- ==== Sys2Proof/Machine/OpsPort.lean ====
section
/-!
DEFINITION. A sender's chain ports: their records of devices (R135), the CHAIN list (R136, R137), the commands the sender's
own firmware sends (R310), discovery (R134).
-/

namespace Sys2Proof.Machine

/-- A port with nothing in it. -/
def emptyPort : Port :=
  { beacons := [], racks := [], cmds := [], boots := [], pixels := [], cmdSpent := 0, bootSpent := 0, pixDone := true
    bseq := 0, ctr := 0, session := none, devs := [], list := [], flight := [], quiet := 0, silent := 0, fresh := false
    discAt := 0, units := [], ret := none, delays := [], delayAvg := [], stamps := [], rekeySent := 0, drift := []
    frameSent := 0, stampTick := 0, slices := [] }

/-- A sender's chain port. -/
def Chip.port (c : Chip) (n : Nat) : Port := listAt c.ports n emptyPort

/-- Store a chain port. -/
def Chip.setPort (c : Chip) (n : Nat) (p : Port) : Chip := { c with ports := listPut c.ports n p }

/-- Change a chain port. -/
def Chip.onPort (c : Chip) (n : Nat) (f : Port → Port) : Chip := c.setPort n (f (c.port n))

/-- The sender index (R15). -/
def Chip.sidx (c : Chip) : Nat := c.get .SYS_DOMAIN_SENDER_IDX

/-- A device in service on its port: ADMITTED or SUSPENDED (R135). -/
def Dev.inService (d : Dev) : Bool := d.st == .admitted || d.st == .suspended

/-- The record of a serial on a port. -/
def Chip.devOf (c : Chip) (n serial : Nat) : Option Dev := (c.port n).devs.find? (·.serial == serial)

/-- The record of a WDN on a port. -/
def Chip.devWdn (c : Chip) (n wdn : Nat) : Option Dev :=
  (c.port n).devs.find? fun d => d.wdn == wdn && (d.inService || d.st == .assigned || d.st == .booted)

/-- A port's device record stored: in place of the serial's earlier one, or as a new one. CHAIN_STATE.ADMITTED follows. -/
def Chip.putDev (c : Chip) (n : Nat) (d : Dev) : Chip :=
  let devs := (c.port n).devs
  let devs := if devs.any (·.serial == d.serial) then devs.map (fun x => if x.serial = d.serial then d else x)
    else devs ++ [d]
  (c.onPort n fun p => { p with devs := devs }).put (.CHAIN_STATE_ADMITTED n) (devs.filter Dev.inService).length

/-- The chain port on which a WDN is in service, if one is. -/
def Chip.portOfWdn (c : Chip) (wdn : Nat) : Option Nat :=
  (List.range 16).find? fun n => (c.port n).devs.any fun d => d.wdn == wdn && d.inService

/-- The tiles of a port that are in service. -/
def Chip.serving (c : Chip) (n : Nat) : List Dev := (c.port n).devs.filter Dev.inService

/-- A port's state (CHAIN_STATE.STATE): 0 DOWN, 1 LONELY, 2 DISCOVERING, 3 SERVING. -/
def Chip.chainState (c : Chip) (n : Nat) : Nat := c.get (.CHAIN_STATE_STATE n)

/-- An entry of the CHAIN list is added, or replaces its serial's; a full list takes no new entry and raises LIST_OVF. -/
def Chip.listAdd (c : Chip) (n : Nat) (e : ListEntry) : Chip :=
  let l := (c.port n).list
  if l.any (·.serial == e.serial) then
    c.onPort n fun p => { p with list := l.map fun x => if x.serial = e.serial then e else x }
  else if l.length < 256 then c.onPort n fun p => { p with list := l ++ [e] }
  else c.raise (.CHAIN_LIST_OVF n)

/-- An entry of the CHAIN list is removed; later entries move down. -/
def Chip.listDel (c : Chip) (n serial : Nat) : Chip :=
  c.onPort n fun p => { p with list := p.list.filter (·.serial != serial) }

/-- The next firmware token (R310). -/
def Chip.fwTokenNext (c : Chip) : Nat := 0x7f000000 + c.well.fwToken % 2 ^ 24

/-- A command of the sender's own firmware joins its port's queue, with the next firmware token (R310). -/
def Chip.sendFw (c : Chip) (n amode dest op addr arg : Nat) (data : List Byte) : Chip :=
  let unauth := op == 0x40 || op == 0x41 || op == 0x42
  let cmd : Cmd := { ctr := 0, token := c.fwTokenNext, op := op, unauth := unauth, replay := false, addr := addr, arg := arg,
                     data := data }
  let hdr : Hdr := { amode := amode, dest := dest, ke := 0, sidx := c.sidx, port := n }
  (c.onWell fun w => { w with fwToken := w.fwToken + 1 }).onPort n fun p => { p with cmds := p.cmds ++ [(hdr, cmd, none)] }

/-- A ringed port in Twin mode (R328). -/
def Chip.ringed (c : Chip) (n : Nat) : Bool := c.mode == 4 && bitAt (c.get .TWIN_RING_PORTS) n

/-- The sender sends beacons on a port: it is near there, and not in the idle of a yield (R330, R333, R334). -/
def Chip.near (c : Chip) (n : Nat) : Bool :=
  !c.ringed n || (bitAt (c.get .TWIN_PORTS_NEAR) n && !bitAt c.twin.yieldPorts n)

/-- The sender sends pixel cells and commands on a port: as active, or near under split service (R333, R335, R342). -/
def Chip.serves (c : Chip) (n : Nat) : Bool :=
  !c.ringed n || (c.near n &&
    (c.get .TWIN_STAT_ROLE == 3 || c.get .TWIN_STAT_ROLE == 4 || bitAt (c.get .TWIN_PORTS_SPLIT) n))

/-- DISCOVER goes out on a port, while discovery is enabled (R134, CHAIN_CFG.DISC_EN). -/
def Chip.discover (c : Chip) (n : Nat) : Chip :=
  c.when (c.flag (.CHAIN_CFG_DISC_EN n) && c.serves n) fun c => c.sendFw n 3 0 0x40 0 0 []

/-- A position on a chain from a depth and the census count (R128); 0 while either is unknown. -/
def positionOf (census depth : Nat) : Nat := if census = 0 ∨ depth = 0 ∨ census < depth then 0 else census - depth + 1

/-- The census count a port received last. -/
def Chip.census (c : Chip) (n : Nat) : Nat := c.get (.CHAIN_STATE_CENSUS n)

/-- The position of a device of a port. -/
def Chip.devPos (c : Chip) (n : Nat) (d : Dev) : Nat := positionOf (c.census n) d.depth

/-- Slot units in use on a port. -/
def Chip.unitsUsed (c : Chip) (n : Nat) : List Nat :=
  (c.port n).devs.flatMap fun d => (List.range d.count).map (· + d.first)

/-- The lowest slot unit not in use on a port; in Twin mode units 0 to 511 only (R329). -/
def Chip.freeUnit (c : Chip) (n : Nat) : Option Nat :=
  let used := c.unitsUsed n
  (List.range (if c.mode = 4 then 512 else 1024)).find? fun u => !used.contains u

/-- Does the tile belong to an addressed set: one WDN, one position, a group, or all (R106, R109)? -/
def Chip.names (c : Chip) (n : Nat) (h : Hdr) (d : Dev) : Bool :=
  match h.amode with
  | 0 => d.wdn == h.dest
  | 1 => c.devPos n d == h.dest
  | 2 => d.groups.contains h.dest
  | _ => true

/-- Bytes of a register's 64-byte descriptor image (SYS_PDESC). -/
def Chip.pdesc (c : Chip) : List Byte := (List.range 16).flatMap fun k => leBytes 4 (c.nat (Reg.SYS_PDESC k))

/-- ANS_SLOTS as it acts on a port (CHAIN_DISC): 0 acts as 1; in Twin mode on a ringed port 0 and 1 act as 2. -/
def Chip.ansSlots (c : Chip) (n : Nat) : Nat :=
  let a := c.get (.CHAIN_DISC_ANS_SLOTS n)
  if c.ringed n then max a 2 else max a 1

/-- RET_START as it acts, in µs: values below 20 act as 20 (R126). -/
def Chip.retStart (c : Chip) : Nat := max (c.get .RET_CFG_RET_START) 20

/-! ### Delineation (R107) -/

/-- A received block opens a cell: its type is one of R105 and its HCRC holds. -/
def Block.opens (b : Block) : Bool :=
  b.hdr == 2 && [0x2d, 0x33, 0x4b, 0x55, 0x66, 0x78, 0x87, 0x96, 0xb4].contains (b.byte 0) && b.byte 7 == crc8 (b.pay.take 7)

/-- LEN of a start block (R106). -/
def Block.len (b : Block) : Nat := b.byte 1 % 16 * 256 + b.byte 2

/-- A port delineates a block, of a cell open with so many data blocks still to come: what it counts, and what the open cell lacks
then (R107). A cell that comes whole is given by the command of its type. -/
def Chip.stray (port : Nat) (x : Chip × Nat) (b : Block) : Chip × Nat :=
  let cut := fun (n : Nat) => (x.1.when (x.2 != 0) fun c => c.count (Reg.CHAIN_TRUNC port), n)
  if b.hdr = 1 then if x.2 = 0 then (x.1.count (Reg.CHAIN_ORPHAN port), 0) else (x.1, x.2 - 1)
  else if b.hdr ≠ 2 ∨ b.byte 0 = 0xe1 then (x.1, 0)
  else if b.byte 0 = 0xa5 then x
  else if b.byte 0 = 0x1e then cut 0
  else if b.opens then cut b.len
  else (x.1.count (Reg.CHAIN_HCRC_ERR port), 0)

/-- A cell of a type that belongs to the other direction (R107): a forward cell on a sender's port or on a tile's downstream port, a
return cell on its upstream port. A beacon has its place on both ports of a ring's tile and on a ring's far sender, to which the other
sender's cells come (R330, R339). -/
def Chip.wrongWay (c : Chip) (port : Nat) (x : Cell) : Bool :=
  if c.isTile then
    match c.tile.up with
    | none => false
    | some p => if port = p then x.returns else !x.returns && !(x.type == 0x33 && c.flag .ELDER_T_CFG_RING)
  else !x.returns && (!c.ringed port || c.near port)

/-- The checks of a received cell, each counted on the receiving port (R107); the second component is whether it came whole, the
right way, and with both its CRCs right. -/
def Chip.checkCell (c : Chip) (port : Nat) (x : Cell) (h : Hdr) (rx : Rx) : Chip × Bool :=
  let s := rx.pre.foldl (Chip.stray port) (c, 0)
  if rx.hcrc ≠ x.hcrc h then
    let came := match rx.cut with | none => x.blocks | some (n, _) => n
    let c := (s.1.count (Reg.CHAIN_HCRC_ERR port)).countBy (Reg.CHAIN_ORPHAN port) (came - 1)
    (match rx.cut with | none => c | some (_, b) => (Chip.stray port (c, 0) b).1, false)
  else
    let c := s.1.when (s.2 != 0) fun c => c.count (Reg.CHAIN_TRUNC port)
    if c.wrongWay port x then (c.count (Reg.CHAIN_ORPHAN port), false)
    else
      match rx.cut with
      | some (_, b) => ((Chip.stray port (c, 1) b).1, false)
      | none => if x.hasData && rx.crc != x.crc h rx.tag then (c.count (Reg.CHAIN_CRC_ERR port), false) else (c, true)

/-- A cell came whole and with both its CRCs right (R107). -/
def Rx.holds (rx : Rx) (x : Cell) (h : Hdr) : Bool :=
  rx.cut.isNone && rx.hcrc == x.hcrc h && (!x.hasData || rx.crc == x.crc h rx.tag)

/-- A block as a tile forwards it: one with an invalid header leaves as the error block (R107, R108). -/
def Block.forwarded (b : Block) : Block := if b.valid then b else errorBlock

/-- The blocks that a cell's arrival brings, as they are forwarded: those before it, its own, and the one that cut it short unless
that opens the next cell. Markers are taken out by the lane layer (R107, R108). -/
def Rx.blocks (rx : Rx) (x : Cell) (h : Hdr) : List Block :=
  let w := x.wire h rx.hcrc rx.tag rx.crc
  let l := match rx.cut with
    | none => w
    | some (n, b) => w.take n ++ if b.opens then [] else [b]
  ((rx.pre ++ l).filter fun b => !b.isMarker).map Block.forwarded

/-- A port sends cells: its transmitters are on, and neither of its lanes is in test (R98, R102). -/
def Chip.sends (c : Chip) (n : Nat) : Bool := (c.txOf (n / 2) (n % 2)).on && !c.portTest (n / 2) (n % 2)

/-- A cell that arrived leaves on another port of a tile with the blocks it came in (R108). -/
def Chip.pass (c : Chip) (port : Nat) (x : Cell) (h : Hdr) (rx : Rx) : Chip :=
  if c.sends port then (c.emit (.forward port x)).transmit 0 port (rx.blocks x h) else c

/-- The blocks of a superframe (R124). -/
def superframeLen (ansSlots : Nat) : Nat := 1 + 22 * (1024 + ansSlots)

/-- The block at which a unit's cell window starts, after its 4 guard blocks: slot units are 0 to 1,023, answer unit a is unit
1,024 + a (R124). -/
def windowBlock (unit : Nat) : Nat := 1 + 22 * unit + 4

/-- T(n, j) of the last tick's superframe (R124), from RET_START in µs and the rate code of the port. -/
def Chip.retInstant (c : Chip) (start rate j : Nat) : Nat := c.tickTime c.lastIndex + us start + j * betaOf rate / 100

/-- Time passes to an instant of the superframe, of a tick that has been executed. -/
def Chip.elapseRet (c : Chip) (t : Nat) : Chip := if c.bell.tick.isSome then c.elapseTo t else c

end Sys2Proof.Machine
end

