-- ==== Sys2Proof/Machine/OpsWell.lean ====
section
/-!
DEFINITION. The Well: ring pairs and their entries in the Granary (R300–R302), doorbells (R303), descriptors and their
checks (R304–R306), completions and credits (R311–R315), tile reports (R316, R317), notifies (R318).
-/

namespace Sys2Proof.Machine

/-- A ring pair by number. -/
def Chip.pairAt (c : Chip) (w : Nat) : Option Pair := assoc c.well.pairs w

/-- Store a ring pair. -/
def Chip.setPair' (c : Chip) (w : Nat) (p : Pair) : Chip := c.onWell fun x => { x with pairs := assocPut x.pairs w p }

/-- Descriptors of a pair taken and not yet completed. -/
def Chip.takenOf (c : Chip) (w : Nat) : List Taken := c.well.taken.filter (·.pair == w)

/-- The ring table's base address (WELL_RT_BASE). -/
def Chip.rtBase (c : Chip) : Nat := c.get .WELL_RT_BASE_LO_ADDR * 4096 + c.get .WELL_RT_BASE_HI_ADDR * 2 ^ 32

/-- The Well writes a pair's W fields to its ring table entry (R301), and WELL_INFLIGHT follows. -/
def Chip.pairSync (c : Chip) (w : Nat) : Chip :=
  match c.pairAt w with
  | none => c
  | some p =>
    let b := leBytes 2 p.sqHead ++ leBytes 2 p.cqTail ++ leBytes 1 p.state ++ leBytes 1 p.haltCode ++ leBytes 1 p.haltCause ++
      leBytes 1 0 ++ leBytes 4 p.telDrop ++ leBytes 4 p.evtDrop ++ leBytes 4 (c.takenOf w).length ++ leBytes 4 p.nextToken
    (c.gWrite (c.rtBase + 64 * w + 0x18) b).put .WELL_INFLIGHT_COUNT c.well.taken.length

/-- Change a pair and write its entry. -/
def Chip.onPair (c : Chip) (w : Nat) (f : Pair → Pair) : Chip :=
  match c.pairAt w with
  | none => c
  | some p => (c.setPair' w (f p)).pairSync w

/-- A distance of two free-running 16-bit indices (R302). -/
def idxDist (a b : Nat) : Nat := (a + 65536 - b) % 65536

/-- Completion entries of a pair that the host has not consumed. -/
def Pair.unconsumed (p : Pair) : Nat := idxDist p.cqTail p.cqHead

/-- Completion credits in use: reserved, held for a copy, or not consumed (R312). -/
def Chip.creditsUsed (c : Chip) (w : Nat) (p : Pair) : Nat :=
  (c.takenOf w).length + (c.well.held.filter (·.pair == w)).length + p.unconsumed

/-- A completion credit is free (R312). -/
def Chip.creditFree (c : Chip) (w : Nat) (p : Pair) : Bool := decide (c.creditsUsed w p < 2 ^ p.cqLog)

/-- A pair's notify group is set and CQ_NOTIFY raised (R318). -/
def Chip.notifyPair (c : Chip) (p : Pair) : Chip :=
  (c.setNat Reg.WELL_NOTIFY (setBitAt (c.nat Reg.WELL_NOTIFY) (p.ngrp % 32) true)).raise .WELL_CQ_NOTIFY

/-- The pair asks for notifies (RFLAGS.NOTIFY_EN). -/
def Pair.notifyEn (p : Pair) : Bool := bitAt p.rflags 0

/-- The sender runs as the active one of a pair with a twin link, so that entries wait for copies (R337). -/
def Chip.twinHolds (c : Chip) : Bool :=
  c.mode == 4 && c.get .TWIN_STAT_ROLE == 3 && !c.flag .TWIN_STAT_SOLO && c.twin.up

/-- An entry is written at CQ_TAIL with its phase, and the pair is notified where R318 says so. -/
def Chip.entryNow (c : Chip) (w type : Nat) (bytes : List Byte) (notify : Bool) : Chip :=
  match c.pairAt w with
  | none => c
  | some p =>
    let phase := 1 - p.cqTail / 2 ^ p.cqLog % 2
    let c := c.gWrite (p.cqBase + 32 * (p.cqTail % 2 ^ p.cqLog)) (BitVec.ofNat 8 (phase * 128 + type) :: bytes)
    let at0 := c.get .WELL_NOTIFY_CFG_HOLDOFF == 0
    let p := { p with cqTail := (p.cqTail + 1) % 65536, stamps := p.stamps ++ [(c.age, at0)] }
    let c := (c.setPair' w p).pairSync w
    if p.notifyEn && (decide (max p.nthresh 1 ≤ p.unconsumed) || at0 || notify) then
      c.notifyPair p
    else c

/-- An entry is written, or held for the copy of its period (R337). -/
def Chip.putEntry (c : Chip) (w type : Nat) (bytes : List Byte) (notify : Bool) : Chip :=
  if c.twinHolds then
    c.onWell fun x => { x with held := x.held ++ [⟨w, type, bytes, notify, c.lastIndex⟩] }
  else c.entryNow w type bytes notify

/-- The low 32 bits of the last executed tick index, as entries carry it (R311). -/
def Chip.entryTick (c : Chip) : List Byte := leBytes 4 c.lastIndex

/-- A DROPS entry with both counts (R311, R312). -/
def Chip.putDrops (c : Chip) (w : Nat) : Chip :=
  match c.pairAt w with
  | none => c
  | some p =>
    if (p.dropTel = 0 ∧ p.dropEvt = 0) ∨ c.creditFree w p = false then c
    else
      let c := c.setPair' w { p with dropTel := 0, dropEvt := 0 }
      c.putEntry w 3 (leBytes 5 0 ++ leBytes 2 p.wdn ++ leBytes 4 p.dropTel ++ leBytes 4 p.dropEvt ++
        leBytes 12 0 ++ c.entryTick) false

/-- A telemetry entry in a pair, or its drop (R311, R312). -/
def Chip.putTelemetry (c : Chip) (w sub : Nat) (sample : List Byte) : Chip :=
  match c.pairAt w with
  | none => c
  | some p =>
    if c.creditFree w p then
      c.putEntry w 1 (leBytes 1 (sample.length / 4) ++ leBytes 2 sub ++ leBytes 2 0 ++ leBytes 2 p.wdn ++
        (sample ++ leBytes 24 0).take 24) false
    else
      ((c.onPair w fun p => { p with telDrop := p.telDrop + 1, dropTel := p.dropTel + 1 }).count
        Reg.WELL_TEL_DROP).raise .WELL_TEL_DROP

/-- An event entry in a pair, or its drop (R311, R312). -/
def Chip.putEvent (c : Chip) (w page bits occ : Nat) : Chip :=
  match c.pairAt w with
  | none => c
  | some p =>
    if c.creditFree w p then
      c.putEntry w 2 (leBytes 3 0 ++ leBytes 2 page ++ leBytes 2 p.wdn ++ leBytes 4 bits ++ leBytes 2 occ ++ leBytes 2 0 ++
        leBytes 12 0 ++ c.entryTick) false
    else
      ((c.onPair w fun p => { p with evtDrop := p.evtDrop + 1, dropEvt := p.dropEvt + 1 }).count
        Reg.WELL_EVT_DROP).raise .WELL_EVT_DROP

/-- A completion's codes (R313): code, cause, CFLAGS bits DUP, PARTIAL, LATE. -/
structure Result where
  code : Nat
  cause : Nat
  dup : Bool
  part : Bool
  late : Bool
  deriving DecidableEq, Repr

/-- A plain completion result. -/
def result (code cause : Nat) : Result := ⟨code, cause, false, false, false⟩

/-- The bytes 1 to 31 of a COMPLETION entry (R311). -/
def completionBytes (r : Result) (sq wdn user token : Nat) (data : List Byte) (ok bad : Nat) (tick : List Byte) :
    List Byte :=
  let fl := (if r.dup then 1 else 0) + (if r.part then 2 else 0) + (if r.late then 4 else 0)
  leBytes 1 r.code ++ leBytes 1 r.cause ++ leBytes 1 fl ++ leBytes 2 sq ++ leBytes 2 wdn ++ leBytes 4 user ++
    leBytes 4 token ++ (data ++ leBytes 8 0).take 8 ++ leBytes 2 ok ++ leBytes 2 bad ++ tick

/-- A ring halts: STATE, HALT_CODE and HALT_CAUSE, RING_HALT raised (R309). -/
def Chip.haltPair (c : Chip) (w : Nat) (r : Result) : Chip :=
  (c.onPair w fun p => { p with state := 2, haltCode := r.code, haltCause := r.cause }).raise .WELL_RING_HALT

/-- A descriptor completes: read data longer than 8 bytes goes to BUF first, its entry is written, what waited for it
proceeds, and a STOP_ON_FAIL descriptor that did not end OK halts its ring (R305, R307, R309, R311, R313). -/
def Chip.complete (c : Chip) (t : Taken) (r : Result) (bad : Nat) : Chip :=
  let long := decide (8 < t.data.length)
  let c := if long then c.gWrite t.desc.buf t.data else c
  let c := c.onWell fun x => { x with
    taken := (x.taken.filter (·.num != t.num)).map fun u => { u with after := u.after.filter (· != t.num) } }
  match c.pairAt t.pair with
  | none => c
  | some p =>
    let c := c.setPair' t.pair { p with block := if p.block = some t.num then none else p.block }
    let c := c.putEntry t.pair 0
      (completionBytes r t.sq p.wdn t.desc.user t.token (if long then [] else t.data) t.ok bad c.entryTick)
      (bitAt t.desc.dflags 1)
    let c := c.pairSync t.pair
    if bitAt t.desc.dflags 0 && r.code != 0 then c.haltPair t.pair r else c

/-- The rank of a completion code in R315. -/
def codeRank (n : Nat) : Nat :=
  match n with
  | 4 => 5
  | 3 => 4
  | 2 => 3
  | 1 => 2
  | 5 => 1
  | _ => 0

/-- The highest-ranked outcome of a multicast's bad responders: its code and the cause of the first that has it (R315). -/
def worstOf (bad : List (Nat × Nat × Nat)) : Nat × Nat :=
  bad.foldl (fun (a : Nat × Nat) x => if codeRank a.1 < codeRank x.2.1 then (x.2.1, x.2.2) else a) (0, 0)

/-- A descriptor whose cells have all left and whose responders have all an outcome completes (R313, R315). -/
def Chip.tryComplete (c : Chip) (num : Nat) : Chip :=
  match c.well.taken.find? (·.num == num) with
  | none => c
  | some t =>
    if t.cells.isEmpty && t.waits.isEmpty then
      let w := worstOf t.bad
      let multi := t.desc.tgt != 0
      let c := if t.desc.aux ≠ 0 ∧ multi = true then
          c.each ((List.range (min t.bad.length 16384)).map fun k => (k, listAt t.bad k (0, 0, 0))) fun c x =>
            c.gWrite (t.desc.aux + 4 * x.1) (leBytes 2 x.2.1 ++ leBytes 1 x.2.2.1 ++ leBytes 1 x.2.2.2)
        else c
      c.complete t { code := w.1, cause := w.2, dup := t.dup, part := multi && !t.bad.isEmpty, late := false } t.bad.length
    else c

/-- A responder's outcome for a descriptor in flight (R313, R315, R341). -/
def Chip.outcome (c : Chip) (num port wdn : Nat) (code cause : Nat) (dup : Bool) (data : List Byte) : Chip :=
  let step := fun (t : Taken) =>
    if t.num = num ∧ t.waits.contains (port, wdn) = true then
      let replayed := t.replay && (code == 0 || code == 1)
      let code := if replayed then 5 else code
      { t with
        waits := t.waits.filter (· != (port, wdn))
        got := (port, wdn) :: t.got
        ok := if code = 0 then t.ok + 1 else t.ok
        bad := if code = 0 then t.bad else t.bad ++ [(wdn, code, cause)]
        dup := t.dup || dup
        data := data }
    else t
  (c.onWell fun x => { x with taken := x.taken.map step }).tryComplete num

/-- A descriptor read from the Granary (R304). -/
def Chip.readDesc (c : Chip) (a : Nat) : Desc :=
  let b := (c.gPeek a 64).1
  let f := fun off n => leNat ((b.drop off).take n)
  { op := f 0 1, dflags := f 1 1, tgt := f 2 1, group := f 4 2, pmask := f 6 2, user := f 8 4, count := f 12 4
    addr := f 16 4, arg := f 20 4, buf := f 24 8, aux := f 32 8, inl := (b.drop 40).take 24 }

/-- Does the descriptor carry write data, and from BUF? -/
def Desc.writes (d : Desc) : Bool := d.op == 2 || d.op == 3 || d.op == 5 || d.op == 6

/-- DFLAGS.INLINE. -/
def Desc.isInline (d : Desc) : Bool := bitAt d.dflags 2

/-- A multicast descriptor: TGT 2 or 3 of an OP that heeds TGT (R305, R306). -/
def Desc.multi (d : Desc) : Bool := d.op != 0x10 && d.op != 0x11 && d.tgt != 0

/-- Does the descriptor use BUF (R305)? -/
def Desc.usesBuf (d : Desc) : Bool := (d.writes && !d.isInline && d.count != 0) || ((d.op == 1 || d.op == 4) && decide (8 < d.count))

/-- A REG_WR word range meets a register range. -/
def Desc.hits (d : Desc) (lo hi : Nat) : Bool := d.op == 2 && decide (d.addr ≤ hi) && decide (lo < d.addr + d.count)

/-- The descriptor addresses a tile's coefficient banks, CORR_CFG or the LAMP_TRIM registers (R264). -/
def Desc.calibrates (d : Desc) : Bool :=
  (d.op == 3 && ((decide (d.addr < 0x11e000) && decide (0x100000 < d.addr + d.count)) ||
      (decide (d.addr < 0x13e000) && decide (0x120000 < d.addr + d.count)))) ||
    d.hits Reg.CORR_CFG Reg.CORR_CFG ||
    (List.range 4).any fun g => d.hits (Reg.LAMP_TRIM g 0) (Reg.LAMP_TRIM g 31)

/-- The first check of R305 and R264 that a descriptor fails, as its cause. The checks hold of a descriptor that moves nothing too
(DEDUCED, log entry 202). -/
def Chip.descCause (c : Chip) (d : Desc) : Option Nat :=
  if !([1, 2, 3, 4, 5, 6].contains d.op) then some 1
  else if d.tgt = 1 ∨ 3 < d.tgt then some 12
  else if (d.op = 1 ∨ d.op = 4) ∧ d.tgt ≠ 0 then some 12
  else if (d.op = 1 ∨ d.op = 4) ∧ 64 < d.count then some 9
  else if (d.op = 1 ∨ d.op = 4) ∧ 8 < d.count ∧ d.buf = 0 then some 10
  else if (d.op = 1 ∨ d.op = 2) ∧ d.count % 4 ≠ 0 then some 4
  else if d.writes = true ∧ (4096 < d.count ∨ (d.isInline = true ∧ 24 < d.count)) then some 9
  else if d.op = 6 ∧ d.arg % 256 ≠ 0 ∧ (d.arg / 256 % 256 = 0 ∨ 6 < d.arg / 256 % 256) then some 9
  else if d.usesBuf = true ∧ c.granTop < d.buf + d.count then some 10
  else if d.usesBuf = true ∧ d.writes = true ∧ (c.gPeek d.buf d.count).2 = true then some 11
  else if d.calibrates = true ∧ d.count ≠ 0 ∧ c.flag .HALO_PUSH_CFG_GUARD = true then some 8
  else none

/-- The data a descriptor's cell carries. -/
def Chip.descData (c : Chip) (d : Desc) : List Byte :=
  if d.writes then if d.isInline then d.inl.take d.count else (c.gPeek d.buf d.count).1
  else if d.op = 1 ∨ d.op = 4 then leBytes d.count 0
  else []

/-- The command cell of a descriptor. -/
def Chip.descCmd (c : Chip) (d : Desc) (token : Nat) (replay : Bool) : Cmd :=
  { ctr := 0, token := token, op := d.op, unauth := false, replay := replay, addr := d.addr, arg := d.arg
    data := c.descData d }

/-- The chain ports of a mask. -/
def portsOf (mask : Nat) : List Nat := (List.range 16).filter (bitAt mask)

/-- A ring's command joins a port's queue. -/
def Chip.queueCmd (c : Chip) (n amode dest num : Nat) (cmd : Cmd) : Chip :=
  let hdr : Hdr := { amode := amode, dest := dest, ke := 0, sidx := c.sidx, port := n }
  c.onPort n fun p => { p with cmds := p.cmds ++ [(hdr, cmd, some (0, num))] }

/-- The multicast token: the sender-wide counter, or in Twin mode the pair's (R310, R341). -/
def Chip.multiToken (c : Chip) (w m : Nat) : Nat :=
  if c.mode = 4 then 0x80000000 + (w * 2 ^ 17 + m % 2 ^ 17) % 2 ^ 31 else 0x80000000 + c.well.mcToken % 2 ^ 31

/-- The ports a multicast goes out on: those of PMASK whose link is up (R315). -/
def Chip.multiPorts (c : Chip) (d : Desc) : List Nat := (portsOf d.pmask).filter fun n => c.linkUpAt n && c.serves n

/-- The tiles of split segments under the peer: those listed LOST on the ports in split service (R335). -/
def Chip.segment (c : Chip) : List Nat :=
  (portsOf (c.get .TWIN_PORTS_SPLIT)).flatMap fun n => ((c.port n).devs.filter (·.st == .lost)).map (·.wdn)

/-- The tiles of split segments that a multicast names (R315, R335). -/
def Chip.segmentNamed (c : Chip) (d : Desc) : List Nat :=
  ((portsOf d.pmask).filter fun n => bitAt (c.get .TWIN_PORTS_SPLIT) n).flatMap fun n =>
    (((c.port n).devs.filter fun x => x.st == .lost && (d.tgt == 3 || x.groups.contains d.group))).map (·.wdn)

/-- A checked descriptor's cells are sent: its token is taken, the descriptor is in flight (R305, R310, R315). -/
def Chip.dispatch (c : Chip) (w : Nat) (t : Taken) : Chip :=
  match c.pairAt w with
  | none => c
  | some p =>
    let d := t.desc
    if d.tgt = 0 then
      let tok := p.nextToken
      let c := c.setPair' w { p with nextToken := if tok = 0x7effffff then 0 else tok + 1 }
      match c.portOfWdn p.wdn with
      | some n =>
        let t := { t with token := tok, cells := [n] }
        let c := c.onWell fun x => { x with taken := x.taken.map fun u => if u.num = t.num then t else u }
        (c.queueCmd n 0 p.wdn t.num (c.descCmd d tok t.replay)).pairSync w
      | none =>
        let t := { t with token := tok, waits := [(0x100, p.wdn)] }
        let c := c.onWell fun x => { x with taken := x.taken.map fun u => if u.num = t.num then t else u }
        (c.emit (.twin 4 [p.wdn, tok, d.op, d.addr, d.arg] (c.descData d))).pairSync w
    else
      let tok := c.multiToken w p.mcount
      let c := c.setPair' w { p with mcount := p.mcount + 1 }
      let c := c.when (c.mode != 4) fun c => c.onWell fun x => { x with mcToken := x.mcToken + 1 }
      let ports := c.multiPorts d
      let far := c.segmentNamed d
      let t := { t with token := tok, cells := ports, waits := far.map fun x => (0x100, x) }
      let c := c.each far fun c x => c.emit (.twin 4 [x, tok, d.op, d.addr, d.arg] (c.descData d))
      let c := c.onWell fun x => { x with taken := x.taken.map fun u => if u.num = t.num then t else u }
      let c := c.each ports fun c n =>
        c.queueCmd n (if d.tgt = 2 then 2 else 3) (if d.tgt = 2 then d.group else 0) t.num (c.descCmd d tok t.replay)
      (c.tryComplete t.num).pairSync w

/-- A unicast descriptor's tile can be reached: in service here, or in a split segment under the peer (R306, R335). -/
def Chip.reachable (c : Chip) (wdn : Nat) : Bool :=
  (c.portOfWdn wdn).isSome || c.segment.contains wdn

/-- Commands sent to a tile whose outcome is not yet in an acknowledged copy (R341). -/
def Chip.unackedFor (c : Chip) (wdn : Nat) : Nat :=
  (c.well.taken.filter fun t => t.desc.multi || (match c.pairAt t.pair with | some p => p.wdn == wdn | none => false)).length +
    (c.well.held.filter fun h => match c.pairAt h.pair with | some p => p.wdn == wdn | none => false).length

/-- The head descriptor of a pair's command ring. -/
def Chip.headDesc (c : Chip) (p : Pair) : Desc := c.readDesc (p.sqBase + 64 * (p.sqHead % 2 ^ p.sqLog))

/-- May the Well take the head of a ring (R306, R307, R309, R319, R341, R342)? -/
def Chip.canTake (c : Chip) (w : Nat) (p : Pair) : Bool :=
  c.enabled 0x80 && !c.well.draining && p.state == 1 && p.block.isNone && p.sqHead != p.sqTail && c.creditFree w p &&
    decide (c.well.taken.length < 2 ^ 20) && c.get .TWIN_STAT_ROLE != 4 && c.get .TWIN_STAT_ROLE != 2 &&
    (let d := c.headDesc p
     (!d.multi || decide ((c.well.taken.filter (·.desc.multi)).length < 256)) &&
       (c.mode != 4 || decide (c.unackedFor p.wdn < 512)))

/-- The head descriptor is taken: a completion credit is reserved and SQ_HEAD advances (R306, R312). -/
def Chip.takeHead (c : Chip) (w : Nat) (p : Pair) (replay : Bool) : Chip × Taken :=
  let t : Taken := { num := c.well.nextNum, pair := w, sq := p.sqHead, desc := c.headDesc p, token := 0, cells := []
                     waits := [], ok := 0, bad := [], replay := replay, after := [], dup := false, data := [], got := [] }
  let c := c.onWell fun x => { x with taken := x.taken ++ [t], nextNum := x.nextNum + 1 }
  (c.setPair' w { p with sqHead := (p.sqHead + 1) % 65536 }, t)

/-- Hold a ring's later descriptors until this one completes (R307–R309). -/
def Chip.blockBy (c : Chip) (w num : Nat) : Chip := c.onPair w fun p => { p with block := some num }

/-- A descriptor is taken and acted on: fence, barrier, failed check, empty transfer, or its cells (R305–R309). -/
def Chip.takeDesc (c : Chip) (w : Nat) (replay : Bool) : Chip :=
  match c.pairAt w with
  | none => c
  | some p =>
    let before := c.well.taken
    let x := c.takeHead w p replay
    let c := x.1
    let t := x.2
    let d := t.desc
    if d.op = 0x11 then
      if c.bell.tick.isSome && decide (d.aux ≤ c.lastIndex) then c.complete t { result 0 0 with late := true } 0
      else c.blockBy w t.num
    else if d.op = 0x10 then
      let after := (before.filter fun u => u.pair == w || bitAt d.dflags 3).map (·.num)
      let c := c.onWell fun y => { y with taken := y.taken.map fun u => if u.num = t.num then { u with after := after } else u }
      c.blockBy w t.num
    else
      let c := if d.usesBuf && d.writes && decide (d.buf + d.count ≤ c.granTop) then c.gReadCount d.buf d.count else c
      match c.descCause d with
      | some k => c.complete t (result 1 k) 0
      | none =>
        if d.count = 0 ∧ d.op ≤ 4 then c.complete t (result 0 0) 0
        else if d.tgt = 0 ∧ c.reachable p.wdn = false then c.complete t (result 1 13) 0
        else
          let c := if bitAt d.dflags 0 then c.blockBy w t.num else c
          c.dispatch w t

/-- A fence or barrier that holds a ring completes if its condition holds (R307, R308). -/
def Chip.unblock (c : Chip) (w op : Nat) : Chip :=
  match c.pairAt w with
  | none => c
  | some p =>
    match p.block.bind fun k => c.well.taken.find? (·.num == k) with
    | none => c
    | some t =>
      if t.desc.op = op ∧ op = 0x10 ∧ t.after = [] then c.complete t (result 0 0) 0
      else if t.desc.op = op ∧ op = 0x11 ∧ c.bell.tick.isSome = true ∧ t.desc.aux ≤ c.lastIndex then
        c.complete t (result 0 0) 0
      else c

/-- A ring operation ends with a result (WELL_RING_RES, R326). -/
def Chip.ringRes (c : Chip) (w r : Nat) : Chip :=
  (c.setNat Reg.WELL_RING_RES (r % 8 * 2 ^ 28 + w % 16384)).raise .WELL_RING_DONE

/-- A ring table entry can be enabled (R301, R302). -/
def Chip.entryOk (c : Chip) (p : Pair) : Bool :=
  decide (4 ≤ p.sqLog) && decide (p.sqLog ≤ 15) && decide (p.sqLog ≤ p.cqLog) && decide (p.cqLog ≤ 15) &&
    p.sqBase % 4096 == 0 && p.cqBase % 4096 == 0 && decide (p.sqBase + 64 * 2 ^ p.sqLog ≤ c.granTop) &&
    decide (p.cqBase + 32 * 2 ^ p.cqLog ≤ c.granTop)

/-- A pair as its ring table entry's H fields give it, counters at 0 (R301, R302). -/
def Chip.readPair (c : Chip) (w : Nat) : Pair :=
  let a := c.rtBase + 64 * w
  { wdn := c.gLe (a + 0x10) 2, sqBase := c.gLe a 8, cqBase := c.gLe (a + 8) 8, sqLog := c.gLe (a + 0x12) 1
    cqLog := c.gLe (a + 0x13) 1, ngrp := c.gLe (a + 0x14) 1 % 32, rflags := c.gLe (a + 0x15) 1
    nthresh := c.gLe (a + 0x16) 2, sqHead := 0, sqTail := 0, cqTail := 0, cqHead := 0, state := 1, haltCode := 0
    haltCause := 0, telDrop := 0, evtDrop := 0, nextToken := 0, mcount := 0, dropTel := 0, dropEvt := 0, flushTo := none
    block := none, stamps := [] }

/-- ENABLE of a pair (R302). -/
def Chip.ringEnable (c : Chip) (w : Nat) : Chip :=
  if (c.pairAt w).isSome then c.ringRes w 3
  else
    let p := c.readPair w
    if c.entryOk p then ((c.setPair' w p).pairSync w).ringRes w 0 else c.ringRes w 1

/-- A halted ring being flushed completes one descriptor; with none left it is HALTED again, and the FLUSH operation is over
(R309). -/
def Chip.flushOne (c : Chip) (w : Nat) : Chip :=
  match c.pairAt w with
  | none => c
  | some p =>
    match p.flushTo with
    | none => c
    | some e =>
      if p.sqHead = e then
        let c := c.onPair w fun p => { p with state := 2, flushTo := none }
        if c.flag .WELL_RING_RES_BUSY && c.get .WELL_RING_RES_RING == w then c.ringRes w 0 else c
      else if c.creditFree w p then
        let x := c.takeHead w p false
        let keep := { x.2 with desc := { x.2.desc with dflags := x.2.desc.dflags / 2 * 2 } }
        x.1.complete keep (result 1 14) 0
      else c

/-- The flush goes on while completion entries are free (R309). -/
def Chip.flushAll (c : Chip) (w : Nat) : Nat → Chip
  | 0 => c.flushOne w
  | k + 1 => (c.flushOne w).flushAll w k

/-- How many descriptors a flush of a pair can still complete. -/
def Chip.flushLeft (c : Chip) (w : Nat) : Nat :=
  match c.pairAt w with
  | none => 0
  | some p => match p.flushTo with | none => 0 | some e => idxDist e p.sqHead

/-- FLUSH of a halted ring up to the SQ_TAIL in force (R309). The operation is in progress, and BUSY reads 1, until the ring has
returned to HALTED (DEDUCED, log entry 147). -/
def Chip.ringFlush (c : Chip) (w : Nat) : Chip :=
  match c.pairAt w with
  | none => c.ringRes w 3
  | some p =>
    if p.state = 2 then
      let c := (c.setPair' w { p with state := 3, flushTo := some p.sqTail }).setNat Reg.WELL_RING_RES (2 ^ 31 + w % 16384)
      (c.pairSync w).flushAll w (c.flushLeft w)
    else c.ringRes w 3

/-- RESUME of a halted ring at SQ_HEAD (R309). -/
def Chip.ringResume (c : Chip) (w : Nat) : Chip :=
  match c.pairAt w with
  | none => c.ringRes w 3
  | some p => if p.state = 2 then (c.onPair w fun p => { p with state := 1 }).ringRes w 0 else c.ringRes w 3

/-- DISABLE of an empty ring with nothing in flight (R309). -/
def Chip.ringDisable (c : Chip) (w : Nat) : Chip :=
  match c.pairAt w with
  | none => c.ringRes w 3
  | some p =>
    if p.state = 3 then c.ringRes w 3
    else if (c.takenOf w).isEmpty && p.sqHead == p.sqTail then
      let c := c.onPair w fun p => { p with state := 0 }
      (c.onWell fun x => { x with pairs := x.pairs.filter (·.1 != w) }).ringRes w 0
    else c.ringRes w 2

/-- A refused doorbell (R303). -/
def Chip.dbErr (c : Chip) : Chip := (c.count Reg.WELL_DB_ERR).raise .WELL_DB_ERR

/-- An SQ doorbell (R303). -/
def Chip.sqDoorbell (c : Chip) (w v : Nat) : Chip :=
  match c.pairAt w with
  | none => c.dbErr
  | some p => if 2 ^ p.sqLog < idxDist v p.sqHead then c.dbErr else c.setPair' w { p with sqTail := v % 65536 }

/-- A CQ doorbell: credits come free, and what waited for them proceeds (R303, R309, R312). -/
def Chip.cqDoorbell (c : Chip) (w v : Nat) : Chip :=
  match c.pairAt w with
  | none => c.dbErr
  | some p =>
    if p.unconsumed < idxDist v p.cqHead then c.dbErr
    else
      let c := (c.setPair' w { p with cqHead := v % 65536, stamps := p.stamps.drop (idxDist v p.cqHead) }).putDrops w
      c.flushAll w (c.flushLeft w)

/-- A doorbell of a Twin pair takes effect only after the mirror writes before it (R336); an SQ doorbell is told to the
standby, which keeps the mirrored SQ_TAIL (R341). -/
def Chip.doorbell (c : Chip) (kind w v : Nat) : Chip :=
  let c := if c.twinHolds && kind == 0 then c.emit (.twin 14 [w, v] []) else c
  if c.twinHolds ∧ c.nat Reg.TWIN_MIRROR_LAG ≠ 0 then
    c.onTwin fun x => { x with doorbells := x.doorbells ++ [(kind, w, v)] }
  else if kind = 0 then c.sqDoorbell w v
  else c.cqDoorbell w v

/-- A word of the MSI-X table is written (R303): message address, message data, vector control with its mask bit. A message that
the mask held is sent where its source is still pending (R321). -/
def Chip.msixWord (c : Chip) (v k x : Nat) : Chip :=
  let old := assoc c.pcie.table v
  let row := match old with | some (a, d) => (a, d) | none => (0, 0)
  let new := if k = 0 then (row.1 / 2 ^ 32 * 2 ^ 32 + x, row.2) else if k = 1 then (x * 2 ^ 32 + row.1 % 2 ^ 32, row.2) else (row.1, x)
  if k < 3 then c.onPcie fun p => { p with table := assocPut p.table v new }
  else
    let c := c.onPcie fun p => { p with vecMask := if x % 2 = 1 then v :: p.vecMask.filter (· != v) else p.vecMask.filter (· != v) }
    if c.fab.vecHeld.contains v && (vectorBest c v).isSome then sendVector c v else c

/-- A BAR2 write (R303): doorbells, and the MSI-X table; the pending bits take no write, and an access that is not aligned does
nothing (R5). -/
def Chip.bar2Doorbell (c : Chip) (off v : Nat) : Chip :=
  if off % 4 ≠ 0 then c
  else if off < 0x10000 then c.doorbell 0 (off / 4) (v % 65536)
  else if off < 0x20000 then c.doorbell 1 ((off - 0x10000) / 4) (v % 65536)
  else if off < 0x20400 then c.msixWord ((off - 0x20000) / 16) (off / 4 % 4) (v % 2 ^ 32)
  else c

/-- An entry remains unconsumed HOLDOFF after it was written (R318): time passes to that instant of the oldest entry not yet
notified for it, and the pair is notified for every entry that has waited so long. -/
def Chip.notifyHoldoff (c : Chip) (w : Nat) : Chip :=
  let h := us (c.get .WELL_NOTIFY_CFG_HOLDOFF)
  match c.pairAt w with
  | none => c
  | some p =>
    match p.stamps.find? fun x => !x.2 with
    | none => c
    | some x =>
      let c := c.elapseAge (x.1 + h)
      let told := p.stamps.map fun y => (y.1, y.2 || decide (y.1 + h ≤ c.age))
      let c := c.setPair' w { p with stamps := told }
      if p.notifyEn then c.notifyPair p else c

/-- Records the spill ring can hold (R317: 32 MiB hold 2^20). -/
def Chip.spillRoom (c : Chip) : Nat := c.get .WELL_SPILL_SIZE_MIB * 32768

/-- The Granary takes no Well access: disabled, or a channel is not READY (R287, R317). -/
def Chip.granFrozen (c : Chip) : Bool := !(c.granOn && c.granChannels.all fun n => c.chanState n == 2)

/-- Can the burst queue or the spill ring take `k` more records (R317)? -/
def Chip.burstRoom (c : Chip) (k : Nat) : Bool :=
  decide (c.well.queue.length + k ≤ 8192) ||
    (!c.granFrozen && decide (c.well.queue.length + k ≤ 7168 + c.spillRoom))

/-- WELL_BURST follows the queue. -/
def Chip.showBurst (c : Chip) : Chip :=
  let n := c.well.queue.length
  let spill := decide (7168 < n) && !c.granFrozen
  let c := c.put .WELL_BURST_FILL (min n (if spill then 7168 else 8192))
  if spill && !c.flag .WELL_BURST_SPILLING then (c.put .WELL_BURST_SPILLING 1).raise .WELL_SPILL
  else if n ≤ 7168 then c.put .WELL_BURST_SPILLING 0
  else c

/-- A record accepted from a chain enters the burst queue, or the spill ring (R317). -/
def Chip.accept (c : Chip) (n wdn : Nat) (r : Rec) : Chip :=
  let spill := decide (7168 ≤ c.well.queue.length) && !c.granFrozen
  let c := c.onWell fun x => { x with queue := x.queue ++ [(n, wdn, r)] }
  (if spill then c.count Reg.WELL_SPILLED else c).showBurst

/-- MODE_ACK records. -/
def isModeAck (r : Rec) : Bool :=
  match r with
  | .modeAck _ _ => true
  | _ => false

/-- COMPLETION records. -/
def isCompletion (r : Rec) : Bool :=
  match r with
  | .completion _ _ _ _ _ => true
  | _ => false

/-- EVENT records. -/
def isEvent (r : Rec) : Bool :=
  match r with
  | .event _ _ _ => true
  | _ => false

/-- TELEMETRY records. -/
def isTelemetry (r : Rec) : Bool :=
  match r with
  | .telemetry _ _ => true
  | _ => false

/-- DROPS records. -/
def isDrops (r : Rec) : Bool :=
  match r with
  | .drops _ => true
  | _ => false

/-- BOOT records. -/
def isBoot (r : Rec) : Bool :=
  match r with
  | .boot _ _ _ _ => true
  | _ => false

/-- MUTE_REPORT records. -/
def isMuteReport (r : Rec) : Bool :=
  match r with
  | .muteReport _ _ _ _ => true
  | _ => false

/-- MANDATE records. -/
def isMandate (r : Rec) : Bool :=
  match r with
  | .mandate _ _ => true
  | _ => false

/-- The record at the head of the burst queue is taken if it is of the kind asked for. -/
def Chip.popRecord (c : Chip) (p : Rec → Bool) : Option (Chip × Nat × Nat × Rec) :=
  match c.well.queue with
  | [] => none
  | (n, w, r) :: q => if p r then some ((c.onWell fun x => { x with queue := q }).showBurst, n, w, r) else none

/-- The enabled pairs bound to a WDN. -/
def Chip.pairsOf (c : Chip) (wdn : Nat) : List Nat :=
  (c.well.pairs.filter fun x => x.2.wdn == wdn && x.2.state == 1).map (·.1)

/-- Every descriptor taken and not completed ends with a code, whatever it waits for (R367). -/
def Chip.endTaken (c : Chip) (code : Nat) : Chip := c.each c.well.taken fun c t => c.complete t (result code 0) t.bad.length

/-- Every command in flight on a port from a ring ends with a code (R313, R363, R367). -/
def Chip.endFlight (c : Chip) (n code : Nat) : Chip :=
  let fl := (c.port n).flight
  let c := c.onPort n fun p => { p with flight := [] }
  c.each fl fun c f =>
    match f.src with
    | none => c
    | some s => c.each f.waits fun c w => c.outcome s.2 n w code 0 false []

end Sys2Proof.Machine
end

