-- ==== Sys2Proof/Machine/OpsGate.lean ====
section
/-!
DEFINITION. The Gatehouse: measurements (R350), claims (R353), attestation reports (R360), key slots (R361, R362), the
access policy (R364, R365), tamper and Quarantine (R366–R369).
-/

namespace Sys2Proof.Machine

/-- Extend Mi with an item: Mi = SHA-384(Mi ‖ SHA-384(item)) (R350). -/
def Chip.extend (c : Chip) (i : Nat) (item : List Byte) : Chip :=
  c.onGate fun g => { g with
    m := listPut g.m i (Config.sha384 (beBytes 48 (listAt g.m i 0) ++ beBytes 48 (Config.sha384 item))) }

/-- The item by which M3 is extended: what happened and its number. R350 names the occasions and not the item's bytes
(free, log entry 20). -/
def m3Item (what n : Nat) : List Byte := Config.measured what n

/-- An empty key slot. -/
def emptySlot : KeySlot := { state := 0, kind := 0, key := 0, next := none, epoch := 0, users := 0, pend := none }

/-- A key slot by number. -/
def Chip.slot (c : Chip) (n : Nat) : KeySlot := listAt c.gate.slots n emptySlot

/-- Store a key slot. -/
def Chip.setSlot (c : Chip) (n : Nat) (k : KeySlot) : Chip := c.onGate fun g => { g with slots := listPut g.slots n k }

/-- A key loaded into a slot. -/
def loadedSlot (kind key epoch : Nat) (next : Option Nat) : KeySlot :=
  { state := 1, kind := kind, key := key, next := next, epoch := epoch, users := 0, pend := none }

/-- Is the slot available in the role (R361)? -/
def Chip.slotHere (c : Chip) (n : Nat) : Bool :=
  if c.isSender then decide (n < 32)
  else n == 0 || n == 1 || n == 2 || n == 7 || n == 8 || (decide (24 ≤ n) && decide (n < 32))

/-- Operations in progress that name a slot (R361): on a sender's chain slot the commands queued and in flight and the slice being
sent, on slot 0 a report under way, on slot 3 a handshake under way, on slot 4 a copy on its way, on slot 6 a bundle being
verified, on a tile's slot 8 a slice being received. -/
def Chip.slotUsers (c : Chip) (n : Nat) : Nat :=
  (c.slot n).users +
  (if 8 ≤ n ∧ n < 24 ∧ c.isSender = true then
     (c.port (n - 8)).cmds.length + (c.port (n - 8)).flight.length + (if (c.port (n - 8)).pixels.isEmpty then 0 else 1)
   else if n = 8 ∧ c.isTile = true then (if c.get .NIMBUS_STAT_SLICE = 1 then 1 else 0)
   else if n = 0 then (if c.flag .GATE_ATT_STAT_BUSY then 1 else 0)
   else if n = 3 then (if c.mgmt.hello.isSome then 1 else 0)
   else if n = 4 then (if c.twin.copyOut.isSome then 1 else 0)
   else if n = 6 then (if c.get .UPDATE_DL_STAT_STATE = 2 then 1 else 0)
   else 0)

/-- The policy entry as it stands at reset (R364): pages 0x0000_FFFF, slots 24–31 0x0000_00FF, other slots 0x0000_003C. -/
def polReset (n : Nat) : Nat := if n < 4096 then 0xffff else if 4096 + 24 ≤ n then 0xff else 0x3c

/-- A mask as a requester sees it: bits 2–5 read 1, bit 7 acts as 0 unless DEBUG_OPEN (R364). -/
def Chip.allows (c : Chip) (mask : Nat) (rq : Requester) : Bool :=
  match rq with
  | .core _ => true
  | .debug => bitAt mask 7 && c.flag .GATE_LIFECYCLE_DEBUG_OPEN
  | r => bitAt mask r.code

/-- The policy in force allows an access to a page (R364). -/
def Chip.pageAllowed (c : Chip) (rq : Requester) (page : Nat) (write : Bool) : Bool :=
  let e := spGet polReset c.gate.pol page
  c.allows (if write then e / 256 else e % 256) rq

/-- The policy in force allows a requester the use of a key slot (R364). -/
def Chip.slotAllowed (c : Chip) (rq : Requester) (n : Nat) : Bool := c.allows (spGet polReset c.gate.pol (4096 + n) % 256) rq

/-- A KEYS operation ends with a result (KEYS_STAT; OP_DONE or OP_FAIL). -/
def Chip.keyResult (c : Chip) (n r : Nat) : Chip :=
  let pend := if c.gate.slots.any (·.pend.isSome) then 2 ^ 30 else 0
  (c.setNat Reg.KEYS_STAT (pend + r % 16 * 2 ^ 24 + n % 32)).raise (if r = 0 then .KEYS_OP_DONE else .KEYS_OP_FAIL)

/-- Bytes of KEYS_BUF. -/
def Chip.keyBuf (c : Chip) (n : Nat) : List Byte := ((List.range 64).flatMap fun k => leBytes 4 (c.nat (Reg.KEYS_BUF k))).take n

/-- Bytes left in KEYS_BUF. -/
def Chip.setKeyBuf (c : Chip) (b : List Byte) : Chip :=
  c.each (List.range 64) fun c k => c.setNat (Reg.KEYS_BUF k) (leNat ((b.drop (4 * k)).take 4))

/-- A number drawn from the part's DRBG. -/
def Chip.randomNow (c : Chip) : Nat := Config.random c.draws

/-- A key is written to a slot: at once, or as the pending write of a slot in use (R362). -/
def Chip.writeSlot (c : Chip) (n kind key : Nat) : Chip :=
  let k := c.slot n
  if k.pend.isSome then c.keyResult n 5
  else if c.slotUsers n = 0 then (c.setSlot n (loadedSlot kind key 0 none)).keyResult n 0
  else
    let c := c.setSlot n { k with state := 2, pend := some (kind, key) }
    c.put .KEYS_STAT_PENDING_WRITE 1

/-- The pending write of a slot takes effect once its earlier users are done (R362). -/
def Chip.pendingWrite (c : Chip) (n : Nat) : Chip :=
  match (c.slot n).pend with
  | none => c
  | some p => (c.setSlot n (loadedSlot p.1 p.2 0 none)).keyResult n 0

/-- A checked KEYS operation: refused where the role lacks the slot or the policy denies it (R361, R364). -/
def Chip.keyGate (c : Chip) (rq : Requester) (n : Nat) (f : Chip → Chip) : Chip :=
  if c.flag .KEYS_STAT_BUSY then c.reject Reg.KEYS_CTRL
  else if !c.slotHere n || !c.slotAllowed rq n then c.keyResult n 1
  else f c

/-- WRITE_PUBLIC: 97 bytes of KEYS_BUF into slot 3 or 6 (R361, R362). -/
def Chip.writePublic (c : Chip) (rq : Requester) (len : Nat) : Chip :=
  let n := c.get .KEYS_SEL_SLOT
  c.keyGate rq n fun c =>
    if n < 3 then c.keyResult n 2
    else if len ≠ 97 then c.keyResult n 3
    else if n = 3 ∨ n = 6 then c.writeSlot n 4 (beNat (c.keyBuf 97))
    else c.keyResult n 6

/-- IMPORT: a wrapped blob of this part into a USER slot; `ok` is whether it unwraps under SEAL (R362). -/
def Chip.keyImport (c : Chip) (rq : Requester) (len : Nat) (ok : Bool) : Chip :=
  let n := c.get .KEYS_SEL_SLOT
  c.keyGate rq n fun c =>
    if n < 3 then c.keyResult n 2
    else if len ≠ 60 ∧ len ≠ 76 then c.keyResult n 3
    else if n < 24 then c.keyResult n 6
    else if ok then c.writeSlot n (if len = 60 then 1 else 3) (Config.kdf 1 [(c.slot 1).key, beNat (c.keyBuf len)])
    else c.keyResult n 4

/-- GENERATE: a key drawn into a USER slot, left wrapped under SEAL in KEYS_BUF, with the public key of a P-384 pair
(R362). -/
def Chip.keyGenerate (c : Chip) (rq : Requester) (ec : Bool) : Chip :=
  let n := c.get .KEYS_SEL_SLOT
  c.keyGate rq n fun c =>
    if n < 3 then c.keyResult n 2
    else if n < 24 then c.keyResult n 6
    else if (c.slot n).pend.isSome then c.keyResult n 5
    else
      let key := c.randomNow
      let iv := Config.random (c.draws + 1)
      let c := c.redraw.redraw
      let blob := beBytes 12 iv ++ (Config.gcm (c.slot 1).key iv (beBytes (if ec then 48 else 32) key)).take (if ec then 64 else 48)
      (c.setKeyBuf (blob ++ if ec then Config.public key else [])).writeSlot n (if ec then 3 else 1) key

/-- A slot is zeroised; a pending write of it is discarded (R362). -/
def Chip.zeroSlot (c : Chip) (n : Nat) : Chip := c.setSlot n emptySlot

/-- Every volatile slot is zeroised. -/
def Chip.zeroVolatile (c : Chip) : Chip :=
  c.onGate fun g => { g with slots := g.slots.take 3 ++ List.replicate 29 emptySlot }

/-- OPEN_DEBUG: `ok` is whether the token's authority signature verifies; its SERIAL and EXPIRY are read from KEYS_BUF
(R351). -/
def Chip.openDebug (c : Chip) (rq : Requester) (len : Nat) (ok : Bool) : Chip :=
  c.keyGate rq 2 fun c =>
    let n := c.get .KEYS_SEL_SLOT
    if len ≠ 112 then c.keyResult n 3
    else
      let b := c.keyBuf 112
      if ok && beNat (b.take 8) == c.fuses.serial && decide (secOf c.bell.time ≤ beNat ((b.drop 8).take 8)) then
        let c := (c.zeroVolatile.extend 3 (m3Item 3 0)).put .GATE_LIFECYCLE_DEBUG_OPEN 1
        (c.raise .GATE_DEBUG_OPEN).keyResult n 0
      else c.keyResult n 4

/-- A tile is claimed while its highest burned record is not released (R353). -/
def Fuses.claimed (f : Fuses) : Bool := match f.claims.getLast? with | some x => !x.2 | none => false

/-- A tile is spent once all 8 records are burned and the last is released (R353). -/
def Fuses.spent (f : Fuses) : Bool := f.claims.length == 8 && !f.claimed

/-- The bound owner's key hash: the tile's record, or that of slot 3 in a sender. -/
def Chip.ownerHash (c : Chip) : Option Nat :=
  if c.isTile then
    if c.fuses.claimed then c.fuses.claims.getLast?.map (·.1) else none
  else if (c.slot 3).state = 1 then some (Config.sha384 (beBytes 97 (c.slot 3).key)) else none

/-- OWNER_ID: the first 8 bytes of the bound owner's key hash; 0 = none (R360). -/
def Chip.ownerId (c : Chip) : Nat := match c.ownerHash with | some h => h / 2 ^ 320 | none => 0

/-- ACTION CLAIM: `hash` is SHA-384 of OWNER_KEY, `sig` whether its signature verifies, `burn` whether the burned record
reads back; answers the cause, 0 for OK (R353). -/
def Chip.claim (c : Chip) (hash : Nat) (sig burn : Bool) : Chip × Nat :=
  if !sig then (c, 128)
  else if c.fuses.claimed then
    (c, if c.fuses.claims.getLast?.map (·.1) = some hash then 0 else 129)
  else if c.fuses.spent then (c, 131)
  else if !burn then (c, 132)
  else ({ c with fuses := { c.fuses with claims := c.fuses.claims ++ [(hash, false)] } }.raise .GATE_CLAIMED, 0)

/-- ACTION RELEASE (R353). -/
def Chip.releaseClaim (c : Chip) (hash : Nat) (sig burn : Bool) : Chip × Nat :=
  match c.fuses.claims.getLast? with
  | none => (c, 130)
  | some x =>
    if x.2 then (c, 130)
    else if !sig || x.1 != hash then (c, 128)
    else if !burn then (c, 132)
    else ({ c with fuses := { c.fuses with claims := c.fuses.claims.dropLast ++ [(x.1, true)] } }.raise .GATE_RELEASED, 0)

/-- Admitted tiles in ascending WDN, as a sender's report digests them (R360). -/
def Chip.reportTiles (c : Chip) : List Dev :=
  ((List.range 16).flatMap fun n => c.serving n).mergeSort fun a b => decide (a.wdn ≤ b.wdn)

/-- A most-significant-first field of a structure (R348): its offset and bytes. -/
def beField (b : List Byte) (off n : Nat) : Nat := beNat ((b.drop off).take n)

/-- An identity certificate is of the form of R348 and lets the part act in a role (ROLE_USE bit 0 sender, 1 tile). Whether its
SIGNATURE verifies is not judged here. -/
def idCertOk (b : List Byte) (use : Nat) : Bool :=
  beField b 0 4 == 0x48494331 && beField b 4 2 == 1 && bitAt (beField b 6 1) use

/-- An owner certificate is of the form of R352, of a KIND, under an OWNER_KEY whose SHA-384 is `hash`, and valid at the domain
seconds `now` (R354). Whether its SIGNATURE verifies is not judged here. -/
def ownerCertOk (b : List Byte) (kind hash now : Nat) : Bool :=
  beField b 0 4 == 0x484f4331 && beField b 4 2 == 1 && beField b 6 1 == kind && Config.sha384 ((b.drop 0x88).take 97) == hash &&
    decide (beField b 0x78 8 ≤ now) && (beField b 0x80 8 == 0 || decide (now ≤ beField b 0x80 8))

/-- The bytes of a label that a signature or a key derivation names (R353 to R358). -/
def label (s : String) : List Byte := s.toList.map fun x => BitVec.ofNat 8 x.toNat

/-- The attestation report (R360). -/
def Chip.report (c : Chip) : List Byte :=
  let lot := c.fuses.wafer % 32 * 2 ^ 24 + c.fuses.lot % 2 ^ 24
  let die := c.fuses.site % 16 * 2 ^ 16 + c.fuses.dieY % 256 * 256 + c.fuses.dieX % 256
  let tiles := c.reportTiles
  let list := tiles.flatMap fun d => beBytes 2 d.wdn ++ beBytes 8 d.serial ++ beBytes 48 d.hash ++ beBytes 1 d.tamper
  let body := beBytes 4 0x48415231 ++ beBytes 2 1 ++ beBytes 1 (c.get .SYS_ROLE_ROLE) ++ beBytes 1 c.fuses.lifecycle ++
    beBytes 8 c.fuses.serial ++ beBytes 4 lot ++ beBytes 4 die ++ beBytes 1 c.fuses.tamperCnt ++
    beBytes 1 ((if c.fuses.claimed then 128 else 0) + (if c.fuses.spent then 64 else 0) + c.fuses.claims.length) ++
    beBytes 2 0 ++ beBytes 2 c.fab.epoch ++ beBytes 2 0 ++ beBytes 8 c.ownerId ++ beBytes 8 (secOf c.bell.time) ++
    beBytes 8 c.fuses.svn ++ beBytes 8 0 ++ (c.gate.m.flatMap (beBytes 48)) ++ c.gate.nonce ++
    beBytes 48 (if c.isSender then Config.sha384 list else 0) ++ beBytes 4 (if c.isSender then tiles.length else 0) ++
    beBytes 12 0
  body ++ ((Config.sign (c.slot 0).key body) ++ leBytes 96 0).take 96

/-- GATE_ATT_CTRL.START: ignored while BUSY; in Quarantine or RETURNED it ends with RESULT QUARANTINE (R360), without ATT_DONE; the nonce
is the one GATE_ATT_NONCE holds at START (DEDUCED, log entry 195). -/
def Chip.attStart (c : Chip) : Chip :=
  if c.flag .GATE_ATT_STAT_BUSY then c
  else
    let c := c.put .GATE_ATT_STAT_VALID 0
    if c.flag .GATE_QUAR_ACTIVE || c.fuses.lifecycle == 2 then c.put .GATE_ATT_STAT_RESULT 1
    else (c.put .GATE_ATT_STAT_BUSY 1).onGate fun g =>
      { g with nonce := (List.range 12).flatMap fun k => leBytes 4 (c.nat (Reg.GATE_ATT_NONCE k)) }

/-- The report is complete (R360). -/
def Chip.attDone (c : Chip) : Chip :=
  if c.flag .GATE_ATT_STAT_BUSY then
    let b := c.report
    let c := c.each (List.range 116) fun c k => c.setNat (Reg.GATE_ATT_REPORT k) (leNat ((b.drop (4 * k)).take 4))
    (((c.put .GATE_ATT_STAT_BUSY 0).put .GATE_ATT_STAT_VALID 1).put .GATE_ATT_STAT_RESULT 0).raise .GATE_ATT_DONE
  else c

/-- The shadow policy entry selected by GATE_POL_ADDR. -/
def Chip.polShadowNow (c : Chip) : Nat := spGet polReset c.gate.polShadow (c.get .GATE_POL_ADDR_IDX)

/-- GATE_POL_ADDR.IDX moves on after an access of GATE_POL_DATA; past the last entry it stays. -/
def Chip.polAdvance (c : Chip) : Chip :=
  let i := c.get .GATE_POL_ADDR_IDX
  if c.flag .GATE_POL_ADDR_AUTO_INC && decide (i < 4127) then c.put .GATE_POL_ADDR_IDX (i + 1) else c

/-- GATE_POL_DATA: a shadow entry is stored; a slot entry has no write mask, and the Reeve cores' bits always read 1 (R364,
R365). -/
def Chip.polWrite (c : Chip) (v : Word) : Chip :=
  let i := c.get .GATE_POL_ADDR_IDX
  let n := if i < 4096 then v.toNat % 65536 ||| 0x3c3c else v.toNat % 256 ||| 0x3c
  (c.onGate fun g => { g with polShadow := spSet polReset g.polShadow i n }).polAdvance

/-- GATE_POL_ADDR: an entry above 4,127 is ignored and sets WR_REJ. -/
def Chip.polAddr (c : Chip) (v : Word) : Chip :=
  if 4127 < bitsOf v 12 0 then c.reject Reg.GATE_POL_ADDR else c.wr Reg.GATE_POL_ADDR (v &&& 0x80001fff)

/-- GATE_POL_COMMIT: the shadow becomes the policy in force, the epoch advances, DRAINING reads 1, M3 is extended; ignored
with WR_REJ while DRAINING (R365). -/
def Chip.polCommit (c : Chip) : Chip :=
  if c.fab.draining ≠ 0 then c.reject Reg.GATE_POL_COMMIT
  else
    let c := c.onGate fun g => { g with pol := g.polShadow }
    let c := c.onFab fun f => { f with epoch := (f.epoch + 1) % 65536, draining := 1 }
    c.extend 3 (m3Item 2 c.fab.epoch)

/-- The last access of an older epoch completes (R365). -/
def Chip.polDrained (c : Chip) : Chip :=
  if c.fab.draining = 0 then c else (c.onFab fun f => { f with draining := 0 }).raise .GATE_POLICY_DONE

/-- GATE_TAMPER_EN: written ones set, written zeros have no effect (R366). -/
def Chip.tamperEn (c : Chip) (v : Word) : Chip := c.wr Reg.GATE_TAMPER_EN (c.rd Reg.GATE_TAMPER_EN ||| (v &&& 0x1f))

/-- The source of GATE_TAMPER_EN that a tamper condition belongs to (R366). -/
def Tamper.src : Tamper → Nat
  | .pin k _ => if k = 0 then 0 else 1
  | .supply _ _ => 2
  | .clock _ _ => 3
  | .diode _ _ => 4

/-- The condition of the source holds for the length of its filter (R366). -/
def Tamper.met : Tamper → Bool
  | .pin _ low => decide (4 ≤ low)
  | .supply dev ns => decide (120 < dev) && decide (10 ≤ ns)
  | .clock dev gap => decide (100 < dev) || decide (200 ≤ gap)
  | .diode temp us => (decide (temp < -500) || decide (1450 < temp)) && decide (1000 ≤ us)

/-- Is a tamper source enabled (R366)? -/
def Chip.tamperOn (c : Chip) (src : Nat) : Bool := bitAt (c.nat Reg.GATE_TAMPER_EN) src

/-- A tamper event is latched and counted in SEEN, and TAMPER is raised (R367). -/
def Chip.tamperLatch (c : Chip) (src : Nat) : Chip :=
  let c := c.put .GATE_TAMPER_STAT_LATCHED (setBitAt (c.get .GATE_TAMPER_STAT_LATCHED) src true)
  (c.countF .GATE_TAMPER_STAT_SEEN).raise .GATE_TAMPER

/-- One bit of the fused tamper counter is burned (R368). -/
def Chip.tamperBurn (c : Chip) : Chip :=
  let n := min (c.fuses.tamperCnt + 1) 31
  ({ c with fuses := { c.fuses with tamperCnt := n } }).put .GATE_TAMPER_STAT_COUNTER n

/-- Quarantine is entered with a cause: QUARANTINE is raised (R369). -/
def Chip.quarantine (c : Chip) (cause : Nat) : Chip :=
  if c.flag .GATE_QUAR_ACTIVE then c
  else
    let blocked := { emptySlot with state := 3 }
    let c := ((c.put .GATE_QUAR_ACTIVE 1).put .GATE_QUAR_CAUSE cause).zeroVolatile
    let c := (c.setSlot 0 blocked).setSlot 1 blocked
    c.raise .GATE_QUARANTINE

/-- The volatile secrets go: volatile slots and the sessions they keyed, retention, KEYS_BUF; a report under way ends ABORTED, an operation TAMPERED
(R362, R367). -/
def Chip.tamperZero (c : Chip) : Chip :=
  let c := (c.zeroVolatile.onGate fun g => { g with retained := [] }).setKeyBuf []
  let c : Chip := { c with ports := c.ports.map fun (p : Port) => { p with session := none } }
  let c := (c.onMgmt fun m => { m with session := false, hello := none }).onTile fun t => { t with session := none }
  let c := c.onTwin fun t => { t with keyed := false }
  let c := c.when (c.flag .GATE_ATT_STAT_BUSY) fun c =>
    ((c.put .GATE_ATT_STAT_BUSY 0).put .GATE_ATT_STAT_VALID 0).put .GATE_ATT_STAT_RESULT 2
  c.put .KEYS_STAT_BUSY 0

/-- The key identifier of a slot (KEYS_KID): 0 when EMPTY. -/
def Chip.kid (c : Chip) (n : Nat) : Nat :=
  let k := c.slot n
  if k.state = 0 ∨ k.state = 3 then 0
  else if k.kind = 4 then Config.sha384 (beBytes 97 k.key) / 2 ^ 320
  else if k.kind = 3 then Config.sha384 (Config.public k.key) / 2 ^ 320
  else if k.kind = 5 then Config.kdf 10 [k.key] % 2 ^ 64
  else Config.sha384 ([76, 77, 84, 45, 75, 73, 68].map (BitVec.ofNat 8) ++ beBytes 32 k.key) / 2 ^ 320

/-- KEYS_INFO of the selected slot. -/
def Chip.keyInfo (c : Chip) : Nat :=
  let n := c.get .KEYS_SEL_SLOT
  let k := c.slot n
  k.state % 4 * 2 ^ 30 + k.kind % 16 * 2 ^ 24 + (if k.kind = 2 then k.epoch % 256 else 0) * 2 ^ 16 + min (c.slotUsers n) 65535

/-- KEYS_IN_USE. -/
def Chip.keysInUse (c : Chip) : Nat :=
  (List.range 32).foldl (fun v n => if c.slotUsers n = 0 then v else v + 2 ^ n) 0

/-- GATE_CLAIM from the fuses. -/
def Chip.claimWord (c : Chip) : Nat :=
  (if c.fuses.claimed then 2 ^ 31 else 0) + (if c.fuses.spent then 2 ^ 30 else 0) + c.fuses.claims.length % 16

end Sys2Proof.Machine
end

