-- ==== Sys2Proof/Machine/OpsCap.lean ====
section
/-!
DEFINITION. Chain capacity and pacing (R141, R200), the slice map (R194–R196), the checks of a SCAN commit (R189, R202), the
limits of the return superframe (R126), bands (R201).
-/

namespace Sys2Proof.Machine

/-- The settings a capacity test is made for: canvas, raster, map bank and count, CC10 chains, mode, tick rate. -/
structure Plan where
  w : Nat
  h : Nat
  vs : Nat
  ae : Nat
  bank : Nat
  count : Nat
  cc10 : Nat
  mode : Nat
  deriving DecidableEq, Repr

/-- The plan of the applied SCAN registers. -/
def Chip.planNow (c : Chip) : Plan :=
  { w := c.get .SCAN_CANVAS_W, h := c.get .SCAN_CANVAS_H, vs := max (c.get .SCAN_TIMING_V_START) 2
    ae := c.get .SCAN_STAT_ACTIVE_END, bank := c.get .SCAN_MAP_CFG_BANK, count := c.get .SCAN_MAP_CFG_COUNT
    cc10 := c.get .SCAN_CC10_CHAIN, mode := c.mode }

/-- The plan of the SCAN shadows, ACTIVE_END as written. -/
def Chip.planNext (c : Chip) : Plan :=
  { w := c.getS .SCAN_CANVAS_W, h := c.getS .SCAN_CANVAS_H, vs := max (c.getS .SCAN_TIMING_V_START) 2
    ae := c.getS .SCAN_TIMING_ACTIVE_END, bank := c.getS .SCAN_MAP_CFG_BANK, count := c.getS .SCAN_MAP_CFG_COUNT
    cc10 := c.getS .SCAN_CC10_CHAIN, mode := c.mode }

/-- The bits of a colour on a chain (R197): CC16 in Broadcast, else CC12, or CC10 where the chain's bit says so. -/
def Plan.bits (p : Plan) (n : Nat) : Nat := if p.mode = 1 then 16 else if bitAt p.cc10 n then 10 else 12

/-- A map entry from its 16 bytes (R194), if it is VALID. -/
def Chip.mapEntry (c : Chip) (bank e : Nat) : Option MapEntry :=
  let a := bank * 0x40000 + 16 * e
  let w0 := memLe c.scan.map a 4
  let w1 := memLe c.scan.map (a + 4) 4
  let w2 := memLe c.scan.map (a + 8) 4
  if bitAt w0 31 then
    some { idx := e, wdn := w0 % 65536, x := w1 % 32768, y := w1 / 65536 % 32768, w := w2 % 256, h := w2 / 65536 % 8192 }
  else none

/-- The valid entries of a map. -/
def Chip.mapOf (c : Chip) (p : Plan) : List MapEntry := (List.range (min p.count 16384)).filterMap (c.mapEntry p.bank)

/-- WIDTH_PX and HEIGHT_PX of a descriptor (R19). -/
def descSize (b : List Byte) : Nat × Nat := (leNat ((b.drop 8).take 2), leNat ((b.drop 10).take 2))

/-- The entries whose tiles sit on a port and receive cells (R196), with `also` counted as if it were not
capacity-suspended. -/
def Chip.sentOn (c : Chip) (p : Plan) (n : Nat) (also : Option Nat) : List MapEntry :=
  if !c.serves n then [] else (c.mapOf p).filter fun e =>
    (c.serving n).any fun d => d.wdn == e.wdn && descSize d.desc == (e.w, e.h) && (!d.capSusp || also == some d.wdn)

/-- Pixel data blocks of a cell of `k` pixels at `b` bits (R119). -/
def dataBlocks (b k : Nat) : Nat := (3 * b * k + 63) / 64

/-- The cells of an entry as completing line and blocks, the slice's tag counted with the last (R199, R200). -/
def cellsOf (b : Nat) (e : MapEntry) : List (Nat × Nat) :=
  let n := e.w * e.h
  let k := (n + 255) / 256
  (List.range k).map fun i =>
    let last := min (256 * (i + 1)) n
    (e.y + (last - 1) / max e.w 1, 3 + dataBlocks b (last - 256 * i) + if i + 1 = k then 2 else 0)

/-- A chain's cells under a plan. -/
def Chip.chainCells (c : Chip) (p : Plan) (n : Nat) (also : Option Nat) : List (Nat × Nat) :=
  (c.sentOn p n also).flatMap (cellsOf (p.bits n))

/-- Links from the sender to the last tile in service on a port. -/
def Chip.chainLen (c : Chip) (n : Nat) : Nat := (c.serving n).foldl (fun m d => max m (c.devPos n d)) 0

/-- D_tail in sub-nanoseconds: the cable delays of the links and the greatest hop delay of each tile but the last. -/
def Chip.dTail (c : Chip) (n : Nat) : Nat :=
  let k := c.chainLen n
  let cables := (List.range k).foldl (fun a i => a + ((assoc (c.port n).delayAvg (i + 1)).getD 0).toNat) 0
  cables * 256 + (k - 1) * ns (hopMax (c.rateCode (n / 2)))

/-- The window P − G − D_tail of a chain, in sub-nanoseconds. -/
def Chip.window (c : Chip) (n : Nat) : Nat := c.period - c.guard - c.dTail n

/-- A: a chain's blocks in a tick period after markers. -/
def Chip.chainA (c : Chip) (n : Nat) : Nat := 100 * c.window n / betaOf (c.rateCode (n / 2)) * 16383 / 16384

/-- The blocks beside pixels: beacons, RACK, commands, boot cells (R141). -/
def Chip.overhead (c : Chip) (n : Nat) : Nat :=
  11 * ((c.period + us 125 - 1) / us 125) + 20 + c.get (.CHAIN_CMD_BUDGET_BLOCKS n) + c.get .UPDATE_BOOT_BUDGET_BLOCKS

/-- Total blocks of a list of cells. -/
def totalBlocks (l : List (Nat × Nat)) : Nat := l.foldl (fun a x => a + x.2) 0

/-- Blocks completed by the end of line `y`. -/
def blocksBy (l : List (Nat × Nat)) (y : Nat) : Nat := totalBlocks (l.filter fun x => decide (x.1 ≤ y))

/-- Blocks completed before line `y`. -/
def blocksBefore (l : List (Nat × Nat)) (y : Nat) : Nat := totalBlocks (l.filter fun x => decide (x.1 < y))

/-- R141 for a chain: the demand fits A, or three quarters of A in Swift mode. -/
def Chip.capOk (c : Chip) (p : Plan) (n : Nat) (also : Option Nat) : Bool :=
  let d := totalBlocks (c.chainCells p n also) + c.overhead n
  if p.mode = 3 then decide (4 * d ≤ 3 * c.chainA n) else decide (d ≤ c.chainA n)

/-- T_line in ns (R188). -/
def Plan.tLine (p : Plan) : Nat := (p.ae - p.vs) * 1000 / max p.h 1

/-- t_y in sub-nanoseconds after the tick (R188). -/
def Plan.ty (p : Plan) (y : Nat) : Nat := us p.vs + ns ((y + 1) * p.tLine)

/-- β_eff as a fraction in sub-nanoseconds; none while nothing is left for pixels (R200). -/
def Chip.betaEff (c : Chip) (n : Nat) : Option (Nat × Nat) :=
  let a := c.chainA n
  if c.overhead n < a then some (betaOf (c.rateCode (n / 2)) * a, 100 * (a - c.overhead n)) else none

/-- F of a list of cells, times the denominator of β_eff (R200). -/
def Plan.finish (p : Plan) (l : List (Nat × Nat)) (be : Nat × Nat) : Nat :=
  let all := totalBlocks l
  (List.range p.h).foldl (fun m y => max m (p.ty y * be.2 + (all - blocksBefore l y) * be.1)) 0

/-- The greatest egress queue of a list of cells (R200). -/
def Plan.queue (p : Plan) (l : List (Nat × Nat)) (be : Nat × Nat) : Nat :=
  (List.range p.h).foldl (fun m y =>
    (List.range (y + 1)).foldl (fun m j =>
      max m (blocksBy l y - blocksBefore l j - (p.ty y - p.ty j) * be.2 / max be.1 1)) m) 0

/-- Both tests of R200 for a chain. -/
def Chip.paceOk (c : Chip) (p : Plan) (n : Nat) (also : Option Nat) : Bool :=
  let l := c.chainCells p n also
  if l.isEmpty then true
  else
    match c.betaEff n with
    | none => false
    | some be => decide (p.finish l be ≤ c.window n * be.2) && decide (p.queue l be ≤ 16384)

/-- The chain ports that serve: enabled pages. -/
def Chip.enabledPorts (c : Chip) : List Nat := (List.range 16).filter fun n => c.enabled (0x20 + n)

/-- R141 for every chain. -/
def Chip.allCap (c : Chip) (p : Plan) : Bool := c.enabledPorts.all fun n => c.capOk p n none

/-- R200 for every chain. -/
def Chip.allPace (c : Chip) (p : Plan) : Bool := c.enabledPorts.all fun n => c.paceOk p n none

/-- ACTIVE_END in use: as written, or with 0 the largest whole number of µs for which every chain passes, searched downward
from `k` above V_START (R200). -/
def Chip.autoEnd (c : Chip) (p : Plan) : Nat → Option Nat
  | 0 => none
  | k + 1 => if c.allPace { p with ae := p.vs + (k + 1) } then some (p.vs + (k + 1)) else c.autoEnd p k

/-- The whole µs of P − G above V_START. -/
def Chip.endRoom (c : Chip) (p : Plan) : Nat := (c.period - c.guard) / us 1 - p.vs

/-- ACTIVE_END of a plan as it will be used. -/
def Chip.planEnd (c : Chip) (p : Plan) : Option Nat := if p.ae = 0 then c.autoEnd p (c.endRoom p) else some p.ae

/-- Two valid entries name one WDN (R196). -/
def mapDup : List MapEntry → Bool
  | [] => false
  | e :: r => r.any (fun f => f.wdn == e.wdn) || mapDup r

/-- An entry lies outside the canvas or has a field outside its range (R196). -/
def MapEntry.bad (e : MapEntry) (p : Plan) : Bool :=
  decide (p.w < e.x + e.w) || decide (p.h < e.y + e.h) || e.w == 0 || decide (160 < e.w) || e.h == 0 || decide (5120 < e.h) ||
    decide (16383 < e.x) || decide (16383 < e.y)

/-- A CRC rectangle of the shadows is not within the canvas (R203). -/
def Chip.rectBad (c : Chip) (p : Plan) : Bool :=
  (List.range 16).any fun r =>
    bitAt (c.getS .SCAN_CRC_CFG_EN) r &&
      (c.getS (.SCAN_CRC_SIZE_W r) == 0 || c.getS (.SCAN_CRC_SIZE_H r) == 0 ||
        decide (p.w < c.getS (.SCAN_CRC_POS_X r) + c.getS (.SCAN_CRC_SIZE_W r)) ||
        decide (p.h < c.getS (.SCAN_CRC_POS_Y r) + c.getS (.SCAN_CRC_SIZE_H r)))

/-- While Swift runs, the commit changes canvas, timing, map or CC10 (R201). -/
def Chip.swiftChange (c : Chip) : Bool :=
  c.mode == 3 &&
    [Reg.SCAN_CANVAS, Reg.SCAN_TIMING, Reg.SCAN_MAP_CFG, Reg.SCAN_CC10].any fun a => c.rdS a != c.rd a

/-- The cause for which a SCAN commit is refused, 0 if it is accepted (R202), with ACTIVE_END as it will be used; a page not
enabled takes a canvas of 0, which has no raster and no cells. -/
def Chip.scanCause (c : Chip) : Nat × Nat :=
  let p := c.planNext
  let on := c.flag (.PG_CTRL_ENABLE 0x68)
  let none_ := p.w == 0 || p.h == 0
  if 16384 < p.count then (1, 0)
  else if none_ = true ∧ on = true then (2, 0)
  else if 16384 < p.w ∨ 16384 < p.h ∨ 67108864 < p.w * p.h ∨ 4300000000 * c.rateDen < p.w * p.h * c.rateNum then (2, 0)
  else if p.ae ≠ 0 ∧ (p.ae ≤ p.vs ∨ c.period - c.guard < us p.ae) then (3, 0)
  else if c.swiftChange then (9, 0)
  else if (c.mapOf p).any (fun e => e.bad p) then (5, 0)
  else if mapDup (c.mapOf p) then (6, 0)
  else if c.rectBad p then (10, 0)
  else if none_ then (0, 0)
  else if c.allCap p = false then (7, 0)
  else
    match c.planEnd p with
    | none => (8, 0)
    | some ae =>
      let q := { p with ae := ae }
      if q.tLine = 0 ∨ 86 * q.tLine < 10 * p.w then (4, 0)
      else if c.allPace q then (0, ae)
      else (8, 0)

/-- LOAD and MARGIN of a chain for the applied map (SCAN_CHk_STAT). -/
def Chip.showLoad (c : Chip) (n : Nat) : Chip :=
  let p := c.planNow
  let l := c.chainCells p n none
  let a := c.chainA n
  let load := if a = 0 then 1023 else min ((totalBlocks l + c.overhead n) * 1000 / a) 1023
  let margin := match c.betaEff n with
    | none => 0
    | some be => if l.isEmpty then 0 else (c.window n * be.2 - p.finish l be) / (be.2 * us 1)
  (c.put (.SCAN_CH_STAT_LOAD n) (if p.w = 0 then 0 else load)).put (.SCAN_CH_STAT_MARGIN n) (min margin 65535)

/-- SCAN_SUSPENDED follows the records. -/
def Chip.showSuspended (c : Chip) : Chip :=
  c.put .SCAN_SUSPENDED_COUNT (((List.range 16).flatMap fun n => (c.serving n).filter (·.capSusp)).length)

/-- A chain passes with one tile counted in (R200). -/
def Chip.passesWith (c : Chip) (n wdn : Nat) : Bool :=
  let p := c.planNow
  c.capOk p n (some wdn) && c.paceOk p n (some wdn)

/-- A tile admitted with a valid entry is capacity-suspended if its chain fails with it (R200). -/
def Chip.capAdmit (c : Chip) (n : Nat) (d : Dev) : Chip :=
  let p := c.planNow
  if (c.mapOf p).any (fun e => e.wdn == d.wdn) && !c.passesWith n d.wdn then
    ((c.putDev n { d with capSusp := true }).raise .SCAN_CAP_EXCEED).showSuspended
  else c

/-- Capacity-suspended tiles of a chain are tested again, in ascending entry index (R200). -/
def Chip.capRetest (c : Chip) (n : Nat) : Chip :=
  (c.each (c.mapOf c.planNow) fun c e =>
    match (c.serving n).find? fun d => d.wdn == e.wdn && d.capSusp with
    | none => c
    | some d => if c.passesWith n d.wdn then c.putDev n { d with capSusp := false } else c).showSuspended

/-- RET_START and ANS_SLOTS meet R126 on a port: its start in µs, its answer units. -/
def Chip.retFits (c : Chip) (n start slots : Nat) : Bool :=
  let d := c.dTail n
  decide (d + us 20 ≤ us start) &&
    decide (100 * (us start + d + us 40) + superframeLen slots * betaOf (c.rateCode (n / 2)) ≤ 100 * c.period)

/-- The band of a tile's entry (R201): the smallest band tick late enough for its cells, else 0. -/
def Chip.bandOf (c : Chip) (p : Plan) (n : Nat) (e : MapEntry) : Nat :=
  match c.betaEff n with
  | none => 0
  | some be =>
    let f := p.finish (cellsOf (p.bits n) e) be
    let need := f + (c.dTail n + us c.bandGuard + us 4) * be.2
    ((List.range (c.bands - 1)).find? fun k =>
      decide (need ≤ (c.bandTime 0 (k + 1) - c.bandTime 0 0) * be.2)).map (· + 1) |>.getD 0

end Sys2Proof.Machine
end

