-- ==== Sys2Proof/Machine/OpsChain.lean ====
section
/-!
DEFINITION. A sender's side of the chain protocol: beacons, the scheduler of cells (R111), RACKs (R131), slots and records
received (R129, R130), link delays (R132), discovery and admission (R134–R136), muting at position 1 (R139), response
timeouts (R140), session keys of a port (R123).
-/

namespace Sys2Proof.Machine

/-! ### Mode switch bookkeeping -/

/-- A mode switch is pending: STATE reads ARMED, READY or GO_SENT (R24). -/
def Chip.switchPending (c : Chip) : Bool :=
  c.switch.isSome && decide (1 ≤ c.get .SYS_MODE_STAT_STATE) && decide (c.get .SYS_MODE_STAT_STATE ≤ 3)

/-- SYS_MODE_ACKS and READY follow the pending switch: READY when every expected tile has acknowledged (R23). -/
def Chip.showSwitch (c : Chip) : Chip :=
  match c.switch with
  | none => c
  | some s =>
    let c := (c.put .SYS_MODE_ACKS_EXPECTED s.expected.length).put .SYS_MODE_ACKS_ACKED s.acked.length
    if c.get .SYS_MODE_STAT_STATE = 1 ∧ s.acked.length = s.expected.length then c.put .SYS_MODE_STAT_STATE 2 else c

/-- A tile declared lost leaves EXPECTED and ACKED (R23). -/
def Chip.switchLost (c : Chip) (n wdn : Nat) : Chip :=
  match if c.switchPending then c.switch else none with
  | none => c
  | some s =>
    let s := { s with expected := s.expected.filter (· != (n, wdn)), acked := s.acked.filter (· != (n, wdn)) }
    ({ c with switch := some s }).showSwitch

/-! ### Admission -/

/-- A session key is drawn for a port that reaches DISCOVERING for the first time (before R355). -/
def Chip.drawSession (c : Chip) (n : Nat) : Chip :=
  if (c.port n).session.isSome then c
  else
    let e := c.lastIndex / 2 ^ 20
    let c := (c.setSlot (8 + n) (loadedSlot 2 c.randomNow e none)).redraw
    c.onPort n fun p => { p with session := some ⟨e, false, false⟩, ctr := 0 }

/-- A port enters DISCOVERING and sends DISCOVER (R134). -/
def Chip.startDiscovery (c : Chip) (n : Nat) : Chip :=
  if c.flag (.CHAIN_CFG_DISC_EN n) then
    let c := (c.put (.CHAIN_STATE_STATE n) 2).drawSession n
    (c.onPort n fun p => { p with quiet := 0, silent := 0, fresh := false }).discover n
  else c

/-- The tile image in force: tile slot A when TRIAL or CONFIRMED, else slot B (R378). -/
def Chip.tileImage (c : Chip) : List Byte :=
  let a := listAt c.upd.slots 2 ⟨0, 0, []⟩
  if a.state = 2 ∨ a.state = 3 then a.bytes else (listAt c.upd.slots 3 ⟨0, 0, []⟩).bytes

/-- SHA-384 of the tile image in force. -/
def Chip.tileHash (c : Chip) : Nat := Config.sha384 c.tileImage

/-- IMAGE_ID: the first 4 bytes of an image's SHA-384 (R388). -/
def imageId (hash : Nat) : Nat := hash / 2 ^ 352

/-- One piece of an image as a boot cell (R118). -/
def bootCell (h : Hdr) (id : Nat) (image : List Byte) (p : Nat) : Cell := .boot h id (128 * p) ((image.drop (1024 * p)).take 1024)

/-- Pieces of the tile image in force join a port's boot queue, addressed to a position (R118, R388). -/
def Chip.sendPieces (c : Chip) (n pos first last : Nat) : Chip :=
  let img := c.tileImage
  let k := (img.length + 1023) / 1024
  let id := imageId c.tileHash
  let h : Hdr := { amode := 1, dest := pos, ke := 0, sidx := c.sidx, port := n }
  let cells := ((List.range k).filter fun p => decide (first ≤ p) && decide (p ≤ last)).map (bootCell h id img)
  c.onPort n fun p => { p with boots := p.boots ++ cells }

/-- The sender's firmware asks an ASSIGNED tile for its attestation report (R360, R370): nonce, START, then the report
state. -/
def Chip.askReport (c : Chip) (n pos : Nat) : Chip :=
  let nonce := beBytes 48 c.randomNow
  let c := c.redraw.sendFw n 1 pos 2 (Reg.GATE_ATT_NONCE 0) 0 nonce
  let c := c.sendFw n 1 pos 2 Reg.GATE_ATT_CTRL 0 (leBytes 4 1)
  c.sendFw n 1 pos 1 Reg.GATE_ATT_STAT 0 (leBytes 4 0)

/-- A listed reason for a device that is refused: the CHAIN list entry and STRANGER (R135, R137). -/
def Chip.makeStranger (c : Chip) (n : Nat) (d : Dev) (reason : Nat) : Chip :=
  let d := { d with st := .stranger, first := 0, count := 0, listedAt := c.age }
  ((c.putDev n d).listAdd n ⟨d.serial, 0, d.depth, reason⟩).raise (.CHAIN_STRANGER n)

/-- The return advance the sender gives a tile: what it has measured. How it is first found the spec does not say: the
value is left open (log entry 21). -/
def Chip.advOf (c : Chip) (d : Dev) : Nat := if d.adv = 0 then c.drawn % 2 ^ 32 else d.adv

/-- ASSIGN goes to a keyed tile: WDN, its slot unit, its return advance (R115, R135). -/
def Chip.assignDev (c : Chip) (n : Nat) (d : Dev) (wdn : Nat) : Chip :=
  match c.freeUnit n with
  | none => c
  | some u =>
    let adv := c.advOf d
    let pos := c.devPos n d
    let d := { d with st := .assigned, cal := 0, wdn := wdn, first := u, count := 1, adv := adv, missed := 0, rseq := [], tamperOk := false }
    let c := (c.redraw.putDev n d).sendFw n 1 pos 0x43 (u * 65536 + 1) wdn (beBytes 4 adv)
    let c := c.askReport n pos
    if d.hash ≠ 0 ∧ d.hash / 2 ^ 256 = c.tileHash / 2 ^ 256 then c.putDev n { d with st := .booted, hash := c.tileHash }
    else c.sendPieces n pos 0 0xffffffff

/-- The copy in force: the highest valid generation; copies of equal generation that differ, two of three (R343). -/
def cfgChoice (l : List CfgCopy) : Option CfgCopy :=
  let v := l.filter (·.valid)
  let g := v.foldl (fun m x => max m x.gen) 0
  let top := v.filter (·.gen == g)
  match top with
  | [] => none
  | x :: r => if r.all (· == x) then some x else top.find? fun y => decide (2 ≤ (top.filter (· == y)).length)

/-- Sections of the generation in force. -/
def Chip.sections (c : Chip) : List (Nat × List Byte) := ((cfgChoice c.upd.cfgs).map (·.sections)).getD []

/-- The WDN known for a serial: provisional under factory-default operation; else the one stored for it, or what the newest section of
the configuration gives (R16, R17, log entry 162). -/
def Chip.wdnFor (c : Chip) (n : Nat) (d : Dev) : Option Nat :=
  if c.store.factory then some (0x40 + 1024 * n + (c.devPos n d - 1))
  else
    match assoc c.store.wdns d.serial with
    | some w => some w
    | none => c.sections.getLast?.bind fun s => Config.wdnOf s.2 d.serial

/-- A ring tile's unit toward port B and the return advance that goes with it are written to it (R329); how the advance is
found from the link delays of the other end the spec does not say: it is left open (log entry 21). -/
def Chip.writeAlt (c : Chip) (n : Nat) (d : Dev) : Chip :=
  (c.sendFw n 0 d.wdn 2 Reg.ELDER_T_ALT 0 (leBytes 4 (d.first % 512 + 512) ++ leBytes 4 (c.drawn % 2 ^ 32))).redraw

/-- A tile is admitted: ADMIT for the next tick + 2, TAIL_OFF for the tile before it, or for itself where the one beyond it is
in service already, SERVING (R135, R138); a sender in Run asks it for Run (R406); the capacity test of R200 follows. -/
def Chip.admitDev (c : Chip) (n : Nat) (d : Dev) : Chip :=
  let t := c.lastIndex + 3
  let pos := c.devPos n d
  let d := { d with st := .admitted, admitTick := t, missed := 0 }
  let c := (c.putDev n d).sendFw n 0 d.wdn 0x44 (t / 2 ^ 32) (t % 2 ^ 32) []
  let c := match (c.serving n).find? fun x => decide (c.devPos n x + 1 = pos) with
    | none => c
    | some x => c.sendFw n 0 x.wdn 0x47 0 0 []
  let c := c.when ((c.serving n).any fun x => decide (pos + 1 = c.devPos n x)) fun c => c.sendFw n 0 d.wdn 0x47 0 0 []
  let c := (c.put (.CHAIN_STATE_STATE n) 3).raise (.CHAIN_ADMITTED n)
  let c := c.listDel n d.serial
  let c := c.when (c.ringed n) fun c => c.writeAlt n d
  let c := c.when (c.pwr.state == .run) fun c => c.sendFw n 0 d.wdn 2 Reg.PWR_STATE_CTRL 0 (leBytes 4 2)
  c.capAdmit n d

/-- A booted tile that has passed the tamper check is admitted, with automatic admission and outside a mode switch's window
(R23, R135), once its calibration is on its way to it (R269, R446). -/
def Chip.tryAdmit (c : Chip) (n serial : Nat) : Chip :=
  match c.devOf n serial with
  | none => c
  | some d =>
    if d.st = .booted ∧ d.tamperOk = true ∧ d.cal = 2 ∧ c.flag (.CHAIN_CFG_AUTO_ADMIT n) = true ∧ c.switch = none then c.admitDev n d
    else c

/-- Every tile that waits for admission is tried. -/
def Chip.admitWaiting (c : Chip) : Chip :=
  c.each (List.range 16) fun c n => c.each ((c.port n).devs.map (·.serial)) fun c s => c.tryAdmit n s

/-- The tamper check of R370 on the counter read from a tile's report, against the one that the configuration holds for its serial (none
acts as 0: DESIGN CHOICE, log entry 162). -/
def Chip.tamperCheck (c : Chip) (n : Nat) (d : Dev) (cnt : Nat) : Chip :=
  if (((assoc c.store.tampers d.serial).orElse fun _ => c.sections.getLast?.bind fun s => Config.tamperOf s.2 d.serial).getD 0) < cnt then c.makeStranger n { d with tamper := cnt } 7
  else (c.putDev n { d with tamperOk := true, tamper := cnt }).tryAdmit n d.serial

/-- A device record is lost: its units are released, but for a ring's in Twin mode, which come back in them (R335);
TILE_LOST is raised, it is listed (R135). -/
def Chip.loseDev (c : Chip) (n : Nat) (d : Dev) : Chip :=
  let keep := c.ringed n
  let d' := { d with
    st := .lost, first := if keep then d.first else 0, count := if keep then d.count else 0, capSusp := false }
  let c := (c.putDev n d').listAdd n ⟨d.serial, 2, d.depth, 6⟩
  ((c.raise (.CHAIN_TILE_LOST n)).switchLost n d.wdn).capRetest n

/-- A device's chain list entry keeps HELLOs of strangers and foreign tiles away for 60 s (R137). -/
def Chip.heldOff (c : Chip) (d : Dev) : Bool :=
  (d.st == .stranger || d.st == .foreign) && decide (c.age - d.listedAt < 60 * 65536000000000)

/-- ID_REQ goes to a device by position, with a fresh challenge (R355); a device whose position is not known yet waits in
FOUND. -/
def Chip.sendIdReq (c : Chip) (n serial : Nat) : Chip :=
  match c.devOf n serial with
  | none => c
  | some d =>
    let pos := c.devPos n d
    if pos = 0 then c
    else
      let ch := beBytes 48 c.randomNow
      (c.redraw.putDev n { d with st := .verifying, parts := [] }).sendFw n 1 pos 0x41 0 0 ch

/-- A record for a serial not seen on this port before. -/
def newDev (serial : Nat) : Dev :=
  { serial := serial, st := .found, wdn := 0, depth := 0, first := 0, count := 0, hash := 0, idReqs := 0, parts := []
    missed := 0, rseq := [], tamperOk := false, admitTick := 0, listedAt := 0, desc := [], unmuting := false, svn := 0
    image := 0, shown := 0, status := 0, orient := 0, groups := [], adv := 0, capSusp := false, tamper := 0, cal := 0, card := none }

/-- The tile of a ring faces the wrong sender (R13). -/
def Chip.miswired (c : Chip) (n orient : Nat) : Bool :=
  c.flag .TWIN_CFG_EN && bitAt (c.get .TWIN_RING_PORTS) n &&
    (if c.flag .TWIN_CFG_PRIMARY then orient == 1 else orient == 0)

/-- A HELLO: a new, lost or no longer held off device becomes FOUND and is sent ID_REQ; `orient` is the tile's port that
faces this sender (R13, R134, R135, R137). -/
def Chip.hello (c : Chip) (n serial depth : Nat) (desc : List Byte) (hash orient : Nat) : Chip :=
  let old : Option Dev := c.devOf n serial
  let go : Bool := match old with
    | none => true
    | some (d : Dev) => (d.st == DevState.lost || d.st == .stranger || d.st == .foreign || d.st == .found) && !c.heldOff d
  if go then
    let d := { newDev serial with depth := depth, desc := desc, hash := hash * 2 ^ 256, orient := orient
                                  idReqs := (old.map fun (o : Dev) => if o.st = DevState.found then o.idReqs else 0).getD 0 }
    let c := (c.putDev n d).onPort n fun p => { p with fresh := p.fresh || old.isNone, silent := 0 }
    let c := c.raise (.CHAIN_FOUND n)
    let c := c.when (c.miswired n orient) fun c => c.raise .SYS_MISWIRED
    c.sendIdReq n serial
  else c

/-- An ID_REQ goes unanswered: at the eighth the device is listed as a stranger, else it is asked again (R135). -/
def Chip.idUnanswered (c : Chip) (n serial : Nat) : Chip :=
  match c.devOf n serial with
  | none => c
  | some d =>
    let d := { d with idReqs := d.idReqs + 1 }
    if 8 ≤ d.idReqs then c.makeStranger n d 4 else (c.putDev n d).sendIdReq n serial

/-- The identity certificate of the part (R348): its fields from the fuses, and what the fuses alone hold (ISSUED,
ISSUER_ID, SIGNATURE) left open. -/
def Chip.idCert (c : Chip) : List Byte :=
  let lot := c.fuses.wafer % 32 * 2 ^ 24 + c.fuses.lot % 2 ^ 24
  let die := c.fuses.site % 16 * 2 ^ 16 + c.fuses.dieY % 256 * 256 + c.fuses.dieX % 256
  beBytes 4 0x48494331 ++ beBytes 2 1 ++ beBytes 1 3 ++ beBytes 1 0 ++ beBytes 8 c.fuses.serial ++ beBytes 4 lot ++
    beBytes 4 die ++ (Config.public (c.slot 0).key ++ leBytes 97 0).take 97 ++ beBytes 7 0 ++
    (Config.sign 0 (beBytes 8 c.fuses.serial) ++ leBytes 112 0).take 112

/-- The 912 bytes of KEYX (R356): certificates, ephemeral key, N_t as received, wrapped session keys, signature. -/
def Chip.keyxData (c : Chip) (n nonce : Nat) : List Byte :=
  let e := c.randomNow
  let k := c.slot (8 + n)
  let keys := beBytes 32 k.key ++ beBytes 32 (k.next.getD 0) ++ beBytes 4 k.epoch ++ beBytes 4 0
  let body := c.idCert ++
    (((c.store.owner.orElse fun _ => c.sections.getLast?.bind fun s => Config.ownerCert s.2).getD []) ++ leBytes 336 0).take 336 ++
    (Config.public e ++ leBytes 97 0).take 97 ++ beBytes 7 0 ++ beBytes 48 nonce ++
    (Config.gcm (Config.kdf 2 [e, nonce, c.sidx, n]) 0 keys ++ leBytes 88 0).take 88
  body ++ (Config.sign (c.slot 0).key body ++ leBytes 96 0).take 96

/-- The 448 bytes that a device's ID_PARTs join into (R355). -/
def Dev.identity (d : Dev) : List Byte :=
  [0, 1, 2, 3].flatMap fun k => ((assoc d.parts k).getD [] ++ leBytes 112 0).take 112

/-- The N_t that a device's ID_PARTs carry (R355): after the certificate's 240 bytes. -/
def Dev.nonce (d : Dev) : Nat := beField d.identity 240 48

/-- An ID_PART: with all four held the certificate (its form, ROLE_USE bit 1, its SERIAL against the HELLO) and the signature are
judged, and KEYX goes out or the device is listed (R355), while the identity key is not blocked (R351); `cert` and `sig` are whether
the signatures of the certificate and over the challenge verify. -/
def Chip.idPart (c : Chip) (n serial part : Nat) (body : List Byte) (cert sig : Bool) : Chip :=
  match c.devOf n serial with
  | none => c
  | some d =>
    if d.st ≠ .verifying ∨ 4 ≤ part then c
    else
      let parts := assocPut d.parts part body
      let d := { d with parts := parts }
      if parts.length < 4 ∨ c.fuses.lifecycle = 2 then c.putDev n d
      else if !cert || !idCertOk d.identity 1 || beField d.identity 8 8 != serial then c.makeStranger n d 2
      else if !sig then c.makeStranger n d 3
      else
        let data := c.keyxData n d.nonce
        ((c.putDev n { d with st := .keying }).sendFw n 1 (c.devPos n d) 0x42 0 0 data).redraw

/-- A tile without a WDN in the configuration is held unassigned and listed (R16, R136). -/
def Chip.makeUnassigned (c : Chip) (n : Nat) (d : Dev) : Chip :=
  ((c.putDev n { d with st := .unassigned, first := 0, count := 0, listedAt := c.age }).listAdd n ⟨d.serial, 3, d.depth, 0⟩).raise
    (.CHAIN_UNASSIGNED n)

/-- A KEYX_RESP: with signature and tag valid the tile is assigned, or listed as unassigned (R135, R136, R357); otherwise the
attempt counts as unanswered. -/
def Chip.keyxResp (c : Chip) (n serial : Nat) (ok : Bool) : Chip :=
  match c.devOf n serial with
  | none => c
  | some d =>
    if d.st ≠ .keying then c
    else if !ok then c.idUnanswered n serial
    else
      match c.wdnFor n d with
      | some w => c.assignDev n d w
      | none => c.makeUnassigned n d

/-- A REFUSED answer: cause 1 makes the tile foreign, any other counts as an unanswered ID_REQ (R356). -/
def Chip.refusedAns (c : Chip) (n serial cause : Nat) : Chip :=
  match c.devOf n serial with
  | none => c
  | some d =>
    if d.st ≠ .keying then c
    else if cause = 1 then
      ((c.putDev n { d with st := .foreign, listedAt := c.age }).listAdd n ⟨serial, 1, d.depth, 5⟩).raise (.CHAIN_FOREIGN n)
    else (c.putDev n { d with st := .found }).idUnanswered n serial

/-- A configuration's plaintext body (R380). -/
def cfgBody (g : CfgCopy) : List Byte := g.sections.flatMap fun s => beBytes 2 s.1 ++ beBytes 4 s.2.length ++ s.2

/-- A save of the active sender's configuration store goes to the standby (R343). -/
def Chip.storeSaved (c : Chip) : Chip :=
  if c.isSender && c.get .TWIN_STAT_ROLE == 3 && c.twin.up && c.twin.keyed then
    c.emit (.twin 11 (c.nat Reg.UPDATE_CFG_GEN :: c.store.wdns.flatMap fun x => [x.1, x.2])
      (match c.upd.cfgs with | [] => [] | g :: _ => cfgBody g))
  else c

/-- A new configuration generation with these sections in each copy in turn (R379), saved to the standby as well (R343). -/
def Chip.writeCfg (c : Chip) (sections : List (Nat × List Byte)) : Chip :=
  let g := ((cfgChoice c.upd.cfgs).map (·.gen)).getD 0 + 1
  ((c.onUpd fun u => { u with cfgs := List.replicate 3 ⟨g, sections, true⟩ }).setNat Reg.UPDATE_CFG_GEN g).storeSaved

/-- A tile that holds a slot is given another WDN: ASSIGN with its units and return advance (R17, R115). -/
def Chip.renameDev (c : Chip) (n : Nat) (d : Dev) (w : Nat) : Chip :=
  (c.putDev n { d with wdn := w }).sendFw n 1 (c.devPos n d) 0x43 (d.first * 65536 + d.count) w (beBytes 4 d.adv)

/-- A SETTINGS section is in force: factory-default operation ends, and each tile that holds a slot has the WDN of the configuration or
is held unassigned (R16, R17, log entry 162). -/
def Chip.configured (c : Chip) : Chip :=
  let c := (c.onStore fun s => { s with factory := false }).put .SYS_ROLE_FACTORY 0
  let holds := fun (d : Dev) => d.inService || d.st == .assigned || d.st == .booted
  c.each (List.range 16) fun c n => c.each ((c.port n).devs.filter holds) fun c d =>
    match c.wdnFor n d with
    | some w => if w = d.wdn then c else c.renameDev n d w
    | none => c.makeUnassigned n d

/-- CHAIN_LIST_WDN: a WDN for the selected unassigned entry (R136). -/
def Chip.listWdn (c : Chip) (n : Nat) (v : Word) : Chip :=
  let wdn := bitsOf v 15 0
  if c.isTile || bitsOf v 31 31 == 0 then c
  else
    match (c.port n).list[c.get (.CHAIN_LIST_IDX_IDX n)]? with
    | none => c.reject (Reg.CHAIN_LIST_WDN n)
    | some e =>
      if e.kind ≠ 3 ∨ wdn < 0x40 ∨ c.store.wdns.any (fun x => x.2 == wdn && x.1 != e.serial) = true then
        c.reject (Reg.CHAIN_LIST_WDN n)
      else
        let c := ((c.onStore fun s => { s with wdns := assocPut s.wdns e.serial wdn }).writeCfg c.sections).listDel n e.serial
        match c.devOf n e.serial with
        | none => c
        | some d => c.assignDev n d wdn

/-- A BOOT record: RUNNING takes an assigned tile to BOOTED; missing pieces are sent again (R118, R135, R388). -/
def Chip.bootRec (c : Chip) (n wdn image first last state : Nat) : Chip :=
  match c.devWdn n wdn with
  | none => c
  | some d =>
    if state = 1 ∧ d.st = .assigned then
      (c.putDev n { d with st := .booted, hash := c.tileHash, image := image }).tryAdmit n d.serial
    else if first ≠ 0xffffffff ∧ state = 0 then
      c.sendPieces n (c.devPos n d) first (if last = 0xffffffff then first else last)
    else c.putDev n { d with image := image }

/-! ### Cells on their way out -/

/-- KE of cells sent now: the parity of the port's key epoch (R106, R123). -/
def Chip.portKe (c : Chip) (n : Nat) : Nat := match (c.port n).session with | some s => s.epoch % 2 | none => 0

/-- The tag of a cell that a port sends now, under its session key (R122, R123); without a session and for an untagged command zero
bytes (R112, R116). -/
def Chip.portTag (c : Chip) (n : Nat) (x : Cell) (h : Hdr) : List Byte :=
  let open_ := match x with | .command _ y => y.unauth | _ => false
  match (c.port n).session with
  | none => zeroTag
  | some s => if open_ then zeroTag else x.tag h (c.slot (8 + n)).key s.epoch c.lastIndex

/-- The header of a cell that a port sends now (R106). -/
def Chip.portHdr (c : Chip) (n : Nat) (x : Cell) : Hdr := x.hdrOf (c.portKe n) c.sidx n

/-- A cell leaves a port: its blocks go out on the port's lanes (R105 to R107, R122). -/
def Chip.sendCell (c : Chip) (n : Nat) (x : Cell) : Chip :=
  let h := c.portHdr n x
  (c.emit (.cell n x)).transmit (n / 2) (n % 2) (x.made h (c.portTag n x h))

/-- A pixel cell leaves a port (R121): under ENC its data goes out enciphered; what it gives its slice's tag is kept until the last
cell carries the tag. -/
def Chip.sendPixel (c : Chip) (n : Nat) (h : Hdr) (p : PixHdr) (d : List Byte) : Chip :=
  let key := (c.slot (8 + n)).key
  let iv := (Cell.pixel h p d).iv h ((c.port n).session.map (·.epoch) |>.getD 0) c.lastIndex
  let a := (assoc (c.port n).slices h.dest).getD ([], [])
  let d := if p.enc then cipher key iv a.2.length (padBlock d) else d
  let a := sliceAdd a h p d
  let x := Cell.pixel h p d
  let c := c.onPort n fun q => { q with
    slices := if p.last then q.slices.filter (·.1 != h.dest) else assocPut q.slices h.dest a }
  (c.emit (.cell n x)).transmit (n / 2) (n % 2) (x.made h (sliceTagOf key iv a))

/-- The return timing that a port's beacons carry: RET_START, ANS_SLOTS, and in SWITCH the tick index from which they apply (R112,
R127). -/
def Chip.retShown (c : Chip) (n : Nat) : Nat × Nat × Nat :=
  match (c.port n).ret with
  | none => (c.retStart, c.ansSlots n, 0)
  | some r => match r.next with | none => (r.start, r.slots, r.since % 65536) | some x => (x.1, x.2.1, x.2.2 % 65536)

/-- A port's return timing in force: RET_START in µs and ANS_SLOTS (R127). -/
def Chip.retNow (c : Chip) (n : Nat) : Nat × Nat :=
  match (c.port n).ret with
  | none => (c.retStart, c.ansSlots n)
  | some r => (r.start, r.slots)

/-- A change of RET_CFG or CHAIN_DISC is announced, or waits for the change announced before it (R127). -/
def Chip.retAnnounce (c : Chip) (n : Nat) (old : Nat × Nat) : Chip :=
  let new := (c.retStart, c.ansSlots n)
  match (c.port n).ret with
  | none =>
    if new = old then c
    else c.onPort n fun p => { p with ret := some ⟨old.1, old.2, 0, some (new.1, new.2, c.lastIndex + 16), false⟩ }
  | some r =>
    match r.next with
    | some _ => c.onPort n fun p => { p with ret := some { r with again := true } }
    | none =>
      if new = (r.start, r.slots) then c
      else c.onPort n fun p => { p with ret := some { r with next := some (new.1, new.2, c.lastIndex + 16) } }

/-- Sixteen ticks after the announcement the new timing is in force; a further change is announced then (R127). -/
def Chip.retSwitch (c : Chip) (n : Nat) : Chip :=
  match (c.port n).ret with
  | none => c
  | some r =>
    match r.next with
    | none => c
    | some x =>
      if c.lastIndex < x.2.2 then c
      else
        let c := c.onPort n fun p => { p with ret := some ⟨x.1, x.2.1, x.2.2, none, false⟩ }
        if r.again then c.retAnnounce n (x.1, x.2.1) else c

/-- A beacon falls due on an enabled port on which the sender is near, while the port sends cells (R62, R98, R102, R112, R330). -/
def Chip.beaconDue (c : Chip) (n : Nat) : Chip :=
  if c.enabled (0x20 + n) && c.near n && c.sends n then
    let r := c.retShown n
    let q := n / 2
    let spread := if c.flag (.SERDES_SSC_EN q) then min (c.get (.SERDES_SSC_DEPTH q)) 10 else 0
    let b : Beacon :=
      { origin := c.bell.time, corr := 0, bseq := (c.port n).bseq, params := { c.params with spread := spread }
        mode := c.mode, retStart := r.1, ansSlots := r.2.1, census := c.census n, switch := r.2.2
        tagged := (c.port n).session.isSome }
    c.onPort n fun p => { p with beacons := p.beacons ++ [.beacon b], bseq := (p.bseq + 1) % 65536 }
  else c

/-- The cell with the KE bit it is sent under. -/
def Cell.withKe (k : Nat) : Cell → Cell
  | .command h x => .command { h with ke := k } x
  | .boot h a b d => .boot { h with ke := k } a b d
  | .pixel h p d => .pixel { h with ke := k } p d
  | x => x

/-- Tiles that a command names when it leaves the port, as R140 counts responders: with AMODE 0 or 1 the tile addressed,
with 2 or 3 the admitted tiles of the set. An untagged command is completed by none: tiles with a session ignore it (R116). -/
def Chip.responders (c : Chip) (n : Nat) (h : Hdr) (x : Cmd) : List Nat :=
  let one := fun (d : Dev) => d.inService || (decide (h.amode < 2) && (d.st == DevState.assigned || d.st == .booted))
  if x.unauth then [] else ((c.port n).devs.filter fun d => one d && c.names n h d).map (·.wdn)

/-- Those whose outcome a command waits for as it leaves its port: its responders; of a replay those that have none yet (R341); of a
ring's command to one tile that tile, in service or not (R140). -/
def Chip.waitsFor (c : Chip) (n : Nat) (h : Hdr) (x : Cmd) (src : Option (Nat × Nat)) : List Nat :=
  match src with
  | none => c.responders n h x
  | some s =>
    let had := (c.well.taken.filter fun (t : Taken) => t.num == s.2).flatMap fun (t : Taken) => t.got
    (if h.amode = 0 then [h.dest] else c.responders n h x).filter fun w => !(x.replay && had.contains (n, w))

/-- A descriptor's cell is gone from a port's queue: its responders there are waited for (R315). -/
def Chip.descLeft (c : Chip) (n num : Nat) (waits : List Nat) : Chip :=
  c.onWell fun y => { y with
    taken := y.taken.map fun t =>
      if t.num = num then { t with cells := t.cells.filter (· != n), waits := t.waits ++ waits.map fun w => (n, w) } else t }

/-- Every ring's command queued on a port ends with a code before it leaves (R313, R362, R367). -/
def Chip.endQueued (c : Chip) (n code : Nat) : Chip :=
  let q := (c.port n).cmds
  let c := c.onPort n fun p => { p with cmds := [] }
  c.each q fun c x =>
    match x.2.2 with
    | none => c
    | some s =>
      let waits := c.waitsFor n x.1 x.2.1 x.2.2
      let c := (c.descLeft n s.2 waits).tryComplete s.2
      c.each waits fun c w => c.outcome s.2 n w code 0 false []

/-- A command leaves its port: it takes the port's next CTR, its responders are waited for (R114, R140, R315). -/
def Chip.commandLeaves (c : Chip) (n : Nat) (h : Hdr) (x : Cmd) (src : Option (Nat × Nat)) : Chip :=
  let x := { x with ctr := (c.port n).ctr + 1 }
  let waits := c.waitsFor n h x src
  let c := c.onPort n fun p => { p with
    ctr := p.ctr + 1
    flight := if waits.isEmpty then p.flight
      else p.flight ++ [⟨{ h with ke := c.portKe n }, x, c.lastIndex, waits, src⟩] }
  let c := c.sendCell n ((Cell.command h x).withKe (c.portKe n))
  match src with
  | none => c
  | some s => (c.descLeft n s.2 waits).tryComplete s.2

/-- Are the budgets of R111 in force: has the port pixel cells of the frame left to send? -/
def Chip.budgeted (c : Chip) (n : Nat) : Bool := !(c.port n).pixDone

/-- The instant P − G − D_tail of the running frame on a port's chain (R74). -/
def Chip.deadline (c : Chip) (n : Nat) : Nat := c.bell.tickTime + c.window n

/-- The instant has passed after which no pixel cell of the running frame is sent on a port (R74). -/
def Chip.pastDeadline (c : Chip) (n : Nat) : Bool := c.bell.tick.isSome && decide (c.deadline n < c.bell.time)

/-- Pixel cells of a frame that are unsent at its deadline are dropped: each is counted, DEADLINE_MISS is raised (R74). -/
def Chip.dropPixels (c : Chip) (n k : Nat) : Chip :=
  if k = 0 then c else (c.countBy (Reg.CHAIN_DEADLINE_MISS n) k).raise (.CHAIN_DEADLINE_MISS n)

/-- At P − G − D_tail the frame's unsent pixel cells are dropped (R74). -/
def Chip.atDeadline (c : Chip) (n : Nat) : Chip :=
  let k := (c.port n).pixels.length
  (c.onPort n fun p => { p with pixels := [], pixDone := true }).dropPixels n k

/-- Time reaches the deadline of the running frame on a port (R74). -/
def Chip.pixelDeadline (c : Chip) (n : Nat) : Chip :=
  if c.bell.tick.isSome then (c.elapseTo (c.deadline n)).atDeadline n else c

/-- The pixel cell at the head of a port's queue leaves (R111, R121). -/
def Chip.pixelLeaves (c : Chip) (n : Nat) (x : Cell) (r : List Cell) : Chip :=
  let c := c.onPort n fun p => { p with pixels := r, frameSent := p.frameSent + 1 }
  let c := c.when (r.isEmpty && !c.pixMore n) fun c => c.onPort n fun p => { p with pixDone := true }
  match x.withKe (c.portKe n) with
  | .pixel h p d => c.sendPixel n h p d
  | y => c.sendCell n y

/-- The waiting cell of highest rank starts at a cell boundary (R111): beacon, RACK, command, boot cell, pixel cell, idle. A port whose
CHAIN page is disabled sends idle blocks; one whose transmitters are off or whose lanes are in test sends none (R98, R102). -/
def Chip.schedule (c : Chip) (n : Nat) : Chip :=
  let c := c.when (c.pastDeadline n) fun c => c.atDeadline n
  let p := c.port n
  if !c.sends n then c
  else if !c.enabled (0x20 + n) then c.sendCell n .idle
  else
    match p.beacons with
    | .beacon b :: r =>
      (c.onPort n fun p => { p with beacons := r }).sendCell n (.beacon { b with origin := c.bell.time })
    | _ =>
    match p.racks with
    | x :: r => (c.onPort n fun p => { p with racks := r }).sendCell n x
    | [] =>
    let fits := fun (x : Hdr × Cmd × Option (Nat × Nat)) =>
      !c.budgeted n || decide (p.cmdSpent + (Cell.command x.1 x.2.1).blocks ≤ c.get (.CHAIN_CMD_BUDGET_BLOCKS n))
    match p.cmds.head?.filter fits with
    | some x =>
      let c := c.onPort n fun p => { p with
        cmds := p.cmds.tail, cmdSpent := p.cmdSpent + (Cell.command x.1 x.2.1).blocks }
      c.commandLeaves n x.1 x.2.1 x.2.2
    | none =>
    let fitsBoot := fun (x : Cell) =>
      !c.budgeted n || decide (p.bootSpent + x.blocks ≤ c.get .UPDATE_BOOT_BUDGET_BLOCKS)
    match p.boots.head?.filter fitsBoot with
    | some x =>
      (c.onPort n fun p => { p with boots := p.boots.tail, bootSpent := p.bootSpent + x.blocks }).sendCell n
        (x.withKe (c.portKe n))
    | none =>
    match p.pixels with
    | x :: r => c.pixelLeaves n x r
    | [] => c.sendCell n .idle

/-- A tick opens a new budget period on every port (R111). -/
def Chip.portsTick (c : Chip) : Chip :=
  { c with ports := c.ports.map fun p => { p with cmdSpent := 0, bootSpent := 0, frameSent := 0 } }

/-! ### The return superframe -/

/-- A RACK of the units received falls due 10 µs after the last block of the superframe (R131), with what the superframe brings to
discovery (R134). -/
def Chip.rackDue (c : Chip) (n : Nat) : Chip :=
  let r := c.retNow n
  let c := c.elapseRet (c.retInstant r.1 (c.rateCode (n / 2)) (superframeLen r.2 - 1) + us 10)
  if c.enabled (0x20 + n) && c.enabled 0x30 && c.near n && c.sends n then
    let c := c.onPort n fun p => { p with
      racks := p.racks ++ [.rack c.lastIndex p.units], units := []
      quiet := if p.fresh then 0 else p.quiet + 1, silent := p.silent + 1, fresh := false }
    c.when (c.chainState n == 2 && decide ((c.port n).quiet < 4)) fun c => c.discover n
  else c

/-- Link delay samples of a position, averaged over 16 superframes: a mean that moved by more than 50 ps goes to the tile's
CHAIN_LINK_DLY and into every return advance beyond the link (R132). -/
def Chip.delaySample (c : Chip) (n pos : Nat) (d : Int) : Chip :=
  let l := ((assoc (c.port n).delays pos).getD []).take 15
  let l := d :: l
  let c := c.onPort n fun p => { p with delays := assocPut p.delays pos l }
  if l.length < 16 then c
  else
    let avg := l.foldl (· + ·) 0 / 16
    let old := assoc (c.port n).delayAvg pos
    let c := c.onPort n fun p => { p with delays := assocPut p.delays pos [] }
    let moved := match old with | none => true | some o => decide (12 < (avg - o).natAbs)
    if moved then
      let diff := avg - old.getD 0
      let c := c.onPort n fun p => { p with delayAvg := assocPut p.delayAvg pos avg }
      let c := if pos = 1 then c.setNat (Reg.CHAIN_LINK_DLY n) (wrapTo 32 avg) else c
      let at_ := (c.port n).devs.find? fun d => c.devPos n d == pos
      let page := match at_ with
        | some d => d.orient % 2
        | none => 0
      let c := c.sendFw n 1 pos 2 (Reg.CHAIN_LINK_DLY page) 0 (leBytes 4 (wrapTo 32 avg))
      let holds := fun (d : Dev) => d.inService || d.st == .assigned || d.st == .booted
      c.each ((c.port n).devs.filter fun d => holds d && decide (pos ≤ c.devPos n d)) fun c d =>
        let adv := wrapTo 32 ((d.adv : Int) + diff)
        (c.putDev n { d with adv := adv }).sendFw n 0 d.wdn 2 Reg.RET_ADV 0 (leBytes 4 adv)
    else c

/-- D of a link from the stamps of its two ends, in units of 2^−8 ns (R132). -/
def linkDelay (a1 a2 b1 b2 : Nat) : Int :=
  (signOf 32 (wrapTo 32 ((a2 : Int) - a1)) - signOf 32 (wrapTo 32 ((b2 : Int) - b1))) * 8

/-- The stamps a slot carries are paired with those of its neighbours: kept as position, SEQ and pair; upstream stamps under
the position, downstream ones under the next (R132). -/
def Chip.takeStamps (c : Chip) (n pos : Nat) (s : Slot) : Chip :=
  let st := (c.port n).stamps
  let c := match st.find? fun x => x.1 == 2 * pos && x.2.1 == s.seqU with
    | some x => c.delaySample n pos (linkDelay x.2.2.1 x.2.2.2 s.b1 s.b2)
    | none => c
  let c := match st.find? fun x => x.1 == 2 * (pos + 1) + 1 && x.2.1 == s.seqD with
    | some x => c.delaySample n (pos + 1) (linkDelay s.a1 s.a2 x.2.2.1 x.2.2.2)
    | none => c
  c.onPort n fun p => { p with
    stamps := (2 * pos + 1, s.seqU, s.b1, s.b2) :: (2 * (pos + 1), s.seqD, s.a1, s.a2) ::
      p.stamps.filter fun x => x.1 != 2 * pos + 1 && x.1 != 2 * (pos + 1) }

/-- The sender's own stamps of a port (R132). -/
def Chip.ownStamps (c : Chip) (n seq a1 a2 : Nat) : Chip :=
  c.onPort n fun p => { p with stamps := (2, seq, a1, a2) :: p.stamps.filter fun x => x.1 != 2 }

/-- A slot's records are new: its RSEQ differs from the last accepted on the unit (R131). -/
def Dev.newSeq (d : Dev) (unit rseq : Nat) : Bool := assoc d.rseq unit != some rseq

/-- A slot of a tile: its fields are taken; a suspended tile's first valid slot after UNMUTE readmits it; new records enter
the burst queue, or their unit is withheld from the RACK while nothing can take them (R129, R131, R135, R317). -/
def Chip.slotFrom (c : Chip) (n unit : Nat) (d : Dev) (s : Slot) : Chip :=
  let fresh := d.newSeq unit s.rseq
  let room := !fresh || c.burstRoom s.recs.length
  let back := d.st == .suspended && d.unmuting
  let d := { d with
    missed := 0, shown := s.shown, status := s.status, rseq := if room then assocPut d.rseq unit s.rseq else d.rseq
    st := if back then .admitted else d.st, unmuting := if back then false else d.unmuting }
  let c := c.putDev n d
  let c := c.when back fun c => c.raise (.CHAIN_READMITTED n)
  let c := c.takeStamps n (c.devPos n d) s
  if room then
    let c := c.onPort n fun p => { p with units := if p.units.contains unit then p.units else p.units ++ [unit] }
    if fresh then c.each s.recs fun c r => c.accept n d.wdn r else c
  else c

/-- The key and its epoch under which a port checks a return cell of a KE (R123). -/
def Chip.portKey (c : Chip) (n ke : Nat) : Option (Nat × Nat) :=
  match (c.port n).session with
  | none => none
  | some s =>
    let k := c.slot (8 + n)
    if s.epoch % 2 = ke then some (k.key, s.epoch) else if s.next then some (k.next.getD 0, s.epoch + 1) else none

/-- The tag of a return cell verifies on a port (R122). -/
def Chip.portTagOk (c : Chip) (n : Nat) (x : Cell) (h : Hdr) (rx : Rx) : Bool :=
  match c.portKey n h.ke with
  | none => false
  | some k => rx.tag == x.tag h k.1 k.2 c.lastIndex

/-- A sender's port examines return cells: its CHAIN page and the RET page are enabled. -/
def Chip.examines (c : Chip) (n : Nat) : Bool := c.enabled (0x20 + n) && c.enabled 0x30

/-- A SLOT cell arrives: CRCs and tag are checked first (R107, R122, R129). `pre` is what a slot that verifies does before it is
taken. -/
def Chip.slotIn (c : Chip) (n unit : Nat) (h : Hdr) (s : Slot) (rx : Rx) (pre : Chip → Chip) : Chip :=
  if !c.examines n || (c.port n).drift.any (fun d => d.wdn == s.wdn && d.muted) then c
  else
    let r := c.checkCell n (.slot unit s) h rx
    if !r.2 then r.1
    else if !r.1.portTagOk n (.slot unit s) h rx then (r.1.count (Reg.CHAIN_TAG_ERR n)).raise (.CHAIN_TAG_FAIL n)
    else
      let c := pre r.1
      match c.devWdn n s.wdn with
      | none => c
      | some d => c.slotFrom n unit d s

/-- A unit of an admitted tile arrives empty: SLOT_MISS, and after CHAIN_LOSS_CNT in a row the tile is lost (R135). -/
def Chip.unitEmpty (c : Chip) (n wdn : Nat) : Chip :=
  match c.devWdn n wdn with
  | none => c
  | some d =>
    if d.st ≠ .admitted ∨ c.enabled (0x20 + n) = false then c
    else
      let d := { d with missed := d.missed + 1 }
      let c := ((c.putDev n d).count (Reg.CHAIN_SLOT_MISS n)).raise (.CHAIN_SLOT_MISS n)
      if max (c.get (.CHAIN_LOSS_CNT_COUNT n)) 1 ≤ d.missed then c.loseDev n d else c

/-- A chain grows and shrinks beyond its last tile, so the tiles known on it keep their positions and their depths, counted from the
tail, move with the census (R12, R128; DEDUCED, log entry 170). -/
def Dev.moved (old new : Nat) (d : Dev) : Dev :=
  { d with depth := if old = 0 ∨ d.depth = 0 then d.depth else d.depth + new - old }

/-- The census count of block 0 on an enabled page: nonzero counts are taken; a change raises CENSUS_CHANGE and starts a round
(R128, R134). -/
def Chip.censusIn (c : Chip) (n k : Nat) : Chip :=
  if k = 0 ∨ c.enabled (0x20 + n) = false then c
  else
    let old := c.census n
    let c := (c.put (.CHAIN_STATE_CENSUS n) k).onPort n fun p => { p with silent := 0, devs := p.devs.map (Dev.moved old k) }
    let c := if old = k then c
      else
        let c := c.raise (.CHAIN_CENSUS_CHANGE n)
        c.when (c.chainState n == 3) fun c => c.discover n
    c.each (((c.port n).devs.filter fun d => d.st == .found).map (·.serial)) fun c s => c.sendIdReq n s

/-- A MUTED cell naming an admitted tile suspends it, on an enabled page (R135). -/
def Chip.mutedIn (c : Chip) (n wdn : Nat) : Chip :=
  match c.devWdn n wdn with
  | none => c
  | some d => if d.st = .admitted ∧ c.enabled (0x20 + n) = true then c.putDev n { d with st := .suspended, unmuting := false } else c

/-- A MUTE_REPORT with CLEAN makes the sender send UNMUTE to the muting tile (R135, R139). -/
def Chip.muteReportIn (c : Chip) (n muter wdn : Nat) (clean : Bool) : Chip :=
  match c.devWdn n wdn with
  | none => c
  | some d =>
    if d.st = .suspended ∧ clean = true then
      (c.putDev n { d with unmuting := true }).sendFw n 0 muter 0x46 0 wdn []
    else c

/-- A completion record is matched by TOKEN: a ring's becomes its responder's outcome; a late one is discarded (R140,
R316). -/
def Chip.completionIn (c : Chip) (n wdn token status cause : Nat) (dup : Bool) (data : List Byte) : Chip × Option InFlight :=
  match (c.port n).flight.find? fun f => f.cmd.token == token && f.waits.contains wdn with
  | none => (c.count (Reg.CHAIN_LATE_ANS n), none)
  | some f =>
    let c := c.onPort n fun p => { p with
      flight := (p.flight.map fun g =>
        if g.cmd.token = token then { g with waits := g.waits.filter (· != wdn) } else g).filter fun g => !g.waits.isEmpty }
    match f.src with
    | some s => (c.outcome s.2 n wdn status cause dup data, none)
    | none => (c, some f)

/-- The groups a GROUPS command's DATA sets (R115). -/
def groupsOf (data : List Byte) : List Nat :=
  let en := leNat (data.take 1)
  ((List.range 8).filter (bitAt en)).map fun g => beNat ((data.drop (2 + 2 * g)).take 2)

/-- What the sender's firmware does with the completion of a command of its own: the steps of a tamper check (R370), the
groups a tile now holds. -/
def Chip.firmwareDone (c : Chip) (n wdn : Nat) (f : InFlight) (status : Nat) (data : List Byte) : Chip :=
  match c.devWdn n wdn with
  | none => c
  | some d =>
    if f.cmd.op = 1 ∧ f.cmd.addr = Reg.GATE_ATT_STAT ∧ status = 0 then
      if bitAt (leNat data) 30 then c.sendFw n 0 wdn 1 (Reg.GATE_ATT_REPORT 6) 0 (leBytes 4 0)
      else c.sendFw n 0 wdn 1 Reg.GATE_ATT_STAT 0 (leBytes 4 0)
    else if f.cmd.op = 1 ∧ f.cmd.addr = Reg.GATE_ATT_REPORT 6 ∧ status = 0 then c.tamperCheck n d (leNat (data.take 1))
    else if f.cmd.op = 0x48 ∧ status = 0 then c.putDev n { d with groups := groupsOf f.cmd.data }
    else c

/-- Commands whose timeout has passed complete NO_RESPONDER for the tiles still silent (R140). -/
def Chip.noResponder (c : Chip) (n : Nat) : Chip :=
  let tmo := max (c.get (.CHAIN_RSP_TMO_TICKS n)) 1
  let out := (c.port n).flight.filter fun f => decide (f.sentTick + tmo ≤ c.lastIndex)
  let c := c.onPort n fun p => { p with flight := p.flight.filter fun f => !decide (f.sentTick + tmo ≤ c.lastIndex) }
  c.each out fun c f => c.each f.waits fun c w =>
    let c := (c.count (Reg.CHAIN_NO_RESP n)).raise (.CHAIN_NO_RESPONDER n)
    match f.src with | none => c | some s => c.outcome s.2 n w 2 0 false []

/-- A port without UP 1 s after ENABLE is LONELY, while discovery is enabled; each second after, it discovers if UP (R134,
CHAIN_CFG.DISC_EN). -/
def Chip.lonely (c : Chip) (n : Nat) : Chip :=
  if !c.enabled (0x20 + n) then c
  else if c.chainState n = 0 ∧ c.linkUpAt n = false ∧ c.flag (.CHAIN_CFG_DISC_EN n) = true then (c.put (.CHAIN_STATE_STATE n) 1).raise (.CHAIN_LONELY n)
  else if c.chainState n = 1 ∧ c.linkUpAt n = true then c.startDiscovery n
  else c

/-- DISC_PERIOD elapses while SERVING (R134). -/
def Chip.discRound (c : Chip) (n : Nat) : Chip :=
  if c.enabled (0x20 + n) && c.chainState n == 3 && c.get (.CHAIN_DISC_PERIOD n) != 0 then
    (c.onPort n fun p => { p with discAt := c.age }).discover n
  else c

/-- Sixteen superframes without a census or a HELLO (R134). -/
def Chip.discTimeout (c : Chip) (n : Nat) : Chip :=
  if c.chainState n = 2 ∧ 16 ≤ (c.port n).silent then (c.put (.CHAIN_STATE_STATE n) 1).raise (.CHAIN_LONELY n) else c

/-- REKEY goes out on a chain, at least 64 ticks before the boundary (R123, R358). -/
def Chip.rekey (c : Chip) (n : Nat) : Chip :=
  match (c.port n).session with
  | none => c
  | some s =>
    let next := c.lastIndex / 2 ^ 20 + 1
    if s.next = true ∨ s.epoch ≠ c.lastIndex / 2 ^ 20 ∨ next * 2 ^ 20 < c.lastIndex + 64 then c
    else
      let r := c.randomNow
      let k := c.slot (8 + n)
      let c := (c.redraw.setSlot (8 + n) { k with next := some (Config.kdf 3 [r, k.key, next]) }).onPort n fun p => { p with
        session := some { s with next := true }, rekeySent := c.lastIndex }
      c.sendFw n 3 0 0x45 0 0 (beBytes 4 next ++ beBytes 32 r)

/-- From index k × 2^20 the sender tags under the new epoch (R123): REKEYED is raised. -/
def Chip.keyEpoch (c : Chip) (n : Nat) : Chip :=
  match (c.port n).session with
  | none => c
  | some s =>
    let e := c.lastIndex / 2 ^ 20
    if s.next = true ∧ s.epoch < e then
      let k := c.slot (8 + n)
      let c := c.setSlot (8 + n) { k with key := k.next.getD k.key, next := none, epoch := e }
      (c.onPort n fun p => { p with session := some ⟨e, false, false⟩ }).raise .KEYS_REKEYED
    else c

/-- The sender port measures and mutes the tile at position 1 as a tile does its neighbour (R139): a start block's offset in
blocks. -/
def driftStep (d : Drift) (off : Int) : Drift :=
  { d with
    off := off
    run := if off < -2 ∨ 2 < off then d.run + 1 else 0
    clean := if -1 ≤ off ∧ off ≤ 1 then d.clean + 1 else 0
    muted := d.muted || (decide (off < -2 ∨ 2 < off) && decide (2 ≤ d.run)) }

end Sys2Proof.Machine
end

