-- ==== Sys2Proof/Machine/OpsTile.lean ====
section
/-!
DEFINITION. A tile's side of the chain protocol: which cells it acts on (R108, R109, R113, R115–R117), its answers (R133,
R355–R357), slots and records (R125, R129–R131), census (R128), muting (R139), images (R118, R448).
-/

namespace Sys2Proof.Machine

/-- The upstream port of a tile, A as 0 and B as 1; A while none is chosen. -/
def Chip.upPort (c : Chip) : Nat := c.tile.up.getD 0

/-- The downstream port of a tile. -/
def Chip.downPort (c : Chip) : Nat := 1 - c.upPort

/-- A tile's state code (R135): 0 SILENT, 1 UNKNOWN, 2 KEYED, 3 ASSIGNED, 4 ADMITTED, 5 HOLD; CHAIN_STATE of the upstream
page shows it. -/
def Chip.setTileState (c : Chip) (n : Nat) : Chip :=
  (c.onTile fun t => { t with st := n }).put (.CHAIN_STATE_STATE c.upPort) n

/-- A tile whose downstream port is not UP is the tail (R12, R138). -/
def Chip.tailEval (c : Chip) : Chip :=
  if c.tile.up.isSome && !c.linkUpAt c.downPort && !c.flag (.CHAIN_STATE_TAIL c.upPort) then
    (c.put (.CHAIN_STATE_TAIL c.upPort) 1).raise (.CHAIN_TAIL c.upPort)
  else c

/-- A tile's transmit PLL tracks the clock recovered on a port, and holds over no more (R91, R92). -/
def Chip.setClock (c : Chip) (p : Nat) : Chip :=
  ((c.onTile fun t => { t with clk := some p }).put (.SERDES_QSTAT_HOLDOVER 0) 0).emit (.clock 0 p true)

/-- A port becomes the tile's upstream: CLK_LO and CLK_HI name it (R104), the port's page shows state and tail, the other page neither.
The clock source is that port where the port it was taken from is not UP; else it changes only when that one leaves UP (R92). -/
def Chip.setUp (c : Chip) (p : Nat) : Chip :=
  let st := c.tile.st
  let c := (c.put (.CHAIN_STATE_STATE (1 - p)) 0).put (.CHAIN_STATE_TAIL (1 - p)) 0
  let c := (c.put (.CHAIN_STATE_TAIL p) 0).onTile fun t => { t with up := some p, locked := false }
  let c := (c.put (.SERDES_QCFG_CLK_LO 0) (1 - p)).put (.SERDES_QCFG_CLK_HI 0) p
  let c := if c.tile.clk.all fun k => k != p && !c.linkUpAt k then c.setClock p else c
  (c.setTileState st).tailEval

/-- The tile's WDN, while one is assigned. -/
def Chip.wdn (c : Chip) : Option Nat :=
  if c.flag .SYS_DOMAIN_WDN_VALID then some (c.get .SYS_DOMAIN_WDN) else none

/-- The tile's position (CHAIN_POS). -/
def Chip.position (c : Chip) : Nat := c.get (.CHAIN_POS_POSITION c.upPort)

/-- The multicast groups a tile belongs to: the enabled group slots (RET_GROUP_EN, RET_GROUP0–3). -/
def Chip.groups (c : Chip) : List Nat :=
  ((List.range 8).filter fun g => bitAt (c.get .RET_GROUP_EN_EN) g).map fun g =>
    if g % 2 = 0 then c.get (.RET_GROUP_GROUP_LO (g / 2)) else c.get (.RET_GROUP_GROUP_HI (g / 2))

/-- A cell names the tile (R109). -/
def Chip.namesMe (c : Chip) (h : Hdr) : Bool :=
  match h.amode with
  | 0 => c.wdn == some h.dest
  | 1 => c.position == h.dest && h.dest != 0
  | 2 => c.groups.contains h.dest
  | _ => true

/-- The key and its epoch that a tile holds for a KE (R123): the epoch in force, from REKEY on the next one, and until 16 ticks after
the boundary the one before. -/
def Chip.tileKey (c : Chip) (ke : Nat) : Option (Nat × Nat) :=
  match c.tile.session with
  | none => none
  | some s =>
    let k := c.slot 8
    if s.epoch % 2 = ke then some (k.key, s.epoch)
    else if s.next then some (k.next.getD 0, s.epoch + 1)
    else if s.old then some (k.next.getD 0, s.epoch - 1) else none

/-- The tag of a cell verifies: under the key that the tile holds for its KE (R122, R123). -/
def Chip.tagOk (c : Chip) (x : Cell) (h : Hdr) (rx : Rx) : Bool :=
  match c.tileKey h.ke with
  | none => false
  | some k => rx.tag == x.tag h k.1 k.2 c.lastIndex

/-- The header of a cell of the tile's own (R106): the parity of its session epoch, and the sender and port that its beacons name. -/
def Chip.tileHdr (c : Chip) (x : Cell) : Hdr :=
  x.hdrOf (match c.tile.session with | some s => s.epoch % 2 | none => 0) c.tile.sidx c.tile.sport

/-- The tag of a cell of the tile's own, under its session key (R122). -/
def Chip.tileTag (c : Chip) (x : Cell) (h : Hdr) : List Byte :=
  match c.tile.session with
  | none => zeroTag
  | some s => x.tag h (c.slot 8).key s.epoch c.lastIndex

/-- A cell of the tile's own leaves on its upstream port. -/
def Chip.sendUp (c : Chip) (x : Cell) : Chip :=
  let h := c.tileHdr x
  (c.emit (.cell c.upPort x)).transmit 0 c.upPort (x.made h (c.tileTag x h))

/-- A tag failure of a cell the tile acts on is counted and raises TAG_FAIL (R113, R116). -/
def Chip.tagErr (c : Chip) : Chip := (c.count (Reg.CHAIN_TAG_ERR c.upPort)).raise (.CHAIN_TAG_FAIL c.upPort)

/-- Every cell that arrives on the upstream port leaves on the downstream port, whatever its checks say (R108). -/
def Chip.passDown (c : Chip) (port : Nat) (x : Cell) (h : Hdr) (rx : Rx) : Chip :=
  if c.tile.up == some port then c.pass c.downPort x h rx else c

/-- Every return cell that arrives on the downstream port leaves on the upstream port (R108, R125, R138). -/
def Chip.passUp (c : Chip) (port : Nat) (x : Cell) (h : Hdr) (rx : Rx) : Chip :=
  if c.tile.up == some (1 - port) then c.pass c.upPort x h rx else c

/-- The checks of a received forward cell (R107); the second component is whether the tile may act on it, which takes that it came on
the upstream port (R109). -/
def Chip.receive (c : Chip) (port : Nat) (x : Cell) (h : Hdr) (rx : Rx) : Chip × Bool :=
  let r := c.checkCell port x h rx
  (r.1, r.2 && c.tile.up == some port)

/-- A record joins those that wait for a slot; a tile without units holds none (R130). -/
def Chip.queueRec (c : Chip) (r : Rec) : Chip :=
  if c.get .RET_UNITS_COUNT = 0 then c else c.onTile fun t => { t with recs := t.recs ++ [r] }

/-- A command's completion: kept with its TOKEN among the last 1,024, and queued (R117, R130). -/
def Chip.finish (c : Chip) (token status cause : Nat) (data : List Byte) : Chip :=
  let r := Rec.completion token status cause false (data.take 64)
  (c.onTile fun t => { t with kept := ((token, r) :: t.kept).take 1024 }).queueRec r

/-- A kept completion with its DUP flag (R117). -/
def Rec.withDup : Rec → Rec
  | .completion t s k _ d => .completion t s k true d
  | r => r

/-- What an operation answers: status, cause, data. -/
structure Ans where
  status : Nat
  cause : Nat
  data : List Byte
  deriving DecidableEq, Repr

/-- The completion OK without data. -/
def ansOk : Ans := ⟨0, 0, []⟩

/-- The completion follows later (ACT_ARM, R383): status 255 is no code of R313. -/
def ansLater : Ans := ⟨255, 0, []⟩

/-- A FAILED completion with its cause. -/
def ansFail (k : Nat) : Ans := ⟨1, k, []⟩

/-- The OPs of R115. -/
def knownOps : List Nat :=
  [0x01, 0x02, 0x03, 0x04, 0x05, 0x06, 0x40, 0x41, 0x42, 0x43, 0x44, 0x45, 0x46, 0x47, 0x48, 0x50, 0x51, 0x52]

/-- A tagged command cell at a tile (R108, R109, R115–R117): forwarded, checked, refused for an untagged or stale cell,
answered from the kept completions for a known TOKEN, completed FAILED with cause UNKNOWN_OP for an OP that the tile does not know and
with cause TARGET for a wrong AMODE, neither of which is executed and kept, else performed once and completed. -/
def Chip.tagged (c : Chip) (port : Nat) (h : Hdr) (x : Cmd) (rx : Rx) (amodes : List Nat) (run : Chip → Chip × Ans) : Chip :=
  let c := c.passDown port (.command h x) h rx
  let r := c.receive port (.command h x) h rx
  let c := r.1
  if !r.2 || !c.namesMe h then c
  else if x.unauth then c.tagErr
  else if c.tile.session.isNone then c
  else if !c.tagOk (.command h x) h rx then c.tagErr
  else if x.ctr ≤ c.tile.ctrMax then c.count (Reg.CHAIN_REPLAY_REJ c.upPort)
  else
    let c := c.onTile fun t => { t with ctrMax := x.ctr }
    match assoc c.tile.kept x.token with
    | some k => (c.onTile fun t => { t with dupSeen := true }).queueRec k.withDup
    | none =>
      if !knownOps.contains x.op then c.queueRec (.completion x.token 1 1 false [])
      else if !amodes.contains h.amode then c.queueRec (.completion x.token 1 12 false [])
      else
        let y := run c
        if y.2.status = 255 then y.1 else y.1.finish x.token y.2.status y.2.cause y.2.data

/-- An untagged command cell (DISCOVER, ID_REQ, KEYX) at a tile (R115, R116): acted on only without a session, and only with
an AMODE of its column. -/
def Chip.untagged (c : Chip) (port : Nat) (h : Hdr) (x : Cmd) (rx : Rx) (amode : Nat) (run : Chip → Chip) : Chip :=
  let c := c.passDown port (.command h x) h rx
  let r := c.receive port (.command h x) h rx
  let c := r.1
  if !r.2 || !c.namesMe h || c.tile.session.isSome || h.amode != amode || c.tile.st == 0 || c.tile.st == 5 then c
  else run c

/-! ### Answers -/

/-- An ANSWER of the tile (before R133). -/
def Chip.answerOf (c : Chip) (kind part : Nat) (body : List Byte) : Answer :=
  { serial := c.fuses.serial, depth := c.get (.CHAIN_POS_DEPTH c.upPort)
    state := if c.flag .GATE_QUAR_ACTIVE then 0x80 else c.tile.st, kind := kind, part := part, body := (body ++ leBytes 112 0).take 112 }

/-- An answer waits for its answer unit. -/
def Chip.answerWith (c : Chip) (kind part : Nat) (body : List Byte) : Chip :=
  c.onTile fun t => { t with answers := t.answers ++ [c.answerOf kind part body] }

/-- A HELLO's body: descriptor, boot ROM version (left open), hash prefix of the firmware in RAM. -/
def Chip.helloBody (c : Chip) : List Byte :=
  c.pdesc ++ beBytes 4 (Config.pgVersion 0x10000) ++ beBytes 16 ((c.tile.firmware.getD 0) / 2 ^ 256)

/-- DISCOVER at a tile: a HELLO is answered, one at a time (R133, R135). -/
def Chip.discoverIn (c : Chip) : Chip :=
  let c := c.onTile fun t => { t with answers := t.answers.filter (·.kind != 1) }
  c.answerWith 1 0 c.helloBody

/-- ID_REQ at a tile: a fresh nonce, and the four ID_PARTs (R355), signed over "LMT-ID", the challenge, the nonce, SIDX and PORT;
none in Quarantine or in the RETURNED state (R351, R369). -/
def Chip.idReqIn (c : Chip) (h : Hdr) (challenge : List Byte) : Chip :=
  if c.flag .GATE_QUAR_ACTIVE || c.fuses.lifecycle == 2 then c
  else
    let nonce := c.randomNow % 2 ^ 384
    let c := c.redraw.onTile fun t => { t with nonce := nonce }
    let what := label "LMT-ID" ++ challenge ++ beBytes 48 nonce ++ beBytes 1 h.sidx ++ beBytes 1 h.port
    let sig := (Config.sign (c.slot 0).key what ++ leBytes 96 0).take 96
    let b := c.idCert ++ beBytes 48 nonce ++ sig ++ leBytes 64 0
    c.each [0, 1, 2, 3] fun c k => c.answerWith 2 k ((b.drop (112 * k)).take 112)

/-- The claim check of R354 on the certificates a KEYX carries: an unclaimed tile takes any; a claimed one asks for an owner
certificate of KIND 0 under the bound key, for this sender, valid now. Whether its signature verifies is not judged here. -/
def Chip.claimCheck (c : Chip) (data : List Byte) : Bool :=
  let own := (data.drop 0xf0).take 336
  !c.fuses.claimed || (ownerCertOk own 0 ((c.fuses.claims.getLast?.map (·.1)).getD 0) (secOf c.bell.time) &&
    beField own 8 8 == beField data 8 8 && (own.drop 0x10).take 97 == (data.drop 0x18).take 97)

/-- KEYX at a tile (R354, R356, R357): `cert`, `sig` and `owner` are whether the signatures of the sender's certificate, of the message
and of the owner certificate verify, `wrap` whether unwrapping succeeds; all else is checked here. A refusal is answered with its
cause, the first that holds of CERT, NONCE, SIGNATURE, CLAIMED_ELSEWHERE and WRAP (DESIGN CHOICE, log entry 192). -/
def Chip.keyxIn (c : Chip) (h : Hdr) (data : List Byte) (cert sig owner wrap : Bool) (epoch : Nat) (next : Bool) : Chip :=
  if c.flag .GATE_QUAR_ACTIVE || c.fuses.lifecycle == 2 then c
  else
    let refuse := fun k => c.answerWith 4 0 (beBytes 1 k)
    if !cert || !idCertOk data 0 then refuse 2
    else if beField data 0x2a8 48 ≠ c.tile.nonce then refuse 4
    else if !sig then refuse 3
    else if !c.claimCheck data || (c.fuses.claimed && !owner) then refuse 1
    else if !wrap then refuse 5
    else
      let key := Config.kdf 4 [beNat data, (c.slot 0).key]
      let c := c.setSlot 8 (loadedSlot 2 key epoch (if next then some (Config.kdf 5 [beNat data, (c.slot 0).key]) else none))
      let c := (c.onTile fun t => { t with session := some ⟨epoch, next, false⟩, ctrMax := 0 }).setTileState 2
      let what := label "LMT-KEYX-OK" ++ beBytes 48 (Config.sha384 data) ++ beBytes 48 c.tile.nonce
      let sig := (Config.sign (c.slot 0).key what ++ leBytes 96 0).take 96
      let iv := beNat (beBytes 1 h.sidx ++ beBytes 1 h.port ++ beBytes 1 0x87 ++ beBytes 1 epoch ++ beBytes 8 c.fuses.serial)
      c.answerWith 3 0 (sig ++ (Config.gcm key iv sig ++ leBytes 16 0).take 16)

/-- ANS_SLOTS and RET_START in force at a tile, from the beacons (R113, R127). -/
def Chip.tileRet (c : Chip) : Nat × Nat := match c.tile.ret with | some r => (r.start, r.slots) | none => (500, 64)

/-- The answer unit an answer is put in, drawn anew each time from a0 to ANS_SLOTS − 1 (R133). -/
def Chip.answerUnit (c : Chip) : Nat :=
  let a0 := if c.tile.beaconMode = 4 then 1 else 0
  a0 + c.randomNow % (max (c.tileRet.2) (a0 + 1) - a0)

/-- Time passes until block j of the superframe leaves the upstream port: T(n, j) − RET_ADV (R125). -/
def Chip.elapseSlot (c : Chip) (j : Nat) : Chip :=
  c.elapseRet (c.retInstant c.tileRet.1 (c.rateCode 0) j - c.nat Reg.RET_ADV * 256)

/-- The next answer goes out in its unit, or is deferred because a start block arrives there from downstream (R133). -/
def Chip.sendAnswer (c : Chip) (busy : Bool) : Chip :=
  match if c.servo = 0 then [] else c.tile.answers with
  | [] => c
  | a :: r =>
    let c := c.elapseSlot (windowBlock (1024 + c.answerUnit))
    if busy then c.redraw.count (Reg.CHAIN_ANS_DEFER c.upPort)
    else ((c.onTile fun t => { t with answers := r }).sendUp (.answer c.answerUnit a)).redraw

/-! ### Commands of the link -/

/-- The session ends: slot 8 is emptied, units and queued records go, kept completions stay (R117, R130, R135). -/
def Chip.dropSession (c : Chip) : Chip :=
  let c := (c.zeroSlot 8).onTile fun t => { t with
    session := none, ctrMax := 0, recs := [], sent := [], rseq := [], evq := [], answers := [], drift := []
    arm := none, rel := none }
  let c := c.setNat Reg.RET_UNITS 0
  (c.put .SYS_DOMAIN_WDN_VALID 0).put .SYS_DOMAIN_WDN 0

/-- ASSIGN at a keyed tile: WDN, slot units, RET_ADV; slots begin (R115, R135). -/
def Chip.assignIn (c : Chip) (x : Cmd) : Chip × Ans :=
  let c := (c.put .SYS_DOMAIN_WDN (x.arg % 65536)).put .SYS_DOMAIN_WDN_VALID 1
  let c := (c.put .RET_UNITS_FIRST (x.addr / 65536 % 2048)).put .RET_UNITS_COUNT (x.addr % 256)
  let c := c.setNat Reg.RET_ADV (beNat (x.data.take 4))
  let c := c.onTile fun t => { t with rseq := [], sent := [], bootTold := false }
  (if c.tile.st = 2 then c.setTileState 3 else c, ansOk)

/-- ADMIT at an assigned tile: pixel cells from the named tick (R115, R135). -/
def Chip.admitIn (c : Chip) (x : Cmd) : Chip × Ans :=
  let c := c.onTile fun t => { t with admitTick := x.addr * 2 ^ 32 + x.arg }
  (if c.tile.st = 3 then c.setTileState 4 else c, ansOk)

/-- REKEY at a tile: the next epoch's key is derived from R and held (R358). -/
def Chip.rekeyIn (c : Chip) (x : Cmd) : Chip × Ans :=
  match c.tile.session with
  | none => (c, ansOk)
  | some s =>
    let k := c.slot 8
    let e := beNat (x.data.take 4)
    let c := c.setSlot 8 { k with next := some (Config.kdf 3 [beNat (x.data.drop 4), k.key, e]) }
    (c.onTile fun t => { t with session := some { s with next := true } }, ansOk)

/-- The session epoch moves on at its boundary; the old key is kept for 16 ticks more (R123). -/
def Chip.tileEpoch (c : Chip) : Chip :=
  match c.tile.session with
  | none => c
  | some s =>
    let e := c.lastIndex / 2 ^ 20
    if s.next = true ∧ s.epoch < e then
      let k := c.slot 8
      let c := c.setSlot 8 { k with key := k.next.getD k.key, next := some k.key, epoch := e }
      (c.onTile fun t => { t with session := some ⟨e, false, true⟩ }).raise .KEYS_REKEYED
    else c

/-- Sixteen ticks after the boundary the old epoch's key is dropped (R123). -/
def Chip.dropOldKey (c : Chip) : Chip :=
  match c.tile.session with
  | none => c
  | some s =>
    if s.old = true ∧ s.epoch * 2 ^ 20 + 16 ≤ c.lastIndex then
      let c := c.setSlot 8 { c.slot 8 with next := none }
      c.onTile fun t => { t with session := some { s with old := false } }
    else c

/-- UNMUTE: the named owner is no longer muted from the next superframe (R139). -/
def Chip.unmuteIn (c : Chip) (x : Cmd) : Chip × Ans :=
  (c.onTile fun t => { t with unmute := x.arg % 65536 :: t.unmute }, ansOk)

/-- TAIL_OFF: the tail role ends from the next superframe (R138). -/
def Chip.tailOffIn (c : Chip) : Chip × Ans := (c.onTile fun t => { t with tailOff := true }, ansOk)

/-- GROUPS: the group registers are written from DATA (R115). -/
def Chip.groupsIn (c : Chip) (x : Cmd) : Chip × Ans :=
  let g := fun k => beNat ((x.data.drop (2 + 2 * k)).take 2)
  let c := c.setNat Reg.RET_GROUP_EN (leNat (x.data.take 1))
  (c.each [0, 1, 2, 3] fun c k => c.setNat (Reg.RET_GROUP k) (g (2 * k) + 65536 * g (2 * k + 1)), ansOk)

/-- MODE_ARM: the switch is armed and acknowledged in a MODE_ACK record (R23, R115). -/
def Chip.modeArmIn (c : Chip) (x : Cmd) : Chip × Ans :=
  let n := beNat (x.data.take 8)
  let c := c.onTile fun t => { t with arm := some ⟨x.arg % 8, n, false⟩ }
  (c.queueRec (.modeAck (n % 2 ^ 32) (x.arg % 8)), ansOk)

/-- MODE_GO: recorded for the armed switch (R115). -/
def Chip.modeGoIn (c : Chip) : Chip × Ans :=
  (c.onTile fun t => { t with arm := t.arm.map fun a => { a with go := true } }, ansOk)

/-- MODE_ABORT: the armed switch is dropped (R115). -/
def Chip.modeAbortIn (c : Chip) : Chip × Ans := (c.onTile fun t => { t with arm := none }, ansOk)

/-- TEL_SUB: a subscription is created or cancelled; a seventeenth completes FAILED with cause LIMIT (R305). -/
def Chip.telSubIn (c : Chip) (x : Cmd) : Chip × Ans :=
  let id := x.arg / 65536 % 65536
  let rest := c.tile.subs.filter (·.id != id)
  if x.arg % 256 = 0 then (c.onTile fun t => { t with subs := rest }, ansOk)
  else if 16 ≤ rest.length then (c, ansFail 15)
  else (c.onTile fun t => { t with
    subs := rest ++ [⟨id, x.addr, x.arg / 256 % 256, x.arg % 256, 1⟩] }, ansOk)

/-! ### Slots -/

/-- Bytes a record takes (R130, R331). -/
def Rec.size : Rec → Nat
  | .completion _ _ _ _ d => 9 + d.length
  | .event _ _ _ => 10
  | .telemetry _ s => 4 + s.length
  | .modeAck _ _ => 7
  | .boot _ _ _ _ => 15
  | .muteReport _ _ _ _ => 8
  | .drops _ => 6
  | .mandate _ _ => 7
  | .presence _ _ _ _ => 12

/-- The records that fit the RECORDS field, in order (R129, R130). -/
def fitRecs (room : Nat) : List Rec → List Rec × List Rec
  | [] => ([], [])
  | r :: rs =>
    if r.size ≤ room then
      let x := fitRecs (room - r.size) rs
      (r :: x.1, x.2)
    else ([], r :: rs)

/-- Event records as they go out (R130). -/
def evRecs (q : List (Nat × Nat × Nat)) : List Rec := q.map fun x => .event x.1 (2 ^ x.2.1) x.2.2

/-- STATUS of the next slot (R129). -/
def Chip.slotStatus (c : Chip) : Nat :=
  let t := c.tile
  let b := fun (k : Nat) (x : Bool) => if x then 2 ^ k else 0
  b 15 (c.flag (.CHAIN_STATE_TAIL c.upPort)) + b 14 (c.servo == 3) + b 13 t.held + b 12 t.gmacFail + b 11 t.modeMiss +
    b 10 (t.drift.any (·.muted)) + b 9 t.evqOvf + b 8 t.dupSeen + c.mode % 8 * 32 + c.servo % 8 * 4

/-- The lowest piece of an image that is missing, and the last of the run that starts there (R130). -/
def missingRun (k : Nat) (held : List Nat) : Option (Nat × Nat) :=
  match (List.range k).find? fun p => !held.contains p with
  | none => none
  | some f => some (f, (((List.range k).filter fun p => decide (f ≤ p) && held.contains p).head?.getD k) - 1)

/-- The BOOT record of an image being loaded (R130). -/
def Image.record (i : Image) : Rec :=
  match i.length with
  | none => .boot i.id ((missingRun 4096 i.pieces).map (·.1) |>.getD 0xffffffff) 0xffffffff i.state
  | some l =>
    match missingRun ((l + 1023) / 1024) i.pieces with
    | none => .boot i.id 0xffffffff 0xffffffff i.state
    | some x => .boot i.id x.1 x.2 i.state

/-- Records a tile makes anew for each superframe: in its first unit MUTE_REPORTs and a MANDATE of an Elder; a BOOT record
while an image loads, DROPS (R130, R139, R339). -/
def Chip.freshRecs (c : Chip) (lead : Bool) : List Rec :=
  let t := c.tile
  let mutes := (t.drift.filter (·.muted)).map fun d => Rec.muteReport d.wdn d.unit d.off (decide (16 ≤ d.clean))
  let mand := if c.flag .ELDER_T_CFG_ELDER then [Rec.mandate (c.nat Reg.ELDER_T_HOLDER % 64) (c.nat Reg.ELDER_T_EPOCH)] else []
  let boot := match t.image with | some i => if t.bootTold then [] else [i.record] | none => []
  let drops := if t.telDrops = 0 then [] else [Rec.drops t.telDrops]
  (if lead then mutes ++ mand else []) ++ boot ++ drops

/-- A slot unit is the tile's own (R125); a ring's tile that has turned owns the unit toward port B (R329). -/
def Chip.owns (c : Chip) (u : Nat) : Bool :=
  let first := c.get .RET_UNITS_FIRST
  let here := c.get .RET_UNITS_COUNT
  let alt := c.get .ELDER_T_ALT_UNIT
  here != 0 && if c.flag .ELDER_T_CFG_RING && c.flag .ELDER_T_STAT_FACING_B then
      u == (if alt < 512 then first + 512 else alt) else decide (first ≤ u) && decide (u < first + here)

/-- A MUTE_REPORT. -/
def Rec.isMute : Rec → Bool
  | .muteReport _ _ _ _ => true
  | _ => false

/-- A SLOT of an owned unit is sent at its instant, once time is known (R124): repeated records with their RSEQ, or new ones (R125,
R129–R131). The first unit begins the superframe's MUTE_REPORTs, of which those that do not fit go into the tile's next units (R139).
What STATUS tells once is told in every unit, and is cleared with the last. -/
def Chip.slotSend (c : Chip) (u clobber : Nat) : Chip :=
  let first := c.get .RET_UNITS_FIRST
  let here := c.get .RET_UNITS_COUNT
  if !c.owns u || !c.enabled 0x30 || c.flag .GATE_QUAR_ACTIVE || c.servo == 0 then c
  else
    let c := c.elapseSlot (windowBlock u)
    let turned := c.flag .ELDER_T_CFG_RING && c.flag .ELDER_T_STAT_FACING_B
    let lead := turned || u == first
    let final := turned || u + 1 == first + here
    let c := c.when (clobber != 0) fun c => (c.countBy Reg.RET_CLOBBER clobber).raise .RET_CLOBBER
    let t := c.tile
    let x := match assoc t.sent u with
      | some l => (l, ([] : List Rec), true)
      | none =>
        let y := fitRecs 80 (c.freshRecs lead ++ t.recs.filter (fun (r : Rec) => !(lead && r.isMute)) ++ evRecs t.evq)
        (y.1, y.2, false)
    let down := if c.flag (.CHAIN_STATE_TAIL c.upPort) then (0, 0, 0) else t.stampD
    let s : Slot :=
      { wdn := c.get .SYS_DOMAIN_WDN, rseq := (assoc t.rseq u).getD 0, shown := c.get .NIMBUS_STAT_FRAME_SHOWN
        status := c.slotStatus, offset := c.nat Reg.BELL_OFFSET
        seqU := t.stampU.1, b1 := t.stampU.2.1, b2 := t.stampU.2.2
        seqD := down.1, a1 := down.2.1, a2 := down.2.2, recs := x.1 }
    let isEv := fun (r : Rec) => match r with | .event _ _ _ => true | _ => false
    let isFresh := fun (r : Rec) => match r with
      | .muteReport _ _ _ _ => true | .mandate _ _ => true | .boot _ _ _ _ => true | .drops _ => true | _ => false
    let c := if x.2.2 then c else c.onTile fun t => { t with
      sent := assocPut t.sent u x.1
      recs := x.2.1.filter fun (r : Rec) => !isEv r && (!isFresh r || (r.isMute && !final))
      evq := t.evq.drop (x.1.filter isEv).length
      telDrops := if x.1.any (fun r => match r with | .drops _ => true | _ => false) then 0 else t.telDrops
      bootTold := t.bootTold || (t.image.any (fun (i : Image) => i.state != 0) && x.1.any fun r => match r with | .boot _ _ _ _ => true | _ => false) }
    let c := c.sendUp (.slot u s)
    c.when final fun c => c.onTile fun t =>
      { t with held := false, gmacFail := false, modeMiss := false, evqOvf := false, dupSeen := false }

/-- A RACK: acknowledged units advance RSEQ and take new records, the others repeat (R131). -/
def Chip.rackIn (c : Chip) (units : List Nat) : Chip :=
  c.onTile fun t => { t with
    rseq := (t.sent.filter fun x => units.contains x.1).foldl
      (fun m x => assocPut m x.1 (((assoc m x.1).getD 0 + 1) % 256)) t.rseq
    sent := t.sent.filter fun x => !units.contains x.1 }

/-- No valid RACK for a superframe: RACK_MISS, and the slot is repeated (R131). -/
def Chip.rackMiss (c : Chip) : Chip := if c.get .RET_UNITS_COUNT = 0 then c else c.raise .RET_RACK_MISS

/-! ### Census, muting -/

/-- CHAIN_POS from depth and census (R128). -/
def Chip.showPos (c : Chip) : Chip :=
  let p := c.upPort
  c.put (.CHAIN_POS_POSITION p) (positionOf (c.get (.CHAIN_STATE_CENSUS p)) (c.get (.CHAIN_POS_DEPTH p)))

/-- Block 0 of a superframe: the tail sends CENSUS 1, another tile d + 1, or 0 where it received none (R128). A tile that still holds
the tail role while its downstream port is UP takes a nonzero d (R138); with DEST 0 or no census from there it sends 1 as a tail does,
and its depth is 1: R128 speaks of the tail and of every other tile, R138 of neither then (DESIGN CHOICE, log entry 168). -/
def Chip.censusStep (c : Chip) (d : Option Nat) : Chip :=
  let c := c.elapseSlot 0
  let p := c.upPort
  let tail := c.flag (.CHAIN_STATE_TAIL p)
  match (if tail && d.isNone then some 0 else d.filter (· != 0)) with
  | some k => ((c.put (.CHAIN_POS_DEPTH p) (k + 1)).showPos).sendUp (.census (k + 1))
  | none => if tail then ((c.put (.CHAIN_POS_DEPTH p) 1).showPos).sendUp (.census 1) else c.sendUp (.census 0)

/-- RET_MUTE from the muted owners. -/
def Chip.showMute (c : Chip) : Chip :=
  let m := (if c.isTile then c.tile.drift else (List.range 16).flatMap fun n => (c.port n).drift).filter (·.muted)
  let c := (c.put .RET_MUTE_ACTIVE (if m.isEmpty then 0 else 1)).put .RET_MUTE_COUNT (min m.length 255)
  c.put .RET_MUTE_WDN (m.foldl (fun (a : Option Nat) d => some (match a with | none => d.wdn | some x => min x d.wdn)) none |>.getD 0)

/-- A list of drifting owners after one more measured start block (R139), and the record of its owner. -/
def driftMeasure (l : List Drift) (wdn unit : Nat) (off : Int) : List Drift × Drift :=
  let old := (l.find? (·.wdn == wdn)).getD ⟨wdn, 0, 0, 0, unit, false⟩
  let d := driftStep { old with unit := unit } off
  (d :: l.filter (·.wdn != wdn), d)

/-- What a measured start block leaves: SLOT_EDGE beyond ±2 blocks, MUTE_ON for an owner muted by it (R139). -/
def Chip.edge (c : Chip) (d : Drift) (was : Bool) (off : Int) : Chip :=
  let c := if off < -2 ∨ 2 < off then
      let c := ((c.put .RET_EDGE_LAST_OFFSET (wrapTo 8 off)).put .RET_EDGE_LAST_RUN (min d.run 255)).put .RET_EDGE_LAST_WDN d.wdn
      (c.count Reg.RET_EDGE_CNT).raise .RET_SLOT_EDGE
    else c
  (c.when (d.muted && !was) fun c => c.raise .RET_MUTE_ON).showMute

/-- A muted owner's start block goes up as a MUTED start block naming the owner, the 17 blocks after it as idle blocks (R139). -/
def Chip.muteUp (c : Chip) (wdn : Nat) : Chip :=
  (c.sendUp (.muted wdn)).transmit 0 c.upPort (List.replicate 17 idleBlock)

/-- A return cell arrives at a tile (R107, R108, R125, R139): what its checks count, and it goes on upstream, a slot of a muted owner as
MUTED; in the tile's own units the tile's blocks replace it. -/
def Chip.returnCell (c : Chip) (port unit : Nat) (x : Cell) (h : Hdr) (rx : Rx) : Chip :=
  let c := (c.checkCell port x h rx).1
  let slot := x.type == 0x78
  if c.tile.up != some (1 - port) || (slot && c.owns unit) then c
  else if slot && c.tile.drift.any (fun d => d.wdn == h.dest && d.muted) then c.muteUp h.dest
  else c.passUp port x h rx

/-- The start block of another owner's unit is measured where it opens a slot on the downstream port, and forwarded (R139). -/
def Chip.unitForward (c : Chip) (port unit : Nat) (x : Cell) (h : Hdr) (rx : Rx) (off : Int) : Chip :=
  if c.tile.up == some (1 - port) && x.type == 0x78 && rx.hcrc == x.hcrc h && !c.owns unit then
    let was := c.tile.drift.any fun d => d.wdn == h.dest && d.muted
    let y := driftMeasure c.tile.drift h.dest unit off
    ((c.onTile fun t => { t with drift := y.1 }).edge y.2 was off).returnCell port unit x h rx
  else c.returnCell port unit x h rx

/-- A sender port that mutes the tile at position 1 needs no UNMUTE cell: once the offset has been clean for 16 superframes it
stops, and the tile's next valid slot readmits it (R135, R139). -/
def Chip.portUnmute (c : Chip) (n wdn : Nat) : Chip :=
  let c := (c.onPort n fun p => { p with drift := p.drift.filter (·.wdn != wdn) }).raise .RET_MUTE_OFF
  let c := match c.devWdn n wdn with
    | some d => if d.st = DevState.suspended then c.putDev n { d with unmuting := true } else c
    | none => c
  c.showMute

/-- The same at a sender port, for the tile at position 1 (R139): its slots are held back while it is muted. -/
def Chip.portForward (c : Chip) (n wdn unit : Nat) (off : Int) : Chip :=
  if !(c.devWdn n wdn).any (fun d => c.devPos n d == 1) then c
  else
  let was := (c.port n).drift.any fun d => d.wdn == wdn && d.muted
  let x := driftMeasure (c.port n).drift wdn unit off
  let c := (c.onPort n fun p => { p with drift := x.1 }).edge x.2 was off
  if was && decide (16 ≤ x.2.clean) then c.portUnmute n wdn
  else c.when (x.2.muted && !was) fun c => c.mutedIn n wdn

/-- At a superframe's start the requests of UNMUTE and TAIL_OFF received before it take effect (R138, R139). -/
def Chip.superframe (c : Chip) : Chip :=
  let gone := c.tile.drift.filter fun d => d.muted && c.tile.unmute.contains d.wdn
  let c := c.onTile fun t => { t with drift := t.drift.filter (fun d => !t.unmute.contains d.wdn), unmute := [] }
  let c := if gone.isEmpty then c else (c.raise .RET_MUTE_OFF).showMute
  if c.tile.tailOff then
    (c.onTile fun t => { t with tailOff := false }).put (.CHAIN_STATE_TAIL c.upPort)
      (if c.linkUpAt c.downPort then 0 else 1)
  else c

/-! ### Images -/

/-- An image with nothing of it held. -/
def newImage (id : Nat) (staged : Bool) : Image :=
  { id := id, length := none, pieces := [], state := 0, staged := staged, data := [], held := [] }

/-- Bytes of an image are stored where they are not held yet (R118). -/
def Image.store (i : Image) (a : Nat) : List Byte → Image
  | [] => i
  | b :: r =>
    let i := if memRd i.held a = 0 then { i with data := memWr i.data a b, held := memWr i.held a 1 } else i
    i.store (a + 1) r

/-- LENGTH of an image, once its header is there (R448). -/
def Image.findLength (i : Image) : Option Nat :=
  if (List.range 8).all fun a => memRd i.held a != 0 then some (beNat (memBytes i.data 4 4)) else none

/-- A piece of 1,024 bytes is held once every byte of it has arrived (R118). -/
def Image.pieceHeld (i : Image) (p : Nat) : Bool :=
  let n := match i.length with | some l => min 1024 (l - 1024 * p) | none => 1024
  decide (0 < n) && (List.range n).all fun k => memRd i.held (1024 * p + k) != 0

/-- A boot cell's data is taken into an image (R118). -/
def Image.take (i : Image) (off : Nat) (data : List Byte) : Image :=
  let i := i.store (8 * off) data
  let i := { i with length := i.findLength }
  let p := off / 128
  let last := (i.length.getD 0 - 1) / 1024
  [p, p + 1, last].foldl (fun i q => if i.pieceHeld q && !i.pieces.contains q then { i with pieces := q :: i.pieces } else i) i

/-- Does the tile act on boot cells of an image (R118): its boot ROM loads one, or a release armed for it is not staged yet? -/
def Chip.wantsImage (c : Chip) (id : Nat) : Option Bool :=
  if c.tile.st = 3 ∧ c.tile.running = false then some false
  else if c.tile.st = 4 ∧ c.tile.rel.any (fun r => r.image == id && !r.staged) = true then some true
  else none

/-- UPDATE_T_STAT.PIECES and UPDATE_T_STAGE of an image being staged. -/
def Chip.showStage (c : Chip) : Chip :=
  match c.tile.image with
  | none => c
  | some i => if i.staged then (c.put .UPDATE_T_STAT_PIECES i.pieces.length).setNat Reg.UPDATE_T_STAGE i.id else c

/-- A boot cell at a tile (R108, R109, R118). -/
def Chip.bootIn (c : Chip) (port : Nat) (h : Hdr) (id off : Nat) (data : List Byte) (rx : Rx) : Chip :=
  let c := c.passDown port (.boot h id off data) h rx
  let r := c.receive port (.boot h id off data) h rx
  let c := r.1
  if !r.2 || !c.namesMe h || h.amode == 0 then c
  else
    match c.wantsImage id with
    | none => c
    | some staged =>
      let i := match c.tile.image with
        | some i => if i.id = id ∧ i.staged = staged then i else newImage id staged
        | none => newImage id staged
      if i.state = 0 then (c.onTile fun t => { t with image := some (i.take off data), bootTold := false }).showStage else c

/-- Every piece of an image is held. -/
def Image.whole (i : Image) : Bool :=
  match i.length with
  | none => false
  | some l => decide (0 < l) && (missingRun ((l + 1023) / 1024) i.pieces).isNone

/-- The verdict of R448 on a whole image: BOOT state 1 or 2 where all holds, 5 FAIL_FORMAT, 3 FAIL_SIGNATURE, 4
FAIL_ROLLBACK; `sig` is whether AUTH_KID, SIGNATURE and BODY_HASH hold. -/
def Chip.verdict (c : Chip) (i : Image) (sig : Bool) : Nat :=
  let be := fun a n => beNat (memBytes i.data a n)
  let l := i.length.getD 0
  if be 0 4 ≠ 0x43494d31 ∨ be 0x0c 1 ≠ 0 ∨ l % 8 ≠ 0 ∨ l < 256 ∨ 4 * 2 ^ 20 < l then 5
  else if !sig then 3
  else if be 8 4 < c.fuses.svn ∨ 64 < be 8 4 then 4
  else if i.staged then 2
  else 1

end Sys2Proof.Machine
end

