-- ==== Sys2Proof/Machine/OpsFloat.lean ====
section
/-!
DEFINITION. Exact arithmetic of the pixel paths: dyadic numbers and the rounding of R207–R209, and the curves that firmware
loads (R154, R175, R198, R446), each entry rounded from its exact or 112-bit value.
-/

namespace Sys2Proof.Machine

/-- A dyadic number m × 2^e. -/
abbrev Dy := Int × Int

/-- Zero. -/
def dyZero : Dy := (0, 0)

/-- A dyadic number of an integer. -/
def dyInt (i : Int) : Dy := (i, 0)

/-- Exact product. -/
def dyMul (a b : Dy) : Dy := (a.1 * b.1, a.2 + b.2)

/-- Exact sum. -/
def dyAdd (a b : Dy) : Dy :=
  let e := min a.2 b.2
  (a.1 * 2 ^ (a.2 - e).toNat + b.1 * 2 ^ (b.2 - e).toNat, e)

/-- Negation. -/
def dyNeg (a : Dy) : Dy := (-a.1, a.2)

/-- a ≤ b. -/
def dyLe (a b : Dy) : Bool := decide ((dyAdd b (dyNeg a)).1 ≥ 0)

/-- Floor to an integer. -/
def dyFloor (a : Dy) : Int := if 0 ≤ a.2 then a.1 * 2 ^ a.2.toNat else a.1 / 2 ^ (-a.2).toNat

/-- A value with the flags OVF and UNF its making set (R208, R209). -/
structure Fl where
  val : Dy
  ovf : Bool
  unf : Bool
  deriving DecidableEq, Repr

/-- Round half to even of n ÷ 2^k. -/
def rne (n k : Nat) : Nat :=
  let q := n / 2 ^ k
  let r := n % 2 ^ k
  if k = 0 then n
  else if 2 ^ (k - 1) < r ∨ (r = 2 ^ (k - 1) ∧ q % 2 = 1) then q + 1 else q

/-- RN into a format of `p` significant bits, least exponent `lo` of a subnormal's unit and `hi` of the first value beyond
the range: nearest, ties to even, saturating with OVF, UNF for a tiny inexact result (R207–R209). -/
def rnd (p : Nat) (lo hi : Int) (d : Dy) : Fl :=
  if d.1 = 0 then ⟨dyZero, false, false⟩
  else
    let a := d.1.natAbs
    let sgn : Int := if d.1 < 0 then -1 else 1
    let top := d.2 + (Nat.log2 a + 1 : Nat)
    let u := max (top - p) lo
    let k := (u - d.2).toNat
    let r := if u ≤ d.2 then a * 2 ^ (d.2 - u).toNat else rne a k
    let inexact := decide (d.2 < u) && a % 2 ^ k != 0
    if dyLe (dyInt (2 ^ hi.toNat)) (r, u) then ⟨(sgn * (2 ^ p - 1), hi - p), true, false⟩
    else ⟨if r = 0 then dyZero else (sgn * r, u), false, inexact && decide (top ≤ lo + p - 1)⟩

/-- RN32. -/
def rn32 (d : Dy) : Fl := rnd 24 (-149) 128 d

/-- RN16. -/
def rn16 (d : Dy) : Fl := rnd 11 (-24) 16 d

/-- The value of a finite binary32 encoding. -/
def val32 (w : Nat) : Dy :=
  let e := w / 2 ^ 23 % 256
  let m : Nat := w % 2 ^ 23
  let v : Int := ((if e = 0 then m else m + 2 ^ 23 : Nat) : Int)
  (if bitAt w 31 then -v else v, (max e 1 : Nat) - 150)

/-- The value of a finite binary16 encoding. -/
def val16 (w : Nat) : Dy :=
  let e := w / 1024 % 32
  let m : Nat := w % 1024
  let v : Int := ((if e = 0 then m else m + 1024 : Nat) : Int)
  (if bitAt w 15 then -v else v, (max e 1 : Nat) - 25)

/-- The encoding of a value that a format with `f` fraction bits and least unit 2^lo holds exactly, `s` its sign bit. -/
def encode (f s : Nat) (lo : Int) (d : Dy) : Nat :=
  if d.1 = 0 then 0
  else
    let a := d.1.natAbs
    let top := d.2 + (Nat.log2 a + 1 : Nat)
    let u := max (top - (f + 1 : Nat)) lo
    let m := if u ≤ d.2 then a * 2 ^ (d.2 - u).toNat else a / 2 ^ (u - d.2).toNat
    let e := (u - lo).toNat
    (if d.1 < 0 then 2 ^ s else 0) + (if m < 2 ^ f then m else e * 2 ^ f + m)

/-- The binary32 encoding of a value. -/
def enc32 (d : Dy) : Nat := encode 23 31 (-149) d

/-- The binary16 encoding of a value. -/
def enc16 (d : Dy) : Nat := encode 10 15 (-24) d

/-- A binary16 encoding is finite. -/
def fin16 (w : Nat) : Bool := w / 1024 % 32 != 31

/-- 1.0 in binary32. -/
def one32 : Nat := 0x3f800000

/-- RN32 of a quotient of naturals: the quotient to 64 more bits, with a sticky bit below. -/
def quot32 (a b : Nat) : Dy :=
  let s := 64 + Nat.log2 b
  let q := a * 2 ^ s / b
  let sticky := if a * 2 ^ s % b = 0 then 0 else 1
  (rn32 ((2 * q + sticky : Nat), -(s + 1 : Nat))).val

/-! ### Curves -/

/-- The largest number of `n` bits that passes a test, bit by bit from the top; the test is downward closed and 0
passes. -/
def pick (test : Nat → Bool) : Nat → Nat → Nat
  | 0, acc => acc
  | n + 1, acc => pick test n (if test (acc + 2 ^ n) then acc + 2 ^ n else acc)

/-- round_half_up(F × (a ÷ b)^(p ÷ q)), exactly. -/
def powRound (F a b p q : Nat) : Nat :=
  min F (pick (fun v => decide ((2 * v - 1) ^ q * b ^ p ≤ (2 * F) ^ q * a ^ p)) 21 0)

/-- One in the fixed point of the transcendental curves: 112 fraction bits. -/
def fxOne : Nat := 2 ^ 112

/-- Σ t^(2k+1) ÷ (2k+1) for a fixed-point t, `n` terms from term `k` with power `pw`. -/
def atanhSum (t : Int) : Nat → Nat → Int → Int
  | 0, _, _ => 0
  | n + 1, k, pw => pw / (2 * k + 1 : Nat) + atanhSum t n (k + 1) (pw * t / fxOne * t / fxOne)

/-- ln of a quotient near 1, in fixed point. -/
def lnNear (a b : Nat) : Int :=
  let t : Int := ((a : Int) - b) * fxOne / ((a : Int) + b)
  2 * atanhSum t 40 0 t

/-- ln 2 in fixed point. -/
def fxLn2 : Int := lnNear 2 1

/-- ln(a ÷ b) in fixed point, for positive a and b. -/
def fxLn (a b : Nat) : Int :=
  let la := Nat.log2 a
  let lb := Nat.log2 b
  ((la : Int) - lb) * fxLn2 + lnNear (a * 2 ^ lb) (b * 2 ^ la)

/-- Taylor sum of exp for a small fixed-point argument. -/
def expSum (r : Int) : Nat → Nat → Int → Int
  | 0, _, _ => 0
  | n + 1, k, term => term + expSum r n (k + 1) (term * r / fxOne / (k + 1 : Nat))

/-- exp of a fixed-point number, in fixed point. -/
def fxExp (y : Int) : Nat :=
  let k := y / fxLn2
  let v := (expSum (y - k * fxLn2) 40 0 fxOne).toNat
  if 0 ≤ k then v * 2 ^ k.toNat else v / 2 ^ (-k).toNat

/-- (a ÷ b)^(p ÷ q) in fixed point; 0 for a = 0. -/
def fxPow (a b p q : Nat) : Nat := if a = 0 then 0 else fxExp (fxLn a b * p / q)

/-- round_half_up(F × v) of a fixed-point v. -/
def fxRound (F v : Nat) : Nat := min F ((2 * F * v + fxOne) / (2 * fxOne))

/-- PQ decode of k ÷ 4,095 (ST 2084 EOTF): m1 = 2610/16384, m2 = 2523/32, c1 = 3424/4096, c2 = 2413/128, c3 = 2392/128.
PRESUMED, log entry 9: the spec names the standards, not their constants. -/
def pqDecode (F k : Nat) : Nat :=
  let n := fxPow k 4095 32 2523
  let num := n - fxOne * 3424 / 4096
  let den := fxOne * 2413 / 128 - n * 2392 / 128
  fxRound F (fxPow num den 8192 1305)

/-- PQ encode of k ÷ 4,095, the inverse of decode. -/
def pqEncode (F k : Nat) : Nat :=
  let y := fxPow k 4095 1305 8192
  fxRound F (fxPow (fxOne * 3424 / 4096 + y * 2413 / 128) (fxOne + y * 2392 / 128) 2523 32)

/-- HLG decode of k ÷ 4,095 (BT.2100 inverse OETF): a = 0.17883277, b = 0.28466892, c = 0.55991073. PRESUMED, log
entry 9. -/
def hlgDecode (F k : Nat) : Nat :=
  if 2 * k ≤ 4095 then (2 * F * k * k + 3 * 4095 * 4095) / (6 * 4095 * 4095)
  else
    let e := fxExp (((k : Int) * 100000000 - 55991073 * 4095) * fxOne / (17883277 * 4095))
    fxRound F ((e + 28466892 * fxOne / 100000000) / 12)

/-- HLG encode of k ÷ 4,095 (BT.2100 OETF). -/
def hlgEncode (F k : Nat) : Nat :=
  if 12 * k ≤ 4095 then powRound F (3 * k) 4095 1 2
  else
    fxRound F (fxLn (1200000000 * k - 28466892 * 4095) (100000000 * 4095) * 17883277 / 100000000 +
      55991073 * fxOne / 100000000).toNat

/-- sRGB decode of k ÷ 4,095 (IEC 61966-2-1): linear up to 0.04045, then ((V + 0.055) ÷ 1.055)^2.4. PRESUMED, log
entry 9. -/
def srgbDecode (F k : Nat) : Nat :=
  if 100000 * k ≤ 4045 * 4095 then (2 * F * k * 100 + 1292 * 4095) / (2 * 1292 * 4095)
  else powRound F (1000 * k + 55 * 4095) (1055 * 4095) 12 5

/-- Entry k of a named curve at full scale F: 0 identity, 1 and 2 BT.1886 decode and encode, 3 and 4 PQ, 5 and 6 HLG, 7 sRGB
decode (R175). -/
def curveEntry (F n k : Nat) : Nat :=
  match n with
  | 0 => (2 * k * F + 4095) / (2 * 4095)
  | 1 => powRound F k 4095 12 5
  | 2 => powRound F k 4095 5 12
  | 3 => pqDecode F k
  | 4 => pqEncode F k
  | 5 => hlgDecode F k
  | 6 => hlgEncode F k
  | _ => srgbDecode F k

/-- A finite non-negative binary16 encoding's value in units of 2^−24. -/
def units16 (h : Nat) : Nat := if h < 1024 then h else (h % 1024 + 1024) * 2 ^ (h / 1024 - 1)

/-- Entry k of the tile decode curve for a wall transfer function (R446): RN16 of k ÷ 4,095 or of its power 2.4. -/
def tileCurve (gamma : Bool) (k : Nat) : Nat :=
  if gamma then
    pick (fun h => decide ((units16 (h - 1) + units16 h) ^ 5 * 4095 ^ 12 ≤ k ^ 12 * 2 ^ 125)) 14 0
  else enc16 (rn16 ((2 * (k * 2 ^ 40 / 4095) + (if k * 2 ^ 40 % 4095 = 0 then 0 else 1) : Nat), -41)).val

/-- The two bytes of a half-word. -/
def half (n : Nat) : List Byte := leBytes 2 n

/-- Write a list of words from an address upward. -/
def memWords (m : Mem) (a : Nat) (l : List Nat) : Mem := memPut m a (l.flatMap (leBytes 4))

/-- Write a list of half-words from an address upward. -/
def memHalves (m : Mem) (a : Nat) (l : List Nat) : Mem := memPut m a (l.flatMap half)

/-- Slots 0–7 of the Loom LUT RAM after power-up (R175). -/
def loomLutInit : Mem :=
  (List.range 8).foldl (fun m n =>
    let e := (List.range 4096).map (curveEntry 65535 n)
    (List.range 3).foldl (fun m c => memHalves m (0x6000 * n + 0x2000 * c) e) m) []

/-- The ingest coefficient RAM after power-up (R154): LUT slots 0–5 from the curves, scaler sets 0 and 1 from the kernels
the spec names without values, phase 0 of set 0 passing the centre pixel. -/
def cramInit : Mem :=
  let m := (List.range 6).foldl (fun m n =>
    memWords m (0x10000 + 0x4000 * n) ((List.range 4096).map (curveEntry 0xfffff (n + 1)))) []
  (List.range 2).foldl (fun m s =>
    let h := (List.range 512).map fun i =>
      if s = 0 ∧ i < 8 then (if i = 3 then 0x1000 else 0) else (Config.kernel (4096 * s + i)).toNat
    let v := (List.range 384).map fun i =>
      if s = 0 ∧ i < 6 then (if i = 2 then 0x1000 else 0) else (Config.kernel (4096 * s + 1024 + i)).toNat
    memHalves (memHalves m (2048 * s) h) (2048 * s + 1024) v) m

end Sys2Proof.Machine
end

