-- ==== Sys2Proof/Machine/OpsIngest.lean ====
section
/-!
DEFINITION. The ingest pipes (R144–R162): streams, the reorder window, the pixel path of R151–R153, frame stores, the latch,
the checks of an INGEST commit. A context is named by its pipe `p` and its number `k`.
-/

namespace Sys2Proof.Machine

/-- A context with nothing received. -/
def ctxEmpty : Ctx := ⟨none, none, none, [], none, [], 0, none, none, [none, none, none, none], none, none, none, 0⟩

/-- A context. -/
def Chip.ctx (c : Chip) (p k : Nat) : Ctx := listAt c.ing.ctxs (4 * p + k) ctxEmpty

/-- Change a context. -/
def Chip.onCtx (c : Chip) (p k : Nat) (f : Ctx → Ctx) : Chip :=
  c.onIng fun g => { g with ctxs := listPut g.ctxs (4 * p + k) (f (c.ctx p k)) }

/-- The contexts as pipe and number. -/
def ctxNames : List (Nat × Nat) := (List.range 16).map fun m => (m / 4, m % 4)

/-- A context's state (INGEST_CTXc_STAT.STATE): 0 OFF, 1 JOINING, 2 RUNNING, 3 HOLDING, 4 FILL. -/
def Chip.ctxState (c : Chip) (p k : Nat) : Nat := c.get (.INGEST_CTX_STAT_STATE p k)

/-- Set a context's state. -/
def Chip.setCtxState (c : Chip) (p k n : Nat) : Chip := c.put (.INGEST_CTX_STAT_STATE p k) n

/-- What an ingest register of a context reads, applied or in the shadow. -/
def Chip.ctxReg (c : Chip) (shadow : Bool) (a : Nat) : Nat := if shadow then (c.rdS a).toNat else c.nat a

/-- A context's settings, applied or in the shadows (the register block of a context). -/
structure CtxSet where
  en : Bool
  swift : Bool
  srcSel : Nat
  sensor : Nat
  samp : Nat
  depth : Nat
  rgb : Bool
  block : Bool
  group : Nat
  srcIp : Nat
  port : Nat
  pt : Nat
  inW : Nat
  inH : Nat
  num : Nat
  den : Nat
  matrix : Nat
  gamut : Nat
  outLut : Nat
  inLut : Nat
  vSet : Nat
  hSet : Nat
  outW : Nat
  outH : Nat
  base : Nat
  fmt : Nat
  stride : Nat
  lossMax : Nat
  offset : Nat
  deriving DecidableEq, Repr

/-- Bits `hi` to `lo` of a number. -/
def field (n hi lo : Nat) : Nat := n / 2 ^ lo % 2 ^ (hi + 1 - lo)

/-- Read a context's settings. -/
def Chip.ctxSet (c : Chip) (sh : Bool) (p k : Nat) : CtxSet :=
  let cfg := c.ctxReg sh (Reg.INGEST_CTX_CFG p k)
  let ins := c.ctxReg sh (Reg.INGEST_CTX_IN_SIZE p k)
  let outs := c.ctxReg sh (Reg.INGEST_CTX_OUT_SIZE p k)
  let rate := c.ctxReg sh (Reg.INGEST_CTX_RATE p k)
  let col := c.ctxReg sh (Reg.INGEST_CTX_COLOUR p k)
  let scl := c.ctxReg sh (Reg.INGEST_CTX_SCALE p k)
  let str := c.ctxReg sh (Reg.INGEST_CTX_FS_STRIDE p k)
  let lat := c.ctxReg sh (Reg.INGEST_CTX_LATCH p k)
  let udp := c.ctxReg sh (Reg.INGEST_CTX_UDP p k)
  { en := bitAt cfg 31, swift := bitAt cfg 30, srcSel := field cfg 29 28
    sensor := field cfg 27 27 * 4 + field cfg 26 25, samp := field cfg 20 19, depth := field cfg 18 17
    rgb := bitAt cfg 16, block := bitAt cfg 15, port := field udp 15 0, pt := field udp 22 16, group := c.ctxReg sh (Reg.INGEST_CTX_GROUP p k)
    srcIp := c.ctxReg sh (Reg.INGEST_CTX_SRCIP p k)
    inW := field ins 14 0, inH := field ins 30 16, num := field rate 31 12, den := field rate 11 0
    matrix := field col 28 24, gamut := field col 20 16, outLut := field col 11 8, inLut := field col 3 0
    vSet := field scl 11 8, hSet := field scl 3 0, outW := field outs 14 0, outH := field outs 30 16
    base := c.ctxReg sh (Reg.INGEST_CTX_FS_BASE_LO p k) / 4096 * 4096 +
      c.ctxReg sh (Reg.INGEST_CTX_FS_BASE_HI p k) % 32 * 2 ^ 32
    fmt := field str 31 30, stride := field str 23 0, lossMax := field lat 31 16, offset := field lat 15 0 }

/-- The feed comes from Halo (R150): RGB 4:4:4 at 12 bits. -/
def CtxSet.csi (s : CtxSet) : Bool := s.srcSel == 3

/-- Bits of a component. -/
def CtxSet.bits (s : CtxSet) : Nat := if s.csi then 12 else if s.depth = 0 then 8 else if s.depth = 1 then 10 else 12

/-- The components are Y, Cb, Cr. -/
def CtxSet.ycc (s : CtxSet) : Bool := !s.csi && !s.rgb

/-- The chroma is subsampled. -/
def CtxSet.sub (s : CtxSet) : Bool := !s.csi && s.samp == 0

/-- Bytes of a stored pixel (R156). -/
def CtxSet.bpp (s : CtxSet) : Nat := if s.fmt = 1 then 8 else 4

/-- SWIFT acts (R161). -/
def Chip.ctxSwift (c : Chip) (s : CtxSet) : Bool := s.swift && c.mode == 3

/-- OFFSET in sub-nanoseconds; 0 is automatic: a source period and 1,000 µs, rounded up, or 0 for a Swift context
(INGEST_CTXc_LATCH). -/
def Chip.latchOffset (c : Chip) (s : CtxSet) : Nat :=
  if s.offset ≠ 0 then us s.offset
  else if c.ctxSwift s then 0
  else us ((1000000 * s.den + s.num - 1) / max s.num 1 + 1000)

/-! ### Loads and the checks of a commit (R147, R153, R156, R161, R162) -/

/-- A context's load in pixels per second, as a fraction (R162). -/
def Chip.ctxLoad (c : Chip) (s : CtxSet) : Nat × Nat :=
  let size := if s.csi then
      c.get (.CSI_VC_SIZE_WIDTH (s.sensor / 4) (s.sensor % 4)) * c.get (.CSI_VC_SIZE_HEIGHT (s.sensor / 4) (s.sensor % 4))
    else s.inW * s.inH
  (max size (s.outW * s.outH) * s.num, max s.den 1)

/-- The sum of two fractions, exact. -/
def addFrac (a b : Nat × Nat) : Nat × Nat := (a.1 * b.2 + b.1 * a.2, a.2 * b.2)

/-- A fraction in thousandths of a limit, rounded down. -/
def perMille (a : Nat × Nat) (limit : Nat) : Nat := a.1 * 1000 / (limit * max a.2 1)

/-- A fraction exceeds a limit. -/
def beyond (a : Nat × Nat) (limit : Nat) : Bool := decide (limit * a.2 < a.1)

/-- A pipe's load in pixels per second, of settings `f k`, as an exact fraction (R162). -/
def Chip.pipeLoad (c : Chip) (f : Nat → CtxSet) : Nat × Nat :=
  ((List.range 4).filter fun k => (f k).en).foldl (fun a k => addFrac a (c.ctxLoad (f k))) (0, 1)

/-- A field is outside R147, R154 or R156 (cause FIELD). -/
def CtxSet.badField (s : CtxSet) : Bool :=
  (!s.csi && (decide (2 ≤ s.samp) || s.depth == 3 || (s.rgb && s.samp == 0))) ||
    (decide (5 < s.matrix) && decide (s.matrix < 16)) || (decide (2 < s.gamut) && decide (s.gamut < 16)) ||
    decide (2 ≤ s.fmt) ||
    (s.en &&
      ((!s.csi && s.group == 0) || decide (s.inW < 16) || decide (8192 < s.inW) || decide (s.inH < 16) ||
        decide (4352 < s.inH) || decide (s.outW = 0) || decide (16384 < s.outW) ||
        decide (s.outH = 0) || decide (16384 < s.outH) || !rateOk s.num s.den || s.stride % 256 != 0 ||
        decide (s.stride < s.outW * s.bpp)))

/-- A scaling ratio is outside 1/8 to 16 (cause RATIO). -/
def CtxSet.badRatio (s : CtxSet) : Bool :=
  s.en && (decide (8 * s.outW < s.inW) || decide (16 * s.inW < s.outW) || decide (8 * s.outH < s.inH) ||
    decide (16 * s.inH < s.outH))

/-- A Swift context breaks R161 (cause SWIFT). -/
def Chip.badSwift (c : Chip) (s : CtxSet) : Bool :=
  s.en && c.ctxSwift s && (s.num * c.rateDen != c.rateNum * s.den || s.outH != s.inH)

/-- The cause for which an INGEST commit is refused, with its context; 0 if it is accepted. FIELD comes before RATIO, RATIO before
SWIFT and SWIFT before the rates, and the lowest context first; a refusal for PIPE_RATE or AGG_RATE, which belongs to no one
context, shows context 0. DESIGN CHOICE, log entry 174. -/
def Chip.ingestCause (c : Chip) (p : Nat) : Nat × Nat :=
  let sh := fun k => c.ctxSet true p k
  let find := fun (f : CtxSet → Bool) => (List.range 4).find? fun k => f (sh k)
  match find CtxSet.badField, find CtxSet.badRatio, find c.badSwift with
  | some k, _, _ => (1, k)
  | none, some k, _ => (4, k)
  | none, none, some k => (5, k)
  | none, none, none =>
    let mine := c.pipeLoad sh
    let all := ((List.range 4).filter (· != p)).foldl (fun a q => addFrac a (c.pipeLoad (fun k => c.ctxSet false q k))) mine
    if beyond mine 2150000000 then (2, 0) else if beyond all 8600000000 then (3, 0) else (0, 0)

/-- LOAD of each pipe and AGG follow the committed settings. -/
def Chip.showIngestLoad (c : Chip) : Chip :=
  let load := fun p => c.pipeLoad fun k => c.ctxSet false p k
  let all := (List.range 4).foldl (fun a p => addFrac a (load p)) (0, 1)
  c.each (List.range 4) fun c p =>
    (c.put (.INGEST_PIPE_STAT_LOAD p) (perMille (load p) 2150000000)).put (.INGEST_PIPE_STAT_AGG p) (perMille all 8600000000)

/-! ### The coefficient RAM (R154, R155) -/

/-- The settings whose slots are in use: applied, or in the shadows of a pending commit, of enabled contexts (R155). -/
def Chip.ctxUsers (c : Chip) : List CtxSet :=
  ctxNames.flatMap fun m =>
    ([c.ctxSet false m.1 m.2] ++ if c.flag (.PG_COMMIT_PENDING (0x42 + m.1)) then [c.ctxSet true m.1 m.2] else []).filter
      (·.en)

/-- A matrix slot from a code, if it names one. -/
def slotOf (n : Nat) : List Nat := if 16 ≤ n then [n - 16] else []

/-- The slots in use as bit sets: scaler sets, matrix slots, LUT slots. -/
def Chip.cramUse (c : Chip) : Nat × Nat × Nat :=
  let mark := fun (l : List Nat) => l.foldl (fun v b => setBitAt v b true) 0
  let us := c.ctxUsers
  (mark (us.flatMap fun s => [s.hSet, s.vSet]), mark (us.flatMap fun s => slotOf s.matrix ++ slotOf s.gamut),
    mark ((us.flatMap fun s => [s.inLut, s.outLut]).filter (· < 8)))

/-- The bits of a coefficient word that exist at an address: a whole word, a LUT entry's 20 bits, or none (R154). -/
def cramMask (a : Nat) : Nat :=
  if a < 0x8000 then 0xffffffff
  else if a < 0x8400 then (if a % 64 < 48 then 0xffffffff else 0)
  else if 0x10000 ≤ a ∧ a < 0x30000 then 0xfffff else 0

/-- The slot at an address is in use (R155). -/
def Chip.cramBusy (c : Chip) (a : Nat) : Bool :=
  let u := c.cramUse
  if a < 0x8000 then bitAt u.1 (a / 2048)
  else if a < 0x8400 then bitAt u.2.1 ((a - 0x8000) / 64)
  else if 0x10000 ≤ a ∧ a < 0x30000 then bitAt u.2.2 ((a - 0x10000) / 0x4000) else false

/-- A word of the coefficient RAM. -/
def Chip.cramWord (c : Chip) (a : Nat) : Nat := memLe c.ing.cram a 4

/-- Move an address register with AUTO_INC on by 4 (a memory window register pair). -/
def Chip.autoInc (c : Chip) (inc addr : Fld) : Chip := c.when (c.flag inc) fun c => c.put addr (c.get addr + 4)

/-- A write of INGEST_CRAM_DATA through a pipe's page: not performed into a slot in use, which sets WR_REJ; the address moves
on (R154, R155). -/
def Chip.cramWrite (c : Chip) (p v : Nat) : Chip :=
  let a := c.get (.INGEST_CRAM_ADDR_ADDR p) / 4 * 4
  let c := if c.cramBusy a then c.reject (Reg.INGEST_CRAM_DATA p)
    else c.onIng fun g => { g with cram := memPut g.cram a (leBytes (if cramMask a = 0 then 0 else 4) (v % (cramMask a + 1))) }
  c.autoInc (.INGEST_CRAM_ADDR_AUTO_INC p) (.INGEST_CRAM_ADDR_ADDR p)

/-! ### The pixel path (R151–R153) -/

/-- Full scale of the pipe's 20-bit fractions. -/
def full20 : Nat := 0xfffff

/-- Clip an integer to a 20-bit fraction. -/
def clip20 (i : Int) : Nat := min full20 i.toNat

/-- Round half up of an integer ÷ 2^k. -/
def halfUp (i : Int) (k : Nat) : Int := (i + 2 ^ (k - 1)) / 2 ^ k

/-- A lost sample on line 0: field `j` of CTXc_FILL scaled to the depth. DESIGN CHOICE, log entry 31. -/
def Chip.fillCode (c : Chip) (p k j bits : Nat) : Nat :=
  roundDiv (field (c.nat (Reg.INGEST_CTX_FILL p k)) (29 - 10 * j) (20 - 10 * j) * (2 ^ bits - 1)) 1023

/-- The key of a sample: line, pixel, component. -/
def sampleKey (line x j : Nat) : Nat := (line * 16384 + x) * 4 + j

/-- A sample as received, or of the line above, or of FILL on line 0 (R148). -/
def Chip.sample (c : Chip) (p k : Nat) (bits : Nat) (m : List (Nat × Nat)) (x j : Nat) : Nat → Nat
  | 0 => match spGet (fun _ => 0) m (sampleKey 0 x j) with
    | 0 => c.fillCode p k j bits
    | v + 1 => v
  | line + 1 => match spGet (fun _ => 0) m (sampleKey (line + 1) x j) with
    | 0 => c.sample p k bits m x j line
    | v + 1 => v

/-- A normalised component (step 1), the chroma of 4:2:2 taken at its cosited pixel. -/
def Chip.norm (c : Chip) (p k : Nat) (s : CtxSet) (m : List (Nat × Nat)) (line x j : Nat) : Nat :=
  roundDiv (c.sample p k s.bits m x j line * full20) (2 ^ s.bits - 1)

/-- A component of a pixel after steps 1 and 2: odd chroma of 4:2:2 by the taps (−1, 9, 9, −1) ÷ 16 over the even pixels,
edges replicated. -/
def Chip.comp (c : Chip) (p k : Nat) (s : CtxSet) (m : List (Nat × Nat)) (line x j : Nat) : Nat :=
  if s.sub && j != 0 && x % 2 == 1 then
    let last := (s.inW - 1) / 2
    let at_ := fun (i : Int) => (c.norm p k s m line (2 * min last i.toNat) j : Int)
    let h : Int := (x / 2 : Nat)
    clip20 (halfUp (9 * at_ h + 9 * at_ (h + 1) - at_ (h - 1) - at_ (h + 2)) 4)
  else c.norm p k s m line x j

/-- A matrix of nine coefficients in units of 2^−32 and its PRE in 20-bit units. -/
abbrev Matrix := List Int × List Int

/-- A rational coefficient in units of 2^−32. -/
def coef (n : Int) (d : Nat) : Int := (2 * n * 2 ^ 32 + d) / (2 * d : Nat)

/-- The Y′CbCr to RGB matrix of luma weights Kr and Kb (in 10^−4), with luma and chroma scales as fractions. PRESUMED from
BT.709 and BT.2020, log entry 32. -/
def yccMatrix (kr kb : Int) (ys yd cs cd : Nat) : List Int :=
  let kg := 10000 - kr - kb
  let y := coef ys yd
  let rv := coef (2 * (10000 - kr) * cs) (10000 * cd)
  let bu := coef (2 * (10000 - kb) * cs) (10000 * cd)
  let gu := coef (-2 * kb * (10000 - kb) * cs) (10000 * kg.toNat * cd)
  let gv := coef (-2 * kr * (10000 - kr) * cs) (10000 * kg.toNat * cd)
  [y, 0, rv, y, gu, gv, y, bu, 0]

/-- The matrix presets 0–5 of COLOUR.MATRIX for a depth. -/
def matrixPreset (n bits : Nat) : Matrix :=
  let q := 2 ^ (bits - 8)
  let top := 2 ^ bits - 1
  let lo : Int := (roundDiv (16 * q * full20) top : Nat)
  let mid : Int := (roundDiv (128 * q * full20) top : Nat)
  let id : List Int := [2 ^ 32, 0, 0, 0, 2 ^ 32, 0, 0, 0, 2 ^ 32]
  match n with
  | 0 => (id, [0, 0, 0])
  | 1 => (id.map fun v => if v = 0 then 0 else coef top (219 * q), [lo, lo, lo])
  | 2 => (yccMatrix 2126 722 top (219 * q) top (224 * q), [lo, mid, mid])
  | 3 => (yccMatrix 2126 722 1 1 1 1, [0, mid, mid])
  | 4 => (yccMatrix 2627 593 top (219 * q) top (224 * q), [lo, mid, mid])
  | _ => (yccMatrix 2627 593 1 1 1 1, [0, mid, mid])

/-- The gamut presets 0–2 of COLOUR.GAMUT. PRESUMED from BT.2087 and BT.2407, log entry 32. -/
def gamutPreset (n : Nat) : Matrix :=
  let m := fun (l : List Int) => (l.map fun v => coef v 10000, ([0, 0, 0] : List Int))
  match n with
  | 0 => ([2 ^ 32, 0, 0, 0, 2 ^ 32, 0, 0, 0, 2 ^ 32], [0, 0, 0])
  | 1 => m [6274, 3293, 433, 691, 9195, 114, 164, 880, 8956]
  | _ => m [16605, -5876, -728, -1246, 11329, -83, -182, -1006, 11187]

/-- A matrix slot of the coefficient RAM (R154). -/
def Chip.matrixSlot (c : Chip) (n : Nat) : Matrix :=
  let w := fun i => signOf 32 (c.cramWord (0x8000 + 64 * n + 4 * i))
  ((List.range 9).map fun i => w i * 65536, (List.range 3).map fun i => w (9 + i))

/-- Step 3: the colour matrix of a code. -/
def Chip.matrixOf (c : Chip) (n bits : Nat) : Matrix := if 16 ≤ n then c.matrixSlot (n - 16) else matrixPreset n bits

/-- Step 5: the gamut matrix of a code, PRE taken as 0. -/
def Chip.gamutOf (c : Chip) (n : Nat) : Matrix :=
  if 16 ≤ n then ((c.matrixSlot (n - 16)).1, [0, 0, 0]) else gamutPreset n

/-- Apply a matrix to three 20-bit values: out = M × (in − PRE), rounded half up and clipped. -/
def mulMatrix (m : Matrix) (v : List Nat) : List Nat :=
  let d := fun i => ((listAt v i 0 : Nat) : Int) - listAt m.2 i 0
  (List.range 3).map fun r =>
    clip20 (halfUp (listAt m.1 (3 * r) 0 * d 0 + listAt m.1 (3 * r + 1) 0 * d 1 + listAt m.1 (3 * r + 2) 0 * d 2) 32)

/-- A LUT look-up (R152); codes 8–15 bypass. -/
def Chip.ingestLut (c : Chip) (code v : Nat) : Nat :=
  if 8 ≤ code then v
  else
    let e := fun i => (c.cramWord (0x10000 + 0x4000 * code + 4 * min i 4095) : Int)
    let i := v / 256
    clip20 (e i + halfUp ((e (i + 1) - e i) * (v % 256 : Nat)) 8)

/-- A pixel after steps 1–5. -/
def Chip.linear (c : Chip) (p k : Nat) (s : CtxSet) (m : List (Nat × Nat)) (line x : Nat) : List Nat :=
  let v := (List.range 3).map fun j => c.comp p k s m line x j
  let v := mulMatrix (c.matrixOf s.matrix s.bits) v
  mulMatrix (c.gamutOf s.gamut) (v.map (c.ingestLut s.inLut))

/-- R153: the input position of an output pixel as index and phase. -/
def scalePos (x nIn nOut : Nat) : Int × Nat :=
  let num : Int := (2 * x + 1 : Nat) * (nIn : Int) - nOut
  let den : Nat := 2 * nOut
  let i := num / den
  let r := (num - i * den).toNat
  let ph := (128 * r + den) / (2 * den)
  if ph = 64 then (i + 1, 0) else (i, ph)

/-- A tap of a scaler set: horizontal at phase p, tap t, or vertical behind them (R154). -/
def Chip.tap (c : Chip) (set_ : Nat) (vert : Bool) (ph t : Nat) : Int :=
  let a := 2048 * set_ + if vert then 1024 + 2 * (6 * ph + t) else 2 * (8 * ph + t)
  signOf 16 (memLe c.ing.cram a 2)

/-- The nearest index within an image. -/
def clampIdx (i : Int) (n : Nat) : Nat := min (n - 1) i.toNat

/-- A pixel of an input line scaled horizontally (step 6). -/
def Chip.hPixel (c : Chip) (p k : Nat) (s : CtxSet) (m : List (Nat × Nat)) (line x : Nat) : List Nat :=
  let q := scalePos x s.inW s.outW
  let px := (List.range 8).map fun (t : Nat) => c.linear p k s m line (clampIdx (q.1 - 3 + t) s.inW)
  (List.range 3).map fun j =>
    clip20 (halfUp ((List.range 8).foldl (fun a t => a + c.tap s.hSet false q.2 t * ((listAt (listAt px t []) j 0 : Nat) : Int)) 0) 12)

/-- An output pixel after step 7: scaled vertically, then the output LUT. -/
def Chip.outPixel (c : Chip) (p k : Nat) (s : CtxSet) (m : List (Nat × Nat)) (y x : Nat) : List Nat :=
  let q := scalePos y s.inH s.outH
  let px := (List.range 6).map fun (t : Nat) => c.hPixel p k s m (clampIdx (q.1 - 2 + t) s.inH) x
  (List.range 3).map fun j =>
    c.ingestLut s.outLut (clip20 (halfUp
      ((List.range 6).foldl (fun a t => a + c.tap s.vSet true q.2 t * ((listAt (listAt px t []) j 0 : Nat) : Int)) 0) 12))

/-- The bytes of a stored pixel (step 8, R156). -/
def CtxSet.pack (s : CtxSet) (v : List Nat) : List Byte :=
  let g := fun i => listAt v i 0
  if s.fmt = 1 then
    let h := fun n => min 65535 ((n + 8) / 16)
    leBytes 2 (h (g 0)) ++ leBytes 2 (h (g 1)) ++ leBytes 2 (h (g 2)) ++ leBytes 2 65535
  else
    let h := fun n => min 1023 ((n + 512) / 1024)
    leBytes 4 (3 * 2 ^ 30 + h (g 0) * 2 ^ 20 + h (g 1) * 1024 + h (g 2))

/-- The address of a line of a buffer (R156). -/
def CtxSet.lineAddr (s : CtxSet) (b y : Nat) : Nat := s.base + (b * s.outH + y) * s.stride

/-- The input lines an output line needs: none of its taps lies beyond them. -/
def CtxSet.needs (s : CtxSet) (y : Nat) : Nat := clampIdx ((scalePos y s.inH s.outH).1 + 3) s.inH + 1

/-- The output lines that `settled` input lines complete. -/
def CtxSet.ready (s : CtxSet) (settled : Nat) : Nat :=
  ((List.range s.outH).takeWhile fun y => decide (s.needs y ≤ settled)).length

/-- Write an output line of the frame being received. -/
def Chip.writeLine (c : Chip) (p k : Nat) (s : CtxSet) (f : InFrame) (y : Nat) : Chip :=
  c.gWrite (s.lineAddr f.buf y) ((List.range s.outW).flatMap fun x => s.pack (c.outPixel p k s f.samples y x))

/-- The number of lines written into a buffer. -/
def bufLines (x : Ctx) (b : Nat) : Nat :=
  match listAt x.bufs b none with
  | some f => f.lines
  | none => 0

/-- The number of lines that had been written into a buffer by a domain time. -/
def bufLinesBy (x : Ctx) (b t : Nat) : Nat :=
  match listAt x.bufs b none with
  | some f => f.steps.foldl (fun n e => if e.1 ≤ t then max n e.2 else n) 0
  | none => 0

/-- Write every output line the settled input lines allow, and publish the progress (R156, R161). -/
def Chip.writeReady (c : Chip) (p k : Nat) : Chip :=
  match (c.ctx p k).frame with
  | none => c
  | some f =>
    let s := c.ctxSet false p k
    let from_ := bufLines (c.ctx p k) f.buf
    let upto := s.ready (min f.settled s.inH)
    let c := c.each ((List.range upto).drop from_) fun c y => c.writeLine p k s f y
    let c := c.onCtx p k fun x =>
      { x with bufs := listPut x.bufs f.buf ((listAt x.bufs f.buf none).map fun b => 
          { b with
            lines := max b.lines upto
            steps := if b.lines < upto then b.steps ++ [(c.bell.time, upto)] else b.steps }) }
    (c.put (.INGEST_CTX_LINE_WRITE p k) f.buf).put (.INGEST_CTX_LINE_LINES p k) (max from_ upto)

/-! ### Frames and buffers (R157–R159) -/

/-- The domain time at which the 90 kHz count last took an RTP timestamp, not after time `t` (R157). -/
def sourceTime (t rtp : Nat) : Nat :=
  let unit := 65536000000000
  let n := t * 90000 / unit
  let k := n - (n + 2 ^ 32 - rtp % 2 ^ 32) % 2 ^ 32
  (k * unit + 89999) / 90000

/-- The 90 kHz count of a domain time, modulo 2^32. -/
def rtpCount (t : Nat) : Nat := t * 90000 / 65536000000000 % 2 ^ 32

/-- Half a source period, in sub-nanoseconds. -/
def CtxSet.half (s : CtxSet) : Nat := s.den * 1000000000 * 65536 / (2 * max s.num 1)

/-- The buffers, by number, whose frame satisfies a test. -/
def Ctx.bufsWhere (x : Ctx) (f : FBuf → Bool) : List (Nat × FBuf) :=
  (List.range 4).filterMap fun b =>
    match listAt x.bufs b none with
    | some v => if f v then some (b, v) else none
    | none => none

/-- The newest of some buffers by source time. -/
def newest (l : List (Nat × FBuf)) : Option (Nat × FBuf) :=
  l.foldl (fun a v =>
    match a with
    | none => some v
    | some w => if w.2.src < v.2.src then some v else some w) none

/-- The frames that meet the source-time test at an instant (R157), or in Swift mode lie within half a source period of it
(R161). In JOINING, while an older picture is latched, only a complete frame does: that picture stays on view until the new
stream's first frame is complete (R160; DEDUCED, log entry 175). -/
def Chip.latchMeets (c : Chip) (p k t : Nat) : List (Nat × FBuf) :=
  let s := c.ctxSet false p k
  let x := c.ctx p k
  if c.ctxSwift s then
    let aim := t - c.latchOffset s
    x.bufsWhere fun f => decide (aim ≤ f.src + s.half) && decide (f.src ≤ aim + s.half) &&
      (f.complete || x.latched.isNone || c.ctxState p k != 1)
  else x.bufsWhere fun f => decide (f.src + c.latchOffset s ≤ t)

/-- The frame a latch at an instant would choose: the newest that meets the test, complete unless the context is in Swift mode
(R157, R161). -/
def Chip.latchChoice (c : Chip) (p k t : Nat) : Option (Nat × FBuf) :=
  newest ((c.latchMeets p k t).filter fun v => v.2.complete || c.ctxSwift (c.ctxSet false p k))

/-- The buffer for a new frame: not the one latched, the newest complete one, or the one the next tick would latch (R158);
the lowest of those left. -/
def Chip.freeBuf (c : Chip) (p k : Nat) : Nat :=
  let x := c.ctx p k
  let busy := x.latched.toList ++ ((newest (x.bufsWhere (·.complete))).map (·.1)).toList ++
    ((c.latchChoice p k (c.tickTime c.nextTick)).map (·.1)).toList ++ (x.frame.map (·.buf)).toList
  ((List.range 4).find? fun b => !busy.contains b).getD 0

/-- A new frame begins in a free buffer. -/
def Chip.openFrame (c : Chip) (p k src rtp : Nat) : Chip :=
  let b := c.freeBuf p k
  let c := c.onCtx p k fun x =>
    { x with
      frame := some { rtp := rtp, buf := b, lost := x.debt, settled := 0, samples := [] }, debt := 0
      bufs := listPut x.bufs b (some { src := src, rtp := rtp, complete := false, ended := false, lines := 0, steps := [] }) }
  (c.put (.INGEST_CTX_LINE_WRITE p k) b).put (.INGEST_CTX_LINE_LINES p k) 0

/-- The frame ends: its last lines are written; it is complete, or bad when too many packets were lost (R148, R157,
R159). -/
def Chip.endFrame (c : Chip) (p k : Nat) : Chip :=
  match (c.ctx p k).frame with
  | none => c
  | some f =>
    let s := c.ctxSet false p k
    let c := c.onCtx p k fun x => { x with frame := some { f with settled := s.inH } }
    let c := c.writeReady p k
    let close := fun (c : Chip) (g : Option FBuf → Option FBuf) => c.onCtx p k fun x =>
      { x with frame := none, lastRtp := some f.rtp, bufs := listPut x.bufs f.buf (g (listAt x.bufs f.buf none)) }
    if s.lossMax ≠ 0 ∧ s.lossMax < f.lost then
      ((close c fun _ => none).count (Reg.INGEST_CTX_FRAME_BAD p k)).raise (.INGEST_FRAME_BAD p)
    else
      let c := (close c fun b => b.map fun v => { v with complete := true, ended := true }).put
        (.INGEST_CTX_STAT_NEWEST p k) f.buf
      if c.ctxState p k = 2 then c else (c.setCtxState p k 2).raise (.INGEST_STREAM_UP p)

/-- The frame in progress is abandoned and never latched (R160). -/
def Chip.dropFrame (c : Chip) (p k : Nat) : Chip :=
  match (c.ctx p k).frame with
  | none => c
  | some f => c.onCtx p k fun x => { x with frame := none, lastRtp := some f.rtp, bufs := listPut x.bufs f.buf none }

/-- Packets are lost (R148): charged to the frame being received, PKT_LOSS at its first. -/
def Chip.losePackets (c : Chip) (p k n : Nat) : Chip :=
  let c := c.countBy (Reg.INGEST_CTX_PKT_LOST p k) n
  match (c.ctx p k).frame with
  | some f =>
    let c := c.when (f.lost == 0) fun c => c.raise (.INGEST_PKT_LOSS p)
    c.onCtx p k fun x => { x with frame := some { f with lost := f.lost + n } }
  | none =>
    let c := c.when ((c.ctx p k).debt == 0) fun c => c.raise (.INGEST_PKT_LOSS p)
    c.onCtx p k fun x => { x with debt := x.debt + n }

/-- One timestamp is older than another, modulo 2^32. -/
def rtpOlder (a b : Nat) : Bool := decide (signOf 32 (a + 2 ^ 32 - b % 2 ^ 32) < 0)

/-- The samples of a segment with their keys: 4:2:2 carries Cb, Y, Cr, Y for two pixels; 4:4:4 Cb, Y, Cr or R, G, B for
each (R147; the order is PRESUMED from ST 2110-20, log entry 33). -/
def CtxSet.placed (s : CtxSet) (g : Seg) : List (Nat × Nat) :=
  (List.range g.samples.length).map fun i =>
    let v := listAt g.samples i 0 % 2 ^ s.bits + 1
    if s.sub then
      let x := g.off + i / 4 * 2 + if i % 4 = 3 then 1 else 0
      (sampleKey g.line x (match i % 4 with | 0 => 1 | 2 => 2 | _ => 0), v)
    else (sampleKey g.line (g.off + i / 3) (if s.ycc then (match i % 3 with | 0 => 1 | 1 => 0 | _ => 2) else i % 3), v)

/-- A packet's samples enter the frame; the lines before its last segment's line are settled. -/
def Chip.takeSamples (c : Chip) (p k : Nat) (q : Pkt) : Chip :=
  let s := c.ctxSet false p k
  let segs := q.segs.filter fun g => decide (g.line < s.inH)
  let c := c.onCtx p k fun x =>
    { x with frame := x.frame.map fun f =>
        { f with
          samples := segs.foldl (fun m g => spSetAll (fun _ => 0) m (s.placed g)) f.samples
          settled := segs.foldl (fun n g => max n g.line) f.settled } }
  c.writeReady p k

/-- A packet is delivered in order (R148): it continues the frame, opens the next one, ends one whose marker was lost, or is
late; one of a frame that has been abandoned is discarded (R160). -/
def Chip.deliver (c : Chip) (p k : Nat) (q : Pkt) : Chip :=
  let late := fun (c : Chip) => c.count (Reg.INGEST_CTX_PKT_LATE p k)
  let fin := fun (c : Chip) => let c := c.takeSamples p k q; if q.marker then c.endFrame p k else c
  match (c.ctx p k).frame with
  | some f =>
    if q.rtp = f.rtp then fin c
    else if rtpOlder q.rtp f.rtp then late c
    else fin ((c.endFrame p k).openFrame p k (sourceTime q.at_ q.rtp) q.rtp)
  | none =>
    let new := fin (c.openFrame p k (sourceTime q.at_ q.rtp) q.rtp)
    match (c.ctx p k).lastRtp with
    | some r => if q.rtp = r then c else if rtpOlder q.rtp r then late c else new
    | none => new

/-- The highest sequence number the window has passed with: for merged paths, that of the path behind, while it lives
(R149). -/
def Ctx.top (x : Ctx) : Nat :=
  match x.hi0, x.hi1 with
  | some a, some b => min a b
  | some a, none => a
  | none, some b => b
  | none, none => 0

/-- Packets are delivered while they are next; a gap that the window or 500 µs on merged paths has passed is lost
(R148, R149). -/
def Chip.drainWindow (c : Chip) (p k : Nat) : Nat → Chip
  | 0 => c
  | n + 1 =>
    let x := c.ctx p k
    match x.held, x.base with
    | q :: r, some b =>
      if q.seq ≤ b then
        ((c.onCtx p k fun x => { x with held := r, base := some (b + 1), gapAt := none }).deliver p k q).drainWindow p k n
      else
        let low := x.top + 1 - 128
        let old := (c.ctxSet false p k).srcSel == 2 && decide (us 500 < c.age - x.gapAt.getD c.age)
        let goal := if old then q.seq else min q.seq low
        if b < goal then
          ((c.onCtx p k fun x => { x with base := some goal }).losePackets p k (goal - b)).drainWindow p k n
        else c.onCtx p k fun x => { x with gapAt := some (x.gapAt.getD c.age) }
    | _, _ => c

/-- Put a packet in its place by sequence number. -/
def insertPkt (q : Pkt) : List Pkt → List Pkt
  | [] => [q]
  | r :: l => if q.seq ≤ r.seq then q :: r :: l else r :: insertPkt q l

/-- A sequence number without its wrap, near the window. -/
def unwrapSeq (base seq : Nat) : Nat := ((base : Int) + signOf 32 (seq + 2 ^ 32 - base % 2 ^ 32)).toNat

/-- A valid packet of a stream enters its context's window (R148, R149). The window begins at the first packet received, so one that
precedes it is late; a second copy of a packet still held is discarded, on an unmerged stream uncounted, on merged paths late when
it comes more than 500 µs after the first. DESIGN CHOICE, log entry 176. -/
def Chip.packetIn (c : Chip) (p k port : Nat) (q : Pkt) : Chip :=
  let x := c.ctx p k
  let merged := (c.ctxSet false p k).srcSel == 2
  let b := x.base.getD q.seq
  let s := unwrapSeq b q.seq
  let c := (c.count (Reg.INGEST_CTX_PKT_RX p k)).put
    (if port = 0 then .INGEST_CTX_STAT_LIVE0 p k else .INGEST_CTX_STAT_LIVE1 p k) 1
  let raiseHi := fun (h : Option Nat) => some (max (h.getD s) s)
  let c := c.onCtx p k fun x =>
    { x with
      base := some b
      hi0 := if port = 0 then raiseHi x.hi0 else x.hi0
      hi1 := if port = 0 then x.hi1 else raiseHi x.hi1
      at0 := if port = 0 then some c.age else x.at0
      at1 := if port = 0 then x.at1 else some c.age
      seen := x.seen.filter fun e => decide (c.age - e.2 ≤ us 500) }
  let known := (c.ctx p k).seen.any fun e => e.1 == s
  if merged && known then c
  else if s < b then c.count (Reg.INGEST_CTX_PKT_LATE p k)
  else if x.held.any fun r => r.seq == s then (if merged then c.count (Reg.INGEST_CTX_PKT_LATE p k) else c)
  else
    let c := c.onCtx p k fun x => { x with held := insertPkt { q with seq := s } x.held, seen := (s, c.age) :: x.seen }
    c.drainWindow p k (2 * ((c.ctx p k).held.length) + 1)

/-- A payload lies within R147 for a context: progressive, of the packing mode that CFG.PACK names, at most three row headers, at
most 8,960 bytes. What becomes of one outside is not stated: it is no valid packet, and the context does not see it. DESIGN CHOICE,
log entry 177. -/
def CtxSet.takesForm (s : CtxSet) (f : PayForm) (heads : Nat) : Bool :=
  f.block == s.block && !f.isField && decide (f.bytes ≤ 8960) && decide (heads ≤ 3)

/-- A context takes a packet (R146). -/
def Chip.ctxTakes (c : Chip) (p k port dst src udp pt : Nat) : Bool :=
  let s := c.ctxSet false p k
  let any := fun (f v : Nat) => f == 0 || f == v
  c.enabled (0x42 + p) && s.en && c.ctxState p k != 0 && (s.srcSel == port || s.srcSel == 2) && s.group == dst &&
    any s.port udp && any s.pt pt && any s.srcIp src

/-- The frame delivered by Halo to the contexts of a sensor (R150): 12-bit RGB rows, complete at its frame end, which counts as
the feed's last valid packet (DEDUCED, log entry 178). -/
def Chip.liveFrame (c : Chip) (v : Nat) (rows : List (List (List Nat))) : Chip :=
  c.each ctxNames fun c m =>
    let s := c.ctxSet false m.1 m.2
    if c.enabled (0x42 + m.1) && s.en && s.csi && s.sensor == v && c.ctxState m.1 m.2 != 0 then
      let c := c.openFrame m.1 m.2 c.bell.time (rtpCount c.bell.time)
      let segs := (List.range rows.length).map fun y => (⟨y, 0, (listAt rows y []).flatten⟩ : Seg)
      ((c.takeSamples m.1 m.2 ⟨0, 0, true, 0, segs⟩).endFrame m.1 m.2).onCtx m.1 m.2 fun x => { x with at0 := some c.age }
    else c

/-- A frame Halo's watchdog discards counts as FRAME_BAD in its contexts (R150). -/
def Chip.liveBad (c : Chip) (v : Nat) : Chip :=
  c.each ctxNames fun c m =>
    let s := c.ctxSet false m.1 m.2
    if s.en && s.csi && s.sensor == v && c.ctxState m.1 m.2 != 0 then
      (c.count (Reg.INGEST_CTX_FRAME_BAD m.1 m.2)).raise (.INGEST_FRAME_BAD m.1)
    else c

/-! ### The latch (R157, R161) -/

/-- A context latches a buffer. -/
def Chip.latchBuf (c : Chip) (p k b rtp : Nat) : Chip :=
  ((c.onCtx p k fun x => { x with latched := some b }).put (.INGEST_CTX_STAT_LATCHED p k) b).setNat
    (Reg.INGEST_CTX_TS p k) rtp

/-- The source time of the frame latched. -/
def Ctx.latchedSrc (x : Ctx) : Option Nat :=
  match x.latched with
  | none => none
  | some b => (listAt x.bufs b none).map (·.src)

/-- Latch a frame if it is newer than the one latched. -/
def Chip.latchNewer (c : Chip) (p k : Nat) (f : Option (Nat × FBuf)) : Chip :=
  match f with
  | none => c
  | some v =>
    match (c.ctx p k).latchedSrc with
    | some t => if t < v.2.src then c.latchBuf p k v.1 v.2.rtp else c
    | none => c.latchBuf p k v.1 v.2.rtp

/-- The latch of one context at a tick at instant `t`: the newest complete frame that meets the test, FRAME_LATE when a
newer one is still being written; in Swift mode the frame within half a source period, complete or not (R157, R161). -/
def Chip.latchCtx (c : Chip) (p k t : Nat) : Chip :=
  if c.ctxState p k = 0 then c
  else if c.ctxSwift (c.ctxSet false p k) then
    match c.latchChoice p k t with
    | some v => c.latchBuf p k v.1 v.2.rtp
    | none => c
  else
    let late := match newest (c.latchMeets p k t) with
      | some v => !v.2.ended
      | none => false
    (c.when late fun c => (c.count (Reg.INGEST_CTX_FRAME_LATE p k)).raise (.INGEST_FRAME_LATE p)).latchNewer p k
      (c.latchChoice p k t)

/-- CONTEXT_LATCH: every context latches, and Loom composes from what is latched now (R157, R166). -/
def Chip.latchAll (c : Chip) (t : Nat) : Chip :=
  let c := c.each ctxNames fun c m => c.latchCtx m.1 m.2 t
  c.onLoom fun l => { l with bufs := ctxNames.map fun m => (c.ctx m.1 m.2).latched }

/-! ### State changes (R146, R159, R160) -/

/-- A multicast address. -/
def multicast (g : Nat) : Bool := g / 2 ^ 28 == 14

/-- The ports a context's SRC names. -/
def CtxSet.ports (s : CtxSet) : List Nat := if s.srcSel = 0 then [0] else if s.srcSel = 1 then [1] else if s.srcSel = 2 then [0, 1] else []

/-- A group is used on a port by some context that is not OFF. -/
def Chip.groupUsed (c : Chip) (port group : Nat) : Bool :=
  ctxNames.any fun m =>
    let s := c.ctxSet false m.1 m.2
    c.ctxState m.1 m.2 != 0 && s.ports.contains port && s.group == group

/-- A context's joins fall due. -/
def Chip.joinDue (c : Chip) (s : CtxSet) : Chip :=
  if multicast s.group then
    c.onIng fun g => { g with joins := g.joins ++ s.ports.map fun n => ⟨n, true, s.group, s.srcIp⟩ }
  else c

/-- Leaves fall due on the ports where no other context uses the group (R146). -/
def Chip.leaveDue (c : Chip) (s : CtxSet) : Chip :=
  if multicast s.group then
    let ns := s.ports.filter fun n => !c.groupUsed n s.group
    c.onIng fun g => { g with joins := g.joins ++ ns.map fun n => ⟨n, false, s.group, s.srcIp⟩ }
  else c

/-- A context goes to OFF: it leaves; buffers and the latched frame stay (R159). -/
def Chip.ctxOff (c : Chip) (p k : Nat) (old : CtxSet) : Chip :=
  if c.ctxState p k = 0 then c
  else
    let c := ((c.dropFrame p k).setCtxState p k 0).put (.INGEST_CTX_STAT_LIVE0 p k) 0
    let c := c.put (.INGEST_CTX_STAT_LIVE1 p k) 0
    let c := c.onCtx p k fun x =>
      { x with base := none, hi0 := none, hi1 := none, held := [], gapAt := none, seen := [], debt := 0, lastRtp := none
               at0 := none, at1 := none }
    c.leaveDue old

/-- The buffers of an earlier stream hold no frame of this one; the latched picture stays on view (R160). -/
def Ctx.onlyLatched (x : Ctx) : Ctx :=
  { x with bufs := (List.range 4).map fun b => if x.latched = some b then listAt x.bufs b none else none }

/-- A context joins: JOINING (R159). -/
def Chip.ctxJoin (c : Chip) (p k : Nat) : Chip :=
  ((c.setCtxState p k 1).onCtx p k Ctx.onlyLatched).joinDue (c.ctxSet false p k)

/-- An INGEST commit has applied: contexts follow their new settings; `old k` were those in force (R159, R160). -/
def Chip.ingestApplied (c : Chip) (p : Nat) (old : Nat → CtxSet) : Chip :=
  let c := c.each (List.range 4) fun c k =>
    let o := old k
    let n := c.ctxSet false p k
    let moved := o.group != n.group || o.srcIp != n.srcIp || o.srcSel != n.srcSel
    if !c.enabled (0x42 + p) then c
    else if !n.en then c.ctxOff p k o
    else if c.ctxState p k = 0 then c.ctxJoin p k
    else if moved then (c.ctxOff p k o).ctxJoin p k
    else if o != n then c.dropFrame p k
    else c
  c.showIngestLoad

/-- The page is enabled: contexts with EN = 1 join. -/
def Chip.ingestOn (c : Chip) (p : Nat) : Chip :=
  c.each (List.range 4) fun c k =>
    if (c.ctxSet false p k).en && c.ctxState p k == 0 then c.ctxJoin p k else c

/-- The page is disabled: its contexts go to OFF (R159). -/
def Chip.ingestOff (c : Chip) (p : Nat) : Chip :=
  c.each (List.range 4) fun c k => c.ctxOff p k (c.ctxSet false p k)

/-- The age of the last valid packet of a context's feed, on whichever path. -/
def Ctx.lastAt (x : Ctx) : Option Nat :=
  match x.at0, x.at1 with
  | some a, some b => some (max a b)
  | some a, none => some a
  | none, b => b

/-- A path of a context is silent: its LIVE bit clears, and the window no longer waits for it; of merged paths PATH_LOST is raised
(R149, INGEST_CTXc_STAT). -/
def Chip.pathSilent (c : Chip) (p k port : Nat) : Chip :=
  let live := if port = 0 then Fld.INGEST_CTX_STAT_LIVE0 p k else .INGEST_CTX_STAT_LIVE1 p k
  if c.flag live then
    ((c.put live 0).onCtx p k fun x => if port = 0 then { x with hi0 := none } else { x with hi1 := none }).when
      ((c.ctxSet false p k).srcSel == 2) fun c => c.raise (.INGEST_PATH_LOST p)
  else c

/-- Time passes to 100 ms after a context's last valid packet: its paths are silent, and in RUNNING the stream is lost: HOLDING
(R148, R159). -/
def Chip.streamLost (c : Chip) (p k : Nat) : Chip :=
  match (c.ctx p k).lastAt with
  | none => c
  | some t =>
    let c := c.elapseAge (t + ms 100)
    let c := (c.pathSilent p k 0).pathSilent p k 1
    if c.ctxState p k = 2 then
      ((c.setCtxState p k 3).onCtx p k fun x => { x with holdAt := c.age }).raise (.INGEST_STREAM_LOST p)
    else c

/-- Time passes to 100 ms after the last packet on one of a context's merged paths, which is silent then (R149). -/
def Chip.pathLost (c : Chip) (p k port : Nat) : Chip :=
  match (if port = 0 then (c.ctx p k).at0 else (c.ctx p k).at1) with
  | some t => if (c.ctxSet false p k).srcSel = 2 then (c.elapseAge (t + ms 100)).pathSilent p k port else c
  | none => c

/-- HOLD.MS elapses in HOLDING: the fill colour is written into a free buffer and latched (R159). -/
def Chip.fillOn (c : Chip) (p k : Nat) : Chip :=
  if c.ctxState p k = 3 ∧ c.get (.INGEST_CTX_HOLD_MS p k) ≠ 0 then
    let s := c.ctxSet false p k
    let b := c.freeBuf p k
    let g := fun j => field (c.nat (Reg.INGEST_CTX_FILL p k)) (29 - 10 * j) (20 - 10 * j)
    let px := if s.fmt = 1 then
        leBytes 2 (roundDiv (g 0 * 65535) 1023) ++ leBytes 2 (roundDiv (g 1 * 65535) 1023) ++
          leBytes 2 (roundDiv (g 2 * 65535) 1023) ++ leBytes 2 65535
      else leBytes 4 (3 * 2 ^ 30 + g 0 * 2 ^ 20 + g 1 * 1024 + g 2)
    let c := c.each (List.range s.outH) fun c y => c.gWrite (s.lineAddr b y) (List.replicate s.outW px).flatten
    let f : FBuf := ⟨c.bell.time, rtpCount c.bell.time, true, true, s.outH, [(c.bell.time, s.outH)]⟩
    let c := c.onCtx p k fun x => { x with bufs := listPut x.bufs b (some f) }
    ((c.latchBuf p k b f.rtp).setCtxState p k 4).raise (.INGEST_FILL_ON p)
  else c

/-! ### Ethernet (R144–R146) -/

/-- A port sends: its page is enabled and its link is up. -/
def Chip.ethUp (c : Chip) (n : Nat) : Bool := c.enabled (0x40 + n) && c.flag (.ETH_STAT_LINK n)

/-- A received frame lies within the size and VLAN limits of R144: 64 to 9,600 bytes; untagged, or in tagged operation (VLAN_EN)
with one tag of ETH_CFG.VID (DEDUCED, log entry 179). -/
def Chip.ethFits (c : Chip) (n : Nat) (f : EthFrame) : Bool :=
  decide (64 ≤ f.size) && decide (f.size ≤ 9600) &&
    match f.tag with
    | none => true
    | some v => c.flag (.ETH_CFG_VLAN_EN n) && v == c.get (.ETH_CFG_VID n)

/-- With FEC_EN the codewords of a frame that were corrected and that could not be are counted (R163). -/
def Chip.ethFec (c : Chip) (n : Nat) (f : EthFrame) : Chip :=
  c.when (c.flag (.ETH_CFG_FEC_EN n)) fun c =>
    ((c.countBy (Reg.ETH_FEC_CORR n) f.corr).countBy (Reg.ETH_FEC_UNCORR n) f.uncorr).when (decide (0 < f.uncorr)) fun c =>
      c.raise (.ETH_FEC_UNCORR n)

/-- A frame arrives at a port that is up (R144, R163): with FEC_EN its codewords are counted; a bad FCS is counted; a frame
outside the subset is discarded and counted in ETH_RX_OTHER. -/
def Chip.ethIn (c : Chip) (n : Nat) (f : EthFrame) (k : Chip → Chip) : Chip :=
  if !c.ethUp n then c
  else
    let c := c.ethFec n f
    if !f.fcs then c.count (Reg.ETH_RX_FCS n) else if c.ethFits n f then k c else c.count (Reg.ETH_RX_OTHER n)

/-- A frame leaves a port, in tagged operation (VLAN_EN) with the tag ETH_CFG.VID (R144, R163). -/
def Chip.ethSend (c : Chip) (n kind : Nat) (args : List Nat) : Chip :=
  c.emit (.eth n kind args (if c.flag (.ETH_CFG_VLAN_EN n) then some (c.get (.ETH_CFG_VID n)) else none))

/-- Send an IGMP message: kind 1 join, 2 leave, with the group, the source filter of a v3 join, and the version. -/
def Chip.sendIgmp (c : Chip) (g : Igmp) : Chip :=
  if c.ethUp g.port && c.nat (Reg.ETH_IP g.port) != 0 then
    let v2 := c.flag (.ETH_CFG_IGMP_V2 g.port)
    c.ethSend g.port (if g.join then 1 else 2) [if v2 then 2 else 3, g.group, if v2 then 0 else g.src]
  else c

/-- The joins of a port are sent anew: each group of a context that is not OFF (R146). -/
def Chip.joinAll (c : Chip) (n : Nat) (group : Option Nat) : Chip :=
  c.each ctxNames fun c m =>
    let s := c.ctxSet false m.1 m.2
    if c.ctxState m.1 m.2 != 0 && s.ports.contains n && multicast s.group && (group.isNone || group == some s.group) then
      c.sendIgmp ⟨n, true, s.group, s.srcIp⟩
    else c

/-- The next IGMP message that is due is sent; a join is repeated 1 s later (R146). -/
def Chip.igmpJoin (c : Chip) : Chip :=
  match c.ing.joins with
  | [] => c
  | g :: r =>
    let c := c.sendIgmp g
    c.onIng fun i => { i with joins := r, repeats := if g.join then i.repeats ++ [(g, c.age)] else i.repeats }

/-- Time passes to 1 s after the oldest join, whose robustness repeat is sent unless its group is no longer used (R146). -/
def Chip.igmpRepeat (c : Chip) : Chip :=
  match c.ing.repeats with
  | [] => c
  | g :: r =>
    let c := c.elapseAge (g.2 + ms 1000)
    let c := c.when (c.groupUsed g.1.port g.1.group) fun c => c.sendIgmp g.1
    c.onIng fun i => { i with repeats := r }

/-- A gratuitous ARP: kind 3, with the own address (R145). -/
def Chip.gratuitousArp (c : Chip) (n : Nat) : Chip :=
  if c.ethUp n && c.nat (Reg.ETH_IP n) != 0 then c.ethSend n 3 [c.nat (Reg.ETH_IP n)] else c

/-- A good frame is counted in the 64-bit count (R6). -/
def Chip.ethGood (c : Chip) (n : Nat) : Chip :=
  c.setPair (Reg.ETH_RX_OK_LO n) (Reg.ETH_RX_OK_HI n) (c.pair (Reg.ETH_RX_OK_LO n) (Reg.ETH_RX_OK_HI n) + 1)

end Sys2Proof.Machine
end

