-- ==== Sys2Proof/Machine/OpsLoom.lean ====
section
/-!
DEFINITION. Loom (R165–R187): layers, their placement, the LUT RAM, the pixel arithmetic of R171–R173, commit checks, fences
and flip groups.
-/

namespace Sys2Proof.Machine

/-- The page of a layer. -/
def layerPage (i : Nat) : Nat := 0x51 + i

/-- The fetch group of a layer (R165). -/
def layerGroup (i : Nat) : Nat := i / 4

/-- A graphic layer. -/
def graphic (i : Nat) : Bool := decide (8 ≤ i)

/-- A layer's settings (the LOOM layer register map). -/
structure LayerSet where
  en : Bool
  fenceEn : Bool
  fenceSel : Nat
  alphaMode : Nat
  fmt : Nat
  preLut : Nat
  base : Nat
  pipe : Nat
  ctx : Nat
  stride : Nat
  cropX : Nat
  cropY : Nat
  cropW : Nat
  cropH : Nat
  dstX : Int
  dstY : Int
  alpha : Nat
  wait : Nat
  deriving DecidableEq, Repr

/-- A layer's settings, applied or in the shadows. -/
def Chip.layerSet (c : Chip) (sh : Bool) (i : Nat) : LayerSet :=
  let cfg := c.ctxReg sh (Reg.LOOM_LYR_CFG i)
  let lo := c.ctxReg sh (Reg.LOOM_LYR_SRC_LO i)
  let pos := c.ctxReg sh (Reg.LOOM_LYR_CROP_POS i)
  let size := c.ctxReg sh (Reg.LOOM_LYR_CROP_SIZE i)
  let dst := c.ctxReg sh (Reg.LOOM_LYR_DST i)
  { en := bitAt cfg 31, fenceEn := bitAt cfg 30, fenceSel := field cfg 27 24, alphaMode := field cfg 21 20
    fmt := field cfg 18 16, preLut := field cfg 4 0
    base := lo / 256 * 256 + c.ctxReg sh (Reg.LOOM_LYR_SRC_HI i) % 32 * 2 ^ 32
    pipe := field lo 3 2, ctx := field lo 1 0, stride := c.ctxReg sh (Reg.LOOM_LYR_STRIDE i) % 2 ^ 24
    cropX := field pos 14 0, cropY := field pos 30 16, cropW := field size 14 0, cropH := field size 30 16
    dstX := signOf 16 (field dst 15 0), dstY := signOf 16 (field dst 31 16)
    alpha := c.ctxReg sh (Reg.LOOM_LYR_ALPHA i) % 65536, wait := c.ctxReg sh (Reg.LOOM_LYR_FENCE_WAIT i) }

/-- Bytes of a graphic pixel (R168). -/
def fmtBpp (f : Nat) : Nat := if f < 3 then 2 else if f = 3 then 3 else 4

/-! ### Loads and readiness (R177, R178) -/

/-- A fetch group is ready. -/
def Chip.grpReady (c : Chip) (g : Nat) : Bool := bitAt (c.get .LOOM_STAT_GRP_RDY) g

/-- The length of the overlap of a segment at `d` of `n` with 0 to `size`. -/
def overlap (d : Int) (n size : Nat) : Nat := (min (d + n) size - max d 0).toNat

/-- A layer's load in pixels per second × NUM's denominator: the area of its crop inside the canvas times NUM. -/
def Chip.layerLoad (c : Chip) (s : LayerSet) : Nat :=
  if s.en then
    overlap s.dstX s.cropW (c.get .SCAN_CANVAS_W) * overlap s.dstY s.cropH (c.get .SCAN_CANVAS_H) * c.rateNum
  else 0

/-- A group's applied load with the settings `f j` of its layers: every layer with EN = 1 counts, whether or not its page is enabled
(R178; DEDUCED, log entry 180). -/
def Chip.groupLoad (c : Chip) (g : Nat) (f : Nat → LayerSet) : Nat :=
  (List.range 4).foldl (fun a k => a + c.layerLoad (f (4 * g + k))) 0

/-- LOOM_LOAD follows the applied settings. -/
def Chip.showLoomLoad (c : Chip) : Chip :=
  c.each (List.range 4) fun c g =>
    let l := c.groupLoad g (c.layerSet false)
    c.put ⟨Reg.LOOM_LOAD, 8 * g + 7, 8 * g⟩ (min 255 (l * 100 / (8600000000 * max c.rateDen 1)))

/-! ### Commit checks (R167–R170, R174, R177–R179, R185) -/

/-- The crop does not lie inside its source (cause SIZE). -/
def Chip.cropBad (c : Chip) (i : Nat) (s : LayerSet) : Bool :=
  if s.cropW = 0 ∨ s.cropH = 0 then true
  else if graphic i then decide (16384 < s.cropX + s.cropW) || decide (16384 < s.cropY + s.cropH)
  else
    let x := c.ctxSet false s.pipe s.ctx
    decide (x.outW < s.cropX + s.cropW) || decide (x.outH < s.cropY + s.cropH)

/-- The cause for which a layer's commit is refused, 0 if it is accepted. R179 gives the causes no precedence: they are tried in the
order below. DESIGN CHOICE, log entry 181. -/
def Chip.layerCause (c : Chip) (i : Nat) : Nat :=
  let s := c.layerSet true i
  let out := fun (d : Int) => decide (d < -16384) || decide (16383 < d)
  if s.alphaMode = 3 ∨ out s.dstX ∨ out s.dstY then 1
  else if s.en ∧ (16384 < s.cropW ∨ 16384 < s.cropH ∨ 16383 < s.cropX ∨ 16383 < s.cropY) then 1
  else if s.en && c.cropBad i s then 2
  else if graphic i && s.fmt == 7 then 3
  else if graphic i && s.en && (s.stride == 0 || s.stride % 256 != 0 || decide (s.stride < (s.cropX + s.cropW) * fmtBpp s.fmt))
    then 4
  else if s.en && !c.grpReady (layerGroup i) then 5
  else if s.en && decide (8600000000 * max c.rateDen 1 <
      c.groupLoad (layerGroup i) fun j => if j = i then s else c.layerSet false j) then 6
  else if s.fenceEn && c.mode == 3 then 7
  else 0

/-- The sixteen nibbles of the order shadows are a permutation (R174). -/
def permOk (lo hi : Nat) : Bool :=
  let n := lo + 2 ^ 32 * hi
  (List.range 16).all fun v => (List.range 16).any fun p => n / 16 ^ p % 16 == v

/-- The cause for which a commit of the common page is refused; SWIFT is shown before ORDER (log entry 181). -/
def Chip.loomCause (c : Chip) : Nat :=
  if c.getS .LOOM_CFG_ORDER_MODE = 1 ∧ c.mode = 3 then 7
  else if permOk (c.rdS Reg.LOOM_ORDER_LO).toNat (c.rdS Reg.LOOM_ORDER_HI).toNat then 0 else 8

/-! ### The LUT RAM (R175, R176) -/

/-- The LUT slots in use: by the common page, and by enabled layers, applied or pending (R176). -/
def Chip.lutUse (c : Chip) : Nat :=
  let codes := [c.get .LOOM_POST_LUT_LUT] ++
    (if c.flag (.PG_COMMIT_PENDING 0x50) then [c.getS .LOOM_POST_LUT_LUT] else []) ++
    (List.range 16).flatMap fun i =>
      ([c.layerSet false i] ++ if c.flag (.PG_COMMIT_PENDING (layerPage i)) then [c.layerSet true i] else []).filterMap
        fun s => if s.en then some s.preLut else none
  codes.foldl (fun v b => if b < 16 then setBitAt v b true else v) 0

/-- A word of the LUT RAM. -/
def Chip.lutWord (c : Chip) (a : Nat) : Nat := memLe c.loom.lut a 4

/-- A write of LOOM_LUT_DATA: not performed into a slot in use, which sets WR_REJ; from 0x6_0000 upward ignored (R175,
R176). -/
def Chip.lutWrite (c : Chip) (v : Nat) : Chip :=
  let a := c.get .LOOM_LUT_ADDR_ADDR / 4 * 4
  let c := if 0x60000 ≤ a then c
    else if bitAt c.lutUse (a / 0x6000) then c.reject Reg.LOOM_LUT_DATA
    else c.onLoom fun l => { l with lut := memPut l.lut a (leBytes 4 v) }
  c.autoInc .LOOM_LUT_ADDR_AUTO_INC .LOOM_LUT_ADDR_ADDR

/-! ### Pixel arithmetic (R171–R173) -/

/-- R171: a component of n bits expands to 16. -/
def expand (n v : Nat) : Nat := if n = 16 then v else roundDiv (v * 65535) (2 ^ n - 1)

/-- R172: interpolation between entries `e`. -/
def lut16 (e : Nat → Nat) (v : Nat) : Nat :=
  let i := v / 16
  let a : Int := (e i : Nat)
  let b : Int := (e (min (i + 1) 4095) : Nat)
  (a + halfUp ((b - a) * (v % 16 : Nat)) 4).toNat

/-- A LUT code applied to colour `k`; 16–31 bypass. -/
def Chip.lutCode (c : Chip) (code k v : Nat) : Nat :=
  if 16 ≤ code then v
  else lut16 (fun i => memLe c.loom.lut (0x6000 * code + 0x2000 * k + 2 * i) 2) v

/-- mul of R173. -/
def mul16 (x y : Nat) : Nat := (x * y + 32767) / 65535

/-- The colours and alpha of a graphic pixel's bytes as a number (R168). -/
def fmtPixel (f n : Nat) : List Nat × Nat :=
  let e := fun hi lo => expand (hi + 1 - lo) (field n hi lo)
  match f with
  | 0 => ([e 15 11, e 10 5, e 4 0], 65535)
  | 1 => ([e 14 10, e 9 5, e 4 0], e 15 15)
  | 2 => ([e 11 8, e 7 4, e 3 0], e 15 12)
  | 3 => ([e 23 16, e 15 8, e 7 0], 65535)
  | 4 => ([e 23 16, e 15 8, e 7 0], e 31 24)
  | 5 => ([e 23 16, e 15 8, e 7 0], 65535)
  | _ => ([e 29 20, e 19 10, e 9 0], e 31 30)

/-- A layer takes part in the frame being composed (R166). -/
def Chip.takesPart (c : Chip) (i : Nat) : Bool := c.enabled (layerPage i) && (c.layerSet false i).en

/-- The layer covers a canvas pixel (R170). -/
def covers (s : LayerSet) (x y : Nat) : Bool :=
  decide (s.dstX ≤ x) && decide ((x : Int) < s.dstX + s.cropW) && decide (s.dstY ≤ y) &&
    decide ((y : Int) < s.dstY + s.cropH)

/-- The source pixel of a canvas pixel (R170). -/
def srcPixel (s : LayerSet) (x y : Nat) : Nat × Nat :=
  (s.cropX + ((x : Int) - s.dstX).toNat, s.cropY + ((y : Int) - s.dstY).toNat)

/-- The buffer a video layer reads: what its context latched at the tick (R167). -/
def Chip.shownBuf (c : Chip) (s : LayerSet) : Option Nat := listAt c.loom.bufs (4 * s.pipe + s.ctx) none

/-- The domain time T_line before canvas line y of the frame in production is complete (R188, R193). -/
def Chip.lineDue (c : Chip) (y : Nat) : Nat := c.bell.tickTime + c.planNow.ty y - ns c.planNow.tLine

/-- A Swift context's line, shown on canvas line y, is not written by T_line before that line is complete (R193). -/
def Chip.swiftMissing (c : Chip) (s : LayerSet) (y sy : Nat) : Bool :=
  let x := c.ctxSet false s.pipe s.ctx
  c.ctxSwift x &&
    match c.shownBuf s with
    | some b => decide (bufLinesBy (c.ctx s.pipe s.ctx) b (c.lineDue y) ≤ sy)
    | none => false

/-- Fetch a layer's pixel: colours and alpha in 16 bits, none where it is transparent (R167–R169). -/
def Chip.fetch (c : Chip) (i : Nat) (s : LayerSet) (x y : Nat) : Option (List Nat × Nat) :=
  let q := srcPixel s x y
  if graphic i then
    let n := leNat (c.gPeek (s.base + q.2 * s.stride + q.1 * fmtBpp s.fmt) (fmtBpp s.fmt)).1
    some (fmtPixel s.fmt n)
  else
    let f := c.ctxSet false s.pipe s.ctx
    match c.shownBuf s with
    | none => none
    | some b =>
      if f.outW ≤ q.1 ∨ f.outH ≤ q.2 ∨ c.swiftMissing s y q.2 = true then none
      else
        let n := leNat (c.gPeek (f.lineAddr b q.2 + q.1 * f.bpp) f.bpp).1
        if f.fmt = 1 then some ([field n 15 0, field n 31 16, field n 47 32], 65535)
        else some ([expand 10 (field n 29 20), expand 10 (field n 19 10), expand 10 (field n 9 0)], 65535)

/-- Blend a layer over `dst` (R173). -/
def Chip.blend (c : Chip) (s : LayerSet) (px : List Nat × Nat) (dst : List Nat) : List Nat :=
  let ga := s.alpha
  let a := if s.alphaMode = 0 then ga else mul16 px.2 ga
  (List.range 3).map fun k =>
    let v := c.lutCode s.preLut k (listAt px.1 k 0)
    let t := if s.alphaMode = 1 then mul16 v a else mul16 v ga
    min 65535 (t + mul16 (listAt dst k 0) (65535 - a))

/-- The blend order, bottom first (R174). -/
def Chip.blendOrder (c : Chip) : List Nat :=
  if c.get .LOOM_CFG_ORDER_MODE = 1 then
    let n := c.pair Reg.LOOM_ORDER_LO Reg.LOOM_ORDER_HI
    (List.range 16).map fun p => n / 16 ^ p % 16
  else List.range 16

/-- The background (LOOM_BG_RG, LOOM_BG_B). -/
def Chip.background (c : Chip) : List Nat := [c.get .LOOM_BG_RG_R, c.get .LOOM_BG_RG_G_B, c.get .LOOM_BG_B_G_B]

/-- The post-blend LUT. -/
def Chip.postLut (c : Chip) (v : List Nat) : List Nat :=
  (List.range 3).map fun k => c.lutCode (c.get .LOOM_POST_LUT_LUT) k (listAt v k 0)

/-- The idle pattern is shown: factory-default operation with IDLE_PAT_EN and no source (R25 step 5). -/
def Chip.idleShown (c : Chip) : Bool :=
  c.flag .SYS_ROLE_FACTORY && c.flag .SYS_DEFAULT_IDLE_PAT_EN &&
    !((List.range 16).any fun k => c.ctxState (k / 4) (k % 4) == 2)

/-- A pixel of a tile's idle pattern, which carries its WDN (R25). -/
def Chip.idlePixel (c : Chip) (wdn x y : Nat) : List Nat := [0, 1, 2].map fun k => Config.idle c.lastIndex wdn x y k % 65536

/-- The idle pattern at a place of the canvas: that of the tile mapped there, the background elsewhere. -/
def Chip.idleAt (c : Chip) (x y : Nat) : List Nat :=
  match (c.mapOf c.planNow).find? fun e => decide (e.x ≤ x ∧ x < e.x + e.w ∧ e.y ≤ y ∧ y < e.y + e.h) with
  | some e => c.idlePixel e.wdn (x - e.x) (y - e.y)
  | none => c.background

/-- A canvas pixel of the frame being composed (R173); with the common page disabled the background alone; the idle pattern in
its place where R25 shows it. -/
def Chip.canvasPixel (c : Chip) (x y : Nat) : List Nat :=
  if c.idleShown then c.idleAt x y
  else
  let dst := if c.enabled 0x50 then
      c.blendOrder.foldl (fun dst i =>
        let s := c.layerSet false i
        if c.takesPart i && covers s x y then
          match c.fetch i s x y with
          | some px => c.blend s px dst
          | none => dst
        else dst) c.background
    else c.background
  c.postLut dst

/-! ### Fences and flip groups (R181–R184) -/

/-- A fence counter changes; its value before is kept with the domain time (R181). -/
def Chip.fenceNote (c : Chip) (n : Nat) : Chip :=
  c.onLoom fun l => { l with fences := l.fences ++ [(c.bell.time, n, c.nat (Reg.LOOM_FENCE n))] }

/-- Store a fence counter. -/
def Chip.fenceSet (c : Chip) (n v : Nat) : Chip := (c.fenceNote n).setNat (Reg.LOOM_FENCE n) v

/-- A fence counter as it stood at a domain time (R181). -/
def Chip.fenceAt (c : Chip) (n t : Nat) : Nat :=
  match c.loom.fences.find? fun e => decide (t < e.1) && e.2.1 == n with
  | some e => e.2.2
  | none => c.nat (Reg.LOOM_FENCE n)

/-- The fence of a layer's pending set is signalled at a tick at instant `t`, or it has none (R181). -/
def Chip.signalled (c : Chip) (i t : Nat) : Bool :=
  let s := c.layerSet true i
  !s.fenceEn || decide (0 ≤ signOf 32 (c.fenceAt s.fenceSel (t - us 1) + 2 ^ 32 - s.wait))

/-- Members of the flip group (R184). -/
def Chip.flipMember (c : Chip) (i : Nat) : Bool := bitAt (c.get .LOOM_FLIP_GROUP_MEMBERS) i

/-- Ticks a layer's commit has been held so far. -/
def Chip.heldTicks (c : Chip) (i : Nat) : Nat := (assoc c.loom.held i).getD 0

/-- The hold of a layer ends. -/
def Chip.unhold (c : Chip) (i : Nat) : Chip :=
  ((c.onLoom fun l => { l with held := l.held.filter fun e => e.1 != i }).put (.LOOM_LYR_STAT_HELD i) 0).put
    (.LOOM_LYR_STAT_HELD_TICKS i) 0

/-- The flip group acts: LOOM_FLIP_GROUP has no effect while no fence is enabled (R185). A fence is enabled by FENCE_EN of any
layer's pending set, or of its applied one where none is pending (DEDUCED, log entry 182). -/
def Chip.flipActs (c : Chip) : Bool := (List.range 16).any fun i => (c.layerSet true i).fenceEn

/-- Is a layer's commit held at a tick at instant `t`, among the layers `due` there (R181, R184)? -/
def Chip.fenceHolds (c : Chip) (due : List Nat) (t i : Nat) : Bool :=
  if c.flipMember i then due.any fun j => c.flipMember j && !c.signalled j t else !c.signalled i t

/-- A layer is held one tick more; FENCE_HELD at the first (R181). -/
def Chip.holdLayer (c : Chip) (i : Nat) : Chip :=
  let n := c.heldTicks i + 1
  let c := c.when (n == 1) fun c => c.raise (.LAYER_FENCE_HELD i)
  ((c.onLoom fun l => { l with held := assocPut l.held i n }).put (.LOOM_LYR_STAT_HELD i) 1).put
    (.LOOM_LYR_STAT_HELD_TICKS i) (min n 65535)

/-- A held commit has been held for its TICKS executed ticks after the first (R183). -/
def Chip.fenceExpired (c : Chip) (i : Nat) : Bool :=
  let n := c.get (.LOOM_LYR_FENCE_TMO_TICKS i)
  n != 0 && decide (n < c.heldTicks i)

/-- The layers whose hold times out together with layer `i`: its flip group's held members, or itself (R184). -/
def Chip.heldWith (c : Chip) (i : Nat) : List Nat :=
  if c.flipMember i then (c.loom.held.map (·.1)).filter c.flipMember else [i]

/-- The register at an address holds its value through a shadow (RWS, R7). -/
def isRws (a : Nat) : Bool := (rowOf a).any fun r => r.acc == .rws

/-- Reload the shadows of a page from its applied registers. -/
def Chip.reloadShadows (c : Chip) (page : Nat) : Chip :=
  let mine := c.regs.filter fun e => e.1 / 0x1000 == page && isRws e.1
  { c with shadow := spSetAll regReset (spKeep (fun a => a / 0x1000 != page) c.shadow) mine }

/-- A held commit is withdrawn: PENDING clears, the shadows are reloaded (R183). -/
def Chip.dropCommit (c : Chip) (i : Nat) : Chip :=
  let page := layerPage i
  let c := ((c.unhold i).put (.PG_COMMIT_PENDING page) 0).reloadShadows page
  c.onFab fun f => { f with commits := f.commits.filter fun x => x.page != page }

/-- CLIPPED and NO_FRAME of a video layer follow its context; CLIPPED is raised once per change (R167). -/
def Chip.layerStat (c : Chip) (i : Nat) : Chip :=
  if graphic i then c
  else
    let s := c.layerSet false i
    let f := c.ctxSet false s.pipe s.ctx
    let clip := s.en && (decide (f.outW < s.cropX + s.cropW) || decide (f.outH < s.cropY + s.cropH))
    let was := c.flag (.LOOM_LYR_STAT_CLIPPED i)
    let c := (c.put (.LOOM_LYR_STAT_CLIPPED i) (if clip then 1 else 0)).put (.LOOM_LYR_STAT_NO_FRAME i)
      (if s.en && (c.shownBuf s).isNone then 1 else 0)
    c.when (clip && !was) fun c => c.raise (.LAYER_CLIPPED i)

/-- At an executed tick: layer pages take their ENABLE (R166), what each layer shows is recorded, the loads follow, and old
fence values are forgotten. -/
def Chip.loomTick (c : Chip) : Chip :=
  let c := c.each (List.range 16) fun c i =>
    let c := c.put (.PG_STATUS_ENABLED (layerPage i)) (c.get (.PG_CTRL_ENABLE (layerPage i)))
    let c := c.layerStat i
    let s := c.layerSet false i
    if !c.takesPart i then c
    else if graphic i then c.put (.LOOM_LYR_SHOWN_BASE i) (s.base / 256)
    else c.put (.LOOM_LYR_SHOWN_BUF i) ((c.shownBuf s).getD 0)
  (c.onLoom fun l => { l with fences := [] }).showLoomLoad

/-- LOOM_GRP_PWR as written: a bit of a group with an applied enabled layer is not cleared, and WR_REJ is set; a group
powered off is not ready (R177). -/
def Chip.grpPower (c : Chip) (v : Nat) : Chip :=
  let was := c.get .LOOM_GRP_PWR_ON
  let busy := fun g => (List.range 4).any fun k => (c.layerSet false (4 * g + k)).en
  let stuck := fun g => bitAt was g && !bitAt v g && busy g
  let on := (List.range 4).foldl (fun a g => setBitAt a g (bitAt v g || stuck g)) 0
  let c := c.when ((List.range 4).any stuck) fun c => c.reject Reg.LOOM_GRP_PWR
  let c := c.put .LOOM_GRP_PWR_ON on
  c.put .LOOM_STAT_GRP_RDY ((List.range 4).foldl (fun a g => setBitAt a g (bitAt a g && bitAt on g)) (c.get .LOOM_STAT_GRP_RDY))

/-- A powered fetch group becomes ready (R177). -/
def Chip.grpReadyNow (c : Chip) (g : Nat) : Chip :=
  if bitAt (c.get .LOOM_GRP_PWR_ON) g && !c.grpReady g then
    (c.put .LOOM_STAT_GRP_RDY (setBitAt (c.get .LOOM_STAT_GRP_RDY) g true)).raise .LOOM_GRP_READY
  else c

/-- A write of LOOM_FLIP_GROUP: ignored with WR_REJ while a member holds a pending commit (R184). -/
def Chip.flipGroup (c : Chip) (v : Nat) : Chip :=
  if (List.range 16).any fun i => c.flipMember i && c.flag (.PG_COMMIT_PENDING (layerPage i)) then
    c.reject Reg.LOOM_FLIP_GROUP
  else c.put .LOOM_FLIP_GROUP_MEMBERS v

end Sys2Proof.Machine
end

