-- ==== Sys2Proof/Machine/OpsScan.lean ====
section
/-!
DEFINITION. Scanout (R188–R204): the raster, line buffers, coding, slicing, CRC rectangles, the map RAM.
-/

namespace Sys2Proof.Machine

/-- CRC-32 (IEEE 802.3) of bytes. -/
def crc32 (l : List Byte) : Nat := (l.foldl (fun v b => crcByte 0xedb88320 v b.toNat) 0xffffffff) ^^^ 0xffffffff

/-- GAMMA24 (R198): entry k of the coding curve. -/
def gamma24 (k : Nat) : Nat := powRound 65535 k 4095 5 12

/-- The wall code of an output value in b bits (R198); WTF 2 and 3 act as 1. -/
def wallCode (linear : Bool) (b out : Nat) : Nat :=
  ((if linear then out else lut16 gamma24 out) * (2 ^ b - 1) + 32767) / 65535

/-- The pixel data of a cell: R, G, B of each pixel in b bits, most significant bit first, padded to blocks (R120). -/
def packPixels (b : Nat) (l : List (Nat × Nat × Nat)) : List Byte :=
  let n := l.foldl (fun a p => ((a * 2 ^ b + p.1) * 2 ^ b + p.2.1) * 2 ^ b + p.2.2) 0
  let bits := 3 * b * l.length
  let blocks := dataBlocks b l.length
  beBytes (8 * blocks) (n * 2 ^ (64 * blocks - bits))

/-- The pixels of a cell's data: the inverse of `packPixels` for `k` pixels. -/
def unpackPixels (b k : Nat) (d : List Byte) : List (List Nat) :=
  let n := beNat d
  let bits := 8 * d.length
  (List.range k).map fun i => (List.range 3).map fun j => n / 2 ^ (bits - (3 * i + j + 1) * b) % 2 ^ b

/-- PFLAGS.CODE of a bit depth (R119). -/
def codeOf (b : Nat) : Nat := if b = 10 then 0 else if b = 12 then 1 else 2

/-- Bits of a CODE. -/
def bitsOfCode (n : Nat) : Nat := if n = 0 then 10 else if n = 1 then 12 else 16

/-- An entry's place in the queue order: ascending X, then entry index (R199). -/
def sliceBefore (a b : Slicing) : Bool :=
  decide (a.entry.x < b.entry.x) || (a.entry.x == b.entry.x && decide (a.entry.idx ≤ b.entry.idx))

/-- Put a slice in its place. -/
def insertSlice (s : Slicing) : List Slicing → List Slicing
  | [] => [s]
  | t :: r => if sliceBefore s t then s :: t :: r else t :: insertSlice s r

/-- The valid entries whose tile is in service on a port with another panel size (MAP_MISMATCH, R196). -/
def Chip.mismatched (c : Chip) : List MapEntry :=
  (c.mapOf c.planNow).filter fun e =>
    (List.range 16).any fun n => (c.serving n).any fun d => d.wdn == e.wdn && descSize d.desc != (e.w, e.h)

/-- MAP_MISMATCH is raised once for each entry and commit (R196). -/
def Chip.tellMismatch (c : Chip) : Chip :=
  c.each c.mismatched fun c e =>
    if c.scan.told.contains e.idx then c
    else (c.onScan fun s => { s with told := e.idx :: s.told }).raise .SCAN_MAP_MISMATCH

/-- The pattern a listed tile of a running calibration job is sent in place of its slice (R260). -/
def Chip.patternFor (c : Chip) (wdn : Nat) : Option Nat :=
  match c.halo.job with
  | some j => if j.tiles.contains wdn then j.pattern else none
  | none => none

/-- LEVEL of the job, given in CC12, as a code of b bits. -/
def Chip.jobLevel (c : Chip) (b : Nat) : Nat :=
  match c.halo.job with
  | some j => roundDiv (j.level * (2 ^ b - 1)) 4095
  | none => 0

/-- The codes of pixel (px, py) of pattern k: 0 to 63 light one phase of 8 × 8, 64 none, 65 to 67 one colour (R260). -/
def patternCode (lv k px py : Nat) : Nat × Nat × Nat :=
  if k < 64 then if px % 8 = k % 8 ∧ py % 8 = k / 8 then (lv, lv, lv) else (0, 0, 0)
  else (if k = 65 then lv else 0, if k = 66 then lv else 0, if k = 67 then lv else 0)

/-- The number that stands for the idle pattern in a slice's place. -/
def idlePattern : Nat := 1000

/-- Under factory-default operation the tiles in service that have no place on the canvas are sent the idle pattern (R25). -/
def Chip.idleSlices (c : Chip) (p : Nat) : List Slicing :=
  if c.isSender && c.flag .SYS_ROLE_FACTORY && c.serves p then
    ((c.serving p).filter fun d => !((c.mapOf c.planNow).any fun e => e.wdn == d.wdn)).map fun d =>
      ⟨⟨16384, d.wdn, 0, 0, (descSize d.desc).1, (descSize d.desc).2⟩, p, 0, [], some idlePattern⟩
  else []

/-- The pages whose settings a frame is composed from as they were at its tick: Loom's and SCAN (R166, R190). -/
def composed (p : Nat) : Bool := decide (0x50 ≤ p ∧ p ≤ 0x60) || p == 0x68

/-- The part with the Loom and SCAN registers as they were at the tick of the frame in production (R190). -/
def Chip.atTick (c : Chip) : Chip :=
  { c with regs := spSetAll regReset (spKeep (fun a => !composed (a / 0x1000)) c.regs) c.scan.view }

/-- A frame's production begins at tick n: the slices of the tiles that receive cells (R188, R196), from the settings applied now
(R190). -/
def Chip.scanTick (c : Chip) (n : Nat) : Chip :=
  let on := c.enabled 0x68 && c.get .SCAN_CANVAS_W != 0 && c.get .SCAN_CANVAS_H != 0
  let c := c.when on Chip.tellMismatch
  let c := if c.scanHold = 2 then { c with scanHold := 0 } else c
  let sl := if on && c.scanHold == 0 then
      c.enabledPorts.flatMap fun p => (c.sentOn c.planNow p none).map (fun e => (⟨e, p, 0, [], c.patternFor e.wdn⟩ : Slicing)) ++ c.idleSlices p
    else []
  let c := c.onScan fun s =>
    { s with frame := n, line := 0, run := on, slices := sl.foldr insertSlice [], swiftTold := false, underTold := false
             critTold := [], crc := List.replicate 16 0xffffffff
             view := spKeep (fun a => composed (a / 0x1000)) c.regs }
  { c with ports := (List.range 16).map fun p =>
      { c.port p with pixDone := (c.port p).pixels.isEmpty && !(sl.any fun s => s.port == p) } }

/-- The cells a slice has complete: its codes cut at 256 pixels, the last with the remainder (R199). -/
def cutCells (c : Chip) (b : Nat) (s : Slicing) : Nat → Slicing × List Cell
  | 0 => (s, [])
  | n + 1 =>
    let total := s.entry.w * s.entry.h
    let k := min 256 (total - s.off)
    if k = 0 ∨ s.codes.length < k then (s, [])
    else
      let hdr : Hdr := ⟨0, s.entry.wdn, 0, c.sidx, s.port⟩
      let p : PixHdr := ⟨c.scan.frame % 65536, s.off, k, s.off + k == total, c.flag (.CHAIN_CFG_ENC s.port), codeOf b⟩
      let r := cutCells c b { s with off := s.off + k, codes := s.codes.drop k } n
      (r.1, Cell.pixel hdr p (packPixels b (s.codes.take k)) :: r.2)

/-- Completed cells join the port's queue (R199). Cells completed after the frame's deadline are unsent at it like those in the queue
and are dropped and counted with them (R74; DEDUCED, log entry 172). -/
def Chip.queueCells (c : Chip) (n : Nat) (l : List Cell) : Chip :=
  if c.pastDeadline n then c.dropPixels n l.length else c.onPort n fun p => { p with pixels := p.pixels ++ l }

/-- A line's pixels enter a slice; completed cells join the port's queue (R199). -/
def Chip.sliceLine (c : Chip) (y : Nat) (px : List (List Nat)) (s : Slicing) : Chip :=
  let e := s.entry
  if y < e.y ∨ e.y + e.h ≤ y then c.onScan fun t => { t with slices := t.slices ++ [s] }
  else
    let b := c.atTick.planNow.bits s.port
    let lin := c.atTick.get .SCAN_CODE_WTF == 0
    let code := fun (v : List Nat) => (wallCode lin b (listAt v 0 0), wallCode lin b (listAt v 1 0), wallCode lin b (listAt v 2 0))
    let row := match s.pat with
      | some k =>
        if k = idlePattern then (List.range e.w).map fun x => code (c.idlePixel e.wdn x (y - e.y))
        else (List.range e.w).map fun x => patternCode (c.jobLevel b) k x (y - e.y)
      | none => ((px.drop e.x).take e.w).map code
    let r := cutCells c b { s with codes := s.codes ++ row } 3
    let c := c.onScan fun t => { t with slices := t.slices ++ (if r.1.off < e.w * e.h then [r.1] else []) }
    if c.scanHold = 0 then c.queueCells s.port r.2 else c

/-- The bytes a pixel contributes to a rectangle's CRC (R203). -/
def crcPixel (v : List Nat) : List Nat := v.flatMap fun n => [n % 256, n / 256]

/-- A line's part of a CRC rectangle; at its last line the value is taken and compared (R203). -/
def Chip.crcLine (c : Chip) (y : Nat) (px : List (List Nat)) (r : Nat) : Chip :=
  let d := c.atTick
  let y0 := d.get (.SCAN_CRC_POS_Y r)
  let h := d.get (.SCAN_CRC_SIZE_H r)
  if !bitAt (d.get .SCAN_CRC_CFG_EN) r || decide (y < y0) || decide (y0 + h ≤ y) then c
  else
    let row := (px.drop (d.get (.SCAN_CRC_POS_X r))).take (d.get (.SCAN_CRC_SIZE_W r))
    let v := crc32c (listAt c.scan.crc r 0xffffffff) (row.flatMap crcPixel)
    let c := c.onScan fun s => { s with crc := listPut s.crc r v }
    if y + 1 < y0 + h then c
    else
      let crc := v ^^^ 0xffffffff
      let c := c.setNat (Reg.SCAN_CRC_VAL r) crc
      let miss := bitAt (d.get .SCAN_CRC_CFG_CMP) r && d.nat (Reg.SCAN_CRC_EXP r) != crc
      let c := c.put .SCAN_CRC_MISS_MISS (setBitAt (c.get .SCAN_CRC_MISS_MISS) r miss)
      if miss then (c.count Reg.SCAN_CRC_MISS_CNT).raise .SCAN_CRC_MISMATCH else c

/-- LOW and CRIT of a group as they act, in KiB (SCAN_WMg). -/
def Chip.watermarks (c : Chip) (g : Nat) : Nat × Nat :=
  let low := min 1024 (c.get (.SCAN_WM_LOW g))
  (low, min low (c.get (.SCAN_WM_CRIT g)))

/-- The urgency of a group whose fetch buffer is filled to some KiB: 0 normal, 1 urgent, 2 critical (R191). -/
def Chip.urgency (c : Chip) (g kib : Nat) : Nat :=
  let w := c.watermarks g
  if kib < w.2 then 2 else if kib < w.1 then 1 else 0

/-- The lowest fill of a group during a line or at a decision of the arbiter, in KiB: recorded in SCAN_FILL_MIN, and below CRIT
WM_CRIT once a frame (R191). -/
def Chip.fillSeen (c : Chip) (g kib : Nat) : Chip :=
  let f : Fld := ⟨Reg.SCAN_FILL_MIN, 8 * g + 7, 8 * g⟩
  let u := min 255 (kib / 4)
  let c := if bitAt c.scan.rearm g then
      (c.put f u).onScan fun s => { s with rearm := setBitAt s.rearm g false }
    else c.put f (min (c.get f) u)
  if c.urgency g kib = 2 ∧ c.scan.critTold.contains g = false then
    (c.onScan fun s => { s with critTold := g :: s.critTold }).raise .SCAN_WM_CRIT
  else c

/-- A line suffers an underrun from pixel `x` (R192). -/
def Chip.underrun (c : Chip) (y x : Nat) : Chip :=
  let c := c.count Reg.SCAN_UNDERRUN_CNT
  if c.scan.underTold then c
  else
    let c := ((c.put .SCAN_UNDERRUN_LAST_VALID 1).put .SCAN_UNDERRUN_LAST_LINE y).put .SCAN_UNDERRUN_LAST_PIXEL x
    (c.onScan fun s => { s with underTold := true }).raise .SCAN_UNDERRUN

/-- A Swift layer's line is missing on canvas line y (R193). -/
def Chip.swiftLate (c : Chip) (y : Nat) : Bool :=
  (List.range 8).any fun i =>
    let s := c.layerSet false i
    c.enabled 0x50 && c.takesPart i && decide (s.dstY ≤ y) && decide ((y : Int) < s.dstY + s.cropH) &&
      c.swiftMissing s y (srcPixel s 0 y).2

/-- What a line is composed from: the settings at the frame's tick (R190); a common page disabled since then leaves the background
alone. -/
def Chip.lineFrom (c : Chip) : Chip :=
  let d := c.atTick
  if c.enabled 0x50 then d else d.put (.PG_STATUS_ENABLED 0x50) 0

/-- Scanout produces its next line: composed, with the background from pixel `under` on after an underrun; watermarks, CRC
rectangles, coding and slicing follow (R188–R203). -/
def Chip.scanLine (c : Chip) (under : Option Nat) (fills : List (Nat × Nat)) : Chip :=
  let y := c.scan.line
  let p := c.atTick.planNow
  if !c.scan.run || !c.enabled 0x68 || decide (p.h ≤ y) then c
  else
    let c := c.elapseTo (c.bell.tickTime + p.ty y)
    let c := c.each fills fun c f => c.fillSeen (f.1 % 4) f.2
    let d := c.lineFrom
    let bg := d.postLut d.background
    let px := (List.range p.w).map fun x =>
      match under with
      | some u => if u ≤ x then bg else d.canvasPixel x y
      | none => d.canvasPixel x y
    let c := match under with
      | some u => if u < p.w then c.underrun y u else c
      | none => c
    let late := d.swiftLate y
    let c := c.when late fun c => c.count Reg.SCAN_SWIFT_LATE
    let c := c.when (late && !c.scan.swiftTold) fun c =>
      (c.onScan fun s => { s with swiftTold := true }).raise .SCAN_SWIFT_LATE
    let c := c.each (List.range 16) fun c r => c.crcLine y px r
    let sl := c.scan.slices
    let c := c.onScan fun s => { s with slices := [], line := y + 1, run := decide (y + 1 < p.h) }
    c.each sl fun c s => c.sliceLine y px s

/-- The bits of a map word that exist (R194). -/
def mapMask (a : Nat) : Nat :=
  match a / 4 % 4 with
  | 0 => 0x8000ffff
  | 1 => 0x7fff7fff
  | 2 => 0x1fff00ff
  | _ => 0

/-- A write of SCAN_MAP_DATA: not performed into the bank in force or pending, which sets WR_REJ (R195). -/
def Chip.mapWrite (c : Chip) (v : Word) : Chip :=
  let a := c.get .SCAN_MAP_ADDR_ADDR / 4 * 4
  let bank := a / 0x40000
  let busy := bank == c.get .SCAN_MAP_CFG_BANK || (c.flag (.PG_COMMIT_PENDING 0x68) && bank == c.getS .SCAN_MAP_CFG_BANK)
  let c := if busy then c.reject Reg.SCAN_MAP_DATA
    else c.onScan fun s => { s with map := memPut s.map a (leBytes 4 (v &&& BitVec.ofNat 32 (mapMask a)).toNat) }
  c.autoInc .SCAN_MAP_ADDR_AUTO_INC .SCAN_MAP_ADDR_ADDR

end Sys2Proof.Machine
end

