-- ==== Sys2Proof/Machine/OpsPanel.lean ====
section
/-!
DEFINITION. The panel of a tile (R19, R214, R228, R229): geometry, wiring, sink currents (R232, R234) and the scan grid
(R235, R236), and the fade (R241).
-/

namespace Sys2Proof.Machine

/-- `n` bytes of the descriptor in force at an offset (R19). -/
def Chip.descField (c : Chip) (off n : Nat) : Nat := leNat ((c.pdesc.drop off).take n)

/-- WIDTH_PX. -/
def Chip.panelW (c : Chip) : Nat := c.descField 8 2

/-- HEIGHT_PX. -/
def Chip.panelH (c : Chip) : Nat := c.descField 10 2

/-- SCAN. -/
def Chip.panelScan (c : Chip) : Nat := c.descField 12 1

/-- BANKS. -/
def Chip.panelBanks (c : Chip) : Nat := c.descField 13 1

/-- Pixels of the panel. -/
def Chip.panelPixels (c : Chip) : Nat := c.panelW * c.panelH

/-- COLOUR_ORDER as the colour of each slot (R214). -/
def slotColours (n : Nat) : List Nat :=
  match n with
  | 0 => [0, 1, 2]
  | 1 => [0, 2, 1]
  | 2 => [1, 0, 2]
  | 3 => [1, 2, 0]
  | 4 => [2, 0, 1]
  | _ => [2, 1, 0]

/-- The colour a slot carries. -/
def Chip.slotColour (c : Chip) (s : Nat) : Nat := listAt (slotColours (c.descField 14 1)) s 0

/-- The slot a colour is written to (R214). -/
def Chip.colourSlot (c : Chip) (r : Nat) : Nat := ((List.range 3).find? fun s => c.slotColour s == r).getD 0

/-- The physical position of a slice pixel, mirrored by the descriptor's FLAGS (R214). -/
def Chip.place (c : Chip) (i : Nat) : Nat × Nat :=
  let w := c.panelW
  let f := c.descField 26 2
  let col := i % w
  let row := i / w
  (if bitAt f 1 then w - 1 - col else col, if bitAt f 2 then c.panelH - 1 - row else row)

/-- The column port of a lamp (R229). -/
def Chip.columnOf (c : Chip) (px py s : Nat) : Nat := 3 * (py / max c.panelScan 1 * c.panelW + px) + s

/-- Column ports in use (R229). -/
def Chip.columnsUsed (c : Chip) : Nat := 3 * c.panelW * c.panelBanks

/-- The colour of a column port. -/
def Chip.portColour (c : Chip) (p : Nat) : Nat := c.slotColour (p % 3)

/-- A port is used (R229): a column below 3 × WIDTH_PX × BANKS, a row below SCAN unless SCAN is 1. -/
def Chip.portUsed (c : Chip) (p : Nat) : Bool :=
  if p < 480 then decide (p < c.columnsUsed) else decide (p - 480 < c.panelScan) && c.panelScan != 1

/-- The lamp at a column port and scan line, as its entry and slot (R229). -/
def Chip.lampAt (c : Chip) (p r : Nat) : Nat × Nat :=
  let w := max c.panelW 1
  let k := p / 3 / w
  ((k * c.panelScan + r) * c.panelW + p / 3 % w, p % 3)

/-! ### Currents (R232, R234) -/

/-- GAIN of a colour, of the applied or shadow LAMP_GAIN. -/
def Chip.gainOf (c : Chip) (sh : Bool) (k : Nat) : Nat := c.ctxReg sh Reg.LAMP_GAIN / 256 ^ k % 256

/-- The signed trim of a port, applied or in the shadow (LAMP_TRIM). -/
def Chip.trimOf (c : Chip) (sh : Bool) (p : Nat) : Int :=
  signOf 7 (c.ctxReg sh (Reg.LAMP_TRIM (p / 128) (p % 128 / 4)) / 256 ^ (p % 4) % 128)

/-- The setting part of a current: (GAIN + 1) × (512 + TRIM). -/
def setting (g : Nat) (t : Int) : Nat := (g + 1) * (512 + t).toNat

/-- The cap of a mode in 10 nA (R236): 24.0 mA in Brilliance, else 20.0 mA. -/
def capOf (mode : Nat) : Nat := if mode = 2 then 2400000 else 2000000

/-- A setting's current exceeds a cap: 60 × I × s ÷ 131,072. -/
def overCap (iref s cap : Nat) : Bool := decide (cap * 131072 < 60 * iref * s)

/-- The gain and trim of a held port: the largest current within the cap, the higher gain between equals (R234). -/
def heldSetting (iref cap g : Nat) (t : Int) : Nat × Int :=
  let best := fun (g : Nat) =>
    let top : Int := (cap * 131072 / max (60 * iref * (g + 1)) 1 : Nat) - 512
    (g, min t top)
  ((List.range (g + 1)).map best).foldl (fun a b =>
    if b.2 < -64 then a else if setting a.1 a.2 ≤ setting b.1 b.2 then b else a) (0, -64)

/-- The gain and trim a column port drives with (R232, R234). -/
def Chip.portSetting (c : Chip) (p : Nat) : Nat × Int :=
  let g := c.gainOf false (c.portColour p)
  let t := c.trimOf false p
  if overCap c.lamp.iref (setting g t) (capOf c.mode) then heldSetting c.lamp.iref (capOf c.mode) g t else (g, t)

/-- A column port's current in 10 nA × 131,072 ÷ (60 × I_IREF): the factor that R232 multiplies. -/
def Chip.portFactor (c : Chip) (p : Nat) : Nat := let s := c.portSetting p; setting s.1 s.2

/-- A column port's current in nA, rounded half up (R232); in the locator pattern the descriptor's nominal one (R240). -/
def Chip.portNano (c : Chip) (p : Nat) : Nat :=
  if c.tile.locator then 10000 * c.descField (0x12 + 2 * c.portColour p) 2
  else roundDiv (600 * c.lamp.iref * c.portFactor p) 131072

/-- The used column ports of a group. -/
def Chip.groupColumns (c : Chip) (g : Nat) : List Nat :=
  ((List.range 128).map (· + 128 * g)).filter fun p => decide (p < 480) && c.portUsed p

/-- A port's written setting leaves 0.25 mA to the cap (R234). -/
def currentBad (iref cap g : Nat) (t : Int) : Bool :=
  let s := setting g t
  overCap iref s cap || decide (60 * iref * s < 25000 * 131072)

/-- A commit would put a used port outside its range; none is refused before a valid measurement (R234). -/
def Chip.commitCurrentBad (c : Chip) (gainSh trimSh : Bool) (groups : List Nat) : Bool :=
  c.lamp.iref != 0 && (groups.flatMap c.groupColumns).any fun p =>
    currentBad c.lamp.iref (capOf c.mode) (c.gainOf gainSh (c.portColour p)) (c.trimOf trimSh p)

/-- The current of a colour at trim 0, after the cap, in µA (LAMP_ICOL). -/
def Chip.colourMicro (c : Chip) (k : Nat) : Nat :=
  let g := c.gainOf false k
  let s := if overCap c.lamp.iref (setting g 0) (capOf c.mode) then heldSetting c.lamp.iref (capOf c.mode) g 0 else (g, 0)
  roundDiv (60 * c.lamp.iref * setting s.1 s.2) (131072 * 100)

/-- The applied currents are shown; ICAP is raised when a port comes to be held at the cap (R234). -/
def Chip.showCurrents (c : Chip) : Chip :=
  let c := ((c.put .LAMP_ICOL_RG_R_B (c.colourMicro 0)).put .LAMP_ICOL_RG_G (c.colourMicro 1)).put .LAMP_ICOL_B_R_B
    (c.colourMicro 2)
  let held := ([0, 1, 2, 3].flatMap c.groupColumns).any fun p =>
    overCap c.lamp.iref (setting (c.gainOf false (c.portColour p)) (c.trimOf false p)) (capOf c.mode)
  let was := c.flag .LAMP_STAT_ICAP
  let c := c.put .LAMP_STAT_ICAP (if held then 1 else 0)
  c.when (held && !was) fun c => c.raise .LAMP_ICAP

/-! ### The scan grid (R235, R236) -/

/-- The smallest power of two up to 64 whose refresh meets a floor in Hz, or 64. -/
def floorN (num den hz : Nat) : Nat :=
  ([1, 2, 4, 8, 16, 32].find? fun n => decide (hz * den ≤ num * n)).getD 64

/-- N: the segments in use (R236). -/
def segments (mode log2 num den : Nat) : Nat :=
  let want := 2 ^ min log2 6
  if mode = 1 then 64
  else if mode = 2 then max want (floorN num den 960)
  else if num < 30 * den then 64
  else max want (floorN num den 1920)

/-- T_blank of a row timing (R235): zero intervals act as LAMP_ROW_TIMING says. -/
def blankOf (timing scan : Nat) : Nat :=
  let z := fun n => if n = 0 then 4 else n
  if scan = 1 then 0 else z (timing % 256) + timing / 256 % 256 + z (timing / 65536 % 256) + z (timing / 2 ^ 24 % 256)

/-- P_GCLK (R235). -/
def pGclk (num den : Nat) : Nat := 250000000 * den / max num 1 - 32

/-- T_row for N segments. -/
def rowLen (p n scan : Nat) : Nat := p / max n 1 / max scan 1

/-- The reset value of LAMP_ROW_TIMING. -/
def resetTiming : Nat := 0x08081810

/-- W under a timing. -/
def windowOf (p n scan timing : Nat) : Nat := rowLen p n scan - blankOf timing scan

/-- A timing leaves W below 64 GCLK (R236). -/
def timingBad (p n scan timing : Nat) : Bool := decide (rowLen p n scan < blankOf timing scan + 64)

/-- The tile has adopted no tick parameters: its grids use the reset rate and Plain mode's N (R240). -/
def Chip.gridMode (c : Chip) : Nat := if c.bell.lastBeacon.isNone then 0 else c.mode

/-- N for the settings applied or in the shadow. -/
def Chip.gridN (c : Chip) (sh : Bool) : Nat :=
  segments c.gridMode (c.ctxReg sh Reg.LAMP_SCAN_CFG % 8) c.rateNum c.rateDen

/-- The row timing in use: the applied one, or the reset values where it leaves W too small (R236). -/
def Chip.timingUsed (c : Chip) : Nat :=
  let t := c.nat Reg.LAMP_ROW_TIMING
  if timingBad (pGclk c.rateNum c.rateDen) (c.gridN false) c.panelScan t then resetTiming else t

/-- The Broadcast anchor offset in GCLK, modulo T_seg (R235, LAMP_PHASE). -/
def Chip.phaseGclk (c : Chip) (tseg : Nat) : Nat :=
  if c.gridMode = 1 then ((signOf 32 (c.nat Reg.LAMP_PHASE) / 4) % (max tseg 1 : Nat)).toNat else 0

/-- The grid whose tick is at domain time `t`; for the locator pattern a free one at 60 Hz with N = 32 and the reset row
timing (R240). -/
def Chip.makeGrid (c : Chip) (t : Nat) : Grid :=
  let loc := c.tile.locator
  let p := if loc then pGclk 60 1 else pGclk c.rateNum c.rateDen
  let n := if loc then 32 else c.gridN false
  let tseg := p / n
  { n := n, tseg := tseg, trow := rowLen p n c.panelScan
    w := windowOf p n c.panelScan (if loc then resetTiming else c.timingUsed), p := p
    scan := max c.panelScan 1, anchor := t + if loc then 0 else ns (4 * c.phaseGclk tseg)
    timing := if loc then resetTiming else c.timingUsed, phase := if loc then 0 else ns (4 * c.phaseGclk tseg) }

/-- The registers that show the grid in use; TIMING_FORCED when the reset timing comes into use (R236). -/
def Chip.showGrid (c : Chip) (g : Grid) : Chip :=
  let forced := c.timingUsed != c.nat Reg.LAMP_ROW_TIMING
  let was := c.flag .LAMP_STAT_FORCED
  let c := ((c.put .LAMP_GRID_ROW_GCLK g.trow).put .LAMP_GRID_ON_GCLK g.w).put .LAMP_STAT_SEG_USED (Nat.log2 g.n)
  let c := (c.put .LAMP_STAT_FORCED (if forced then 1 else 0)).put .LAMP_STAT_SCAN c.panelScan
  c.when (forced && !was) fun c => c.raise .LAMP_TIMING_FORCED

/-! ### Fades (R241) -/

/-- The factor of a fade at tick n, in binary32. -/
def Fade.at (f : Fade) (n : Nat) : Nat :=
  let n0 := f.start.getD 0
  if n0 + f.len ≤ n then f.f1
  else
    let d := (rn32 (dyAdd (val32 f.f1) (dyNeg (val32 f.f0)))).val
    enc32 (rn32 (dyAdd (dyMul d (quot32 (n - n0) f.len)) (val32 f.f0))).val

/-- K: the length of a fade of `m` ms in frame ticks. -/
def Chip.fadeLen (c : Chip) (m : Nat) : Nat := roundDiv (m * c.rateNum) (1000 * max c.rateDen 1)

/-- A fade starts at tick n from the factor of the one before (R241). -/
def Chip.fadeFrom (c : Chip) (n f1 m : Nat) : Chip :=
  c.onLamp fun l => { l with
    fade := { f0 := l.fade.at n, f1 := f1, start := some n, len := c.fadeLen m, told := false }, fadeNext := false }

/-- The orderly stop's fade, while one is in force, overrides the commanded one: to +0 over 500 ms, and back to what the
commanded fade holds where the way back begins (R410). -/
def Chip.overTick (c : Chip) (n : Nat) : Chip :=
  match c.lamp.cover with
  | none => c
  | some (back, f) =>
    let f := if f.start.isSome then f
      else { f with f0 := if back then f.f0 else c.lamp.factor, f1 := if back then c.lamp.factor else 0
                    start := some n, len := c.fadeLen 500 }
    let done := back && decide (f.start.getD 0 + f.len ≤ n)
    c.onLamp fun l => { l with factor := if done then l.factor else f.at n, cover := if done then none else some (back, f) }

/-- FADE for tick n: a fade that waited for a tick starts, the factor is held, FADE_DONE at the first tick with k ≥ K
(FADE_STEP). -/
def Chip.fadeTick (c : Chip) (n : Nat) : Chip :=
  let c := c.when c.lamp.fadeNext fun c => c.fadeFrom n (c.nat Reg.LAMP_FADE_TARGET) (c.get .LAMP_FADE_MS_MS)
  let f := c.lamp.fade
  let left := f.start.getD 0 + f.len - n
  let c := (c.onLamp fun l => { l with factor := f.at n }).overTick n
  let c := (c.put .LAMP_FADE_STAT_RUNNING (if left = 0 then 0 else 1)).put .LAMP_FADE_STAT_LEFT (min left 0xffffff)
  if left = 0 ∧ f.told = false then (c.onLamp fun l => { l with fade := { f with told := true } }).raise .LAMP_FADE_DONE
  else c

end Sys2Proof.Machine
end

