-- ==== Sys2Proof/Machine/OpsNimbus.lean ====
section
/-!
DEFINITION. The correction engine and Nimbus (R205–R227): the pipeline of R210–R214, flags, the slice states, the decision
and the swap, the correction memory.
-/

namespace Sys2Proof.Machine

/-! ### Correction memory (R217–R220) -/

/-- Start and length of the windows of R217: coefficient banks, LUT banks, Nimbus buffers. -/
def corrWindows : List (Nat × Nat) :=
  [(0, 0x1e000), (0x20000, 0x1e000), (0x40000, 0x6000), (0x48000, 0x6000), (0x50000, 0x7800), (0x58000, 0x7800)]

/-- The window that holds a range wholly. -/
def corrWindow (off n : Nat) : Option Nat :=
  (List.range 6).find? fun k =>
    let w := listAt corrWindows k (0, 0)
    decide (w.1 ≤ off) && decide (off + n ≤ w.1 + w.2)

/-- A bank is locked (R220): the page is enabled and the bank is selected, applied or pending. -/
def Chip.bankLocked (c : Chip) (lut : Bool) (b : Nat) : Bool :=
  let f := if lut then Fld.CORR_CFG_LBANK else .CORR_CFG_CBANK
  c.enabled 0xa1 && (c.get f == b || (c.flag (.PG_COMMIT_PENDING 0xa1) && c.getS f == b))

/-- Window k is locked by R220. -/
def Chip.windowLocked (c : Chip) (k : Nat) : Bool := if k < 2 then c.bankLocked false k else c.bankLocked true (k - 2)

/-- Every half-word of some bytes is a finite binary16. -/
def finiteHalves : List Byte → Bool
  | a :: b :: r => fin16 (a.toNat + 256 * b.toNat) && finiteHalves r
  | _ => true

/-- A non-finite load is rejected and counted (R219). -/
def Chip.loadRej (c : Chip) : Chip := (c.count Reg.CORR_LOAD_REJ).raise .CORR_LOAD_REJ

/-- Why a BULK_WR into the correction memory is refused, 0 if it is performed (R219): RANGE 3, ALIGN 4, READ_ONLY 5,
NONFINITE 6, BANK_BUSY 7. -/
def Chip.bulkCause (c : Chip) (off : Nat) (d : List Byte) : Nat :=
  match corrWindow off d.length with
  | none => 3
  | some k =>
    if off % 2 ≠ 0 ∨ d.length % 2 ≠ 0 then 4
    else if 4 ≤ k then 5
    else if !finiteHalves d then 6
    else if c.windowLocked k then 7 else 0

/-- BULK_WR at a tile (R217–R219): checked before any byte is stored; COUNT 0 completes OK without a transfer. -/
def Chip.bulkWrite (c : Chip) (addr : Nat) (d : List Byte) : Chip × Ans :=
  if d.isEmpty then (c, ansOk)
  else if addr < 0x100000 ∨ 0x180000 < addr + d.length then (c, ansFail 3)
  else
    let off := addr - 0x100000
    match c.bulkCause off d with
    | 0 => (c.onNim fun n => { n with mem := memPut n.mem off d }, ansOk)
    | 6 => (c.loadRej, ansFail 6)
    | k + 1 => (c, ansFail (k + 1))

/-- BULK_RD at a tile (R217): inside the space always performed; else FAILED, cause RANGE. -/
def Chip.bulkRead (c : Chip) (addr n : Nat) : Ans :=
  if n = 0 then ansOk
  else if addr < 0x100000 ∨ 0x180000 < addr + n then ansFail 3
  else ⟨0, 0, memBytes c.nim.mem (addr - 0x100000) n⟩

/-- A write of CORR_MEM_DATA (R219). -/
def Chip.corrMemWrite (c : Chip) (v : Nat) : Chip :=
  let off := c.get .CORR_MEM_ADDR_ADDR / 4 * 4
  let d := leBytes 4 v
  let c :=
    if !finiteHalves d then (c.reject Reg.CORR_MEM_DATA).loadRej
    else match corrWindow off 4 with
    | none => c.reject Reg.CORR_MEM_DATA
    | some k =>
      if 4 ≤ k || c.windowLocked k then c.reject Reg.CORR_MEM_DATA
      else c.onNim fun n => { n with mem := memPut n.mem off d }
  c.autoInc .CORR_MEM_ADDR_AUTO_INC .CORR_MEM_ADDR_ADDR

/-- A half-word of the correction memory. -/
def Chip.corrHalf (c : Chip) (off : Nat) : Nat := memLe c.nim.mem off 2

/-- What tile firmware stores at its start (R221): identity in coefficient bank 0, the linear curve in LUT bank 0. -/
def Chip.corrInit (c : Chip) : Chip :=
  let one := enc16 (dyInt 1)
  let rec_ := [one, 0, 0, 0, one, 0, 0, 0, one, 0, 0, 0]
  let curve := (List.range 4096).map (tileCurve false)
  c.onNim fun n => { n with
    mem := memHalves (memHalves (memHalves (memHalves n.mem 0 (List.replicate 5120 rec_).flatten) 0x40000 curve) 0x42000 curve)
      0x44000 curve }

/-! ### The pipeline (R210–R214) -/

/-- Flags as a number in the bit order of CORR_FLAGS: OVF 1, UNF 2, CLIP_HI 4, CLIP_LO 8. -/
def flagBits (a b : Bool) : Nat := (if a then 1 else 0) + (if b then 2 else 0)

/-- The flags of a rounded value. -/
def Fl.bits (f : Fl) : Nat := flagBits f.ovf f.unf

/-- Union of two flag sets. -/
def orFlags (a b : Nat) : Nat := a ||| b

/-- R210: decode of a code of b bits through entries `e` of a curve. -/
def decodeCode (e : Nat → Nat) (b code : Nat) : Dy × Nat :=
  let q := (code * 65520 + 2 ^ (b - 1) - 1) / (2 ^ b - 1)
  let j := q / 16
  let e0 := val16 (e j)
  let d := rn32 (dyAdd (val16 (e (min (j + 1) 4095))) (dyNeg e0))
  let s := rn32 (dyAdd (dyMul d.val ((q % 16 : Nat), -4)) e0)
  let x := rn16 s.val
  (x.val, orFlags (orFlags d.bits s.bits) x.bits)

/-- Decode of colour k through the LUT bank in force. -/
def Chip.decodePixel (c : Chip) (k b code : Nat) : Dy × Nat :=
  decodeCode (fun j => c.corrHalf (0x40000 + 0x8000 * c.get .CORR_CFG_LBANK + 0x2000 * k + 2 * j)) b code

/-- An entry of the coefficient record of entry e: 0–8 the matrix row by row, 9–11 the offsets; identity under BYPASS_M
(R211, R218). -/
def Chip.coeff (c : Chip) (e h : Nat) : Dy :=
  if c.flag .CORR_CFG_BYPASS_M then dyInt (if h = 0 ∨ h = 4 ∨ h = 8 then 1 else 0)
  else val16 (c.corrHalf (0x20000 * c.get .CORR_CFG_CBANK + 24 * e + 2 * h))

/-- The matrix B of R213. -/
def ditherB : List Nat := [0, 8, 2, 10, 12, 4, 14, 6, 3, 11, 1, 9, 15, 7, 13, 5]

/-- D of R213: (2k + 1) ÷ 32, or 1/2 without dither. -/
def dither (mode px py n : Nat) : Dy :=
  match mode with
  | 0 => (1, -1)
  | 1 => ((2 * listAt ditherB (4 * (py % 4) + px % 4) 0 + 1 : Nat), -5)
  | _ => ((2 * listAt ditherB (4 * ((py + n) % 4) + px % 4) 0 + 1 : Nat), -5)

/-- R211–R213 for one lamp: the matrix row over x from the offset, the scale, the code with its flags. -/
def lampCode (m : Nat → Dy) (ofs : Dy) (x : List Dy) (scale d : Dy) : Nat × Nat :=
  let acc := (List.range 3).foldl (fun a k =>
    let r := rn32 (dyAdd (dyMul (m k) (listAt x k dyZero)) a.1)
    (r.val, orFlags a.2 r.bits)) (ofs, 0)
  let y := rn32 (dyMul acc.1 scale)
  let t := rn32 (dyAdd (dyMul y.val (dyInt 65535)) d)
  let fl := orFlags acc.2 (orFlags y.bits t.bits)
  if t.val.1 < 0 then (0, orFlags fl 8)
  else if dyLe (dyInt 65536) t.val then (65535, orFlags fl 4)
  else ((dyFloor t.val).toNat, fl)

/-- Flags set by a lamp, or by the forming of S (R216): sticky, the first captured, one event of each per frame. -/
def Chip.setFlags (c : Chip) (scale : Bool) (e r fl : Nat) : Chip :=
  if fl = 0 then c
  else
    let c := if c.nat Reg.CORR_FLAGS = 0 then
        let c := ((c.setNat Reg.CORR_FLAG_FIRST 0).put .CORR_FLAG_FIRST_VALID 1).put .CORR_FLAG_FIRST_FLAGS fl
        if scale then c.put .CORR_FLAG_FIRST_SCALE 1
        else (c.put .CORR_FLAG_FIRST_COLOUR r).put .CORR_FLAG_FIRST_ENTRY e
      else c
    let c := c.setNat Reg.CORR_FLAGS (c.nat Reg.CORR_FLAGS ||| fl)
    let seen := c.nim.frameFlags
    let c := c.when (seen == 0) fun c => c.count Reg.CORR_FLAG_FRAMES
    let c := c.onNim fun n => { n with frameFlags := n.frameFlags ||| fl }
    let ev := fun (c : Chip) (b : Nat) (v : Ev) => c.when (bitAt fl b && !bitAt seen b) fun c => c.raise v
    ev (ev (ev (ev c 0 .CORR_OVF) 1 .CORR_UNF) 2 .CORR_CLIP_HI) 3 .CORR_CLIP_LO

/-- The back buffer's base in the correction memory. -/
def Chip.backBase (c : Chip) : Nat := if c.get .NIMBUS_STAT_FRONT = 0 then 0x58000 else 0x50000

/-- The front buffer's base. -/
def Chip.frontBase (c : Chip) : Nat := if c.get .NIMBUS_STAT_FRONT = 0 then 0x50000 else 0x58000

/-- A lamp of a pixel at (px, py): its code is written to its slot of the back buffer, its flags are set, code × current is
summed (R213, R214, R242). `xs` are the decoded colours with their flags. -/
def Chip.lampOut (c : Chip) (px py : Nat) (xs : List (Dy × Nat)) (r : Nat) : Chip :=
  let e := py * c.panelW + px
  let d := dither (c.get .CORR_CFG_DITHER) px py c.nim.period
  let v := lampCode (fun k => c.coeff e (3 * r + k)) (c.coeff e (9 + r)) (xs.map (·.1)) (val32 (c.nat Reg.CORR_SCALE_CUR)) d
  let s := c.colourSlot r
  let f := c.portFactor (c.columnOf px py s)
  let c := c.onNim fun n => { n with mem := memPut n.mem (c.backBase + 6 * e + 2 * s) (half v.1), sum := n.sum + v.1 * f }
  c.setFlags false e r (orFlags v.2 (listAt xs r (dyZero, 0)).2)

/-- A pixel of the slice is corrected (R210–R214). -/
def Chip.correct (c : Chip) (b i : Nat) (codes : List Nat) : Chip :=
  let p := c.place i
  let xs := (List.range 3).map fun k => c.decodePixel k b (listAt codes k 0)
  c.each [0, 1, 2] fun c r => c.lampOut p.1 p.2 xs r

/-- The pixels of a cell in cell order, from slice index i. -/
def Chip.correctAll (c : Chip) (b : Nat) : Nat → List (List Nat) → Chip
  | _, [] => c
  | i, v :: r => (c.correct b i v).correctAll b (i + 1) r

/-! ### Slice states (R205, R223) -/

/-- The slice state (NIMBUS_STAT.SLICE): 0 IDLE, 1 RECEIVING, 2 COMPLETE, 3 VERIFIED, 4 FAILED, 5 CLOSED. -/
def Chip.slice (c : Chip) : Nat := c.get .NIMBUS_STAT_SLICE

/-- Set the slice state. -/
def Chip.setSlice (c : Chip) (n : Nat) : Chip := c.put .NIMBUS_STAT_SLICE n

/-- The slice fails with a cause. -/
def Chip.sliceFail (c : Chip) (cause : Nat) : Chip := (c.setSlice 4).onNim fun n => { n with cause := cause }

/-- The CORR or NIMBUS page is disabled or soft-reset: the slice in progress fails (R223). -/
def Chip.sliceDisabled (c : Chip) : Chip := if c.nim.open_ && decide (c.slice < 4) then c.sliceFail 7 else c

/-- The failure a cell brings in IDLE or RECEIVING, in the order of R223's rows; 0 if none. -/
def Chip.cellCause (c : Chip) (p : PixHdr) : Nat :=
  let total := c.panelPixels
  let stop := p.off + p.npix
  if p.code = 3 then 8
  else if !c.enabled 0xa1 then 7
  else if p.off ≠ c.get .NIMBUS_RX_PIXELS then 1
  else if c.slice = 1 ∧ p.code ≠ c.nim.code then 2
  else if total < stop then 4
  else if (stop == total) != p.last then 3 else 0

/-- What a cell of the slice gives the slice's tag, and with LAST the tag received (R121). -/
def Chip.sliceTake (c : Chip) (h : Hdr) (p : PixHdr) (d tag : List Byte) : Chip :=
  let a := sliceAdd (if p.off = 0 then ([], []) else (c.nim.aad, c.nim.ct)) h p d
  c.onNim fun n => { n with aad := a.1, ct := a.2, tag := if p.last then tag else n.tag, hdr := h }

/-- Pixel data as sent under ENC (R121): deciphered with the key of the cell's KE, at its place in the slice's ciphertext. -/
def Chip.decipher (c : Chip) (h : Hdr) (p : PixHdr) (d : List Byte) : List Byte :=
  if p.enc then
    let k := (c.tileKey h.ke).getD (0, 0)
    cipher k.1 ((Cell.pixel h p d).iv h k.2 c.nim.period) (if p.off = 0 then 0 else c.nim.ct.length) d
  else d

/-! ### Decision (R222, R224) -/

/-- I_est in mA, rounded down, and LIMK (R242): the sum is of code × (GAIN + 1) × (512 + TRIM). -/
def Chip.estimate (c : Chip) : Nat × Nat :=
  match c.lamp.grid with
  | none => (0, 65536)
  | some g =>
    let num := g.n * g.w * c.nim.sum * 60 * c.lamp.iref
    let den := g.p * 65535 * 131072 * 100000
    let lim := min (c.get .LAMP_ILIM_MA) 6000
    (num / max den 1, if num ≤ lim * den then 65536 else 65536 * lim * den / num)

/-- The slice is closed without a swap: its counter, event and cause (R224). -/
def Chip.closeSlice (c : Chip) : Chip :=
  let fail := fun (c : Chip) (k : Nat) => (c.put .NIMBUS_LAST_FAIL_FRAME c.nim.period).put .NIMBUS_LAST_FAIL_CAUSE k
  match c.slice with
  | 0 => c.count Reg.NIMBUS_EMPTY_CNT
  | 4 => fail ((c.count Reg.NIMBUS_INVALID_CNT).raise .NIMBUS_INVALID) c.nim.cause
  | _ => fail ((c.count Reg.NIMBUS_LATE_CNT).raise .NIMBUS_LATE) 6

/-- The swap instant of the period (R222): band tick b of the period where a band is in force, else the next frame tick. -/
def Chip.swapInstant (c : Chip) : Nat :=
  if c.nim.band = 0 then c.tickTime (c.nim.period + 1) else c.bandTime c.nim.period c.nim.band

/-- The decision instant, 2 µs before (R73, R222). -/
def Chip.decideInstant (c : Chip) : Nat := c.swapInstant - us 2

/-- A slice was VERIFIED in time for its swap: of a band, the band guard before its band tick (R76; DEDUCED, log entry 171). -/
def Chip.inTime (c : Chip) : Bool :=
  c.nim.band == 0 || decide (c.nim.readyAt + us c.bandGuard ≤ c.swapInstant)

/-- The decision: a slice VERIFIED in time arms the swap and its LIMK; else the slice is closed with its counter and cause
(R224, R242). -/
def Chip.decideSwap (c : Chip) : Chip :=
  if !c.nim.open_ || c.slice == 5 then c
  else
    let armed := c.slice == 3 && c.inTime
    let tagFail := c.slice == 4 && c.nim.cause == 5
    let c := if armed then
        let e := c.estimate
        ((c.put .NIMBUS_STAT_ARMED 1).put .LAMP_ILIM_EST_MA e.1).onNim fun n => { n with limk := e.2 }
      else c.closeSlice
    let c := (c.setSlice 5).onNim fun n => { n with decided := true }
    c.onTile fun t => { t with held := t.held || !armed, gmacFail := t.gmacFail || tagFail }

/-- Swap instants of the grid are ahead of the period: its ticks are made, and not by SYNC_IN (R70, R80). -/
def Chip.gridAhead (c : Chip) : Bool := c.tickSource && !c.syncTicks && c.nim.open_

/-- Time has reached the decision instant of a slice that no command has closed (R225). -/
def Chip.decideDue (c : Chip) : Chip :=
  if c.gridAhead && decide (c.decideInstant ≤ c.bell.time) then c.decideSwap else c

/-- Time reaches the decision instant (R73 step 7). With ticks from SYNC_IN the next tick's instant is not known before it comes: the
decision is made when it is asked for (DESIGN CHOICE, log entry 173). Without ticks there is none (R225). -/
def Chip.decision (c : Chip) : Chip :=
  if c.gridAhead then (c.elapseTo c.decideInstant).decideSwap
  else if c.syncTicks then c.decideSwap else c

/-! ### Pixel cells -/

/-- A pixel cell the tile acts on (R205, R223). -/
def Chip.pixelCell (c : Chip) (h : Hdr) (p : PixHdr) (d tag : List Byte) : Chip :=
  let c := c.decideDue
  if !c.nim.open_ || p.frame != c.nim.period % 65536 || decide (c.nim.period < c.tile.admitTick) || !c.enabled 0xa0 then c
  else if c.slice = 5 then (c.count Reg.NIMBUS_AFTER_CNT).raise .NIMBUS_AFTER
  else if c.slice = 4 then c
  else if c.slice = 2 ∨ c.slice = 3 then c.sliceFail 3
  else
    match c.cellCause p with
    | 0 =>
      let b := bitsOfCode p.code
      let clear := c.decipher h p d
      let c := (c.sliceTake h p d tag).onNim fun n => { n with code := p.code }
      let c := c.correctAll b p.off (unpackPixels b p.npix clear)
      (c.put .NIMBUS_RX_PIXELS (p.off + p.npix)).setSlice (if p.last then 2 else 1)
    | k => c.sliceFail k

/-- A pixel cell arrives at a tile: passed on, checked, acted on when it names the admitted tile (R108, R109, R205). -/
def Chip.pixelIn (c : Chip) (port : Nat) (h : Hdr) (p : PixHdr) (d : List Byte) (rx : Rx) : Chip :=
  let c := c.passDown port (.pixel h p d) h rx
  let r := c.receive port (.pixel h p d) h rx
  let c := r.1
  if !r.2 || h.amode != 0 || !c.namesMe h || c.tile.st != 4 then c else c.pixelCell h p d rx.tag

/-- The slice's tag verifies under the key of its KE (R121, R122). -/
def Chip.sliceTagOk (c : Chip) : Bool :=
  match c.tileKey c.nim.hdr.ke with
  | none => false
  | some k =>
    c.nim.tag == sliceTagOf k.1 ((Cell.pixel c.nim.hdr ⟨0, 0, 0, true, false, 0⟩ []).iv c.nim.hdr k.2 c.nim.period) (c.nim.aad, c.nim.ct)

/-- The tag result of the slice is known (R206, R223), before the decision instant or too late (R225). -/
def Chip.sliceTag (c : Chip) : Chip :=
  let c := c.decideDue
  if c.slice ≠ 2 then c
  else if c.sliceTagOk then (c.setSlice 3).onNim fun n => { n with readyAt := c.bell.time }
  else ((c.sliceFail 5).count (Reg.CHAIN_TAG_ERR c.upPort)).raise .NIMBUS_GMAC_FAIL

/-! ### From code to pulse (R238, R239) -/

/-- LAMP_STAT.STATE: 0 OFF, 1 DARK, 2 RUNNING, 3 LOCATOR, 4 IREF_FAULT. -/
def Chip.lampState (c : Chip) : Nat := c.get .LAMP_STAT_STATE

/-- Set LAMP_STAT.STATE. -/
def Chip.setLamp (c : Chip) (n : Nat) : Chip := c.put .LAMP_STAT_STATE n

/-- A lamp's mask bit (LAMP_MASK). -/
def maskFld (p r : Nat) : Fld := ⟨Reg.LAMP_MASK (p / 128) (4 * r + p % 128 / 32), p % 32, p % 32⟩

/-- A port's pin fault bit (LAMP_PINFLT). -/
def pinFld (p : Nat) : Fld := ⟨Reg.LAMP_PINFLT (p / 128) (p % 128 / 32), p % 32, p % 32⟩

/-- A row has a confirmed fault. -/
def Chip.rowFault (c : Chip) (r : Nat) : Bool := c.flag (pinFld (480 + r))

/-- A lamp is masked: by its own bit, its column's pin fault, or its row's fault (R238); one found open in this frame is dark from
its next row slot (R243). -/
def Chip.lampMasked (c : Chip) (p r : Nat) : Bool :=
  c.flag (maskFld p r) || c.flag (pinFld p) || c.rowFault r || c.lamp.opens.contains (r, p)

/-- A group drives: its page is enabled, it is not off after an overcurrent, nor held dark (R245). -/
def Chip.groupDrives (c : Chip) (g : Nat) : Bool :=
  c.enabled (0xa2 + g) && !(c.lamp.ocOff.contains g) && !(c.lamp.dark.contains g)

/-- Reverse the low m bits of s. -/
def bitrev (m s : Nat) : Nat := (List.range m).foldl (fun a b => 2 * a + s / 2 ^ b % 2) 0

/-- ON of a code in GCLK per frame, rounded half up. -/
def onTime (code limk g : Nat) : Nat := (code * limk * g + 32768 * 65535) / (65535 * 65536)

/-- The on-time of segment s. -/
def onSeg (on n s : Nat) : Nat := on / n + if bitrev (Nat.log2 n) s < on % n then 1 else 0

/-- The code of the lamp at a column port and scan line, in the front buffer. -/
def Chip.frontCode (c : Chip) (p r : Nat) : Nat :=
  let e := c.lampAt p r
  c.corrHalf (c.frontBase + 6 * e.1 + 2 * e.2)

/-- The code of a lamp in the locator pattern (R26): 2 % of full code on a border of one pixel and on the digits. -/
def Chip.locatorCode (c : Chip) (p r : Nat) : Nat :=
  let e := (c.lampAt p r).1
  let x := e % max c.panelW 1
  let y := e / max c.panelW 1
  let lit := x == 0 || y == 0 || x + 1 == c.panelW || y + 1 == c.panelH || Config.locator c.tile.sport c.position x y
  if lit then 1311 else 0

/-- A lamp's on-time in a segment of the grid. -/
def Chip.lampOn (c : Chip) (g : Grid) (s r p : Nat) : Nat :=
  if c.lampMasked p r then 0
  else
    let code := if c.tile.locator then c.locatorCode p r else c.frontCode p r
    onSeg (onTime code (c.get .LAMP_ILIM_STAT_LIMK) (g.n * g.w)) g.n s

/-- The lamps show something: driving, unless the tile's chain state shows nothing (R135), or the locator pattern. -/
def Chip.lampShows (c : Chip) : Bool :=
  (c.tile.locator && c.lampState == 3) || (c.lampState == 2 && !(decide (1 ≤ c.tile.st) && decide (c.tile.st ≤ 3)))

/-- The columns lit in a slot with their on-times. -/
def Chip.slotPulses (c : Chip) (g : Grid) (s r : Nat) : List (Nat × Nat) :=
  if c.lampShows then
    ((List.range c.columnsUsed).filter fun p => (c.tile.locator && c.domOn (73 + p / 128)) ||
      (c.groupDrives (p / 128) && (c.enabled 0xa5 || g.scan == 1))).filterMap fun p =>
      let on := c.lampOn g s r p
      if on = 0 then none else some (p, on)
  else []

/-- The domain time at which a slot starts (R235). -/
def slotStart (g : Grid) (s r : Nat) : Nat := g.anchor + ns (4 * (s * g.p / max g.n 1 + r * g.trow))

/-- The domain time at which a slot ends. -/
def slotEnd (g : Grid) (s r : Nat) : Nat := g.anchor + ns (4 * (s * g.p / max g.n 1 + (r + 1) * g.trow))

/-- A slot has started and not ended at the present domain time. -/
def Chip.inSlot (c : Chip) (g : Grid) : Bool :=
  decide (c.lamp.seg < g.n) && decide (slotStart g c.lamp.seg c.lamp.row < c.bell.time) &&
    decide (c.bell.time < slotEnd g c.lamp.seg c.lamp.row)

/-- A slot in progress keeps the pulses of the buffer that was the front when it started (R239). -/
def Chip.holdSlot (c : Chip) : Chip :=
  match c.lamp.grid with
  | some g =>
    if c.inSlot g then c.onLamp fun l => { l with held := some (l.seg, l.row, c.slotPulses g l.seg l.row) } else c
  | none => c

/-! ### Swap (R222, R224) -/

/-- A swap that is not armed is counted; HELD at the first after a performed swap (R224). -/
def Chip.swapHeld (c : Chip) : Chip :=
  let c := c.count Reg.NIMBUS_HELD_CNT
  if c.nim.swapped && !c.nim.heldTold then (c.onNim fun n => { n with heldTold := true }).raise .NIMBUS_HELD else c

/-- An armed swap exchanges front and back and shows its frame; LIMK follows, ILIM_ACT at the first limited frame (R222,
R242). -/
def Chip.swapArmed (c : Chip) : Chip :=
  let c := c.holdSlot
  let c := ((c.put .NIMBUS_STAT_FRONT (1 - c.get .NIMBUS_STAT_FRONT)).put .NIMBUS_STAT_FRAME_SHOWN c.nim.period).count
    Reg.NIMBUS_SWAP_CNT
  let lim := decide (c.nim.limk < 65536)
  let c := (c.put .LAMP_ILIM_STAT_LIMK c.nim.limk).when (lim && !c.nim.limited) fun c => c.raise .LAMP_ILIM_ACT
  let c := c.onTile fun t => { t with shown := c.nim.period % 65536 }
  c.onNim fun n => { n with swapped := true, heldTold := false, limited := lim }

/-- The swap instant (R222): what the decision left is carried out; with the NIMBUS page disabled there is no swap. -/
def Chip.swap (c : Chip) : Chip :=
  if !c.nim.decided then c
  else
    let armed := c.flag .NIMBUS_STAT_ARMED
    let c := (c.put .NIMBUS_STAT_ARMED 0).onNim fun n => { n with decided := false }
    if !armed then c.swapHeld else if c.enabled 0xa0 then c.swapArmed else c

/-- The band of a period (R222): NIMBUS_BAND in Swift mode below the band count, else 0. -/
def Chip.bandInForce (c : Chip) : Nat :=
  let b := c.get .NIMBUS_BAND_BAND
  if c.banding && decide (b < c.bands) then b else 0

/-- The swap of a band is carried out at its band tick, its decision before it (R76, R222). -/
def Chip.bandSwap (c : Chip) : Chip := if c.gridAhead && c.nim.band != 0 then (c.decision.elapseTo c.swapInstant).swap else c

/-- SWAP: the swap instant of the period, unless a step has skipped its tick (R222, R225). -/
def Chip.swapNow (c : Chip) : Chip :=
  if c.nim.band ≠ 0 then c.bandSwap
  else if c.gridAhead && c.nextTick == c.nim.period + 1 then (c.decision.elapseTo c.swapInstant).swap else c

/-- A step from domain time `a` forward to `b` (R225): it makes the decision whose instant it passes over, and a band's swap that it
passes over is left to the next frame tick executed. -/
def Chip.stepOver (c : Chip) (a b : Nat) : Chip :=
  if c.gridAhead then
    let c := c.when (decide (a < c.decideInstant) && decide (c.decideInstant ≤ b)) Chip.decideSwap
    c.when (c.nim.band != 0 && decide (a < c.swapInstant) && decide (c.swapInstant ≤ b)) fun c => c.onNim fun n => { n with band := 0 }
  else c

/-- S is formed from BRIGHT, FADE and DERATE (R212), with its flags (SCALE_FORMING). -/
def Chip.formScale (c : Chip) : Chip :=
  let a := rn32 (dyMul (val32 (c.nat Reg.CORR_BRIGHT)) (val32 c.lamp.factor))
  let s := rn32 (dyMul a.val (val32 (c.nat Reg.WEATHER_DERATE)))
  let c := (c.setNat Reg.CORR_SCALE_CUR (enc32 s.val)).setNat Reg.CORR_FADE_CUR c.lamp.factor
  (c.setNat Reg.CORR_DERATE_CUR (c.nat Reg.WEATHER_DERATE)).setFlags true 0 0 (orFlags a.bits s.bits)

/-- A frame tick n at the pixel engine: a decision that the next tick overtakes is made, a swap still to come is carried out, and the
period of n opens (R222–R225). -/
def Chip.nimbusTick (c : Chip) (n : Nat) : Chip :=
  let c := c.when (c.nim.open_ && c.nim.period + 1 == n) Chip.decideSwap
  let c := c.swap
  let c := ((c.setSlice 0).put .NIMBUS_RX_FRAME n).put .NIMBUS_RX_PIXELS 0
  (c.onNim fun x => { x with
    period := n, open_ := true, decided := false, cause := 0, frameFlags := 0, sum := 0, band := c.bandInForce }).formScale

end Sys2Proof.Machine
end

