-- ==== Sys2Proof/Machine/OpsLamp.lean ====
section
/-!
DEFINITION. The Lamplighter (R228–R250): row slots and pulses, faults, pin tests and sweeps, the grid's course.
-/

namespace Sys2Proof.Machine

/-- A confirmed fault enters the list, is counted, and is told on its group's page (R247): kinds 0 OPEN, 1 SHORT,
2 PIN_SHORT, 3 ROW, 4 OVERCURRENT, 5 IREF. -/
def Chip.lampFault (c : Chip) (kind port row : Nat) : Chip :=
  let c := c.count Reg.LAMP_FAULT_CNT
  let c := if c.lamp.faults.length < 64 then c.onLamp fun l => { l with faults := l.faults ++ [(kind, port, row)] }
    else c.raise .LAMP_LIST_OVF
  if kind = 5 then c else c.raise (.LAMPG_FAULT (port / 128))

/-! ### Pin tests (R245, R246) -/

/-- The test pairs whose two ports are used, with the lower port in a range. -/
def Chip.pairs_ (c : Chip) (lo hi : Nat) : List Nat :=
  (List.range 479).filter fun n => decide (lo ≤ n) && decide (n ≤ hi) && decide (n + 1 < c.columnsUsed)

/-- The pairs a group's pin test covers (R245). -/
def Chip.groupPairs (c : Chip) (g : Nat) : List Nat :=
  match g with
  | 0 => c.pairs_ 0 127
  | 1 => c.pairs_ 127 255
  | 2 => c.pairs_ 255 383
  | _ => c.pairs_ 383 478

/-- A test or a sweep is running. -/
def Chip.testing (c : Chip) : Bool := c.lamp.sweepOn || !c.lamp.ocPairs.isEmpty

/-- LAMP_SWEEP_STAT.RUNNING follows. -/
def Chip.showSweep (c : Chip) : Chip := c.put .LAMP_SWEEP_STAT_RUNNING (if c.testing then 1 else 0)

/-- A sweep starts: every pair, none found yet (R246). -/
def Chip.sweepStart (c : Chip) : Chip :=
  ((c.onLamp fun l => { l with sweep := c.pairs_ 0 478, sweepOn := true }).put .LAMP_SWEEP_STAT_FOUND 0).showSweep

/-- A pair is found shorted: both columns are masked (R246). -/
def Chip.pinShort (c : Chip) (n : Nat) : Chip :=
  (((c.put (pinFld n) 1).put (pinFld (n + 1)) 1).lampFault 2 n 0).raise .LAMP_PIN_SHORT

/-- A sweep that has run its pairs ends (R246). -/
def Chip.sweepEnd (c : Chip) : Chip :=
  if c.lamp.sweepOn && c.lamp.sweep.isEmpty then
    ((c.onLamp fun l => { l with sweepOn := false, sweepAt := c.age }).showSweep).raise .LAMP_SWEEP_DONE
  else c

/-- One pair is tested in a slot: of a group's pin test first, else of the sweep (R245, R246, R248). -/
def Chip.pinTest (c : Chip) (short : Bool) : Chip :=
  match c.lamp.ocPairs with
  | (g, n :: r) :: rest =>
    let c := c.when short fun c => c.pinShort n
    (c.onLamp fun l => { l with ocPairs := if r.isEmpty then rest else (g, r) :: rest }).showSweep
  | (_, []) :: rest => (c.onLamp fun l => { l with ocPairs := rest }).showSweep
  | [] =>
    if !c.lamp.sweepOn then c
    else
      match c.lamp.sweep with
      | n :: r =>
        let c := c.when short fun c => (c.pinShort n).put .LAMP_SWEEP_STAT_FOUND 1
        (c.onLamp fun l => { l with sweep := r }).sweepEnd
      | [] => c.sweepEnd

/-! ### Row readback and overcurrent (R244, R245) -/

/-- A row fault is confirmed (R244). -/
def Chip.confirmRow (c : Chip) (r : Nat) : Chip :=
  if c.rowFault r then c else ((c.put (pinFld (480 + r)) 1).lampFault 3 (480 + r) 0).raise .LAMP_ROW_FAULT

/-- The readback of a slot: `bad` are the used rows whose level differs; four slots in a row confirm a fault (R244). -/
def Chip.readRows (c : Chip) (bad : List Nat) : Chip :=
  let bad := bad.filter fun r => c.portUsed (480 + r)
  let runs := bad.map fun r => (r, (assoc c.lamp.rowRuns r).getD 0 + 1)
  let c := c.onLamp fun l => { l with rowRuns := runs }
  c.each (runs.filter fun x => decide (4 ≤ x.2)) fun c x => c.confirmRow x.1

/-- An overcurrent of a group (R245): dark for the frame, its pin test runs; a third within 10 s keeps it dark. -/
def Chip.overcurrent (c : Chip) (g : Nat) : Chip :=
  let recent := c.lamp.ocAges.filter fun x => decide (c.age - x.2 ≤ ms 10000)
  let third := decide (2 ≤ (recent.filter fun x => x.1 == g).length)
  let c := (c.lampFault 4 (128 * g) 0).raise .LAMP_OVERCURRENT
  (c.onLamp fun l => { l with
    ocRuns := listPut l.ocRuns g 0, ocAges := (g, c.age) :: recent, ocOff := g :: l.ocOff.filter (· != g)
    ocPairs := l.ocPairs ++ [(g, c.groupPairs g)]
    dark := if third then g :: l.dark.filter (· != g) else l.dark }).showSweep

/-- The current a group should draw at the end of the on window, in µA: the sinks still on. -/
def Chip.groupExpected (c : Chip) (w : Nat) (on : List (Nat × Nat)) (g : Nat) : Nat :=
  (on.filter fun x => x.1 / 128 == g && decide (w ≤ x.2)).foldl (fun a x => a + c.portNano x.1) 0 / 1000

/-- The measurement of a group's total current at the end of an on window (R245): more than 10 % + 5 mA too high in
eight slots in a row is an overcurrent. -/
def Chip.groupMeasure (c : Chip) (w : Nat) (on : List (Nat × Nat)) (g micro : Nat) : Chip :=
  let e := c.groupExpected w on g
  if 11 * e + 50000 < 10 * micro then
    let n := listAt c.lamp.ocRuns g 0 + 1
    if 8 ≤ n then c.overcurrent g else c.onLamp fun l => { l with ocRuns := listPut l.ocRuns g n }
  else c.onLamp fun l => { l with ocRuns := listPut l.ocRuns g 0 }

/-! ### The end of a frame and the grid (R235, R240, R244) -/

/-- A lamp is confirmed open or shorted: masked, listed, told (R243). -/
def Chip.confirmLamp (c : Chip) (kind p r : Nat) : Chip :=
  ((c.put (maskFld p r) 1).lampFault kind p r).raise (if kind = 0 then .LAMP_LAMP_OPEN else .LAMP_LAMP_SHORT)

/-- ROW_OPEN as it acts: 0 means never. -/
def Chip.rowOpenEighths (c : Chip) : Nat := min 8 (c.get .LAMP_FAULT_CFG_ROW_OPEN)

/-- At the end of a frame the rows whose open lamps reach the fraction of R244 are confirmed faulty instead of those lamps; every
other lamp found open in it is confirmed (R243, R247; DEDUCED, log entry 184). -/
def Chip.rowOpens (c : Chip) : Chip :=
  let f := c.rowOpenEighths
  let cnt := fun (l : List (Nat × Nat)) (r : Nat) => (l.filter fun x => x.1 == r).length
  let rows := if f = 0 ∨ c.panelScan = 1 then [] else (List.range c.panelScan).filter fun r =>
    cnt c.lamp.opens r != 0 && decide (f * cnt c.lamp.sampled r ≤ 8 * cnt c.lamp.opens r)
  let c := c.each rows Chip.confirmRow
  c.each (c.lamp.opens.reverse.filter fun x => !rows.contains x.1) fun c x => c.confirmLamp 0 x.2 x.1

/-- The frame on the lamps ends: open rows and lamps, the lowest samples are shown (R243, R244). -/
def Chip.lampFrameEnd (c : Chip) : Chip :=
  let c := c.rowOpens
  let c := c.each [0, 1, 2, 3] fun c g =>
    match listAt c.lamp.vmin g none with
    | some v => ((c.put (.LAMP_GRP_VMIN_MV g) v.1).put (.LAMP_GRP_VMIN_ROW g) v.2.1).put (.LAMP_GRP_VMIN_PORT g) v.2.2
    | none => c
  c.onLamp fun l => { l with opens := [], sampled := [], vmin := [none, none, none, none] }

/-- A grid begins: the frame before it on the lamps is over. -/
def Chip.beginGrid (c : Chip) (g : Grid) : Chip :=
  (c.lampFrameEnd.onLamp fun l => { l with grid := some g, next := none, held := none, seg := 0, row := 0 }).showGrid g

/-- A grid that waits begins once no slot of the one in progress starts before its anchor (R240). -/
def Chip.gridNow (c : Chip) : Chip :=
  match c.lamp.next with
  | none => c
  | some h =>
    match c.lamp.grid with
    | none => c.beginGrid h
    | some g =>
      if g.n ≤ c.lamp.seg ∨ h.anchor ≤ c.bell.time ∨ h.anchor ≤ slotStart g c.lamp.seg c.lamp.row then c.beginGrid h else c

/-! ### A row slot (R230, R231, R237) -/

/-- The level of each ROWD pin with a row active, or none (R230): high impedance while group 3 is unpowered or the LAMP common page
is disabled and no locator pattern runs; else active or inactive by ROW_POL. -/
def Chip.rowdPins (c : Chip) (active : Option Nat) : List (Option Bool) :=
  (List.range 32).map fun r =>
    if !c.domOn 76 || !(c.enabled 0xa6 || c.tile.locator) then none
    else some ((active == some r) == (c.descField 15 1 == 1))

/-- A slot's row is switched: rows are used, group 3 drives, and the row has no confirmed fault, which holds it inactive (R229, R244,
R248). -/
def Chip.rowDriven (c : Chip) (g : Grid) (r : Nat) : Bool :=
  g.scan != 1 && (c.enabled 0xa5 || c.tile.locator) && !c.rowFault r

/-- T_blank of a slot: with SCAN = 1 that of the reset row timing while tests run, else none (R235, R246). -/
def Chip.blank (c : Chip) (g : Grid) : Nat :=
  if g.scan = 1 then (if c.testing then blankOf resetTiming 2 else 0) else g.trow - g.w

/-- What a slot drives, up to its end or to the instant it is cut (R237): the switches and the row at their times, each sink for its
on-time within the window; a pin test replaces the pre-charge (R246). -/
def Chip.slotDrive (c : Chip) (g : Grid) (s r : Nat) (on : List (Nat × Nat)) (stop : Nat) : SlotDrive :=
  let z := fun n => if n = 0 then 4 else n
  let off := z (g.timing % 256)
  let pre := off + g.timing / 256 % 256
  let rowOn := pre + z (g.timing / 65536 % 256)
  let win := c.blank g
  let row := c.rowDriven g r
  { seg := s, row := r, start := slotStart g s r
    precharge := if c.flag .LAMP_PRECHG_EN && g.scan != 1 && !c.testing && off != pre && decide (off < stop) then
        some (off, min pre stop) else none
    active := if row && decide (rowOn < stop) then some (rowOn, stop) else none
    window := win
    on := (on.map fun x => (x.1, min x.2 (stop - win))).filter fun x => x.2 != 0
    stop := stop, idle := c.rowdPins none, rows := c.rowdPins (if row then some r else none) }

/-- A slot in progress is cut: what it drove until now (R240). -/
def Chip.cutSlot (c : Chip) : Chip :=
  match c.lamp.grid with
  | some g =>
    if c.inSlot g && decide (2 ≤ c.lampState) then
      let h := c.holdSlot
      c.emit (.lamp (c.slotDrive g c.lamp.seg c.lamp.row ((h.lamp.held.map (·.2.2)).getD [])
        ((c.bell.time - slotStart g c.lamp.seg c.lamp.row) / ns 4)))
    else c
  | none => c

/-- The pulses of the next slot: those it started with, if the front changed since (R239). -/
def Chip.pulsesNow (c : Chip) (g : Grid) : List (Nat × Nat) :=
  match c.lamp.held with
  | some h => if h.1 = c.lamp.seg ∧ h.2.1 = c.lamp.row then h.2.2 else c.slotPulses g c.lamp.seg c.lamp.row
  | none => c.slotPulses g c.lamp.seg c.lamp.row

/-- The slot is done; the next one of the grid is due. -/
def Chip.nextSlot (c : Chip) (g : Grid) (on : List (Nat × Nat)) : Chip :=
  c.onLamp fun l => { l with
    last := (l.seg, l.row), lastOn := on, held := none
    seg := if l.row + 1 < g.scan then l.seg else l.seg + 1
    row := if l.row + 1 < g.scan then l.row + 1 else 0 }

/-- A row slot of a grid runs: the row and its pulses, the readback of the rows, the current measurement of the groups, one pin test
(R237, R244–R246). A slot that the anchor of the next grid cuts short is neither read back nor measured. -/
def Chip.gridSlot (c : Chip) (g : Grid) (bad : List Nat) (micro : List (Nat × Nat)) (short : Bool) : Chip :=
  let s := c.lamp.seg
  let r := c.lamp.row
  let on := c.pulsesNow g
  let stop := match c.lamp.next with
    | some h => min h.anchor (slotEnd g s r)
    | none => slotEnd g s r
  let d := c.slotDrive g s r on ((stop - slotStart g s r) / ns 4)
  let c := (c.elapseTo stop).when (decide (2 ≤ c.lampState)) fun c => c.emit (.lamp d)
  if stop < slotEnd g s r then c.nextSlot g []
  else
    let c := c.when (g.scan != 1 && decide (2 ≤ c.lampState)) fun c => c.readRows bad
    let c := c.each micro fun c m => c.groupMeasure g.w d.on (m.1 % 4) m.2
    (c.pinTest short).nextSlot g d.on

/-- A row slot: of the power-up sweep one of 1 µs, before any lamp is lit (R246); else the next one of the grid, if it has one left.
`bad` rows read back wrong, `micro` is the measured current of groups in µA, `short` the outcome of the slot's pin test. -/
def Chip.rowSlot (c : Chip) (bad : List Nat) (micro : List (Nat × Nat)) (short : Bool) : Chip :=
  if !c.enabled 0xa6 && !c.tile.locator then c
  else if c.lamp.sweepOn && c.lamp.waitTick then (c.elapse (us 1)).pinTest short
  else
    let c := c.gridNow
    match c.lamp.grid with
    | some g => if g.n ≤ c.lamp.seg then c else c.gridSlot g bad micro short
    | none => c

/-! ### Lamp samples (R243) -/

/-- The lowest sample of a group (LAMP_GRP_VMIN). -/
def Chip.noteVmin (c : Chip) (p r mv : Nat) : Chip :=
  let g := p / 128
  let lower := match listAt c.lamp.vmin g none with
    | some v => decide (mv < v.1)
    | none => true
  c.when lower fun c => c.onLamp fun l => { l with vmin := listPut l.vmin g (some (mv, r, p % 128)) }

/-- A lamp's failing run is long enough: a short is confirmed; an open where rows count is left to the end of the frame, dark until
then (R243, R244; DEDUCED, log entry 184). -/
def Chip.lampFails (c : Chip) (kind p r : Nat) : Chip :=
  if kind = 0 ∧ c.rowOpenEighths ≠ 0 then c.onLamp fun l => { l with opens := (r, p) :: l.opens } else c.confirmLamp kind p r

/-- How a sample fails: 1 open, 2 short, 0 not at all (R243). A sample equal to the SHORT threshold is no short: R243 says "above"
(DEDUCED, log entry 194). -/
def Chip.sampleKind (c : Chip) (mv : Nat) : Nat :=
  if mv < c.get .LAMP_FAULT_CFG_OPEN then 1
  else if c.get .LAMP_FAULT_CFG_SHORT ≠ 0 ∧ 10 * c.get .LAMP_FAULT_CFG_SHORT < mv then 2 else 0

/-- A column pin's voltage is sampled at the end of a pulse of the last slot of 32 GCLK or more (R243). -/
def Chip.pulseSample (c : Chip) (p mv : Nat) : Chip :=
  match c.lamp.grid, c.lamp.lastOn.find? fun x => x.1 == p && decide (32 ≤ x.2) with
  | some g, some _ =>
    let r := c.lamp.last.2
    let k := 32 * p + r
    let c := (c.noteVmin p r mv).onLamp fun l => { l with
      lastOn := l.lastOn.filter fun x => x.1 != p, sampled := (r, p) :: l.sampled.filter (· != (r, p)) }
    let kind := c.sampleKind mv
    let rest := c.lamp.runs.filter fun x => x.1 != k
    let old := match c.lamp.runs.find? fun x => x.1 == k with
      | some x => if x.2.1 = kind then x.2.2 else 0
      | none => 0
    if kind = 0 then c.onLamp fun l => { l with runs := rest }
    else if min 4 g.n ≤ old + 1 then (c.onLamp fun l => { l with runs := rest }).lampFails (kind - 1) p r
    else c.onLamp fun l => { l with runs := (k, kind, old + 1) :: rest }
  | _, _ => c

/-! ### The grid's course (R235, R240) -/

/-- The grid begins anew at an instant (R240). -/
def Chip.gridStart (c : Chip) (t : Nat) : Chip := c.beginGrid (c.makeGrid t)

/-- The bias has been on for 2 ms since Dim was left (R404). -/
def Chip.biasReady (c : Chip) : Bool := c.pwr.target == .run && c.domOn 77 && match c.pwr.biasAt with
  | some a => decide (ms 2 ≤ c.age - a)
  | none => true

/-- Driving starts or resumes at a frame tick: after the sweep, with a valid reference current, and with the bias on (R233,
R246, R404). -/
def Chip.lampResume (c : Chip) : Chip :=
  let irefGood := match c.lamp.irefOk with
    | some a => decide (ms 10 ≤ c.age - a)
    | none => false
  if !c.enabled 0xa6 || !c.biasReady then c
  else if c.lampState = 4 then
    if irefGood && !(c.lamp.waitTick && c.lamp.sweepOn) then ((c.setLamp (if c.tile.locator then 3 else 2)).put .LAMP_IREF_FAULT 0).onLamp fun l => { l with irefOk := none, waitTick := false } else c
  else if c.lampState = 1 && c.lamp.waitTick && !c.lamp.sweepOn && c.flag .LAMP_IREF_VALID then
    (c.setLamp (if c.tile.locator then 3 else 2)).onLamp fun l => { l with waitTick := false }
  else c

/-- A tick cuts the grid in progress: it comes from SYNC_IN, or before the grid runs out behind its tick (a forward step, R67, R240). -/
def Chip.gridCut (c : Chip) (g : Grid) : Bool :=
  c.syncTicks || decide (c.bell.time + g.phase + ns 128 < g.anchor + ns (4 * (g.p + 32)))

/-- A tick anchors a grid (R235, R240): at once where it cuts the one in progress, else when that one has run to the anchor, in
Broadcast OFFSET behind the tick. -/
def Chip.gridTick (c : Chip) : Chip :=
  let h := c.makeGrid c.bell.time
  match c.lamp.grid with
  | none => c.beginGrid h
  | some g => if c.gridCut g then c.cutSlot.beginGrid h else (c.onLamp fun l => { l with next := some h }).gridNow

/-- A frame tick at the Lamplighter: groups whose test is over resume, the fade moves, driving may begin, the next grid is anchored
(R245, GRID_START, FADE_STEP). -/
def Chip.lampTick (c : Chip) (n : Nat) : Chip :=
  let c := c.onLamp fun l => { l with ocOff := l.ocOff.filter fun g => l.ocPairs.any fun x => x.1 == g }
  let c := (c.fadeTick n).lampResume
  if c.tile.locator then c else c.gridTick.showCurrents

/-- No tick by the end of the grid: the Lamplighter starts the next grid there itself; a grid that a tick has anchored begins there
(R240). -/
def Chip.gridEnd (c : Chip) : Chip :=
  match c.lamp.next, c.lamp.grid with
  | some h, _ => (c.elapseTo h.anchor).beginGrid h
  | none, none => c.gridStart c.bell.time
  | none, some g =>
    let t := g.anchor + ns (4 * (g.p + 32))
    let c := c.elapseTo t
    c.beginGrid { c.makeGrid t with anchor := t }

/-! ### Reference current, enabling, the descriptor (R233, R246, R248) -/

/-- A measurement of I_IREF in 10 nA (R233): outside 36–440 µA every sink stops. -/
def Chip.irefMeasure (c : Chip) (i : Nat) : Chip :=
  let c := c.put .LAMP_IREF_CURRENT i
  if 3600 ≤ i ∧ i ≤ 44000 then
    let c := (c.put .LAMP_IREF_VALID 1).onLamp fun l => { l with
      iref := i, irefOk := if c.lampState = 4 then some (l.irefOk.getD c.age) else none }
    c.showCurrents
  else
    let c := (c.put .LAMP_IREF_VALID 0).onLamp fun l => { l with irefOk := none }
    if c.lampState = 4 ∨ c.enabled 0xa6 = false then c
    else (((c.setLamp 4).put .LAMP_IREF_FAULT 1).lampFault 5 0 0).raise .LAMP_IREF_FAULT

/-- The locator pattern (R26): a tile that hears no beacon for 2 s draws it on a free grid, and tells it once. -/
def Chip.locatorOn (c : Chip) : Chip :=
  if !c.isTile || c.tile.locator || !(c.pwr.state == .waking || c.pwr.state == .run) then c
  else
    let c := (c.onTile fun t => { t with locator := true }).setLamp 3
    (c.gridStart c.bell.time).raise .SYS_LOCATOR

/-- The pattern is cleared at the first frame an admitted tile shows: the first performed swap (R26). -/
def Chip.locatorOff (c : Chip) : Chip :=
  if c.tile.locator && c.tile.st == 4 then
    let c := (c.onTile fun t => { t with locator := false }).setLamp (if c.enabled 0xa6 then 2 else 0)
    c.gridStart c.bell.time
  else c

/-- TRIM_MEASURE (R266): each used column port sinks for one blanking time and the group measurement reads its current; the
readings stay with the Lamplighter. Log entry 38. -/
def Chip.trimMeasure (c : Chip) (l : List (Nat × Nat)) : Chip :=
  if c.isTile && c.enabled 0xa6 then
    c.onLamp fun x => { x with meas := l.filter fun m => decide (m.1 < 480) && c.portUsed m.1 }
  else c

/-- The LAMP common page comes on: I_IREF is to be measured anew, a power-up sweep, then driving at the next frame tick; the ROWD pins
are driven (R230, R233, R246). -/
def Chip.lampEnable (c : Chip) : Chip :=
  let c := ((c.setLamp (if c.tile.locator then 3 else 1)).put .LAMP_IREF_VALID 0).put .LAMP_IREF_FAULT 0
  ((c.onLamp fun l => { l with waitTick := true, irefOk := none }).sweepStart).emit (.rowd (c.rowdPins none))

/-- The LAMP common page goes off: all sinks off, every ROWD inactive, then high-impedance (R230, R248). -/
def Chip.lampDisable (c : Chip) : Chip :=
  (((c.setLamp 0).onLamp fun l => { l with sweep := [], sweepOn := false, ocPairs := [], waitTick := false }).showSweep).emit
    (.rowd (if c.tile.locator then c.rowdPins none else List.replicate 32 none))

/-- A group page comes on again: an overcurrent's darkness ends (R245). -/
def Chip.lampGroupEnable (c : Chip) (g : Nat) : Chip :=
  c.onLamp fun l => { l with dark := l.dark.filter (· != g), ocAges := l.ocAges.filter fun x => x.1 != g }

/-- Clear the masks, pin faults and fault list (R248). -/
def Chip.clearFaults (c : Chip) : Chip :=
  let c := c.each [0, 1, 2, 3] fun c g =>
    let c := c.each (List.range 4) fun c k => c.setNat (Reg.LAMP_PINFLT g k) 0
    c.each (List.range 128) fun c k => c.setNat (Reg.LAMP_MASK g k) 0
  c.onLamp fun l => { l with faults := [], runs := [], rowRuns := [], opens := [], sampled := [] }

/-- A clearing write of LAMP_PINFLT: bits written 0 clear; a row port cleared so is tested again at once (R244, LAMP_PINFLT). -/
def Chip.pinFaultWrite (c : Chip) (g k v : Nat) : Chip :=
  let r := Reg.LAMP_PINFLT g k
  let d := c.setNat r (c.nat r &&& v)
  d.onLamp fun l => { l with rowRuns := l.rowRuns.filter fun x => !(c.rowFault x.1 && !d.rowFault x.1) }

/-- A fault list entry as LAMP_FAULT_ENTRY shows it. -/
def faultWord (l : List (Nat × Nat × Nat)) (i : Nat) : Nat :=
  match l[i]? with
  | some x => 2 ^ 31 + x.1 * 2 ^ 28 + x.2.1 * 65536 + x.2.2 * 256
  | none => 0

/-- Masked lamps of a group (LAMP_GRP_STAT.MASKED). -/
def Chip.maskedCount (c : Chip) (g : Nat) : Nat :=
  min 4095 ((List.range 4096).filter fun b => bitAt (c.nat (Reg.LAMP_MASK g (b / 32))) (b % 32)).length

/-- Used ports of a group (LAMP_GRP_STAT.USED). -/
def Chip.usedCount (c : Chip) (g : Nat) : Nat := ((List.range 128).filter fun p => c.portUsed (128 * g + p)).length

end Sys2Proof.Machine
end

