-- ==== Sys2Proof/Machine/OpsHalo.lean ====
section
/-!
DEFINITION. Halo (R251–R272): the frame watchdog of the CSI-2 ports, the ISP, the accumulator, the push, the calibration job,
and the calibration loads of a tile's start (R269, R446).
-/

namespace Sys2Proof.Machine

/-! ### The ISP (R254, R255) -/

/-- A parameter set at reset. -/
def ispReset : Isp := ⟨0, 64, [0, 0, 0, 0], [0x400, 0x400, 0x400, 0x400]⟩

/-- A sensor at reset. -/
def sensorReset : Sensor := ⟨none, ispReset, none⟩

/-- Sensor v = 4 × port + virtual channel (R251). -/
def Chip.sensor (c : Chip) (v : Nat) : Sensor := listAt c.halo.sensors v sensorReset

/-- Change a sensor. -/
def Chip.onSensor (c : Chip) (v : Nat) (f : Sensor → Sensor) : Chip :=
  c.onHalo fun h => { h with sensors := listPut h.sensors v (f (c.sensor v)) }

/-- The staging set of a sensor: its parameter registers (R256). -/
def Chip.staging (c : Chip) (v : Nat) : Isp :=
  { cfa := c.get (.HALO_S_CFA_CFA v), thresh := c.get (.HALO_S_CFA_THRESH v)
    black := [c.get (.HALO_S_BLACK_LO_R_Gb v) % 4096, c.get (.HALO_S_BLACK_LO_Gr_B v) % 4096,
              c.get (.HALO_S_BLACK_HI_R_Gb v) % 4096, c.get (.HALO_S_BLACK_HI_Gr_B v) % 4096]
    gain := [c.get (.HALO_S_GAIN_LO_R_Gb v), c.get (.HALO_S_GAIN_LO_Gr_B v),
             c.get (.HALO_S_GAIN_HI_R_Gb v), c.get (.HALO_S_GAIN_HI_Gr_B v)] }

/-- The CFA channel of a site: 0 R, 1 Gr, 2 Gb, 3 B (HALO_Sv_CFA). -/
def cfaAt (cfa x y : Nat) : Nat := (x + cfa % 2) % 2 + 2 * ((y + cfa / 2) % 2)

/-- The 12-bit value of a raw code by data type (R254). -/
def raw12 (dt code : Nat) : Nat :=
  if dt = 0x2b then code % 1024 * 4 else if dt = 0x2c then code % 4096 else min 4095 ((code % 16384 + 2) / 4)

/-- Black level and gain (R254): p2 of a pixel. -/
def Isp.level (i : Isp) (ch p : Nat) : Nat :=
  min 4095 (((p - listAt i.black ch 0) * listAt i.gain ch 0 + 512) / 1024)

/-- An index beyond the edge is mirrored about it (R255): the edge pixel is the axis, so a site keeps its colour (DEDUCED, log
entry 90). -/
def mirror (i : Int) (n : Nat) : Nat :=
  if i < 0 then (-i).toNat else if (n : Int) ≤ i then (2 * ((n : Int) - 1) - i).toNat else i.toNat

/-- A plane's value at a place that may lie beyond the edge. -/
def planeAt (m : List (List Nat)) (x y : Int) : Int :=
  let row := listAt m (mirror y m.length) []
  (listAt row (mirror x row.length) 0 : Nat)

/-- Clip to 12 bits. -/
def clip12 (i : Int) : Nat := min 4095 i.toNat

/-- Green at a red or blue site, by gradients (R255). -/
def greenAt (m : List (List Nat)) (t : Nat) (x y : Int) : Nat :=
  let p := planeAt m
  let c2h := 2 * p x y - p (x - 2) y - p (x + 2) y
  let c2v := 2 * p x y - p x (y - 2) - p x (y + 2)
  let dH := ((p (x - 1) y - p (x + 1) y).natAbs + c2h.natAbs : Nat)
  let dV := ((p x (y - 1) - p x (y + 1)).natAbs + c2v.natAbs : Nat)
  let gH := (p (x - 1) y + p (x + 1) y + 1) / 2 + (c2h + 2) / 4
  let gV := (p x (y - 1) + p x (y + 1) + 1) / 2 + (c2v + 2) / 4
  clip12 (if dH + t < dV then gH else if dV + t < dH then gV else (gH + gV + 1) / 2)

/-- The completed green plane. -/
def greenPlane (cfa t : Nat) (m : List (List Nat)) : List (List Nat) :=
  (List.range m.length).map fun y =>
    (List.range (listAt m y []).length).map fun x =>
      let k := cfaAt cfa x y
      if k = 1 ∨ k = 2 then listAt (listAt m y []) x 0 else greenAt m t x y

/-- A missing colour: green plus the mean of the colour differences at the given neighbours (R255). -/
def byDiff (m g : List (List Nat)) (x y : Int) (nb : List (Int × Int)) : Nat :=
  let s := nb.foldl (fun a d => a + planeAt m (x + d.1) (y + d.2) - planeAt g (x + d.1) (y + d.2)) 0
  clip12 (planeAt g x y + (if nb.length = 2 then (s + 1) / 2 else (s + 2) / 4))

/-- The 12-bit R, G, B of a site (R255). -/
def demosaicAt (cfa : Nat) (m g : List (List Nat)) (x y : Nat) : List Nat :=
  let own := listAt (listAt m y []) x 0
  let gr := listAt (listAt g y []) x 0
  let row := byDiff m g x y [(-1, 0), (1, 0)]
  let col := byDiff m g x y [(0, -1), (0, 1)]
  let diag := byDiff m g x y [(-1, -1), (1, -1), (-1, 1), (1, 1)]
  match cfaAt cfa x y with
  | 0 => [own, gr, diag]
  | 1 => [row, gr, col]
  | 2 => [col, gr, row]
  | _ => [diag, gr, own]

/-- A frame's RGB rows from its raw codes (R254, R255). -/
def ispFrame (i : Isp) (dt : Nat) (lines : List (List Nat)) : List (List (List Nat)) :=
  let m := (List.range lines.length).map fun y =>
    (List.range (listAt lines y []).length).map fun x =>
      i.level (cfaAt i.cfa x y) (raw12 dt (listAt (listAt lines y []) x 0))
  let g := greenPlane i.cfa i.thresh m
  (List.range m.length).map fun y => (List.range (listAt m y []).length).map fun x => demosaicAt i.cfa m g x y

/-! ### The accumulator (R257–R259) -/

/-- State of the run (HALO_ACC_STAT.STATE): 0 IDLE, 1 ARMED, 2 RUNNING, 3 DONE, 4 ABORTED. -/
def Chip.accState (c : Chip) : Nat := c.get .HALO_ACC_STAT_STATE

/-- A run is armed or running, or its array is being zeroed, which counts as ARMED for BUSY, ABORT and the lock of the run's
registers (DESIGN CHOICE, log entry 186). -/
def Chip.accBusy (c : Chip) : Bool := c.accState == 1 || c.accState == 2 || c.halo.zeroing

/-- BIN of the run. -/
def Chip.accBin (c : Chip) : Nat := 2 ^ c.get .HALO_ACC_SRC_BIN

/-- Cells across. -/
def Chip.accCw (c : Chip) : Nat := c.get .HALO_ACC_WIN_SIZE_X_W / c.accBin

/-- Cells down. -/
def Chip.accCh (c : Chip) : Nat := c.get .HALO_ACC_WIN_SIZE_Y_H / c.accBin

/-- The array's address (R257). -/
def Chip.accBase (c : Chip) : Nat := c.nat Reg.HALO_ACC_BASE_LO / 4096 * 4096 + 2 ^ 32 * c.get .HALO_ACC_BASE_HI_ADDR

/-- The saturation bitmap's address. -/
def Chip.accBitmap (c : Chip) : Nat := c.accBase + (48 * c.accCw * c.accCh + 4095) / 4096 * 4096

/-- The page of a sensor's CSI port is enabled and its virtual channel received. -/
def Chip.vcOn (c : Chip) (v : Nat) : Bool := c.enabled (0x49 + v / 4) && c.flag (.CSI_VC_CFG_EN (v / 4) (v % 4))

/-- Why a START is refused in the states that take one (R259): FRAMES 1, MODE 4, WINDOW 2, SENSOR 3, in the order of the
table; 0 if it is valid. -/
def Chip.accCause (c : Chip) : Nat :=
  let v := c.get .HALO_ACC_SRC_SENSOR
  let f := c.get .HALO_ACC_FRAMES_FRAMES
  let x := c.get .HALO_ACC_WIN_POS_X_W
  let y := c.get .HALO_ACC_WIN_POS_Y_H
  let w := c.get .HALO_ACC_WIN_SIZE_X_W
  let h := c.get .HALO_ACC_WIN_SIZE_Y_H
  if f = 0 ∨ 16777216 < f then 1
  else if c.mode ≠ 5 then 4
  else if w = 0 ∨ h = 0 ∨ w % c.accBin ≠ 0 ∨ h % c.accBin ≠ 0 ∨
      c.get (.CSI_VC_SIZE_WIDTH (v / 4) (v % 4)) < x + w ∨ c.get (.CSI_VC_SIZE_HEIGHT (v / 4) (v % 4)) < y + h then 2
  else if c.vcOn v = false then 3
  else 0

/-- A START of the accumulator (R259): `own` says the calibration job gives it (R261). -/
def Chip.accStart (c : Chip) (own : Bool) : Chip :=
  if c.accBusy || (c.halo.job.isSome && !own) then c.put .HALO_ACC_STAT_CAUSE 5
  else
    match c.accCause with
    | 0 =>
      let c := c.each [Reg.HALO_ACC_DONE, Reg.HALO_ACC_SAT, Reg.HALO_ACC_SAT_FRAME, Reg.HALO_ACC_DISCARD] fun c a => c.setNat a 0
      (c.put .HALO_ACC_STAT_CAUSE 0).onHalo fun h =>
        { h with zeroing := true, frameAt := c.age, startTick := c.pair Reg.HALO_ACC_START_LO Reg.HALO_ACC_START_HI }
    | k => c.put .HALO_ACC_STAT_CAUSE k

/-- Bytes of the run's array and bitmap (R257). -/
def Chip.accBytes (c : Chip) : Nat := c.accBitmap - c.accBase + (3 * c.accCw * c.accCh + 7) / 8

/-- Time passes until the array and bitmap are zeroed at 16 GB/s (R259): 4,096 sub-nanoseconds a byte from the START. -/
def Chip.zeroElapse (c : Chip) : Chip := if c.halo.zeroing then c.elapseAge (c.halo.frameAt + 4096 * c.accBytes) else c

/-- The array and its bitmap hold zeros: the run is ARMED (R259). -/
def Chip.accArm (c : Chip) : Chip :=
  if c.halo.zeroing then
    let n := c.accBytes
    let c := (c.gWrite c.accBase (List.replicate n 0)).onHalo fun h => { h with zeroing := false, frameAt := c.age }
    c.put .HALO_ACC_STAT_STATE 1
  else c

/-- A record's bit of the saturation bitmap. -/
def Chip.satBit (c : Chip) (i : Nat) : Bool := bitAt (c.gLe (c.accBitmap + i / 8) 1) (i % 8)

/-- A record saturates (R258). -/
def Chip.accSaturate (c : Chip) (i : Nat) : Chip :=
  let first := c.nat Reg.HALO_ACC_SAT == 0
  let a := c.accBitmap + i / 8
  let c := c.gWrite (c.accBase + 16 * i) (List.replicate 12 0xff ++ List.replicate 4 0)
  let c := (c.gWrite a (leBytes 1 (setBitAt (c.gLe a 1) (i % 8) true))).count Reg.HALO_ACC_SAT
  if first then (c.setNat Reg.HALO_ACC_SAT_FRAME (c.nat Reg.HALO_ACC_DONE)).raise .HALO_ACC_SAT else c

/-- One frame's value x joins record i: 3 × cell + colour (R257, R258). -/
def Chip.accAdd (c : Chip) (i x : Nat) : Chip :=
  if c.satBit i then c
  else
    let r := c.gPeek (c.accBase + 16 * i) 12
    let c := c.gReadCount (c.accBase + 16 * i) 12
    let sx := leNat (r.1.take 5) + x
    let sxx := leNat (r.1.drop 5) + x * x
    if r.2 = true ∨ 2 ^ 40 ≤ sx ∨ 2 ^ 56 ≤ sxx then c.accSaturate i
    else c.gWrite (c.accBase + 16 * i) (leBytes 5 sx ++ leBytes 7 sxx ++ List.replicate 4 0)

/-- The sum of colour k over a cell of the window (R257). -/
def Chip.cellSum (c : Chip) (rows : List (List (List Nat))) (cx cy k : Nat) : Nat :=
  let b := c.accBin
  let x0 := c.get .HALO_ACC_WIN_POS_X_W + b * cx
  let y0 := c.get .HALO_ACC_WIN_POS_Y_H + b * cy
  ((List.range b).flatMap fun j => (List.range b).map fun i =>
    listAt (listAt (listAt rows (y0 + j) []) (x0 + i) []) k 0).foldl (· + ·) 0

/-- An accepted frame of the run's sensor accumulates (R258, R259). Answers whether the run is done. -/
def Chip.accumulate (c : Chip) (rows : List (List (List Nat))) : Chip × Bool :=
  let c := (c.put .HALO_ACC_STAT_STATE 2).count Reg.HALO_ACC_DONE
  let c := c.each (List.range (c.accCw * c.accCh)) fun c i =>
    c.each [0, 1, 2] fun c k => c.accAdd (3 * i + k) (c.cellSum rows (i % max c.accCw 1) (i / max c.accCw 1) k)
  let c := c.onHalo fun h => { h with frameAt := c.age }
  if c.nat Reg.HALO_ACC_DONE = c.get .HALO_ACC_FRAMES_FRAMES then
    ((c.put .HALO_ACC_STAT_STATE 3).raise .HALO_RUN_DONE, true)
  else (c, false)

/-! ### Firmware cells to a tile -/

/-- The port and record of an admitted tile by WDN. -/
def Chip.tileOf (c : Chip) (wdn : Nat) : Option (Nat × Dev) :=
  match c.portOfWdn wdn with
  | none => none
  | some n => (c.devWdn n wdn).bind fun d => if d.inService then some (n, d) else none

/-- Registers of a tile are written. -/
def Chip.tileWrite (c : Chip) (n wdn addr : Nat) (words : List Nat) : Chip :=
  c.sendFw n 0 wdn 2 addr 0 (words.flatMap (leBytes 4))

/-- A register of a tile is read. -/
def Chip.tileRead (c : Chip) (n wdn addr k : Nat) : Chip := c.sendFw n 0 wdn 1 addr 0 (leBytes (4 * k) 0)

/-- Memory of a tile is written in cells of 4,096 bytes; answers how many. -/
def Chip.tileBulk (c : Chip) (n wdn addr : Nat) (data : List Byte) : Chip :=
  c.each (List.range ((data.length + 4095) / 4096)) fun c k =>
    c.sendFw n 0 wdn 3 (addr + 4096 * k) 0 ((data.drop (4096 * k)).take 4096)

/-- The port groups of a panel with a used column port (R229): those that have trims. -/
def trimGroups (desc : List Byte) : List Nat :=
  [0, 1, 2, 3].filter fun g => decide (128 * g < 3 * (descSize desc).1 * leNat ((desc.drop 13).take 1))

/-- The trims of a set as the words of LAMP_TRIM of a group. -/
def trimWords (set_ : List Byte) (g : Nat) : List Nat :=
  (List.range 32).map fun k =>
    (List.range 4).foldl (fun a j =>
      a + (if 480 ≤ 128 * g + 4 * k + j then 0 else (listAt set_ (128 * g + 4 * k + j) 0).toNat % 128) * 256 ^ j) 0

/-! ### Plausibility (R262) -/

/-- Magnitude of a binary16 value. -/
def mag16 (h : Nat) : Dy := val16 (h % 32768)

/-- The check of R262 that record e of a set fails, the first in the table's order where it fails several (DESIGN CHOICE, log
entry 187): 1 NONFINITE, 2 DIAG, 3 OFF, 4 OFS; 0 none. -/
def Chip.entryCause (c : Chip) (hs : List Nat) : Nat :=
  let at_ := fun i => listAt hs i 0
  let dmin := val16 (c.get .HALO_LIM_DIAG_DIAG_MIN_OFS_MAX)
  let dmax := val16 (c.get .HALO_LIM_DIAG_DIAG_MAX_OFF_MAX)
  let off := val16 (c.get .HALO_LIM_MISC_DIAG_MAX_OFF_MAX)
  let ofs := val16 (c.get .HALO_LIM_MISC_DIAG_MIN_OFS_MAX)
  if hs.any fun h => !fin16 h then 1
  else if [0, 4, 8].any fun i => !dyLe dmin (val16 (at_ i)) || !dyLe (val16 (at_ i)) dmax then 2
  else if [1, 2, 3, 5, 6, 7].any fun i => !dyLe (mag16 (at_ i)) off then 3
  else if [9, 10, 11].any fun i => !dyLe (mag16 (at_ i)) ofs then 4
  else 0

/-- The first failing entry of a coefficient set, with its check. -/
def Chip.coeffBad (c : Chip) (set_ : List Byte) (entries : Nat) : Option (Nat × Nat) :=
  (List.range entries).findSome? fun e =>
    let hs := (List.range 12).map fun h => leNat ((set_.drop (24 * e + 2 * h)).take 2)
    match c.entryCause hs with
    | 0 => none
    | k => some (k, e)

/-- The first trim byte outside −64 to +63; ROWD bytes are ignored. -/
def trimBad (set_ : List Byte) : Option (Nat × Nat) :=
  ((List.range 480).find? fun p =>
    let t := signOf 8 (listAt set_ p 0).toNat
    decide (t < -64) || decide (63 < t)).map fun p => (5, p)

/-- The check of a set by its kind: 0 COEFF, 1 TRIM. A KIND beyond 1, which the table does not name, acts as TRIM here and
throughout the push (DESIGN CHOICE, log entry 187). -/
def Chip.setBad (c : Chip) (kind : Nat) (set_ : List Byte) (d : Dev) : Option (Nat × Nat) :=
  if kind = 0 then c.coeffBad set_ ((descSize d.desc).1 * (descSize d.desc).2) else trimBad set_

/-! ### The push (R263) -/

/-- Change the push in progress. -/
def Chip.onPush (c : Chip) (f : Push → Push) : Chip := c.onHalo fun h => { h with push := h.push.map f }

/-- The entries of the push in progress. -/
def Chip.pushEntries (c : Chip) : List PushEntry :=
  match c.halo.push with | some p => p.entries | none => []

/-- Keep an entry of the push, and write STATUS, CAUSE and FIRST_BAD into its place in the list. -/
def Chip.putEntry' (c : Chip) (e : PushEntry) : Chip :=
  match c.halo.push with
  | none => c
  | some p =>
    let c := c.onPush fun p => { p with entries := p.entries.map fun x => if x.idx = e.idx then e else x }
    c.gWrite (p.base + 64 * e.idx + 4) (leBytes 1 e.status ++ leBytes 1 e.cause ++ leBytes 2 e.bad)

/-- An entry takes a status, with its cause. -/
def Chip.entryEnds (c : Chip) (e : PushEntry) (status cause bad : Nat) : Chip :=
  let c := c.putEntry' { e with status := status, cause := cause, bad := bad }
  if status = 2 then c.raise .HALO_PUSH_REFUSED else c

/-- Entry `i` of the list at `base`, as read. -/
def Chip.readEntry (c : Chip) (base i : Nat) : PushEntry :=
  let a := base + 64 * i
  { idx := i, wdn := c.gLe a 2, kind := c.gLe (a + 2) 1, flags := c.gLe (a + 3) 1, src := c.gLe (a + 8) 8, status := 0, cause := 0
    bad := 0, bank := 2, cfg := 0, waits := 0, armed := false, mark := (0, 0), gotBank := none, gotTicks := [] }

/-- Size of a set by its kind. -/
def setSize (kind : Nat) : Nat := if kind = 0 then 0x1e000 else 512

/-- The code of a refusal cause in a push entry: R262 names the causes and numbers none of them. -/
def pushCause (k : Nat) : Nat := Config.pushCause k % 256

/-- The session epoch of a port. -/
def Chip.portEpoch (c : Chip) (n : Nat) : Nat := match (c.port n).session with | some s => s.epoch | none => 0

/-- Step 2 for one entry: its set is checked, and loading begins (R262, R263). -/
def Chip.pushLoad (c : Chip) (e : PushEntry) : Chip :=
  match c.tileOf e.wdn with
  | none => c.entryEnds e 3 1 0
  | some x =>
    let set_ := c.gPeek e.src (setSize e.kind)
    let c := c.gReadCount e.src (setSize e.kind)
    if set_.2 then c.entryEnds e 3 1 0
    else
      match c.setBad e.kind set_.1 x.2 with
      | some b => c.entryEnds e 2 (pushCause b.1) b.2
      | none =>
        let e := { e with mark := (c.portEpoch x.1, x.2.admitTick) }
        if e.kind = 0 then
          ((c.putEntry' { e with waits := 1 }).tileRead x.1 e.wdn Reg.CORR_CFG 1).tileRead x.1 e.wdn Reg.CORR_STAT 1
        else
          let gs := trimGroups x.2.desc
          (c.putEntry' { e with waits := gs.length }).each gs fun c g => c.tileWrite x.1 e.wdn (Reg.LAMP_TRIM g 0) (trimWords set_.1 g)

/-- The push is over (R263): its state, its count of switched entries. -/
def Chip.pushEnd (c : Chip) (state : Nat) : Chip :=
  let n := (c.pushEntries.filter fun e => e.status == 1).length
  ((c.put .HALO_PUSH_STAT_STATE state).put .HALO_PUSH_STAT_SWITCHED n).onHalo fun h => { h with push := none, cards := [] }

/-- A push starts at tick T (step 1 and 2 of R263). `job` says that the calibration job runs it. Answers whether it runs: with
the page disabled it stops before its next step. COUNT 0 is looked at before T (DESIGN CHOICE, log entry 187). -/
def Chip.pushStart (c : Chip) (base cnt t : Nat) (all job : Bool) : Chip × Bool :=
  if c.halo.push.isSome || !c.halo.cards.isEmpty || (c.halo.job.isSome && !job) then (c.put .HALO_PUSH_STAT_CAUSE 2, false)
  else if cnt = 0 then
    ((((c.put .HALO_PUSH_STAT_CAUSE 0).put .HALO_PUSH_STAT_STATE 5).put .HALO_PUSH_STAT_SWITCHED 0).raise .HALO_PUSH_DONE, false)
  else if t < c.lastIndex + 64 then (c.put .HALO_PUSH_STAT_CAUSE 1, false)
  else
    let es := (List.range (min cnt 4096)).map (c.readEntry base)
    let c := ((c.put .HALO_PUSH_STAT_CAUSE 0).put .HALO_PUSH_STAT_STATE 1).put .HALO_PUSH_STAT_SWITCHED 0
    let c := c.onHalo fun h => { h with push := some ⟨t, all, base, es, job, false⟩ }
    if c.enabled 0x48 then (c.each es Chip.pushLoad, true) else (c.pushEnd 6, false)

/-- An entry whose set lies whole in the tile. -/
def PushEntry.loaded (e : PushEntry) : Bool := e.status == 0 && e.waits == 0

/-- The push stops before step 4: entries not yet decided become ABORTED (R263, HALO_PUSH_CTRL.ABORT). -/
def Chip.pushAbort (c : Chip) (cause : Nat) : Chip :=
  match c.halo.push with
  | none => c
  | some p =>
    if p.decided then c
    else
      let c := c.each (p.entries.filter fun e => e.status == 0) fun c e => c.entryEnds e 5 0 0
      ((c.pushEnd 6).put .HALO_PUSH_STAT_CAUSE cause).raise .HALO_PUSH_ABORT

/-- The decision at tick T − 8 (steps 3 and 4 of R263). -/
def Chip.pushDecide (c : Chip) : Chip :=
  match c.halo.push with
  | none => c
  | some p =>
    if p.decided || decide (c.lastIndex + 8 < p.t) then c
    else
      let late := p.entries.filter fun e => e.status == 0 && !e.loaded
      let c := c.each late fun c e => c.entryEnds e 3 (pushCause 7) 0
      let bad := c.pushEntries.any fun e => e.status == 2 || e.status == 3
      if p.all && bad then c.pushAbort 0
      else
        let c := (c.onPush fun p => { p with decided := true }).put .HALO_PUSH_STAT_STATE 2
        c.each (c.pushEntries.filter PushEntry.loaded) fun c e =>
          match c.tileOf e.wdn with
          | none => c
          | some x => c.tileRead x.1 e.wdn Reg.CRIER_FAB_REL_TICK_LO 3

/-- The pages that an entry's settings lie in: CORR, or the groups that have trims. -/
def Chip.entryPages (c : Chip) (e : PushEntry) : List Nat :=
  if e.kind = 0 then [0xa1]
  else match c.tileOf e.wdn with
    | none => []
    | some x => (trimGroups x.2.desc).map (0xa2 + ·)

/-- Step 4 for one tile: the named release T, the hold, the commits, the release; HOLD_BUSY when the tile has a release for
another tick pending. Past T − 4 nothing is sent any more, and the entry ends NOT_CONFIRMED (DEDUCED, log entry 197). `d` is
REL_TICK_LO, REL_TICK_HI and FAB_STAT as read. -/
def Chip.pushArm (c : Chip) (n : Nat) (p : Push) (e : PushEntry) (d : List Byte) : Chip :=
  let t := leNat (d.take 8)
  if bitAt (leNat (d.drop 8)) 31 && t != p.t then c.entryEnds e 6 0 0
  else if p.t < c.lastIndex + 4 then c
  else
    let c := c.tileWrite n e.wdn Reg.CRIER_FAB_REL_TICK_LO [p.t % 2 ^ 32, p.t / 2 ^ 32]
    let c := c.tileWrite n e.wdn Reg.CRIER_FAB_HOLD [1]
    let c := c.when (e.kind == 0) fun c => c.tileWrite n e.wdn Reg.CORR_CFG [setBitAt (e.cfg % 1024) 8 (e.bank == 1)]
    let c := c.each (c.entryPages e) fun c g => c.tileWrite n e.wdn (Reg.PG_COMMIT g) [1]
    (c.tileWrite n e.wdn Reg.CRIER_FAB_HOLD [2]).putEntry' { e with armed := true }

/-- The entry of the push in progress that a completion of tile `wdn` bears on. -/
def Chip.entryOf (c : Chip) (wdn : Nat) (p : PushEntry → Bool) : Option PushEntry :=
  c.pushEntries.find? fun e => e.wdn == wdn && e.status == 0 && p e

/-- A load cell of an entry completed. -/
def Chip.pushLoaded (c : Chip) (e : PushEntry) (status : Nat) : Chip :=
  if status ≠ 0 then c.entryEnds e 3 status 0 else c.putEntry' { e with waits := e.waits - 1 }

/-- A completion of a firmware command of the push (R263): CORR_CFG and CORR_STAT read, load cells, the tile's release state,
the values read back at T. -/
def Chip.pushDone (c : Chip) (n wdn : Nat) (f : InFlight) (status : Nat) (d : List Byte) : Chip :=
  match c.halo.push with
  | none => c
  | some p =>
    let op := f.cmd.op
    let a := f.cmd.addr
    if op = 1 ∧ p.decided = false ∧ a = Reg.CORR_CFG then
      match c.entryOf wdn fun e => e.kind == 0 && e.bank == 2 with
      | none => c
      | some e => if status ≠ 0 then c.entryEnds e 3 status 0 else c.putEntry' { e with cfg := leNat d }
    else if op = 1 ∧ p.decided = false ∧ a = Reg.CORR_STAT then
      match c.entryOf wdn fun e => e.kind == 0 && e.bank == 2 with
      | none => c
      | some e =>
        if status ≠ 0 then c.entryEnds e 3 status 0
        else
          let b := if bitAt (leNat d) 8 then 0 else 1
          (c.putEntry' { e with bank := b, waits := 30 }).tileBulk n wdn (0x100000 + 0x20000 * b) (c.gPeek e.src 0x1e000).1
    else if op = 3 ∧ a < 0x140000 then
      match c.entryOf wdn fun e => e.kind == 0 && e.bank != 2 && e.waits != 0 with
      | none => c
      | some e => c.pushLoaded e status
    else if op = 2 ∧ p.decided = false ∧ (List.range 4).any (fun g => a == Reg.LAMP_TRIM g 0) = true then
      match c.entryOf wdn fun e => e.kind == 1 && e.waits != 0 with
      | none => c
      | some e => c.pushLoaded e status
    else if op = 1 ∧ p.decided = true ∧ a = Reg.CRIER_FAB_REL_TICK_LO then
      match c.entryOf wdn fun e => e.loaded && !e.armed with
      | none => c
      | some e => if status = 0 then c.pushArm n p e d else c
    else if op = 1 ∧ p.decided = true ∧ status = 0 then
      c.each (p.entries.filter fun e => e.wdn == wdn && e.armed) fun c e =>
        if a = Reg.CORR_STAT then c.putEntry' { e with gotBank := some (leNat d / 256 % 2) }
        else c.putEntry' { e with gotTicks := (a, leNat d / 65536) :: e.gotTicks }
    else c

/-- After tick T the sender reads each armed tile's bank and applied ticks (step 5 of R263). -/
def Chip.pushTick (c : Chip) (n : Nat) : Chip :=
  match c.halo.push with
  | none => c
  | some p =>
    if p.t ≠ n ∨ p.decided = false then c
    else
      c.each (p.entries.filter fun e => e.armed && e.status == 0) fun c e =>
        match c.tileOf e.wdn with
        | none => c
        | some x =>
          let c := c.each (c.entryPages e) fun c g => c.tileRead x.1 e.wdn (Reg.PG_COMMIT g) 1
          if e.kind = 0 then c.tileRead x.1 e.wdn Reg.CORR_STAT 1 else c

/-- An entry is confirmed: the new bank and tick are in force, and the tile was neither lost, rebooted nor re-keyed since it
was loaded (R263). -/
def Chip.pushConfirmed (c : Chip) (p : Push) (e : PushEntry) : Bool :=
  e.armed && (e.kind != 0 || e.gotBank == some e.bank) &&
    ((c.entryPages e).all fun g => assoc e.gotTicks (Reg.PG_COMMIT g) == some (p.t % 65536)) &&
    match c.tileOf e.wdn with
    | none => false
    | some x => e.mark == (c.portEpoch x.1, x.2.admitTick)

/-- The push is done: PUSH_DONE (step 6 of R263). -/
def Chip.pushFinish (c : Chip) : Chip := (c.pushEnd 5).raise .HALO_PUSH_DONE

/-- T + 2: entries become SWITCHED or NOT_CONFIRMED, and the panel cards of WRITE_CARD entries are written (R263, R270). -/
def Chip.pushConfirm (c : Chip) : Chip :=
  match c.halo.push with
  | none => c
  | some p =>
    if !p.decided || decide (c.lastIndex < p.t + 2) || c.get .HALO_PUSH_STAT_STATE == 4 then c
    else
      let c := c.put .HALO_PUSH_STAT_STATE 3
      let c := c.each (p.entries.filter fun e => e.status == 0) fun c e =>
        c.entryEnds e (if c.pushConfirmed p e then 1 else 4) 0 0
      let cards := (c.pushEntries.filter fun e => e.status == 1 && bitAt e.flags 0).map (·.idx)
      if cards.isEmpty then c.pushFinish
      else
        let n := (c.pushEntries.filter fun e => e.status == 1).length
        ((c.put .HALO_PUSH_STAT_STATE 4).put .HALO_PUSH_STAT_SWITCHED n).onHalo fun h => { h with cards := cards }

/-- What a finished card write leaves on the panel card of the entry's tile: the set switched to, beside the other section
(R268, R270). -/
def Chip.cardWritten (c : Chip) (i : Nat) : Chip :=
  match c.pushEntries.find? fun e => e.idx == i with
  | none => c
  | some e =>
    match c.tileOf e.wdn, c.halo.push with
    | some x, some p =>
      let old : CalRec := x.2.card.getD ⟨0, x.2.serial, none, none⟩
      let set_ := (c.gPeek e.src (setSize e.kind)).1
      let new := { old with time := c.gLe (p.base + 64 * i + 0x20) 8 }
      let rec_ := if e.kind = 0 then { new with coeff := some set_ } else { new with serial := x.2.serial, trims := some set_ }
      c.putDev x.1 { x.2 with card := some rec_ }
    | _, _ => c

/-- A write that fails after it has set MAGIC to 0 leaves no valid record (R270, DEDUCED, log entry 197). -/
def Chip.cardSpoilt (c : Chip) (wdn : Nat) : Chip :=
  match c.tileOf wdn with
  | none => c
  | some x => c.putDev x.1 { x.2 with card := none }

/-- A panel card write is over (R270). Answers whether it was the push's last. -/
def Chip.cardDone (c : Chip) (i : Nat) (ok : Bool) : Chip × Bool :=
  if c.halo.cards.contains i then
    let c := c.onHalo fun h => { h with cards := h.cards.filter (· != i) }
    let c := if ok then c.cardWritten i
      else
        match c.pushEntries.find? fun e => e.idx == i with
        | none => c
        | some e => ((c.putEntry' { e with cause := pushCause 6 }).cardSpoilt e.wdn).raise .HALO_CARD_FAIL
    if c.halo.cards.isEmpty then (c.pushFinish, true) else (c, false)
  else (c, false)

/-! ### The calibration job (R260, R261) -/

/-- Change the job. -/
def Chip.onJob (c : Chip) (f : Job → Job) : Chip := c.onHalo fun h => { h with job := h.job.map f }

/-- State of the job (HALO_JOB_STAT.STATE): 1 REGISTER, 2 MEASURE, 3 COMPUTE, 4 PUSH, 5 VERIFY, 6 DONE, 7 FAILED. -/
def Chip.setJob (c : Chip) (n : Nat) : Chip := (c.put .HALO_JOB_STAT_STATE n).put .HALO_JOB_STAT_TILES 0

/-- The job fails with a cause (R261). Its patterns give way to the canvas. -/
def Chip.jobFail (c : Chip) (cause : Nat) : Chip :=
  if c.halo.job.isSome then
    (((c.setJob 7).put .HALO_JOB_STAT_CAUSE cause).onHalo fun h => { h with job := none }).raise .HALO_JOB_FAIL
  else c

/-- The record at an address, if it breaks no rule of R260's table. WORK must have room for its least size below the Granary's
top, and a poisoned record breaks the table (DEDUCED, log entry 198). -/
def Chip.readJob (c : Chip) (a : Nat) : Option Job :=
  let n := fun o k => c.gLe (a + o) k
  let poison := (c.gPeek a 128).2
  let size := 48 * (n 0xc 2 / n 5 1) * (n 0xe 2 / n 5 1) + 2 ^ 20
  let tiles := (List.range (n 0x12 2)).map fun i => c.gLe (n 0x18 8 + 2 * i) 2
  if poison || n 0 4 != 0x314a4348 || decide (7 < n 4 1) || !([1, 2, 4, 8].contains (n 5 1)) || n 6 2 == 0 ||
      decide (n 0x10 2 < 1 ∨ 4095 < n 0x10 2) || decide (n 0x12 2 < 1 ∨ 64 < n 0x12 2) || decide (4 ≤ n 0x14 4) ||
      n 0x68 8 % 4096 != 0 || c.belowTop (n 0x68 8) size != size || n 0x78 8 != 0 then none
  else some
    { sensor := n 4 1, bin := n 5 1, frames := n 6 2, win := (n 8 2, n 10 2, n 12 2, n 14 2), level := n 0x10 2, flags := n 0x14 4
      tiles := tiles, work := n 0x68 8, out := n 0x70 8, cfgs := [], left := tiles, pattern := none, started := false }

/-- BIN's code. -/
def binCode (b : Nat) : Nat := Nat.log2 b

/-- The job is done. -/
def Chip.jobDone (c : Chip) : Chip :=
  (((c.setJob 6).put .HALO_JOB_STAT_CAUSE 0).onHalo fun h => { h with job := none }).raise .HALO_JOB_DONE

/-- Once every tile's CORR_CFG is read: in step 1 the first pattern is due; after step 6 the verify pass begins or the job ends
(R260). -/
def Chip.jobReady (c : Chip) : Chip :=
  match c.halo.job with
  | none => c
  | some j =>
    let st := c.get .HALO_JOB_STAT_STATE
    if !j.left.isEmpty then c
    else if st = 1 ∧ j.pattern = none then c.onJob fun j => { j with pattern := some 0, started := false }
    else if st = 4 ∧ c.halo.push = none then
      if bitAt j.flags 0 then (c.setJob 5).onJob fun j => { j with pattern := some 64, started := false } else c.jobDone
    else c

/-- The CORR_CFG of the listed tiles in service is asked for (steps 1 and 6). -/
def Chip.jobAsk (c : Chip) : Chip :=
  match c.halo.job with
  | none => c
  | some j =>
    let here := j.tiles.filter fun w => (c.tileOf w).isSome
    let c := (c.onJob fun j => { j with left := here }).each here fun c w =>
      match c.tileOf w with
      | none => c
      | some x => c.tileRead x.1 w Reg.CORR_CFG 1
    c.jobReady

/-- A write of HALO_JOB_CTRL.START (R260, R261). It is refused with cause BUSY while a job, a run or a push is in progress, and
several causes show in the order DISABLED, MODE, FORMAT (DESIGN CHOICE, log entry 188). -/
def Chip.jobStart (c : Chip) : Chip :=
  if c.halo.job.isSome || c.accBusy || c.halo.push.isSome then c.put .HALO_JOB_STAT_CAUSE 9
  else
    let a := c.nat Reg.HALO_JOB_LO / 256 * 256 + 2 ^ 32 * c.get .HALO_JOB_HI_ADDR
    let fail := fun (k : Nat) => ((c.setJob 7).put .HALO_JOB_STAT_CAUSE k).raise .HALO_JOB_FAIL
    if c.enabled 0x48 = false then fail 10
    else if c.mode ≠ 5 then fail 2
    else
      match c.readJob a with
      | none => fail 1
      | some j =>
        (((c.setJob 1).put .HALO_JOB_STAT_CAUSE 0).onHalo fun h => { h with job := some j }).jobAsk

/-- Tick n begins sending a due pattern. The tiles first show it at n + 1, and its run starts 2 ticks after that (R260). -/
def Chip.jobTick (c : Chip) (n : Nat) : Chip :=
  match c.halo.job with
  | none => c
  | some j =>
    match j.pattern with
    | none => c
    | some k =>
      if j.started then c
      else
        let f := if k < 64 then max 8 (j.frames / 32) else j.frames
        let c := c.setNat Reg.HALO_ACC_SRC (binCode j.bin * 256 + j.sensor)
        let c := (c.setNat Reg.HALO_ACC_WIN_POS (j.win.2.1 * 65536 + j.win.1)).setNat Reg.HALO_ACC_WIN_SIZE
          (j.win.2.2.2 * 65536 + j.win.2.2.1)
        let c := (c.setNat Reg.HALO_ACC_FRAMES f).setPair Reg.HALO_ACC_BASE_LO Reg.HALO_ACC_BASE_HI j.work
        let c := (c.setPair Reg.HALO_ACC_START_LO Reg.HALO_ACC_START_HI (n + 3)).onJob fun j => { j with started := true }
        let c := c.accStart true
        if c.halo.zeroing then c else c.jobFail 6

/-- A quality figure the spec gives no exact value for (R265): 4 bytes. -/
def Chip.figure (c : Chip) (a : Nat) : Chip := (c.gWrite a (leBytes 4 c.drawn)).redraw

/-- BYPASS_M is written on a listed tile (steps 1 and 6). -/
def Chip.jobBypass (c : Chip) (w cfg : Nat) : Chip :=
  match c.tileOf w with
  | none => c
  | some x => (c.tileWrite x.1 w Reg.CORR_CFG [cfg]).tileWrite x.1 w (Reg.PG_COMMIT 0xa1) [1]

/-- A pattern of the job is measured: the next pattern, the computation, or the end of the verify pass (R260). -/
def Chip.jobAdvance (c : Chip) : Chip :=
  match c.halo.job with
  | none => c
  | some j =>
    let set := fun (c : Chip) (p : Option Nat) => c.onJob fun j => { j with pattern := p, started := false }
    match j.pattern with
    | none => c
    | some 63 => (set c (some 64)).setJob 2
    | some 67 =>
      if c.get .HALO_JOB_STAT_STATE = 5 then
        (c.each (List.range j.tiles.length) fun c i => (c.figure (j.out + 64 * i + 0x10)).figure (j.out + 64 * i + 0x14)).jobDone
      else (set c none).setJob 3
    | some k => set c (some (k + 1))

/-- A run of the job is done. Before a measured pattern gives way, each listed tile is asked for its LAMP_ILIM_STAT (R261). -/
def Chip.jobNext (c : Chip) : Chip :=
  match c.halo.job with
  | none => c
  | some j =>
    let here := j.tiles.filter fun w => decide (64 ≤ j.pattern.getD 0) && (c.tileOf w).isSome
    let c := (c.onJob fun j => { j with left := here }).each here fun c w =>
      match c.tileOf w with
      | none => c
      | some x => c.tileRead x.1 w Reg.LAMP_ILIM_STAT 1
    if here.isEmpty then c.jobAdvance else c

/-- One entry the job writes at OUT: the set's address, its bytes, the residual and earlier figures (R260, R263, R265). -/
def Chip.jobEntry (c : Chip) (j : Job) (i : Nat) (src : Nat) (set_ : List Byte) (figs : List Nat) : Chip :=
  let w := listAt j.tiles i 0
  let c := c.gWrite src set_
  c.gWrite (j.out + 64 * i) (leBytes 2 w ++ leBytes 1 0 ++ leBytes 1 (if bitAt j.flags 0 then 0 else 2) ++ leBytes 4 0 ++ leBytes 8 src ++
    ((List.range 4).flatMap fun k => leBytes 4 (listAt figs k 0)) ++ leBytes 8 (secOf c.bell.time) ++ List.replicate 24 0)

/-- The firmware's computation ends (R260, R261): `fail` 3 RESOLUTION or 4 NOT_FOUND; else the sets and the push list are in
memory and the push runs at the tick in HALO_JOB_TICK. -/
def Chip.jobComputed (c : Chip) (fail : Nat) (sets : List (Nat × List Byte × List Nat)) : Chip :=
  match c.halo.job with
  | none => c
  | some j =>
    if fail = 3 ∨ fail = 4 then if c.get .HALO_JOB_STAT_STATE < 4 then c.jobFail fail else c
    else if c.get .HALO_JOB_STAT_STATE ≠ 3 then c
    else
      let c := c.each (List.range j.tiles.length) fun c i =>
        let s := listAt sets i (0, [], [])
        c.jobEntry j i s.1 s.2.1 s.2.2
      let r := (c.setJob 4).pushStart j.out j.tiles.length (c.pair Reg.HALO_JOB_TICK_LO Reg.HALO_JOB_TICK_HI) false true
      if r.2 then r.1 else r.1.jobFail 7

/-- The job's push is over: BYPASS_M is restored on the listed tiles (step 6 of R260). -/
def Chip.jobPushed (c : Chip) : Chip := if c.get .HALO_JOB_STAT_STATE = 4 then c.jobAsk else c

/-- Completions of the job's reads (R260, R261): CORR_CFG in steps 1 and 6; LAMP_ILIM_STAT of a measured pattern, whose LIMK
below 65,536 fails the job. -/
def Chip.jobAnswer (c : Chip) (wdn : Nat) (f : InFlight) (status : Nat) (d : List Byte) : Chip :=
  match c.halo.job with
  | none => c
  | some j =>
    if f.cmd.op = 1 ∧ f.cmd.addr = Reg.CORR_CFG ∧ j.left.contains wdn = true then
      let c := c.onJob fun j => { j with left := j.left.filter (· != wdn) }
      let c := if status ≠ 0 then c
        else if c.get .HALO_JOB_STAT_STATE = 1 then
          (c.onJob fun j => { j with cfgs := (wdn, leNat d) :: j.cfgs }).jobBypass wdn (setBitAt (leNat d) 4 true)
        else match assoc j.cfgs wdn with
          | some old => c.jobBypass wdn (setBitAt (leNat d) 4 (bitAt old 4))
          | none => c
      c.jobReady
    else if f.cmd.op = 1 ∧ f.cmd.addr = Reg.LAMP_ILIM_STAT ∧ j.left.contains wdn = true then
      let left := j.left.filter (· != wdn)
      let c := c.onJob fun j => { j with left := left }
      if status = 0 ∧ leNat d % 2 ^ 17 < 65536 then c.jobFail 5 else if left.isEmpty then c.jobAdvance else c
    else c

/-! ### Ends of runs, jobs and pushes -/

/-- A run in progress ends ABORTED with a cause; a job ends with it (R259, R261). -/
def Chip.accAbort (c : Chip) (cause : Nat) : Chip :=
  if c.accBusy then
    let c := c.onHalo fun h => { h with zeroing := false }
    (((c.put .HALO_ACC_STAT_STATE 4).put .HALO_ACC_STAT_CAUSE cause).raise .HALO_RUN_ABORT).jobFail 6
  else c

/-- ACC_ZEROED (R259): with the page disabled the armed run ends at once. -/
def Chip.accZeroed (c : Chip) : Chip :=
  let c := c.zeroElapse.accArm
  if c.accState = 1 ∧ c.enabled 0x48 = false then c.accAbort 8 else c

/-- No accepted frame for 1 s, counted from the arming where none has come (R259). -/
def Chip.accNoFrames (c : Chip) : Chip :=
  if (c.accState = 1 ∨ c.accState = 2) ∧ c.halo.zeroing = false ∧ 65536000000000 ≤ c.age - c.halo.frameAt then c.accAbort 6 else c

/-- Service mode is left: run and job end with cause MODE (R259, R261). -/
def Chip.haloLeave (c : Chip) : Chip := if c.mode = 5 then c else (c.jobFail 2).accAbort 4

/-- The push ends with PUSH_ABORT; a job whose push it was fails (R261). -/
def Chip.pushStop (c : Chip) (cause : Nat) : Chip :=
  match c.halo.push with
  | none => c
  | some p => if p.decided then c else (c.pushAbort cause).when p.job fun c => c.jobFail 7

/-- A push decision, with what follows for a job (R261, R263). -/
def Chip.pushDecision (c : Chip) : Chip :=
  let job := match c.halo.push with | some p => p.job | none => false
  let c := c.pushDecide
  c.when (job && c.halo.push.isNone) fun c => c.jobFail 7

/-- The confirmation, with what follows for a job. -/
def Chip.pushConfirmation (c : Chip) : Chip :=
  let job := match c.halo.push with | some p => p.job | none => false
  let c := c.pushConfirm
  c.when (job && c.halo.push.isNone) Chip.jobPushed

/-- The end of a panel card write, with what follows for a job. -/
def Chip.cardWriteDone (c : Chip) (i : Nat) (ok : Bool) : Chip :=
  let r := c.cardDone i ok
  r.1.when r.2 Chip.jobPushed

/-- The HALO page goes off: run and job end with cause DISABLED, the push stops before its next step; its entries keep the
status they have, HALO_PUSH_STAT reads ABORTED with cause 0, and no event is raised (DESIGN CHOICE, log entry 187). -/
def Chip.haloOff (c : Chip) : Chip :=
  let c := (c.jobFail 10).accAbort 8
  if c.halo.push.isSome || !c.halo.cards.isEmpty then c.pushEnd 6 else c

/-! ### The frame watchdog (R251–R253) -/

/-- A packet header by its ECC (R252): 0 good, 1 corrected, 2 uncorrectable. Answers whether the packet goes on. -/
def Chip.csiHeader (c : Chip) (p ecc : Nat) : Chip × Bool :=
  if ecc = 0 then (c, true)
  else if ecc = 1 then (c.count (Reg.CSI_ECC_CORR p), true)
  else ((c.count (Reg.CSI_ECC_ERR p)).raise (.CSI_ECC_ERR p), false)

/-- A packet outside the supported subset is discarded and counted (R251). -/
def Chip.csiOutside (c : Chip) (p : Nat) : Chip := c.count (Reg.CSI_FRAME_DROP p)

/-- Does the run take frames of this sensor? -/
def Chip.accTakes (c : Chip) (v : Nat) : Bool :=
  (c.accState == 1 || c.accState == 2) && !c.halo.zeroing && c.get .HALO_ACC_SRC_SENSOR == v

/-- A frame is discarded whole (R253). -/
def Chip.csiDrop (c : Chip) (v cause : Nat) : Chip :=
  let p := v / 4
  let c := ((c.count (Reg.CSI_FRAME_DROP p)).put (.CSI_VC_STAT_CAUSE p (v % 4)) cause).raise (.CSI_FRAME_DROP p)
  let c := c.onSensor v fun s => { s with frame := none }
  let c := c.when (c.accTakes v) fun c => c.count Reg.HALO_ACC_DISCARD
  c.liveBad v

/-- A frame start packet of a received virtual channel (R253, R256). -/
def Chip.csiStart (c : Chip) (v num : Nat) : Chip :=
  let c := c.when (c.sensor v).frame.isSome fun c => c.csiDrop v 6
  let c := c.onSensor v fun s =>
    { s with working := s.pending.getD s.working, pending := none
             frame := some ⟨num, c.age, c.bell.tick, c.enabled 0x48, [], 0⟩ }
  c.put (.HALO_S_STAT_PENDING v) 0

/-- The first rule a frame breaks is kept. -/
def CsiFrame.broke (f : CsiFrame) (k : Nat) : CsiFrame := if f.cause = 0 then { f with cause := k } else f

/-- A long packet of the configured data type (R252, R253). -/
def Chip.csiLine (c : Chip) (v : Nat) (crc : Bool) (codes : List Nat) : Chip :=
  let p := v / 4
  let c := c.when (!crc) fun c => (c.count (Reg.CSI_CRC_ERR p)).raise (.CSI_CRC_ERR p)
  let w := c.get (.CSI_VC_SIZE_WIDTH p (v % 4))
  let h := c.get (.CSI_VC_SIZE_HEIGHT p (v % 4))
  c.onSensor v fun s => { s with frame := s.frame.map fun f =>
    let f := if crc then f else f.broke 4
    let f := if codes.length = w then f else f.broke 3
    let f := if f.lines.length < h then f else f.broke 2
    { f with lines := codes :: f.lines } }

/-- An accepted frame: the ISP, the live feeds, the accumulator (R150, R253–R259). A frame whose start found the HALO page
disabled goes no further, and HALO_Sv_STAT.FRAMES does not count it (DEDUCED, log entry 199). -/
def Chip.csiAccept (c : Chip) (v : Nat) (f : CsiFrame) : Chip :=
  let p := v / 4
  let c := (c.onSensor v fun s => { s with frame := none }).put (.CSI_VC_STAT_FRAME_NUM p (v % 4)) f.num
  if !f.isp then c
  else
    let c := c.put (.HALO_S_STAT_FRAMES v) (c.get (.HALO_S_STAT_FRAMES v) + 1)
    let rows := ispFrame (c.sensor v).working (c.get (.CSI_VC_CFG_DT p (v % 4))) f.lines.reverse
    let c := c.liveFrame v rows
    let due := match f.tick with | some n => decide (c.halo.startTick ≤ n) | none => false
    if c.accTakes v && (c.accState == 2 || due) then
      let r := c.accumulate rows
      r.1.when r.2 Chip.jobNext
    else c.when (c.accTakes v) fun c => c.onHalo fun h => { h with frameAt := c.age }

/-- CSI_VCn_TMO in sub-nanoseconds, none for 0. -/
def Chip.csiTmo (c : Chip) (v : Nat) : Option Nat :=
  let t := c.get (.CSI_VC_TMO_MS (v / 4) (v % 4))
  if t = 0 then none else some (t * 65536000000)

/-- The watchdog's time is past for a frame. -/
def Chip.csiLate (c : Chip) (v : Nat) (f : CsiFrame) : Bool :=
  match c.csiTmo v with | some t => decide (t < c.age - f.at_) | none => false

/-- A size a virtual channel can have (R251). -/
def sizeOk (n : Nat) : Bool := decide (16 ≤ n) && decide (n ≤ 8192)

/-- A frame end packet closes the frame (R253). A frame that breaks several rules shows SIZE, else TIMEOUT, else the first of CRC,
WIDTH and LINES that its packets broke (in that order within a packet), else too few LINES, else FRAME_NUM (DESIGN CHOICE, log
entry 189). -/
def Chip.csiEnd (c : Chip) (v num : Nat) : Chip :=
  match (c.sensor v).frame with
  | none => c
  | some f =>
    let h := c.get (.CSI_VC_SIZE_HEIGHT (v / 4) (v % 4))
    if !sizeOk h || !sizeOk (c.get (.CSI_VC_SIZE_WIDTH (v / 4) (v % 4))) then c.csiDrop v 7
    else if c.csiLate v f then c.csiDrop v 1
    else if f.cause ≠ 0 then c.csiDrop v f.cause
    else if f.lines.length ≠ h then c.csiDrop v 2
    else if f.num ≠ num then c.csiDrop v 5
    else c.csiAccept v f

/-- The watchdog's time passes with the frame still open (R253). -/
def Chip.csiTimeout (c : Chip) (v : Nat) : Chip :=
  match (c.sensor v).frame with
  | none => c
  | some f => if c.csiLate v f then c.csiDrop v 1 else c

/-- Data types discarded uncounted (R251): generic long packets, embedded data, user-defined. -/
def csiIgnored (dt : Nat) : Bool := decide (0x10 ≤ dt ∧ dt ≤ 0x17) || decide (0x30 ≤ dt ∧ dt ≤ 0x37) || decide (0x08 ≤ dt ∧ dt ≤ 0x0f)

/-- A packet of virtual channel `vc` of port `p` is received: the page is on, its header stands, its VC extension is 0. -/
def Chip.csiPacket (c : Chip) (p vc ext ecc : Nat) (f : Chip → Chip) : Chip :=
  if !c.enabled (0x49 + p) then c
  else
    let r := c.csiHeader p ecc
    if !r.2 then r.1
    else if ext ≠ 0 then r.1.csiOutside p
    else if r.1.vcOn (4 * p + vc) then f r.1 else r.1

/-- A long packet: only the configured data type makes lines (R251, R253). -/
def Chip.csiLong (c : Chip) (p vc dt : Nat) (crc : Bool) (codes : List Nat) : Chip :=
  if dt = c.get (.CSI_VC_CFG_DT p vc) then c.csiLine (4 * p + vc) crc codes
  else if csiIgnored dt || (decide (0x2b ≤ dt) && decide (dt ≤ 0x2d)) then c
  else c.csiOutside p

/-- The CSI page goes off: open frames are discarded with cause DISABLED. -/
def Chip.csiOff (c : Chip) (p : Nat) : Chip :=
  let c := c.each (List.range 4) fun c k => c.when (c.sensor (4 * p + k)).frame.isSome fun c => c.csiDrop (4 * p + k) 8
  ((c.put (.CSI_STAT_ACTIVE p) 0).put (.CSI_STAT_SKEW_OK p) 0).put (.CSI_STAT_STOP p) 0

/-- A write of HALO_Sv_APPLY (R256). -/
def Chip.sensorApply (c : Chip) (v : Nat) : Chip :=
  (c.onSensor v fun s => { s with pending := some (c.staging v) }).put (.HALO_S_STAT_PENDING v) 1

/-! ### Calibration at a tile's start (R269, R446) -/

/-- The sets R269 chooses for a tile: coefficients and trims. -/
def calChoice (serial : Nat) (store card : Option CalRec) : Option (List Byte) × Option (List Byte) :=
  match store, card with
  | none, none => (none, none)
  | some s, none => (s.coeff, s.trims)
  | none, some k => (k.coeff, if k.serial = serial then k.trims else none)
  | some s, some k =>
    if s.time < k.time then (k.coeff, if k.serial = serial then k.trims else s.trims) else (s.coeff, s.trims)

/-- A chosen set passes R262, or is refused with CAL_REFUSED (R269). -/
def Chip.calPass (c : Chip) (kind : Nat) (d : Dev) (set_ : Option (List Byte)) : Chip × Option (List Byte) :=
  match set_ with
  | none => (c, none)
  | some s => if (c.setBad kind s d).isSome then (c.raise .HALO_CAL_REFUSED, none) else (c, some s)

/-- The sender asks for the tile's CORR_CFG and CORR_STAT before it loads (R446). -/
def Chip.calAsk (c : Chip) (n : Nat) (d : Dev) (l : CalLoad) : Chip :=
  let c := c.onHalo fun h => { h with cals := h.cals.filter (fun x => x.serial != d.serial) ++ [{ l with cfg := none }] }
  (c.tileRead n d.wdn Reg.CORR_CFG 1).tileRead n d.wdn Reg.CORR_STAT 1

/-- A tile has booted: its calibration is chosen and its loading begins (R269). -/
def Chip.calBegin (c : Chip) (n : Nat) (d : Dev) : Chip :=
  let ch := calChoice d.serial (assoc c.store.cals d.serial) d.card
  let a := c.calPass 0 d ch.1
  let b := a.1.calPass 1 d ch.2
  (b.1.putDev n { d with cal := 1 }).calAsk n d ⟨d.serial, none, a.2, b.2⟩

/-- Every tile that has booted and has no calibration yet begins its loads (R269). -/
def Chip.calWaiting (c : Chip) : Chip :=
  c.each (List.range 16) fun c n =>
    c.each ((c.port n).devs.filter fun d => d.st == .booted && d.cal == 0) fun c d => c.calBegin n d

/-- WTF of the wall changes: every tile in service takes the new decode curve (R446). -/
def Chip.calCurves (c : Chip) : Chip :=
  c.each (List.range 16) fun c n => c.each (c.serving n) fun c d => c.calAsk n d ⟨d.serial, none, none, none⟩

/-- The decode curve of the transfer function in force as bytes: three equal curves (R446). -/
def Chip.curveBytes (c : Chip) : List Byte :=
  let one := (List.range 4096).flatMap fun k => half (tileCurve (c.get .SCAN_CODE_WTF != 0) k)
  one ++ one ++ one

/-- The loads of R446: the curve and the coefficients into the banks that are not in force, CORR_CFG, the commit; then the
trims. -/
def Chip.calSend (c : Chip) (n : Nat) (d : Dev) (l : CalLoad) (cfg stat : Nat) : Chip :=
  let lb := if bitAt stat 9 then 0 else 1
  let cb := if bitAt stat 8 then 0 else 1
  let c := c.tileBulk n d.wdn (0x140000 + 0x8000 * lb) c.curveBytes
  let c := match l.coeff with | some s => c.tileBulk n d.wdn (0x100000 + 0x20000 * cb) s | none => c
  let cfg := setBitAt (cfg % 1024) 9 (lb == 1)
  let cfg := if l.coeff.isSome then setBitAt cfg 8 (cb == 1) else cfg
  let c := (c.tileWrite n d.wdn Reg.CORR_CFG [cfg]).tileWrite n d.wdn (Reg.PG_COMMIT 0xa1) [1]
  match l.trims with
  | none => c
  | some s => c.each (trimGroups d.desc) fun c g =>
      (c.tileWrite n d.wdn (Reg.LAMP_TRIM g 0) (trimWords s g)).tileWrite n d.wdn (Reg.PG_COMMIT (0xa2 + g)) [1]

/-- Completions of the reads before a calibration load: once CORR_STAT is known the loads go out, and the tile can be
admitted; reads that fail are asked again (DESIGN CHOICE, log entry 183). -/
def Chip.calAnswer (c : Chip) (n wdn : Nat) (f : InFlight) (status : Nat) (d : List Byte) : Chip :=
  match c.devWdn n wdn with
  | none => c
  | some x =>
    match c.halo.cals.find? fun l => l.serial == x.serial with
    | none => c
    | some l =>
      let drop := fun (c : Chip) => c.onHalo fun h => { h with cals := h.cals.filter fun y => y.serial != x.serial }
      if f.cmd.op ≠ 1 then c
      else if f.cmd.addr = Reg.CORR_CFG then
        if status ≠ 0 then c
        else c.onHalo fun h => { h with cals := h.cals.map fun y => if y.serial = x.serial then { y with cfg := some (leNat d) } else y }
      else if f.cmd.addr = Reg.CORR_STAT then
        match l.cfg with
        | some cfg =>
          if status = 0 then (((drop c).calSend n x l cfg (leNat d)).putDev n { x with cal := 2 }).tryAdmit n x.serial
          else c.calAsk n x l
        | none => c.calAsk n x l
      else c

/-! ### Completions of firmware commands -/

/-- A firmware command's outcome at one tile, for everything that waits for it. -/
def Chip.fwAnswer (c : Chip) (n wdn : Nat) (f : InFlight) (status : Nat) (d : List Byte) : Chip :=
  (((c.firmwareDone n wdn f status d).pushDone n wdn f status d).jobAnswer wdn f status d).calAnswer n wdn f status d

/-- Firmware commands that end without an answer, tile by tile. -/
def Chip.fwLost (c : Chip) (n code : Nat) (fs : List InFlight) : Chip :=
  c.each (fs.filter fun f => f.src.isNone) fun c f => c.each f.waits fun c w => c.fwAnswer n w f code []

end Sys2Proof.Machine
end

