-- ==== Sys2Proof/Machine/OpsCavas.lean ====
section
/-!
DEFINITION. Cavas (R373–R389): chunked download, staging, releases at a tick, trial, confirmation and fall-back, at the sender
and at the tile. What a cryptographic check finds arrives with the command.
-/

namespace Sys2Proof.Machine

/-! ### The bundle (R373–R376) -/

/-- An empty image slot. -/
def slotEmpty : ImgSlot := ⟨0, 0, []⟩

/-- Image slot k: 0 sender A, 1 sender B, 2 tile A, 3 tile B. -/
def Chip.img (c : Chip) (k : Nat) : ImgSlot := listAt c.upd.slots k slotEmpty

/-- Change an image slot. -/
def Chip.setImg (c : Chip) (k : Nat) (s : ImgSlot) : Chip := c.onUpd fun u => { u with slots := listPut u.slots k s }

/-- Bytes of the bundle held so far. -/
def Chip.bundle (c : Chip) (off n : Nat) : List Byte :=
  ((List.range ((off % 16384 + n + 16383) / 16384)).flatMap fun k =>
    let ch := (assoc c.upd.chunks (off / 16384 + k)).getD []
    ch ++ List.replicate (16384 - ch.length) 0).drop (off % 16384) |>.take n

/-- A most-significant-first number of the bundle. -/
def Chip.bundleBe (c : Chip) (off n : Nat) : Nat := beNat (c.bundle off n)

/-- CHUNKS of the header held. -/
def Chip.bundleChunks (c : Chip) : Nat := c.bundleBe 0x14 4

/-- Directory chunks: those that hold the header and the chunk table; 1 while CHUNKS is beyond any bundle. -/
def Chip.dirChunks (c : Chip) : Nat :=
  if 4352 < c.bundleChunks then 1 else (4096 + 16 * c.bundleChunks + 16383) / 16384

/-- An item of the table (R374): type, format, SVN, offset, length. -/
structure Item where
  type : Nat
  format : Nat
  svn : Nat
  off : Nat
  len : Nat
  deriving DecidableEq, Repr

/-- Item k of the table. -/
def Chip.item (c : Chip) (k : Nat) : Item :=
  let a := 0x50 + 80 * k
  ⟨c.bundleBe a 1, c.bundleBe (a + 2) 2, c.bundleBe (a + 4) 4, c.bundleBe (a + 8) 4, c.bundleBe (a + 12) 4⟩

/-- The items of the bundle. -/
def Chip.items (c : Chip) : List Item := (List.range (min (c.bundleBe 0x18 2) 32)).map c.item

/-- An item of a type. -/
def Chip.itemOf (c : Chip) (type : Nat) : Option Item := c.items.find? (·.type == type)

/-- The header is well formed (R373, R374). Bytes the tables call reserved are not judged (DESIGN CHOICE, log entry 193). -/
def Chip.headerOk (c : Chip) : Bool :=
  let len := c.bundleBe 0x10 4
  let n := c.bundleBe 0x18 2
  c.bundleBe 0 4 == 0x43415631 && c.bundleBe 4 2 == 1 && decide (len ≤ 71303168) &&
    c.bundleChunks == (len + 16383) / 16384 && decide (1 ≤ n) && decide (n ≤ 32) &&
    c.items.all fun i => decide (1 ≤ i.type) && decide (i.type ≤ 4) && i.off % 16384 == 0 && decide (i.off + i.len ≤ len) &&
      (i.type == 3 || i.format == 0) && (if i.type ≤ 2 then decide (i.svn ≤ 64) else i.svn == 0) &&
      (i.type != 1 || decide (i.len ≤ 2 ^ 24)) && (i.type != 2 || decide (i.len ≤ 2 ^ 22))

/-- OWNER_SIG is needed (R375). -/
def Chip.ownerNeeded (c : Chip) : Bool :=
  (c.items.any fun i => i.type == 3 || i.type == 4) || (c.flag .UPDATE_CFG_OWNER_REQ && (c.slot 6).state == 1)

/-- Why the directory is refused: 1 HEADER, 3 TABLE, 2 SIGNATURE, 5 ROLLBACK; 0 it stands (R375, R376). `table`, `vendor`,
`owner` say whether TABLE_HASH, VENDOR_SIG and OWNER_SIG hold. -/
def Chip.dirCause (c : Chip) (table vendor owner : Bool) : Nat :=
  let image := c.items.any fun i => i.type == 1 || i.type == 2
  if !c.headerOk then 1
  else if !table then 3
  else if image && !vendor then 2
  else if c.ownerNeeded && ((c.slot 6).state != 1 || !owner) then 2
  else if c.items.any fun i => (i.type == 1 || i.type == 2) && decide (i.svn < c.fuses.svn) then 5
  else 0

/-- The bitmap as UPDATE_DL_STAT.HELD shows it. -/
def Chip.showHeld (c : Chip) : Chip := c.put .UPDATE_DL_STAT_HELD c.upd.chunks.length

/-- Drop chunks from the staging region. -/
def Chip.dropChunks (c : Chip) (p : Nat → Bool) : Chip :=
  (c.onUpd fun u => { u with chunks := u.chunks.filter fun x => !p x.1 }).showHeld

/-- A download failure: STATE BAD with its cause, BUNDLE_BAD. -/
def Chip.bundleBad (c : Chip) (cause : Nat) : Chip :=
  ((c.put .UPDATE_DL_STAT_STATE 4).put .UPDATE_DL_STAT_CAUSE cause).raise .UPDATE_BUNDLE_BAD

/-- With every bit set the item hashes are being checked (R376). -/
def Chip.bundleFull (c : Chip) : Chip :=
  if c.upd.dirOk && c.upd.chunks.length == c.bundleChunks then c.put .UPDATE_DL_STAT_STATE 2 else c

/-- The directory is complete: it stands, and the chunks that fail it (`bad`) go, or it is discarded (R376). -/
def Chip.dirDone (c : Chip) (table vendor owner : Bool) (bad : List Nat) : Chip :=
  let n := c.dirChunks
  if c.upd.dirOk || !((List.range n).all fun k => (assoc c.upd.chunks k).isSome) then c
  else
    match c.dirCause table vendor owner with
    | 0 =>
      let c := c.onUpd fun u => { u with dirOk := true }
      let out := (c.upd.chunks.map (·.1)).filter fun k =>
        decide (c.bundleChunks ≤ k) || (bad.contains k && decide (n ≤ k))
      (c.dropChunks out.contains).each out fun c _ => c.raise .UPDATE_CHUNK_BAD
    | k => (c.dropChunks fun i => decide (i < n)).bundleBad k

/-- Bytes of chunk i: the bundle's last chunk may be shorter. -/
def Chip.chunkLen (c : Chip) (i : Nat) : Nat := if c.upd.dirOk then min 16384 (c.bundleBe 0x10 4 - 16384 * i) else 16384

/-- UPDATE_CHUNK_CTRL with OP = PUT (R376). `ok` is whether the chunk matches its table entry. CHUNKS counts as known once the directory
is complete; before that only an INDEX that no bundle has is CHUNK_BAD (DESIGN CHOICE, log entry 193). -/
def Chip.chunkPut (c : Chip) (i : Nat) (ok table vendor owner : Bool) (bad : List Nat) : Chip :=
  if c.get .UPDATE_DL_STAT_STATE = 2 then c.reject Reg.UPDATE_CHUNK_CTRL
  else if 4352 ≤ i ∨ c.upd.dirOk = true ∧ c.bundleChunks ≤ i then c.raise .UPDATE_CHUNK_BAD
  else if (assoc c.upd.chunks i).isSome then c
  else if c.upd.dirOk = true ∧ c.dirChunks ≤ i ∧ ok = false then c.raise .UPDATE_CHUNK_BAD
  else
    let a := c.nat Reg.UPDATE_CHUNK_LO / 64 * 64 + 2 ^ 32 * (c.nat Reg.UPDATE_CHUNK_HI % 32)
    let data := (c.gPeek a (c.chunkLen i)).1
    let c := (c.gReadCount a (c.chunkLen i)).onUpd fun u => { u with chunks := (i, data) :: u.chunks }
    let c := (c.put .UPDATE_DL_STAT_STATE 1).put .UPDATE_DL_STAT_CAUSE 0
    ((c.dirDone table vendor owner bad).showHeld).bundleFull

/-- A staged release depends on the staging region, from STAGE to its end. -/
def Chip.relStaged (c : Chip) : Bool := let s := c.get .UPDATE_ACT_STAT_STATE; decide (1 ≤ s) && decide (s ≤ 6)

/-- OP = DISCARD_ALL (R376). -/
def Chip.discardAll (c : Chip) : Chip :=
  if c.get .UPDATE_DL_STAT_STATE = 2 ∨ c.relStaged = true then c.reject Reg.UPDATE_CHUNK_CTRL
  else
    let c := (c.onUpd fun u => { u with chunks := [], dirOk := false }).showHeld
    (c.put .UPDATE_DL_STAT_STATE 0).put .UPDATE_DL_STAT_CAUSE 0

/-- The items' hashes are checked (R376). -/
def Chip.bundleVerified (c : Chip) (ok : Bool) : Chip :=
  if c.get .UPDATE_DL_STAT_STATE ≠ 2 then c
  else if ok then ((c.put .UPDATE_DL_STAT_STATE 3).put .UPDATE_DL_STAT_CAUSE 0).raise .UPDATE_BUNDLE_READY
  else c.bundleBad 4

/-- UPDATE_BITMAP: the word that UPDATE_BITMAP_IDX selects. -/
def Chip.bitmapWord (c : Chip) : Nat :=
  let w := min (c.nat Reg.UPDATE_BITMAP_IDX % 256) 135
  (List.range 32).foldl (fun v b => if (assoc c.upd.chunks (32 * w + b)).isSome then v + 2 ^ b else v) 0

/-- UPDATE_SLOTS. -/
def Chip.slotsWord (c : Chip) : Nat :=
  let st := fun k => (c.img k).state * 2 ^ (28 - 4 * k)
  st 0 + st 1 + st 2 + st 3 + (if c.upd.runB then 256 else 0) + min (c.img 0).attempts 3

/-! ### Configuration copies (R343, R379, R380) -/

/-- What the UPDATE page shows of the flash: the download so far, a bundle that is whole to be verified again (DESIGN CHOICE, log entry
193), a release on trial, the generation in force; of a tile, the image it runs. -/
def Chip.updShow (c : Chip) : Chip :=
  if c.isTile then
    if c.tile.running then c.setNat Reg.UPDATE_T_IMAGE (imageId (c.tile.firmware.getD 0)) else c
  else
    let n := c.upd.chunks.length
    let dl := if n = 0 then 0 else if c.upd.dirOk && n == c.bundleChunks then 2 else 1
    let trial := (c.img 0).state == 2 || (c.img 2).state == 2
    let c := (c.showHeld).put .UPDATE_DL_STAT_STATE dl
    let c := c.setNat Reg.UPDATE_CFG_GEN (if c.store.factory then 0 else ((cfgChoice c.upd.cfgs).map (·.gen)).getD 0)
    let c := c.onUpd fun u => { u with trialAt := if trial then some (u.trialAt.getD c.age) else none }
    if trial then c.put .UPDATE_ACT_STAT_STATE 6 else c

/-- An entry of the MANIFEST item (R382): serial, role, IMAGE and SETTINGS item index. -/
structure Listed where
  serial : Nat
  role : Nat
  image : Nat
  settings : Nat
  deriving DecidableEq, Repr

/-- The entries of the MANIFEST item (R382); none where its MAGIC or ENTRIES are not those of a manifest. -/
def Chip.manifest (c : Chip) : List Listed :=
  match c.itemOf 4 with
  | none => []
  | some i =>
    let n := c.bundleBe (i.off + 4) 4
    if c.bundleBe i.off 4 ≠ 0x434d4631 ∨ n = 0 ∨ 65536 < n then []
    else (List.range n).map fun k =>
      let a := i.off + 16 + 16 * k
      ⟨c.bundleBe a 8, c.bundleBe (a + 8) 1, c.bundleBe (a + 9) 1, c.bundleBe (a + 10) 1⟩

/-- Item k of the bundle, if it is of a type. -/
def Chip.itemAt (c : Chip) (k type : Nat) : Option Item := (c.items[k]?).filter (·.type == type)

/-- The items staged for this sender (R381, R382): its image and settings those its own entry names, the tile image that of the first
entry of a tile in service; a bundle without such an entry gives its first item of the type (DEDUCED, log entry 196). -/
def Chip.senderItem (c : Chip) : Option Item :=
  match c.manifest.find? fun x => x.role == 1 && x.serial == c.fuses.serial with
  | some x => c.itemAt x.image 1
  | none => c.itemOf 1

/-- The settings staged for this sender: SETTINGS index 0xFF names none. -/
def Chip.settingsItem (c : Chip) : Option Item :=
  match c.manifest.find? fun x => x.role == 1 && x.serial == c.fuses.serial with
  | some x => if x.settings = 0xff then none else c.itemAt x.settings 3
  | none => c.itemOf 3

/-- Serials of the tiles in service. -/
def Chip.allSerials (c : Chip) : List Nat := (List.range 16).flatMap fun n => (c.serving n).map (·.serial)

/-- The tile image staged for this sender's tiles. -/
def Chip.tileItem (c : Chip) : Option Item :=
  match c.manifest.find? fun x => x.role == 0 && c.allSerials.contains x.serial with
  | some x => c.itemAt x.image 2
  | none => c.itemOf 2

/-! ### Staging (R381) -/

/-- State of the release (UPDATE_ACT_STAT.STATE): 0 IDLE, 1 STAGING, 2 STAGED, 3 ARMED, 4 READY, 5 GO_SENT, 6 TRIAL, 7 ABORTED. -/
def Chip.act (c : Chip) : Nat := c.get .UPDATE_ACT_STAT_STATE

/-- Set the release's state. -/
def Chip.setAct (c : Chip) (n : Nat) : Chip := c.put .UPDATE_ACT_STAT_STATE n

/-- Set the release's cause. -/
def Chip.actCause (c : Chip) (n : Nat) : Chip := c.put .UPDATE_ACT_STAT_CAUSE n

/-- Slot A of a pair is about to be written: a confirmed image goes to slot B first, but for a sender that runs slot B, and slot A
is not bootable meanwhile. -/
def Chip.clearA (c : Chip) (k : Nat) : Chip :=
  let c := if (c.img k).state = 3 ∧ ¬ (k = 0 ∧ c.upd.runB = true) then c.setImg (k + 1) (c.img k) else c
  c.setImg k slotEmpty

/-- OP = STAGE (R381): TRIAL 9 while a release is on trial; where the bundle is not READY or a release is staged it does nothing (DESIGN
CHOICE, log entry 193: no cause is given). -/
def Chip.stage (c : Chip) : Chip :=
  if c.act = 6 then c.actCause 9
  else if c.get .UPDATE_DL_STAT_STATE ≠ 3 ∨ ¬ (c.act = 0 ∨ c.act = 7) then c
  else
    let c := (c.setAct 1).actCause 0
    let c := c.when c.senderItem.isSome fun c => c.clearA 0
    c.when c.tileItem.isSome fun c => c.clearA 2

/-- Staging completes (R381). -/
def Chip.stagingDone (c : Chip) : Chip :=
  if c.act ≠ 1 then c
  else
    let write := fun (c : Chip) (k : Nat) (i : Option Item) => match i with
      | some i => c.setImg k ⟨1, 0, c.bundle i.off i.len⟩
      | none => c
    let c := write (write c 0 c.senderItem) 2 c.tileItem
    let old := c.sections
    let c := c.onUpd fun u => { u with oldSections := old }
    let c := match c.settingsItem with
      | some i => c.writeCfg (old ++ [(i.format, c.bundle i.off i.len)])
      | none => c
    (c.setAct 2).raise .UPDATE_STAGED

/-! ### Activation at a tick (R382–R386) -/

/-- The tiles in service, as port and WDN. -/
def Chip.allTiles (c : Chip) : List (Nat × Nat) :=
  (List.range 16).flatMap fun n => (c.serving n).map fun d => (n, d.wdn)

/-- The tiles a sender covers: none as a standby (R382). -/
def Chip.coveredTiles (c : Chip) : List (Nat × Nat) := if c.get .TWIN_STAT_ROLE = 2 then [] else c.allTiles

/-- The image the tiles take in a release, as bytes: tile slot A when it is staged or on trial, else the image in force. A
fall-back takes slot B where slot A is on trial. -/
def Chip.relBytes (c : Chip) (fallback : Bool) : List Byte :=
  if fallback then (if (c.img 2).state = 2 then (c.img 3).bytes else c.tileImage)
  else if (c.img 2).state = 1 ∨ (c.img 2).state = 2 then (c.img 2).bytes else c.tileImage

/-- The Cavas action of a number goes to a tile, with an argument and data (R383). -/
def Chip.act_ (c : Chip) (n wdn action arg : Nat) (data : List Byte) : Chip := c.sendFw n 0 wdn 5 (0x200 + action) arg data

/-- Boot cells of an image go to every tile of a port (R118, R383). -/
def Chip.sendImage (c : Chip) (n : Nat) (img : List Byte) : Chip :=
  let h : Hdr := { amode := 3, dest := 0, ke := 0, sidx := c.sidx, port := n }
  let id := imageId (Config.sha384 img)
  c.onPort n fun p => { p with
    boots := p.boots ++ (List.range ((img.length + 1023) / 1024)).map fun k => bootCell h id img k }

/-- ACT_ARM goes to tiles, and the image to every port that has one whose RAM image differs (R383). -/
def Chip.armTiles (c : Chip) (t : Nat) (img : List Byte) (tiles : List (Nat × Nat)) : Chip :=
  let hash := Config.sha384 img
  let c := c.each tiles fun c x => c.act_ x.1 x.2 1 (imageId hash) (beBytes 8 t)
  c.each (List.range 16) fun c n =>
    let differs := tiles.any fun x => x.1 == n && ((c.devWdn n x.2).map (·.hash)) != some hash
    if differs then c.sendImage n img else c

/-- READY once every covered entry has acknowledged; the sender's own counts from the arm (R383). -/
def Chip.relReady (c : Chip) : Chip :=
  match c.upd.rel with
  | none => c
  | some r =>
    let c := c.put .UPDATE_ACT_ACKS_ACKED (r.acked.length + 1)
    if c.act = 3 && r.covered.all r.acked.contains then c.setAct 4 else c

/-- A release starts for tick T: step 2 of R383. -/
def Chip.relStart (c : Chip) (t : Nat) (fallback : Bool) : Chip :=
  let tiles := c.coveredTiles
  let img := c.relBytes fallback
  let alone := decide ((c.manifest.filter (·.role == 1)).length ≤ 1)
  let r : Rel := { t := t, image := imageId (Config.sha384 img), fallback := fallback, covered := tiles, acked := [], gone := []
                   alone := alone, go := false, decided := false }
  let c := (c.onUpd fun u => { u with rel := some r }).put .UPDATE_ACT_ACKS_EXPECTED (tiles.length + 1)
  (((c.setAct 3).actCause 0).armTiles t img tiles).relReady

/-- T or T2 as captured by ARM or FALLBACK. -/
def Chip.actTick (c : Chip) : Nat := c.pair Reg.UPDATE_ACT_TICK_LO Reg.UPDATE_ACT_TICK_HI

/-- OP = ARM (R382, R383): BUSY 2, NOT_STAGED 4, LATE 1, CLASH 3, NOT_LISTED 8, checked in this order (DESIGN CHOICE, log entry 193). -/
def Chip.relArm (c : Chip) : Chip :=
  let t := c.actTick
  let listed := (c.manifest.filter (·.role == 0)).map (·.serial)
  if c.upd.rel.isSome then c.actCause 2
  else if c.act ≠ 2 then c.actCause 4
  else if t < c.lastIndex + 64 then c.actCause 1
  else if c.switchPending && c.switch.any (fun s => s.n == t) then c.actCause 3
  else if c.get .TWIN_STAT_ROLE ≠ 2 ∧ c.allSerials.all listed.contains = false then c.actCause 8
  else c.relStart t false

/-- OP = GO (R384). -/
def Chip.relGo (c : Chip) : Chip :=
  match c.upd.rel with
  | none => c.reject Reg.UPDATE_ACT_CTRL
  | some r =>
    if c.act = 4 && !r.decided then c.onUpd fun u => { u with rel := some { r with go := true } }
    else c.reject Reg.UPDATE_ACT_CTRL

/-- The release is aborted with a cause: ACT_ABORT to every covered tile. A fall-back that aborts leaves the trial in force
(R383, R386, R387). -/
def Chip.relAbort (c : Chip) (cause : Nat) : Chip :=
  match c.upd.rel with
  | none => c
  | some r =>
    let c := c.each r.covered fun c x => c.act_ x.1 x.2 3 0 []
    let c := c.onUpd fun u => { u with rel := none }
    (((if r.fallback then c.setAct 6 else c.setAct 7).actCause cause).put .UPDATE_ACT_ACKS_EXPECTED 0).raise .UPDATE_ACT_ABORT

/-- OP = ABORT (R386): before the decision it aborts the release; a late one sets WR_REJ. -/
def Chip.relCancel (c : Chip) : Chip :=
  match c.upd.rel with
  | none => if c.act = 6 then c.reject Reg.UPDATE_ACT_CTRL else c
  | some r => if r.decided then c.reject Reg.UPDATE_ACT_CTRL else c.relAbort 7

/-- Something that keeps a release from being decided: a Halo job or push, a rank migration, a Twin rejoin (R386). -/
def Chip.relBusy (c : Chip) : Bool :=
  c.halo.job.isSome || c.halo.push.isSome || c.gran.migr.isSome || c.twin.rejoin.isSome

/-- A slot that is staged goes on trial. -/
def Chip.onTrial (c : Chip) (k : Nat) : Chip := if (c.img k).state = 1 then c.setImg k { c.img k with state := 2 } else c

/-- The decision at tick T − 8, or at the first tick after it (R383, R386): LATE 1, BUSY 2, NOT_READY 5, NO_GO 6, checked in this order
(DESIGN CHOICE, log entry 193). -/
def Chip.relDecide (c : Chip) : Chip :=
  match c.upd.rel with
  | none => c
  | some r =>
    let n := c.lastIndex
    if r.decided || decide (n + 8 < r.t) then c
    else
      let here := r.covered.all fun x => r.acked.contains x && (c.allTiles.contains x)
      if r.t ≤ n + 4 then c.relAbort 1
      else if c.relBusy then c.relAbort 2
      else if c.act ≠ 4 || !here then c.relAbort 5
      else if !r.go && !r.alone then c.relAbort 6
      else
        let c := if r.fallback then c else (c.onTrial 0).onTrial 2
        (c.onUpd fun u => { u with rel := some { r with decided := true } }).setAct 5

/-- ACT_GO goes out at T − 4, T − 3 and T − 2 (R383). -/
def Chip.relTick (c : Chip) (n : Nat) : Chip :=
  match c.upd.rel with
  | none => c
  | some r =>
    if r.decided && decide (r.t ≤ n + 4) && decide (n + 2 ≤ r.t) then
      c.each r.covered fun c x => c.act_ x.1 x.2 2 0 []
    else c

/-- Completions of ACT_ARM and ACT_GO (R383). -/
def Chip.relAnswer (c : Chip) (n wdn : Nat) (f : InFlight) (status : Nat) : Chip :=
  match c.upd.rel with
  | none => c
  | some r =>
    if f.cmd.op ≠ 5 ∨ status ≠ 0 ∨ r.covered.contains (n, wdn) = false then c
    else if f.cmd.addr = 0x201 ∧ r.acked.contains (n, wdn) = false then
      (c.onUpd fun u => { u with rel := some { r with acked := (n, wdn) :: r.acked } }).relReady
    else if f.cmd.addr = 0x202 ∧ r.gone.contains (n, wdn) = false then
      c.onUpd fun u => { u with rel := some { r with gone := (n, wdn) :: r.gone } }
    else c

/-- The settings sections in force before the release come back, in a new generation (R387); with none the factory defaults run. -/
def Chip.settingsBack (c : Chip) : Chip :=
  if c.sections = c.upd.oldSections then c
  else
    let c := c.writeCfg c.upd.oldSections
    if c.upd.oldSections.isEmpty then (c.onStore fun s => { s with factory := true }).put .SYS_ROLE_FACTORY 1 else c.configured

/-- A sender's activation at tick T, or at the first tick executed after it (R383, R386, R387). The handover takes no time: R385 lets it
take up to 5 ms in which the cores start nothing new (DESIGN CHOICE, log entry 193). -/
def Chip.relActivate (c : Chip) : Chip :=
  match c.upd.rel with
  | none => c
  | some r =>
    if !r.decided || decide (c.lastIndex < r.t) then c
    else
      let hash := Config.sha384 (c.relBytes r.fallback)
      let c := c.each r.gone fun c x =>
        match c.devWdn x.1 x.2 with
        | some d => c.putDev x.1 { d with hash := hash, image := imageId hash }
        | none => c
      let c := c.onUpd fun u => { u with
        rel := none, missed := r.covered.filter fun x => !r.gone.contains x, retryAt := r.t + 16 }
      let c := (c.actCause 0).put .UPDATE_ACT_ACKS_EXPECTED 0
      if r.fallback then
        let revoke := fun (c : Chip) (k : Nat) => if (c.img k).state = 2 then c.setImg k { c.img k with state := 4 } else c
        let b := (c.img 0).state == 2 || c.upd.runB
        let c := ((revoke (revoke c 0) 2).settingsBack).onUpd fun u => { u with runB := b, trialAt := none }
        (c.setAct 0).raise .UPDATE_FALLBACK
      else
        let c := c.when (c.sections != c.upd.oldSections) Chip.configured
        ((c.onUpd fun u => { u with trialAt := some c.age, runB := if (c.img 0).state = 2 then false else u.runB }).setAct 6).raise
          .UPDATE_ACT_DONE

/-- At T + 16 a sender sends the tiles that took no go ACT_ARM and ACT_GO alone (R383). -/
def Chip.relRetry (c : Chip) : Chip :=
  if c.upd.missed.isEmpty || decide (c.lastIndex < c.upd.retryAt) then c
  else
    let img := c.tileImage
    let m := c.upd.missed
    let c := c.armTiles c.upd.retryAt img m
    (c.each m fun c x => c.act_ x.1 x.2 2 0 []).onUpd fun u => { u with missed := [] }

/-! ### Trial, confirmation, fall-back (R387) -/

/-- SVN of an image (R448). -/
def imageSvn (b : List Byte) : Nat := beNat ((b.drop 8).take 4)

/-- The part's own anti-rollback counter is burned up to a value, one fuse bit at a time; it never falls. -/
def Chip.burnSvn (c : Chip) (n : Nat) : Chip :=
  let v := min 64 (max c.fuses.svn n)
  { c with fuses := { c.fuses with svn := v } }.setNat Reg.UPDATE_SVN v

/-- OP = CONFIRM (R387). -/
def Chip.confirm (c : Chip) : Chip :=
  if c.act ≠ 6 ∨ c.upd.rel.isSome then c
  else
    let ok := fun (c : Chip) (k : Nat) => if (c.img k).state = 2 then c.setImg k { c.img k with state := 3 } else c
    let c := ok (ok c 0) 2
    let c := (c.burnSvn (imageSvn (c.img 0).bytes)).each c.allTiles fun c x => c.act_ x.1 x.2 4 (imageSvn c.tileImage) []
    let top := c.sections.foldl (fun m s => max m s.1) 0
    let c := c.writeCfg (c.sections.filter fun s => s.1 == top)
    ((c.onUpd fun u => { u with trialAt := none }).setAct 0).raise .UPDATE_CONFIRMED

/-- OP = FALLBACK (R387): step 2 of R383 with slot B and T2. -/
def Chip.fallback (c : Chip) : Chip := if c.act = 6 && c.upd.rel.isNone then c.relStart c.actTick true else c

/-- An unconfirmed trial older than TRIAL_MIN starts FALLBACK for the first tick at least 64 ticks ahead (R387). -/
def Chip.trialExpiry (c : Chip) : Chip :=
  let m := c.get .UPDATE_CFG_TRIAL_MIN
  match c.upd.trialAt with
  | none => c
  | some a =>
    if m ≠ 0 && decide (m * 3932160000000000 ≤ c.age - a) && c.act == 6 && c.upd.rel.isNone then
      (c.relStart (c.lastIndex + 64) true).raise .UPDATE_TRIAL_EXPIRED
    else c

/-- UPDATE_ACT_CTRL. -/
def Chip.actCtrl (c : Chip) (op : Nat) : Chip :=
  match op with
  | 1 => c.stage
  | 2 => c.relArm
  | 3 => c.relGo
  | 4 => c.relCancel
  | 5 => c.confirm
  | 6 => c.fallback
  | _ => c

/-! ### The tile's side (R383, R385, R387) -/

/-- UPDATE_T_STAT.STATE: 0 NONE, 1 STAGING, 2 STAGED, 3 ARMED, 4 TRIAL, 5 CONFIRMED, 6 FAILED. -/
def Chip.tAct (c : Chip) (n : Nat) : Chip := c.put .UPDATE_T_STAT_STATE n

/-- IMAGE_ID of the firmware a tile runs. -/
def Chip.runningId (c : Chip) : Nat := imageId (c.tile.firmware.getD 0)

/-- ACT_ARM at a tile: image in ARG, tick in DATA; it completes OK once the image is staged (R383). -/
def Chip.actArmIn (c : Chip) (x : Cmd) : Chip × Ans :=
  let here := c.tile.firmware.isSome && x.arg == c.runningId
  let held := match c.tile.image with | some i => i.id == x.arg && i.staged && i.state == 2 | none => false
  let r : TileRel := ⟨x.arg, beNat (x.data.take 8), false, here || held, x.token⟩
  let c := c.onTile fun t => { t with rel := some r }
  if r.staged then ((c.tAct 2).setNat Reg.UPDATE_T_STAGE x.arg, ansOk)
  else ((c.tAct 1).setNat Reg.UPDATE_T_STAGE x.arg, ansLater)

/-- ACT_GO at a tile (R383). -/
def Chip.actGoIn (c : Chip) : Chip × Ans :=
  match c.tile.rel with
  | none => (c, ansOk)
  | some r => (((c.onTile fun t => { t with rel := some { r with go := true } }).tAct (if r.staged then 3 else 1)), ansOk)

/-- ACT_ABORT at a tile (R383). -/
def Chip.actAbortIn (c : Chip) : Chip × Ans :=
  let drop := fun (i : Option Image) => match i with | some i => if i.staged then none else some i | none => none
  if c.tile.rel.isNone then (c, ansOk)
  else
    (((c.onTile fun t => { t with rel := none, image := drop t.image }).tAct 0).setNat Reg.UPDATE_T_STAGE 0 |>.put
      .UPDATE_T_STAT_PIECES 0, ansOk)

/-- An image a tile stages has been verified: ACT_ARM completes, or the failure stands in the BOOT record (R383). -/
def Chip.stagedNow (c : Chip) (ok : Bool) : Chip :=
  match c.tile.rel with
  | none => c
  | some r =>
    if r.staged || !c.tile.image.any (fun i => i.id == r.image) then c
    else if ok then
      ((c.onTile fun t => { t with rel := some { r with staged := true } }).tAct (if r.go then 3 else 2)).finish r.token 0 0 []
    else c.tAct 6

/-- At its tick T, or the first after it, a tile that holds a go runs its staged image (R383, R385). -/
def Chip.tileActivate (c : Chip) : Chip :=
  match c.tile.rel with
  | none => c
  | some r =>
    if r.go && r.staged && decide (r.t ≤ c.lastIndex) then
      let hash := match c.tile.image with
        | some i => if i.staged && i.id == r.image then some (Config.sha384 (memBytes i.data 0 (i.length.getD 0))) else c.tile.firmware
        | none => c.tile.firmware
      let c := c.onTile fun t => { t with rel := none, firmware := hash, image := none }
      (((c.tAct 4).setNat Reg.UPDATE_T_IMAGE r.image).setNat Reg.UPDATE_T_STAGE 0).put .UPDATE_T_STAT_PIECES 0
    else c

/-- At T + 16 a tile that holds no go keeps its image and raises UPD_MISS (R383). -/
def Chip.tileMissed (c : Chip) : Chip :=
  match c.tile.rel with
  | none => c
  | some r =>
    if !r.go && decide (r.t + 16 ≤ c.lastIndex) then ((c.onTile fun t => { t with rel := none }).tAct 0).raise .UPDATE_UPD_MISS else c

/-- ACTION 0x0000_0204 at a tile: its counter is burned up to ARG (R387). -/
def Chip.burnIn (c : Chip) (x : Cmd) : Chip × Ans := ((c.burnSvn x.arg).tAct 5, ansOk)

end Sys2Proof.Machine
end

