-- ==== Sys2Proof/Machine/OpsTwin.lean ====
section
/-!
DEFINITION. Twin senders: arming and leaving Twin mode (R328), near and far ends (R330, R333, R334), split service and
rejoin (R335), the twin link, mirror writes and the state copy (R336, R337), health (R338), the Elders' mandates
(R339, R340), replay (R341), the outcomes of R342, and a ring tile's turn (R332).
-/

namespace Sys2Proof.Machine

/-- TWIN_STAT.ROLE: 0 OFF, 1 RESYNC, 2 STANDBY, 3 ACTIVE, 4 ISOLATED. -/
def Chip.twinRole (c : Chip) : Nat := c.get .TWIN_STAT_ROLE

/-- The ringed ports. -/
def Chip.ringPorts (c : Chip) : List Nat := portsOf (c.get .TWIN_RING_PORTS)

/-- The sender is a member of a pair in Twin mode. -/
def Chip.twinOn (c : Chip) : Bool := c.isSender && c.mode == 4 && c.twinRole != 0

/-- Mark ports near or far. -/
def Chip.setNear (c : Chip) (mask : Nat) : Chip := c.put .TWIN_PORTS_NEAR mask

/-- The bits of `a` that are not in `b`, over the 16 ports. -/
def portsLess (a b : Nat) : Nat :=
  (List.range 16).foldl (fun m n => if bitAt a n && !bitAt b n then m + 2 ^ n else m) 0

/-- The ports of a list as a mask. -/
def maskOf (l : List Nat) : Nat := (List.range 16).foldl (fun m n => if l.contains n then m + 2 ^ n else m) 0

/-! ### The Elders' records -/

/-- The records of the Elders that name this sender (R340); an Elder with two records of one epoch is silent (R343). -/
def Chip.mandates (c : Chip) : Nat := (c.twin.mand.filter fun m => m.known && !m.split && m.holder == c.sidx).length

/-- ELDER_MANDk, ELDER_HEARD and TWIN_STAT.MANDATES follow the counted records. -/
def Chip.showMandates (c : Chip) : Chip :=
  let none : Mandate := ⟨false, 0, 0, false, 255, false⟩
  let m := fun k => listAt c.twin.mand k none
  let c := c.each [0, 1, 2] fun c k =>
    c.setNat (Reg.ELDER_MAND k) (if (m k).known then 2 ^ 31 + (m k).holder % 64 * 2 ^ 24 + (m k).epoch % 2 ^ 24 else 0)
  let age := fun k => min (m k).age 255
  (c.setNat Reg.ELDER_HEARD (age 0 + 256 * age 1 + 65536 * age 2)).put .TWIN_STAT_MANDATES c.mandates

/-- A record of an Elder: the higher epoch wins, and two of one epoch that differ make it silent (R340, R343). -/
def Mandate.take (m : Mandate) (holder epoch : Nat) : Mandate :=
  let m := { m with age := 0, told := false }
  if m.known = false ∨ m.epoch < epoch then { m with known := true, holder := holder, epoch := epoch, split := false }
  else if m.epoch = epoch ∧ m.holder ≠ holder then { m with split := true }
  else m

/-- The number of the Elder that has a WDN (ELDER_NOM). -/
def Chip.elderOf (c : Chip) (wdn : Nat) : Option Nat :=
  [0, 1, 2].find? fun k => c.flag (.ELDER_NOM_VALID k) && c.get (.ELDER_NOM_WDN k) == wdn

/-- Elders heard within 8 superframes (R340). -/
def Chip.eldersHeard (c : Chip) : Nat := (c.twin.mand.filter fun m => !m.split && decide (m.age < 8)).length

/-! ### Arming and leaving Twin mode -/

/-- The address at which the enabled mirror windows that cover `a` without a gap end, looking at `k` windows in turn (R336). -/
def Chip.mirrorEnd (c : Chip) (a : Nat) : Nat → Nat
  | 0 => a
  | k + 1 =>
    match (List.range 8).find? fun w =>
        let base := c.get (.TWIN_MW_BASE_ADDR w) * 4096
        c.flag (.TWIN_MW_BASE_EN w) && decide (base ≤ a) && decide (a < base + c.get (.TWIN_MW_SIZE_MIB w) * 2 ^ 20) with
    | none => a
    | some w => c.mirrorEnd (c.get (.TWIN_MW_BASE_ADDR w) * 4096 + c.get (.TWIN_MW_SIZE_MIB w) * 2 ^ 20) k

/-- The Well's ring table, 1 MiB, and every ring body of the enabled pairs lie inside mirror windows (R328). -/
def Chip.ringsMirrored (c : Chip) : Bool :=
  let inside := fun (a n : Nat) => decide (a + n ≤ c.mirrorEnd a 8)
  inside c.rtBase (2 ^ 20) &&
    c.well.pairs.all fun x => inside x.2.sqBase (64 * 2 ^ x.2.sqLog) && inside x.2.cqBase (32 * 2 ^ x.2.cqLog)

/-- Three Elders are nominated, on tiles of three different ringed chains (R14). -/
def Chip.eldersSet (c : Chip) : Bool :=
  let ports := [0, 1, 2].filterMap fun k =>
    if c.flag (.ELDER_NOM_VALID k) then
      (c.portOfWdn (c.get (.ELDER_NOM_WDN k))).filter fun n => bitAt (c.get .TWIN_RING_PORTS) n
    else none
  ports.length == 3 && ports.eraseDups.length == 3

/-- The conditions of R328, as far as this sender knows them: the peer's own settings are those it last reported. -/
def Chip.twinReady (c : Chip) : Bool :=
  c.enabled 0x90 && c.flag .TWIN_CFG_EN && c.twin.peerOk && c.get .TWIN_RING_PORTS != 0 && c.twin.up && c.twin.keyed &&
    c.flag .TWIN_STAT_SYNCED && c.ringsMirrored && c.eldersSet &&
    c.ringPorts.all fun n => decide ((c.serving n).length ≤ 512) && ((c.port n).devs.filter fun d => d.st != .lost).all fun d => !c.miswired n d.orient

/-- The active sender nominates an Elder: holder and epoch 1, then ELDER_T_CFG (R339). -/
def Chip.nominate (c : Chip) (k : Nat) : Chip :=
  let wdn := c.get (.ELDER_NOM_WDN k)
  match c.portOfWdn wdn with
  | none => c
  | some n =>
    if c.flag (.ELDER_NOM_VALID k) then
      (c.sendFw n 0 wdn 2 Reg.ELDER_T_HOLDER 0 (leBytes 4 c.sidx ++ leBytes 4 1)).sendFw n 0 wdn 2 Reg.ELDER_T_CFG 0
        (leBytes 4 3)
    else c

/-- Twin mode begins: the primary is active, near on every ring port, and holds the three initial mandates; the other is the
standby, far on every ring port (R328). -/
def Chip.twinStart (c : Chip) : Chip :=
  if c.flag .TWIN_CFG_PRIMARY then
    let c := (c.put .TWIN_STAT_ROLE 3).setNear (c.get .TWIN_RING_PORTS)
    let c := ((c.onTwin fun t => { t with mand := List.replicate 3 ⟨true, c.sidx, 1, false, 0, false⟩ }).showMandates).storeSaved
    let c := c.each c.ringPorts fun c n => c.each (c.serving n) fun c d => c.writeAlt n d
    c.each [0, 1, 2] fun c k => c.nominate k
  else
    let c := (c.put .TWIN_STAT_ROLE 2).setNear 0
    (c.onTwin fun t => { t with mand := List.replicate 3 ⟨false, 0, 0, false, 0, false⟩ }).showMandates

/-- Entries held for a copy are written (R337). -/
def Chip.writeHeld (c : Chip) (l : List HeldEntry) : Chip := c.each l fun c h => c.entryNow h.pair h.type h.bytes h.notify

/-- Entries of the periods up to `p` are written; later ones stay. -/
def Chip.releaseHeld (c : Chip) (p : Nat) : Chip :=
  let out := c.well.held.filter fun h => decide (h.period ≤ p)
  (c.onWell fun w => { w with held := w.held.filter fun h => !decide (h.period ≤ p) }).writeHeld out

/-- The mirror writes before them are acknowledged: doorbells take effect in order (R336). -/
def Chip.mirrorAcked (c : Chip) : Chip :=
  let l := c.twin.doorbells
  let c := (c.setNat Reg.TWIN_MIRROR_LAG 0).onTwin fun t => { t with doorbells := [] }
  c.each l fun c x => if x.1 = 0 then c.sqDoorbell x.2.1 x.2.2 else c.cqDoorbell x.2.1 x.2.2

/-- Nothing waits for the peer any more: doorbells, then entries (R303, R320, R337). -/
def Chip.releaseAll (c : Chip) : Chip :=
  let c := c.mirrorAcked
  let l := c.well.held
  (c.onWell fun w => { w with held := [] }).writeHeld l

/-- Twin mode ends. -/
def Chip.twinStop (c : Chip) : Chip :=
  if c.twinRole = 0 then c
  else
    let c := c.releaseAll
    let c := ((c.put .TWIN_STAT_ROLE 0).setNat Reg.TWIN_PORTS 0).put .TWIN_STAT_SOLO 0
    let c := c.onTwin fun t => { t with mand := [], rejoin := none, yieldPorts := 0, copyOut := none, replay := [] }
    c.showMandates

/-! ### Near, far and yielding -/

/-- A sender becomes near on a far ring port whose receive lanes leave UP (R333). -/
def Chip.nearFor (c : Chip) (n : Nat) : Chip :=
  if c.twinOn && c.ringed n && c.linkUpAt n == false then
    c.setNear (setBitAt (c.get .TWIN_PORTS_NEAR) n true)
  else c

/-- Ports yielded: 1 ms of electrical idle on them, then far (R334). -/
def Chip.yieldOn (c : Chip) (mask : Nat) : Chip :=
  let c := c.onTwin fun t => { t with yieldPorts := mask, yieldAt := c.age }
  let c := c.each (portsOf mask) fun c n => c.txStop (n / 2) (n % 2)
  (c.setNear (portsLess (c.get .TWIN_PORTS_NEAR) mask)).put .TWIN_PORTS_SPLIT (portsLess (c.get .TWIN_PORTS_SPLIT) mask)

/-- The peer has not been heard for `t`, or the link is down (R338). -/
def Chip.peerQuiet (c : Chip) (t : Nat) : Bool := !c.twin.up || decide (c.twin.heardAt + t ≤ c.age)

/-- A sender that loses its mandates yields every near ring port on which the peer is far, or all when the link is silent; it
takes no more descriptors, and what it had in flight is the peer's to replay (R334, R340). -/
def Chip.yield (c : Chip) : Chip :=
  let near := c.get .TWIN_PORTS_NEAR
  let mask := if c.peerQuiet (us 500) then near else portsLess near c.twin.peerNear
  let c := (c.put .TWIN_STAT_ROLE 2).put .TWIN_STAT_SYNCED 0
  let c := (c.yieldOn mask).onTwin fun t => { t with good := 0, copyOut := none }
  let c := c.onWell fun w => { w with held := [], taken := [] }
  (c.put .TWIN_STAT_ELIGIBLE 0).raise .TWIN_YIELDED

/-- One millisecond after yielding the transmitters run again, as a far sender's (R334). -/
def Chip.yieldEnd (c : Chip) : Chip :=
  if c.twin.yieldPorts ≠ 0 ∧ c.twin.yieldAt + ms 1 ≤ c.age then
    let ports := (portsOf c.twin.yieldPorts).filter fun n => c.mayTransmit (n / 2) (n % 2)
    (c.onTwin fun t => { t with yieldPorts := 0 }).each ports fun c n => c.txStart (n / 2) (n % 2)
  else c

/-! ### Split service -/

/-- The tiles a ring is to have: those in service and those lost whose units are kept. -/
def Chip.ringCount (c : Chip) (n : Nat) : Nat :=
  ((c.port n).devs.filter fun d => d.inService || (d.st == .lost && d.count != 0)).length

/-- The ring's census at this sender is whole (R335). -/
def Chip.ringWhole (c : Chip) (n : Nat) : Bool := c.chainState n != 0 && c.linkUpAt n && decide (c.ringCount n ≤ c.census n)

/-- SPLIT is granted or withdrawn for a ring port and the peer told (R335). -/
def Chip.setSplit (c : Chip) (n : Nat) (on : Bool) : Chip :=
  let m := c.get .TWIN_PORTS_SPLIT
  if bitAt m n = on then c
  else
    let c := c.put .TWIN_PORTS_SPLIT (setBitAt m n on)
    c.raise (if on then .TWIN_SPLIT_ON else .TWIN_SPLIT_OFF)

/-- The active sender grants SPLIT where the peer is near and its own census is short or its port DOWN, and withdraws it when
the census is whole; never without the twin link, nor on a port that is rejoining (R335). -/
def Chip.splitEval (c : Chip) : Chip :=
  if c.twinRole = 3 ∧ c.mode = 4 then
    c.each c.ringPorts fun c n =>
      let on := bitAt (c.get .TWIN_PORTS_SPLIT) n
      let rejoins := c.twin.rejoin.any fun r => decide (r.2 ≤ c.lastIndex) && bitAt r.1 n
      let want := c.twin.up && bitAt c.twin.peerNear n && !c.ringWhole n && !rejoins
      let keep := on && c.twin.up && !c.ringWhole n
      let next := want || keep
      if next = on then c else (c.setSplit n next).emit (.twin 8 [n, if next then 1 else 0] [])
  else c

/-- A ring made whole again completes a rejoin (R335). -/
def Chip.rejoinDone (c : Chip) : Chip :=
  match c.twin.rejoin with
  | none => c
  | some r =>
    if r.2 ≤ c.lastIndex ∧ (portsOf r.1).all (fun n => c.ringWhole n) = true then
      (c.onTwin fun t => { t with rejoin := none }).raise .TWIN_REJOIN_DONE
    else c

/-- What a census or a lost or regained tile of a ring changes (R335). -/
def Chip.ringChanged (c : Chip) : Chip := if c.twinOn then c.splitEval.rejoinDone else c

/-- A tile of a ring that was lost with its units kept comes back with its first valid slot in them (R335): ADMITTED, and
READMITTED is raised. -/
def Chip.twinSlot (c : Chip) (n unit : Nat) (s : Slot) : Chip :=
  if c.ringed n && c.twinRole == 3 then
    match (c.port n).devs.find? fun d => d.st == .lost && d.count != 0 && d.wdn == s.wdn && d.first % 512 == unit % 512 with
    | none => c
    | some d =>
      let c := c.putDev n { d with st := .admitted, missed := 0, rseq := [] }
      ((c.listDel n d.serial).raise .TWIN_READMITTED).ringChanged
  else c

/-- TWIN_CTRL.REJOIN: ports and tick are captured; refused while a named port is not near or T is not 16 ticks ahead
(R335). -/
def Chip.rejoin (c : Chip) : Chip :=
  let ports := c.get .TWIN_REJOIN_PORTS
  let t := c.pair Reg.TWIN_REJOIN_TICK_LO Reg.TWIN_REJOIN_TICK_HI
  if ports = 0 ∨ c.twinRole ≠ 3 then c
  else if portsLess ports (c.get .TWIN_PORTS_NEAR) ≠ 0 ∨ t < c.lastIndex + 16 then c.reject Reg.TWIN_CTRL
  else (c.onTwin fun x => { x with rejoin := some (ports, t) }).emit (.twin 13 [ports, t] [])

/-- At tick T the non-active sender yields the ports the active one named, and the active one withdraws SPLIT there
(R335). -/
def Chip.rejoinAtTick (c : Chip) (ports t : Nat) : Chip :=
  if c.twinRole = 3 then
    match c.twin.rejoin with
    | none => c
    | some r =>
      if r.2 ≤ c.lastIndex then
        (c.each ((portsOf r.1).filter fun n => bitAt (c.get .TWIN_PORTS_SPLIT) n) fun c n =>
          (c.setSplit n false).emit (.twin 8 [n, 0] [])).rejoinDone
      else c
  else if c.twinOn && decide (t ≤ c.lastIndex) then
    let gone := (portsOf ports).filter fun n => bitAt (c.get .TWIN_PORTS_SPLIT) n
    (c.each gone fun c n => c.setSplit n false).yieldOn (maskOf ((portsOf ports).filter fun n => bitAt (c.get .TWIN_PORTS_NEAR) n))
  else c

/-- The active sender's part of a rejoin whose tick has come (R335). -/
def Chip.rejoinDue (c : Chip) : Chip := if c.twinRole = 3 then c.rejoinAtTick 0 0 else c

/-- SPLIT is granted to, or withdrawn from, this sender for a port: the tiles the active one lists as lost are served in their
own units (R335). -/
def Chip.splitGrant (c : Chip) (n : Nat) (on : Bool) : Chip :=
  if c.twinOn && c.twinRole != 3 && c.near n && c.ringed n && (c.twin.up || !on) then
    let c := c.setSplit n on
    if on then
      c.each ((c.port n).devs.filter fun d => d.st == .lost && d.count != 0) fun c d =>
        c.putDev n { d with st := .admitted, missed := 0, rseq := [] }
    else c
  else c

/-! ### The state copy -/

/-- The RTP timestamp of the frame a context latched, while it is RUNNING. -/
def Chip.latchedRtp (c : Chip) (x : Nat) : Option Nat :=
  if c.get (.INGEST_CTX_STAT_STATE (x / 4) (x % 4)) = 2 then
    match c.ing.ctxs[x]? with
    | none => none
    | some k => k.latched.bind fun b => (listAt k.bufs b none).map (·.rtp)
  else none

/-- RTP timestamps of the running contexts (R336). -/
def Chip.stampsNow (c : Chip) : List (Nat × Nat) := (List.range 16).filterMap fun x => (c.latchedRtp x).map fun r => (x, r)

/-- CRC rectangle values (R336). -/
def Chip.crcsNow (c : Chip) : List Nat := (List.range 16).map fun k => c.nat (Reg.SCAN_CRC_VAL k)

/-- The state copy of period `p` as this sender stands (R336). -/
def Chip.copyNow (c : Chip) (p : Nat) : Copy :=
  { period := p, pairs := c.well.pairs, taken := c.well.taken, fwToken := c.well.fwToken
    ports := c.ringPorts.map fun n => ⟨n, (c.port n).devs, (c.port n).ctr, (c.port n).session, c.slot (8 + n), c.census n⟩
    commits := c.fab.commits.map fun x => (x.page, x.held, x.released.map (·.tick))
    fences := (List.range 16).map fun k => c.nat (Reg.LOOM_FENCE k), holds := c.loom.held
    servo := c.servo, freq := c.bell.freq, offset := c.bell.offset, last := c.lastIndex
    switch := c.switch, modeStat := c.nat Reg.SYS_MODE_STAT, rel := c.upd.rel, crcs := c.crcsNow, stamps := c.stampsNow
    job := c.halo.job.isSome, run := c.accBusy }

/-- At a tick the active sender sends the copy of the period before, and each Elder's record it counts goes to the peer
(R336, R340). -/
def Chip.twinTick (c : Chip) : Chip :=
  if c.twinOn then
    let c := c.onTwin fun t => { t with mand := t.mand.map fun m => { m with age := min (m.age + 1) 255 } }
    let c := c.showMandates
    let c := if c.twinRole = 3 ∧ c.twin.up = true ∧ c.flag .TWIN_STAT_SOLO = false ∧ 0 < c.lastIndex then
        (c.onTwin fun t => { t with copyOut := some (c.lastIndex - 1), late := false }).emit (.copy (c.copyNow (c.lastIndex - 1)))
      else c
    let c := if c.twin.up then
        c.each [0, 1, 2] fun c k =>
          match c.twin.mand[k]? with
          | none => c
          | some m => if m.known then c.emit (.twin 9 [k, m.holder, m.epoch] []) else c
      else c
    c.each [0, 1, 2] fun c k =>
      let wdn := c.get (.ELDER_NOM_WDN k)
      match c.ringPorts.find? fun n => c.near n && c.linkUpAt n && ((c.devWdn n wdn).isSome || c.twinRole == 2) with
      | none => c
      | some n =>
        if c.flag (.ELDER_NOM_VALID k) && (c.devWdn n wdn).isSome then
          c.sendFw n 0 wdn 2 Reg.ELDER_T_PEER 0
            (leBytes 4 ((if c.get .TWIN_STAT_PEER = 1 then 2 ^ 31 else 0) + c.get .TWIN_STAT_ELIGIBLE * 2 ^ 30 + c.sidx * 65536))
        else c
  else c

/-- The peer is heard: the silence and the freeze end (R338). -/
def Chip.twinHeard (c : Chip) : Chip := c.onTwin fun t => { t with heardAt := c.age, frozen := false }

/-- The Well, chains, commits and fences of a copy replace the standby's own (R336, R343); the census of a port on which this
sender is near is its own. -/
def Chip.takeCopy (c : Chip) (cp : Copy) : Chip :=
  let c := c.onWell fun w => { w with pairs := cp.pairs, taken := cp.taken, fwToken := cp.fwToken }
  let c := c.each cp.ports fun c x =>
    let c := if x.session.isSome then c.setSlot (8 + x.n) x.key else c
    let c := if c.near x.n then c else c.put (.CHAIN_STATE_CENSUS x.n) x.census
    (c.onPort x.n fun p => { p with devs := x.devs, ctr := max p.ctr x.ctr, session := x.session }).put
      (.CHAIN_STATE_ADMITTED x.n) (x.devs.filter Dev.inService).length
  let at_ := fun pg => ((c.fab.commits.find? (·.page == pg)).map (·.at_)).getD c.age
  let c := c.onFab fun f => { f with
    commits := cp.commits.map fun x => ⟨x.1, at_ x.1, x.2.1, x.2.2.map fun t => ⟨t, c.age⟩⟩ }
  let c := c.each (List.range 16) fun c k => match cp.fences[k]? with | some v => c.setNat (Reg.LOOM_FENCE k) v | none => c
  let c := (c.onLoom fun l => { l with held := cp.holds }).onUpd fun u => { u with rel := cp.rel }
  { c.setNat Reg.SYS_MODE_STAT cp.modeStat with switch := cp.switch }

/-- The standby's health flags (R338). -/
def Chip.healthFlags (c : Chip) : Nat :=
  let b := fun (k : Nat) (x : Bool) => if x then 2 ^ k else 0
  let same := match c.twin.copy with
    | none => false
    | some cp => cp.stamps.all fun s => c.latchedRtp s.1 == some s.2
  let crc := match c.twin.copy with | none => false | some cp => !c.twin.digestOk || cp.crcs == c.crcsNow
  let sess := c.twin.keyed && c.ringPorts.all fun n => (c.slot (8 + n)).state == 1
  b 0 (c.servo == 2) + b 1 same + b 2 crc + b 3 (c.granOn && c.granChannels.all fun n => c.chanState n == 2) +
    b 4 (c.ringPorts.all fun n => c.linkUpAt n) + b 5 (c.flag .TWIN_STAT_SYNCED) + b 6 c.twin.digestOk +
    b 7 (c.get .WEATHER_TEMP_LEVEL == 0) + b 8 sess

/-- Flags 0 to 6 and 8 hold (R338). -/
def healthGood (flags : Nat) : Bool := flags % 128 == 127 && bitAt flags 8

/-- The standby evaluates its health at a tick: ELIGIBLE while the last two reports were good, unless frozen (R338). -/
def Chip.healthReport (c : Chip) : Chip :=
  if c.twinOn && c.twinRole != 3 then
    let f := c.healthFlags
    let good := if healthGood f then min (c.twin.good + 1) 2 else 0
    let c := c.onTwin fun t => { t with good := good }
    let c := if c.twin.frozen then c
      else c.put .TWIN_STAT_ELIGIBLE (if good = 2 ∧ c.twinRole = 2 ∧ c.twin.up = true then 1 else 0)
    c.when c.twin.up fun c => c.emit (.twin 5 [f, c.get .TWIN_PORTS_NEAR] [])
  else c

/-- A state copy arrives at the standby; `same` is whether the digest it carries equals that of this sender's mirrored
registers: a digest that differs makes it ask for a full resynchronisation. The answer is the health report (R336). -/
def Chip.copyIn (c : Chip) (cp : Copy) (same : Bool) : Chip :=
  if c.twinOn && c.twinRole != 3 && c.twin.up && c.twin.keyed then
    let c := c.twinHeard.takeCopy cp
    let c := c.onTwin fun t => { t with copy := some cp, digestOk := same }
    let c := if same && c.twinRole == 2 then
        if c.flag .TWIN_STAT_SYNCED then c else (c.put .TWIN_STAT_SYNCED 1).raise .TWIN_SYNCED
      else c.put .TWIN_STAT_SYNCED 0
    let c := c.when (!same) fun c => c.emit (.twin 12 [cp.period] [])
    c.emit (.twin 5 [c.healthFlags, c.get .TWIN_PORTS_NEAR, cp.period] [])
  else c

/-- The active sender's view of its peer from a health report (TWIN_STAT.PEER). -/
def Chip.judgePeer (c : Chip) (flags : Nat) : Chip :=
  let good := if healthGood flags then min (c.twin.good + 1) 2 else 0
  let c := (c.onTwin fun t => { t with good := good }).put .TWIN_HEALTH_FLAGS flags
  if good = 2 then c.put .TWIN_STAT_PEER 0
  else if healthGood flags then (if c.get .TWIN_STAT_PEER = 0 then c else c.put .TWIN_STAT_PEER 2)
  else
    let was := c.get .TWIN_STAT_PEER
    let c := c.put .TWIN_STAT_PEER 2
    c.when (was != 2) fun c => c.raise .TWIN_PEER_INELIGIBLE

/-- The acknowledgement of a copy, with the peer's health flags and near ports (R336, R337): mirror writes before it are
acknowledged, entries of its period and earlier are written, SYNCED reads 1. The copy's size in KiB is left open (the chapter
gives its items and no layout, log entry 35). -/
def Chip.copyAck (c : Chip) (period flags near : Nat) : Chip :=
  if c.twinRole = 3 ∧ c.twin.up = true then
    let c := (c.twinHeard.onTwin fun t => { t with peerNear := near % 65536 }).judgePeer flags
    let c := if c.twin.copyOut = some period then
        let c := c.onTwin fun t => { t with copyOut := none }
        let c := ((c.put .TWIN_COPY_STAT_ACK_TICK period).put .TWIN_COPY_STAT_KIB (c.drawn % 65536)).redraw
        let c := c.mirrorAcked.releaseHeld period
        if c.flag .TWIN_STAT_SYNCED then c else (c.put .TWIN_STAT_SYNCED 1).raise .TWIN_SYNCED
      else c
    c.ringChanged
  else c

/-- A copy not acknowledged by P ÷ 2 after its tick (R336). -/
def Chip.copyLate (c : Chip) : Chip :=
  match c.twin.copyOut with
  | none => c
  | some p =>
    if c.twin.late = false ∧ c.tickTime (p + 1) + c.period / 2 ≤ c.bell.time then
      (((c.onTwin fun t => { t with late := true }).count Reg.TWIN_COPY_LATE).put .TWIN_STAT_SYNCED 0).raise .TWIN_COPY_LATE
    else c

/-- A keep-alive: the standby sends one every 125 µs; the active sender hears it, and the mirror writes before it are
acknowledged (R336). -/
def Chip.keepAlive (c : Chip) : Chip :=
  if !c.twin.up then c
  else if c.twinRole = 3 then c.twinHeard.mirrorAcked
  else if c.twinOn then
    let c := c.elapseAge (c.twin.aliveAt + us 125)
    (c.onTwin fun t => { t with aliveAt := c.age }).emit (.twin 6 [] [])
  else c

/-! ### The twin link -/

/-- The pair's handshake: certificates, owner keys and signatures must hold, and slot 4 takes the derived key (R359); `peer` is
whether the peer reports EN, this sender as its peer and the same ring ports (R328). -/
def Chip.pairShake (c : Chip) (cert owner sig peer : Bool) (eph : Nat) : Chip :=
  if c.enabled 0x90 && c.twin.up && c.flag .TWIN_CFG_EN && (c.slot 3).state == 1 && c.fuses.lifecycle != 2 then
    let e := c.randomNow
    let c := (c.emit (.twin 0 [c.sidx] c.idCert)).redraw
    if cert && owner && sig then
      let c := c.setSlot 4 (loadedSlot 2 (Config.kdf 6 [e, eph]) (c.lastIndex / 2 ^ 20) none)
      c.onTwin fun t => { t with keyed := true, peerOk := peer, heardAt := c.age, epoch := c.lastIndex / 2 ^ 20 }
    else c.onTwin fun t => { t with keyed := false, peerOk := false }
  else c

/-- The sender whose state the pair follows: the active one, or the primary before Twin mode is armed (R328). -/
def Chip.leads (c : Chip) : Bool := c.twinRole == 3 || (c.twinRole == 0 && c.flag .TWIN_CFG_PRIMARY)

/-- The enabled mirror windows: base and bytes. -/
def Chip.mirrorWindows (c : Chip) : List (Nat × Nat) :=
  ((List.range 8).filter fun k => c.flag (.TWIN_MW_BASE_EN k) && c.get (.TWIN_MW_SIZE_MIB k) != 0).map fun k =>
    (c.get (.TWIN_MW_BASE_ADDR k) * 4096, c.get (.TWIN_MW_SIZE_MIB k) * 2 ^ 20)

/-- The registers whose accepted writes the active sender of a pair sends to the standby (R336): the SYS mode registers, the
BELL, CRIER fabric hold, CHAIN, RET, INGEST, LOOM, SCAN, HALO limit, ARB and WELL pages. -/
def mirroredReg (a : Nat) : Bool :=
  let p := a / 0x1000
  [Reg.SYS_MODE_ARM, Reg.SYS_MODE_TICK_LO, Reg.SYS_MODE_TICK_HI, Reg.SYS_MODE_CTRL, Reg.CRIER_FAB_HOLD,
      Reg.CRIER_FAB_REL_TICK_LO, Reg.CRIER_FAB_REL_TICK_HI, Reg.HALO_LIM_DIAG, Reg.HALO_LIM_MISC].contains a ||
    [0x03, 0x30, 0x68, 0x75, 0x80].contains p || (0x20 ≤ p && p ≤ 0x2f) || (0x42 ≤ p && p ≤ 0x45) ||
    (0x50 ≤ p && p ≤ 0x60)

/-- What a full resynchronisation sends (R337): the contents of every mirror window, the mirrored registers that are not 0, and
the state copy. -/
def Chip.resyncSend (c : Chip) : Chip :=
  if c.leads then
    let c := c.each c.mirrorWindows fun c w => c.emit (.twin 1 [w.1] (c.gPeek w.1 w.2).1)
    let regs := c.regs.filter fun r => mirroredReg r.1
    let c := c.each regs fun c r => c.emit (.twin 2 [r.1, r.2.toNat] [])
    c.emit (.copy (c.copyNow (c.lastIndex - 1)))
  else c

/-- A full resynchronisation begins: the standby reads RESYNC and is not eligible until it completes (R337, TWIN_CTRL). -/
def Chip.resyncBegin (c : Chip) : Chip :=
  let c := (c.onTwin fun t => { t with resync := true, resyncAt := c.age, good := 0 }).put .TWIN_STAT_SYNCED 0
  let c := if c.twinRole = 2 then (c.put .TWIN_STAT_ROLE 1).put .TWIN_STAT_ELIGIBLE 0 else c
  (c.emit (.twin 7 [] [])).resyncSend

/-- TWIN_CTRL.RESYNC (R337). -/
def Chip.resync (c : Chip) : Chip :=
  if c.enabled 0x90 && c.twin.up && c.twin.keyed && c.flag .TWIN_CFG_EN then c.resyncBegin else c

/-- Time passes for a full resynchronisation: the windows at 4 GB/s, and 10 ms (R337). -/
def Chip.resyncElapse (c : Chip) : Chip :=
  if c.twin.resync && c.twin.up then
    c.elapseAge (c.twin.resyncAt + ms 10 + (c.mirrorWindows.foldl (fun n w => n + w.2) 0) * 16384)
  else c

/-- A full resynchronisation completes (R337): the pair is no longer SOLO. -/
def Chip.resyncDone (c : Chip) : Chip :=
  if c.twin.resync = true ∧ c.twin.up = true then
    let c := (c.onTwin fun t => { t with resync := false, digestOk := true, heardAt := c.age, frozen := false }).put .TWIN_STAT_SOLO 0
    let c := if c.twinRole = 1 then c.put .TWIN_STAT_ROLE 2 else c
    let c := c.when (c.get .TWIN_STAT_PEER == 3) fun c => c.put .TWIN_STAT_PEER (if c.twinRole = 3 then 2 else 0)
    (c.put .TWIN_STAT_SYNCED 1).raise .TWIN_SYNCED
  else c

/-- The twin link goes down (R335, R337): SPLIT is not kept, the active sender runs SOLO, the standby is not eligible unless
its eligibility is frozen (R338). -/
def Chip.twinDown (c : Chip) : Chip :=
  if c.twin.up then
    let c := c.onTwin fun t => { t with up := false, keyed := false, resync := false, copyOut := none, good := 0 }
    let c := ((c.put .TWIN_STAT_SYNCED 0).put .TWIN_STAT_PEER 3).raise .TWIN_LINK_DOWN
    let c := c.each ((List.range 16).filter fun n => bitAt (c.get .TWIN_PORTS_SPLIT) n) fun c n => c.setSplit n false
    if c.twinRole = 3 then (c.put .TWIN_STAT_SOLO 1).releaseAll
    else if c.twin.frozen then c
    else c.put .TWIN_STAT_ELIGIBLE 0
  else c

/-- The twin link is UP: its handshake can begin, and a full resynchronisation follows by itself (R337). -/
def Chip.twinUp (c : Chip) : Chip :=
  if c.isSender && c.enabled 0x90 && c.flag .TWIN_CFG_EN && c.portState 10 0 == 6 && !c.twin.up then
    ((c.onTwin fun t => { t with up := true, heardAt := c.age, aliveAt := c.age, frozen := false }).raise .TWIN_LINK_UP).resyncBegin
  else c

/-- Nothing from the peer for 125 µs: ELIGIBLE is frozen (R338). -/
def Chip.linkQuiet (c : Chip) : Chip :=
  if c.twinOn && c.twinRole != 3 && c.peerQuiet (us 125) then c.onTwin fun t => { t with frozen := true } else c

/-- 500 µs of silence of the twin link: with no beacon of the active sender for as long the peer is silent, with beacons still
arriving the link is down and this sender is not eligible (R338, R342). -/
def Chip.peerSilent (c : Chip) : Chip :=
  if c.twinOn && c.peerQuiet (us 500) then
    if c.twinRole = 3 ∨ c.twin.beaconAt + us 500 ≤ c.age then
      let was := c.get .TWIN_STAT_PEER
      let c := c.put .TWIN_STAT_PEER 1
      c.when (was != 1) fun c => c.raise .TWIN_PEER_SILENT
    else (c.put .TWIN_STAT_PEER 3).put .TWIN_STAT_ELIGIBLE 0
  else c

/-! ### Becoming active -/

/-- What was in flight is sent again with its recorded token and CFLAGS.REPLAY (R341 step 1). -/
def Chip.resend (c : Chip) (t : Taken) : Chip :=
  match c.pairAt t.pair with
  | none => c
  | some p =>
    let d := t.desc
    if d.op = 0x10 ∨ d.op = 0x11 then c
    else
      let c := c.count Reg.TWIN_REPLAYED
      let cmd := c.descCmd d t.token true
      let mark := fun (c : Chip) (ports : List Nat) => c.onWell fun x => { x with
        taken := x.taken.map fun u => if u.num = t.num then { u with cells := ports, waits := [], replay := true } else u }
      if d.tgt = 0 then
        match c.portOfWdn p.wdn with
        | some n => (mark c [n]).queueCmd n 0 p.wdn t.num cmd
        | none => (mark c []).outcome t.num 0x100 p.wdn 2 0 false []
      else
        let ports := c.multiPorts d
        let c := mark c ports
        let c := c.each ports fun c n => c.queueCmd n (if d.tgt = 2 then 2 else 3) (if d.tgt = 2 then d.group else 0) t.num cmd
        c.tryComplete t.num

/-- A Halo job or run in progress at the failed sender ends on the new active one (R341): the job FAILED with cause RUN; the run,
whose own causes name no such end, ABORTED with cause 0 (DEDUCED, log entry 191). -/
def Chip.haloEnds (c : Chip) : Chip :=
  match c.twin.copy with
  | none => c
  | some cp =>
    let c := c.when cp.run fun c => ((c.put .HALO_ACC_STAT_STATE 4).put .HALO_ACC_STAT_CAUSE 0).raise .HALO_RUN_ABORT
    c.when cp.job fun c => ((c.setJob 7).put .HALO_JOB_STAT_CAUSE 6).raise .HALO_JOB_FAIL

/-- The second mandate is gained: near on every ring port whose receive lanes are down; the rings resume from the last copy,
the counters from the larger known value plus 2^32, and what was in flight is replayed (R340, R341). A pending mode switch or
release goes on from the copy: the tick's own rules complete or abort it (R342). -/
def Chip.activate (c : Chip) : Chip :=
  let c := (c.put .TWIN_STAT_ROLE 3).onTwin fun t => { t with frozen := false, good := 0 }
  let c := (c.put .TWIN_STAT_SOLO (if c.twin.up then 0 else 1)).put .TWIN_STAT_ELIGIBLE 0
  let c := c.setNear (maskOf (c.ringPorts.filter fun n => c.near n || !c.linkUpAt n))
  let c := (c.count Reg.TWIN_SWITCH_CNT).raise .TWIN_ACTIVE_ON
  let c : Chip := { c with ports := c.ports.map fun (p : Port) => { p with ctr := p.ctr + 2 ^ 32, flight := [] } }
  let tails := c.twin.tails
  let c := c.onWell fun w => { w with
    pairs := w.pairs.map fun (x : Nat × Pair) => (x.1, { x.2 with sqTail := (assoc tails x.1).getD x.2.sqTail })
    nextNum := w.taken.foldl (fun m (t : Taken) => max m (t.num + 1)) w.nextNum }
  let c := c.onTwin fun t => { t with
    replay := (c.well.pairs.filter fun (x : Nat × Pair) => x.2.sqHead != x.2.sqTail).map fun x => (x.1, x.2.sqTail) }
  (c.each c.well.taken Chip.resend).haloEnds

/-- Is the head of a pair's ring among the descriptors being replayed (R341 step 2)? -/
def Chip.replaying (c : Chip) (w : Nat) : Bool :=
  match c.pairAt w, assoc c.twin.replay w with
  | some p, some e => p.sqHead != e
  | _, _ => false

/-- A replayed descriptor is counted; past the mirrored tail the ring's replay ends. -/
def Chip.replayStep (c : Chip) (w : Nat) : Chip :=
  let c := c.count Reg.TWIN_REPLAYED
  if c.replaying w then c else c.onTwin fun t => { t with replay := t.replay.filter (·.1 != w) }

/-- The count of mandates as it stands makes the sender active, or makes it yield (R340). -/
def Chip.mandateEval (c : Chip) : Chip :=
  let n := c.mandates
  if 2 ≤ n ∧ c.twinRole ≠ 3 then
    if c.twinRole = 4 then c.put .TWIN_STAT_ROLE 3 else c.activate
  else if n < 2 ∧ (c.twinRole = 3 ∨ c.twinRole = 4) then c.yield
  else c

/-- A MANDATE record of Elder `k`, received directly or over the twin link (R340). -/
def Chip.mandateIn (c : Chip) (k holder epoch : Nat) : Chip :=
  if c.twinOn && decide (k < 3) then
    let one : Twin → Nat → Mandate := fun t j =>
      let m := listAt t.mand j ⟨false, 0, 0, false, 255, false⟩
      if j = k then m.take holder epoch else m
    let c := c.onTwin fun t => { t with mand := (List.range 3).map (one t) }
    c.showMandates.mandateEval
  else c

/-- Nothing from an Elder for 8 superframes: ELDER_SILENT, and ELDERS_LOST when fewer than two are heard (R340). -/
def Chip.elderSilent (c : Chip) (k : Nat) : Chip :=
  match c.twin.mand[k]? with
  | none => c
  | some m =>
    if c.twinOn && decide (8 ≤ m.age) && !m.told then
      let c := (c.onTwin fun t => { t with mand := listPut t.mand k { m with told := true } }).raise .ELDER_ELDER_SILENT
      c.when (decide (c.eldersHeard < 2)) fun c => c.raise .ELDER_ELDERS_LOST
    else c

/-- A silent twin link and no Elder for 8 superframes isolate the active sender (R342). -/
def Chip.isolated (c : Chip) : Chip :=
  if c.twinOn && c.twinRole == 3 && c.peerQuiet (us 500) && c.eldersHeard == 0 then
    (c.put .TWIN_STAT_ROLE 4).raise .TWIN_ISOLATED
  else c

/-- A far sender's PRESENCE slot in answer unit 0 (R330, R331). -/
def Chip.presenceSlot (c : Chip) (n : Nat) : Chip :=
  if c.twinOn && c.ringed n && !c.near n && c.linkUpAt n && c.sends n then
    let r := Rec.presence (c.get .TWIN_STAT_PEER == 1) (c.flag .TWIN_STAT_ELIGIBLE) c.healthFlags
      (match c.twin.copy with | some cp => cp.period % 2 ^ 32 | none => 0)
    c.sendCell n (.slot 1024
      { wdn := c.sidx, rseq := 0, shown := 0, status := 0, offset := 0, seqU := 0, b1 := 0, b2 := 0, seqD := 0, a1 := 0
        a2 := 0, recs := [r] })
  else c

/-- A beacon of the active sender reaches a ring port of the standby (R330, R338). -/
def Chip.farBeacon (c : Chip) (n : Nat) : Chip :=
  if c.twinOn && c.ringed n then c.onTwin fun t => { t with beaconAt := c.age } else c

/-- The segment's descriptor comes from the active sender: its cell is sent to the tile (R335). -/
def Chip.segmentCmd (c : Chip) (wdn : Nat) (cmd : Cmd) : Chip :=
  match c.portOfWdn wdn with
  | some n =>
    if c.serves n then
      c.onPort n fun p => { p with cmds := p.cmds ++ [({ amode := 0, dest := wdn, ke := 0, sidx := c.sidx, port := n }, cmd, none)] }
    else c
  | none => c

/-- A record that the near sender itself acts on: an Elder's mandate (R340). -/
def Rec.isMandate : Rec → Bool
  | .mandate _ _ => true
  | _ => false

/-- Records that reach a sender which is not active go on to the active one under split service; without it nothing takes them
(R333, R335). -/
def Chip.segmentOut (c : Chip) (n : Nat) : Chip :=
  if c.twinOn && c.twinRole < 3 then
    let mine := fun (x : Nat × Nat × Rec) => x.1 == n && !x.2.2.isMandate
    let out := c.well.queue.filter mine
    let c := (c.onWell fun w => { w with queue := w.queue.filter fun x => !mine x }).showBurst
    if bitAt (c.get .TWIN_PORTS_SPLIT) n then c.each out fun c x => c.emit (.segment n x.2.1 x.2.2) else c
  else c

/-- A record of a tile that the peer serves enters the burst queue here (R335). -/
def Chip.segmentIn (c : Chip) (n wdn : Nat) (r : Rec) : Chip :=
  if c.twinRole = 3 ∧ c.segment.contains wdn = true then
    match r with
    | .completion token status cause dup data =>
      match c.well.taken.find? fun t => t.token == token && t.waits.contains (0x100, wdn) with
      | some t => c.outcome t.num 0x100 wdn status cause dup data
      | none => c
    | r => c.accept n wdn r
  else c

/-- The pair key's next epoch: the active sender draws R and sends it (R359). -/
def Chip.twinRekey (c : Chip) : Chip :=
  let k := c.slot 4
  if c.twinRole = 3 ∧ c.twin.up = true ∧ c.twin.keyed = true ∧ k.next = none then
    let e := c.twin.epoch + 1
    let c := (c.redraw.setSlot 4 { k with next := some (Config.kdf 3 [c.randomNow, k.key, e]) })
    c.emit (.twin 10 [e] [])
  else c

/-- The pair key moves on at its epoch boundary (R359). -/
def Chip.twinEpoch (c : Chip) : Chip :=
  let k := c.slot 4
  let e := c.lastIndex / 2 ^ 20
  if c.twin.keyed = true ∧ c.twin.epoch < e ∧ k.next.isSome = true then
    ((c.setSlot 4 { k with key := k.next.getD k.key, next := none, epoch := e }).onTwin fun t => { t with epoch := e }).raise
      .KEYS_REKEYED
  else c

/-! ### Tiles: Elders and turning -/

/-- A valid beacon of a sender reaches the tile on either port (R339). -/
def Chip.beaconHeard (c : Chip) (sidx : Nat) : Chip := c.onTile fun t => { t with heard := assocPut t.heard sidx c.age }

/-- No beacon of a sender for 500 µs (R339). -/
def Chip.unheard (c : Chip) (sidx : Nat) : Bool :=
  match assoc c.tile.heard sidx with | none => true | some a => decide (a + us 500 ≤ c.age)

/-- An Elder moves its mandate to the other sender (R339). -/
def Chip.mandateMove (c : Chip) : Chip :=
  let h := c.nat Reg.ELDER_T_HOLDER % 64
  if c.isTile && c.flag .ELDER_T_CFG_ELDER && c.unheard h && c.get .ELDER_T_PEER_SIDX != h &&
      decide (c.get .ELDER_T_PEER_AGE ≤ 2) && c.flag .ELDER_T_PEER_PEER_SILENT && c.flag .ELDER_T_PEER_ELIGIBLE then
    ((c.setNat Reg.ELDER_T_HOLDER (c.get .ELDER_T_PEER_SIDX)).setNat Reg.ELDER_T_EPOCH (c.nat Reg.ELDER_T_EPOCH + 1)).raise
      .ELDER_MANDATE_MOVED
  else c

/-- A sender's report of itself is the Elder's latest (R339, ELDER_T_PEER). -/
def Chip.elderReport (c : Chip) (sidx : Nat) (silent eligible : Bool) : Chip :=
  c.setNat Reg.ELDER_T_PEER
    ((if silent then 2 ^ 31 else 0) + (if eligible then 2 ^ 30 else 0) + sidx % 64 * 65536)

/-- A far sender's PRESENCE record passes an Elder; `tag` is whether its slot's tag verifies (R339). -/
def Chip.presenceIn (c : Chip) (sidx : Nat) (silent eligible tag : Bool) : Chip :=
  if c.isTile && c.flag .ELDER_T_CFG_ELDER && tag then c.elderReport sidx silent eligible else c

/-- A superframe passes: the report's age grows (ELDER_T_PEER.AGE). -/
def Chip.elderAge (c : Chip) : Chip := if c.isTile then c.countF .ELDER_T_PEER_AGE else c

/-- A tile's turn begins (R332): its upstream left UP, or brought no valid beacon for 500 µs, in which case that port is forced to
DETECT; the downstream transmitter goes to electrical idle. Within 100 ms of the last turn the tile does not turn: it
holds. -/
def Chip.turnTrigger (c : Chip) : Chip :=
  let up := c.upPort
  let lost := !c.linkUpAt up
  let silent := decide (c.bell.noBeaconSince + us 500 ≤ c.age)
  if c.isTile && c.flag .ELDER_T_CFG_RING && c.tile.up.isSome && c.get .ELDER_T_STAT_STATE == 0 && (lost || silent) then
    let c := if lost then c else c.setPortState 0 up 1
    if c.tile.turnAt.any (fun a => decide (c.age < a + ms 100)) then c.put .ELDER_T_STAT_STATE 2
    else ((c.put .ELDER_T_STAT_STATE 1).onTile fun t => { t with trigAt := some c.age }).txStop 0 c.downPort
  else c

/-- The unit of a tile's slot toward its other end (R329). -/
def otherUnit (u : Nat) : Nat := if u < 512 then u + 512 else u - 512

/-- The other port becomes the upstream (R332): clock, unit and return advance follow; session, WDN, groups, firmware, front
buffer and state are kept, and so are the records that wait. -/
def Chip.turnTo (c : Chip) (p : Nat) : Chip :=
  let move := fun (l : List (Nat × List Rec)) => l.map fun x => (otherUnit x.1, x.2)
  let c := c.onTile fun t => { t with
    turnAt := some c.age, trigAt := none, sent := move t.sent, rseq := t.rseq.map fun x => (otherUnit x.1, x.2) }
  let c := ((c.put .ELDER_T_STAT_FACING_B p).put .ELDER_T_STAT_STATE 0).countF .ELDER_T_STAT_TURNS
  (c.onBell fun b => { b with noBeaconSince := c.age }).setUp p

/-- After 10 µs of idle with the other port UP the tile turns (R332). -/
def Chip.turnComplete (c : Chip) : Chip :=
  match c.tile.trigAt with
  | none => c
  | some a =>
    if c.get .ELDER_T_STAT_STATE = 1 ∧ a + us 10 ≤ c.age ∧ c.linkUpAt c.downPort = true then
      ((c.turnTo c.downPort).txStart 0 c.downPort).raise .ELDER_TURNED
    else c

/-- The other port is not UP within 2 ms: HOLD (R332, R135). -/
def Chip.turnTimeout (c : Chip) : Chip :=
  match c.tile.trigAt with
  | none => c
  | some a =>
    if c.get .ELDER_T_STAT_STATE = 1 ∧ a + ms 2 ≤ c.age ∧ c.linkUpAt c.downPort = false then
      (((c.put .ELDER_T_STAT_STATE 2).onTile fun t => { t with trigAt := none }).dropSession).setTileState 5
    else c

/-- A tile that holds after a turn it did not make takes as upstream the first port on which valid beacons arrive (R332). -/
def Chip.holdUp (c : Chip) (port : Nat) : Chip :=
  if c.isTile && c.flag .ELDER_T_CFG_RING && c.get .ELDER_T_STAT_STATE == 2 then
    let c := c.put .ELDER_T_STAT_STATE 0
    if port = c.upPort then c
    else (c.setUp port).put .ELDER_T_STAT_FACING_B port
  else c

end Sys2Proof.Machine
end

