-- ==== Sys2Proof/Machine/OpsLinks.lean ====
section
/-!
DEFINITION. What a link's coming up and going down means for the chain (R98, R99, R134, R135, R138), loopbacks and PRBS
generators (R101 to R103), and a quad's stop.
-/

namespace Sys2Proof.Machine

/-! ### Up and down -/

/-- An upstream port that is UP takes a holding tile to UNKNOWN, and with time known a silent one (R135). -/
def Chip.upstreamBack (c : Chip) : Chip :=
  match c.tile.up with
  | some p =>
    if c.linkUpAt p && ((c.servo != 0 && c.tile.st == 0) || c.tile.st == 5) then c.setTileState 1 else c
  | none => c

/-- A tile without an upstream takes the first of its ports to come up, and moves to the one on which beacons arrive while the one
taken has brought none since (R11: the first of its ports to lock to beacons). Log entry 166. -/
def Chip.chooseUp (c : Chip) (p : Nat) (beacon : Bool) : Chip :=
  if c.isTile && decide (p < 2) && c.linkUpAt p &&
    (c.tile.up.isNone || (beacon && !c.tile.locked && c.tile.up != some p)) then c.setUp p else c

/-- The port whose recovered clock a tile transmits on has left UP: the PLL enters holdover, its links stay UP and carry idle blocks;
with the other port UP it relocks to that one (R92). -/
def Chip.clockLost (c : Chip) (p : Nat) : Chip :=
  let c := (c.put (.SERDES_QSTAT_HOLDOVER 0) 1).raise (.SERDES_HOLDOVER 0)
  if c.linkUpAt (1 - p) then c.setClock (1 - p) else c.transmit 0 (1 - p) [idleBlock]

/-- A tile's upstream port has left UP: in a plain chain session and units go, an admitted tile holds its frame, the others fall silent,
and the choice of the port ends (R11, R135). A ring's tile turns (R332). -/
def Chip.upstreamLost (c : Chip) : Chip :=
  if c.flag .ELDER_T_CFG_RING then c
  else
    let st := c.tile.st
    let c := if st = 0 ∨ st = 5 then c else c.dropSession.setTileState (if st = 4 then 5 else 0)
    c.onTile fun t => { t with up := none, locked := false }

/-- A sender's chain port has left UP: every tile of the port is LOST, and the port is DOWN (R134); on a ring's port the
sender becomes near (R333). -/
def Chip.senderPortLost (c : Chip) (n : Nat) : Chip :=
  let c := c.each ((c.port n).devs.filter fun d => d.st != .lost && d.st != .stranger && d.st != .foreign) fun c d =>
    c.loseDev n d
  ((c.put (.CHAIN_STATE_STATE n) 0).nearFor n).ringChanged

/-- The clock that a sender's chain port transmits on: the one recovered from its receive lanes where its clock-source bit says so and
while they are UP, else REFCLK (R94). -/
def Chip.recovers (c : Chip) (q h : Nat) : Bool :=
  (if h = 0 then c.flag (.SERDES_QCFG_CLK_LO q) else c.flag (.SERDES_QCFG_CLK_HI q)) && c.portState q h == 6

/-- A port with its clock-source bit set changes over as its lanes come UP or leave UP (R94). -/
def Chip.portClock (c : Chip) (q h : Nat) : Chip :=
  if c.isSender && (if h = 0 then c.flag (.SERDES_QCFG_CLK_LO q) else c.flag (.SERDES_QCFG_CLK_HI q)) then
    c.emit (.clock q h (c.recovers q h))
  else c

/-- What follows when the port on half `h` of a quad stops being UP. -/
def Chip.portLost (c : Chip) (q h : Nat) : Chip :=
  if c.isTile then
    if q = 0 then
      let c := c.when (c.tile.clk == some h) fun c => c.clockLost h
      if c.tile.up = some h then c.upstreamLost else c.tailEval
    else c
  else if q < 8 then (c.portClock q h).senderPortLost (2 * q + h)
  else if q = 10 ∧ h = 0 then c.twinDown
  else c

/-- A tile takes its clock from a port that is UP while its PLL tracks none, or tracks one that is not UP (R91, R92). -/
def Chip.clockUp (c : Chip) (p : Nat) : Chip :=
  match c.tile.clk with
  | none => c.setClock p
  | some k => if k = p ∨ c.linkUpAt k = false then c.setClock p else c

/-- Adaptation has converged or taken 1 ms: the port is UP, with what its equalisers have found (R97, R98). A tile takes its clock and
its upstream from the first port that comes UP, and its transmitters start (R91); a sender's chain port begins discovery (R134). -/
def Chip.portUp (c : Chip) (q h : Nat) : Chip :=
  if ronunoPort q h = true ∧ c.portState q h = 5 then
    let c := ((c.setPortState q h 6).adaptPort q h).raise (.SERDES_LINK_UP q)
    let n := 2 * q + h
    if c.isTile then
      let c := ((c.clockUp h).chooseUp h false).upstreamBack
      c.when c.tile.trigAt.isNone fun c => (c.txStart 0 0).txStart 0 1
    else
      let c := c.portClock q h
      if q < 8 && c.enabled (0x20 + n) && c.chainState n == 0 && c.serves n then c.startDiscovery n else c
  else c

/-- A port's lanes forget what their receivers followed: missed markers, header marks, half a period's blocks. -/
def Chip.rxClear (c : Chip) (q h : Nat) : Chip :=
  c.each [2 * h, 2 * h + 1] fun c k => c.setLane q k { c.lane q k with missed := 0, hdrs := [], rx := [] }

/-- A port goes to DETECT with LINK_DOWN, and what follows from its leaving UP follows (R99). HI_BER of its lanes clears, whose periods
have ended (DESIGN CHOICE, log entry 167). -/
def Chip.portDown (c : Chip) (q h : Nat) : Chip :=
  let st := c.portState q h
  if ronunoPort q h = false ∨ st = 0 ∨ st = 7 then c
  else
    let c := (c.setPortState q h 1).rxClear q h
    let c := (c.put (.SERDES_L_STAT_HI_BER q (2 * h)) 0).put (.SERDES_L_STAT_HI_BER q (2 * h + 1)) 0
    let c := c.raise (.SERDES_LINK_DOWN q)
    c.when (st == 6) fun c => c.portLost q h

/-- Does a loss criterion of R99 hold on a port? A frequency outside the window is one at a tile, on the port it takes its clock
from. -/
def Chip.lossHolds (c : Chip) (q h : Nat) (w : Loss) : Bool :=
  match w with
  | .signal => true
  | .frequency ppm => c.isTile && (c.tile.clk.isNone || c.tile.clk == some h) && freqOut ppm
  | .headers k l => k / 2 == h &&
      headersLost (((l.map fun x => x == 1 || x == 2).reverse) ++ (c.lane q k).hdrs)
  | .markers => decide (4 ≤ (c.lane q (2 * h)).missed) || decide (4 ≤ (c.lane q (2 * h + 1)).missed)

/-- A loss criterion on a port: an upstream frequency that has been outside the window for 10 µs raises FREQ_OOR beside LINK_DOWN (R91,
R99). -/
def Chip.lineLost (c : Chip) (q h : Nat) (w : Loss) : Chip :=
  if c.lossHolds q h w then
    let c := match w with
      | .frequency ppm =>
        let c := (c.elapse (us 10)).freqSeen q h ppm
        if 2 ≤ c.portState q h ∧ c.portState q h ≤ 6 then c.raise (.SERDES_FREQ_OOR q) else c
      | _ => c
    c.portDown q h
  else c

/-! ### Loopbacks and generators -/

/-- A lane of a tile's upstream port. -/
def Chip.upstreamLane (c : Chip) (q k : Nat) : Bool := c.isTile && q == 0 && c.tile.up == some (k / 2)

/-- Some lane of a quad is looped or generating. -/
def Chip.quadTest (c : Chip) (q : Nat) : Bool := (List.range 4).any fun k => c.laneTest q k

/-- The lanes of a quad follow its loopbacks and generators: a port with a lane in test is DOWN to the chain, one whose test
has ended comes up again (R102). `was` are the lanes in test before. -/
def Chip.testApply (c : Chip) (q : Nat) (was : List Bool) : Chip :=
  c.each [0, 1] fun c h =>
    let before := listAt was (2 * h) false || listAt was (2 * h + 1) false
    let now := fun (k : Nat) => c.laneTest q (2 * h + k)
    if now 0 || now 1 then
      let up := c.portState q h == 6
      let c := (c.put (.SERDES_L_STAT_STATE q (2 * h)) (if now 0 then 7 else 0)).put
        (.SERDES_L_STAT_STATE q (2 * h + 1)) (if now 1 then 7 else 0)
      c.when up fun c => c.portLost q h
    else if before then c.restartPort q h
    else c

/-- The lanes of a quad in test. -/
def Chip.testLanes (c : Chip) (q : Nat) : List Bool := (List.range 4).map fun k => c.laneTest q k

/-- The loopback timer runs while a lane is in test and TIMEOUT is not 0; a write of SERDES_LB starts it anew (R102). -/
def Chip.lbTimer (c : Chip) (q : Nat) (anew : Bool) : Chip :=
  let run := c.quadTest q && c.get (.SERDES_LB_TIMEOUT q) != 0
  let now := (c.quad q).lbAt
  if !run then c.setLbAt q none
  else if anew || now.isNone then c.setLbAt q (some c.age)
  else c

/-- The loopback fields as a write leaves them: lanes without loopback read 0 (R101). -/
def lbMask (q : Nat) (v : Word) : Word :=
  (List.range 4).foldl (fun v k => if testable q k then v else withBits v (2 * k + 1) (2 * k) 0) v

/-- A write of SERDES_LB: only Service mode takes a loopback, and a tile's upstream lane only with a timeout (R102). -/
def Chip.lbWrite (c : Chip) (q : Nat) (v : Word) : Chip :=
  let v := lbMask q v
  let sets := v.toNat % 256 != 0
  let stuck := bitsOf v 31 16 == 0 && (List.range 4).any fun k => c.upstreamLane q k && bitsOf v (2 * k + 1) (2 * k) != 0
  if sets && (c.mode != 5 || stuck) then c.reject (Reg.SERDES_LB q)
  else
    let was := c.testLanes q
    ((c.wr (Reg.SERDES_LB q) v).testApply q was).lbTimer q true

/-- A write of SERDES_Lk_PRBS: the generator only in Service mode, and on a tile's upstream lane only with a timeout; CHK_EN
from 0 to 1 starts the checker (R102, R103). -/
def Chip.prbsWrite (c : Chip) (q k : Nat) (v : Word) : Chip :=
  let gen := bitsOf v 3 3 == 1
  let stuck := c.upstreamLane q k && c.get (.SERDES_LB_TIMEOUT q) == 0 && !c.flag (.SERDES_L_PRBS_GEN_EN q k)
  if !testable q k then c
  else if gen && (c.mode != 5 || stuck) then c.reject (Reg.SERDES_L_PRBS q k)
  else
    let was := c.testLanes q
    let start := bitsOf v 11 11 == 1 && !c.flag (.SERDES_L_PRBS_CHK_EN q k)
    let drives := gen && (!c.flag (.SERDES_L_PRBS_GEN_EN q k) || bitsOf v 2 0 != c.get (.SERDES_L_PRBS_GEN_PAT q k))
    let lock := if bitsOf v 11 11 = 1 then c.get (.SERDES_L_PRBS_CHK_LOCK q k) else 0
    let c := c.wr (Reg.SERDES_L_PRBS q k) (withBits v 16 16 lock)
    let c := (if start then c.checkerStart q k else c).when drives fun c => c.generatorStart q k
    (c.testApply q was).lbTimer q false

/-- Every loopback and generator of a page ends: the fields return to 0, LB_END is raised, the ports come up again (R102). -/
def Chip.testsEnd (c : Chip) (q : Nat) : Chip :=
  if c.quadTest q then
    let was := c.testLanes q
    let c := c.wr (Reg.SERDES_LB q) (withBits (c.rd (Reg.SERDES_LB q)) 7 0 0)
    let c := c.each (List.range 4) fun c k => c.put (.SERDES_L_PRBS_GEN_EN q k) 0
    ((c.raise (.SERDES_LB_END q)).testApply q was).setLbAt q none
  else c

/-- SERDES_LB.TIMEOUT has expired (R102). -/
def Chip.lbExpire (c : Chip) (q : Nat) : Chip :=
  match (c.quad q).lbAt with
  | some a => if a + ms (c.get (.SERDES_LB_TIMEOUT q)) ≤ c.age then c.testsEnd q else c
  | none => c

/-- Service mode is left: every loopback and generator ends (R23, R102). -/
def Chip.serviceEnd (c : Chip) : Chip := c.each (List.range 12) fun c q => c.testsEnd q

/-- The endpoint's configuration space and MSI-X state return to reset: every vector is masked (R323). -/
def Chip.pcieClear (c : Chip) : Chip :=
  let c := c.onPcie fun p => { p with msixEn := false, funcMask := false, vecMask := List.range 64, table := [] }
  (c.setNat Reg.PCIE_MSIX 0).onFab fun f => { f with vecHeld := [] }

/-- The PCIe link goes down: LINK_DOWN is raised, the endpoint's state is reset as for an FLR (R323). -/
def Chip.pcieDown (c : Chip) : Chip :=
  if c.pcie.up then
    (((c.onPcie fun p => { p with up := false }).setNat Reg.PCIE_LINK 0).pcieClear).raise .PCIE_LINK_DOWN
  else c

/-- An Ethernet port's PCS goes down (R144, R163). -/
def Chip.ethGoesDown (c : Chip) (n : Nat) : Chip :=
  if c.isSender && c.flag (.ETH_STAT_LINK n) then (c.setNat (Reg.ETH_STAT n) 0).raise (.ETH_LINK_DOWN n) else c


/-- What else a disabled quad takes down: an Ethernet port, lane M, PCIe (R82). -/
def Chip.quadFunction (c : Chip) (q : Nat) : Chip :=
  if q = 8 ∨ q = 9 then c.ethGoesDown (q - 8)
  else if q = 10 then c.put .WELL_MGMT_STAT_LINK 0
  else if q = 11 then c.pcieDown
  else c

/-- A quad is disabled: its tests end, its PLL and lanes stop, its ports are DOWN (R98, R102). -/
def Chip.quadStop (c : Chip) (q : Nat) : Chip :=
  let c := (c.testsEnd q).put (.SERDES_QSTAT_PLL_LOCK q) 0
  let c := c.each [0, 1] fun c h =>
    let up := c.portState q h == 6
    (((c.setPortState q h 0).rxClear q h).txStop q h).when up fun c => c.portLost q h
  c.quadFunction q

end Sys2Proof.Machine
end

