-- ==== Sys2Proof/Machine/OpsReset.lean ====
section
/-!
DEFINITION. The part as a power-on reset leaves it, and what the other resets and Deep keep (R398, R400, R405).
-/

namespace Sys2Proof.Machine

/-- The Bellringer at reset. -/
def bellReset : Bell :=
  { time := 0, freq := 0, slew := 0, slewDur := 0, inRange := 0, offset := 0, measAt := 0, stepPending := false
    stepArmedTick := none, tick := none, gridTick := none, tickUp := 0, tickTime := 0, floor := 0, open_ := false, lastBeacon := none, beaconRun := 0
    noBeaconSince := 0, tout := [none, none], syncLast := none, syncCap := 0, ptp := [none, none], parent := none
    annAt := [0, 0], syncAt := 0, syncLog := 0, linkDly := [0, 0], asked := [false, false], enAt := 0, spread := 0, echoed := [0, 0] }

/-- The power sequencer at a power-on reset: Off, D0 alone powered, Run the target (PWR_STATE). -/
def powerReset : Power :=
  { state := .off, target := .run, held := false, step := none, queue := [], dom := 1, sram := 1, failed := 0, safe := []
    atTick := none, deepWake := false, wdtAt := 0, wdtStart := false, tripStart := false, booted := false, biasAt := none
    deepAck := none, deepTok := none, deepTick := 0, deepAt := 0 }

/-- The tile's chain state at reset. -/
def tileReset : Tile :=
  { up := none, st := 0, session := none, ctrMax := 0, kept := [], admitTick := 0, rseq := [], recs := [], sent := []
    evq := [], evqOvf := false, subs := [], telDrops := 0, drift := [], unmute := [], image := none, firmware := none
    arm := none, rel := none, modeMiss := false, gmacFail := false, held := false, dupSeen := false, shown := 0, ret := none
    tailOff := false, nonce := 0, answers := [], running := false, bootTold := false, locator := false, stampU := (0, 0, 0)
    stampD := (0, 0, 0), stampTick := 0, turnAt := none, beaconMode := 0, owner := none, heard := [], trigAt := none
    clk := none, locked := false, sidx := 0, sport := 0 }

/-- A Granary channel at reset. -/
def gchanReset : GChan :=
  { ce := [], storm := [], postponed := 0, retrainDue := false, waitUe := none, owner := none, done := 0, last := 0
    refAt := 0, pauseAt := 0, asks := [] }

/-- The Granary at reset. -/
def granReset : Gran :=
  { mem := [], poison := [], written := [], filling := [], waiting := [], chans := List.replicate 4 gchanReset, migr := none
    spareUsed := false, disableWait := false, scrubAt := 0, asleep := [] }

/-- The Well at reset. -/
def wellReset : Well :=
  { pairs := [], taken := [], nextNum := 0, fwToken := 0, mcToken := 0, queue := [], held := [], draining := false }

/-- The Gatehouse at reset: M0 to M3 zero (R350), the reset policy (R364), empty slots. -/
def gateReset : Gate :=
  { m := [0, 0, 0, 0], slots := List.replicate 32 emptySlot, retained := [], pol := [], polShadow := [], revoked := 0
    nonce := [], quarFrom := 0 }

/-- The twin engine at reset. -/
def twinReset : Twin :=
  { up := false, keyed := false, peerOk := false, heardAt := 0, beaconAt := 0, peerNear := 0, good := 0, frozen := false
    resync := false, copyOut := none, late := false, doorbells := [], rejoin := none, yieldPorts := 0, yieldAt := 0
    mand := List.replicate 3 ⟨false, 0, 0, false, 0, false⟩, copy := none, digestOk := false, tails := [], replay := []
    epoch := 0, aliveAt := 0, resyncAt := 0 }

/-- The Cavas engine at reset, its flash not yet read. -/
def updReset : Upd :=
  { chunks := [], dirOk := false, slots := List.replicate 4 slotEmpty, cfgs := [], read := false, rel := none, trialAt := none
    missed := [], retryAt := 0, oldSections := [], runB := false }

/-- The Lamplighter at reset. -/
def lampReset : Lamp :=
  { grid := none, seg := 0, row := 0, runs := [], rowRuns := [], opens := [], sampled := [], ocRuns := [0, 0, 0, 0]
    ocAges := [], ocPairs := [], ocOff := [], dark := [], sweep := [], sweepOn := false, sweepAt := 0, faults := []
    iref := 0, irefOk := none, fade := ⟨one32, one32, some 0, 0, true⟩, fadeNext := false, fadeWr := false, factor := one32, waitTick := false
    vmin := [none, none, none, none], last := (0, 0), cover := none, meas := [], next := none, held := none
    lastOn := [] }

/-- The part right after a power-on reset: every register at its reset value, every other field empty, with blank fuses of a
part in the FIELD state (the reset part's fuses are the model's choice, log entry 36). -/
def chipReset : Chip :=
  { regs := [], shadow := [], age := 0
    fuses := { secret := 0, lot := 0, wafer := 0, dieX := 0, dieY := 0, site := 0, serial := 0, mac := 0, pcieId := 0, lifecycle := 1
               claims := [], tamperCnt := 0, svn := 0, disagree := 0 }
    fab := { commits := [], held64 := [], sgi := 0, gpio := 0, gpioRun := List.replicate 16 0, vecSeen := [], vecHeld := []
             cores := List.replicate 4 ⟨false, false, []⟩, epoch := 0, draining := 0 }
    bell := bellReset, pwr := powerReset
    wx := { readings := [], prev := none, okRun := 0, orderlyAt := none, coolAt := none, trips := [], peakNew := true, readAt := 0, tfAt := 0 }
    quads := List.replicate 12 emptyQuad
    ports := List.replicate 16 emptyPort, tile := tileReset
    pcie := { up := false, msixEn := false, funcMask := false, vecMask := List.range 64, table := [] }
    gran := granReset, well := wellReset
    mgmt := { session := false, hello := none, lastSeq := 0, kept := [], held := [], heardAt := 0, notified := [] }
    switch := none
    store := { factory := true, wdns := [], descs := [], tampers := [], owner := none, cals := [] }
    gate := gateReset, twin := twinReset, upd := updReset
    scan := { map := [], frame := 0, line := 0, run := false, slices := [], told := [], swiftTold := false, underTold := false
              critTold := [], crc := [], rearm := 15, view := [] }
    ing := { ctxs := List.replicate 16 ctxEmpty, cram := [], joins := [], repeats := [] }
    loom := { lut := [], fences := [], held := [], bufs := List.replicate 16 none }
    nim := { mem := [], code := 0, cause := 0, period := 0, open_ := false, decided := false, swapped := false
             heldTold := false, frameFlags := 0, sum := 0, limk := 65536, limited := false, band := 0
             aad := [], ct := [], tag := [], hdr := ⟨0, 0, 0, 0, 0⟩, readyAt := 0 }
    lamp := lampReset
    halo := { sensors := List.replicate 8 sensorReset, startTick := 0, frameAt := 0, zeroing := false, push := none
              job := none, cards := [], cals := [] }
    scanHold := 0, out := [], draws := 0 }

/-- What no reset reaches: the fuses, the flash with the stored configuration, the pins, time as the outside counts it, and
the record of what was sent. -/
def Chip.lasting (c : Chip) : Chip :=
  { chipReset with
    age := c.age, fuses := c.fuses, store := c.store, out := c.out, draws := c.draws
    fab := { chipReset.fab with gpio := c.fab.gpio }
    upd := { updReset with
      slots := c.upd.slots, cfgs := c.upd.cfgs, read := c.upd.read, chunks := c.upd.chunks, dirOk := c.upd.dirOk
      trialAt := c.upd.trialAt, oldSections := c.upd.oldSections } }

/-- A power-on reset: everything, D0 included; the part is Off (R398). -/
def Chip.powerOn (c : Chip) : Chip := c.lasting

/-- The registers held in D0 (R366, R369, R414, WEATHER_TRIP_CNT). -/
def inD0 (a : Nat) : Bool :=
  [Reg.GATE_TAMPER_EN, Reg.GATE_TAMPER_STAT, Reg.GATE_QUAR, Reg.PWR_WAKE_EN, Reg.PWR_WAKE_TIMER, Reg.PWR_WAKE_CAUSE,
    Reg.PWR_RESET_CAUSE, Reg.WEATHER_TRIP_CNT].contains a

/-- The straps as sampled at the last release of reset, which stay until they are sampled again (R1). -/
def Chip.keepStraps (d c : Chip) : Chip :=
  (d.put .SYS_ROLE_ROLE (c.get .SYS_ROLE_ROLE)).put .SYS_ROLE_GEO_SEL (c.get .SYS_ROLE_GEO_SEL)

/-- Every switched domain loses what it held; D0 keeps its latches, counters and wake settings, with TRIP_HOLD (R398). The role
stays until the straps are sampled again (R1). -/
def Chip.dropSwitched (c : Chip) : Chip :=
  let hold := c.get .WEATHER_CFG_TRIP_HOLD
  let d := { c.lasting with
    regs := spKeep inD0 c.regs
    wx := { chipReset.wx with trips := c.wx.trips }
    gate := { gateReset with quarFrom := c.gate.quarFrom } }
  (d.when (hold == 1) fun d => d.put .WEATHER_CFG_TRIP_HOLD 1).keepStraps c

/-- Pages of the Granary: their settings are kept in Deep with its contents and the retired-rank remap (R286). -/
def granPage (a : Nat) : Bool := decide (0x70 ≤ a / 0x1000) && decide (a / 0x1000 ≤ 0x75)

/-- What Deep keeps beside D0: the Granary in self-refresh with its settings, and the key slots in retention (R361, R392). -/
def Chip.dropDeep (c : Chip) : Chip :=
  let d := c.dropSwitched
  let d := { d with
    regs := spSetAll regReset d.regs (spKeep granPage c.regs)
    shadow := spSetAll regReset [] (spKeep granPage c.shadow), gran := { c.gran with waiting := [], filling := [] } }
  d.onGate fun g => { g with retained := c.gate.retained }

/-- An Ethernet port's fused address, the reset value of ETH_MAC_LO and ETH_MAC_HI. -/
def Chip.showMac (c : Chip) (n : Nat) : Chip :=
  (c.setNat (Reg.ETH_MAC_LO n) (c.fuses.mac + n)).setNat (Reg.ETH_MAC_HI n) ((c.fuses.mac + n) / 2 ^ 32 % 65536)

/-- A start other than power-on is recorded with its cause (PWR_RESET_CAUSE). -/
def Chip.startCause (c : Chip) (k : Nat) : Chip :=
  (c.put .PWR_RESET_CAUSE_CAUSE k).countF .PWR_RESET_CAUSE_WARM

/-- A warm reset (R398): ignored in Quarantine; the part is in Waking and waits for the internal release. -/
def Chip.warmReset (c : Chip) (cause : Nat) : Chip :=
  match c.pwr.state with
  | .off => c
  | .offTrip => c
  | .quarantine => c
  | _ => (c.dropSwitched.startCause cause).onPwr fun p => { p with state := .waking }

end Sys2Proof.Machine
end

