-- ==== Sys2Proof/Machine/OpsPages.lean ====
section
/-!
DEFINITION. What a page's starting, stopping, draining and soft reset do to its block (R33, R34, R447 and the drain of each
chapter), and the power domains its ENABLE asks for (R390).
-/

namespace Sys2Proof.Machine

/-- A page lies in a range of pages. -/
def within (p lo hi : Nat) : Bool := decide (lo ≤ p) && decide (p ≤ hi)

/-- The domains a page's PG_CTRL.ENABLE requests (R390). -/
def pageDomains (p : Nat) : List Nat :=
  if within p 0x10 0x1b then [p - 0x10 + 10]
  else if within p 0x20 0x2f then [p - 0x20 + 22]
  else if within p 0x40 0x41 then [p - 0x40 + 39]
  else if within p 0x42 0x45 then [p - 0x42 + 41]
  else if within p 0x49 0x4a then [p - 0x49 + 46]
  else if p = 0x48 then [48]
  else if p = 0x50 then [50]
  else if within p 0x70 0x73 then [p - 0x70 + 60, p - 0x70 + 64]
  else if p = 0x80 then [68, 69]
  else if p = 0x90 then [70]
  else if p = 0xa6 then [77]
  else []

/-- The domain that holds a page's registers where it is not D7 (R391). -/
def homeDomain (p : Nat) : Nat :=
  if p = 0x03 then 8 else if p = 0x04 then 9 else if within p 0xb0 0xb1 then 1 else if p = 0xd0 then 2
  else if p = 0xa1 then 71 else if p = 0xa0 then 72 else if within p 0xa2 0xa5 then p - 0xa2 + 73
  else if p = 0xf0 then 79 else 7

/-- A page's own domain is on: else it is absent (R30, R391). -/
def Chip.pageOn (c : Chip) (p : Nat) : Bool := c.domOn (homeDomain p)

/-! ### Starting -/

/-- A channel comes out of self-refresh within 265 µs, with its saved training: READY without training again (R286). -/
def Chip.granAwake (c : Chip) (n : Nat) : Chip :=
  let c := c.elapseAge (c.age + us 265)
  let c := (c.onGran fun g => { g with asleep := g.asleep.filter (· != n) }).put (.GRAN_CH_STAT_STATE n) 2
  (c.put (.PG_STATUS_ENABLED (0x70 + n)) 1).setGchan n { c.gchan n with refAt := c.age, pauseAt := c.age }

/-- A block starts: ENABLED reads 1, and what its chapter has happen at enabling happens. A layer page follows at the next
tick (R166), a Granary channel once it has trained (R284), the manager once its channels are READY; the Well not with too
small a spill ring. -/
def Chip.pageStart (c : Chip) (p : Nat) : Chip :=
  if within p 0x51 0x60 then c
  else if within p 0x70 0x73 then
    if c.gran.asleep.contains (p - 0x70) then c.granAwake (p - 0x70) else c.put (.GRAN_CH_STAT_STATE (p - 0x70)) 1
  else if p = 0x74 then if c.granCfgOk then c.granTryEnable else (c.put (.PG_CTRL_ENABLE p) 0).reject (Reg.PG_CTRL p)
  else if p = 0x80 && decide (c.get .WELL_SPILL_SIZE_MIB < 32) then (c.put (.PG_CTRL_ENABLE p) 0).reject (Reg.PG_CTRL p)
  else
    let c := c.put (.PG_STATUS_ENABLED p) 1
    if within p 0x20 0x2f then
      let n := p - 0x20
      let c := (c.onPort n fun x => { x with discAt := c.age }).txEnable (n / 2)
      if c.isSender && c.linkUpAt n && c.chainState n == 0 && c.serves n then c.startDiscovery n else c
    else if within p 0x40 0x41 then c.gratuitousArp (p - 0x40)
    else if within p 0x42 0x45 then c.ingestOn (p - 0x42)
    else if p = 0x80 then c.onWell fun w => { w with draining := false }
    else if p = 0xa6 then c.lampEnable
    else if within p 0xa2 0xa5 then c.lampGroupEnable (p - 0xa2)
    else if p = 0xa0 then c.onNim fun n => { n with swapped := false, heldTold := false }
    else if p = 0x03 then c.onBell fun b => { b with enAt := c.age }
    else c

/-! ### Stopping and draining -/

/-- What a write of ENABLE = 0 stops at the block's next safe point. -/
def Chip.pageStop (c : Chip) (p : Nat) : Chip :=
  if within p 0x10 0x1b then c.quadStop (p - 0x10)
  else if within p 0x40 0x41 then c.ethGoesDown (p - 0x40)
  else if within p 0x42 0x45 then c.ingestOff (p - 0x42)
  else if p = 0x48 then c.haloOff
  else if within p 0x49 0x4a then c.csiOff (p - 0x49)
  else if p = 0x68 then (c.onScan fun s => { s with slices := [], run := false }).pixSettle
  else if p = 0x74 then
    if c.gran.migr.isSome then c.onGran fun g => { g with disableWait := true } else c.granStop
  else if p = 0x80 then c.onWell fun w => { w with draining := true }
  else if p = 0x81 then c.pcieDown
  else if p = 0x90 then c.twinDown
  else if within p 0xa0 0xa1 then c.sliceDisabled
  else if p = 0xa6 then c.lampDisable
  else c

/-- Has a disabled block finished draining? The Well once nothing is in flight (R319); a layer at the tick; a manager with a
migration after it (R291). -/
def Chip.drained (c : Chip) (p : Nat) : Bool :=
  if within p 0x51 0x60 then false
  else if p = 0x80 then c.well.taken.isEmpty
  else if p = 0x74 then c.gran.migr.isNone
  else true

/-- A disabled block has drained: ENABLED reads 0 (R33). -/
def Chip.pageDrained (c : Chip) (p : Nat) : Chip :=
  let c := c.put (.PG_STATUS_ENABLED p) 0
  if within p 0x70 0x73 then c.put (.GRAN_CH_STAT_STATE (p - 0x70)) 0
  else if p = 0x80 then c.onWell fun w => { w with draining := false }
  else c

/-! ### Soft reset -/

/-- A soft reset of the SYS page abandons a switch not yet decided: an abort cell goes to every armed tile (R447). -/
def Chip.sysReset (c : Chip) (st : Nat) : Chip :=
  match c.switch with
  | none => c
  | some _ =>
    if 3 ≤ st then c
    else
      let c := c.each (List.range 16) fun c n =>
        if (c.serving n).isEmpty then c else c.sendFw n 3 0 0x52 0 0 []
      { c with switch := none }.admitWaiting

/-- What a soft reset does to the block beside its registers. -/
def Chip.blockReset (c : Chip) (p : Nat) : Chip :=
  if p = 0x03 then { c with bell := { bellReset with noBeaconSince := c.age } }
  else if p = 0x02 then c.onFab fun f => { f with cores := chipReset.fab.cores, sgi := 0 }
  else if p = 0x04 then c.onWx fun w => { chipReset.wx with trips := w.trips }
  else if within p 0x20 0x2f then (if c.isSender then c.setPort (p - 0x20) emptyPort else c)
  else if p = 0x48 then c.each (List.range 8) fun c v => c.onSensor v fun s => { s with pending := none, working := ispReset }
  else if p = 0x50 then c.onLoom fun l => { l with fences := [] }
  else if within p 0x51 0x60 then c.onLoom fun l => { l with held := l.held.filter fun x => x.1 != p - 0x51 }
  else if p = 0x68 then c.onScan fun s => { chipReset.scan with map := s.map }
  else if p = 0x80 then c.onWell fun w => { wellReset with nextNum := w.nextNum, fwToken := w.fwToken, mcToken := w.mcToken }
  else if p = 0xa6 then
    c.onLamp fun l => { lampReset with
      grid := l.grid, seg := l.seg, row := l.row, factor := l.factor, cover := l.cover, dark := l.dark, sweepAt := c.age
      rowRuns := l.rowRuns }
  else if p = 0x90 then { c with twin := { twinReset with mand := c.twin.mand } }
  else if p = 0xb0 then c.onGate fun g => { g with nonce := [] }
  else if p = 0x91 then c.onTwin fun t => { t with mand := t.mand.map fun _ => ⟨false, 0, 0, false, 0, false⟩ }
  else if p = 0xc0 then (c.onUpd fun u => { u with rel := none, missed := [] }).onTile fun t => { t with rel := none }
  else if p = 0xd0 then c.onFab fun f => { f with cores := chipReset.fab.cores }
  else c

/-- The registers a soft reset of a page leaves (R34, R366, R447): those of fuses, straps and role, PG_COMMIT, SYS identity,
domain and mode, the tamper latches, counts that only a power-on reset clears, and the front buffer's choice. -/
def softKept (p a : Nat) : Bool :=
  a / 0x1000 != p || a % 0x1000 == 0xc || (rowOf a).any (fun r => r.kind == .fused) ||
    [Reg.SYS_ROLE, Reg.SYS_DOMAIN, Reg.SYS_MODE, Reg.GATE_TAMPER_EN, Reg.GATE_TAMPER_STAT, Reg.GATE_QUAR,
      Reg.WEATHER_TRIP_CNT].contains a || (decide (Reg.SYS_PDESC 0 ≤ a) && decide (a ≤ Reg.SYS_PDESC 15))

/-- PG_CTRL.SRST: the block stops, its registers, shadows, control, status and events return to reset, a pending commit is
cancelled, SRST_BUSY reads 1 (R34). -/
def Chip.softReset (c : Chip) (p : Nat) : Chip :=
  let front := c.get .NIMBUS_STAT_FRONT
  let st := c.get .SYS_MODE_STAT_STATE
  let sl := c.slice
  let wtf := c.get .SCAN_CODE_WTF
  let open_ := within p 0xa0 0xa1 && c.nim.open_ && decide (sl < 4)
  let c := if c.enabled p then c.pageStop p else c
  let c := c.blockReset p
  let c := { c with regs := spKeep (softKept p) c.regs, shadow := spKeep (fun a => a / 0x1000 != p) c.shadow }
  let c := (c.put (.PG_COMMIT_PENDING p) 0).onFab fun f => { f with commits := f.commits.filter fun x => x.page != p }
  let c := (c.put (.PG_STATUS_SRST_BUSY p) 1).put (.PG_CTRL_SRST p) 1
  let c := if p = 0xa0 then (c.put .NIMBUS_STAT_FRONT front).setSlice sl else c
  let c := c.when (c.isSender && p == 0x68 && c.get .SCAN_CODE_WTF != wtf) Chip.calCurves
  let c := if within p 0x40 0x41 then c.showMac (p - 0x40) else c
  let c := if open_ then c.sliceFail 7 else c
  let c := if p = 0xc0 then c.updShow else c
  if p = 0 then (if st = 3 then c.put .SYS_MODE_STAT_STATE 3 else c).sysReset st else c

/-- The soft reset is complete: SRST and SRST_BUSY read 0 (R34). -/
def Chip.softResetDone (c : Chip) (p : Nat) : Chip :=
  (c.put (.PG_STATUS_SRST_BUSY p) 0).put (.PG_CTRL_SRST p) 0

end Sys2Proof.Machine
end

