-- ==== Sys2Proof/Machine/OpsPower.lean ====
section
/-!
DEFINITION. The power sequencer: which domains are wanted (R390, R392), the order and steps of switching (R394 to R397), page
requests, state requests (R403 to R406), Deep and waking, the trip, and the boot ROM's steps (R349, R399 to R402).
-/

namespace Sys2Proof.Machine

/-! ### What is wanted -/

/-- PWR_DOM_ROLE: the domains a role may power. -/
def Chip.domRole (c : Chip) : Nat :=
  if c.isSender then 0xffffffff + 2 ^ 32 * 0xffffffff + 2 ^ 64 * 0xc07f else 0x00c007c7 + 2 ^ 32 * 0x40 + 2 ^ 64 * 0xff80

/-- The state whose domains are wanted: Waking until firmware runs, then the target. -/
def Chip.goal (c : Chip) : PState :=
  match c.pwr.state with
  | .waking => if c.pwr.booted then c.pwr.target else .waking
  | .run => c.pwr.target
  | .dim => c.pwr.target
  | s => s

/-- The descriptor in force uses a port of a Lamplighter group (R10). -/
def Chip.groupNeeded (c : Chip) (g : Nat) : Bool := (List.range 128).any fun p => c.portUsed (128 * g + p)

/-- Bias comes on early for a request that waits for its tick (R404). -/
def Chip.biasEarly (c : Chip) : Bool := c.pwr.biasAt.isSome && c.pwr.atTick.any fun x => x.1 == .run

/-- Some chain port engine is on. -/
def Chip.anyChain (c : Chip) : Bool := (List.range 16).any fun n => c.domOn (22 + n)

/-- Halo's accumulator is at work: a run ARMED or RUNNING, or a job (R390). -/
def Chip.accWanted (c : Chip) : Bool :=
  let a := c.get .HALO_ACC_STAT_STATE
  let j := c.get .HALO_JOB_STAT_STATE
  a == 1 || a == 2 || (decide (1 ≤ j) && decide (j ≤ 5))

/-- The condition of R390's last column, for a state. -/
def Chip.domCond (c : Chip) (s : PState) (d : Nat) : Bool :=
  let en := fun (p : Nat) => c.flag (.PG_CTRL_ENABLE p)
  let run := s == .run
  let rd := run || s == .dim
  let w := rd || s == .waking
  let q := s == .quarantine
  let base := if c.isTile then 10 else 21
  if d = 0 then true
  else if d = 1 ∨ d = 2 ∨ d = 7 ∨ d = 78 then w || q
  else if d ≤ 5 then rd
  else if d = 6 ∨ d = 8 ∨ d = 9 then w
  else if d ≤ 21 then en (0x10 + d - 10) && (rd || (s == .waking && d == base) || (q && d == base))
  else if d ≤ 37 then en (0x20 + d - 22) && (rd || (c.isTile && (s == .waking || q)))
  else if d = 38 then (rd || (c.isTile && s == .waking)) && c.anyChain
  else if d ≤ 40 then rd && en (0x40 + d - 39)
  else if d ≤ 44 then run && en (0x42 + d - 41)
  else if d = 45 then rd
  else if d ≤ 47 then run && en (0x49 + d - 46)
  else if d = 48 then run && en 0x48
  else if d = 49 then run && c.accWanted
  else if d = 50 then run
  else if d ≤ 54 then run && bitAt (c.get .LOOM_GRP_PWR_ON) (d - 51)
  else if d = 55 then rd
  else if d ≤ 59 then
    let g := d - 56
    rd && (bitAt (c.get .LOOM_GRP_PWR_ON) g || (List.range 4).any fun k => en (0x20 + 4 * g + k))
  else if d ≤ 63 then rd && en (0x70 + d - 60)
  else if d ≤ 67 then rd && en (0x70 + d - 64)
  else if d ≤ 69 then rd && en 0x80
  else if d = 70 then rd && en 0x90
  else if d ≤ 72 then rd
  else if d ≤ 76 then rd && c.groupNeeded (d - 73)
  else if d = 77 then (run || c.biasEarly) && en 0xa6
  else (s != .off && s != .offTrip && s != .deep) &&
    (c.get .GATE_LIFECYCLE_STATE == 0 || c.get .GATE_LIFECYCLE_STATE == 2 || c.flag .GATE_LIFECYCLE_DEBUG_OPEN)

/-- A domain should be on: the role, the state and its condition allow it. -/
def Chip.domWant (c : Chip) (d : Nat) : Bool := bitAt c.domRole d && c.domCond c.goal d

/-! ### Steps -/

/-- The order in which a transition powers domains up (R396). -/
def seqOrder : List Nat :=
  [7, 1, 9, 2, 6, 78, 8] ++ (List.range 80).filter fun d => d != 0 && !([7, 1, 9, 2, 6, 78, 8].contains d)

/-- The next domain of a transition: what is to go off first, last first; then what is to come on, in order (R396). -/
def Chip.nextDom (c : Chip) : Option (Nat × Bool) :=
  match seqOrder.reverse.find? fun d => c.domOn d && !c.domWant d with
  | some d => some (d, false)
  | none => (seqOrder.find? fun d => !c.domOn d && c.domWant d && !bitAt c.pwr.failed d).map fun d => (d, true)

/-- A domain's last safe point was in the other direction: its age. -/
def Chip.reversalOf (c : Chip) (d : Nat) (on : Bool) : Option Nat :=
  (c.pwr.safe.find? fun x => x.1 == d && x.2.2 != on).map (·.2.1)

/-- The dwell holds a step back (R397): values below 20 µs act as 20; Quarantine's steps do not wait. -/
def Chip.dwelling (c : Chip) (d : Nat) (on : Bool) : Bool :=
  c.pwr.state != .quarantine && (c.reversalOf d on).any fun a => decide (c.age < a + us (max 20 (c.get .PWR_DWELL_US)))

/-- The pages that ask for a domain. -/
def domPages (d : Nat) : List Nat :=
  (List.range 0x100).filter fun p => (pageDomains p).contains d

/-- The blocks of a domain have drained: it may be switched off (R395). -/
def Chip.domDrained (c : Chip) (d : Nat) : Bool := (domPages d).all fun p => !c.enabled p || within p 0x51 0x60 || c.drained p

/-- A step starts, or waits for its dwell, or for the drain of the domain's blocks (R395); a reversal is counted and REVERSED raised
(R397). -/
def Chip.startStep (c : Chip) (d : Nat) (on : Bool) : Chip :=
  if !on && !c.domDrained d then c
  else if c.dwelling d on then c.onPwr fun p => { p with held := true }
  else
    let rev := (c.reversalOf d on).isSome
    let c := c.onPwr fun p => { p with held := false, step := some ⟨d, on, false, c.age⟩ }
    c.when rev fun c => (c.countF .PWR_SEQ_STAT_REVERSALS).raise .PWR_REVERSED

/-- A transition has reached its target: the state follows, STATE_DONE is raised; Deep drops everything switched. -/
def Chip.arrive (c : Chip) : Chip :=
  match c.pwr.target, c.pwr.state with
  | .run, .dim => (c.onPwr fun p => { p with state := .run }).raise .PWR_STATE_DONE
  | .dim, .run => (c.onPwr fun p => { p with state := .dim }).raise .PWR_STATE_DONE
  | .deep, .dim =>
    let d := c.dropDeep
    let d := d.each d.gran.asleep fun d n => d.put (.GRAN_CH_STAT_STATE n) 4
    (d.put (.PG_STATUS_ENABLED 0x74) 0).onPwr fun p => { p with state := .deep, target := .dim, deepAt := c.age }
  | _, _ => c

/-- The sequencer goes on: a page's request in arrival order, else the transition's next domain, else it has arrived (R396,
R397). -/
def Chip.seqNext (c : Chip) : Chip :=
  if c.pwr.step.isSome then c
  else
    let q := c.pwr.queue.filter fun x => c.domOn x.1 != x.2 && c.domWant x.1 == x.2 && !(x.2 && bitAt c.pwr.failed x.1)
    let c := c.onPwr fun p => { p with queue := q }
    match q with
    | x :: _ => c.startStep x.1 x.2
    | [] => match c.nextDom with | some x => c.startStep x.1 x.2 | none => c.arrive

/-- Single-domain requests that pages and conditions make now join the queue (R390, R396), unless a transition of state is
about to take them. -/
def Chip.domSync (c : Chip) : Chip :=
  let want := fun (d : Nat) => c.domOn d != c.domWant d && !(c.pwr.queue.any fun x => x.1 == d && x.2 == c.domWant d)
  let steady := (c.pwr.state == .run || c.pwr.state == .dim) && c.pwr.state == c.pwr.target
  let new := if steady then (seqOrder.filter want).map fun d => (d, c.domWant d) else []
  (c.onPwr fun p => { p with queue := p.queue ++ new }).seqNext

/-- The registers and shadows of a page are lost with its domain (R391). -/
def Chip.dropPage (c : Chip) (p : Nat) : Chip :=
  { c with regs := spKeep (fun a => a / 0x1000 != p) c.regs, shadow := spKeep (fun a => a / 0x1000 != p) c.shadow }

/-- The boot ROM enables a page (R349, and the chapters of PWR, UPDATE, RET, PCIE, GATE, KEYS, WEATHER, BELL). -/
def Chip.romEnable (c : Chip) (p : Nat) : Chip := (c.put (.PG_CTRL_ENABLE p) 1).put (.PG_STATUS_ENABLED p) 1

/-- What the boot ROM enables as domains come up: D7's pages and a sender's PCIe, the Gatehouse's, Weathervane's, a tile's
Bellringer; a tile's chain ports at step 5, after the last domain of Waking or Quarantine. -/
def Chip.romDomain (c : Chip) (d : Nat) : Chip :=
  let c := if d = 7 then
      let c := ((c.romEnable 1).romEnable 0xc0).romEnable 0x30
      if c.isSender then (c.romEnable 0x81).put (.PG_CTRL_ENABLE 0x1b) 1 else c
    else if d = 1 then (c.romEnable 0xb0).romEnable 0xb1
    else if d = 9 then c.romEnable 4
    else if d = 8 then c.when c.isTile fun c => c.romEnable 3
    else c
  if c.isTile && d == (if c.pwr.state = .quarantine then 78 else 8) then
    ((c.put (.PG_CTRL_ENABLE 0x10) 1).put (.PG_CTRL_ENABLE 0x20) 1).put (.PG_CTRL_ENABLE 0x21) 1
  else c

/-- A domain has reached its safe point on: its pages with ENABLE start, the boot ROM does its part in Waking. -/
def Chip.domUp (c : Chip) (d : Nat) : Chip :=
  let c := c.onPwr fun p => { p with dom := setBitAt p.dom d true, sram := setBitAt p.sram d false }
  let c := if (c.pwr.state == .waking && !c.pwr.booted) || c.pwr.state == .quarantine then c.romDomain d else c
  c.each (domPages d) fun c p =>
    if c.flag (.PG_CTRL_ENABLE p) && !c.enabled p && (pageDomains p).all c.domOn then c.pageStart p else c

/-- A domain has reached its safe point off: its arrays and own registers are lost, and its pages are not running (R391,
R395). -/
def Chip.domDown (c : Chip) (d : Nat) : Chip :=
  let c := c.onPwr fun p => { p with dom := setBitAt p.dom d false }
  let c := c.each ((domPages d).filter fun p => p != 0xa6 && c.enabled p) fun c p => (c.pageStop p).pageDrained p
  if d = 45 then c.onIng fun i => { i with cram := [] }
  else if d = 55 then c.onLoom fun l => { l with lut := [] }
  else if 51 ≤ d ∧ d ≤ 54 then c.put .LOOM_STAT_GRP_RDY (setBitAt (c.get .LOOM_STAT_GRP_RDY) (d - 51) false)
  else if 73 ≤ d ∧ d ≤ 76 then c.dropPage (0xa2 + d - 73)
  else if d = 79 then c.dropPage 0xf0
  else c

/-- The step in progress reaches its safe point, 10 µs (on) or 5 µs (off) from its start (R394, R395), and the next is taken (R396). -/
def Chip.stepDone (c : Chip) : Chip :=
  match c.pwr.step with
  | none => c
  | some s =>
    let c := c.elapseAge (s.since + us (if s.on then 10 else 5))
    let c := c.onPwr fun p => { p with step := none, safe := (s.dom, c.age, s.on) :: p.safe.filter fun x => x.1 != s.dom }
    (if s.on then c.domUp s.dom else c.domDown s.dom).domSync

/-- Power good is not reached 8 µs into a step: the step is retried once, 20 µs later; a second failure marks the domain FAILED
(R394). -/
def Chip.stepFail (c : Chip) : Chip :=
  match c.pwr.step with
  | none => c
  | some s =>
    if !s.on then c
    else if !s.retry then
      (c.elapseAge (s.since + us 8)).onPwr fun p => { p with step := some { s with retry := true, since := s.since + us 28 } }
    else
      let c := (c.elapseAge (s.since + us 8)).onPwr fun p => { p with step := none, failed := setBitAt p.failed s.dom true }
      let low := ((List.range 80).find? fun d => bitAt c.pwr.failed d).getD 0
      (((c.put .PWR_SEQ_STAT_FAIL 1).put .PWR_SEQ_STAT_DOMAIN low).raise .PWR_DOM_FAIL).seqNext

/-- The dwell that held a step back has passed (R397). -/
def Chip.dwellDone (c : Chip) : Chip := if c.pwr.held then c.seqNext else c

/-- A domain's arrays are initialised (R400): the factory slots of the coefficient and LUT RAM are loaded by boot firmware
(R154, R175), and after a Deep wake the key slots come back from retention once D1 is ready (R361). -/
def Chip.sramDone (c : Chip) (d : Nat) : Chip :=
  if c.domOn d && !bitAt c.pwr.sram d then
    let c := c.onPwr fun p => { p with sram := setBitAt p.sram d true }
    if d = 45 then c.onIng fun i => { i with cram := cramInit }
    else if d = 55 then c.onLoom fun l => { l with lut := loomLutInit }
    else if d = 1 && c.pwr.deepWake && !c.gate.retained.isEmpty && !c.flag .GATE_QUAR_ACTIVE then
      c.onGate fun g =>
        { g with slots := (g.slots.take 3) ++ (g.retained.drop 3).take 29, retained := [] }
    else c
  else c

/-! ### Page enable and disable -/

/-- PG_CTRL.ENABLE = 1: the page's domains are requested, or the block starts (R33, R390). -/
def Chip.pageEnable (c : Chip) (p : Nat) : Chip :=
  let c := c.put (.PG_CTRL_ENABLE p) 1
  let c := if (pageDomains p).all c.domOn && !c.enabled p then c.pageStart p else c
  c.domSync

/-- PG_CTRL.ENABLE = 0 of a running block: it stops at its next safe point (R33). -/
def Chip.pageDisable (c : Chip) (p : Nat) : Chip :=
  let c := c.put (.PG_CTRL_ENABLE p) 0
  if c.enabled p then c.pageStop p
  else (if within p 0x70 0x73 then c.put (.GRAN_CH_STAT_STATE (p - 0x70)) 0 else c).domSync

/-- A disabled page has drained: ENABLED reads 0, its domain may go off (R33, R395). -/
def Chip.pageDrainDone (c : Chip) (p : Nat) : Chip :=
  if c.enabled p && !c.flag (.PG_CTRL_ENABLE p) && c.drained p then (c.pageDrained p).domSync
  else if c.drained p && (pageDomains p).any fun d => c.domOn d && !c.domWant d then c.seqNext
  else c

/-! ### State requests (R403–R406) -/

/-- A request is refused with a cause: 1 ORDER, 2 TWIN, 3 BUSY, 4 THERMAL (R403). -/
def Chip.pwrRefuse (c : Chip) (cause : Nat) : Chip := (c.put .PWR_STATE_CAUSE cause).raise .PWR_STATE_REFUSED

/-- Entering Dim (R404): a tile's outputs go dark and a pin test is abandoned; a sender's contexts go to OFF, Halo ends
DISABLED. -/
def Chip.dimEnter (c : Chip) : Chip :=
  let c := c.onPwr fun p => { p with target := .dim, biasAt := none, atTick := none }
  let c := if c.isTile then
      let c := (c.onLamp fun l => { l with sweep := [], sweepOn := false, ocPairs := [] }).showSweep
      if c.lampState = 2 ∨ c.lampState = 3 then (c.setLamp 1).onLamp fun l => { l with waitTick := true } else c
    else
      let c := c.each (List.range 4) fun c p => if c.enabled (0x42 + p) then c.ingestOff p else c
      ((c.haloOff).csiOff 0).csiOff 1
  c.seqNext

/-- Leaving Dim for Run (R404): the bias comes on, a sender's domains follow; after an orderly stop the fade comes back
(R410). -/
def Chip.runEnter (c : Chip) : Chip :=
  let c := c.onLamp fun l => { l with
    cover := l.cover.map fun _ => (true, { f0 := l.factor, f1 := 0, start := none, len := 0, told := false }) }
  (c.onPwr fun p => { p with target := .run, biasAt := some (p.biasAt.getD c.age), atTick := none }).seqNext

/-- Entering Deep (R405, R406): chain ports stop, the Well drains, the Granary's queues drain and its READY channels go into self-refresh
(R286), the key slots go into retention, domains go off. -/
def Chip.deepEnter (c : Chip) : Chip :=
  let c := c.onPwr fun p => { p with target := .deep, atTick := none, deepAck := none }
  let c := if c.isSender then
      c.each (List.range 16) fun c n =>
        let c := c.txStop (n / 2) (n % 2)
        if c.linkUpAt n then (c.setPortState (n / 2) (n % 2) 0).senderPortLost n else c
    else (((c.setPortState 0 0 0).setPortState 0 1 0).txStop 0 0).txStop 0 1
  let c := (c.when (c.enabled 0x80) fun c => c.onWell fun w => { w with draining := true }).gDrain
  let ready := (List.range 4).filter fun n => c.enabled (0x70 + n) && c.chanState n == 2
  let c := (c.onGran fun g => { g with asleep := ready }).each ready fun c n => c.put (.GRAN_CH_STAT_STATE n) 4
  (c.onGate fun g => { g with retained := g.slots }).seqNext

/-- DEEP as judged at its instant: only from Dim; not while active in Twin mode; not while a switch or a release is armed; a
sender waits for a migration, a tile for its completion's acknowledgement (R291, R405, R406). -/
def Chip.deepAsk (c : Chip) : Chip :=
  if c.pwr.state != .dim || c.pwr.target != .dim then c.pwrRefuse 1
  else if c.isSender && c.mode == 4 && c.twinRole == 3 then c.pwrRefuse 2
  else if c.isSender && (c.switchPending || c.upd.rel.isSome) then c.pwrRefuse 3
  else if c.isTile || c.gran.migr.isSome then c.onPwr fun p => { p with deepAck := some c.age, deepTick := c.lastIndex, atTick := none }
  else c.deepEnter

/-- A request at the instant it takes effect (R403): targets 2 RUN, 3 DIM, 4 DEEP. -/
def Chip.stateAsk (c : Chip) (target : Nat) : Chip :=
  let here := c.pwr.state == .run || c.pwr.state == .dim
  if target = 4 then c.deepAsk
  else if !here then c.pwrRefuse 1
  else if target = 2 then
    if c.get .WEATHER_TEMP_LEVEL = 2 then c.pwrRefuse 4 else if c.pwr.target = .run then c else c.runEnter
  else if c.pwr.target = .dim then c else c.dimEnter

/-- A state of PWR_STATE_CTRL.TARGET. -/
def targetState (t : Nat) : PState := if t = 2 then .run else if t = 3 then .dim else .deep

/-- The code of a state's target. -/
def targetCode : PState → Nat
  | .run => 2
  | .dim => 3
  | _ => 4

/-- PWR_STATE_CTRL (R403): at once, or at the tick captured; a tile's RUN for a tick at least 3 ms ahead starts the bias
early (R404). -/
def Chip.stateCtrl (c : Chip) (target : Nat) (atTick : Bool) : Chip :=
  let n := c.pair Reg.PWR_STATE_TICK_LO Reg.PWR_STATE_TICK_HI
  let past := (match c.bell.tick with | some m => decide (n ≤ m) | none => false) ||
    (c.tickSource && decide (c.tickTime n < c.bell.time))
  if !atTick || past || !c.ticking then (c.onPwr fun p => { p with atTick := none }).stateAsk target
  else
    let c := c.onPwr fun p => { p with atTick := some (targetState target, n) }
    if c.isTile && target == 2 && c.pwr.target == .dim && decide (c.bell.time + ms 3 ≤ c.tickTime n) &&
        c.get .WEATHER_TEMP_LEVEL != 2 then
      (c.onPwr fun p => { p with biasAt := some c.age }).domSync
    else c

/-- The tick of a waiting request has been executed, or is the first after a step (R403); a tile lights at it. -/
def Chip.stateAtTick (c : Chip) : Chip :=
  match c.pwr.atTick with
  | none => c
  | some (s, n) =>
    if c.bell.tick.any fun m => decide (n ≤ m) then
      let c := (c.onPwr fun p => { p with atTick := none }).stateAsk (targetCode s)
      if c.isTile && c.bell.time == c.bell.tickTime then c.lampResume else c
    else c

/-- A sender's Deep entry that waited for a migration begins (R291). -/
def Chip.deepAfterMigration (c : Chip) : Chip :=
  if c.isSender && c.pwr.deepAck.isSome && c.gran.migr.isNone then c.deepEnter else c

/-- A tile's wait before Deep is over (R406): the completion of its DEEP write has been acknowledged in a RACK, or two superframes have
passed; with no frame tick there is none to wait for. -/
def Chip.deepFree (c : Chip) : Bool :=
  let mine := fun (k : Nat) (r : Rec) => match r with
    | .completion t _ _ _ _ => t == k
    | _ => false
  let acked := match c.pwr.deepTok with
    | some k => !(c.tile.recs ++ c.tile.sent.flatMap (·.2)).any (mine k)
    | none => false
  acked || !c.ticking || decide (c.pwr.deepTick + 2 ≤ c.lastIndex)

/-- A tile enters Deep once the completion of its DEEP write is acknowledged, or after two superframes (R406). -/
def Chip.tileDeep (c : Chip) : Chip := if c.isTile && c.pwr.deepAck.isSome && c.deepFree then c.deepEnter else c

/-- A wake source ends Deep (R405): PWR_WAKE_CAUSE names it, the start's cause is DEEP_WAKE. -/
def Chip.wake (c : Chip) (src : Nat) : Chip :=
  if c.pwr.state = .deep then
    let c := (c.setNat Reg.PWR_WAKE_CAUSE (2 ^ src)).startCause 5
    c.onPwr fun p => { p with state := .waking, target := .dim, deepWake := true, dom := 1, step := none }
  else c

/-- An enabled wake source (PWR_WAKE_EN): 0 TIMER, 1 GPIO0, 2 LANE_M at a sender, 3 CHAIN at a tile, 4 RST_N. -/
def Chip.wakeBy (c : Chip) (src : Nat) : Chip :=
  if decide (src < 5) && bitAt (c.nat Reg.PWR_WAKE_EN) src && (src != 2 || c.isSender) && (src != 3 || c.isTile) then c.wake src else c

/-- PWR_WAKE_TIMER expires in Deep (R405). -/
def Chip.wakeTimer (c : Chip) : Chip := if c.nat Reg.PWR_WAKE_TIMER = 0 then c else c.wakeBy 0

/-! ### Resets -/

/-- RST_N held low (R398, R405): in Deep an enabled wake source, else a warm reset. -/
def Chip.resetPin (c : Chip) : Chip :=
  if c.pwr.state = .deep && bitAt (c.nat Reg.PWR_WAKE_EN) 4 then c.wake 4 else c.warmReset 1

/-- The watchdog expires: MS without a kick (R398). -/
def Chip.watchdog (c : Chip) : Chip :=
  let m := c.get .PWR_WDT_MS
  if m = 0 ∨ c.domOn 7 = false ∨ c.pwr.state = .quarantine ∨ c.age < c.pwr.wdtAt + ms m then c
  else (c.warmReset 2).onPwr fun p => { p with wdtStart := true }

/-- PWR_WDT: MS is stored, KICK restarts the count. -/
def Chip.wdtWrite (c : Chip) (v : Word) : Chip :=
  let c := c.setNat Reg.PWR_WDT (bitsOf v 15 0)
  if bitsOf v 31 31 = 1 then c.onPwr fun p => { p with wdtAt := c.age } else c

/-- PWR_RESET_CTRL: the key and RESET (R398). -/
def Chip.softwareReset (c : Chip) (v : Word) : Chip :=
  if bitsOf v 31 16 = 0xa5c3 ∧ bitsOf v 0 0 = 1 then c.warmReset 3 else c

/-! ### The boot ROM (R349, R399) -/

/-- The identity of the part in its registers, from the fuses. -/
def Chip.showFuses (c : Chip) : Chip :=
  let f := c.fuses
  let c := ((c.put .SYS_LOT_WAFER f.wafer).put .SYS_LOT_LOT f.lot).put .SYS_DIEPOS_SITE f.site
  let c := ((c.put .SYS_DIEPOS_DIE_Y f.dieY).put .SYS_DIEPOS_DIE_X f.dieX).setPair Reg.SYS_SERIAL_LO Reg.SYS_SERIAL_HI f.serial
  let c := (c.put .GATE_LIFECYCLE_STATE f.lifecycle).put .GATE_TAMPER_STAT_COUNTER f.tamperCnt
  let c := c.setNat Reg.UPDATE_SVN f.svn
  if c.isSender then
    let c := c.setNat Reg.PCIE_ID (0x2640 * 65536 + f.pcieId % 65536)
    c.each [0, 1] Chip.showMac
  else c

/-- PANEL_ID: ASCII, padded with 0x00 (R19): no byte above 0x7F, and after the first 0x00 only 0x00. -/
def panelId (b : List Byte) : Bool :=
  b.all (fun x => decide (x.toNat < 0x80)) && (b.dropWhile fun x => x != 0).all fun x => x == 0

/-- A descriptor record is valid (R19). FLAGS[15:3] is only called reserved: that a record with one of these bits set is not valid
is read from "reserved, 0x00" of the other reserved field. DEDUCED, log entry 153. -/
def descOk (b : List Byte) : Bool :=
  let f := fun (o n : Nat) => leNat ((b.drop o).take n)
  let w := f 8 2
  let banks := f 13 1
  let cur := fun (o : Nat) => decide (25 ≤ f o 2) && decide (f o 2 ≤ 2400)
  b.length == 64 && f 0 4 == 0x3144504c && f 4 2 == 1 && f 6 2 == 64 && decide (1 ≤ w) && decide (w ≤ 160) &&
    decide (1 ≤ f 12 1) && decide (f 12 1 ≤ 32) && decide (1 ≤ banks) && decide (w * banks ≤ 160) &&
    f 10 2 == f 12 1 * banks && decide (f 14 1 ≤ 5) && decide (f 15 1 ≤ 1) && cur 18 && cur 20 && cur 22 &&
    decide (f 26 2 < 8) && panelId ((b.drop 0x1c).take 16) && f 0x2c 16 == 0 && f 0x3c 4 == crc32 (b.take 60)

/-- The factory geometry of the straps as width, SCAN and BANKS (R20). -/
def geoOf (g : Nat) : Nat × Nat × Nat :=
  match g with
  | 0 => (160, 32, 1)
  | 1 => (80, 32, 2)
  | 2 => (160, 16, 1)
  | 3 => (80, 16, 2)
  | 4 => (160, 8, 1)
  | 5 => (64, 32, 2)
  | 6 => (128, 32, 1)
  | _ => (16, 1, 10)

/-- The descriptor record of a factory geometry (R19, R20): RGB, ROW_POL 0, 10 mA per colour. -/
def geoDesc (g : Nat) : List Byte :=
  let x := geoOf g
  let b := leBytes 4 0x3144504c ++ leBytes 2 1 ++ leBytes 2 64 ++ leBytes 2 x.1 ++ leBytes 2 (x.2.1 * x.2.2) ++
    leBytes 1 x.2.1 ++ leBytes 1 x.2.2 ++ leBytes 2 0 ++ leBytes 2 0 ++ leBytes 2 1000 ++ leBytes 2 1000 ++ leBytes 2 1000 ++
    leBytes 2 0 ++ leBytes 2 0 ++ leBytes 32 0
  b ++ leBytes 4 (crc32 b)

/-- A descriptor comes into force (SYS_PDESC) with its source: 0 straps, 1 panel card, 2 sender configuration. -/
def Chip.setDesc (c : Chip) (b : List Byte) (src : Nat) : Chip :=
  let c := c.each (List.range 16) fun c k => c.setNat (Reg.SYS_PDESC k) (leNat ((b.drop (4 * k)).take 4))
  c.put .SYS_ROLE_DESC_SRC src

/-- The descriptor of a tile's own (R18): a valid card record, else the straps; an invalid record raises DESC_BAD. -/
def Chip.ownDesc (c : Chip) (card : Option (List Byte)) : Chip :=
  let strap := geoDesc (c.get .SYS_ROLE_GEO_SEL)
  match card with
  | none => (c.put .SYS_ROLE_DESC_BAD 0).setDesc strap 0
  | some b =>
    if descOk b then (c.put .SYS_ROLE_DESC_BAD 0).setDesc b 1
    else ((c.put .SYS_ROLE_DESC_BAD 1).setDesc strap 0).raise .SYS_DESC_BAD

/-- The start ends in Quarantine at a step of R349 with a boot result: Quarantine's domains alone are wanted. -/
def Chip.bootQuarantine (c : Chip) (step result cause : Nat) : Chip :=
  let c := (c.put .GATE_BOOT_STAGE step).put .GATE_BOOT_RESULT result
  (c.quarantine cause).onPwr fun p => { p with state := .quarantine, queue := [], atTick := none }

/-- Steps 1 to 4 of R349. Step 2 finds a latched event, an active enabled source, or the counter at 31; a source active now
is latched, and the counter takes one bit for an event not yet burned (R366 to R368). -/
def Chip.bootSteps (c : Chip) (b : BootIn) : Chip :=
  let c : Chip := ({ c with fuses := { c.fuses with disagree := b.disagree } }.put .GATE_FUSE_DIS_COUNT (min b.disagree 65535)).when
    (b.disagree != 0) fun c => c.raise .GATE_FUSE_DISAGREE
  if !b.fuseOk then c.bootQuarantine 1 6 4
  else
    let c : Chip := if c.fuses.lifecycle = 1 then c.setNat Reg.GATE_TAMPER_EN (c.nat Reg.GATE_TAMPER_EN ||| 0x1c) else c
    let now := b.tamper % 32 &&& c.nat Reg.GATE_TAMPER_EN
    let fresh := (List.range 5).filter fun k => bitAt now k && !bitAt (c.get .GATE_TAMPER_STAT_LATCHED) k
    let c : Chip := c.each fresh fun c k => c.tamperLatch k
    let deep := c.pwr.deepWake && c.flag .PWR_WAKE_CAUSE_TAMPER
    if c.get .GATE_TAMPER_STAT_LATCHED != 0 then
      let c : Chip := if c.gate.quarFrom == 0 || !fresh.isEmpty then
          (c.tamperBurn.extend 3 (m3Item 4 1)).onGate fun g => { g with quarFrom := 1 } else c
      c.bootQuarantine 2 5 (if deep then 3 else 1)
    else if 31 ≤ c.fuses.tamperCnt then c.bootQuarantine 2 5 5
    else if !b.romOk then c.bootQuarantine 3 1 4
    else
      let c : Chip := (c.extend 0 (m3Item 16 0)).extend 0 (m3Item 17 c.fuses.serial)
      let id := if c.fuses.lifecycle = 2 then { emptySlot with state := 3 } else loadedSlot 3 (Config.kdf 8 [c.fuses.secret]) 0 none
      let c : Chip := (c.setSlot 0 id).setSlot 1
        (loadedSlot 1 (Config.kdf 9 [c.fuses.secret]) 0 none)
      let c : Chip := (c.setSlot 2 (loadedSlot 5 0 0 none)).setSlot 7 (loadedSlot 6 c.randomNow 0 none)
      (c.redraw.put .GATE_BOOT_STAGE 4).put .GATE_BOOT_RESULT 0

/-- The internal reset is released (R399): straps sampled, Waking; a role of 1x keeps the part in reset. A part whose
Quarantine latch stands returns to Quarantine (R413). -/
def Chip.release (c : Chip) (b : BootIn) : Chip :=
  let fresh := c.pwr.state == .off || (c.pwr.state == .waking && c.pwr.dom == 1 && c.pwr.step.isNone && !c.pwr.booted)
  if !fresh || decide (2 ≤ b.role) then c
  else
    let c := (c.put .SYS_ROLE_ROLE b.role).put .SYS_ROLE_GEO_SEL b.geo
    let c := (c.onPwr fun p => { p with state := .waking }).showFuses
    let c := c.onBell fun x => { x with noBeaconSince := c.age }
    let blocked := { emptySlot with state := 3 }
    let c := if c.flag .GATE_QUAR_ACTIVE then
        ((c.setSlot 0 blocked).setSlot 1 blocked).onPwr fun p => { p with state := .quarantine }
      else c.bootSteps b
    let c := if b.role = 0 then c.ownDesc b.card else c
    c.seqNext

/-- Step 7 of R349: firmware runs, the part is in Run, or in Dim after a Deep wake; what the start is to tell is raised
(R398, R405, R411); an orderly stop that is past its fade goes on to Dim (R410). -/
def Chip.bootDone (c : Chip) : Chip :=
  let deep := c.pwr.deepWake
  let c := c.put .GATE_BOOT_STAGE 7
  let c := c.onPwr fun p => { p with
    booted := true, state := if deep then .dim else .run, target := if deep then .dim else .run, deepWake := false }
  let c := c.when c.pwr.wdtStart fun c => (c.raise .PWR_WDT_RESET).onPwr fun p => { p with wdtStart := false }
  let c := c.when c.pwr.tripStart fun c => (c.raise .WEATHER_TRIPPED).onPwr fun p => { p with tripStart := false }
  let c := c.when deep fun c => c.raise .PWR_WAKE
  let c := c.raise .PWR_STATE_DONE
  if c.get .WEATHER_STAT_PHASE = 2 && !deep then c.dimEnter else c.seqNext

/-! ### Trip and tamper -/

/-- The trip (R411): every switched domain off with no drain and no dwell, the trip counted; the part is Off with D0. -/
def Chip.trip (c : Chip) : Chip :=
  match c.pwr.state with
  | .off => c
  | .offTrip => c
  | .deep => c
  | _ =>
    let c := c.dropSwitched.count Reg.WEATHER_TRIP_CNT
    let c := c.onWx fun w => { w with trips := c.age :: (w.trips.filter fun a => decide (c.age < a + ms 3600000)) }
    c.onPwr fun p => { p with state := .offTrip }

/-- The restart after a trip (R411): as a warm reset with cause TRIP, unless TRIP_HOLD is set or this is the third trip within
an hour. -/
def Chip.tripRestart (c : Chip) : Chip :=
  if c.pwr.state != .offTrip || c.flag .WEATHER_CFG_TRIP_HOLD || decide (3 ≤ c.wx.trips.length) then c
  else (c.startCause 4).onPwr fun p => { p with state := .waking, tripStart := true }

/-- A tamper event's response outside start-up (R367, R368): latched; in Waking, Run and Dim secrets go, a sender completes
its descriptors TAMPERED and stops its ports, a bit is burned, and Quarantine follows; before step 4 of R349 the next step 2
finds the latch; in Deep the retention RAM goes and
the part wakes into Quarantine. -/
def Chip.tamperEvent (c : Chip) (x : Tamper) : Chip :=
  let src := x.src
  if !c.tamperOn src || !x.met then c
  else match c.pwr.state with
    | .off => c
    | .offTrip => c.tamperLatch src
    | .quarantine => c.tamperLatch src
    | .deep =>
      let c := (c.tamperLatch src).onGate fun g => { g with retained := [] }
      (c.setNat Reg.PWR_WAKE_CAUSE 0x20).startCause 5 |>.onPwr fun p =>
        { p with state := .waking, target := .dim, deepWake := true, dom := 1, step := none }
    | _ =>
      if c.pwr.state == .waking && decide (c.get .GATE_BOOT_STAGE < 4) then
        (c.tamperLatch src).onGate fun g => { g with retained := [] }
      else
      let c := ((c.tamperLatch src).tamperBurn.extend 3 (m3Item 4 src)).onGate fun g => { g with quarFrom := 1 }
      let c := c.tamperZero
      let c := if c.isSender then
          (c.each (List.range 16) fun c n =>
            let c := (c.endQueued n 4).endFlight n 4
            let c := (c.onPort n fun p => { p with boots := [], pixels := [], beacons := [], racks := [] }).txStop (n / 2) (n % 2)
            if c.linkUpAt n then (c.setPortState (n / 2) (n % 2) 0).senderPortLost n else c).endTaken 4
        else c.lampDisable
      let c := (c.quarantine 2).onPwr fun p =>
        { p with state := .quarantine, queue := [], atTick := none, held := false, safe := [] }
      c.seqNext

end Sys2Proof.Machine
end

