-- ==== Sys2Proof/Machine/OpsWeather.lean ====
section
/-!
DEFINITION. Weathervane (R407–R413): readings, the thermal level and DERATE, the orderly stop; and a new panel descriptor in
force (R18, R248).
-/

namespace Sys2Proof.Machine

/-- WARN_C in force, in 1/16 °C (WEATHER_CFG). -/
def Chip.warnC (c : Chip) : Int := 16 * (min 110 (max 70 (c.get .WEATHER_CFG_WARN_C)) : Nat)

/-- ORDERLY_C in force, in 1/16 °C (WEATHER_CFG). -/
def Chip.orderlyC (c : Chip) : Int :=
  16 * (min 120 (max (min 110 (max 70 (c.get .WEATHER_CFG_WARN_C)) + 5) (c.get .WEATHER_CFG_ORDERLY_C)) : Nat)

/-- T_f as shown, in 1/16 °C. -/
def Chip.tf (c : Chip) : Int := signOf 16 (c.get .WEATHER_TEMP_TF)

/-- The thermal level (WEATHER_TEMP.LEVEL): 0 NORMAL, 1 WARN, 2 ORDERLY. -/
def Chip.level (c : Chip) : Nat := c.get .WEATHER_TEMP_LEVEL

/-- S and F of R409 for a mode, in hundredths. -/
def derateOf (mode : Nat) : Nat × Nat := if mode = 1 then (2, 80) else if mode = 2 then (6, 40) else (3, 70)

/-- DERATE (R409, R412): 1.0 at NORMAL, F of the mode while the sensor has failed, else max(F, FMA32(−S, T_f − WARN_C, 1.0)). -/
def Chip.derateNow (c : Chip) : Nat :=
  let sf := derateOf c.mode
  let f := (rn32 (quot32 sf.2 100)).val
  if c.flag .WEATHER_STAT_SENSOR then enc32 f
  else if c.level = 0 then one32
  else
    let s := (rn32 (quot32 sf.1 100)).val
    let x := (rn32 (dyAdd (dyMul (dyNeg s) (c.tf - c.warnC, -4)) (dyInt 1))).val
    enc32 (if dyLe f x then x else f)

/-- DERATE is brought up to date. -/
def Chip.derateShow (c : Chip) : Chip := c.setNat Reg.WEATHER_DERATE c.derateNow

/-- The orderly stop begins (R410): ORDERLY is raised; a tile's fade runs to +0, a sender's scanout stops at the next frame
tick. -/
def Chip.orderlyStart (c : Chip) : Chip :=
  let c := (c.put .WEATHER_TEMP_LEVEL 2).put .WEATHER_STAT_PHASE 1
  let c := c.onWx fun w => { w with orderlyAt := some c.age, coolAt := none }
  let c := if c.isTile then
      c.onLamp fun l => { l with cover := some (false, { f0 := 0, f1 := 0, start := none, len := 0, told := false }) }
    else c
  c.raise .WEATHER_ORDERLY

/-- A reading of the diode (R407, R412): `raw` in 1/16 °C as converted, `fault` reported by the converter. An implausible one
is counted and takes no part in T_f; the first of a run fails the sensor and brings ORDERLY at once. -/
def Chip.tempReading (c : Chip) (raw : Int) (fault : Bool) : Chip :=
  let jump := match c.wx.prev with
    | some p => decide (128 < (raw - p).natAbs)
    | none => false
  if !c.domOn 9 then c
  else if fault || decide (raw < -880) || decide (2560 < raw) || jump then
    let c := (c.count Reg.WEATHER_FAULT_CNT).put .WEATHER_STAT_RAW (if fault then 0x8000 else wrapTo 16 raw)
    let c := c.onWx fun w => { w with okRun := 0, prev := if fault then w.prev else some raw, coolAt := none }
    if c.flag .WEATHER_STAT_SENSOR then c
    else
      let c := (c.put .WEATHER_STAT_SENSOR 1).raise .WEATHER_SENSOR_FAIL
      let c := if c.level = 2 then c else c.orderlyStart
      c.derateShow
  else
    let v := raw + signOf 16 (c.get .WEATHER_OFFSET_OFFSET)
    let c := (c.put .WEATHER_STAT_RAW (wrapTo 16 raw)).onWx fun w =>
      { w with prev := some raw, readings := (v :: w.readings).take 8, okRun := w.okRun + 1 }
    if c.flag .WEATHER_STAT_SENSOR && decide (1000 ≤ c.wx.okRun) then
      (c.put .WEATHER_STAT_SENSOR 0).raise .WEATHER_SENSOR_OK
    else c

/-- WEATHER_PEAK follows T_f: the highest since the last read. -/
def Chip.peakNote (c : Chip) (t : Int) : Chip :=
  if c.wx.peakNew || decide (signOf 16 (c.get .WEATHER_PEAK_TF) < t) then
    (c.put .WEATHER_PEAK_TF (wrapTo 16 t)).onWx fun w => { w with peakNew := false }
  else c

/-- The level as T_f sets it (R408). -/
def Chip.levelStep (c : Chip) (t : Int) : Chip :=
  if c.level = 2 then
    let cool := decide (t < c.warnC) && !c.flag .WEATHER_STAT_SENSOR
    c.onWx fun w => { w with coolAt := if cool then some (w.coolAt.getD c.age) else none }
  else
    let c := if c.level = 0 ∧ c.warnC ≤ t then (c.put .WEATHER_TEMP_LEVEL 1).raise .WEATHER_WARN else c
    if c.orderlyC ≤ t then c.orderlyStart
    else if c.level = 1 ∧ t < c.warnC - 80 then (c.put .WEATHER_TEMP_LEVEL 0).raise .WEATHER_WARN_CLEAR
    else c

/-- Every 1 ms: T_f from the last 8 plausible readings, the level, DERATE (R407–R409). -/
def Chip.tfUpdate (c : Chip) : Chip :=
  if c.domOn 9 && decide (8 ≤ c.wx.readings.length) then
    let t := (c.wx.readings.foldl (· + ·) 0 + 4) / 8
    let c := (c.put .WEATHER_TEMP_TF (wrapTo 16 t)).put .WEATHER_TEMP_VALID 1
    ((c.peakNote t).levelStep t).derateShow
  else c

/-- 500 ms into the orderly stop: Dim, and ORDERLY_DONE (R410). -/
def Chip.orderlyDim (c : Chip) : Chip :=
  if c.level = 2 ∧ c.get .WEATHER_STAT_PHASE = 1 then
    let c := if c.pwr.state == .run && c.pwr.target == .run then c.dimEnter else c
    (c.put .WEATHER_STAT_PHASE 2).raise .WEATHER_ORDERLY_DONE
  else c

/-- T_f has stayed below WARN_C for 10 s with the sensor OK: ORDERLY ends, and with AUTO_RESUME the part asks for Run
(R408, R410). -/
def Chip.orderlyEnd (c : Chip) : Chip :=
  if c.level = 2 && c.wx.coolAt.isSome && !c.flag .WEATHER_STAT_SENSOR then
    let c := if c.warnC - 80 ≤ c.tf then c.put .WEATHER_TEMP_LEVEL 1
      else (c.put .WEATHER_TEMP_LEVEL 0).raise .WEATHER_WARN_CLEAR
    let c := ((c.put .WEATHER_STAT_PHASE 0).onWx fun w => { w with orderlyAt := none, coolAt := none }).derateShow
    if c.flag .WEATHER_CFG_AUTO_RESUME then (c.stateAsk 2).raise .WEATHER_RESUMED else c
  else c

/-- A read of WEATHER_PEAK re-arms it. -/
def Chip.peakRead (c : Chip) : Chip := c.onWx fun w => { w with peakNew := true }

/-- The Lamplighter under a new descriptor (R248): sinks off, faults cleared, a power-up sweep; driving resumes at a tick. -/
def Chip.lampRewire (c : Chip) : Chip :=
  let c := c.clearFaults
  if c.enabled 0xa6 then
    let c := if c.lampState = 2 then c.setLamp 1 else c
    (c.onLamp fun l => { l with waitTick := true, sweep := [], sweepOn := false, ocPairs := [] }).sweepStart
  else c

/-- A descriptor comes into force (R10, R18, R248): one of the sender's configuration, else the part's own. The first that the sender loads is
the configuration that a tile's M2 measures (R349 step 6; DEDUCED, log entry 195). -/
def Chip.descriptorChange (c : Chip) (cfg card : Option (List Byte)) : Chip :=
  if !c.isTile then c
  else
    let was := c.pdesc
    let c := match cfg with
      | some b => if descOk b then (c.when (listAt c.gate.m 2 0 == 0) fun c => c.extend 2 b).setDesc b 2 else c
      | none => c.ownDesc card
    if c.pdesc = was then c else c.lampRewire.domSync

end Sys2Proof.Machine
end

