-- ==== Sys2Proof/Machine/OpsMode.lean ====
section
/-!
DEFINITION. The coordinated mode switch (R22–R24): arm, acknowledgements, cancel, decision and go cells, and the mode taking
effect in both roles.
-/

namespace Sys2Proof.Machine

/-- A state's change of SYS_MODE_STAT with its cause. -/
def Chip.switchState (c : Chip) (st cause : Nat) : Chip :=
  (c.put .SYS_MODE_STAT_STATE st).put .SYS_MODE_STAT_CAUSE cause

/-- An arm is refused (R23, R24): a pending switch keeps its state and only CAUSE changes. -/
def Chip.armRefuse (c : Chip) (cause : Nat) : Chip :=
  (if c.switchPending then c.put .SYS_MODE_STAT_CAUSE cause else c.switchState 6 cause).raise .SYS_MODE_REFUSED

/-- SCAN of a tile's descriptor (R19). -/
def Dev.scan (d : Dev) : Nat := ((d.desc.drop 12).headD 0).toNat

/-- The tiles that take part in a switch: those ADMITTED, as port and record. -/
def Chip.switchTiles (c : Chip) : List (Nat × Dev) :=
  (List.range 16).flatMap fun n => ((c.serving n).filter fun d => d.st == .admitted).map fun d => (n, d)

/-- The scan limits of R22: frame rate × SCAN at most 3,840 in Broadcast, SCAN at most 8 in Brilliance. -/
def Chip.scanLimit (c : Chip) (m : Nat) : Bool :=
  c.switchTiles.all fun x =>
    if m = 1 then decide (c.rateNum * x.2.scan ≤ 3840 * c.rateDen) else if m = 2 then decide (x.2.scan ≤ 8) else true

/-- Answer units that a port would use in a mode (CHAIN_DISC). -/
def Chip.slotsIn (c : Chip) (m n : Nat) : Nat :=
  let a := max 1 (c.get (.CHAIN_DISC_ANS_SLOTS n))
  if m = 4 && bitAt (c.get .TWIN_RING_PORTS) n then max 2 a else a

/-- Band ticks fit (R77): at least two bands of 40 µs or more, the band guard at most half a band. -/
def Chip.bandsFit (c : Chip) : Bool :=
  let b := c.bands
  decide (2 ≤ b) && decide (us 40 * b ≤ c.period) && decide (2 * us c.bandGuard * b ≤ c.period)

/-- The capacity checks of an arm (R77, R126, R141, R200). -/
def Chip.armFits (c : Chip) (m : Nat) : Bool :=
  let p := { c.planNow with mode := m }
  c.allCap p && c.allPace p && (c.enabledPorts.all fun n => c.retFits n c.retStart (c.slotsIn m n)) &&
    (m != 3 || c.bandsFit)

/-- A fence or programmable order is active (SYS_MODE_STAT cause LOOM). -/
def Chip.loomOpen (c : Chip) : Bool :=
  c.flag .LOOM_CFG_ORDER_MODE || (List.range 16).any fun i => (c.layerSet false i).en && (c.layerSet false i).fenceEn

/-- Why an arm of a mode for tick N is refused; 0 if it is accepted. -/
def Chip.armCause (c : Chip) (m n : Nat) : Nat :=
  if c.switchPending then 2
  else if 6 ≤ m then 10
  else if n < c.lastIndex + 16 then 1
  else if c.upd.rel.any fun r => r.t == n then 3
  else if !c.scanLimit m then 4
  else if !c.armFits m then 5
  else if m == 4 && !c.twinReady then 6
  else if m == 3 && c.loomOpen then 9
  else 0

/-- The band of a tile with a sent entry is written to it when Swift is armed (R196, R201). -/
def Chip.sendBand (c : Chip) (n : Nat) (d : Dev) : Chip :=
  let p := { c.planNow with mode := 3 }
  match (c.sentOn p n none).find? fun e => e.wdn == d.wdn with
  | none => c
  | some e => c.sendFw n 0 d.wdn 2 Reg.NIMBUS_BAND 0 (leBytes 4 (c.bandOf p n e))

/-- A cell of the switch goes to every tile of the ports that have one. -/
def Chip.switchCells (c : Chip) (op arg : Nat) (data : List Byte) : Chip :=
  c.each (List.range 16) fun c n =>
    if (c.serving n).any fun d => d.st == .admitted then c.sendFw n 3 0 op 0 arg data else c

/-- SYS_MODE_CTRL.ARM (R23 steps 1 and 2). -/
def Chip.modeArm (c : Chip) : Chip :=
  let m := c.get .SYS_MODE_ARM_MODE
  let n := c.pair Reg.SYS_MODE_TICK_LO Reg.SYS_MODE_TICK_HI
  let k := c.armCause m n
  if k ≠ 0 then c.armRefuse k
  else
    let l := c.switchTiles
    let sw : Switch := { mode := m, n := n, expected := l.map fun x => (x.1, x.2.wdn), acked := [], lastGo := 0 }
    let c := { c.switchState 1 0 with switch := some sw }
    let c := c.switchCells 0x50 m (beBytes 8 n)
    let c := if m = 3 then
        c.each ((List.range 16).flatMap fun n => (c.serving n).map fun d => (n, d)) fun c x => c.sendBand x.1 x.2
      else c
    c.showSwitch

/-- The pending switch is given up with a cause: an abort cell to every armed tile, admission resumes (R23, R24). -/
def Chip.modeAbort (c : Chip) (cause : Nat) : Chip :=
  let c := (c.switchCells 0x52 0 []).switchState 5 cause
  { c with switch := none }.admitWaiting.raise .SYS_MODE_ABORT

/-- SYS_MODE_CTRL.CANCEL (R24). -/
def Chip.modeCancel (c : Chip) : Chip :=
  if !c.switchPending then c
  else if c.get .SYS_MODE_STAT_STATE = 3 then c.raise .SYS_CANCEL_LATE
  else c.modeAbort 8

/-- SYS_MODE_CTRL: both bits together arm nothing and cancel; nothing in the Tile role. -/
def Chip.modeCtrl (c : Chip) (v : Nat) : Chip :=
  if !c.isSender then c else if bitAt v 1 then c.modeCancel else if bitAt v 0 then c.modeArm else c

/-- A MODE_ACK record (R23 step 3). -/
def Chip.modeAck (c : Chip) (port wdn n mode : Nat) : Chip :=
  match if c.switchPending then c.switch else none with
  | none => c
  | some s =>
    if s.n % 2 ^ 32 = n ∧ s.mode = mode ∧ s.expected.contains (port, wdn) = true ∧ s.acked.contains (port, wdn) = false then
      { c with switch := some { s with acked := s.acked ++ [(port, wdn)] } }.showSwitch
    else c

/-- The sender is the one of a Twin pair that only follows (R328, R337). -/
def Chip.standby (c : Chip) : Bool := c.isSender && (c.twinRole == 1 || c.twinRole == 2)

/-- A go cell of the tick. -/
def Chip.modeGo (c : Chip) (s : Switch) (n : Nat) : Chip :=
  if s.lastGo = n then c else { c.switchCells 0x51 0 [] with switch := some { s with lastGo := n } }

/-- The decision (R23 step 4) at the last executed tick, if it is due: at N − 4, or at the first tick after it that is not
above N − 2. A standby makes none. -/
def Chip.modeDecide (c : Chip) : Chip :=
  match if c.switchPending && c.isSender && !c.standby then c.switch else none with
  | none => c
  | some s =>
    let n := c.lastIndex
    if c.get .SYS_MODE_STAT_STATE = 3 || decide (n + 4 < s.n) then c
    else if c.get .SYS_MODE_STAT_STATE = 2 ∧ n + 2 ≤ s.n then (c.switchState 3 0).modeGo s n
    else c.modeAbort 7

/-- A decided switch sends its go cell at each tick up to N − 2, and admission resumes at N + 1, whatever STATE reads by then
(R23). -/
def Chip.modeTick (c : Chip) (n : Nat) : Chip :=
  match c.switch with
  | none => c
  | some s =>
    if c.get .SYS_MODE_STAT_STATE = 3 then
      if n + 2 ≤ s.n && !c.standby then c.modeGo s n else c
    else if !c.switchPending && decide (s.n < n) then ({ c with switch := none }).admitWaiting
    else c

/-- The mode in force changes, with what each mode's coming and going brings (R23, R102, R248, R259, R328). -/
def Chip.setMode (c : Chip) (m : Nat) : Chip :=
  let was := c.mode
  let c := c.put .SYS_MODE_MODE m
  let c := if was = 5 ∧ m ≠ 5 then c.serviceEnd.haloLeave else c
  let c := if m = 4 ∧ was ≠ 4 ∧ c.isSender = true then c.twinStart else if was = 4 ∧ m ≠ 4 then c.twinStop else c
  if c.isTile then
    let c := c.onNim fun x => { x with band := c.bandInForce }
    if c.enabled 0xa6 && !c.tile.locator then (c.gridStart c.bell.tickTime).showCurrents else c
  else if c.scan.line = 0 ∧ c.scan.run = true then c.scanTick c.scan.frame else c

/-- Tick N of a switch has been executed (R23 step 5): a sender that has decided takes the mode; a tile takes it with a go
cell at that very tick, and else reports MODE_MISS. -/
def Chip.modeSwitch (c : Chip) : Chip :=
  let n := c.lastIndex
  if c.isSender then
    match c.switch with
    | none => c
    | some s =>
      if c.get .SYS_MODE_STAT_STATE = 3 ∧ s.n ≤ n then ((c.switchState 4 0).setMode s.mode).raise .SYS_MODE_DONE else c
  else
    match c.tile.arm with
    | none => c
    | some a =>
      if n < a.n ∨ c.bell.tick.isNone then c
      else
        let c := c.onTile fun t => { t with arm := none }
        if a.go && a.n == n then c.setMode a.mode else c.onTile fun t => { t with modeMiss := true }

end Sys2Proof.Machine
end

