-- ==== Sys2Proof/Machine/OpsCommit.lean ====
section
/-!
DEFINITION. Commits (R35–R39): the check of a page's shadows, their application at a tick or at once, the fabric hold and its
release, and the fences of Loom's layers (R181–R184).
-/

namespace Sys2Proof.Machine

/-! ### Checking and applying a page -/

/-- Why a commit of the Lamplighter common page is refused: 2 TIMING (R236), 3 CURRENT (R234). -/
def Chip.lampCause (c : Chip) : Nat :=
  if timingBad (pGclk c.rateNum c.rateDen) (c.gridN true) c.panelScan (c.ctxReg true Reg.LAMP_ROW_TIMING) then 2
  else if c.commitCurrentBad true false (List.range 4) then 3
  else 0

/-- The cause for which a page's commit is refused (R162, R179, R202, R234, R236), 0 if it is accepted. -/
def Chip.commitCause (c : Chip) (p : Nat) : Nat :=
  if within p 0x42 0x45 then (c.ingestCause (p - 0x42)).1
  else if p = 0x50 then c.loomCause
  else if within p 0x51 0x60 then c.layerCause (p - 0x51)
  else if p = 0x68 then c.scanCause.1
  else if p = 0xa6 then c.lampCause
  else if within p 0xa2 0xa5 then if c.commitCurrentBad false true [p - 0xa2] then 3 else 0
  else 0

/-- A page's status shows the cause of its last refused commit, and CFG_BAD is raised. -/
def Chip.showCause (c : Chip) (p k : Nat) : Chip :=
  if within p 0x42 0x45 then
    let n := p - 0x42
    ((c.put (.INGEST_PIPE_STAT_CAUSE n) k).put (.INGEST_PIPE_STAT_CTX n) (c.ingestCause n).2).raise (.INGEST_CFG_BAD n)
  else if p = 0x50 then (c.put .LOOM_STAT_CAUSE k).raise .LOOM_CFG_BAD
  else if within p 0x51 0x60 then (c.put (.LOOM_LYR_STAT_CAUSE (p - 0x51)) k).raise (.LAYER_CFG_BAD (p - 0x51))
  else if p = 0x68 then (c.put .SCAN_STAT_CAUSE k).raise .SCAN_CFG_BAD
  else if p = 0xa6 then (c.put .LAMP_STAT_CAUSE k).raise .LAMP_CFG_BAD
  else if within p 0xa2 0xa5 then (c.put (.LAMP_GRP_STAT_CAUSE (p - 0xa2)) k).raise (.LAMPG_CFG_BAD (p - 0xa2))
  else c

/-- A page has no commit waiting any more: PENDING clears, a layer's hold ends. -/
def Chip.commitGone (c : Chip) (p : Nat) : Chip :=
  let c := (c.put (.PG_COMMIT_PENDING p) 0).onFab fun f => { f with commits := f.commits.filter fun x => x.page != p }
  if within p 0x51 0x60 then c.unhold (p - 0x51) else c

/-- A commit is refused: the applied settings stay, PENDING clears, the cause is shown (R162, R179, R202). -/
def Chip.refuseCommit (c : Chip) (p k : Nat) : Chip := (c.commitGone p).showCause p k

/-- Every shadow of a page is applied in the same instant (R35). -/
def Chip.applyShadows (c : Chip) (p : Nat) : Chip :=
  let rest := spKeep (fun a => a / 0x1000 != p || !isRws a) c.regs
  let mine := spKeep (fun a => a / 0x1000 == p && isRws a) c.shadow
  { c with regs := spSetAll regReset rest mine }

/-- A register with its shadow applied. -/
def Chip.withShadow (c : Chip) (a : Nat) : Chip := c.wr a (c.rdS a)

/-- The commits among `due` keep R126 on a port, with the values that would apply and with those in force. -/
def Chip.retOk (c : Chip) (due : List Nat) (n : Nat) : Bool :=
  let d := c.when (due.contains 0x30) fun c => c.withShadow Reg.RET_CFG
  let d := d.when (due.contains (0x20 + n)) fun c => c.withShadow (Reg.CHAIN_DISC n)
  c.retFits n d.retStart (d.ansSlots n) && c.retFits n (c.retNow n).1 (c.retNow n).2

/-- A return timing that breaks R126 stays out of force: the old value stays and TIMING_BAD is raised. -/
def Chip.keepTiming (c : Chip) (due : List Nat) (p : Nat) (d : Chip) : Chip :=
  if !c.isSender then d
  else if p = 0x30 then
    if c.enabledPorts.all (c.retOk due) then d
    else (d.wr Reg.RET_CFG (c.rd Reg.RET_CFG)).raise .RET_TIMING_BAD
  else if within p 0x20 0x2f && c.rdS (Reg.CHAIN_DISC (p - 0x20)) != c.rd (Reg.CHAIN_DISC (p - 0x20)) then
    if c.retOk due (p - 0x20) then d
    else (d.wr (Reg.CHAIN_DISC (p - 0x20)) (c.rd (Reg.CHAIN_DISC (p - 0x20)))).raise .RET_TIMING_BAD
  else d

/-- What follows from a page's applied settings; `b` is the part before, `n` the tick, none for a commit applied at once. -/
def Chip.pageApplied (c b : Chip) (p : Nat) (n : Option Nat) : Chip :=
  if within p 0x42 0x45 then c.ingestApplied (p - 0x42) fun k => b.ctxSet false (p - 0x42) k
  else if within p 0x51 0x60 then ((c.raise (.LAYER_FLIP (p - 0x51))).layerStat (p - 0x51)).showLoomLoad
  else if p = 0x68 then
    let c := (c.put .SCAN_STAT_ACTIVE_END b.scanCause.2).onScan fun s => { s with told := [] }
    c.each (List.range 16) fun c k => (c.showLoad k).capRetest k
  else if p = 0xa6 then
    let c := if !c.lamp.fadeWr then c
      else match n with
        | none => c.onLamp fun l => { l with fadeNext := true, fadeWr := false }
        | some k => (c.fadeFrom k (c.nat Reg.LAMP_FADE_TARGET) (c.get .LAMP_FADE_MS_MS)).onLamp fun l => { l with fadeWr := false }
    c.showCurrents
  else if within p 0xa2 0xa5 then c.showCurrents
  else if within p 0x10 0x1b then
    c.each ((List.range 4).filter fun k => c.rd (Reg.SERDES_L_TX (p - 0x10) k) != b.rd (Reg.SERDES_L_TX (p - 0x10) k)) fun c k =>
      c.drive (p - 0x10) k
  else if c.isSender && p = 0x30 then
    c.each (List.range 16) fun c k => c.retAnnounce k (b.retStart, b.ansSlots k)
  else if c.isSender && within p 0x20 0x2f then c.retAnnounce (p - 0x20) (b.retStart, b.ansSlots (p - 0x20))
  else c

/-- A page's commit applies, among the pages `due` in the same instant: checked again, its shadows applied, APPLIED_TICK
recorded (R35, R37, R179). -/
def Chip.applyPage (c : Chip) (due : List Nat) (n : Option Nat) (p : Nat) : Chip :=
  let k := c.commitCause p
  if k ≠ 0 then c.refuseCommit p k
  else
    let d := (c.keepTiming due p (c.applyShadows p)).commitGone p
    (d.put (.PG_COMMIT_APPLIED_TICK p) ((n.getD c.lastIndex) % 65536)).pageApplied c p n

/-- A page number put in its place in a rising list. -/
def insertNat (n : Nat) : List Nat → List Nat
  | [] => [n]
  | m :: r => if n ≤ m then n :: m :: r else m :: insertNat n r

/-- What the apply check says of each of some pages, in their order, each found with the commits before it applied (R179). -/
def Chip.causesIn (c : Chip) (due : List Nat) (n : Option Nat) : List Nat → List (Nat × Nat)
  | [] => []
  | p :: l => (p, c.commitCause p) :: (c.applyPage due n p).causesIn due n l

/-- The members of the flip group among `pages` that do not apply, with their causes: where the apply check refuses one for a
cause of its own, every other is refused with GROUP (R184, R185). -/
def Chip.groupRefused (c : Chip) (pages : List Nat) (n : Option Nat) : List (Nat × Nat) :=
  if !c.flipActs then []
  else
    let mem := (c.causesIn pages n pages).filter fun x => within x.1 0x51 0x60 && c.flipMember (x.1 - 0x51)
    if mem.any fun x => x.2 != 0 then mem.map fun x => (x.1, if x.2 = 0 then 9 else x.2) else []

/-- Commits that fall due together apply in the same instant, in ascending order of page (R38). -/
def Chip.applyPages (c : Chip) (pages : List Nat) (n : Option Nat) : Chip :=
  let pages := pages.foldr insertNat []
  let out := c.groupRefused pages n
  let c := c.each out fun c x => c.refuseCommit x.1 x.2
  c.each (pages.filter fun p => !(out.any fun x => x.1 == p)) fun c p => c.applyPage pages n p

/-! ### When a commit applies -/

/-- A commit is due at the last executed tick (R35, R39). -/
def Chip.commitDue (c : Chip) (x : Commit) : Bool :=
  match c.bell.tick with
  | none => false
  | some n =>
    !x.held && match x.released with
      | none => decide (x.at_ + us 1 ≤ c.bell.tickUp)
      | some r => match r.tick with
        | some k => decide (k ≤ n)
        | none => decide (r.at_ + us 1 ≤ c.bell.tickUp)

/-- A layer's commit is held by a fence (R181). -/
def Chip.fenced (c : Chip) (p : Nat) : Bool := within p 0x51 0x60 && decide (0 < c.heldTicks (p - 0x51))

/-- The pages whose commits apply at the last executed tick. -/
def Chip.duePages (c : Chip) : List Nat :=
  ((c.fab.commits.filter c.commitDue).map (·.page)).filter fun p => !c.fenced p

/-- Commits that neither wait for a tick nor are held apply at once: the page is not enabled, or the part generates no frame
tick (R37). -/
def Chip.applyUntimed (c : Chip) : Chip :=
  let now := c.fab.commits.filter fun x => !x.held && x.released.isNone && (!c.enabled x.page || !c.ticking)
  if now.isEmpty then c else c.applyPages (now.map (·.page)) none

/-- Each Loom page and the SCAN page check their shadows when the COMMIT write reaches them (R179, R189). -/
def checkedAtWrite (p : Nat) : Bool := within p 0x50 0x60 || p == 0x68

/-- A write of PG_COMMIT.COMMIT (R35–R37, R39); ignored while PENDING; without effect on the arbiter page with COMPAT (R296). The
fabric hold has the commits written while HOLD is 1; one that was pending before HOLD was set goes on by R35. R39 does not say
which. DESIGN CHOICE, log entry 154. -/
def Chip.commitWrite (c : Chip) (p : Nat) : Chip :=
  if c.flag (.PG_COMMIT_PENDING p) then c
  else if p = 0x75 ∧ c.flag .ARB_CFG_COMPAT = true then c
  else
    let k := if checkedAtWrite p then c.commitCause p else 0
    if k ≠ 0 then c.refuseCommit p k
    else
      let hold := c.flag .CRIER_FAB_HOLD_HOLD
      let c := (c.put (.PG_COMMIT_PENDING p) 1).onFab fun f => { f with commits := f.commits ++ [⟨p, c.age, hold, none⟩] }
      c.applyUntimed

/-! ### The fabric hold (R39) -/

/-- The named tick of a release has passed, or falls less than 1 µs ahead. -/
def Chip.relLate (c : Chip) (k : Nat) : Bool :=
  (match c.bell.tick with | some n => decide (k ≤ n) | none => false) ||
    (c.tickSource && decide (c.tickTime k < c.bell.time + us 1))

/-- The held commits are released as one group; `tick` is the tick the release names. What cannot wait for a tick applies at
once (R39). -/
def Chip.fabRelease (c : Chip) (tick : Option Nat) : Chip :=
  let held := c.fab.commits.filter (·.held)
  let late := tick.any c.relLate
  let c := c.put .CRIER_FAB_STAT_REL_LATE (if late then 1 else 0)
  let c := c.when late fun c => c.raise .CRIER_REL_LATE
  let now := (held.filter fun x => !c.enabled x.page || !c.ticking).map (·.page)
  let r : Release := ⟨if late then none else tick, c.age⟩
  let c := c.onFab fun f => { f with
    commits := f.commits.map fun x => if x.held then { x with held := false, released := some r } else x }
  c.applyPages now none

/-- The tick in CRIER_FAB_REL_TICK. -/
def Chip.relTickReg (c : Chip) : Nat := c.pair Reg.CRIER_FAB_REL_TICK_LO Reg.CRIER_FAB_REL_TICK_HI

/-- A write of CRIER_FAB_HOLD: 1 → 0 of HOLD releases the held group. -/
def Chip.fabHoldWrite (c : Chip) (v : Word) : Chip :=
  let was := c.flag .CRIER_FAB_HOLD_HOLD
  let c := c.wr Reg.CRIER_FAB_HOLD (v &&& 3)
  if was && !v.getLsbD 0 then c.fabRelease (if v.getLsbD 1 then some c.relTickReg else none) else c

/-! ### Fences at a tick (R181–R184) -/

/-- The layers whose commit is due at the last executed tick. -/
def Chip.dueLayers (c : Chip) : List Nat :=
  (((c.fab.commits.filter c.commitDue).map (·.page)).filter fun p => within p 0x51 0x60).map (· - 0x51)

/-- At a tick at domain time `t` the commits due are held by unsignalled fences, or no longer; a held layer leaves its released
group. -/
def Chip.fenceTick (c : Chip) (t : Nat) : Chip :=
  let due := c.dueLayers
  let hold := due.filter (c.fenceHolds due t)
  let c := c.each (due.filter fun i => !hold.contains i) Chip.unhold
  let c := c.each hold Chip.holdLayer
  c.onFab fun f => { f with
    commits := f.commits.map fun x => if hold.any fun i => layerPage i == x.page then { x with released := none } else x }

/-- Held commits whose time is over (R183). -/
def Chip.fencesOver (c : Chip) : List Nat := (c.loom.held.map (·.1)).filter c.fenceExpired

/-- FENCE_TIMEOUT: DROP withdraws, APPLY applies at this tick; a flip group follows its member, and DROP wins (R183, R184). -/
def Chip.fenceExpire (c : Chip) : Chip :=
  let late := c.fencesOver
  let drop := (late.filter fun i => c.get (.LOOM_LYR_FENCE_TMO_ACTION i) == 0).flatMap c.heldWith
  let app := ((late.filter fun i => c.get (.LOOM_LYR_FENCE_TMO_ACTION i) != 0).flatMap c.heldWith).filter fun i => !drop.contains i
  let c := c.each late fun c i => c.raise (.LAYER_FENCE_TIMEOUT i)
  (c.each drop Chip.dropCommit).each app Chip.unhold

/-- Something falls due at the last executed tick beside the tick's own work: commits, held commits whose time is over. -/
def Chip.tickDue (c : Chip) : Bool := !c.duePages.isEmpty || !c.fencesOver.isEmpty

/-- What is due at the last executed tick applies, in the same instant (R38). -/
def Chip.applyTick (c : Chip) : Chip :=
  match c.bell.tick with
  | none => c
  | some n =>
    let c := c.fenceExpire
    c.applyPages c.duePages (some n)

end Sys2Proof.Machine
end

