-- ==== Sys2Proof/Machine/OpsRead.lean ====
section
/-!
DEFINITION. What a register read answers: the page header, registers computed from what the part holds, and what a read
changes (R6, R30–R34, R58).
-/

namespace Sys2Proof.Machine

/-- A word of a number. -/
def word (n : Nat) : Word := BitVec.ofNat 32 n

/-! ### The page header (R31) -/

/-- BLOCK_CAP of a page, as its chapter gives it. -/
def Chip.blockCap (c : Chip) (p : Nat) : Nat :=
  let snd := if c.isSender then 1 else 0
  if p = 0x03 then (if c.isSender then 1 else 2)
  else if within p 0x10 0x1b then
    let q := p - 0x10
    (if q < 8 then 0 else if q < 10 then 1 else if q = 10 then 2 else 3) + (if q = 11 then 0 else 4)
  else if within p 0x20 0x2f then snd + 2
  else if within p 0x42 0x45 then 4
  else if p = 0x48 then 4
  else if p = 0x50 then 4
  else if within p 0x51 0x60 then (if graphic (p - 0x51) then 1 else 0)
  else if p = 0x68 then 16
  else if p = 0xa0 then 0x1400
  else if within p 0xa2 0xa5 then (if p = 0xa5 then 96 else 128) + 256
  else if p = 0xb1 then 0x20
  else 0

/-- The update and Elder registers exist in one role each (R344, R389 and the pages beside them). -/
def roleHas (sender : Bool) (a : Nat) : Bool :=
  let o := a % 0x1000
  if a / 0x1000 = 0xc0 then o == 0x7c || (if sender then decide (o < 0x7c) else decide (0x80 ≤ o))
  else if a / 0x1000 = 0x91 then (if sender then decide (o < 0x80) else decide (0x80 ≤ o))
  else true

/-- A page has a register of an access code in the role. -/
def pageHas (sender : Bool) (p : Nat) (a : Acc) : Bool :=
  match classOf p with
  | none => false
  | some (k, _) => (classRows k).any fun r => r.acc == a && roleHas sender (p * 0x1000 + r.off)

/-- PG_ID of a page (R29, R31). -/
def pageId (p : Nat) : Word :=
  match classOf p with
  | none => 0
  | some (k, n) => word ((pInfo k).code * 2 ^ 24 + n * 2 ^ 16 + Config.pgVersion p % 65536)

/-- PG_CAP of a page that is present (R31). -/
def Chip.pageCap (c : Chip) (p : Nat) : Word :=
  word (2 ^ 31 + (if pageHas c.isSender p .rws then 2 ^ 30 else 0) + (if pageHas c.isSender p .rwl then 2 ^ 29 else 0) + c.blockCap p)

/-- PG_POLICY: the epoch in force and whether it still drains, the same in every page (R31, R365). -/
def Chip.pagePolicy (c : Chip) : Word :=
  word ((if c.fab.draining = 0 then 0 else 65536) + c.fab.epoch % 65536)

/-- A header word of a page. -/
def Chip.headerWord (c : Chip) (a : Nat) : Word :=
  let p := a / 0x1000
  let o := a % 0x1000
  if o = 0 then pageId p
  else if o = 4 then c.pageCap p
  else if o = 0x24 then c.pagePolicy
  else if o = 0x1c then 0
  else if o < 0x28 then c.rd a
  else 0

/-! ### Registers computed from what the part holds -/

/-- The index of a register in an array of `n` with a distance, if the address is one of them. -/
def idxIn (a base n stride : Nat) : Option Nat :=
  if a < base ∨ base + n * stride ≤ a ∨ (a - base) % stride ≠ 0 then none else some ((a - base) / stride)

/-- CRIER_COREc_STAT from a core's interrupt interface. -/
def Core.stat (k : Core) : Nat :=
  (if k.masked then 2 ^ 31 else 0) + (if k.asleep then 2 ^ 30 else 0) + k.stack.length % 32 * 2 ^ 24 +
    match k.stack with
    | [] => 0
    | (s, p) :: _ => 2 ^ 20 + p % 16 * 65536 + s % 256

/-- Registers of the Crier page. -/
def Chip.crierWord (c : Chip) (a : Nat) : Option Nat :=
  if a = Reg.CRIER_FAB_STAT then
    let n := (c.fab.commits.filter fun x => x.held || x.released.isSome).length
    some ((if c.fab.commits.any (·.released.isSome) then 2 ^ 31 else 0) + c.get .CRIER_FAB_STAT_REL_LATE * 2 ^ 30 + min n 4095)
  else if a = Reg.CRIER_PIN_CTRL then some ((if irqLow c then 2 ^ 31 else 0) + c.get .CRIER_PIN_CTRL_MASK)
  else match idxIn a (Reg.CRIER_PEND 0) 8 4 with
    | some k => some (pendWord c k)
    | none => (idxIn a (Reg.CRIER_CORE_STAT 0) 4 4).map fun k => (listAt c.fab.cores k ⟨false, false, []⟩).stat

/-- The port the servo follows (BELL_STATUS.PORT). -/
def Chip.bellPort (c : Chip) : Nat :=
  if c.isTile then c.upPort else match c.bell.parent with | some (p, _) => p | none => 0

/-- A spread factor is in force (BELL_STATUS.SPREAD): a tile's beacons carry one, or a chain quad of a sender spreads (R59,
R93). -/
def Chip.spreading (c : Chip) : Bool :=
  if c.isTile then c.flag .BELL_STATUS_SPREAD
  else (List.range 8).any fun q => c.enabled (0x10 + q) && c.flag (.SERDES_SSC_EN q) && c.get (.SERDES_SSC_DEPTH q) != 0

/-- Registers of the Bellringer's page. -/
def Chip.bellWord (c : Chip) (a : Nat) : Option Nat :=
  let b := c.bell
  let idx := b.tick.getD 0
  if a = Reg.BELL_STATUS then
    some ((c.nat a) % 16 + c.bellPort % 4 * 16 + c.get .BELL_STATUS_REFUSING * 256 + (if c.syncTicks then 512 else 0) +
      (if c.ticking then 1024 else 0) + (if c.spreading then 2048 else 0))
  else if a = Reg.BELL_TIME_SUBNS then some (b.time % 65536)
  else if a = Reg.BELL_TIME_NS then some (nsOf b.time)
  else if a = Reg.BELL_TIME_SEC_LO then some (secOf b.time % 2 ^ 32)
  else if a = Reg.BELL_TIME_SEC_HI then some (secOf b.time / 2 ^ 32 % 65536)
  else if a = Reg.BELL_TICK_IDX_LO then some (idx % 2 ^ 32)
  else if a = Reg.BELL_TICK_IDX_HI then some (idx / 2 ^ 32 % 2 ^ 32)
  else if a = Reg.BELL_SYNC_CAP_NS then some (nsOf b.syncCap)
  else if a = Reg.BELL_SYNC_CAP_SEC_LO then some (secOf b.syncCap % 2 ^ 32)
  else if a = Reg.BELL_SYNC_CAP_SEC_HI then some (secOf b.syncCap / 2 ^ 32 % 65536)
  else none

/-- The entry of the CHAIN list that CHAIN_LIST_IDX selects. -/
def Chip.listEntry (c : Chip) (n : Nat) : Option ListEntry :=
  if c.isTile then none else (c.port n).list[c.get (.CHAIN_LIST_IDX_IDX n)]?

/-- Registers of a chain page. -/
def Chip.chainWord (c : Chip) (a : Nat) : Option Nat :=
  let n := a / 0x1000 - 0x20
  let e := c.listEntry n
  if a = Reg.CHAIN_CFG n && c.isTile then some 0
  else if a = Reg.CHAIN_LIST_SER_LO n then some ((e.map fun e => e.serial % 2 ^ 32).getD 0)
  else if a = Reg.CHAIN_LIST_SER_HI n then some ((e.map fun e => e.serial / 2 ^ 32 % 2 ^ 32).getD 0)
  else if a = Reg.CHAIN_LIST_INFO n then
    some ((e.map fun e => 2 ^ 31 + e.kind % 8 * 2 ^ 28 + e.depth % 2048 * 65536 + e.reason % 16).getD 0)
  else if a = Reg.CHAIN_LIST_IDX n && c.isTile then some 0
  else none

/-- Registers of the return page. A sender shows the longest superframe of its enabled ports. -/
def Chip.retWord (c : Chip) (a : Nat) : Option Nat :=
  if a = Reg.RET_STAT then
    let len := if c.isTile then superframeLen c.tileRet.2
      else c.enabledPorts.foldl (fun m n => max m (superframeLen (c.retNow n).2)) 0
    let used := if c.isTile then c.get .RET_UNITS_COUNT
      else (List.range 16).foldl (fun m n => max m (c.unitsUsed n).length) 0
    some (len % 65536 * 65536 + used % 2048)
  else if a = Reg.RET_CFG && c.isTile then some (c.tileRet.1 % 65536)
  else none

/-- Registers of ingest, Loom, scanout and the correction engine. -/
def Chip.pixelWord (c : Chip) (a : Nat) : Option Nat :=
  let p := a / 0x1000
  let i := p - 0x42
  if within p 0x42 0x45 && a == Reg.INGEST_USE_SCL i then some (c.cramUse.2.1 % 65536 * 65536 + c.cramUse.1 % 65536)
  else if within p 0x42 0x45 && a == Reg.INGEST_USE_LUT i then some (c.cramUse.2.2 % 65536)
  else if within p 0x42 0x45 && a == Reg.INGEST_CRAM_DATA i then
    some (c.cramWord (c.get (.INGEST_CRAM_ADDR_ADDR i) / 4 * 4))
  else if a = Reg.LOOM_LUT_DATA then some (c.lutWord (c.get .LOOM_LUT_ADDR_ADDR / 4 * 4))
  else if a = Reg.LOOM_LUT_USE then some (c.lutUse % 65536)
  else if a = Reg.SCAN_MAP_DATA then some (memLe c.scan.map (c.get .SCAN_MAP_ADDR_ADDR / 4 * 4) 4)
  else if a = Reg.CORR_MEM_DATA then some (memLe c.nim.mem (c.get .CORR_MEM_ADDR_ADDR / 4 * 4) 4)
  else if a = Reg.CORR_STAT then some (c.get .CORR_CFG_LBANK * 512 + c.get .CORR_CFG_CBANK * 256)
  else match idxIn a (Reg.SCAN_CH_STAT 0) 16 4 with
    | some n => some ((c.showLoad n).nat a)
    | none => none

/-- Registers of the Lamplighter's pages. -/
def Chip.lampWord (c : Chip) (a : Nat) : Option Nat :=
  let p := a / 0x1000
  if a = Reg.LAMP_FAULT_ENTRY then some (faultWord c.lamp.faults (c.get .LAMP_FAULT_IDX_IDX))
  else if a = Reg.LAMP_SWEEP_STAT then
    some (c.get .LAMP_SWEEP_STAT_RUNNING * 2 ^ 31 + c.get .LAMP_SWEEP_STAT_FOUND * 2 ^ 30 +
      min ((c.age - c.lamp.sweepAt) / ms 1000) 65535)
  else if within p 0xa2 0xa5 && a == Reg.LAMP_GRP_STAT (p - 0xa2) then
    some (c.get (.LAMP_GRP_STAT_CAUSE (p - 0xa2)) * 2 ^ 28 + min (c.maskedCount (p - 0xa2)) 4095 * 65536 +
      min (c.usedCount (p - 0xa2)) 255)
  else none

/-- The code of a power state (PWR_STATE.STATE, coded alike in TARGET). -/
def PState.code : PState → Nat
  | .off => 0
  | .offTrip => 0
  | .waking => 1
  | .run => 2
  | .dim => 3
  | .deep => 4
  | .quarantine => 5

/-- The lowest bit set of a number below 2^80. -/
def lowBit (n : Nat) : Option Nat := (List.range 80).find? fun k => bitAt n k

/-- Registers of the power page. -/
def Chip.pwrWord (c : Chip) (a : Nat) : Option Nat :=
  let w := c.pwr
  if a = Reg.PWR_STATE then
    some (c.get .PWR_STATE_CAUSE * 2 ^ 28 + w.state.code * 2 ^ 24 + w.target.code * 2 ^ 20 +
      (if w.step.isSome then 2 ^ 19 else 0) + (if w.atTick.isSome then 2 ^ 18 else 0) + match w.step with | some s => s.dom | none => 0)
  else if a = Reg.PWR_SEQ_STAT then
    some (c.get .PWR_SEQ_STAT_REVERSALS * 65536 + match lowBit w.failed with | some d => 128 + d | none => 0)
  else match idxIn a (Reg.PWR_DOM_ON 0) 3 4 with
    | some k => some (w.dom / 2 ^ (32 * k) % 2 ^ 32)
    | none => (idxIn a (Reg.PWR_DOM_ROLE 0) 3 4).map fun k => c.domRole / 2 ^ (32 * k) % 2 ^ 32

/-- Registers of the Gatehouse, key and update pages. -/
def Chip.gateWord (c : Chip) (a : Nat) : Option Nat :=
  if a = Reg.GATE_CLAIM then some c.claimWord
  else if a = Reg.GATE_OWNER_ID_LO then some (leNat ((beBytes 8 c.ownerId).take 4))
  else if a = Reg.GATE_OWNER_ID_HI then some (leNat ((beBytes 8 c.ownerId).drop 4))
  else if a = Reg.GATE_POL_DATA then some c.polShadowNow
  else if a = Reg.KEYS_INFO then some c.keyInfo
  else if a = Reg.KEYS_KID_LO then some (leNat ((beBytes 8 (c.kid (c.get .KEYS_SEL_SLOT))).take 4))
  else if a = Reg.KEYS_KID_HI then some (leNat ((beBytes 8 (c.kid (c.get .KEYS_SEL_SLOT))).drop 4))
  else if a = Reg.KEYS_IN_USE then some c.keysInUse
  else if a = Reg.UPDATE_BITMAP then some c.bitmapWord
  else if a = Reg.UPDATE_SLOTS then some c.slotsWord
  else none

/-- GRAN_MGR_STAT.PROGRESS is the share of a migration that is done: its pace is not given, so a free value (log entry 5). -/
def Chip.granWord (c : Chip) (a : Nat) : Option Nat :=
  if a = Reg.GRAN_MGR_STAT && c.gran.migr.isSome then some (c.nat a % 2 ^ 24 + c.drawn % 101 * 2 ^ 24) else none

/-- A register that the role makes read 0: the tile's PTP settings, and its ASYM4 to ASYM17. -/
def Chip.roleZero (c : Chip) (a : Nat) : Bool :=
  !roleHas c.isSender a || (c.isTile && (a == Reg.BELL_PTP_CFG || decide (Reg.BELL_ASYM 4 ≤ a ∧ a ≤ Reg.BELL_ASYM 17)))

/-- SYS_DOMAIN of a sender shows its index as WDN. -/
def Chip.sysWord (c : Chip) (a : Nat) : Option Nat :=
  if a = Reg.SYS_DOMAIN && c.isSender then some (c.sidx * 65536 + 32768 + c.sidx) else none

/-- SERDES_QCFG of a quad that is no chain quad: RATE reads 0. -/
def Chip.laneWord (c : Chip) (a : Nat) : Option Nat :=
  if a / 0x1000 - 0x10 < 8 then none
  else if a = Reg.SERDES_QCFG (a / 0x1000 - 0x10) then some (c.nat a / 4 * 4)
  else none

/-- A register computed at the read, if it is one. -/
def Chip.liveWord (c : Chip) (a : Nat) : Option Nat :=
  let p := a / 0x1000
  if c.roleZero a then some 0
  else if p = 0x00 then c.sysWord a
  else if p = 0x01 then c.pwrWord a
  else if p = 0x02 then c.crierWord a
  else if p = 0x03 then c.bellWord a
  else if within p 0x10 0x1b then c.laneWord a
  else if within p 0x20 0x2f then c.chainWord a
  else if p = 0x30 then c.retWord a
  else if within p 0xa2 0xa6 then c.lampWord a
  else if within p 0x42 0xa1 then (match c.granWord a with | some v => some v | none => c.pixelWord a)
  else if within p 0xb0 0xc0 then c.gateWord a
  else none

/-- What a register reads as, before what the read itself changes (R7). -/
def Chip.regWord (c : Chip) (a : Nat) : Word :=
  if a % 0x1000 < 0x40 then c.headerWord a
  else
    match rowOf a with
    | none => 0
    | some r =>
      if r.acc == .wo then 0
      else match assoc c.fab.held64 a with
        | some v => v
        | none =>
          match c.liveWord a with
          | some n => word n
          | none => if r.acc == .rws then c.rdS a else c.rd a

/-! ### What a read changes -/

/-- A value is held for the next read of a register (R6). -/
def Chip.hold64 (c : Chip) (a : Nat) : Chip :=
  let v := { c with fab := { c.fab with held64 := c.fab.held64.filter fun e => e.1 != a } }.regWord a
  c.onFab fun f => { f with held64 := assocPut f.held64 a v }

/-- The registers that a read of `a` latches: the high word of a 64-bit count, the time behind its sub-nanoseconds, the
seconds of a capture. -/
def latches (a : Nat) : List Nat :=
  if a = Reg.BELL_TIME_SUBNS then [Reg.BELL_TIME_NS, Reg.BELL_TIME_SEC_LO, Reg.BELL_TIME_SEC_HI]
  else if a = Reg.BELL_SYNC_CAP_NS then [Reg.BELL_SYNC_CAP_SEC_LO, Reg.BELL_SYNC_CAP_SEC_HI]
  else if a = Reg.BELL_TICK_IDX_LO then [Reg.BELL_TICK_IDX_HI]
  else if within (a / 0x1000) 0x40 0x41 && a % 0x1000 == 0x80 then [a + 4]
  else if within (a / 0x1000) 0x10 0x1b && decide (0x80 ≤ a % 0x1000) && (a % 0x1000 - 0x80) % 0x40 == 0x14 then [a + 4]
  else []

/-- A memory window moves on with AUTO_INC after a read of its data. -/
def Chip.windowRead (c : Chip) (a : Nat) : Chip :=
  let p := a / 0x1000
  if within p 0x42 0x45 && a == Reg.INGEST_CRAM_DATA (p - 0x42) then
    c.autoInc (.INGEST_CRAM_ADDR_AUTO_INC (p - 0x42)) (.INGEST_CRAM_ADDR_ADDR (p - 0x42))
  else if a = Reg.LOOM_LUT_DATA then c.autoInc .LOOM_LUT_ADDR_AUTO_INC .LOOM_LUT_ADDR_ADDR
  else if a = Reg.SCAN_MAP_DATA then c.autoInc .SCAN_MAP_ADDR_AUTO_INC .SCAN_MAP_ADDR_ADDR
  else if a = Reg.CORR_MEM_DATA then c.autoInc .CORR_MEM_ADDR_AUTO_INC .CORR_MEM_ADDR_ADDR
  else if a = Reg.GATE_POL_DATA then c.polAdvance
  else c

/-- Counters a read clears (R32), except through the debug port. -/
def Chip.countRead (c : Chip) (a : Nat) : Chip :=
  if (rowOf a).any fun r => r.kind == .count then c.setNat a 0
  else if a % 0x1000 = 0x20 then c.setNat a 0
  else if a % 0x1000 = 0x10 then (c.put (.PG_STATUS_WR_REJ (a / 0x1000)) 0).put (.PG_STATUS_REJ_WORD (a / 0x1000)) 0
  else if a = Reg.SCAN_FILL_MIN then c.onScan fun s => { s with rearm := 15 }
  else if a = Reg.WEATHER_PEAK then c.peakRead
  else if a = Reg.WELL_MGMT_STAT then c.put .WELL_MGMT_STAT_AUTH_FAIL 0
  else c

/-- What a performed read of a register changes. -/
def Chip.readEffect (c : Chip) (rq : Requester) (a : Nat) : Chip :=
  let c := c.each (latches a) Chip.hold64
  let c := if (latches a).isEmpty then c.onFab fun f => { f with held64 := f.held64.filter fun e => e.1 != a } else c
  let c := c.windowRead a
  let c := if c.gran.migr.isSome && a == Reg.GRAN_MGR_STAT then c.redraw else c
  if rq = .debug then c else c.countRead a

end Sys2Proof.Machine
end

