-- ==== Sys2Proof/Machine/OpsErase.lean ====
section
/-!
DEFINITION. Erasing a key slot and what it ends (R362, R363), and the KEYS operations by number.
-/

namespace Sys2Proof.Machine

/-- The operations that named a slot end without output (R362, R363): the commands queued and in flight on a sender's chain complete
KEY_REVOKED and unsent pixel cells go; its transmitters are in electrical idle for 1 ms, and the chain, down, draws a new key when it
comes up; a tile loses its session; the management session, the twin link's key and a bundle's verification end with theirs. That a
chain whose tiles hold the key is restarted with no command in flight too is DEDUCED, log entry 195. -/
def Chip.slotRevoked (c : Chip) (n : Nat) : Chip :=
  if 8 ≤ n ∧ n < 24 ∧ c.isSender = true then
    let p := n - 8
    let fl := (c.port p).flight
    let held := (c.port p).session.isSome
    let c := ((c.fwLost p 3 fl).endQueued p 3).endFlight p 3
    let c := c.onPort p fun x => { x with session := none, pixels := [], boots := [], beacons := [], racks := [] }
    if held && c.linkUpAt p then
      let c := (c.txStop (p / 2) (p % 2)).setPortState (p / 2) (p % 2) 0
      (c.setTx (p / 2) (p % 2) { c.txOf (p / 2) (p % 2) with idleAt := some c.age }).senderPortLost p
    else c
  else if n = 8 ∧ c.isTile = true then
    let c := if c.slice = 1 then c.sliceFail 5 else c
    c.onTile fun t => { t with session := none }
  else if n = 3 then c.onMgmt fun m => { m with hello := none }
  else if n = 4 then c.onTwin fun t => { t with keyed := false }
  else if n = 5 then c.onMgmt fun m => { m with session := false }
  else if n = 6 ∧ c.get .UPDATE_DL_STAT_STATE = 2 then c.bundleBad 2
  else c

/-- ERASE of the selected slot (R362): a pending write is discarded with it; refused for slots 0 to 2 (FIXED) and for a ring's
chain slot in Twin mode (TWIN). -/
def Chip.keyErase (c : Chip) (rq : Requester) : Chip :=
  let n := c.get .KEYS_SEL_SLOT
  c.keyGate rq n fun c =>
    if n < 3 then c.keyResult n 2
    else if 8 ≤ n ∧ n < 24 ∧ c.isSender = true ∧ c.ringed (n - 8) = true then c.keyResult n 7
    else
      let users := c.slotUsers n
      let c := (c.zeroSlot n).extend 3 (m3Item 5 n)
      let c := if users = 0 then c else (c.raise .KEYS_KEY_ERASED_IN_USE).countBy Reg.KEYS_REVOKED users
      (c.slotRevoked n).keyResult n 0

/-- KEYS_CTRL (R351, R362): debug that opens ends what its zeroised slots served; `ok` is whether a blob unwraps, or a token's signature verifies. Other OPs are ignored. -/
def Chip.keysCtrl (c : Chip) (rq : Requester) (v : Nat) (ok : Bool) : Chip :=
  let len := v % 256
  if c.flag .KEYS_STAT_BUSY then c.reject Reg.KEYS_CTRL
  else match v / 2 ^ 28 with
    | 1 => c.keyErase rq
    | 2 => c.writePublic rq len
    | 3 => c.keyImport rq len ok
    | 4 => c.keyGenerate rq false
    | 5 => c.keyGenerate rq true
    | 6 =>
      let d := c.openDebug rq len ok
      if d.nat Reg.KEYS_STAT / 2 ^ 24 % 16 = 0 then d.each ((List.range 32).drop 3) fun c n => c.slotRevoked n else d
    | _ => c

end Sys2Proof.Machine
end

