-- ==== Sys2Proof/Machine/OpsHooks.lean ====
section
/-!
DEFINITION. What a write does in each block beyond storing its value: the write-only controls, the registers that check
what they are given, and those a write re-arms. In every hook `st` is the part with the value stored, `a` the register's
address, `v` the value under the row's mask, and the answer is the part after the write.
-/

namespace Sys2Proof.Machine

/-- Accesses of the host (R325: over PCIe or the management channel). -/
def Requester.host : Requester → Bool
  | .pcie => true
  | .mgmt => true
  | _ => false

/-- The index of a page's block among pages that begin at `first`. -/
def pageIdx (a first : Nat) : Nat := a / 0x1000 - first

/-- SYS: the mode registers act at a sender only (R23); a tile's domain is set by ASSIGN. -/
def Chip.sysHook (c st : Chip) (a : Nat) (v : Word) : Chip :=
  if a = Reg.SYS_MODE_CTRL then (if c.isTile then c else c.modeCtrl v.toNat)
  else if c.isTile && [Reg.SYS_DOMAIN, Reg.SYS_MODE_ARM, Reg.SYS_MODE_TICK_LO, Reg.SYS_MODE_TICK_HI].contains a then c
  else st

/-- PWR: a state request, the software reset, the watchdog (R398, R403). -/
def Chip.pwrHook (c st : Chip) (a : Nat) (v : Word) : Chip :=
  if a = Reg.PWR_STATE_CTRL then
    let t := bitsOf v 2 0
    if t = 2 ∨ t = 3 ∨ t = 4 then c.stateCtrl t (bitsOf v 8 8 == 1) else c.reject a
  else if a = Reg.PWR_RESET_CTRL then c.softwareReset v
  else if a = Reg.PWR_WDT then c.wdtWrite v
  else st

/-- CRIER_SRC_CFG: CORE_EN takes writes of the Reeve cores only; a software source whose EN is cleared ends (R53). -/
def Chip.srcCfgWrite (c : Chip) (rq : Requester) (n : Nat) (v : Word) : Chip :=
  let a := Reg.CRIER_SRC_CFG n
  let core := match rq with
    | .core _ => true
    | _ => false
  let v := if core then v else withBits v 3 0 (bitsOf (c.rd a) 3 0)
  let c := c.wr a v
  if 0xf8 ≤ n ∧ bitsOf v 31 31 = 0 then c.onFab fun f => { f with sgi := setBitAt f.sgi (n - 0xf8) false } else c

/-- CRIER_MSIX_EOI: the vector's message is sent again while a source on it is still pending (R52). -/
def Chip.msixEoi (c : Chip) (n : Nat) : Chip :=
  if c.isSender && (vectorBest c n).isSome then sendVector c n else c

/-- CRIER_SGI: software sources are set (R47). -/
def Chip.sgiWrite (c : Chip) (v : Nat) : Chip :=
  c.onFab fun f => { f with sgi := (List.range 8).foldl (fun s k => if bitAt v k then setBitAt s k true else s) f.sgi }

/-- CRIER. -/
def Chip.crierHook (c st : Chip) (rq : Requester) (a : Nat) (v : Word) : Chip :=
  if a = Reg.CRIER_FAB_HOLD then c.fabHoldWrite v
  else if a = Reg.CRIER_SGI then c.sgiWrite (bitsOf v 7 0)
  else if a = Reg.CRIER_MSIX_EOI then c.msixEoi (bitsOf v 5 0)
  else match idxIn a (Reg.CRIER_SRC_CFG 0) 256 4 with
    | some n => c.srcCfgWrite rq n v
    | none => st

/-- A wall-wide change waits for a tick, so that TICK_EN may not be cleared (R71): a mode switch, a release of held commits, a
Cavas activation. -/
def Chip.ticksNeeded (c : Chip) : Bool :=
  c.switchPending || c.fab.commits.any (·.released.isSome) || c.upd.rel.isSome || c.tile.rel.isSome

/-- BELL_TICK_CTRL (R71). A tile's copies are set by the beacons (R72). -/
def Chip.tickCtrl (c : Chip) (v : Word) : Chip :=
  if c.isTile then c
  else if bitsOf v 0 0 = 1 then
    if rateOk c.rateNum c.rateDen then c.put .BELL_TICK_CTRL_TICK_EN 1 else c.reject Reg.BELL_TICK_CTRL
  else if c.ticksNeeded then c.reject Reg.BELL_TICK_CTRL
  else c.put .BELL_TICK_CTRL_TICK_EN 0

/-- The rate and epoch registers of R71. -/
def rateRegs : List Nat :=
  [Reg.BELL_FRAME_NUM, Reg.BELL_FRAME_DEN, Reg.BELL_EPOCH_NS, Reg.BELL_EPOCH_SEC_LO, Reg.BELL_EPOCH_SEC_HI]

/-- The nanosecond registers, which take values below one second (BELL_SET, EPOCH and TOUT_START). -/
def nsRegs : List Nat := [Reg.BELL_SET_NS, Reg.BELL_EPOCH_NS, Reg.BELL_TOUT_START_NS 0, Reg.BELL_TOUT_START_NS 1]

/-- BELL. -/
def Chip.bellHook (c st : Chip) (a : Nat) (v : Word) : Chip :=
  if a = Reg.BELL_STEP_CTRL then
    (c.when (bitsOf v 1 1 == 1) Chip.loadSet).when (bitsOf v 0 0 == 1) Chip.forceStep
  else if a = Reg.BELL_TICK_CTRL then c.tickCtrl v
  else if rateRegs.contains a && c.isTile then c
  else if rateRegs.contains a && c.flag .BELL_TICK_CTRL_TICK_EN then c.reject a
  else if nsRegs.contains a && decide (999999999 < v.toNat) then c.reject a
  else if rateRegs.contains a then st.newGrid
  else if a = Reg.BELL_TOUT_CFG 0 then st.armTout 0
  else if a = Reg.BELL_TOUT_CFG 1 then st.armTout 1
  else st

/-- WEATHER: the offset lies within ±8 °C (R407); the thresholds act on DERATE at once. -/
def Chip.weatherHook (c st : Chip) (a : Nat) (v : Word) : Chip :=
  if a = Reg.WEATHER_OFFSET then
    let o := signOf 16 (bitsOf v 15 0)
    if -128 ≤ o ∧ o ≤ 128 then st else c.reject a
  else st

/-- SERDES: a tile's rate and spread follow what it detects, Q8 to Q11 have no rate; loopbacks, generators and equaliser
loads obey R97 and R102. -/
def Chip.serdesHook (c st : Chip) (a : Nat) (v : Word) : Chip :=
  let q := pageIdx a 0x10
  if a = Reg.SERDES_QCFG q then
    if c.isTile then c else if q < 8 then st else st.put (.SERDES_QCFG_RATE q) 0
  else if a = Reg.SERDES_SSC q then (if c.isTile then c else st)
  else if a = Reg.SERDES_MON q && q != 10 then c
  else if a = Reg.SERDES_LB q then c.lbWrite q v
  else match idxIn a (Reg.SERDES_L_PRBS q 0) 4 0x40 with
    | some k => c.prbsWrite q k v
    | none =>
      match idxIn a (Reg.SERDES_L_RXEQ q 0) 4 0x40 with
      | some k => c.rxeqSet q k v
      | none => st

/-- CHAIN: a sender's link delay is measured; a tile has no configuration and no list. Discovery switched on begins on a port
that is UP, and automatic admission takes the tiles that wait (R134, R135). -/
def Chip.chainHook (c st : Chip) (a : Nat) (v : Word) : Chip :=
  let n := pageIdx a 0x20
  if a = Reg.CHAIN_LIST_WDN n then (if c.isTile then c else c.listWdn n v)
  else if a = Reg.CHAIN_LINK_DLY n && c.isSender then c
  else if c.isTile && (a == Reg.CHAIN_CFG n || a == Reg.CHAIN_LIST_IDX n) then c
  else if a = Reg.CHAIN_CFG n then
    let up := st.enabled (0x20 + n) && st.linkUpAt n && st.chainState n == 0 && st.serves n
    (st.when up fun c => c.startDiscovery n).each ((c.port n).devs.map (·.serial)) fun c s => c.tryAdmit n s
  else st

/-- RET: a sender has no return advance. -/
def Chip.retHook (c st : Chip) (a : Nat) : Chip := if a = Reg.RET_ADV && c.isSender then c else st

/-- INGEST: the coefficient RAM's window. -/
def Chip.ingestHook (c st : Chip) (a : Nat) (v : Word) : Chip :=
  let p := pageIdx a 0x42
  if a = Reg.INGEST_CRAM_DATA p then c.cramWrite p v.toNat else st

/-- The accumulator's settings, which a run ARMED or RUNNING freezes (R259). -/
def accRegs : List Nat :=
  [Reg.HALO_ACC_SRC, Reg.HALO_ACC_WIN_POS, Reg.HALO_ACC_WIN_SIZE, Reg.HALO_ACC_FRAMES, Reg.HALO_ACC_BASE_LO,
    Reg.HALO_ACC_BASE_HI]

/-- A half of a limit register: finite and not negative (R262). -/
def limOk (h : Nat) : Bool := fin16 h && decide (h < 0x8000)

/-- HALO_PUSH_CTRL: ABORT stops the push; START runs the list (R263). -/
def Chip.pushCtrl (c : Chip) (v : Word) : Chip :=
  if bitsOf v 1 1 = 1 then c.pushStop 3
  else if bitsOf v 0 0 = 1 then
    let base := c.nat Reg.HALO_PUSH_LIST_LO / 64 * 64 + 2 ^ 32 * c.get .HALO_PUSH_LIST_HI_ADDR
    let t := c.pair Reg.HALO_PUSH_TICK_LO Reg.HALO_PUSH_TICK_HI
    (c.pushStart base (c.get .HALO_PUSH_COUNT_COUNT) t (bitsOf v 2 2 == 1) false).1
  else c

/-- A job that is aborted ends with cause ABORT, then its run and its push (R261). -/
def Chip.jobAbort (c : Chip) : Chip :=
  match c.halo.job with
  | none => c
  | some _ => ((c.jobFail 8).accAbort 7).when (c.halo.push.any (·.job)) fun c => c.pushStop 3

/-- HALO. -/
def Chip.haloHook (c st : Chip) (a : Nat) (v : Word) : Chip :=
  if a = Reg.HALO_ACC_CTRL then
    if bitsOf v 1 1 = 1 then c.accAbort 7 else if bitsOf v 0 0 = 1 then c.accStart false else c
  else if a = Reg.HALO_JOB_CTRL then
    if bitsOf v 1 1 = 1 then c.jobAbort else if bitsOf v 0 0 = 1 then c.jobStart else c
  else if a = Reg.HALO_PUSH_CTRL then c.pushCtrl v
  else if accRegs.contains a && c.accBusy then c.reject a
  else if (a = Reg.HALO_LIM_DIAG ∨ a = Reg.HALO_LIM_MISC) ∧ (limOk (bitsOf v 15 0) && limOk (bitsOf v 31 16)) = false then
    c.reject a
  else match idxIn a (Reg.HALO_S_APPLY 0) 8 0x20 with
    | some s => if bitsOf v 0 0 = 1 then c.sensorApply s else c
    | none => st

/-- CSI: a channel is enabled with a data type of R251 only. -/
def Chip.csiHook (c st : Chip) (a : Nat) (v : Word) : Chip :=
  let p := pageIdx a 0x49
  match idxIn a (Reg.CSI_VC_CFG p 0) 4 0x10 with
  | some _ => if bitsOf v 31 31 = 1 ∧ ¬ (0x2b ≤ bitsOf v 5 0 ∧ bitsOf v 5 0 ≤ 0x2d) then c.reject a else st
  | none => st

/-- LOOM common page. -/
def Chip.loomHook (c st : Chip) (a : Nat) (v : Word) : Chip :=
  if a = Reg.LOOM_GRP_PWR then (c.grpPower (bitsOf v 3 0)).domSync
  else if a = Reg.LOOM_FLIP_GROUP then c.flipGroup (bitsOf v 15 0)
  else if a = Reg.LOOM_LUT_DATA then c.lutWrite v.toNat
  else if a = Reg.LOOM_FENCE_INC then
    let n := bitsOf v 3 0
    c.fenceSet n ((c.nat (Reg.LOOM_FENCE n) + 1) % 2 ^ 32)
  else match idxIn a (Reg.LOOM_FENCE 0) 16 4 with
    | some n => c.fenceSet n v.toNat
    | none => st

/-- LOOM layer pages: a held commit can be cancelled (R183). -/
def Chip.layerHook (c st : Chip) (a : Nat) (v : Word) : Chip :=
  let i := pageIdx a 0x51
  if a = Reg.LOOM_LYR_FENCE_CANCEL i then
    if bitsOf v 0 0 = 1 ∧ (assoc c.loom.held i).isSome = true then c.dropCommit i else c
  else st

/-- SCAN: the map window; a new transfer function reloads the tiles' decode curves (R195, R446). -/
def Chip.scanHook (c st : Chip) (a : Nat) (v : Word) : Chip :=
  if a = Reg.SCAN_MAP_DATA then c.mapWrite v
  else if a = Reg.SCAN_CODE && c.get .SCAN_CODE_WTF != bitsOf v 1 0 then st.calCurves
  else st

/-- GRAN manager: retirement and region fills (R281, R289). -/
def Chip.granHook (c st : Chip) (a : Nat) (v : Word) : Chip :=
  if a = Reg.GRAN_MGR_CTRL then
    if bitsOf v 31 31 = 1 then c.retire (bitsOf v 1 0) (bitsOf v 2 2) else c
  else if a = Reg.GRAN_MGR_UNW then
    let r := bitsOf v 16 0
    match bitsOf v 31 30 with
    | 1 => if c.get .GRAN_MGR_TOP_MIB ≤ r then c.reject a else c.regionFill r
    | 2 => if c.get .GRAN_MGR_TOP_MIB ≤ r then c.reject a else c.regionClear r
    | _ => c
  else st

/-- ARB_CFG: COMPAT from 0 to 1 applies the shadows and clears PENDING (R296). -/
def Chip.arbHook (c st : Chip) (a : Nat) (v : Word) : Chip :=
  if a = Reg.ARB_CFG && !c.flag .ARB_CFG_COMPAT && bitsOf v 0 0 == 1 then (st.applyShadows 0x75).commitGone 0x75 else st

/-- WELL_RING_CTRL (R302, R309). -/
def Chip.ringCtrl (c : Chip) (v : Word) : Chip :=
  let w := bitsOf v 13 0
  if c.flag .WELL_RING_RES_BUSY then c.reject Reg.WELL_RING_CTRL
  else match bitsOf v 31 28 with
    | 1 => c.ringEnable w
    | 2 => c.ringFlush w
    | 3 => c.ringResume w
    | 4 => c.ringDisable w
    | _ => c

/-- WELL. -/
def Chip.wellHook (c st : Chip) (a : Nat) (v : Word) : Chip := if a = Reg.WELL_RING_CTRL then c.ringCtrl v else st

/-- TWIN_CTRL (R335, R337). -/
def Chip.twinHook (c st : Chip) (a : Nat) (v : Word) : Chip :=
  if a = Reg.TWIN_CTRL then (c.when (bitsOf v 1 1 == 1) Chip.resync).when (bitsOf v 0 0 == 1) Chip.rejoin else st

/-- ELDER: holder and epoch of a tile are set while it is no Elder; a report restarts its age (R339). -/
def Chip.elderHook (c st : Chip) (a : Nat) (v : Word) : Chip :=
  if (a = Reg.ELDER_T_HOLDER ∨ a = Reg.ELDER_T_EPOCH) ∧ c.flag .ELDER_T_CFG_ELDER = true then c.reject a
  else if a = Reg.ELDER_T_PEER then c.elderReport (bitsOf v 21 16) (bitsOf v 31 31 == 1) (bitsOf v 30 30 == 1)
  else st

/-- CORR: the correction memory's window. -/
def Chip.corrHook (c st : Chip) (a : Nat) (v : Word) : Chip :=
  if a = Reg.CORR_MEM_DATA then c.corrMemWrite v.toNat else st

/-- The bits of a LAMP_MASK register that stand for used column ports. -/
def Chip.maskBits (c : Chip) (g k : Nat) : Nat :=
  (List.range 32).foldl (fun m b =>
    let p := 128 * g + 32 * (k % 4) + b
    if p < 480 ∧ p < c.columnsUsed then m + 2 ^ b else m) 0

/-- LAMP group pages: pin faults are cleared by zeros; masks of unused and row ports read 0. -/
def Chip.lampGrpHook (c st : Chip) (a : Nat) (v : Word) : Chip :=
  let g := pageIdx a 0xa2
  match idxIn a (Reg.LAMP_PINFLT g 0) 4 4 with
  | some k => c.pinFaultWrite g k v.toNat
  | none =>
    match idxIn a (Reg.LAMP_MASK g 0) 128 4 with
    | some k => c.setNat a (v.toNat &&& c.maskBits g k)
    | none => st

/-- LAMP common page: a sweep, unless one or a pin test runs (R246, R248), the fault list. -/
def Chip.lampHook (c st : Chip) (a : Nat) (v : Word) : Chip :=
  if a = Reg.LAMP_SWEEP_CTRL then (if bitsOf v 0 0 = 1 ∧ c.enabled 0xa6 = true ∧ c.testing = false then c.sweepStart else c)
  else if a = Reg.LAMP_FAULT_IDX then
    let c := c.when (bitsOf v 31 31 == 1) fun c => c.onLamp fun l => { l with faults := [] }
    c.put .LAMP_FAULT_IDX_IDX (bitsOf v 5 0)
  else st

/-- GATE. -/
def Chip.gateHook (c st : Chip) (a : Nat) (v : Word) : Chip :=
  if a = Reg.GATE_TAMPER_EN then c.tamperEn v
  else if a = Reg.GATE_POL_ADDR then c.polAddr v
  else if a = Reg.GATE_POL_DATA then c.polWrite v
  else if a = Reg.GATE_POL_COMMIT then (if bitsOf v 0 0 = 1 then c.polCommit else c)
  else if a = Reg.GATE_ATT_CTRL then (if bitsOf v 0 0 = 1 then c.attStart else c)
  else st

/-- KEYS. -/
def Chip.keysHook (c st : Chip) (rq : Requester) (a : Nat) (v : Word) (x : Verdict) : Chip :=
  if a = Reg.KEYS_CTRL then c.keysCtrl rq v.toNat x.ok else st

/-- UPDATE_CHUNK_CTRL (R376). -/
def Chip.chunkCtrl (c : Chip) (v : Word) (x : Verdict) : Chip :=
  if c.get .UPDATE_DL_STAT_STATE = 2 then c.reject Reg.UPDATE_CHUNK_CTRL
  else match bitsOf v 31 30 with
    | 1 => c.chunkPut (bitsOf v 12 0) x.ok x.table x.vendor x.owner x.bad
    | 2 => c.discardAll
    | _ => c

/-- UPDATE. -/
def Chip.updateHook (c st : Chip) (a : Nat) (v : Word) (x : Verdict) : Chip :=
  if a = Reg.UPDATE_CHUNK_CTRL then c.chunkCtrl v x
  else if a = Reg.UPDATE_BITMAP_IDX then c.setNat a (min (v.toNat % 256) 135)
  else if a = Reg.UPDATE_ACT_CTRL then c.actCtrl (bitsOf v 31 28)
  else st

/-- The hook of a kind of page. -/
def Chip.blockHook (k : PClass) (c st : Chip) (rq : Requester) (a : Nat) (v : Word) (x : Verdict) : Chip :=
  match k with
  | .sys => c.sysHook st a v
  | .pwr => c.pwrHook st a v
  | .crier => c.crierHook st rq a v
  | .bell => c.bellHook st a v
  | .weather => c.weatherHook st a v
  | .serdes => c.serdesHook st a v
  | .chain => c.chainHook st a v
  | .ret => c.retHook st a
  | .ingest => c.ingestHook st a v
  | .halo => c.haloHook st a v
  | .csi => c.csiHook st a v
  | .loom => c.loomHook st a v
  | .layer => c.layerHook st a v
  | .scan => c.scanHook st a v
  | .granMgr => c.granHook st a v
  | .arb => c.arbHook st a v
  | .well => c.wellHook st a v
  | .twin => c.twinHook st a v
  | .elder => c.elderHook st a v
  | .corr => c.corrHook st a v
  | .lampGrp => c.lampGrpHook st a v
  | .lamp => c.lampHook st a v
  | .gate => c.gateHook st a v
  | .keys => c.keysHook st rq a v x
  | .update => c.updateHook st a v x
  | .eth => st
  | .granCh => st
  | .pcie => st
  | .nimbus => st
  | .reeve => st
  | .debug => st

/-- The hook of the page that holds a register. -/
def Chip.pageHook (c st : Chip) (rq : Requester) (a : Nat) (v : Word) (x : Verdict) : Chip :=
  match classOf (a / 0x1000) with
  | none => c
  | some (k, _) => Chip.blockHook k c st rq a v x

end Sys2Proof.Machine
end

