-- ==== Sys2Proof/Machine/OpsWrite.lean ====
section
/-!
DEFINITION. Register accesses: the checks on the way to a page (R5, R30, R364, R369), the access codes (R7), the page header
(R31–R37, R45), shadows and their refusals, the standby's mirrored pages (R336).
-/

namespace Sys2Proof.Machine

/-! ### The way to a page -/

/-- Why an access does not reach its register: 3 unaligned, 1 no such page, 2 the page is absent in the role, its domain is
off or FAILED (R394), or the sender is in Quarantine, 4 the policy in force denies it; 0 it does (R5, R30, R364, R369). -/
def Chip.fabricCause (c : Chip) (rq : Requester) (a : Nat) (write : Bool) : Nat :=
  let p := a / 0x1000
  if a % 4 ≠ 0 then 3
  else if 4096 ≤ p ∨ classOf p = none then 1
  else if pageInRole c p = false ∨ c.pageOn p = false ∨ (pageDomains p).any (bitAt c.pwr.failed) = true then 2
  else if c.isSender && c.pwr.state == .quarantine && !([0x00, 0xb0, 0x81].contains p) then 2
  else if c.pageAllowed rq p write then 0
  else 4

/-- The header registers that still answer during a soft reset (R34). -/
def srstAnswers (o : Nat) : Bool := [0x00, 0x04, 0x08, 0x10, 0x24].contains o

/-- A register read: its value, and the part after it. A fabric error reads 0. -/
def Chip.regRead (c : Chip) (rq : Requester) (a : Nat) : Chip × Word :=
  match c.fabricCause rq a false with
  | 0 =>
    if c.flag (.PG_STATUS_SRST_BUSY (a / 0x1000)) && !srstAnswers (a % 0x1000) then (c, 0)
    else (c.readEffect rq a, c.regWord a)
  | k => (c.fabErr rq a false k, 0)

/-! ### The page header -/

/-- Pages whose ENABLE a write of 0 does not clear: those the boot ROM enables, the arbiter from the host, a Granary channel
while the manager is enabled. -/
def Chip.keepsOn (c : Chip) (rq : Requester) (p : Nat) : Bool :=
  [0xb0, 0xb1, 0xc0, 0x01, 0x04].contains p || (p == 0x75 && rq.host) || (within p 0x70 0x73 && c.enabled 0x74)

/-- PG_CTRL (R33, R34): a soft reset, or the block's start and stop. A soft reset of the Crier's page releases what the
fabric hold holds. -/
def Chip.ctrlWrite (c : Chip) (rq : Requester) (p : Nat) (v : Word) : Chip :=
  if bitsOf v 1 1 = 1 then
    let c := if p = 2 ∧ c.flag .CRIER_FAB_HOLD_HOLD = true then c.fabRelease none else c
    c.softReset p
  else if bitsOf v 0 0 = 1 then c.pageEnable p
  else if !c.flag (.PG_CTRL_ENABLE p) then c
  else if c.keepsOn rq p then c.reject (Reg.PG_CTRL p)
  else c.pageDisable p

/-- PG_EVENT: ones clear their flags; the first fabric error's capture is re-armed with FAB_ERR (R30, R45). -/
def Chip.eventClear (c : Chip) (p : Nat) (v : Word) : Chip :=
  let c := c.wr (Reg.PG_EVENT p) (c.rd (Reg.PG_EVENT p) &&& ~~~v)
  if p = 2 ∧ bitsOf v 0 0 = 1 then c.put .CRIER_FAB_ERR_INFO_COUNT 0 else c

/-- The events a page assigns, as bits. -/
def pageEvents (p : Nat) : Word := match classOf p with | some (k, _) => evMask k | none => 0

/-- PG_EVENT_SET: each assigned bit written 1 is an occurrence of its event (R45). -/
def Chip.eventSet (c : Chip) (p : Nat) (v : Word) : Chip :=
  c.each ((List.range 32).filter fun b => bitAt (v &&& pageEvents p).toNat b) fun c b => c.raise ⟨p, b⟩

/-- A write of a header register. -/
def Chip.headerWrite (c : Chip) (rq : Requester) (a : Nat) (v : Word) : Chip :=
  let p := a / 0x1000
  let o := a % 0x1000
  if o = 0x08 then c.ctrlWrite rq p v
  else if o = 0x0c then (if bitsOf v 0 0 = 1 then c.commitWrite p else c)
  else if o = 0x14 then c.eventClear p v
  else if o = 0x18 then c.wr a (v &&& pageEvents p)
  else if o = 0x1c then c.eventSet p v
  else c

/-! ### Shadowed registers -/

/-- A shadow takes a value under the row's mask. -/
def Chip.shadowStore (c : Chip) (r : RegRow) (a : Nat) (v : Word) : Chip :=
  c.wrS a ((c.rdS a &&& ~~~r.wmask) ||| (v &&& r.wmask))

/-- A register takes a value under the row's mask. -/
def Chip.regStore (c : Chip) (r : RegRow) (a : Nat) (v : Word) : Chip :=
  c.wr a ((c.rd a &&& ~~~r.wmask) ||| (v &&& r.wmask))

/-- A shadow write that its register refuses with WR_REJ: lane taps out of range (R96), a brightness or fade target that is
no allowed value (R212, R241). -/
def shadowBad (a : Nat) (v : Word) : Bool :=
  let n := v.toNat
  if a = Reg.CORR_BRIGHT then decide (2 ^ 31 ≤ n) || n / 2 ^ 23 % 256 == 255
  else if a = Reg.LAMP_FADE_TARGET then decide (one32 < n)
  else within (a / 0x1000) 0x10 0x1b && decide (0x80 ≤ a % 0x1000) && (a % 0x1000 - 0x80) % 0x40 == 0 && !txOk v

/-- The part of a shadow value that a layer's page holds: a video layer has no format, base or stride of its own, a graphic layer
no ingest context (R167, LOOM_LYR_SRC_LO). -/
def layerShadow (a : Nat) (v : Word) : Word :=
  let i := a / 0x1000 - 0x51
  if !(within (a / 0x1000) 0x51 0x60) then v
  else if a = Reg.LOOM_LYR_SRC_LO i then if graphic i then v &&& 0xffffff00 else v &&& 0xf
  else if graphic i then v
  else if a = Reg.LOOM_LYR_CFG i then withBits v 18 16 0
  else if a = Reg.LOOM_LYR_SRC_HI i || a = Reg.LOOM_LYR_STRIDE i then 0
  else v

/-- Shadows without effect in the role or for the port: the tile's guard, bands and return timing come with the beacons, trims
of row ports read 0. -/
def Chip.shadowMute (c : Chip) (a : Nat) : Bool :=
  (c.isTile && (a == Reg.BELL_GUARD || a == Reg.BELL_BAND_CFG || a == Reg.RET_CFG)) ||
    (List.range 8).any fun k => a == Reg.LAMP_TRIM 3 (24 + k)

/-- A write to an RWS register (R7, R36, R96, R241, R296). -/
def Chip.shadowWrite (c : Chip) (r : RegRow) (a : Nat) (v : Word) : Chip :=
  if c.flag (.PG_COMMIT_PENDING (a / 0x1000)) then c.reject a
  else if c.shadowMute a then c
  else if shadowBad a v then c.reject a
  else
    let c := c.shadowStore r a (layerShadow a v)
    let c := if a / 0x1000 = 0x75 ∧ c.flag .ARB_CFG_COMPAT = true then c.regStore r a v else c
    if a = Reg.LAMP_FADE_TARGET ∨ a = Reg.LAMP_FADE_MS then c.onLamp fun l => { l with fadeWr := true } else c

/-! ### A write at its page -/

/-- CORR_FLAG_FIRST captures anew once CORR_FLAGS has been cleared to 0 (CORR_FLAG_FIRST.VALID). -/
def Chip.flagsRearm (c : Chip) : Chip := c.when (c.nat Reg.CORR_FLAGS == 0) fun c => c.put .CORR_FLAG_FIRST_VALID 0

/-- A write that has passed the checks on its way is performed at its page. -/
def Chip.pageWrite (c : Chip) (rq : Requester) (a : Nat) (v : Word) (x : Verdict) : Chip :=
  if a % 0x1000 < 0x40 then c.headerWrite rq a v
  else if c.roleZero a then c
  else
    match rowOf a with
    | none => c
    | some r =>
      match r.acc with
      | .ro => c
      | .w1c => (c.wr a (c.rd a &&& ~~~(v &&& r.wmask))).flagsRearm
      | .rws => c.shadowWrite r a v
      | .rwl =>
        if c.enabled (a / 0x1000) then c.reject a else c.pageHook (c.regStore r a v) rq a (v &&& r.wmask) x
      | .rw => c.pageHook (c.regStore r a v) rq a (v &&& r.wmask) x
      | .wo => c.pageHook c rq a v x

/-- Do `f` and tell whether it rejected a write of page `p`; an earlier rejection keeps its word. -/
def Chip.noting (c : Chip) (p : Nat) (f : Chip → Chip) : Chip × Bool :=
  let was := c.flag (.PG_STATUS_WR_REJ p)
  let w := c.get (.PG_STATUS_REJ_WORD p)
  let d := f ((c.put (.PG_STATUS_WR_REJ p) 0).put (.PG_STATUS_REJ_WORD p) 0)
  let rej := d.flag (.PG_STATUS_WR_REJ p)
  (if was then (d.put (.PG_STATUS_WR_REJ p) 1).put (.PG_STATUS_REJ_WORD p) w else d, rej)

/-- A checked write, with what the pair of R336 adds: the standby takes no host write of a mirrored page, and the active
sender sends on what it accepts. -/
def Chip.regPerform (c : Chip) (rq : Requester) (a : Nat) (v : Word) (x : Verdict) : Chip :=
  let p := a / 0x1000
  if c.flag (.PG_STATUS_SRST_BUSY p) && a % 0x1000 != 8 then c
  else if !mirroredReg a || !c.isSender then c.pageWrite rq a v x
  else if c.twinRole = 2 ∧ rq.host = true then c.reject a
  else if c.twinRole = 3 ∧ c.twin.up = true then
    let r := c.noting p fun c => c.pageWrite rq a v x
    if r.2 then r.1 else r.1.emit (.twin 2 [a, v.toNat] [])
  else c.pageWrite rq a v x

/-- A register write as it enters the fabric. -/
def Chip.regWrite (c : Chip) (rq : Requester) (a : Nat) (v : Word) (x : Verdict) : Chip :=
  match c.fabricCause rq a true with
  | 0 => c.regPerform rq a v x
  | k => c.fabErr rq a true k

/-- The verdicts of a write that brings nothing to judge. -/
def noVerdict : Verdict := ⟨false, false, false, false, []⟩

/-- A verdict left open: whether a blob, token, chunk or signature is right depends on bytes the model does not check, so it is a
free value (log entry 7). -/
def Chip.drawnVerdict (c : Chip) : Verdict :=
  let n := c.drawn
  ⟨bitAt n 0, bitAt n 1, bitAt n 2, bitAt n 3, (List.range 40).filter fun k => bitAt n (4 + k)⟩

/-- The registers whose writes are judged by such a verdict. -/
def judged (a : Nat) : Bool := a == Reg.KEYS_CTRL || a == Reg.UPDATE_CHUNK_CTRL

/-- A register write by address with verdicts drawn where it needs them. -/
def Chip.regWriteAny (c : Chip) (rq : Requester) (a : Nat) (v : Word) : Chip :=
  if judged a then (c.regWrite rq a v c.drawnVerdict).redraw else c.regWrite rq a v noVerdict

end Sys2Proof.Machine
end

