-- ==== Sys2Proof/Machine/OpsHost.lean ====
section
/-!
DEFINITION. The host's two paths: the PCIe endpoint with BAR4 and MSI-X (R321–R323), and the management channel on lane M with
its session (R324, R325, R359).
-/

namespace Sys2Proof.Machine

/-! ### PCIe -/

/-- The link comes up at the generation and width it negotiated, within PCIE_CFG: LINK_UP (R321, R323). -/
def Chip.pcieUp (c : Chip) (gen width : Nat) : Chip :=
  if !c.isSender || !c.enabled 0x81 || !c.enabled 0x1b || c.pcie.up then c
  else
    let g := min (max gen 1) (min (max (c.get .PCIE_CFG_GEN) 1) 4)
    let w := min width (2 ^ min (c.get .PCIE_CFG_WIDTH) 2)
    let w := if 4 ≤ w then 4 else if 2 ≤ w then 2 else 1
    let c := (c.onPcie fun p => { p with up := true }).setNat Reg.PCIE_LINK (2 ^ 31 + w * 256 + g)
    c.raise .PCIE_LINK_UP

/-- A Function Level Reset: configuration space, MSI-X table and pending bits only (R323). -/
def Chip.flr (c : Chip) : Chip := if c.pcie.up then c.pcieClear.raise .PCIE_FLR else c

/-- An AER error is counted and raised (R321, R327). -/
def Chip.aer (c : Chip) (corr : Bool) : Chip :=
  if !c.isSender || !c.enabled 0x81 then c
  else if corr then (c.count Reg.PCIE_CORR_CNT).raise .PCIE_CORR_ERR
  else (c.count Reg.PCIE_UNCORR_CNT).raise .PCIE_UNCORR_ERR

/-- The host sets MSI-X Enable, the function mask, and the masked vectors of the table; a message that masking held is sent
where its source is still pending, several in the order of R48 (R52, R321). -/
def Chip.msixSet (c : Chip) (en func : Bool) (masked : List Nat) (table : List (Nat × Nat × Nat)) : Chip :=
  if !c.isSender || !c.pcie.up then c
  else
    let held := c.fab.vecHeld
    let c := c.onPcie fun p => { p with
      msixEn := en, funcMask := func, vecMask := masked.filter (fun v => decide (v < 64)), table := table }
    let c := (c.put .PCIE_MSIX_ENABLE (if en then 1 else 0)).put .PCIE_MSIX_FUNC_MASK (if func then 1 else 0)
    let due := (held.filter fun v => (vectorBest c v).isSome).foldr (insertVector c) []
    c.each due sendVector

/-- A PCIe read of BAR4 (R322). -/
def Chip.bar4Read (c : Chip) (a n : Nat) (e : Ecc) : Chip :=
  if c.isSender && c.pcie.up && decide (1 ≤ n) && decide (n ≤ 4096) then c.gRead 10 a n e else c

/-- The runs of enabled bytes of a write, with their addresses. -/
def byteRuns : Nat → List (Option Byte) → List (Nat × List Byte)
  | _, [] => []
  | a, none :: l => byteRuns (a + 1) l
  | a, some b :: l =>
    match byteRuns (a + 1) l with
    | [] => [(a, [b])]
    | (a', bs) :: r => if a' = a + 1 then (a, b :: bs) :: r else (a, [b]) :: (a', bs) :: r

/-- A PCIe write of BAR4, its byte enables honoured (R322). -/
def Chip.bar4Write (c : Chip) (a : Nat) (data : List (Option Byte)) (e : Ecc) : Chip :=
  if c.isSender && c.pcie.up && decide (data.length ≤ 512) then
    c.each (byteRuns a data) fun c r => c.gWriteReq 10 r.1 r.2 e
  else c

/-! ### The management channel -/

/-- The management channel is on: WELL_MGMT_CFG.EN at a sender with an own address; without one it is silent (R324). -/
def Chip.mgmtOn (c : Chip) : Bool := c.isSender && c.flag .WELL_MGMT_CFG_EN && c.nat Reg.WELL_MGMT_IP != 0

/-- The session ends: slot 5 is emptied (R359). -/
def Chip.mgmtEnd (c : Chip) : Chip :=
  if c.mgmt.session then
    ((c.onMgmt fun m => { m with session := false, kept := [], held := [] }).zeroSlot 5).put .WELL_MGMT_STAT_SESSION 0
  else c

/-- Ten seconds have passed since the last message (R359). -/
def Chip.mgmtSilent (c : Chip) : Bool := decide (c.mgmt.heardAt + ms 10000 ≤ c.age)

/-- M_HELLO: an operator certificate of KIND 1 under the owner key of slot 3, within its dates (R352), and with `ok`, its signature
verified, is answered with M_ACCEPT, signed over the transcript; ignored while a session that is not silent is held (R359). It takes the
place of a handshake under way, and a write pending on slot 3 takes effect before it (R362). -/
def Chip.mHello (c : Chip) (peer : Nat) (data : List Byte) (ok : Bool) : Chip :=
  if !c.mgmtOn || (c.mgmt.session && !c.mgmtSilent) then c
  else
    let d := (c.onMgmt fun m => { m with hello := none }).pendingWrite 3
    let hash := Config.sha384 (beBytes 97 (d.slot 3).key)
    if !ok || !ownerCertOk data 1 hash (secOf c.bell.time) || (d.slot 3).state != 1 || c.fuses.lifecycle == 2 then c
    else
      let c := d
      let part := c.idCert ++ Config.public c.randomNow
      let c := c.mgmtEnd.onMgmt fun m => { m with hello := some peer, heardAt := c.age }
      (c.emit (.mgmt 0x31 [peer] (part ++ Config.sign (c.slot 0).key (data ++ part)))).redraw

/-- M_FINISH: with a valid signature over the transcript the session is held, keyed by slot 5; MGMT_UP. Requests go on from
its SEQ (R325, R359). -/
def Chip.mFinish (c : Chip) (seq : Nat) (ok : Bool) : Chip :=
  match c.mgmt.hello with
  | none => c
  | some peer =>
    if !c.mgmtOn || !ok then c
    else
      let c := c.setSlot 5 (loadedSlot 1 (Config.kdf 7 [c.draws, peer]) 0 none)
      let c := c.onMgmt fun m =>
        { m with session := true, hello := none, lastSeq := seq, kept := [], held := [], heardAt := c.age, notified := [] }
      ((c.put .WELL_MGMT_STAT_SESSION 1).setNat Reg.WELL_MGMT_PEER peer).raise .WELL_MGMT_UP

/-- A message with a failed tag is counted (R325). -/
def Chip.mgmtAuthFail (c : Chip) : Chip := (c.countF .WELL_MGMT_STAT_AUTH_FAIL).raise .WELL_MGMT_AUTH_FAIL

/-- M_CLOSE ends the session (R359). -/
def Chip.mClose (c : Chip) (tag : Bool) : Chip :=
  if !c.mgmtOn || !c.mgmt.session then c else if tag then c.mgmtEnd else c.mgmtAuthFail

/-- Ten seconds of silence end the session (R359). -/
def Chip.mgmtSilence (c : Chip) : Chip := if c.mgmt.session && c.mgmtSilent then c.mgmtEnd else c

/-- Reads of `n` register words from an address upward, as BAR0 does: the bytes, and whether the policy denied one. -/
def Chip.wordReads (c : Chip) (rq : Requester) (a : Nat) : Nat → Chip × List Byte × Bool
  | 0 => (c, [], false)
  | n + 1 =>
    let deny := c.fabricCause rq a false == 4
    let r := c.regRead rq a
    let t := r.1.wordReads rq (a + 4) n
    (t.1, leBytes 4 r.2.toNat ++ t.2.1, deny || t.2.2)

/-- Register writes of the words of a message, in ascending order (R325, R40). -/
def Chip.wordWrites (c : Chip) (rq : Requester) (a : Nat) : Nat → List Byte → Chip × Bool
  | 0, _ => (c, false)
  | n + 1, l =>
    let deny := c.fabricCause rq a true == 4
    let t := (c.regWriteAny rq a (BitVec.ofNat 32 (leNat (l.take 4)))).wordWrites rq (a + 4) n (l.drop 4)
    (t.1, deny || t.2)

/-- What a request answers: its status and payload, and the part after it (R325). A COUNT or payload that does not fit the
message is FORMAT. -/
def Chip.mgmtDo (c : Chip) (r : MgmtReq) : Chip × Nat × List Byte :=
  if r.kind = 1 then
    if r.b = 0 ∨ 256 < r.b then (c, 2, [])
    else
      let x := c.wordReads .mgmt r.a r.b
      (x.1, if x.2.2 then 1 else 0, x.2.1)
  else if r.kind = 2 then
    if r.bytes.length % 4 ≠ 0 ∨ r.bytes = [] ∨ 1020 < r.bytes.length then (c, 2, [])
    else
      let x := c.wordWrites .mgmt r.a (r.bytes.length / 4) r.bytes
      (x.1, if x.2 then 1 else 0, [])
  else if r.kind = 3 then
    if r.b = 0 ∨ 1024 < r.b then (c, 2, [])
    else
      let x := c.gPeek r.a r.b
      (c.gReadCount r.a r.b, if x.2 then 3 else 0, x.1)
  else if r.kind = 4 then
    if r.bytes = [] ∨ 1016 < r.bytes.length then (c, 2, []) else (c.gWriteReq 11 r.a r.bytes .ok, 0, [])
  else if r.kind = 5 then (c.bar2Doorbell r.a r.b, 0, [])
  else (c, 2, [])

/-- A request that cannot be answered yet: a memory read that waits for a fill or a frozen channel (R281, R287). -/
def Chip.mgmtWaits (c : Chip) (r : MgmtReq) : Bool := r.kind == 3 && c.granOn && c.gBlocked r.a r.b

/-- Requests are processed in SEQ order while the next one is held; each response is kept among the last 16 (R325). -/
def Chip.mgmtDrain (c : Chip) : Nat → Chip
  | 0 => c
  | n + 1 =>
    match c.mgmt.held.find? fun r => r.seq == (c.mgmt.lastSeq + 1) % 2 ^ 64 with
    | none => c
    | some r =>
      if c.mgmtWaits r then c
      else
        let x := c.mgmtDo r
        let c := x.1.onMgmt fun m => { m with
          lastSeq := r.seq, held := m.held.filter (fun q => q.seq != r.seq),
          kept := ((r.seq, x.2.1, x.2.2) :: m.kept).take 16 }
        (c.emit (.mgmt (0x80 + r.kind) [r.seq, x.2.1] x.2.2)).mgmtDrain n

/-- A request arrives (R325): a failed tag is counted; one of the last 16 answered is answered again from what was kept; the
next 16 are taken, held until the gap before them is filled. -/
def Chip.mgmtIn (c : Chip) (r : MgmtReq) (tag : Bool) : Chip :=
  if !c.mgmtOn || !c.mgmt.session then c
  else if !tag then c.mgmtAuthFail
  else
    let c := c.onMgmt fun m => { m with heardAt := c.age }
    match c.mgmt.kept.find? fun k => k.1 == r.seq with
    | some k => c.emit (.mgmt (0x80 + r.kind) [k.1, k.2.1] k.2.2)
    | none =>
      let d := (r.seq + 2 ^ 64 - c.mgmt.lastSeq) % 2 ^ 64
      if d = 0 ∨ 16 < d then c
      else
        let dup := c.mgmt.held.any fun q => q.seq == r.seq
        let c := if dup then c else c.onMgmt fun m => { m with held := m.held ++ [r] }
        c.mgmtDrain 16

/-- Lane M's link: WELL_MGMT_STAT.LINK; in Deep, signal on it wakes a sender that asks for it (R324, R405). -/
def Chip.laneM (c : Chip) (up : Bool) : Chip :=
  if c.pwr.state = .deep then (if up then c.wakeBy 2 else c)
  else if c.isSender && (!up || (c.enabled 0x1a && c.flag .WELL_MGMT_CFG_EN)) then c.put .WELL_MGMT_STAT_LINK (if up then 1 else 0)
  else c

end Sys2Proof.Machine
end

