-- ==== Sys2Proof/Machine/OpsFactory.lean ====
section
/-!
DEFINITION. Factory-default operation of a sender without a stored configuration (R17, R25).
-/

namespace Sys2Proof.Machine

/-- Factory-default operation runs. -/
def Chip.factoryOn (c : Chip) : Bool := c.isSender && c.flag .SYS_ROLE_FACTORY

/-- The pages that factory firmware enables, with their blocks' domains. -/
def factoryPages : List Nat :=
  [0x10, 0x11, 0x12, 0x13, 0x14, 0x15, 0x16, 0x17, 0x18, 0x19] ++ (List.range 16).map (0x20 + ·) ++
    [0x30, 0x40, 0x41, 0x70, 0x71, 0x72, 0x73, 0x74, 0x75, 0x42, 0x50, 0x51, 0x68]

/-- Firmware of the factory bundle takes over: Plain mode at 60 Hz as sender 0, every chain port discovering. -/
def Chip.factoryBegin (c : Chip) : Chip :=
  let c := ((c.put .SYS_ROLE_FACTORY 1).put .SYS_DOMAIN_SENDER_IDX 0).put .SYS_MODE_MODE 0
  let c := (c.put .BELL_FRAME_NUM_VALUE 60).put .BELL_FRAME_DEN_VALUE 1
  let c := (c.pageEnable 0x03).put .BELL_TICK_CTRL_TICK_EN 1
  let c := c.each factoryPages Chip.pageEnable
  (c.grpPower 1).domSync

/-- A shadow takes a value from firmware. -/
def Chip.shadowSet (c : Chip) (a n : Nat) : Chip := c.wrS a (BitVec.ofNat 32 n)

/-- The first stream that can be decoded is joined on pipe 0, context 0, shown by layer V0 (R25 step 4). -/
def Chip.factoryJoin (c : Chip) (s : Sdp) : Chip :=
  if !c.flag .SYS_DEFAULT_AUTO_STREAM || bitsOf (c.rdS (Reg.INGEST_CTX_CFG 0 0)) 31 31 == 1 then c
  else
    let cfg := 2 ^ 31 + s.port % 2 * 2 ^ 28 + s.samp % 4 * 2 ^ 19 + s.depth % 4 * 2 ^ 17 + (if s.rgb then 65536 else 0)
    let c := ((c.shadowSet (Reg.INGEST_CTX_CFG 0 0) cfg).shadowSet (Reg.INGEST_CTX_GROUP 0 0) s.group).shadowSet
      (Reg.INGEST_CTX_SRCIP 0 0) s.src
    let c := (c.shadowSet (Reg.INGEST_CTX_UDP 0 0) (s.pt % 128 * 65536 + s.udp % 65536)).shadowSet
      (Reg.INGEST_CTX_IN_SIZE 0 0) (s.h % 32768 * 65536 + s.w % 32768)
    let c := (c.shadowSet (Reg.INGEST_CTX_RATE 0 0) (s.num % 2 ^ 20 * 4096 + s.den % 4096)).shadowSet
      (Reg.INGEST_CTX_COLOUR 0 0) (s.matrix % 32 * 2 ^ 24 + s.inLut % 16 + 0x800)
    c

/-- FACTORY_DEFAULT_START (R25): a sender without stored configuration begins; an announced stream is joined. -/
def Chip.factoryStart (c : Chip) (sdp : Option Sdp) : Chip :=
  if !c.isSender || !c.store.factory || !c.pwr.booted then c
  else
    let c := if c.flag .SYS_ROLE_FACTORY then c else c.factoryBegin
    match sdp with
    | some s => c.factoryJoin s
    | none => c

/-! ### Laying the tiles out (R25 step 3) -/

/-- The tiles in chain order, P0's first and on a chain from position 1 (the greatest depth, R128) to the tail: port, WDN, width and
height. -/
def Chip.chainOrder (c : Chip) : List (Nat × Nat × Nat × Nat) :=
  (List.range 16).flatMap fun n =>
    let ds := (c.serving n).foldr (fun d l =>
      let r := l.span fun (e : Dev) => decide (d.depth < e.depth)
      r.1 ++ d :: r.2) []
    ds.map fun d => (n, d.wdn, descSize d.desc)

/-- Cut a list into rows of 16. -/
def rowsOf {α : Type} : Nat → List α → List (List α)
  | 0, _ => []
  | n + 1, l => if l.isEmpty then [] else l.take 16 :: rowsOf n (l.drop 16)

/-- The width of a row of tiles. -/
def rowWidth (l : List (Nat × Nat × Nat × Nat)) : Nat := l.foldl (fun s t => s + t.2.2.1) 0

/-- The height of a row: its tallest tile's. -/
def rowHeight (l : List (Nat × Nat × Nat × Nat)) : Nat := l.foldl (fun s t => max s t.2.2.2) 0

/-- Place a row's tiles from the left. -/
def placeRow (y : Nat) : Nat → List (Nat × Nat × Nat × Nat) → List (Nat × Nat × Nat × Nat × Nat × Nat)
  | _, [] => []
  | x, t :: r => (t.1, t.2.1, x, y, t.2.2.1, t.2.2.2) :: placeRow y (x + t.2.2.1) r

/-- Rows in turn from the left and from the right of the canvas, downward. -/
def placeRows (width : Nat) : Bool → Nat → List (List (Nat × Nat × Nat × Nat)) → List (Nat × Nat × Nat × Nat × Nat × Nat)
  | _, _, [] => []
  | back, y, l :: r =>
    let row := if back then placeRow y (width - rowWidth l) l.reverse else placeRow y 0 l
    row ++ placeRows width (!back) (y + rowHeight l) r

/-- The canvas limits of R21: side and area. -/
def canvasFits (w h : Nat) : Bool := decide (w ≤ 16384) && decide (h ≤ 16384) && decide (w * h ≤ 67108864)

/-- The rows that fit the canvas from the top. -/
def rowsFit (w : Nat) : Nat → List (List (Nat × Nat × Nat × Nat)) → List (List (Nat × Nat × Nat × Nat))
  | _, [] => []
  | y, l :: r => if canvasFits w (y + rowHeight l) then l :: rowsFit w (y + rowHeight l) r else []

/-- The layout: canvas size and entries as port, WDN, x, y, width, height. -/
def Chip.layout (c : Chip) : (Nat × Nat) × List (Nat × Nat × Nat × Nat × Nat × Nat) :=
  let rows := rowsOf 1024 c.chainOrder
  let w := min 16384 (rows.foldl (fun m l => max m (rowWidth l)) 0)
  let rows := rowsFit w 0 rows
  let es := (placeRows w false 0 rows).filter fun e => decide (e.2.2.1 + e.2.2.2.2.1 ≤ w)
  ((w, rows.foldl (fun s l => s + rowHeight l) 0), es)

/-- A map entry's bytes (R194). -/
def entryBytes (e : Nat × Nat × Nat × Nat × Nat × Nat) : List Byte :=
  leBytes 4 (2 ^ 31 + e.2.1 % 65536) ++ leBytes 4 (e.2.2.2.1 * 65536 + e.2.2.1) ++
    leBytes 4 (e.2.2.2.2.2 * 65536 + e.2.2.2.2.1) ++ leBytes 4 0

/-- The entries of the map in force, as the layout gives them. -/
def Chip.mapNow (c : Chip) : List (Nat × Nat × Nat × Nat × Nat) :=
  (c.mapOf c.planNow).map fun e => (e.wdn, e.x, e.y, e.w, e.h)

/-- A commit of one of the factory's pages waits. -/
def Chip.factoryBusy (c : Chip) : Bool := [0x68, 0x51, 0x42].any fun p => c.flag (.PG_COMMIT_PENDING p)

/-- The brightness a factory sender gives its tiles: the cap, as a factor (SYS_DEFAULT.BRIGHT_CAP). -/
def Chip.factoryBright (c : Chip) : Nat := enc32 (quot32 (min (c.get .SYS_DEFAULT_BRIGHT_CAP) 100) 100)

/-- A tile new in the layout is given the capped brightness. -/
def Chip.factoryTile (c : Chip) (n wdn : Nat) : Chip :=
  let c := c.sendFw n 0 wdn 2 Reg.CORR_BRIGHT 0 (leBytes 4 c.factoryBright)
  c.sendFw n 0 wdn 2 (Reg.PG_COMMIT 0xa1) 0 (leBytes 4 1)

/-- Firmware lays the tiles out anew when those in service have changed: the free map bank, the canvas, and the stream scaled to
fill it; committed together. -/
def Chip.factoryLayout (c : Chip) : Chip :=
  if !c.factoryOn || c.factoryBusy then c
  else
    let lay := c.layout
    let w := lay.1.1
    let h := lay.1.2
    let es := lay.2
    let want := es.map fun e => (e.2.1, e.2.2.1, e.2.2.2.1, e.2.2.2.2.1, e.2.2.2.2.2)
    let old := c.mapNow
    if want = old ∨ es = [] then c
    else
      let bank := 1 - c.get .SCAN_MAP_CFG_BANK
      let bytes := es.flatMap entryBytes
      let c := c.onScan fun s => { s with map := memPut s.map (bank * 0x40000) bytes }
      let c := (c.shadowSet Reg.SCAN_MAP_CFG (bank * 2 ^ 31 + es.length)).shadowSet Reg.SCAN_CANVAS (h * 65536 + w)
      let stride := (w * 4 + 255) / 256 * 256
      let c := (c.shadowSet (Reg.INGEST_CTX_OUT_SIZE 0 0) (h * 65536 + w)).shadowSet (Reg.INGEST_CTX_FS_STRIDE 0 0) stride
      let c := c.each (es.filter fun e => !(old.any fun o => o.1 == e.2.1)) fun c e => c.factoryTile e.1 e.2.1
      (c.commitWrite 0x42).commitWrite 0x68

/-- Once the frame store has its new size, layer V0 shows all of it. -/
def Chip.factoryLayer (c : Chip) : Chip :=
  let size := c.nat (Reg.INGEST_CTX_OUT_SIZE 0 0)
  if !c.factoryOn || c.factoryBusy || size == 0 || size == c.nat (Reg.LOOM_LYR_CROP_SIZE 0) then c
  else
    let c := (c.shadowSet (Reg.LOOM_LYR_CFG 0) (2 ^ 31)).shadowSet (Reg.LOOM_LYR_CROP_SIZE 0) size
    c.commitWrite 0x51

/-- What factory firmware does at a tick. -/
def Chip.factoryTick (c : Chip) : Chip := c.factoryLayout.factoryLayer

end Sys2Proof.Machine
end

