-- ==== Sys2Proof/Machine/OpsTick.lean ====
section
/-!
DEFINITION. A frame tick (R68, R73): time reaches it, what falls due at its instant applies, then every block does its work of
the tick. Work that waits for a switch of mode, commits or expired fences is held open until they have applied.
-/

namespace Sys2Proof.Machine

/-- A switch of mode falls due at the last executed tick (R23). -/
def Chip.modeDue (c : Chip) : Bool :=
  match c.bell.tick with
  | none => false
  | some n =>
    if c.isSender then c.get .SYS_MODE_STAT_STATE == 3 && c.switch.any (fun s => decide (s.n ≤ n))
    else c.tile.arm.any fun a => decide (a.n ≤ n)

/-- Every Loom domain in use is on (R404). -/
def Chip.loomDomainsOn (c : Chip) : Bool :=
  c.domOn 50 && (List.range 4).all fun g => !bitAt (c.get .LOOM_GRP_PWR_ON) g || c.domOn (51 + g)

/-- Scanout produces frames: in Run and not on the way out of it, with the Loom domains on, outside an orderly stop
(R404, R410). -/
def Chip.scanAllowed (c : Chip) : Bool :=
  c.pwr.state == .run && c.pwr.target == .run && c.loomDomainsOn && c.level != 2

/-- The work of tick `n` at a sender: contexts latch, Loom takes the frame, scanout begins it, budgets and schedules move on. -/
def Chip.senderTick (c : Chip) (n : Nat) : Chip :=
  let c := (c.latchAll c.bell.tickTime).loomTick
  let c := if c.scanAllowed then c.scanTick n else (c.onScan fun s => { s with run := false, slices := [] }).pixSettle
  let c := (c.portsTick.jobTick n).pushTick n
  ((((c.relTick n).twinTick).modeTick n).factoryTick).domSync

/-- A performed swap clears the locator pattern of an admitted tile (R26). -/
def Chip.swapping (c : Chip) (f : Chip → Chip) : Chip :=
  let d := f c
  if d.get .NIMBUS_STAT_FRONT = c.get .NIMBUS_STAT_FRONT then d else d.locatorOff

/-- A subscription's words, read by the chain requester (R305). -/
def Chip.telWords (c : Chip) (a : Nat) : Nat → Chip × List Byte
  | 0 => (c, [])
  | n + 1 =>
    let r := c.regRead .chain a
    let x := r.1.telWords (a + 4) n
    (x.1, leBytes 4 r.2.toNat ++ x.2)

/-- A TELEMETRY record of a subscription joins those that wait; the one before it that has not left yet is replaced and
counted (R130). -/
def Chip.telQueue (c : Chip) (id : Nat) (sample : List Byte) : Chip :=
  let old := fun (r : Rec) => match r with
    | .telemetry k _ => k == id
    | _ => false
  if c.get .RET_UNITS_COUNT = 0 then c
  else
    let c := if c.tile.recs.any old then
        ((c.count Reg.RET_TEL_DROP).raise .RET_TEL_DROP).onTile fun t => { t with telDrops := t.telDrops + 1 }
      else c
    c.onTile fun t => { t with recs := t.recs.filter (fun r => !old r) ++ [.telemetry id sample] }

/-- Every subscription whose period is over is sampled, and counts its period anew (R305). -/
def Chip.telSample (c : Chip) : Chip :=
  c.each (c.tile.subs.filter fun x => x.left == 0) fun c x =>
    let r := c.telWords x.addr x.words
    (r.1.onTile fun t => { t with subs := t.subs.map fun y => if y.id = x.id then { y with left := y.period } else y }).telQueue
      x.id r.2

/-- An executed frame tick counts in every subscription's period (R305); a sample that no command has taken yet is taken. -/
def Chip.telTick (c : Chip) : Chip :=
  c.telSample.onTile fun t => { t with subs := t.subs.map fun x => { x with left := x.left - 1 } }

/-- The work of tick `n` at a tile: the frame on the lamps ends and the next grid is anchored, the swap is carried out, the
subscriptions count. -/
def Chip.tileTick (c : Chip) (n : Nat) : Chip :=
  (((c.lampTick n).swapping fun c => c.nimbusTick n).elderAge).telTick

/-- The work of tick `n`. -/
def Chip.tickWork (c : Chip) (n : Nat) : Chip := if c.isSender then c.senderTick n else c.tileTick n

/-- What waits at the last executed tick is done: the mode, the commits, the work of the tick (R23, R38). -/
def Chip.tickClose (c : Chip) : Chip :=
  if c.bell.open_ then
    let c := c.modeSwitch.applyTick.tickWork c.lastIndex
    c.onBell fun b => { b with open_ := false }
  else c

/-- The step point (R67): 1 µs after the first frame tick executed since the step was wanted, or at once where no tick is
generated any more. -/
def Chip.stepApply (c : Chip) : Chip :=
  if c.bell.stepPending && (c.bell.tick != c.bell.stepArmedTick || !c.ticking) then
    let c := if c.ticking then c.elapseTo (c.bell.tickTime + us 1) else c
    (c.when c.isTile fun c => c.stepOver c.bell.time ((c.bell.time : Int) - c.bell.offset).toNat).doStep
  else c

/-- The swap of a tile's band (R76, R222). -/
def Chip.bandSwapping (c : Chip) : Chip := c.swapping Chip.bandSwap

/-- Decisions, deadlines, band swaps, the steps of a push and a step of time that no command has carried out yet, before the next tick. -/
def Chip.overdue (c : Chip) : Chip :=
  let c := c.stepApply
  let c := c.stateAtTick
  if c.isSender then ((c.each (List.range 16) Chip.atDeadline).each (List.range 16) fun c n => c.idleDue (n / 2) (n % 2)).modeDecide.modeSwitch.relDecide.relActivate.relRetry.trialExpiry.pushDecision.pushConfirmation.rejoinDue
  else c.bandSwapping.modeSwitch.tileActivate.tileMissed

/-- Tick `n` is executed now. -/
def Chip.tickNow (c : Chip) (n : Nat) : Chip :=
  let c := c.onBell fun b => { b with tick := some n, gridTick := some n, tickUp := c.age, tickTime := b.time }
  let c := c.fenceTick c.bell.tickTime
  if c.tickDue || c.modeDue then c.onBell fun b => { b with open_ := true } else c.tickWork n

/-- FRAME_TICK: domain time reaches the next tick of the grid (R68, R70). -/
def Chip.frameTick (c : Chip) : Chip :=
  if c.tickSource && !c.syncTicks then
    let c := c.tickClose.overdue
    let n := c.nextTick
    (c.elapseTo (c.tickTime n)).tickNow n
  else c

/-- A command that answers for something due at the tick: it and everything due with it apply (R38). -/
def Chip.applyDue (c : Chip) (due : Bool) : Chip := if due then c.tickClose else c

/-- MODE_SWITCH at tick N (R23): the mode, and the tick's work where nothing else waits for it. -/
def Chip.modeAtTick (c : Chip) : Chip :=
  if c.modeDue then
    let c := c.modeSwitch
    if c.tickDue then c else c.tickClose
  else c

/-- BAND_TICK k of the running tick period (R76): time reaches it; a tile of band k swaps. -/
def Chip.bandTick (c : Chip) (k : Nat) : Chip :=
  if c.banding && c.tickSource && c.bell.tick.isSome && decide (0 < k) && decide (k < c.bands) then
    (c.when (c.isTile && c.nim.band == k) Chip.bandSwapping).elapseTo (c.bandTime c.lastIndex k)
  else c

/-- A SYNC_IN edge (R80): captured, or in a tile that is not LOCKED a frame tick 100 ns later, unless it follows the last accepted
edge by less than 3.75 ms. -/
def Chip.syncEdge (c : Chip) (falling : Bool) (dt : Nat) : Chip :=
  let c := c.elapse dt
  let mine := c.domOn 8 && (c.get .BELL_SYNC_CFG_EDGE == 1) == falling
  let mode := c.get .BELL_SYNC_CFG_MODE
  if !mine then c
  else if mode = 1 ∨ (mode = 2 ∧ c.isSender = true) then
    (c.onBell fun b => { b with syncCap := b.time / 65536 * 65536 }).raise .BELL_SYNC_EDGE
  else if c.syncTicks then
    let early := match c.bell.syncLast with
      | some a => decide (c.age < a + us 3750)
      | none => false
    if early then c
    else
      let c := c.onBell fun b => { b with syncLast := some c.age }
      let c := (c.tickClose.overdue.elapse (ns 100))
      c.tickNow (c.lastIndex + 1)
  else c

end Sys2Proof.Machine
end

