-- ==== Sys2Proof/Machine/OpsBoot.lean ====
section
/-!
DEFINITION. The end of a start: a sender's image and configuration from its flash (R349 steps 5 to 7, R343, R378–R380), a tile's
image verified and its firmware started (R221, R388, R448).
-/

namespace Sys2Proof.Machine

/-! ### The sender -/

/-- The boot ROM has come through step 4 (R349). -/
def Chip.romDone (c : Chip) : Bool :=
  c.pwr.state == .waking && !c.pwr.booted && c.get .GATE_BOOT_STAGE == 4 && c.get .GATE_BOOT_RESULT == 0

/-- A slot is bootable: CONFIRMED, or TRIAL with an attempt left (R378). -/
def ImgSlot.bootable (s : ImgSlot) : Bool := s.state == 3 || (s.state == 2 && decide (s.attempts < 3))

/-- Calibration records that fit in a flash of a size in bytes (R377). -/
def calRoom (size : Nat) : Nat := (size - 0x08020000) / 131072

/-- The flash as it is found at the first start; calibration records beyond its calibration region are none (R377). -/
def Chip.readFlash (c : Chip) (f : Flash) : Chip :=
  if c.upd.read then c
  else { c with
    upd := { c.upd with slots := f.slots, cfgs := f.cfgs, read := true, chunks := f.chunks, dirOk := f.dirOk }
    store := { f.store with cals := f.store.cals.take (calRoom f.size) } }

/-- What the boot ROM's check of a sender image finds (R448), as GATE_BOOT.RESULT names it: 0 OK, 2 NO_IMAGE for MAGIC, ROLE or LENGTH,
3 SIGNATURE for AUTH_KID, SIGNATURE or BODY_HASH, whose outcome is `ok`, 4 ROLLBACK for SVN. -/
def Chip.senderVerdict (c : Chip) (b : List Byte) (ok : Bool) : Nat :=
  let l := beField b 4 4
  if beField b 0 4 ≠ 0x43494d31 ∨ beField b 0x0c 1 ≠ 1 ∨ l % 8 ≠ 0 ∨ l < 256 ∨ 2 ^ 24 < l ∨ b.length < l then 2
  else if !ok then 3
  else if beField b 8 4 < c.fuses.svn ∨ 64 < beField b 8 4 then 4
  else 0

/-- The slot the boot ROM starts from: A, else B, if it is bootable and its image verifies; a slot on trial loses an attempt as
it is tried (R349 step 5, R378). Without one GATE_BOOT.RESULT is what the last slot tried gave, NO_IMAGE where none is bootable (DESIGN
CHOICE, log entry 193). -/
def Chip.chooseSlot (c : Chip) (okA okB : Bool) : Chip × Except Nat Nat :=
  let tried := fun (c : Chip) (k : Nat) =>
    let s := c.img k
    if s.bootable && s.state == 2 then c.setImg k { s with attempts := s.attempts + 1 } else c
  let a := (c.img 0).bootable
  let b := (c.img 1).bootable
  let va := c.senderVerdict (c.img 0).bytes okA
  let vb := c.senderVerdict (c.img 1).bytes okB
  let c := tried c 0
  if a && va == 0 then (c, .ok 0)
  else
    let c := tried c 1
    if b && vb == 0 then (c, .ok 1) else (c, .error (if b then vb else if a then va else 2))

/-- Step 6: the configuration in force is chosen and measured; without a majority, or without a section the firmware
understands, the factory defaults run (R343, R379, R380). -/
def Chip.takeConfig (c : Chip) (formatOk : Bool) : Chip :=
  match cfgChoice c.upd.cfgs with
  | none =>
    let c := c.onStore fun s => { s with factory := true }
    if c.upd.cfgs.any (·.valid) then c.raise .UPDATE_CFG_NO_MAJORITY else c
  | some g =>
    let c := c.extend 2 (cfgBody g)
    if formatOk then c.onStore fun s => { s with factory := false }
    else ((c.onStore fun s => { s with factory := true }).raise .UPDATE_CFG_NO_MAJORITY).actCause 10

/-- SENDER_FIRMWARE_START: `okA` and `okB` are whether signature and body hash of the images of slots A and B verify, `formatOk` whether a section of the
configuration is in a format the image understands, `f` the flash as it stands at the first start. Without an image the start
ends in Quarantine. -/
def Chip.senderBoot (c : Chip) (okA okB formatOk : Bool) (f : Flash) : Chip :=
  if !c.isSender || !c.romDone then c
  else
    let c := c.readFlash f
    let r := c.chooseSlot okA okB
    match r.2 with
    | .error v => r.1.bootQuarantine 5 v 4
    | .ok k =>
      let c := (r.1.extend 1 (c.img k).bytes).put .GATE_BOOT_SLOT k
      let c := (((c.onUpd fun u => { u with runB := k == 1 }).takeConfig formatOk).updShow).pageEnable 0x75
      let deep := c.pwr.deepWake
      let c := c.bootDone
      if deep && c.flag (.PG_CTRL_ENABLE 0x74) then c.put (.PG_STATUS_ENABLED 0x74) 1 else c

/-! ### The tile -/

/-- IMAGE_VERIFY_DONE: a whole image's header, SVN, hash and signature have been checked (R448). A verified image is measured into
M1 and waits for its start, or is staged; a failure goes in the BOOT record. -/
def Chip.imageVerified (c : Chip) (sig : Bool) : Chip :=
  match c.tile.image with
  | none => c
  | some i =>
    if !c.isTile || !i.whole || i.state != 0 then c
    else
      let v := c.verdict i sig
      let hash := Config.sha384 (memBytes i.data 0 (i.length.getD 0))
      if i.staged then
        (c.onTile fun t => { t with image := some { i with state := v }, bootTold := false }).stagedNow (v == 2)
      else if v = 1 then
        (c.extend 1 (beBytes 48 hash)).onTile fun t => { t with firmware := some hash }
      else
        let c := (c.put .GATE_BOOT_STAGE 5).put .GATE_BOOT_RESULT (if v = 4 then 4 else if v = 3 then 3 else 2)
        c.onTile fun t => { t with image := some { i with state := v }, bootTold := false }

/-- GAIN of a colour from its nominal current and the reference current (before R232). -/
def Chip.firmwareGain (c : Chip) (k : Nat) : Nat :=
  let n := c.descField (0x12 + 2 * k) 2 * 1000
  min 255 (roundDiv (n * 256) (60 * max c.lamp.iref 1) - 1)

/-- What tile firmware sets for the lamps: gains from the descriptor, the used groups and the common page on (R232). -/
def Chip.firmwareLamps (c : Chip) (iref : Nat) : Chip :=
  let c := c.irefMeasure iref
  let v := c.firmwareGain 0 + 256 * c.firmwareGain 1 + 65536 * c.firmwareGain 2
  let c := if c.flag .LAMP_IREF_VALID then (c.setNat Reg.LAMP_GAIN v).wrS Reg.LAMP_GAIN (BitVec.ofNat 32 v) else c
  let c := c.each [0, 1, 2, 3] fun c g => if c.groupNeeded g then c.pageEnable (0xa2 + g) else c
  c.pageEnable 0xa6

/-- FIRMWARE_START at a tile (R221, R349 step 7): the correction memory filled, CORR and NIMBUS enabled, the lamps set up, the
BOOT record telling RUNNING. `iref` is I_IREF as measured, in 10 nA. -/
def Chip.tileBoot (c : Chip) (iref : Nat) : Chip :=
  if !c.isTile || c.tile.running || c.tile.firmware.isNone || !(c.pwr.state == .waking) || c.pwr.booted then c
  else
    let c := c.onTile fun t => { t with
      running := true, image := t.image.map fun i => { i with state := 1 }, bootTold := false }
    let c := ((c.corrInit).pageEnable 0xa1).pageEnable 0xa0
    ((c.firmwareLamps iref).updShow).bootDone

end Sys2Proof.Machine
end

