-- ==== Sys2Proof/WellFormed.lean ====
section
/-!
DEFINITION. Which commands are well formed: every number of a port, pin, page, lane, channel or unit is one that the part
has. A command that is not well formed names something that does not exist.
-/

namespace Sys2Proof

/-- An access of one or more doublewords from an address lies in the register space; only a PCIe memory request is longer than
one doubleword (R28, R41). -/
def accessFits (rq : Machine.Requester) (a n : Nat) : Bool := decide (1 ≤ n ∧ a + 4 * (n - 1) < 2 ^ 24) && (n == 1 || rq == Machine.Requester.pcie)

/-- Every operand of a command is one the part has. -/
def Instr.wf (i : Instr) : Bool :=
  match i with
  | .internalResetRelease b => decide (b.role < 4 ∧ b.geo < 8 ∧ b.tamper < 32)
  | .roleStrapResample b => decide (b.role < 4 ∧ b.geo < 8 ∧ b.tamper < 32)
  | .wdtKick _ _ => true
  | .softwareReset _ => true
  | .factoryDefaultStart _ => true
  | .modeSwitchArm _ => true
  | .modeSwitchCancel _ _ => true
  | .registerWrite rq a ws => accessFits rq a ws.length
  | .pageEnable _ p => decide (p < 4096)
  | .pageDisable _ p => decide (p < 4096)
  | .drainComplete p => decide (p < 4096)
  | .pageSoftReset _ p => decide (p < 4096)
  | .softResetComplete p => decide (p < 4096)
  | .pageCommit _ p => decide (p < 4096)
  | .commitApply p => decide (p < 4096)
  | .pgEventClear _ p _ => decide (p < 4096)
  | .pgEventSet _ p _ => decide (p < 4096)
  | .pgStatusRead _ p => decide (p < 4096)
  | .counterReadClear rq a be => accessFits rq a be.length
  | .counterLowRead rq a be => accessFits rq a be.length
  | .timeLatchRead _ => true
  | .syncCapRead _ => true
  | .fabHold _ _ => true
  | .fabRelease _ _ => true
  | .readTimeout _ a => decide (a < 2 ^ 24)
  | .srcCfgWrite _ n _ => decide (n < 256)
  | .sgiSet _ _ => true
  | .msixEoi _ _ => true
  | .msixUnmask _ _ masked _ => decide (masked.all (· < 64))
  | .interruptTake core _ _ => decide (core < 4)
  | .handlerEnd core => decide (core < 4)
  | .gpioEdgeAccept pin _ => decide (pin < 16)
  | .ptpSyncReceive port _ _ _ _ _ _ => decide (port < 2)
  | .ptpAnnounceReceive port _ _ _ _ => decide (port < 2)
  | .ptpTransparentForward port _ _ _ _ => decide (port < 2)
  | .sourceLost _ => true
  | .timeSet _ => true
  | .forceStep _ => true
  | .bandTick _ => true
  | .tickEnable _ _ => true
  | .beaconDue port _ => decide (port < 16)
  | .beaconReceive port _ h _ _ => decide (port < 16 ∧ h.sidx < 64)
  | .toutArm _ pin _ => decide (pin < 2)
  | .toutPulse pin k => decide (pin < 2 ∧ k < 256)
  | .syncInEdge _ _ => true
  | .pllLock q => decide (q < 12)
  | .pllUnlock q => decide (q < 12)
  | .signalDetect q h _ _ => decide (q < 12 ∧ h < 2)
  | .cdrLock q h _ => decide (q < 12 ∧ h < 2)
  | .blockLock q h _ _ => decide (q < 12 ∧ h < 2)
  | .markerLock q h _ _ _ => decide (q < 12 ∧ h < 2)
  | .linkUp q h => decide (q < 12 ∧ h < 2)
  | .linkDown q h _ => decide (q < 12 ∧ h < 2)
  | .alignmentMarker q k _ _ _ _ => decide (q < 12 ∧ k < 4)
  | .eyeMeasure q k _ _ _ => decide (q < 12 ∧ k < 4)
  | .rxeqWrite _ q k _ => decide (q < 12 ∧ k < 4)
  | .sscSet _ q _ => decide (q < 12)
  | .monitorSourceSet _ _ => true
  | .loopbackSet _ q _ => decide (q < 12)
  | .loopbackTimeout q => decide (q < 12)
  | .prbsGeneratorSet _ q k _ => decide (q < 12 ∧ k < 4)
  | .prbsCheckerEnable _ q k => decide (q < 12 ∧ k < 4)
  | .prbsCheckerLock q k _ => decide (q < 12 ∧ k < 4)
  | .cellSchedule port _ => decide (port < 16)
  | .pixelDeadline port => decide (port < 16)
  | .regRd port _ _ _ => decide (port < 16)
  | .regWr port _ _ _ => decide (port < 16)
  | .bulkWr port _ _ _ => decide (port < 16)
  | .bulkRd port _ _ _ => decide (port < 16)
  | .action port _ _ _ _ _ => decide (port < 16)
  | .telSub port _ _ _ => decide (port < 16)
  | .discover port _ _ _ => decide (port < 16)
  | .answerTransmit _ => true
  | .idReq port _ _ _ => decide (port < 16)
  | .keyx port _ _ _ _ _ _ _ _ _ => decide (port < 16)
  | .assign port _ _ _ => decide (port < 16)
  | .admitTile port _ _ _ => decide (port < 16)
  | .rekey port _ _ _ => decide (port < 16)
  | .unmute port _ _ _ => decide (port < 16)
  | .tailOff port _ _ _ => decide (port < 16)
  | .groups port _ _ _ => decide (port < 16)
  | .modeArm port _ _ _ => decide (port < 16)
  | .modeGo port _ _ _ => decide (port < 16)
  | .modeAbort port _ _ _ => decide (port < 16)
  | .bootCell port _ _ _ _ _ => decide (port < 16)
  | .imageVerifyDone _ => true
  | .firmwareStart _ => true
  | .pixelCell port _ _ _ _ => decide (port < 16)
  | .sliceTagResult => true
  | .rackDue port => decide (port < 16)
  | .rackReceive port _ _ _ => decide (port < 16)
  | .slotTransmit unit _ => decide (unit < 1280)
  | .farPresenceSlot port => decide (port < 16)
  | .slotReceive port _ _ _ _ => decide (port < 16)
  | .census _ => true
  | .censusReceive port _ _ => decide (port < 16)
  | .helloReceive port _ a _ _ _ => decide (port < 16 ∧ a.kind = 1)
  | .idPartReceive port _ a _ _ _ => decide (port < 16 ∧ a.kind = 2)
  | .idReqTimeout port _ => decide (port < 16)
  | .keyxRespReceive port _ a _ _ => decide (port < 16 ∧ a.kind = 3)
  | .refusedReceive port _ a _ => decide (port < 16 ∧ a.kind = 4)
  | .chainListWdn _ port _ => decide (port < 16)
  | .mutedReceive port _ _ => decide (port < 16)
  | .slotUnitForward port unit _ _ _ _ => decide (port < 16 ∧ unit < 1280)
  | .unitEmpty port _ => decide (port < 16)
  | .noResponder port => decide (port < 16)
  | .lonelyTimeout port => decide (port < 16)
  | .discoveryRound port => decide (port < 16)
  | .discoveryTimeout port => decide (port < 16)
  | .retSwitch port => decide (port < 16)
  | .rekeySend port => decide (port.all (· < 16))
  | .ethLinkUp n => decide (n < 2)
  | .ethLinkDown n => decide (n < 2)
  | .arpReceive n sender target _ _ => decide (n < 3 ∧ sender < 2 ^ 32 ∧ target < 2 ^ 32)
  | .igmpQuery n _ _ => decide (n < 2)
  | .videoPacket n _ _ _ _ _ _ _ _ _ => decide (n < 2)
  | .streamLost p k => decide (p < 4 ∧ k < 4)
  | .pathLost p k n => decide (p < 4 ∧ k < 4 ∧ n < 2)
  | .fillTimeout p k => decide (p < 4 ∧ k < 4)
  | .cramDataWrite _ p _ => decide (p < 4)
  | .cramDataRead _ p => decide (p < 4)
  | .grpPwrWrite _ _ => true
  | .grpReady g => decide (g < 4)
  | .lutDataWrite _ _ => true
  | .lutDataRead _ => true
  | .fenceInc _ _ => true
  | .fenceCancel _ layer => decide (layer < 16)
  | .flipGroupWrite _ _ => true
  | .scanLine _ _ => true
  | .mapDataWrite _ _ => true
  | .mapDataRead _ => true
  | .fillMinRead _ => true
  | .corrMemDataWrite _ _ => true
  | .corrMemDataRead _ => true
  | .rowSlot _ _ _ => true
  | .pulseSample p _ => decide (p < 480)
  | .irefMeasure cur _ => decide (cur < 65536)
  | .sweepStart _ => true
  | .faultListClear _ => true
  | .pinFaultClear _ g k _ => decide (g < 4 ∧ k < 4)
  | .descriptorChange _ _ => true
  | .trimMeasure _ => true
  | .csiFrameStart p vc _ _ _ _ => decide (p < 2 ∧ vc < 4)
  | .csiLongPacket p vc _ _ _ _ _ _ => decide (p < 2 ∧ vc < 4)
  | .csiFrameEnd p vc _ _ _ _ => decide (p < 2 ∧ vc < 4)
  | .csiFrameTimeout v => decide (v < 8)
  | .sensorApply _ v => decide (v < 8)
  | .accStart _ => true
  | .accAbort _ => true
  | .jobStart _ => true
  | .jobAbort _ => true
  | .pushStart _ _ => true
  | .pushAbort _ => true
  | .cardWriteDone _ _ => true
  | .granaryRead req a _ _ => decide (req < 16 ∧ a < 2 ^ 40)
  | .granaryWrite req a _ _ => decide (req < 16 ∧ a < 2 ^ 40)
  | .regionFill _ r => decide (r < 2 ^ 17)
  | .regionClear _ r => decide (r < 2 ^ 17)
  | .regionFillDone r => decide (r < 2 ^ 17)
  | .trainingDone n _ rd wr ms => decide (n < 4 ∧ rd < 65536 ∧ wr < 65536 ∧ ms < 65536)
  | .refresh n _ fills => decide (n < 4) && decide (fills.length ≤ 4)
  | .retrainingPause n => decide (n < 4)
  | .patrolScrub _ _ => true
  | .migrationDone _ _ => true
  | .rankRetire _ n rank => decide (n < 4 ∧ rank < 2)
  | .arbDecision _ n _ => decide (n < 4)
  | .starve n => decide (n < 16)
  | .compatSet _ _ => true
  | .ringEnable _ w => decide (w < 16384)
  | .ringFlush _ w => decide (w < 16384)
  | .ringResume _ w => decide (w < 16384)
  | .ringDisable _ w => decide (w < 16384)
  | .sqDoorbell w v => decide (w < 16384 ∧ v < 65536)
  | .cqDoorbell w v => decide (w < 16384 ∧ v < 65536)
  | .descriptorTake w => decide (w < 16384)
  | .barrier w => decide (w < 16384)
  | .tickFence w => decide (w < 16384)
  | .notifyHoldoff w _ => decide (w < 16384)
  | .bar4Read a n _ => decide (a < 2 ^ 40 ∧ 1 ≤ n ∧ n ≤ 4096)
  | .bar4Write a data _ => decide (a < 2 ^ 40 ∧ 1 ≤ data.length ∧ data.length ≤ 512)
  | .pcieLinkUp gen width => decide (gen ≤ 4 ∧ width ≤ 4)
  | .mgmtRegRd _ a _ _ => decide (a < 2 ^ 32)
  | .mgmtRegWr _ a _ _ => decide (a < 2 ^ 32)
  | .mgmtMemRd _ a _ _ => decide (a < 2 ^ 64)
  | .mgmtMemWr _ a _ _ => decide (a < 2 ^ 64)
  | .mgmtDoorbell _ off _ _ => decide (off < 2 ^ 32)
  | .mHello peer data _ => decide (peer < 2 ^ 32) && data.length == 481
  | .mFinish seq _ => decide (seq < 2 ^ 64)
  | .mClose _ => true
  | .twinPairHandshake _ _ _ _ _ => true
  | .stateCopyReceive _ _ => true
  | .copyAck _ flags near => decide (flags < 512 ∧ near < 65536)
  | .resync _ => true
  | .mandateRecord m => decide (m.all fun x => x.1 < 3 ∧ x.2.1 < 64)
  | .presenceRecord sidx _ _ _ => decide (sidx < 64)
  | .elderSilent k => decide (k < 3)
  | .rejoin _ => true
  | .rejoinAtTick ports _ => decide (ports < 65536)
  | .attStart _ => true
  | .keyErase _ => true
  | .writePublic _ len => decide (len < 256)
  | .keyImport _ len _ => decide (len < 256)
  | .generateAes _ => true
  | .generateEc _ => true
  | .openDebug _ len _ => decide (len < 256)
  | .pendingKeyWrite n => decide (n < 32)
  | .polDataWrite _ _ => true
  | .policyCommit _ => true
  | .tamperEnWrite _ _ => true
  | .tamperEvent (.pin k _) => decide (k < 2)
  | .tamperEvent _ => true
  | .claim port _ _ _ _ _ => decide (port < 16)
  | .releaseClaim port _ _ _ _ _ => decide (port < 16)
  | .actArm port _ _ _ => decide (port < 16)
  | .actGo port _ _ _ => decide (port < 16)
  | .actAbort port _ _ _ => decide (port < 16)
  | .antiRollbackBurn port _ _ _ => decide (port < 16)
  | .chunkPut _ index _ => decide (index < 8192)
  | .discardAll _ => true
  | .bundleVerifyDone _ => true
  | .stage _ => true
  | .releaseArm _ => true
  | .releaseGo _ => true
  | .releaseAbort _ => true
  | .confirm _ => true
  | .fallback _ => true
  | .stateRequestRun _ _ => true
  | .stateRequestDim _ _ => true
  | .stateRequestDeep _ _ => true
  | .sramInitDone d => decide (d < 80)
  | .deepWake src _ => decide (src < 5)
  | .tempReading raw _ => decide (-32768 ≤ raw ∧ raw ≤ 32767)
  | .weatherPeakRead _ => true
  | .senderFirmwareStart _ _ _ _ => true
  | .jobComputeDone _ _ => true
  | .mirrorWriteReceive _ => true
  | .splitGrant n _ => decide (n < 16)
  | .delayRespReceive port _ _ _ _ _ _ _ _ => decide (port < 2)
  | .csiLinkActive p stop => decide (p < 2 ∧ stop < 16)
  | .csiLinkStop p stop _ => decide (p < 2 ∧ stop < 16)
  | .csiSkewCalibration p _ => decide (p < 2)
  | .laneMLink _ => true
  | .pcieAerError _ => true
  | .ethHiBer n _ => decide (n < 2)
  | .powerOnReset => true
  | .powerFailDetect => true
  | .warmResetPin _ => true
  | .watchdogExpiry => true
  | .locatorTimeout => true
  | .modeAck => true
  | .modeDecision => true
  | .modeSwitch => true
  | .fabReleaseApply => true
  | .freeRunStart => true
  | .stepApply => true
  | .frameTick => true
  | .telemetrySample => true
  | .swapDecision => true
  | .swap => true
  | .rackMiss => true
  | .bootRecord => true
  | .muteReport => true
  | .keyEpochBoundary => true
  | .oldKeyExpiry => true
  | .completionRecord => true
  | .eventRecord => true
  | .telemetryRecord => true
  | .dropsRecord => true
  | .igmpJoin => true
  | .igmpRepeat => true
  | .fenceTimeout => true
  | .gridEnd => true
  | .sweepDue => true
  | .accZeroed => true
  | .accNoFrames => true
  | .pushDecision => true
  | .pushConfirm => true
  | .tickFenceDone => true
  | .flr => true
  | .pcieLinkDown => true
  | .mgmtSessionSilence => true
  | .copyLate => true
  | .keepAlive => true
  | .healthReport => true
  | .twinLinkQuiet => true
  | .peerSilent => true
  | .twinLinkDown => true
  | .twinLinkUp => true
  | .resyncDone => true
  | .turnTrigger => true
  | .turnComplete => true
  | .turnTimeout => true
  | .mandateTransfer => true
  | .yieldIdleEnd => true
  | .isolated => true
  | .attestationDone => true
  | .policyDrainDone => true
  | .stagingDone => true
  | .releaseDecision => true
  | .releaseActivation => true
  | .releaseRetry => true
  | .trialExpiry => true
  | .stateRequestAtTick => true
  | .domainStepDone => true
  | .domainRetry => true
  | .wakeTimer => true
  | .tileDeepEntry => true
  | .tfUpdate => true
  | .orderlyDim => true
  | .orderlyEnd => true
  | .thermalTrip _ _ => true
  | .tripRestart => true
  | .dwellElapsed => true

end Sys2Proof
end

