-- ==== Sys2Proof/Machine/State.lean ====
section
/-!
DEFINITION. The state of the block: the part, and the queue of the commands that wait. Its reset, and the reasons for which a
step can stop.
-/

namespace Sys2Proof.Machine

/-- The state: the part and the waiting commands, first in, first out. -/
structure State where
  chip : Chip
  pending : List Instr
  deriving DecidableEq, Repr

/-- No command faults: what goes wrong in the part is reported in its registers. The one fault is never raised by a
meaning; a model without it would have no fault type. Safe. -/
inductive Fault
  /-- Never raised. Safe. -/
  | none
  deriving DecidableEq, Repr

/-- Why a command is refused. -/
inductive Refusal
  /-- A command whose meaning is not written; raised by Dispatch alone. Safe: nothing is claimed of it. -/
  | notModelled (mnemonic : String)
  /-- An operand names a port, pin, page or unit that the part does not have (WellFormed); raised by State.run. Safe: no
  such command can be given to the part. -/
  | outOfRange
  deriving DecidableEq, Repr

/-- The block right after a power-on reset (R398), with nothing waiting. -/
def State.reset : State := ⟨chipReset, []⟩

end Sys2Proof.Machine
end

