-- ==== Sys2Proof/Machine/Run.lean ====
section
/-!
DEFINITION. What every command does around its own effect: an ill-formed one is refused; after the effect, commits that need
no tick apply, and interrupts that became due are sent.
-/

namespace Sys2Proof.Machine

/-- A command's effect on the part, with what follows every command: commits that wait for no tick apply (R35), and MSI-X
messages and IRQ_N follow the pending sources (R51, R52). -/
def Chip.after (c : Chip) (f : Chip → Chip) : Chip := (f c).applyUntimed.settle

/-- The state after a command with an effect on the part; what waits in the queue stays. -/
def State.effect (s : State) (f : Chip → Chip) : State := { s with chip := s.chip.after f }

/-- A command is carried out, if it is well formed. -/
def State.run (i : Instr) (f : Chip → Chip) (s : State) : Host.Outcome State Fault Refusal :=
  if i.wf then .next (s.effect f) else .refused .outOfRange

end Sys2Proof.Machine
end

