-- ==== Sys2Proof/Machine/Reset.lean ====
section
/-!
DEFINITION. Resets and starts (R25, R26, R398, R399, R419) and the switch of mode (R22–R24).
-/

namespace Sys2Proof.Machine

/-- A register read through the fabric: its value is answered to the requester. -/
def Chip.readOut (c : Chip) (rq : Requester) (a : Nat) : Chip :=
  let r := c.regRead rq a
  r.1.emit (.read a r.2)

/-- The MODE_ACK record at the head of the burst queue counts (R23 step 3). -/
def Chip.modeAckHead (c : Chip) : Chip :=
  match c.popRecord isModeAck with
  | some (d, n, wdn, .modeAck idx m) => d.modeAck n wdn idx m
  | _ => c

/-- INTERNAL_RESET_RELEASE: R399, R349, R1, R18: the straps are sampled 100 µs after the last of the conditions, and the boot ROM starts. -/
def execInternalResetRelease (b : BootIn) (s : State) : Host.Outcome State Fault Refusal :=
  s.run (.internalResetRelease b) fun c => (c.elapse (us 100)).release b

/-- ROLE_STRAP_RESAMPLE: R399: a part held in reset by a ROLE_SEL of 1x samples its straps again after 1 ms. -/
def execRoleStrapResample (b : BootIn) (s : State) : Host.Outcome State Fault Refusal :=
  s.run (.roleStrapResample b) fun c => (c.elapse (ms 1)).release b

/-- POWER_ON_RESET: R398: everything is reset, D0 included, and the part is Off. -/
def execPowerOnReset (s : State) : Host.Outcome State Fault Refusal :=
  s.run (.powerOnReset) fun c => c.powerOn

/-- POWER_FAIL_DETECT: R419: VDD_IO has stayed below 1.60 V for 1 µs, which acts as PORST_N going low. -/
def execPowerFailDetect (s : State) : Host.Outcome State Fault Refusal :=
  s.run (.powerFailDetect) fun c => c.powerOn

/-- WARM_RESET_PIN: R398, R405: RST_N has been low for `low` samples of 1 MHz: 4 reset every switched domain, or wake a part in Deep that
asks for it. -/
def execWarmResetPin (low : Nat) (s : State) : Host.Outcome State Fault Refusal :=
  s.run (.warmResetPin low) fun c => if low < 4 then c else c.resetPin

/-- WATCHDOG_EXPIRY: R398: MS without a kick have passed; a warm reset with cause WATCHDOG. -/
def execWatchdogExpiry (s : State) : Host.Outcome State Fault Refusal :=
  s.run (.watchdogExpiry) fun c => (c.elapseAge (c.pwr.wdtAt + ms (c.get .PWR_WDT_MS))).watchdog

/-- WDT_KICK: R398: a write of PWR_WDT with KICK. -/
def execWdtKick (rq : Requester) (v : Word) (s : State) : Host.Outcome State Fault Refusal :=
  s.run (.wdtKick rq v) fun c => c.regWrite rq Reg.PWR_WDT (v ||| 0x80000000) noVerdict

/-- SOFTWARE_RESET: R398: a write of PWR_RESET_CTRL with the key and RESET. -/
def execSoftwareReset (rq : Requester) (s : State) : Host.Outcome State Fault Refusal :=
  s.run (.softwareReset rq) fun c => c.regWrite rq Reg.PWR_RESET_CTRL 0xa5c30001 noVerdict

/-- FACTORY_DEFAULT_START: R25: a sender without stored configuration begins; `sdp` is the stream announced by then. -/
def execFactoryDefaultStart (sdp : Option Sdp) (s : State) : Host.Outcome State Fault Refusal :=
  s.run (.factoryDefaultStart sdp) fun c => c.factoryStart sdp

/-- LOCATOR_TIMEOUT: R26: 2 s without a beacon have passed at a tile. -/
def execLocatorTimeout (s : State) : Host.Outcome State Fault Refusal :=
  s.run (.locatorTimeout) fun c => (c.elapseAge (c.bell.noBeaconSince + ms 2000)).locatorOn

/-- MODE_SWITCH_ARM: R23, R24: a write of SYS_MODE_CTRL.ARM. -/
def execModeSwitchArm (rq : Requester) (s : State) : Host.Outcome State Fault Refusal :=
  s.run (.modeSwitchArm rq) fun c => c.regWrite rq Reg.SYS_MODE_CTRL 1 noVerdict

/-- MODE_SWITCH_CANCEL: R24: a write of SYS_MODE_CTRL.CANCEL, alone or with ARM. -/
def execModeSwitchCancel (rq : Requester) (arm : Bool) (s : State) : Host.Outcome State Fault Refusal :=
  s.run (.modeSwitchCancel rq arm) fun c => c.regWrite rq Reg.SYS_MODE_CTRL (if arm then 3 else 2) noVerdict

/-- MODE_ACK: R23 step 3: the MODE_ACK record at the head of the burst queue. -/
def execModeAck (s : State) : Host.Outcome State Fault Refusal :=
  s.run (.modeAck) fun c => c.modeAckHead

/-- MODE_DECISION: R23 step 4: at tick N − 4 the sender sends go cells, or gives the switch up. -/
def execModeDecision (s : State) : Host.Outcome State Fault Refusal :=
  s.run (.modeDecision) fun c => c.modeDecide

/-- MODE_SWITCH: R23 step 5: at tick N the new mode is taken. -/
def execModeSwitch (s : State) : Host.Outcome State Fault Refusal :=
  s.run (.modeSwitch) fun c => c.modeAtTick

end Sys2Proof.Machine
end

