-- ==== Sys2Proof/Machine/BellRows.lean ====
section
/-!
DEFINITION. The Bellringer: PTP and beacon measurements, the servo, frame and band ticks, TICK_OUT and SYNC_IN (R58–R81, R113).
-/

namespace Sys2Proof.Machine

/-- The time source asked for as it acts in the role: 0 automatic, 1 PTP, 2 beacons, 3 free-run (BELL_SRC_CFG.SRC). -/
def Chip.timeSource (c : Chip) : Nat :=
  let s := c.get .BELL_SRC_CFG_SRC
  if (c.isSender && s == 2) || (c.isTile && s == 1) then 0 else s

/-- BELL_ASYM of a link: E0 and E1 first, then the chain ports, in sub-nanoseconds. -/
def Chip.asym (c : Chip) (k : Nat) : Int := signOf 32 (c.nat (Reg.BELL_ASYM k)) * 256

/-- A port takes part in master selection (BELL_SRC_CFG.PTP_PORT). -/
def Chip.ptpPortOk (c : Chip) (port : Nat) : Bool :=
  match c.get .BELL_SRC_CFG_PTP_PORT with
  | 1 => port == 0
  | 2 => port == 1
  | _ => true

/-- A sender hears PTP on an Ethernet port. -/
def Chip.ptpOn (c : Chip) (port : Nat) : Bool := c.isSender && c.domOn 8 && c.ethUp port

/-- A PTP message lies within the subset of R60: its domain and its interval. -/
def Chip.ptpFits (c : Chip) (domain : Nat) (interval lo : Int) : Bool :=
  domain == min (c.get .BELL_PTP_CFG_DOMAIN) 127 && decide (lo ≤ interval) && decide (interval ≤ 1)

/-- A message outside the subset is discarded and counted (R60). -/
def Chip.ptpDiscard (c : Chip) (port : Nat) : Chip := c.count (Reg.ETH_PTP_DISC port)

/-- One list of numbers comes before another in lexicographic order. -/
def rankBefore : List Nat → List Nat → Bool
  | [], [] => false
  | [], _ :: _ => true
  | _ :: _, [] => false
  | a :: l, b :: r => decide (a < b) || (a == b && rankBefore l r)

/-- The best of the announced masters, with its port. -/
def Chip.bestMaster (c : Chip) : Option (Nat × List Nat) :=
  let cand := [0, 1].filterMap fun p => if c.ptpPortOk p then (listAt c.bell.ptp p none).map fun a => (p, a.rank) else none
  cand.foldl (fun b x => match b with
    | none => some x
    | some y => if rankBefore x.2 y.2 then some x else b) none

/-- Peer-to-peer operation: each port's link has its own delay, and the source link's is shown (R60, BELL_PATH_DLY). -/
def Chip.showPath (c : Chip) : Chip :=
  match c.bell.parent with
  | some (p, _) => if c.flag .BELL_PTP_CFG_P2P then c.setNat Reg.BELL_PATH_DLY (min (listAt c.bell.linkDly p 0) 0xffffffff) else c
  | none => c

/-- The parent follows the best announced master; its port or grandmaster changing is GM_CHANGE (R60). -/
def Chip.chooseParent (c : Chip) : Chip :=
  let new := c.bestMaster.map fun x => (x.1, (x.2.drop 5).take 1)
  if new = c.bell.parent then c else ((c.onBell fun b => { b with parent := new, syncAt := c.age }).showPath).raise .BELL_GM_CHANGE

/-- 2 to the power of a PTP interval's logarithm, in seconds, as a time. -/
def logTime (k : Int) : Nat := if k < 0 then ms 1000 / 2 ^ k.natAbs else ms 1000 * 2 ^ k.natAbs

/-- ANN_TIMEOUT as it acts: 0 and 1 act as 2, 11 to 15 as 10 (BELL_PTP_CFG). -/
def Chip.annTimeout (c : Chip) : Nat := min 10 (max 2 (c.get .BELL_PTP_CFG_ANN_TIMEOUT))

/-- The age at which the announce receipt timeout of a port expires (R60, R66). -/
def Chip.annExpiry (c : Chip) (port : Nat) : Option Nat :=
  (listAt c.bell.ptp port none).map fun a => listAt c.bell.annAt port 0 + c.annTimeout * logTime a.logInterval

/-- A delay request leaves (R60): end-to-end a Delay_Req to the master of the port, multicast or by DREQ_UNICAST to its address;
peer-to-peer a Pdelay_Req on the link. None leaves without an own address (ETH_IP 0). When requests are sent is not stated: one
follows each Sync taken, and in peer-to-peer operation on each port that is up. DESIGN CHOICE, log entry 158. -/
def Chip.askDelay (c : Chip) (port : Nat) : Chip :=
  if c.ethUp port && c.nat (Reg.ETH_IP port) != 0 then
    let p2p := c.flag .BELL_PTP_CFG_P2P
    (c.onBell fun b => { b with asked := listPut b.asked port true }).ethSend port (if p2p then 7 else 6)
      (if p2p then [0xe000006b] else if c.flag .BELL_PTP_CFG_DREQ_UNICAST then [0] else [0xe0000181])
  else c

/-- The delay requests that follow a Sync taken on a port. -/
def Chip.askDelays (c : Chip) (port : Nat) : Chip :=
  if c.flag .BELL_PTP_CFG_P2P then c.each [0, 1] Chip.askDelay else c.askDelay port

/-- An Announce: a port keeps what its master says, and takes a better one (R60). -/
def Chip.announceIn (c : Chip) (port : Nat) (a : Announce) (domain : Nat) : Chip :=
  if !c.ptpOn port then c
  else
    let c := c.ethGood port
    if !c.ptpFits domain a.logInterval (-3) then c.ptpDiscard port
    else
      let keep := match listAt c.bell.ptp port none with
        | none => true
        | some o => (o.rank.drop 5).take 1 == (a.rank.drop 5).take 1 || rankBefore a.rank o.rank
      if keep then
        (c.onBell fun b => { b with ptp := listPut b.ptp port (some a), annAt := listPut b.annAt port c.age }).chooseParent
      else c

/-- A Sync of the parent, with the origin and correction that it or its Follow_Up carries, is a measurement, and a delay request
follows it (R60, R65, R66). -/
def Chip.syncIn (c : Chip) (port origin : Nat) (corr interval : Int) (domain : Nat) : Chip :=
  if !c.ptpOn port then c
  else
    let c := c.ethGood port
    if !c.ptpFits domain interval (-7) then c.ptpDiscard port
    else if c.timeSource = 3 ∨ c.enabled 3 = false ∨ (c.bell.parent.map (·.1)) ≠ some port then c
    else
      let c := c.onBell fun b => { b with syncAt := c.age, syncLog := interval }
      (c.measure ((c.bell.time : Int) - (origin + corr + c.nat Reg.BELL_PATH_DLY * 256 + c.asym port))).askDelays port

/-- A Delay_Resp or a Pdelay response: the mean path delay from the four timestamps of the exchange, with its correction. One of
another domain or of the other delay mechanism is outside the subset; one that answers no request of the part, or end-to-end
does not come from the parent's port, has no effect (R60). -/
def Chip.delayIn (c : Chip) (port domain : Nat) (p2p : Bool) (t1 t2 t3 t4 : Nat) (corr : Int) : Chip :=
  if !c.ptpOn port then c
  else
    let c := c.ethGood port
    if domain != min (c.get .BELL_PTP_CFG_DOMAIN) 127 || p2p != c.flag .BELL_PTP_CFG_P2P then c.ptpDiscard port
    else if !listAt c.bell.asked port false || (!p2p && c.bell.parent.map (·.1) != some port) then c
    else
      let d := (((t2 : Int) - t1) + ((t4 : Int) - t3) - corr) / 2
      let n := min (max d 0 / 256).toNat 0xffffffff
      let c := c.onBell fun b => { b with asked := listPut b.asked port false, linkDly := listPut b.linkDly port n }
      if c.bell.parent.map (·.1) = some port then c.setNat Reg.BELL_PATH_DLY n else c

/-- A PTP message passes between the Ethernet ports (R61): kinds 0 Sync, 1 Delay_Req, 2 Pdelay_Req and 3 Pdelay_Resp gain the
residence time, and Sync in peer-to-peer operation the mean path delay measured on the link it came by. -/
def Chip.transparent (c : Chip) (port kind residence : Nat) (corr : Int) : Chip :=
  if c.isSender && c.flag .BELL_PTP_CFG_TC_EN && c.domOn 8 && c.ethUp port && c.ethUp (1 - port) then
    let link := if kind = 0 ∧ c.flag .BELL_PTP_CFG_P2P = true then listAt c.bell.linkDly port 0 * 256 else 0
    let extra := (if kind < 4 then residence else 0) + link
    ((c.when (decide (1 ≤ kind) && decide (kind < 4)) fun c => c.ethGood port).count (Reg.ETH_TC_FWD port)).ethSend (1 - port) 4 [kind, wrapTo 64 (corr + extra)]
  else c

/-- The announce receipt timeout of the followed port expires: every port whose own has expired has no master any more (R60). -/
def Chip.annExpire (c : Chip) : Chip :=
  let c := c.each [0, 1] fun c p =>
    if (c.annExpiry p).any fun t => decide (t ≤ c.age) then c.onBell fun b => { b with ptp := listPut b.ptp p none } else c
  c.chooseParent

/-- The source is lost (R66), and time passes until it is: at a tile 500 µs without a valid beacon; at a sender, by `announce`, the
announce receipt timeout of the followed port, or three Sync intervals without a Sync. -/
def Chip.sourceLost (c : Chip) (announce : Bool) : Chip :=
  if c.isTile then (c.elapseAge (c.bell.noBeaconSince + us 500)).sourceGone
  else
    match c.bell.parent with
    | none => c
    | some (p, _) =>
      if announce then ((c.elapseAge ((c.annExpiry p).getD 0)).sourceGone).annExpire
      else (c.elapseAge (c.bell.syncAt + 3 * logTime c.bell.syncLog)).sourceGone

/-- A sender without a valid Sync 3 s after ENABLE starts its own time (R66). -/
def Chip.freeRun (c : Chip) : Chip :=
  if c.isSender && c.enabled 3 && c.servo == 0 && (c.timeSource == 0 || c.timeSource == 3) then
    let c := c.elapseAge (c.bell.enAt + ms 3000)
    (c.jumpTo c.setValue).setServo 4
  else c

/-- Return timing from a beacon (R113, R127): at once where the tile holds none, else from the tick SWITCH names. -/
def Chip.beaconRet (c : Chip) (b : Beacon) : Chip :=
  c.onTile fun t => { t with ret := some (match t.ret with
    | none => ⟨b.retStart, b.ansSlots, b.switch, none, false⟩
    | some r =>
      if r.start = b.retStart ∧ r.slots = b.ansSlots then r
      else { r with next := some (b.retStart, b.ansSlots, b.switch) }) }

/-- At the tick SWITCH named a tile uses the announced return timing (R127). -/
def Chip.tileRetSwitch (c : Chip) : Chip :=
  match c.tile.ret.bind (·.next) with
  | none => c
  | some x =>
    if (c.lastIndex + 65536 - x.2.2 % 65536) % 65536 < 32768 then
      c.onTile fun t => { t with ret := some ⟨x.1, x.2.1, x.2.2, none, false⟩ }
    else c

/-- RET_SWITCH at a tile or on a sender's port. -/
def Chip.retTimes (c : Chip) (n : Nat) : Chip := if c.isTile then c.tileRetSwitch else c.retSwitch n

/-- The offset a beacon gives (R64). -/
def Chip.beaconOffset (c : Chip) (port : Nat) (b : Beacon) : Int :=
  (c.bell.time : Int) - (b.origin + b.corr + c.nat (Reg.CHAIN_LINK_DLY port) * 256 + c.asym (2 + port))

/-- What a valid beacon on the upstream port tells the tile (R64, R72, R106, R113, R128): it is heard, carries census and return
timing, its tick parameters are adopted by R72, and its time is a measurement. -/
def Chip.beaconTaken (c : Chip) (port : Nat) (h : Hdr) (b : Beacon) : Chip :=
  let c := c.onBell fun x => { x with noBeaconSince := c.age }
  let c := ((c.put (.CHAIN_STATE_CENSUS port) b.census).showPos).beaconRet b
  let c := (c.onTile fun t => { t with beaconMode := b.mode, sidx := h.sidx, sport := h.port, locked := true }).offerParams b.params
  let c := if c.enabled 3 && c.timeSource != 3 then c.measure (c.beaconOffset port b) else c
  c.upstreamBack

/-- A beacon goes on downstream with the residence added to CORRECTION (R63, R108). Its trailer's CRC is changed by what CORRECTION
changes in it, so that a CRC that was wrong stays wrong (DEDUCED, log entry 169). -/
def Chip.passBeacon (c : Chip) (port : Nat) (h : Hdr) (b : Beacon) (rx : Rx) : Chip :=
  let x := Cell.beacon { b with corr := b.corr + c.nat (Reg.CHAIN_HOP_DLY port) * 256 }
  c.passDown port x h { rx with crc := rx.crc ^^^ (Cell.beacon b).crc h rx.tag ^^^ x.crc h rx.tag }

/-- A beacon at a tile (R63, R64, R108, R113): it goes on with the residence added, whatever its checks say; the tile acts on
it if it is sound and, in a session, its tag verifies. One that arrives on the other port is heard by an Elder, or ends a
tile's hold after a turn (R332, R339). -/
def Chip.tileBeacon (c : Chip) (port : Nat) (h : Hdr) (b : Beacon) (rx : Rx) : Chip :=
  let sound := rx.holds (.beacon b) h
  let c := c.when sound fun c => c.chooseUp port true
  let c := c.passBeacon port h b rx
  let r := c.receive port (.beacon b) h rx
  let c := r.1
  if !sound then c
  else if c.tile.session.isSome && !(b.tagged && c.tagOk (.beacon b) h rx) then (if r.2 then c.tagErr else c)
  else
    let c := (c.beaconHeard h.sidx).holdUp port
    if c.tile.up = some port then c.beaconTaken port h b else c

/-- BEACON_RECEIVE in either role: a sender that is far on a ring's port observes it (R330). -/
def Chip.beaconIn (c : Chip) (port : Nat) (h : Hdr) (b : Beacon) (rx : Rx) : Chip :=
  if c.isTile then (if port < 2 ∧ c.linkUpAt port = true then c.tileBeacon port h b rx else c)
  else if c.enabled (0x20 + port) then
    let r := c.checkCell port (.beacon b) h rx
    if r.2 then r.1.farBeacon port else r.1
  else c

/-- PTP_SYNC_RECEIVE: R60, R65, R66: a Sync, with its Follow_Up where it is two-step, `dt` after the command before. -/
def execPtpSyncReceive (port dt : Nat) (f : EthFrame) (origin : Nat) (corr interval : Int) (domain : Nat) (s : State) : Host.Outcome State Fault Refusal :=
  s.run (.ptpSyncReceive port dt f origin corr interval domain) fun c => (c.elapse dt).ethIn port f fun c => c.syncIn port origin corr interval domain

/-- PTP_ANNOUNCE_RECEIVE: R60: an Announce enters master selection. -/
def execPtpAnnounceReceive (port dt : Nat) (f : EthFrame) (a : Announce) (domain : Nat) (s : State) : Host.Outcome State Fault Refusal :=
  s.run (.ptpAnnounceReceive port dt f a domain) fun c => (c.elapse dt).ethIn port f fun c => c.announceIn port a domain

/-- PTP_TRANSPARENT_FORWARD: R61: a PTP message passes to the other Ethernet port. -/
def execPtpTransparentForward (port : Nat) (f : EthFrame) (kind residence : Nat) (corr : Int) (s : State) : Host.Outcome State Fault Refusal :=
  s.run (.ptpTransparentForward port f kind residence corr) fun c => c.when (f.fcs && c.ethFits port f) fun c => c.transparent port kind residence corr

/-- SOURCE_LOST: R66: the time source is lost. -/
def execSourceLost (announce : Bool) (s : State) : Host.Outcome State Fault Refusal :=
  s.run (.sourceLost announce) fun c => c.sourceLost announce

/-- FREE_RUN_START: R66: 3 s after ENABLE without a Sync, time starts from BELL_SET. -/
def execFreeRunStart (s : State) : Host.Outcome State Fault Refusal :=
  s.run (.freeRunStart) fun c => c.freeRun

/-- TIME_SET: R66: a write of STEP_CTRL.SET. -/
def execTimeSet (rq : Requester) (s : State) : Host.Outcome State Fault Refusal :=
  s.run (.timeSet rq) fun c => c.regWrite rq Reg.BELL_STEP_CTRL 2 noVerdict

/-- FORCE_STEP: R66, R67: a write of STEP_CTRL.FORCE_STEP. -/
def execForceStep (rq : Requester) (s : State) : Host.Outcome State Fault Refusal :=
  s.run (.forceStep rq) fun c => c.regWrite rq Reg.BELL_STEP_CTRL 1 noVerdict

/-- STEP_APPLY: R67: the step point is reached. -/
def execStepApply (s : State) : Host.Outcome State Fault Refusal :=
  s.run (.stepApply) fun c => c.stepApply

/-- FRAME_TICK: R68, R70, R73: domain time reaches the next tick. -/
def execFrameTick (s : State) : Host.Outcome State Fault Refusal :=
  s.run (.frameTick) fun c => c.frameTick

/-- BAND_TICK: R76: band tick k of the tick period. -/
def execBandTick (k : Nat) (s : State) : Host.Outcome State Fault Refusal :=
  s.run (.bandTick k) fun c => c.bandTick k

/-- TICK_ENABLE: R70, R71: a write of BELL_TICK_CTRL.TICK_EN. -/
def execTickEnable (rq : Requester) (en : Bool) (s : State) : Host.Outcome State Fault Refusal :=
  s.run (.tickEnable rq en) fun c => c.regWrite rq Reg.BELL_TICK_CTRL (if en then 1 else 0) noVerdict

/-- BEACON_DUE: R62, R112: a beacon falls due on a chain port, while BELL is enabled. -/
def execBeaconDue (port dt : Nat) (s : State) : Host.Outcome State Fault Refusal :=
  s.run (.beaconDue port dt) fun c => (let c := c.elapse dt; if c.isSender && c.enabled 3 then c.beaconDue port else c)

/-- BEACON_RECEIVE: R63, R64, R66, R72, R113: a beacon arrives. -/
def execBeaconReceive (port dt : Nat) (h : Hdr) (b : Beacon) (rx : Rx) (s : State) : Host.Outcome State Fault Refusal :=
  s.run (.beaconReceive port dt h b rx) fun c => (c.elapse dt).beaconIn port h b rx

/-- TOUT_ARM: R78, R79: a write of BELL_TOUTn_CFG. -/
def execToutArm (rq : Requester) (pin : Nat) (v : Word) (s : State) : Host.Outcome State Fault Refusal :=
  s.run (.toutArm rq pin v) fun c => c.regWrite rq (Reg.BELL_TOUT_CFG pin) v noVerdict

/-- TOUT_PULSE: R78, R79: a TICK_OUT pin gives its pulse; `k` is the band tick an echo follows, 0 for the frame tick. -/
def execToutPulse (pin k : Nat) (s : State) : Host.Outcome State Fault Refusal :=
  s.run (.toutPulse pin k) fun c => c.givePulse pin k

/-- SYNC_IN_EDGE: R80: a SYNC_IN edge. -/
def execSyncInEdge (falling : Bool) (dt : Nat) (s : State) : Host.Outcome State Fault Refusal :=
  s.run (.syncInEdge falling dt) fun c => c.syncEdge falling dt

/-- DELAY_RESP_RECEIVE: R60: a Delay_Resp or Pdelay response gives the mean path delay. -/
def execDelayRespReceive (port : Nat) (f : EthFrame) (domain : Nat) (p2p : Bool) (t1 t2 t3 t4 : Nat) (corr : Int) (s : State) : Host.Outcome State Fault Refusal :=
  s.run (.delayRespReceive port f domain p2p t1 t2 t3 t4 corr) fun c => c.ethIn port f fun c => c.delayIn port domain p2p t1 t2 t3 t4 corr

/-- RET_SWITCH: R127: sixteen ticks after the announcement the new return timing is in force. -/
def execRetSwitch (port : Nat) (s : State) : Host.Outcome State Fault Refusal :=
  s.run (.retSwitch port) fun c => c.retTimes port

end Sys2Proof.Machine
end

