-- ==== Sys2Proof/Machine/CavasRows.lean ====
section
/-!
DEFINITION. Cavas: bundles, staging and the release of images (R373–R387).
-/

namespace Sys2Proof.Machine

/-- A write of UPDATE_ACT_CTRL (R381–R387). -/
def Chip.actOp (c : Chip) (rq : Requester) (op : Nat) : Chip :=
  c.regWrite rq Reg.UPDATE_ACT_CTRL (BitVec.ofNat 32 (op * 2 ^ 28)) noVerdict

/-- Time passes to the end of a trial’s TRIAL_MIN minutes (R387). -/
def Chip.trialElapse (c : Chip) : Chip :=
  let m := c.get .UPDATE_CFG_TRIAL_MIN
  match c.upd.trialAt with
  | some a => if m = 0 then c else c.elapseAge (a + m * 3932160000000000)
  | none => c

/-- CHUNK_PUT: R373–R376: UPDATE_CHUNK_CTRL with PUT, with what the hashes and signatures of the chunk say. -/
def execChunkPut (rq : Requester) (index : Nat) (x : Verdict) (s : State) : Host.Outcome State Fault Refusal :=
  s.run (.chunkPut rq index x) fun c => c.regWrite rq Reg.UPDATE_CHUNK_CTRL (BitVec.ofNat 32 (0x40000000 + index)) x

/-- DISCARD_ALL: R376: UPDATE_CHUNK_CTRL with DISCARD_ALL. -/
def execDiscardAll (rq : Requester) (s : State) : Host.Outcome State Fault Refusal :=
  s.run (.discardAll rq) fun c => c.regWrite rq Reg.UPDATE_CHUNK_CTRL 0x80000000 noVerdict

/-- BUNDLE_VERIFY_DONE: R376: the item hashes are checked. -/
def execBundleVerifyDone (ok : Bool) (s : State) : Host.Outcome State Fault Refusal :=
  s.run (.bundleVerifyDone ok) fun c => c.bundleVerified ok

/-- STAGE: R377, R378, R381: UPDATE_ACT_CTRL with STAGE. -/
def execStage (rq : Requester) (s : State) : Host.Outcome State Fault Refusal :=
  s.run (.stage rq) fun c => c.actOp rq 1

/-- STAGING_DONE: R379, R381: the images and settings are written beside those in force. -/
def execStagingDone (s : State) : Host.Outcome State Fault Refusal :=
  s.run (.stagingDone) fun c => c.stagingDone

/-- RELEASE_ARM: R382, R383: UPDATE_ACT_CTRL with ARM. -/
def execReleaseArm (rq : Requester) (s : State) : Host.Outcome State Fault Refusal :=
  s.run (.releaseArm rq) fun c => c.actOp rq 2

/-- RELEASE_GO: R384: UPDATE_ACT_CTRL with GO. -/
def execReleaseGo (rq : Requester) (s : State) : Host.Outcome State Fault Refusal :=
  s.run (.releaseGo rq) fun c => c.actOp rq 3

/-- RELEASE_ABORT: R386: UPDATE_ACT_CTRL with ABORT. -/
def execReleaseAbort (rq : Requester) (s : State) : Host.Outcome State Fault Refusal :=
  s.run (.releaseAbort rq) fun c => c.actOp rq 4

/-- RELEASE_DECISION: R383, R386: the decision at tick T − 8. -/
def execReleaseDecision (s : State) : Host.Outcome State Fault Refusal :=
  s.run (.releaseDecision) fun c => c.relDecide

/-- RELEASE_ACTIVATION: R383, R385–R387: at tick T what holds a go hands over to the staged image. -/
def execReleaseActivation (s : State) : Host.Outcome State Fault Refusal :=
  s.run (.releaseActivation) fun c => if c.isSender then c.relActivate else c.tileActivate

/-- RELEASE_RETRY: R383: at T + 16 a tile without a go raises UPD_MISS, and the sender sends it ACT_ARM and ACT_GO alone. -/
def execReleaseRetry (s : State) : Host.Outcome State Fault Refusal :=
  s.run (.releaseRetry) fun c => if c.isSender then c.relRetry else c.tileMissed

/-- CONFIRM: R387: UPDATE_ACT_CTRL with CONFIRM. -/
def execConfirm (rq : Requester) (s : State) : Host.Outcome State Fault Refusal :=
  s.run (.confirm rq) fun c => c.actOp rq 5

/-- FALLBACK: R387: UPDATE_ACT_CTRL with FALLBACK. -/
def execFallback (rq : Requester) (s : State) : Host.Outcome State Fault Refusal :=
  s.run (.fallback rq) fun c => c.actOp rq 6

/-- TRIAL_EXPIRY: R387: an unconfirmed trial is older than TRIAL_MIN. -/
def execTrialExpiry (s : State) : Host.Outcome State Fault Refusal :=
  s.run (.trialExpiry) fun c => c.trialElapse.trialExpiry

end Sys2Proof.Machine
end

