-- ==== Sys2Proof/Machine/ChainRows.lean ====
section
/-!
DEFINITION. A sender’s chain ports: what they send, discovery and admission, slots and the records in them (R74, R111, R123–R140, R316, R317, R330).
-/

namespace Sys2Proof.Machine

/-- A return cell reaches a sender's port and is checked there (R107); at a tile it goes on upstream (R108, R125). -/
def Chip.returnIn (c : Chip) (n : Nat) (x : Cell) (h : Hdr) (rx : Rx) (f : Chip → Chip) : Chip :=
  if c.isTile then (if n < 2 then c.returnCell n 1024 x h rx else c)
  else if c.examines n then
    let r := c.checkCell n x h rx
    if r.2 then f r.1 else r.1
  else c

/-- An ANSWER cell, which carries no tag (R107, R133). -/
def Chip.answerCell (c : Chip) (n : Nat) (h : Hdr) (a : Answer) (rx : Rx) (f : Chip → Chip) : Chip :=
  c.returnIn n (.answer 0 a) h rx f

/-- A device has been asked for its identity or its keys and has not answered yet (R135). -/
def Chip.asked (c : Chip) (n serial : Nat) : Bool :=
  (c.devOf n serial).any fun d => d.st == .verifying || d.st == .keying

/-- A HELLO (before R133), whose body gives descriptor, boot ROM version and hash prefix, with the calibration record its panel card
holds (R135, R268). -/
def Chip.helloIn (c : Chip) (n : Nat) (a : Answer) (orient : Nat) (card : Option CalRec) : Chip :=
  let c := c.hello n a.serial a.depth (a.body.take 64) (beNat ((a.body.drop 68).take 16)) orient
  match c.devOf n a.serial with
  | some d => if d.st = .found ∨ d.st = .verifying then c.putDev n { d with card := card } else c
  | none => c

/-- A SLOT cell at a sender (R129, R335): a ring's tile that comes back is taken again; a sender that is not active passes the
records on. -/
def Chip.slotCell (c : Chip) (n unit : Nat) (h : Hdr) (s : Slot) (rx : Rx) : Chip :=
  if c.isTile then (if n < 2 then c.returnCell n unit (.slot unit s) h rx else c)
  else (c.slotIn n unit h s rx fun c => c.twinSlot n unit s).segmentOut n

/-- Commands whose timeout has passed (R140); firmware learns of its own. -/
def Chip.noAnswers (c : Chip) (n : Nat) : Chip :=
  let tmo := max (c.get (.CHAIN_RSP_TMO_TICKS n)) 1
  let out := (c.port n).flight.filter fun f => decide (f.sentTick + tmo ≤ c.lastIndex)
  (c.noResponder n).fwLost n 2 out

/-- The COMPLETION record at the head of the burst queue (R316): a ring's outcome, or an answer to the sender's firmware. -/
def Chip.completionHead (c : Chip) : Chip :=
  match c.popRecord isCompletion with
  | some (d, n, wdn, .completion token status cause dup data) =>
    let x := d.completionIn n wdn token status cause dup data
    match x.2 with
    | some f => ((x.1.fwAnswer n wdn f status data).relAnswer n wdn f status).calWaiting
    | none => x.1
  | _ => c

/-- The EVENT record at the head of the burst queue goes to every pair of the tile with EVT_EN (R316). -/
def Chip.eventHead (c : Chip) : Chip :=
  match c.popRecord isEvent with
  | some (d, _, wdn, .event page bits occ) =>
    let dsts := (d.pairsOf wdn).filter fun w => match d.pairAt w with
      | some p => bitAt p.rflags 1
      | none => false
    d.each dsts fun d w => d.putEvent w page bits occ
  | _ => c

/-- The TELEMETRY record at the head goes to every ACTIVE pair of the tile (R316). -/
def Chip.telemetryHead (c : Chip) : Chip :=
  match c.popRecord isTelemetry with
  | some (d, _, wdn, .telemetry sub sample) => d.each (d.pairsOf wdn) fun d w => d.putTelemetry w sub sample
  | _ => c

/-- The DROPS record at the head is added to the next DROPS entry of the tile's pairs (R316). -/
def Chip.dropsHead (c : Chip) : Chip :=
  match c.popRecord isDrops with
  | some (d, _, wdn, .drops k) =>
    d.each (d.pairsOf wdn) fun d w => (d.onPair w fun p => { p with dropTel := p.dropTel + k }).putDrops w
  | _ => c

/-- The BOOT record at the head (R118, R135). -/
def Chip.bootHead (c : Chip) : Chip :=
  match c.popRecord isBoot with
  | some (d, n, wdn, .boot image first last st) => (d.bootRec n wdn image first last st).calWaiting
  | _ => c

/-- The MUTE_REPORT record at the head (R135, R139). -/
def Chip.muteHead (c : Chip) : Chip :=
  match c.popRecord isMuteReport with
  | some (d, n, muter, .muteReport wdn _ _ clean) => d.muteReportIn n muter wdn clean
  | _ => c

/-- The MANDATE record at the head, of the tile that is an Elder (R340). -/
def Chip.mandateHead (c : Chip) : Chip :=
  match c.popRecord isMandate with
  | some (d, _, wdn, .mandate holder epoch) =>
    match d.elderOf wdn with
    | some k => d.mandateIn k holder epoch
    | none => d
  | _ => c

/-- A MANDATE that the peer passes on over the twin link (R340). -/
def Chip.mandateRecord (c : Chip) (m : Option (Nat × Nat × Nat)) : Chip :=
  match m with
  | none => c.mandateHead
  | some x => c.mandateIn x.1 x.2.1 x.2.2

/-- CELL_SCHEDULE: R111, R114, R140: the waiting cell of highest rank leaves at a cell boundary. -/
def execCellSchedule (port dt : Nat) (s : State) : Host.Outcome State Fault Refusal :=
  s.run (.cellSchedule port dt) fun c => if c.isSender then (c.elapse dt).schedule port else c

/-- PIXEL_DEADLINE: R74: the frame’s unsent pixel cells are dropped. -/
def execPixelDeadline (port : Nat) (s : State) : Host.Outcome State Fault Refusal :=
  s.run (.pixelDeadline port) fun c => if c.isSender then c.pixelDeadline port else c

/-- RACK_DUE: R131, R134: a RACK of the units received falls due. -/
def execRackDue (port : Nat) (s : State) : Host.Outcome State Fault Refusal :=
  s.run (.rackDue port) fun c => if c.isSender then c.rackDue port else c

/-- FAR_PRESENCE_SLOT: R330, R331: a far sender’s PRESENCE slot. -/
def execFarPresenceSlot (port : Nat) (s : State) : Host.Outcome State Fault Refusal :=
  s.run (.farPresenceSlot port) fun c => if c.isSender then c.presenceSlot port else c

/-- SLOT_RECEIVE: R107, R129–R132, R317, R335: a SLOT cell arrives. -/
def execSlotReceive (port unit : Nat) (h : Hdr) (slot : Slot) (rx : Rx) (s : State) : Host.Outcome State Fault Refusal :=
  s.run (.slotReceive port unit h slot rx) fun c => c.slotCell port unit h slot rx

/-- CENSUS_RECEIVE: R107, R128, R134, R335: the CENSUS cell of block 0, its count in DEST. -/
def execCensusReceive (port : Nat) (h : Hdr) (rx : Rx) (s : State) : Host.Outcome State Fault Refusal :=
  s.run (.censusReceive port h rx) fun c => c.returnIn port (.census h.dest) h rx fun c => (c.censusIn port h.dest).ringChanged

/-- HELLO_RECEIVE: R13, R107, R134, R135, R137: a HELLO; `orient` is the tile’s port toward this sender, `card` the calibration record of its panel card. -/
def execHelloReceive (port : Nat) (h : Hdr) (a : Answer) (orient : Nat) (card : Option CalRec) (rx : Rx) (s : State) : Host.Outcome State Fault Refusal :=
  s.run (.helloReceive port h a orient card rx) fun c => c.answerCell port h a rx fun c => c.helloIn port a orient card

/-- ID_PART_RECEIVE: R107, R135, R137, R355: an ID_PART; `cert` and `sig` are the outcomes of the checks of all four. -/
def execIdPartReceive (port : Nat) (h : Hdr) (a : Answer) (cert sig : Bool) (rx : Rx) (s : State) : Host.Outcome State Fault Refusal :=
  s.run (.idPartReceive port h a cert sig rx) fun c => c.answerCell port h a rx fun c => c.idPart port a.serial a.part a.body cert sig

/-- ID_REQ_TIMEOUT: R135: an ID_REQ stays unanswered. -/
def execIdReqTimeout (port serial : Nat) (s : State) : Host.Outcome State Fault Refusal :=
  s.run (.idReqTimeout port serial) fun c => if c.isSender && c.asked port serial then c.idUnanswered port serial else c

/-- KEYX_RESP_RECEIVE: R135, R136, R357: a KEYX_RESP; `ok` is whether signature and tag verify. -/
def execKeyxRespReceive (port : Nat) (h : Hdr) (a : Answer) (ok : Bool) (rx : Rx) (s : State) : Host.Outcome State Fault Refusal :=
  s.run (.keyxRespReceive port h a ok rx) fun c => c.answerCell port h a rx fun c => (c.keyxResp port a.serial ok).calWaiting

/-- REFUSED_RECEIVE: R107, R135, R356: a REFUSED answer, its cause the first byte of the body. -/
def execRefusedReceive (port : Nat) (h : Hdr) (a : Answer) (rx : Rx) (s : State) : Host.Outcome State Fault Refusal :=
  s.run (.refusedReceive port h a rx) fun c => c.answerCell port h a rx fun c => c.refusedAns port a.serial (leNat (a.body.take 1))

/-- CHAIN_LIST_WDN: R136: a write of CHAIN_LIST_WDN gives the selected entry a WDN. -/
def execChainListWdn (rq : Requester) (port : Nat) (v : Word) (s : State) : Host.Outcome State Fault Refusal :=
  s.run (.chainListWdn rq port v) fun c => (c.regWrite rq (Reg.CHAIN_LIST_WDN port) v noVerdict).calWaiting

/-- BOOT_RECORD: R118, R135, R388: the BOOT record at the head of the burst queue. -/
def execBootRecord (s : State) : Host.Outcome State Fault Refusal :=
  s.run (.bootRecord) fun c => c.bootHead

/-- MUTED_RECEIVE: R107, R135, R139: a MUTED cell names a tile. -/
def execMutedReceive (port : Nat) (h : Hdr) (rx : Rx) (s : State) : Host.Outcome State Fault Refusal :=
  s.run (.mutedReceive port h rx) fun c => c.returnIn port (.muted h.dest) h rx fun c => c.mutedIn port h.dest

/-- MUTE_REPORT: R135, R139: the MUTE_REPORT record at the head of the burst queue. -/
def execMuteReport (s : State) : Host.Outcome State Fault Refusal :=
  s.run (.muteReport) fun c => c.muteHead

/-- UNIT_EMPTY: R135, R335: an admitted tile’s unit arrives empty. -/
def execUnitEmpty (port wdn : Nat) (s : State) : Host.Outcome State Fault Refusal :=
  s.run (.unitEmpty port wdn) fun c => if c.isSender then (c.unitEmpty port wdn).ringChanged else c

/-- NO_RESPONDER: R140: commands without a completion by their timeout. -/
def execNoResponder (port : Nat) (s : State) : Host.Outcome State Fault Refusal :=
  s.run (.noResponder port) fun c => if c.isSender then c.noAnswers port else c

/-- LONELY_TIMEOUT: R134: 1 s without UP after ENABLE, or a retry 1 s later. -/
def execLonelyTimeout (port : Nat) (s : State) : Host.Outcome State Fault Refusal :=
  s.run (.lonelyTimeout port) fun c => if c.isSender then c.lonely port else c

/-- DISCOVERY_ROUND: R134: DISC_PERIOD elapses while SERVING. -/
def execDiscoveryRound (port : Nat) (s : State) : Host.Outcome State Fault Refusal :=
  s.run (.discoveryRound port) fun c => if c.isSender then c.discRound port else c

/-- DISCOVERY_TIMEOUT: R134: sixteen superframes without a census or a HELLO. -/
def execDiscoveryTimeout (port : Nat) (s : State) : Host.Outcome State Fault Refusal :=
  s.run (.discoveryTimeout port) fun c => if c.isSender then c.discTimeout port else c

/-- REKEY_SEND: R123, R358, R359: REKEY goes out on a chain, or with `none` over the twin link. -/
def execRekeySend (port : Option Nat) (s : State) : Host.Outcome State Fault Refusal :=
  s.run (.rekeySend port) fun c => if c.isSender then (match port with | some n => c.rekey n | none => c.twinRekey) else c

/-- COMPLETION_RECORD: R140, R309, R316: the COMPLETION record at the head of the burst queue. -/
def execCompletionRecord (s : State) : Host.Outcome State Fault Refusal :=
  s.run (.completionRecord) fun c => c.completionHead

/-- EVENT_RECORD: R311, R312, R316: the EVENT record at the head of the burst queue. -/
def execEventRecord (s : State) : Host.Outcome State Fault Refusal :=
  s.run (.eventRecord) fun c => c.eventHead

/-- TELEMETRY_RECORD: R311, R312, R316: the TELEMETRY record at the head of the burst queue. -/
def execTelemetryRecord (s : State) : Host.Outcome State Fault Refusal :=
  s.run (.telemetryRecord) fun c => c.telemetryHead

/-- DROPS_RECORD: R311, R316: the DROPS record at the head of the burst queue. -/
def execDropsRecord (s : State) : Host.Outcome State Fault Refusal :=
  s.run (.dropsRecord) fun c => c.dropsHead

/-- MANDATE_RECORD: R334, R340, R341: the MANDATE record at the head of the burst queue, or the Elder, holder and epoch that the peer passes on. -/
def execMandateRecord (m : Option (Nat × Nat × Nat)) (s : State) : Host.Outcome State Fault Refusal :=
  s.run (.mandateRecord m) fun c => if c.isSender then c.mandateRecord m else c

end Sys2Proof.Machine
end

