-- ==== Sys2Proof/Machine/CrierRows.lean ====
section
/-!
DEFINITION. The Crier: routing, software sources, MSI-X, the Reeve cores’ interrupts and the GPIO pins (R47–R56).
-/

namespace Sys2Proof.Machine

/-- The pending sources routed to a Reeve core (R48, R53). -/
def Chip.coreSources (c : Chip) (n : Nat) : List Nat :=
  (routedSources c).filter fun k =>
    c.flag (.CRIER_SRC_CFG_EN k) && bitAt (c.get (.CRIER_SRC_CFG_CORE_EN k)) n && srcPending c k

/-- A Reeve core by number. -/
def Chip.core (c : Chip) (n : Nat) : Core := listAt c.fab.cores n ⟨false, false, []⟩

/-- Store a Reeve core. -/
def Chip.setCore (c : Chip) (n : Nat) (k : Core) : Chip := c.onFab fun f => { f with cores := listPut f.cores n k }

/-- The group part of a priority (R48). -/
def Chip.groupPart (c : Chip) (prio : Nat) : Nat := prio / 2 ^ min (c.get .CRIER_CTRL_PRIGROUP) 4

/-- A source pre-empts what runs on a core: nothing does, or its group part is lower, with room to nest (R49). -/
def Chip.preempts (c : Chip) (k : Core) (n : Nat) : Bool :=
  match k.stack with
  | [] => true
  | r :: _ => decide (k.stack.length < 16) && decide (c.groupPart (c.get (.CRIER_SRC_CFG_PRIO n)) < c.groupPart r.2)

/-- A software source a core acknowledges ends its pending state (CRIER_SGI). -/
def Chip.ackSource (c : Chip) (n : Nat) : Chip :=
  if 0xf8 ≤ n then c.onFab fun f => { f with sgi := setBitAt f.sgi (n - 0xf8) false } else c

/-- A core wakes if a source is pending for it, and takes the best if its mask allows it and it pre-empts (R48–R50). The spec does
not say whether the CRIER page's PG_CTRL.ENABLE gates the cores' interrupts; here it does not. DESIGN CHOICE, log entry 54. -/
def Chip.coreTake (c : Chip) (n : Nat) : Chip :=
  match bestSource c (c.coreSources n) with
  | none => c
  | some s =>
    let k := { c.core n with asleep := false }
    if !k.masked && c.preempts k s then
      (c.setCore n { k with stack := (s, c.get (.CRIER_SRC_CFG_PRIO s)) :: k.stack }).ackSource s
    else c.setCore n k

/-- What the core's firmware has made of its mask and sleep by now, and the interrupt it then takes. -/
def Chip.interruptTake (c : Chip) (n : Nat) (masked asleep : Bool) : Chip :=
  (c.setCore n { c.core n with masked := masked, asleep := asleep }).coreTake n

/-- A handler ends: the pre-empted one's priority is restored, and pending sources are chosen again (R49). -/
def Chip.handlerEnd (c : Chip) (n : Nat) : Chip :=
  match (c.core n).stack with
  | [] => c
  | _ :: r => (c.setCore n { c.core n with stack := r }).coreTake n

/-- A GPIO level change is accepted: an edge of the selected polarity is latched (R56). -/
def Chip.gpioAccept (c : Chip) (n : Nat) (high : Bool) : Chip :=
  let c := c.onFab fun f => { f with gpio := setBitAt f.gpio n high, gpioRun := listPut f.gpioRun n 0 }
  let t := c.get (.CRIER_GPIO_CFG_TRIG n)
  if t = (if high then 2 else 3) then c.setNat Reg.CRIER_GPIO_EDGE (setBitAt (c.nat Reg.CRIER_GPIO_EDGE) n true) else c

/-- One 25 MHz sample of a GPIO pin behind its synchroniser: the FILT-th in a row at the new level is accepted, a sample at the
old level starts the run anew (R55). FILT 0 acts as 1. The pins' domain is off: nothing is sampled. -/
def Chip.gpioSample (c : Chip) (n : Nat) (high : Bool) : Chip :=
  if c.domOn 78 = false then c
  else if bitAt c.fab.gpio n = high then c.onFab fun f => { f with gpioRun := listPut f.gpioRun n 0 }
  else
    let k := listAt c.fab.gpioRun n 0 + 1
    if max 1 (c.get (.CRIER_GPIO_CFG_FILT n)) ≤ k then c.gpioAccept n high
    else c.onFab fun f => { f with gpioRun := listPut f.gpioRun n k }

/-- SRC_CFG_WRITE: R53: a write of CRIER_SRC_CFGn takes effect at once; CORE_EN takes writes of the Reeve cores only. -/
def execSrcCfgWrite (rq : Requester) (n : Nat) (v : Word) (s : State) : Host.Outcome State Fault Refusal :=
  s.run (.srcCfgWrite rq n v) fun c => c.regWrite rq (Reg.CRIER_SRC_CFG n) v noVerdict

/-- SGI_SET: R47: a write of CRIER_SGI makes software sources pending. -/
def execSgiSet (rq : Requester) (v : Word) (s : State) : Host.Outcome State Fault Refusal :=
  s.run (.sgiSet rq v) fun c => c.regWrite rq Reg.CRIER_SGI v noVerdict

/-- MSIX_EOI: R52: a write of a vector sends its message again while a source on it is pending. -/
def execMsixEoi (rq : Requester) (v : Word) (s : State) : Host.Outcome State Fault Refusal :=
  s.run (.msixEoi rq v) fun c => c.regWrite rq Reg.CRIER_MSIX_EOI v noVerdict

/-- MSIX_UNMASK: R52, R321: the host sets MSI-X Enable, the function mask, the masked vectors and the table; held messages whose mask is gone are sent. -/
def execMsixUnmask (en func : Bool) (masked : List Nat) (table : List (Nat × Nat × Nat)) (s : State) : Host.Outcome State Fault Refusal :=
  s.run (.msixUnmask en func masked table) fun c => c.msixSet en func masked table

/-- INTERRUPT_TAKE: R48–R50: a Reeve core, its mask and sleep as its firmware has set them, wakes and takes the best source that pre-empts. -/
def execInterruptTake (core : Nat) (masked asleep : Bool) (s : State) : Host.Outcome State Fault Refusal :=
  s.run (.interruptTake core masked asleep) fun c => c.interruptTake core masked asleep

/-- HANDLER_END: R49: a handler ends. -/
def execHandlerEnd (core : Nat) (s : State) : Host.Outcome State Fault Refusal :=
  s.run (.handlerEnd core) fun c => c.handlerEnd core

/-- GPIO_EDGE_ACCEPT: R55, R56: consecutive samples of a pin; a level change stable for FILT of them is accepted. -/
def execGpioEdgeAccept (pin : Nat) (samples : List Bool) (s : State) : Host.Outcome State Fault Refusal :=
  s.run (.gpioEdgeAccept pin samples) fun c => c.each samples fun c b => c.gpioSample pin b

end Sys2Proof.Machine
end

