-- ==== Sys2Proof/Machine/FabricRows.lean ====
section
/-!
DEFINITION. Register accesses and the page header: writes, starts and stops, soft resets, commits and their release (R5–R8, R30–R46).
-/

namespace Sys2Proof.Machine

/-- A register write with its byte enables: less than the whole word is the fabric error UNALIGNED (R5, R41). -/
def Chip.writeWhole (c : Chip) (rq : Requester) (a : Nat) (v : Word) (whole : Bool) : Chip :=
  if whole then c.regWriteAny rq a v else c.fabErr rq a true 3

/-- A write of one or more doublewords from an address: each is one access, in ascending order (R41). -/
def Chip.writeRun (c : Chip) (rq : Requester) : Nat → List (Word × Bool) → Chip
  | _, [] => c
  | a, (v, whole) :: r => (c.writeWhole rq a v whole).writeRun rq (a + 4) r

/-- A register read with its byte enables: less than the whole word reads 0 and is the fabric error UNALIGNED (R5, R41). -/
def Chip.readWhole (c : Chip) (rq : Requester) (a : Nat) (whole : Bool) : Chip :=
  if whole then c.readOut rq a else (c.fabErr rq a false 3).emit (.read a 0)

/-- A read of one or more doublewords from an address: each is one access, in ascending order (R41). -/
def Chip.readRun (c : Chip) (rq : Requester) : Nat → List Bool → Chip
  | _, [] => c
  | a, whole :: r => (c.readWhole rq a whole).readRun rq (a + 4) r

/-- A read that has reached the fabric and is not complete 1 ms later ends with zero and TIMEOUT (R43). -/
def Chip.readTimeout (c : Chip) (rq : Requester) (a : Nat) : Chip :=
  if c.fabricCause rq a false = 0 then ((c.elapse (ms 1)).fabErr rq a false 5).emit (.read a 0) else c

/-- The commit of a page falls due at the last executed tick. -/
def Chip.pageDue (c : Chip) (p : Nat) : Bool := c.duePages.contains p

/-- A released commit falls due at the last executed tick. -/
def Chip.releaseDue (c : Chip) : Bool := c.fab.commits.any fun x => x.released.isSome && c.commitDue x

/-- The write of CRIER_FAB_HOLD that a hold or release makes, AT_TICK as the word gives it. -/
def holdWord (hold atTick : Bool) : Word := (if hold then 1 else 0) ||| (if atTick then 2 else 0)

/-- REGISTER_WRITE: R5, R7, R8, R28, R30, R40–R42: a write takes effect by its register’s access code, or is a fabric error, or sets WR_REJ; `ws` are the doublewords of one request with whether all their byte enables are set. -/
def execRegisterWrite (rq : Requester) (a : Nat) (ws : List (Word × Bool)) (s : State) : Host.Outcome State Fault Refusal :=
  s.run (.registerWrite rq a ws) fun c => c.writeRun rq a ws

/-- PAGE_ENABLE: R33, R390: a write of PG_CTRL.ENABLE = 1. -/
def execPageEnable (rq : Requester) (p : Nat) (s : State) : Host.Outcome State Fault Refusal :=
  s.run (.pageEnable rq p) fun c => c.regWrite rq (Reg.PG_CTRL p) 1 noVerdict

/-- PAGE_DISABLE: R33: a write of PG_CTRL.ENABLE = 0. -/
def execPageDisable (rq : Requester) (p : Nat) (s : State) : Host.Outcome State Fault Refusal :=
  s.run (.pageDisable rq p) fun c => c.regWrite rq (Reg.PG_CTRL p) 0 noVerdict

/-- DRAIN_COMPLETE: R33, R395: a disabled block has drained, and ENABLED reads 0. -/
def execDrainComplete (p : Nat) (s : State) : Host.Outcome State Fault Refusal :=
  s.run (.drainComplete p) fun c => c.pageDrainDone p

/-- PAGE_SOFT_RESET: R34, R447: a write of PG_CTRL.SRST. -/
def execPageSoftReset (rq : Requester) (p : Nat) (s : State) : Host.Outcome State Fault Refusal :=
  s.run (.pageSoftReset rq p) fun c => c.regWrite rq (Reg.PG_CTRL p) 2 noVerdict

/-- SOFT_RESET_COMPLETE: R34: the soft reset completes within 2 µs. -/
def execSoftResetComplete (p : Nat) (s : State) : Host.Outcome State Fault Refusal :=
  s.run (.softResetComplete p) fun c => if c.flag (.PG_STATUS_SRST_BUSY p) then (c.elapse (us 2)).softResetDone p else c

/-- PAGE_COMMIT: R35–R37, R39: a write of PG_COMMIT.COMMIT. -/
def execPageCommit (rq : Requester) (p : Nat) (s : State) : Host.Outcome State Fault Refusal :=
  s.run (.pageCommit rq p) fun c => c.regWrite rq (Reg.PG_COMMIT p) 1 noVerdict

/-- COMMIT_APPLY: R35, R38: at its tick a page’s commit is checked and applied, with everything due in the same instant. -/
def execCommitApply (p : Nat) (s : State) : Host.Outcome State Fault Refusal :=
  s.run (.commitApply p) fun c => c.applyDue (c.pageDue p)

/-- PG_EVENT_CLEAR: R46: ones written to PG_EVENT clear their flags. -/
def execPgEventClear (rq : Requester) (p : Nat) (v : Word) (s : State) : Host.Outcome State Fault Refusal :=
  s.run (.pgEventClear rq p v) fun c => c.regWrite rq (Reg.PG_EVENT p) v noVerdict

/-- PG_EVENT_SET: R45: each event named occurs. -/
def execPgEventSet (rq : Requester) (p : Nat) (v : Word) (s : State) : Host.Outcome State Fault Refusal :=
  s.run (.pgEventSet rq p v) fun c => c.regWrite rq (Reg.PG_EVENT_SET p) v noVerdict

/-- PG_STATUS_READ: R31: a read of PG_STATUS; but for the debug port it clears WR_REJ and REJ_WORD. -/
def execPgStatusRead (rq : Requester) (p : Nat) (s : State) : Host.Outcome State Fault Refusal :=
  s.run (.pgStatusRead rq p) fun c => c.readOut rq (Reg.PG_STATUS p)

/-- COUNTER_READ_CLEAR: R32: a read of a clear-on-read counter; any other register is read as its access code says; `be` says of each doubleword of the request whether all its byte enables are set. -/
def execCounterReadClear (rq : Requester) (a : Nat) (be : List Bool) (s : State) : Host.Outcome State Fault Refusal :=
  s.run (.counterReadClear rq a be) fun c => c.readRun rq a be

/-- COUNTER_LOW_READ: R6: a read of the low word of a 64-bit count holds the high word; any other register is read as its access code says; `be` as at COUNTER_READ_CLEAR. -/
def execCounterLowRead (rq : Requester) (a : Nat) (be : List Bool) (s : State) : Host.Outcome State Fault Refusal :=
  s.run (.counterLowRead rq a be) fun c => c.readRun rq a be

/-- TIME_LATCH_READ: R58: a read of BELL_TIME_SUBNS latches the rest of the time. -/
def execTimeLatchRead (rq : Requester) (s : State) : Host.Outcome State Fault Refusal :=
  s.run (.timeLatchRead rq) fun c => c.readOut rq Reg.BELL_TIME_SUBNS

/-- SYNC_CAP_READ: R80: a read of BELL_SYNC_CAP_NS latches the seconds of the capture. -/
def execSyncCapRead (rq : Requester) (s : State) : Host.Outcome State Fault Refusal :=
  s.run (.syncCapRead rq) fun c => c.readOut rq Reg.BELL_SYNC_CAP_NS

/-- FAB_HOLD: R39: a write of HOLD = 1. -/
def execFabHold (rq : Requester) (atTick : Bool) (s : State) : Host.Outcome State Fault Refusal :=
  s.run (.fabHold rq atTick) fun c => c.regWrite rq Reg.CRIER_FAB_HOLD (holdWord true atTick) noVerdict

/-- FAB_RELEASE: R39: a write of HOLD = 0 releases the held commits, at the next tick or the named one. -/
def execFabRelease (rq : Requester) (atTick : Bool) (s : State) : Host.Outcome State Fault Refusal :=
  s.run (.fabRelease rq atTick) fun c => c.regWrite rq Reg.CRIER_FAB_HOLD (holdWord false atTick) noVerdict

/-- FAB_RELEASE_APPLY: R39: at the release tick every commit of the group applies in the same instant. -/
def execFabReleaseApply (s : State) : Host.Outcome State Fault Refusal :=
  s.run (.fabReleaseApply) fun c => c.applyDue c.releaseDue

/-- READ_TIMEOUT: R43: a read not complete after 1 ms. -/
def execReadTimeout (rq : Requester) (a : Nat) (s : State) : Host.Outcome State Fault Refusal :=
  s.run (.readTimeout rq a) fun c => c.readTimeout rq a

end Sys2Proof.Machine
end

