-- ==== Sys2Proof/Machine/GateRows.lean ====
section
/-!
DEFINITION. The Gatehouse: attestation, key slots, the policy and tamper events (R351, R360–R369).
-/

namespace Sys2Proof.Machine

/-- A write of KEYS_CTRL: operation and length (R362). -/
def keysWord (op len : Nat) : Word := BitVec.ofNat 32 (op * 2 ^ 28 + len % 256)

/-- A write of KEYS_CTRL with the verdict on the blob or token it names. -/
def Chip.keysOp (c : Chip) (rq : Requester) (op len : Nat) (ok : Bool) : Chip :=
  c.regWrite rq Reg.KEYS_CTRL (keysWord op len) { noVerdict with ok := ok }

/-- ATT_START: R360: a write of GATE_ATT_CTRL.START. -/
def execAttStart (rq : Requester) (s : State) : Host.Outcome State Fault Refusal :=
  s.run (.attStart rq) fun c => c.regWrite rq Reg.GATE_ATT_CTRL 1 noVerdict

/-- ATTESTATION_DONE: R360: the report is complete. -/
def execAttestationDone (s : State) : Host.Outcome State Fault Refusal :=
  s.run (.attestationDone) fun c => c.attDone

/-- KEY_ERASE: R361, R362: KEYS_CTRL with ERASE, for the slot KEYS_SEL names. -/
def execKeyErase (rq : Requester) (s : State) : Host.Outcome State Fault Refusal :=
  s.run (.keyErase rq) fun c => c.keysOp rq 1 0 false

/-- WRITE_PUBLIC: R361, R362: KEYS_CTRL with WRITE_PUBLIC. -/
def execWritePublic (rq : Requester) (len : Nat) (s : State) : Host.Outcome State Fault Refusal :=
  s.run (.writePublic rq len) fun c => c.keysOp rq 2 len false

/-- KEY_IMPORT: R361, R362: KEYS_CTRL with IMPORT; `ok` is whether the blob unwraps under SEAL. -/
def execKeyImport (rq : Requester) (len : Nat) (ok : Bool) (s : State) : Host.Outcome State Fault Refusal :=
  s.run (.keyImport rq len ok) fun c => c.keysOp rq 3 len ok

/-- GENERATE_AES: R362: KEYS_CTRL with GENERATE_AES. -/
def execGenerateAes (rq : Requester) (s : State) : Host.Outcome State Fault Refusal :=
  s.run (.generateAes rq) fun c => c.keysOp rq 4 0 false

/-- GENERATE_EC: R362: KEYS_CTRL with GENERATE_EC. -/
def execGenerateEc (rq : Requester) (s : State) : Host.Outcome State Fault Refusal :=
  s.run (.generateEc rq) fun c => c.keysOp rq 5 0 false

/-- OPEN_DEBUG: R351: KEYS_CTRL with OPEN_DEBUG; `ok` is whether the token’s signature verifies. -/
def execOpenDebug (rq : Requester) (len : Nat) (ok : Bool) (s : State) : Host.Outcome State Fault Refusal :=
  s.run (.openDebug rq len ok) fun c => c.keysOp rq 6 len ok

/-- PENDING_KEY_WRITE: R362: the earlier users of a slot are done, and the write that waited takes effect. -/
def execPendingKeyWrite (n : Nat) (s : State) : Host.Outcome State Fault Refusal :=
  s.run (.pendingKeyWrite n) fun c => c.pendingWrite n

/-- POL_DATA_WRITE: R364, R365: a write of GATE_POL_DATA. -/
def execPolDataWrite (rq : Requester) (v : Word) (s : State) : Host.Outcome State Fault Refusal :=
  s.run (.polDataWrite rq v) fun c => c.regWrite rq Reg.GATE_POL_DATA v noVerdict

/-- POLICY_COMMIT: R365: a write of GATE_POL_COMMIT. -/
def execPolicyCommit (rq : Requester) (s : State) : Host.Outcome State Fault Refusal :=
  s.run (.policyCommit rq) fun c => c.regWrite rq Reg.GATE_POL_COMMIT 1 noVerdict

/-- POLICY_DRAIN_DONE: R365: the last access of an older epoch completes. -/
def execPolicyDrainDone (s : State) : Host.Outcome State Fault Refusal :=
  s.run (.policyDrainDone) fun c => c.polDrained

/-- TAMPER_EN_WRITE: R366: a write of GATE_TAMPER_EN. -/
def execTamperEnWrite (rq : Requester) (v : Word) (s : State) : Host.Outcome State Fault Refusal :=
  s.run (.tamperEnWrite rq v) fun c => c.regWrite rq Reg.GATE_TAMPER_EN v noVerdict

/-- TAMPER_EVENT: R366–R369, R389: what a tamper source sees; it fires where its condition holds for its filter. -/
def execTamperEvent (x : Tamper) (s : State) : Host.Outcome State Fault Refusal :=
  s.run (.tamperEvent x) fun c => c.tamperEvent x

end Sys2Proof.Machine
end

