-- ==== Sys2Proof/Machine/GranaryRows.lean ====
section
/-!
DEFINITION. The Granary’s channels, manager and arbiter (R275–R296).
-/

namespace Sys2Proof.Machine

/-- What waits on the Granary is answered once it can be: requests of the management plane (R325). -/
def Chip.granAfter (c : Chip) : Chip := c.mgmtDrain 16

/-- A requester of the Granary asks: the sender holds it (R292). -/
def Chip.granAsk (c : Chip) (f : Chip → Chip) : Chip := if c.isSender then (f c).granAfter else c

/-- One line that a patrol scrub read with an error (R279): a corrected one is counted and written back, an uncorrectable one
freezes its channel. A line that cannot be reached, or lies in an unwritten region, is passed over. -/
def Chip.scrubLine (c : Chip) (l : Nat) (e : Ecc) : Chip :=
  let a := 64 * l
  if !c.gran.written.contains (a / 2 ^ 20) || c.gBlocked a 64 then c
  else
    let r := c.eccMeet 15 a e
    match r.2 with
    | none => r.1
    | some k => r.1.gFreeze (c.granMap a).1 15 a k.1 k.2

/-- A patrol scrub reads every written line as requester 15 (R279), GRAN_MGR_SCRUB.HOURS hours after the one before it or after
the enabling of the manager: `res` are the lines with an error; a poisoned line read counts (R280). -/
def Chip.patrol (c : Chip) (res : List (Nat × Ecc)) : Chip :=
  if c.granOn && c.get .GRAN_MGR_SCRUB_HOURS != 0 then
    let c := c.elapseAge (c.gran.scrubAt + us (3600000000 * c.get .GRAN_MGR_SCRUB_HOURS))
    let c := (c.countBy Reg.GRAN_MGR_POISON_RD c.gran.poison.length).onGran fun g => { g with scrubAt := c.age }
    c.each res fun c r => c.scrubLine r.1 r.2
  else c

/-- The fills of the fetch buffers, in KiB, are seen (R191). -/
def Chip.fillsSeen (c : Chip) (fills : List Nat) : Chip :=
  c.each ((List.range 4).take fills.length) fun c g => c.fillSeen g (listAt fills g 1024)

/-- The urgency of each fetch group by the fill of its buffer in KiB (R191). -/
def Chip.urgencies (c : Chip) (fills : List Nat) : List Nat := (List.range 4).map fun g => c.urgency g (listAt fills g 1024)

/-- GRANARY_READ: R275–R278, R280, R281, R283, R287, R288, R290, R291: a requester’s read, with the way its DRAM access fares. -/
def execGranaryRead (req a n : Nat) (ecc : Ecc) (s : State) : Host.Outcome State Fault Refusal :=
  s.run (.granaryRead req a n ecc) fun c => c.granAsk fun c => c.gRead req a n ecc

/-- GRANARY_WRITE: R275–R278, R280–R283, R287, R290: a requester’s write. -/
def execGranaryWrite (req a : Nat) (bytes : List Byte) (ecc : Ecc) (s : State) : Host.Outcome State Fault Refusal :=
  s.run (.granaryWrite req a bytes ecc) fun c => c.granAsk fun c => c.gWriteReq req a bytes ecc

/-- REGION_FILL: R281: a write of GRAN_MGR_UNW with OP = FILL. -/
def execRegionFill (rq : Requester) (r : Nat) (s : State) : Host.Outcome State Fault Refusal :=
  s.run (.regionFill rq r) fun c => c.regWrite rq Reg.GRAN_MGR_UNW (BitVec.ofNat 32 (0x40000000 + r)) noVerdict

/-- REGION_CLEAR: R281: a write of GRAN_MGR_UNW with OP = CLEAR. -/
def execRegionClear (rq : Requester) (r : Nat) (s : State) : Host.Outcome State Fault Refusal :=
  s.run (.regionClear rq r) fun c => c.regWrite rq Reg.GRAN_MGR_UNW (BitVec.ofNat 32 (0x80000000 + r)) noVerdict

/-- REGION_FILL_DONE: R281: a region’s fill completes, and what waited for it proceeds. -/
def execRegionFillDone (r : Nat) (s : State) : Host.Outcome State Fault Refusal :=
  s.run (.regionFillDone r) fun c => c.granAsk fun c => c.regionFilled r

/-- TRAINING_DONE: R284: a channel finishes training, with its margins and its time. -/
def execTrainingDone (n : Nat) (ok : Bool) (rd wr ms : Nat) (s : State) : Host.Outcome State Fault Refusal :=
  s.run (.trainingDone n ok rd wr ms) fun c => (c.granAsk fun c => c.trained n ok rd wr ms).domSync

/-- REFRESH: R285: an all-bank refresh, with what MR4 reports and how far the fetch buffers are filled. -/
def execRefresh (n : Nat) (hot : Bool) (fills : List Nat) (s : State) : Host.Outcome State Fault Refusal :=
  s.run (.refresh n hot fills) fun c => c.granAsk fun c =>
    (c.fillsSeen fills).refresh n hot ((c.urgencies fills).contains 2)

/-- RETRAINING_PAUSE: R285: a retraining pause falls due. -/
def execRetrainingPause (n : Nat) (s : State) : Host.Outcome State Fault Refusal :=
  s.run (.retrainingPause n) fun c => c.granAsk fun c => c.retrain n

/-- PATROL_SCRUB: R279, R280, R287: a patrol scrub of every written line. -/
def execPatrolScrub (res : List (Nat × Ecc)) (dt : Nat) (s : State) : Host.Outcome State Fault Refusal :=
  s.run (.patrolScrub res dt) fun c => (c.elapse dt).granAsk fun c => c.patrol res

/-- MIGRATION_DONE: R288, R289, R291: the failed rank is copied; `bad` are the lines that could not be corrected. -/
def execMigrationDone (bad : List Nat) (dt : Nat) (s : State) : Host.Outcome State Fault Refusal :=
  s.run (.migrationDone bad dt) fun c => ((c.migElapse dt).granAsk fun c => c.migDone bad).deepAfterMigration

/-- RANK_RETIRE: R290, R291: a write of GRAN_MGR_CTRL.RETIRE. -/
def execRankRetire (rq : Requester) (n rank : Nat) (s : State) : Host.Outcome State Fault Refusal :=
  s.run (.rankRetire rq n rank) fun c => c.regWrite rq Reg.GRAN_MGR_CTRL (BitVec.ofNat 32 (0x80000000 + 4 * rank + n)) noVerdict

/-- The arbiter of a channel decides while the Granary is on: the fill of each fetch buffer, in KiB, is seen and gives its group's
urgency (R191, R292–R294). -/
def Chip.arbTurn (c : Chip) (fills : List Nat) (n : Nat) (reqs : List Nat) : Chip :=
  if c.isSender && c.granOn then
    let c := c.fillsSeen fills
    c.arbDecide (c.urgencies fills) n (reqs.filter fun r => decide (r < 16))
  else c

/-- ARB_DECISION: R292–R294: the arbiter of a channel decides among the requesters that ask, with the fetch buffers filled so far. -/
def execArbDecision (fills : List Nat) (n : Nat) (reqs : List Nat) (s : State) : Host.Outcome State Fault Refusal :=
  s.run (.arbDecision fills n reqs) fun c => c.arbTurn fills n reqs

/-- STARVE: R295: a requester has waited ARB_STARVE_TMO. -/
def execStarve (n : Nat) (s : State) : Host.Outcome State Fault Refusal :=
  s.run (.starve n) fun c => if c.isSender && c.granOn then c.starve n else c

/-- COMPAT_SET: R296: a write of ARB_CFG. -/
def execCompatSet (rq : Requester) (v : Word) (s : State) : Host.Outcome State Fault Refusal :=
  s.run (.compatSet rq v) fun c => c.regWrite rq Reg.ARB_CFG v noVerdict

end Sys2Proof.Machine
end

