-- ==== Sys2Proof/Machine/HaloRows.lean ====
section
/-!
DEFINITION. Halo: the CSI-2 ports, the accumulator, calibration jobs and pushes (R251–R272).
-/

namespace Sys2Proof.Machine

/-- The domains of Halo follow what runs in it (R392). -/
def Chip.haloDone (c : Chip) : Chip := c.domSync

/-- Time passes beyond the watchdog time of the open frame of a sensor (R253). -/
def Chip.csiElapse (c : Chip) (v : Nat) : Chip :=
  match (c.sensor v).frame, c.csiTmo v with
  | some f, some t => c.elapseAge (f.at_ + t + 1)
  | _, _ => c

/-- Time passes to 1 s after the run’s last accepted frame (R259). -/
def Chip.framesElapse (c : Chip) : Chip :=
  if c.accState = 1 ∨ c.accState = 2 then c.elapseAge (c.halo.frameAt + ms 1000) else c

/-- The lanes of a CSI-2 port: `act` for the clock lane, a bit in `stop` for each data lane in the stop state (R272). -/
def Chip.csiLanes (c : Chip) (p : Nat) (act : Bool) (stop : Nat) (f : Chip → Chip) : Chip :=
  if c.enabled (0x49 + p) then f ((c.put (.CSI_STAT_ACTIVE p) (if act then 1 else 0)).put (.CSI_STAT_STOP p) stop) else c

/-- A skew calibration sequence ends (R251): SKEW_OK, or SKEW_FAIL. -/
def Chip.skewCal (c : Chip) (p : Nat) (ok : Bool) : Chip :=
  if !c.enabled (0x49 + p) then c
  else if ok then c.put (.CSI_STAT_SKEW_OK p) 1
  else (c.put (.CSI_STAT_SKEW_OK p) 0).raise (.CSI_SKEW_FAIL p)

/-- CSI_FRAME_START: R251–R253, R256: a frame start packet. -/
def execCsiFrameStart (p vc ext ecc num dt : Nat) (s : State) : Host.Outcome State Fault Refusal :=
  s.run (.csiFrameStart p vc ext ecc num dt) fun c => ((c.elapse dt).csiPacket p vc ext ecc fun c => c.csiStart (4 * p + vc) num).haloDone

/-- CSI_LONG_PACKET: R251–R255: a long packet with the raw codes of its pixels. -/
def execCsiLongPacket (p vc ext ecc type : Nat) (crc : Bool) (codes : List Nat) (dt : Nat) (s : State) : Host.Outcome State Fault Refusal :=
  s.run (.csiLongPacket p vc ext ecc type crc codes dt) fun c => (c.elapse dt).csiPacket p vc ext ecc fun c => c.csiLong p vc type crc codes

/-- CSI_FRAME_END: R150, R253–R261: a frame end packet; an accepted frame goes through the ISP to the contexts and the run. -/
def execCsiFrameEnd (p vc ext ecc num dt : Nat) (s : State) : Host.Outcome State Fault Refusal :=
  s.run (.csiFrameEnd p vc ext ecc num dt) fun c => ((c.elapse dt).csiPacket p vc ext ecc fun c => c.csiEnd (4 * p + vc) num).haloDone

/-- CSI_FRAME_TIMEOUT: R253: no frame end within CSI_VCn_TMO. -/
def execCsiFrameTimeout (v : Nat) (s : State) : Host.Outcome State Fault Refusal :=
  s.run (.csiFrameTimeout v) fun c => ((c.csiElapse v).csiTimeout v).haloDone

/-- SENSOR_APPLY: R256: a write of HALO_Sv_APPLY. -/
def execSensorApply (rq : Requester) (v : Nat) (s : State) : Host.Outcome State Fault Refusal :=
  s.run (.sensorApply rq v) fun c => c.regWrite rq (Reg.HALO_S_APPLY v) 1 noVerdict

/-- ACC_START: R259: a write of HALO_ACC_CTRL.START. -/
def execAccStart (rq : Requester) (s : State) : Host.Outcome State Fault Refusal :=
  s.run (.accStart rq) fun c => c.regWrite rq Reg.HALO_ACC_CTRL 1 noVerdict

/-- ACC_ZEROED: R259: the run’s array and bitmap hold zeros. -/
def execAccZeroed (s : State) : Host.Outcome State Fault Refusal :=
  s.run (.accZeroed) fun c => c.accZeroed.haloDone

/-- ACC_ABORT: R259: a write of HALO_ACC_CTRL.ABORT. -/
def execAccAbort (rq : Requester) (s : State) : Host.Outcome State Fault Refusal :=
  s.run (.accAbort rq) fun c => c.regWrite rq Reg.HALO_ACC_CTRL 2 noVerdict

/-- ACC_NO_FRAMES: R259, R261: no accepted frame for 1 s. -/
def execAccNoFrames (s : State) : Host.Outcome State Fault Refusal :=
  s.run (.accNoFrames) fun c => (c.framesElapse.accNoFrames).haloDone

/-- JOB_START: R260, R261: a write of HALO_JOB_CTRL.START. -/
def execJobStart (rq : Requester) (s : State) : Host.Outcome State Fault Refusal :=
  s.run (.jobStart rq) fun c => c.regWrite rq Reg.HALO_JOB_CTRL 1 noVerdict

/-- JOB_ABORT: R261: a write of HALO_JOB_CTRL.ABORT. -/
def execJobAbort (rq : Requester) (s : State) : Host.Outcome State Fault Refusal :=
  s.run (.jobAbort rq) fun c => c.regWrite rq Reg.HALO_JOB_CTRL 2 noVerdict

/-- PUSH_START: R262, R263: a write of HALO_PUSH_CTRL.START. -/
def execPushStart (rq : Requester) (all : Bool) (s : State) : Host.Outcome State Fault Refusal :=
  s.run (.pushStart rq all) fun c => c.regWrite rq Reg.HALO_PUSH_CTRL (if all then 5 else 1) noVerdict

/-- PUSH_ABORT: R263: a write of HALO_PUSH_CTRL.ABORT. -/
def execPushAbort (rq : Requester) (s : State) : Host.Outcome State Fault Refusal :=
  s.run (.pushAbort rq) fun c => c.regWrite rq Reg.HALO_PUSH_CTRL 2 noVerdict

/-- PUSH_DECISION: R263 steps 3 and 4: the decision at tick T − 8. -/
def execPushDecision (s : State) : Host.Outcome State Fault Refusal :=
  s.run (.pushDecision) fun c => c.pushDecision.haloDone

/-- PUSH_CONFIRM: R263 steps 5 and 6: at T + 2 entries become SWITCHED or NOT_CONFIRMED. -/
def execPushConfirm (s : State) : Host.Outcome State Fault Refusal :=
  s.run (.pushConfirm) fun c => c.pushConfirmation.haloDone

/-- CARD_WRITE_DONE: R263, R270: the panel card write of an entry is over. -/
def execCardWriteDone (entry : Nat) (ok : Bool) (s : State) : Host.Outcome State Fault Refusal :=
  s.run (.cardWriteDone entry ok) fun c => (c.cardWriteDone entry ok).haloDone

/-- JOB_COMPUTE_DONE: R260, R261: the job’s computation ends with the sets and their figures, or fails. -/
def execJobComputeDone (fail : Nat) (sets : List (Nat × List Byte × List Nat)) (s : State) : Host.Outcome State Fault Refusal :=
  s.run (.jobComputeDone fail sets) fun c => (c.jobComputed fail sets).haloDone

/-- CSI_LINK_ACTIVE: R272: the clock lane of a port becomes active. -/
def execCsiLinkActive (p stop : Nat) (s : State) : Host.Outcome State Fault Refusal :=
  s.run (.csiLinkActive p stop) fun c => c.csiLanes p true stop fun c => c.raise (.CSI_LINK_ACTIVE p)

/-- CSI_LINK_STOP: R272: the lanes of a port enter the stop state. -/
def execCsiLinkStop (p stop : Nat) (act : Bool) (s : State) : Host.Outcome State Fault Refusal :=
  s.run (.csiLinkStop p stop act) fun c => c.csiLanes p act stop fun c => c.raise (.CSI_LINK_STOP p)

/-- CSI_SKEW_CALIBRATION: R251, R272: a skew calibration sequence. -/
def execCsiSkewCalibration (p : Nat) (ok : Bool) (s : State) : Host.Outcome State Fault Refusal :=
  s.run (.csiSkewCalibration p ok) fun c => c.skewCal p ok

end Sys2Proof.Machine
end

