-- ==== Sys2Proof/Machine/HostRows.lean ====
section
/-!
DEFINITION. The Well’s rings and doorbells, the PCIe endpoint and the management channel (R300–R327, R359).
-/

namespace Sys2Proof.Machine

/-- A write of WELL_RING_CTRL that a host makes: operation and pair. -/
def ringWord (op w : Nat) : Word := BitVec.ofNat 32 (op * 2 ^ 28 + w)

/-- A doorbell over PCIe (R303). -/
def Chip.pcieDoorbell (c : Chip) (off v : Nat) : Chip := if c.isSender && c.pcie.up then c.bar2Doorbell off v else c

/-- The Well takes the head of a ring if it may (R306); after a switchover a replayed one is counted (R341). -/
def Chip.wellTake (c : Chip) (w : Nat) : Chip :=
  match c.pairAt w with
  | some p =>
    if c.isSender && c.canTake w p then
      let replay := c.replaying w
      let c := c.takeDesc w replay
      if replay then c.replayStep w else c
    else c
  | none => c

/-- At an executed tick every ring that waits on a TICK_FENCE whose tick has come goes on (R308). -/
def Chip.fencesDone (c : Chip) : Chip :=
  let blocked := (c.well.taken.filter fun t => t.desc.op == 0x11).map (·.pair)
  c.each blocked.eraseDups fun c w => c.unblock w 0x11

/-- A request of the management channel’s peer. -/
def Chip.mgmtReq (c : Chip) (seq kind a b : Nat) (bytes : List Byte) (tag : Bool) : Chip := c.mgmtIn ⟨seq, kind, a, b, bytes⟩ tag

/-- The PCIe link is lost (R323). -/
def Chip.pcieLost (c : Chip) : Chip := if c.isSender && c.pcie.up then c.pcieDown else c

/-- RING_ENABLE: R301, R302: a write of WELL_RING_CTRL with ENABLE checks the ring table entry and activates the pair. -/
def execRingEnable (rq : Requester) (w : Nat) (s : State) : Host.Outcome State Fault Refusal :=
  s.run (.ringEnable rq w) fun c => c.regWrite rq Reg.WELL_RING_CTRL (ringWord 1 w) noVerdict

/-- RING_FLUSH: R309: a write of WELL_RING_CTRL with FLUSH completes what a halted ring still holds. -/
def execRingFlush (rq : Requester) (w : Nat) (s : State) : Host.Outcome State Fault Refusal :=
  s.run (.ringFlush rq w) fun c => c.regWrite rq Reg.WELL_RING_CTRL (ringWord 2 w) noVerdict

/-- RING_RESUME: R309: a write of WELL_RING_CTRL with RESUME restarts a halted ring at SQ_HEAD. -/
def execRingResume (rq : Requester) (w : Nat) (s : State) : Host.Outcome State Fault Refusal :=
  s.run (.ringResume rq w) fun c => c.regWrite rq Reg.WELL_RING_CTRL (ringWord 3 w) noVerdict

/-- RING_DISABLE: R309: a write of WELL_RING_CTRL with DISABLE of an empty ring with nothing in flight. -/
def execRingDisable (rq : Requester) (w : Nat) (s : State) : Host.Outcome State Fault Refusal :=
  s.run (.ringDisable rq w) fun c => c.regWrite rq Reg.WELL_RING_CTRL (ringWord 4 w) noVerdict

/-- SQ_DOORBELL: R303, R336: a BAR2 write of a pair’s SQ doorbell. -/
def execSqDoorbell (w v : Nat) (s : State) : Host.Outcome State Fault Refusal :=
  s.run (.sqDoorbell w v) fun c => c.pcieDoorbell (4 * w) v

/-- CQ_DOORBELL: R303, R312: a BAR2 write of a pair’s CQ doorbell. -/
def execCqDoorbell (w v : Nat) (s : State) : Host.Outcome State Fault Refusal :=
  s.run (.cqDoorbell w v) fun c => c.pcieDoorbell (0x10000 + 4 * w) v

/-- DESCRIPTOR_TAKE: R304–R310, R312, R315, R341: the Well takes the head descriptor of a ring. -/
def execDescriptorTake (w : Nat) (s : State) : Host.Outcome State Fault Refusal :=
  s.run (.descriptorTake w) fun c => c.wellTake w

/-- BARRIER: R307: a barrier completes once what it waits for has completed. -/
def execBarrier (w : Nat) (s : State) : Host.Outcome State Fault Refusal :=
  s.run (.barrier w) fun c => c.unblock w 0x10

/-- TICK_FENCE: R308: a TICK_FENCE at the head of a ring is taken: it completes LATE at once, or holds the ring. -/
def execTickFence (w : Nat) (s : State) : Host.Outcome State Fault Refusal :=
  s.run (.tickFence w) fun c => c.wellTake w

/-- TICK_FENCE_DONE: R308: the fences whose tick has been executed complete. -/
def execTickFenceDone (s : State) : Host.Outcome State Fault Refusal :=
  s.run (.tickFenceDone) fun c => c.fencesDone

/-- NOTIFY_HOLDOFF: R318: an entry has stayed unconsumed for HOLDOFF. -/
def execNotifyHoldoff (w dt : Nat) (s : State) : Host.Outcome State Fault Refusal :=
  s.run (.notifyHoldoff w dt) fun c => (c.elapse dt).notifyHoldoff w

/-- BAR4_READ: R277, R280, R322: a read of BAR4. -/
def execBar4Read (a n : Nat) (ecc : Ecc) (s : State) : Host.Outcome State Fault Refusal :=
  s.run (.bar4Read a n ecc) fun c => (c.bar4Read a n ecc).mgmtDrain 16

/-- BAR4_WRITE: R282, R322: a write of BAR4; a byte whose enable is 0 is none. -/
def execBar4Write (a : Nat) (data : List (Option Byte)) (ecc : Ecc) (s : State) : Host.Outcome State Fault Refusal :=
  s.run (.bar4Write a data ecc) fun c => (c.bar4Write a data ecc).mgmtDrain 16

/-- FLR: R323: a Function Level Reset. -/
def execFlr (s : State) : Host.Outcome State Fault Refusal :=
  s.run (.flr) fun c => c.flr

/-- PCIE_LINK_DOWN: R323: the PCIe link goes down. -/
def execPcieLinkDown (s : State) : Host.Outcome State Fault Refusal :=
  s.run (.pcieLinkDown) fun c => c.pcieLost

/-- PCIE_LINK_UP: R321, R323: the PCIe link comes up. -/
def execPcieLinkUp (gen width : Nat) (s : State) : Host.Outcome State Fault Refusal :=
  s.run (.pcieLinkUp gen width) fun c => c.pcieUp gen width

/-- MGMT_REG_RD: R325: REG_RD. -/
def execMgmtRegRd (seq a words : Nat) (tag : Bool) (s : State) : Host.Outcome State Fault Refusal :=
  s.run (.mgmtRegRd seq a words tag) fun c => c.mgmtReq seq 1 a words [] tag

/-- MGMT_REG_WR: R325: REG_WR. -/
def execMgmtRegWr (seq a : Nat) (bytes : List Byte) (tag : Bool) (s : State) : Host.Outcome State Fault Refusal :=
  s.run (.mgmtRegWr seq a bytes tag) fun c => c.mgmtReq seq 2 a 0 bytes tag

/-- MGMT_MEM_RD: R325: MEM_RD. -/
def execMgmtMemRd (seq a n : Nat) (tag : Bool) (s : State) : Host.Outcome State Fault Refusal :=
  s.run (.mgmtMemRd seq a n tag) fun c => c.mgmtReq seq 3 a n [] tag

/-- MGMT_MEM_WR: R325: MEM_WR. -/
def execMgmtMemWr (seq a : Nat) (bytes : List Byte) (tag : Bool) (s : State) : Host.Outcome State Fault Refusal :=
  s.run (.mgmtMemWr seq a bytes tag) fun c => c.mgmtReq seq 4 a 0 bytes tag

/-- MGMT_DOORBELL: R303, R325: DOORBELL. -/
def execMgmtDoorbell (seq off v : Nat) (tag : Bool) (s : State) : Host.Outcome State Fault Refusal :=
  s.run (.mgmtDoorbell seq off v tag) fun c => c.mgmtReq seq 5 off v [] tag

/-- M_HELLO: R359: M_HELLO: operator certificate, ephemeral key and nonce, with whether the certificate's signature verifies. -/
def execMHello (peer : Nat) (data : List Byte) (ok : Bool) (s : State) : Host.Outcome State Fault Refusal :=
  s.run (.mHello peer data ok) fun c => c.mHello peer data ok

/-- M_FINISH: R359: M_FINISH, with whether the signature over the transcript is valid. -/
def execMFinish (seq : Nat) (ok : Bool) (s : State) : Host.Outcome State Fault Refusal :=
  s.run (.mFinish seq ok) fun c => c.mFinish seq ok

/-- M_CLOSE: R359: M_CLOSE. -/
def execMClose (tag : Bool) (s : State) : Host.Outcome State Fault Refusal :=
  s.run (.mClose tag) fun c => c.mClose tag

/-- MGMT_SESSION_SILENCE: R359: ten seconds of silence. -/
def execMgmtSessionSilence (s : State) : Host.Outcome State Fault Refusal :=
  s.run (.mgmtSessionSilence) fun c => (if c.mgmt.session then c.elapseAge (c.mgmt.heardAt + ms 10000) else c).mgmtSilence

/-- TWIN_PAIR_HANDSHAKE: R328, R359: the two senders exchange certificates and ephemeral keys; whether they stand, and whether the peer’s settings agree. -/
def execTwinPairHandshake (cert owner sig peer : Bool) (eph : Nat) (s : State) : Host.Outcome State Fault Refusal :=
  s.run (.twinPairHandshake cert owner sig peer eph) fun c => c.pairShake cert owner sig peer eph

/-- LANE_M_LINK: R324, R405: the management link comes up or goes down. -/
def execLaneMLink (up : Bool) (s : State) : Host.Outcome State Fault Refusal :=
  s.run (.laneMLink up) fun c => c.laneM up

/-- PCIE_AER_ERROR: R321, R327: the endpoint detects an error. -/
def execPcieAerError (corr : Bool) (s : State) : Host.Outcome State Fault Refusal :=
  s.run (.pcieAerError corr) fun c => c.aer corr

end Sys2Proof.Machine
end

