-- ==== Sys2Proof/Machine/IngestRows.lean ====
section
/-!
DEFINITION. The Ethernet ports, the ingest contexts and their coefficient memory (R144–R163).
-/

namespace Sys2Proof.Machine

/-- A sender's Ethernet port page is enabled. -/
def Chip.ethHere (c : Chip) (n : Nat) : Bool := c.isSender && c.enabled (0x40 + n) && c.enabled (0x18 + n)

/-- An Ethernet port's PCS comes up (R144–R146): ETH_STAT shows it, a gratuitous ARP goes out, groups are joined. -/
def Chip.ethComesUp (c : Chip) (n : Nat) : Chip :=
  if c.ethHere n && !c.flag (.ETH_STAT_LINK n) then
    let c := ((c.put (.ETH_STAT_LINK n) 1).put (.ETH_STAT_FEC_LOCK n) (c.get (.ETH_CFG_FEC_EN n))).put (.ETH_STAT_AM_LOCK n) 1
    let c := (c.put (.ETH_STAT_LANE_LOCK n) 0xF).raise (.ETH_LINK_UP n)
    (c.gratuitousArp n).joinAll n none
  else c

/-- An ARP packet (R145): an answer to a request for ETH_IP, ADDR_CONFLICT when another station claims it. -/
def Chip.arpIn (c : Chip) (n sender target : Nat) (request : Bool) : Chip :=
  let ip := c.nat (Reg.ETH_IP n)
  let claim := ip ≠ 0 ∧ sender = ip
  let forUs := ip ≠ 0 ∧ target = ip
  if claim ∨ forUs then
    let c := c.ethGood n
    let c := if claim then c.raise (.ETH_ADDR_CONFLICT n) else c
    if forUs ∧ request = true then c.ethSend n 5 [ip, sender] else c
  else c.count (Reg.ETH_RX_OTHER n)

/-- An ARP packet on lane M (R324): a request for WELL_MGMT_IP is answered, on port number 2. -/
def Chip.arpLaneM (c : Chip) (sender target : Nat) (request : Bool) : Chip :=
  let ip := c.nat Reg.WELL_MGMT_IP
  if c.isSender && c.flag .WELL_MGMT_CFG_EN && c.flag .WELL_MGMT_STAT_LINK && ip != 0 && request && target == ip then
    c.emit (.eth 2 5 [ip, sender] none)
  else c

/-- A UDP packet reaches every context it matches whose form it has (R146–R148), stamped with the domain time of its arrival
(R157); one that matches none is outside the subset (R144). -/
def Chip.videoIn (c : Chip) (n dst src udp pt : Nat) (form : PayForm) (q : Pkt) : Chip :=
  let dsts := ctxNames.filter fun m => c.ctxTakes m.1 m.2 n dst src udp pt
  if dsts.isEmpty then c.count (Reg.ETH_RX_OTHER n)
  else
    let q := { q with at_ := c.bell.time }
    let fit := dsts.filter fun m => (c.ctxSet false m.1 m.2).takesForm form q.segs.length
    (c.ethGood n).each fit fun c m => c.packetIn m.1 m.2 n q

/-- The high bit error ratio condition of a port (R163). -/
def Chip.hiBer (c : Chip) (n : Nat) (on : Bool) : Chip :=
  if c.ethHere n && c.flag (.ETH_STAT_HI_BER n) != on then
    (c.put (.ETH_STAT_HI_BER n) (if on then 1 else 0)).when on fun c => c.raise (.ETH_HI_BER n)
  else c

/-- Time passes up to the end of a context's hold (R159). -/
def Chip.holdElapse (c : Chip) (p k : Nat) : Chip :=
  if c.ctxState p k = 3 ∧ c.get (.INGEST_CTX_HOLD_MS p k) ≠ 0 then
    c.elapseAge ((c.ctx p k).holdAt + ms (c.get (.INGEST_CTX_HOLD_MS p k)))
  else c

/-- ETH_LINK_UP: R144–R146: an Ethernet port’s PCS comes up. -/
def execEthLinkUp (n : Nat) (s : State) : Host.Outcome State Fault Refusal :=
  s.run (.ethLinkUp n) fun c => c.ethComesUp n

/-- ETH_LINK_DOWN: R144: an Ethernet port’s PCS goes down. -/
def execEthLinkDown (n : Nat) (s : State) : Host.Outcome State Fault Refusal :=
  s.run (.ethLinkDown n) fun c => c.ethGoesDown n

/-- ARP_RECEIVE: R145, R324: an ARP packet on an Ethernet port, or (port 2) on lane M. -/
def execArpReceive (n sender target : Nat) (request : Bool) (f : EthFrame) (s : State) : Host.Outcome State Fault Refusal :=
  s.run (.arpReceive n sender target request f) fun c =>
    if n = 2 then (if f.fcs then c.arpLaneM sender target request else c) else c.ethIn n f fun c => c.arpIn n sender target request

/-- IGMP_QUERY: R146: a general or group query is answered with reports. -/
def execIgmpQuery (n : Nat) (group : Option Nat) (f : EthFrame) (s : State) : Host.Outcome State Fault Refusal :=
  s.run (.igmpQuery n group f) fun c => c.ethIn n f fun c => (c.ethGood n).joinAll n group

/-- IGMP_JOIN: R146: the next join or leave that is due is sent. -/
def execIgmpJoin (s : State) : Host.Outcome State Fault Refusal :=
  s.run (.igmpJoin) fun c => c.igmpJoin

/-- IGMP_REPEAT: R146: the robustness repeat of a join. -/
def execIgmpRepeat (s : State) : Host.Outcome State Fault Refusal :=
  s.run (.igmpRepeat) fun c => c.igmpRepeat

/-- VIDEO_PACKET: R144, R146–R149, R151–R158, R160, R161: a frame with an RTP packet, or with something outside R144. -/
def execVideoPacket (n : Nat) (f : EthFrame) (net : NetKind) (dst src udp pt : Nat) (form : PayForm) (q : Pkt) (dt : Nat) (s : State) : Host.Outcome State Fault Refusal :=
  s.run (.videoPacket n f net dst src udp pt form q dt) fun c => (c.elapse dt).ethIn n f fun c =>
    if net = .udp then c.videoIn n dst src udp pt form q else c.count (Reg.ETH_RX_OTHER n)

/-- STREAM_LOST: R148, R159: no valid packet for 100 ms. -/
def execStreamLost (p k : Nat) (s : State) : Host.Outcome State Fault Refusal :=
  s.run (.streamLost p k) fun c => c.streamLost p k

/-- PATH_LOST: R149: one merged path without packets for 100 ms. -/
def execPathLost (p k n : Nat) (s : State) : Host.Outcome State Fault Refusal :=
  s.run (.pathLost p k n) fun c => c.pathLost p k n

/-- FILL_TIMEOUT: R159: HOLD.MS elapses in HOLDING. -/
def execFillTimeout (p k : Nat) (s : State) : Host.Outcome State Fault Refusal :=
  s.run (.fillTimeout p k) fun c => (c.holdElapse p k).fillOn p k

/-- CRAM_DATA_WRITE: R154, R155: a write of INGEST_CRAM_DATA. -/
def execCramDataWrite (rq : Requester) (p : Nat) (v : Word) (s : State) : Host.Outcome State Fault Refusal :=
  s.run (.cramDataWrite rq p v) fun c => c.regWrite rq (Reg.INGEST_CRAM_DATA p) v noVerdict

/-- CRAM_DATA_READ: R154: a read of INGEST_CRAM_DATA. -/
def execCramDataRead (rq : Requester) (p : Nat) (s : State) : Host.Outcome State Fault Refusal :=
  s.run (.cramDataRead rq p) fun c => c.readOut rq (Reg.INGEST_CRAM_DATA p)

/-- ETH_HI_BER: R163: the PCS enters or leaves its high bit error ratio condition. -/
def execEthHiBer (n : Nat) (on : Bool) (s : State) : Host.Outcome State Fault Refusal :=
  s.run (.ethHiBer n on) fun c => c.hiBer n on

end Sys2Proof.Machine
end

