-- ==== Sys2Proof/Machine/LampRows.lean ====
section
/-!
DEFINITION. The Lamplighter: the grid and its row slots, samples, pin tests and the fault list (R230–R248).
-/

namespace Sys2Proof.Machine

/-- SWEEP_MIN minutes have passed since the last sweep (R246); a sweep that falls due during a test waits for its end (R248). -/
def Chip.sweepDue (c : Chip) : Chip :=
  let m := c.get .LAMP_FAULT_CFG_SWEEP_MIN
  if c.isTile && c.enabled 0xa6 && decide (c.pwr.target = .run) && m != 0 then
    let c := c.elapseAge (c.lamp.sweepAt + ms (m * 60000))
    if c.testing then c else c.sweepStart
  else c

/-- I_IREF is measured (R233): every 1 ms while the LAMP common page is enabled. -/
def Chip.irefIn (c : Chip) (i dt : Nat) : Chip :=
  if c.isTile && c.enabled 0xa6 then (c.elapse dt).irefMeasure i else c

/-- GRID_END: R240: no tick by the end of the grid, so the next grid starts there. -/
def execGridEnd (s : State) : Host.Outcome State Fault Refusal :=
  s.run (.gridEnd) fun c => if c.isTile && (c.enabled 0xa6 || c.tile.locator) then c.gridEnd else c

/-- ROW_SLOT: R234–R239, R244–R246: the next row slot, with the rows whose readback differs, the currents of the groups, and what a pin test finds. -/
def execRowSlot (bad : List Nat) (micro : List (Nat × Nat)) (short : Bool) (s : State) : Host.Outcome State Fault Refusal :=
  s.run (.rowSlot bad micro short) fun c => if c.isTile then c.rowSlot bad micro short else c

/-- PULSE_SAMPLE: R243: the voltage of a column pin at the end of a pulse of the last slot. -/
def execPulseSample (p mv : Nat) (s : State) : Host.Outcome State Fault Refusal :=
  s.run (.pulseSample p mv) fun c => if c.isTile then c.pulseSample p mv else c

/-- IREF_MEASURE: R233: I_IREF in units of 10 nA. -/
def execIrefMeasure (cur dt : Nat) (s : State) : Host.Outcome State Fault Refusal :=
  s.run (.irefMeasure cur dt) fun c => c.irefIn cur dt

/-- SWEEP_DUE: R246, R248: SWEEP_MIN minutes have passed. -/
def execSweepDue (s : State) : Host.Outcome State Fault Refusal :=
  s.run (.sweepDue) fun c => c.sweepDue

/-- SWEEP_START: R246, R248: a write of LAMP_SWEEP_CTRL.START. -/
def execSweepStart (rq : Requester) (s : State) : Host.Outcome State Fault Refusal :=
  s.run (.sweepStart rq) fun c => c.regWrite rq Reg.LAMP_SWEEP_CTRL 1 noVerdict

/-- FAULT_LIST_CLEAR: R247: a write of LAMP_FAULT_IDX.CLEAR. -/
def execFaultListClear (rq : Requester) (s : State) : Host.Outcome State Fault Refusal :=
  s.run (.faultListClear rq) fun c => c.regWrite rq Reg.LAMP_FAULT_IDX 0x80000000 noVerdict

/-- PIN_FAULT_CLEAR: R244, R246: a write of LAMP_PINFLT clears the bits written 0. -/
def execPinFaultClear (rq : Requester) (g k : Nat) (v : Word) (s : State) : Host.Outcome State Fault Refusal :=
  s.run (.pinFaultClear rq g k v) fun c => c.regWrite rq (Reg.LAMP_PINFLT g k) v noVerdict

/-- DESCRIPTOR_CHANGE: R10, R18, R248: the sender’s configuration brings a descriptor, or takes it back and the panel card’s applies. -/
def execDescriptorChange (cfg card : Option (List Byte)) (s : State) : Host.Outcome State Fault Refusal :=
  s.run (.descriptorChange cfg card) fun c => c.descriptorChange cfg card

end Sys2Proof.Machine
end

