-- ==== Sys2Proof/Machine/LaneRows.lean ====
section
/-!
DEFINITION. The Ronuno lanes: bring-up and loss of links, markers, eyes, loopbacks and PRBS (R83–R104).
-/

namespace Sys2Proof.Machine

/-- One UI in units of 2^−8 ns, rounded down: 155.15, 77.58 or 38.79 ps (R83). -/
def uiOf (rate : Nat) : Nat := if rate = 0 then 39 else if rate = 1 then 19 else 9

/-- A tile whose ports are both UP shows its residence: constant until a port leaves UP, at most the bound of R110, and from one
bring-up to the next at most 1 UI apart: the part's own value for the rate with a free value of up to 1 UI (log entry 5). -/
def Chip.hopDelay (c : Chip) : Chip :=
  if c.isTile && c.linkUpAt 0 && c.linkUpAt 1 then
    let r := c.rateCode 0
    let d := Config.hop r % (hopMax r * 256 - uiOf r + 1) + c.drawn % (uiOf r + 1)
    ((c.setNat (Reg.CHAIN_HOP_DLY 0) d).setNat (Reg.CHAIN_HOP_DLY 1) d).redraw
  else c

/-- A port reaches UP (R98). -/
def Chip.portComesUp (c : Chip) (q h : Nat) : Chip :=
  if c.portState q h = 5 then (c.portUp q h).hopDelay else c

/-- The first forward marker of a multiple of 16 after a tick is stamped at both ends of a link with the return marker of the
same SEQ (R132): `gap` is the time between the two at this end. A tile stamps B1 and B2 on its upstream port, A1 and A2
downstream; a sender A1 and A2 on each chain port. Stamps count 2^−4 ns modulo 2^32. -/
def Chip.stampMarker (c : Chip) (q h seq gap : Nat) : Chip :=
  let now := c.bell.time
  let units := fun (t : Nat) => t / 4096 % 2 ^ 32
  let tick := c.lastIndex + 1
  if seq % 16 ≠ 0 ∨ c.bell.tick = none then c
  else if c.isTile then
    if q ≠ 0 then c
    else if h = c.upPort then
      if c.tile.stampTick = tick then c
      else c.onTile fun t => { t with stampTick := tick, stampU := (seq, units now, units (now + gap)) }
    else if seq = c.tile.stampU.1 then c.onTile fun t => { t with stampD := (seq, units (now - gap), units now) }
    else c
  else if q < 8 then
    let n := 2 * q + h
    if (c.port n).stampTick = tick then c
    else (c.onPort n fun p => { p with stampTick := tick }).ownStamps n seq (units (now - gap)) (units now)
  else c

/-- Time passes up to the expiry of a quad's loopback timer. -/
def Chip.lbElapse (c : Chip) (q : Nat) : Chip :=
  match (c.quad q).lbAt with
  | some a => c.elapseAge (a + ms (c.get (.SERDES_LB_TIMEOUT q)))
  | none => c

/-- CHK_EN of SERDES_Lk_PRBS. -/
def chkBit : Word := 0x800

/-- A tile takes out each marker it receives and puts its own, with the SEQ received, in the stream it forwards (R90); both lanes carry
theirs in one slot, which the marker of LANE 0 stands for. While it is the tail it sources its return markers itself, with the SEQ of
the forward markers (R132, R138), and passes none up. -/
def Chip.passMarker (c : Chip) (q k seq : Nat) : Chip :=
  let p := k / 2
  if c.isTile && q == 0 && c.laneState q k == 6 && c.get (.SERDES_L_STAT_LANE_ID q k) == 0 then
    if c.tile.up == some p then
      (c.sendMarkers (1 - p) seq).when (c.flag (.CHAIN_STATE_TAIL p)) fun c => c.sendMarkers p seq
    else c.when (!c.flag (.CHAIN_STATE_TAIL c.upPort)) fun c => c.sendMarkers (1 - p) seq
  else c

/-- A marker period has been received on lane `k` of a quad (R85 to R90, R99, R132): what it counts, the marker passed on, the stamps,
and the loss of the port by a criterion of R99. `gap` is the time between forward and return marker at this end. -/
def Chip.marker (c : Chip) (q k : Nat) (l : List Block) (m : Block) (gap : Nat) : Chip :=
  let x := c.markerIn q k l m
  let u := listAt (c.upright q k [m]) 0 m
  if x.2 then x.1.portDown q (k / 2)
  else if u.isMarker then
    let c := x.1.passMarker q k u.seq
    if c.laneState q k = 6 ∧ k % 2 = 0 then c.stampMarker q (k / 2) u.seq gap else c
  else x.1

/-- PLL_LOCK: R98, R100: a quad’s PLL locks, and its ports go from DOWN to DETECT. -/
def execPllLock (q : Nat) (s : State) : Host.Outcome State Fault Refusal :=
  s.run (.pllLock q) fun c => c.pllLock q

/-- PLL_UNLOCK: R104: a quad’s PLL loses lock. -/
def execPllUnlock (q : Nat) (s : State) : Host.Outcome State Fault Refusal :=
  s.run (.pllUnlock q) fun c => c.pllUnlock q

/-- SIGNAL_DETECT: R91, R98: signal at a rate code and a spread on a port in DETECT. -/
def execSignalDetect (q h rate spread : Nat) (s : State) : Host.Outcome State Fault Refusal :=
  s.run (.signalDetect q h rate spread) fun c => (c.idleEnd q h).signalAt q h rate spread

/-- CDR_LOCK: R91, R98: CDR locks, `ppm` off the own reference. -/
def execCdrLock (q h : Nat) (ppm : Int) (s : State) : Host.Outcome State Fault Refusal :=
  s.run (.cdrLock q h ppm) fun c => c.cdrLocked q h ppm

/-- BLOCK_LOCK: R98: the sync headers received on each lane end in 64 valid ones. -/
def execBlockLock (q h : Nat) (hdrs0 hdrs1 : List Nat) (s : State) : Host.Outcome State Fault Refusal :=
  s.run (.blockLock q h hdrs0 hdrs1) fun c => c.blockLocked q h hdrs0 hdrs1

/-- MARKER_LOCK: R86, R89, R98: the blocks in two marker slots of each lane fix lane order, polarity and skew. -/
def execMarkerLock (q h : Nat) (a b : Block × Block) (skew : Int) (s : State) : Host.Outcome State Fault Refusal :=
  s.run (.markerLock q h a b skew) fun c => c.markerLocked q h a b skew

/-- LINK_UP: R11, R98, R110, R134, R138: a port reaches UP. -/
def execLinkUp (q h : Nat) (s : State) : Host.Outcome State Fault Refusal :=
  s.run (.linkUp q h) fun c => c.portComesUp q h

/-- LINK_DOWN: R91, R92, R99, R134, R135: a loss criterion takes a port to DETECT. -/
def execLinkDown (q h : Nat) (w : Loss) (s : State) : Host.Outcome State Fault Refusal :=
  s.run (.linkDown q h w) fun c => c.lineLost q h w

/-- ALIGNMENT_MARKER: R85–R90, R99, R132: a marker period of a lane, as the blocks after the marker before and the block in the marker
slot. -/
def execAlignmentMarker (q k : Nat) (blocks : List Block) (m : Block) (gap dt : Nat) (s : State) : Host.Outcome State Fault Refusal :=
  s.run (.alignmentMarker q k blocks m gap dt) fun c => (c.elapse dt).marker q k blocks m gap

/-- EYE_MEASURE: R97, R104: the eye of a lane is measured, and a tile's upstream frequency over the same millisecond. -/
def execEyeMeasure (q k width height : Nat) (ppm : Int) (s : State) : Host.Outcome State Fault Refusal :=
  s.run (.eyeMeasure q k width height ppm) fun c => c.eyeMeasured q k width height ppm

/-- RXEQ_WRITE: R97, R267: a write of SERDES_Lk_RXEQ. -/
def execRxeqWrite (rq : Requester) (q k : Nat) (v : Word) (s : State) : Host.Outcome State Fault Refusal :=
  s.run (.rxeqWrite rq q k v) fun c => c.regWrite rq (Reg.SERDES_L_RXEQ q k) v noVerdict

/-- SSC_SET: R93: a write of SERDES_SSC, taken while the quad is disabled, so that its chains go down for it and come up again. -/
def execSscSet (rq : Requester) (q : Nat) (v : Word) (s : State) : Host.Outcome State Fault Refusal :=
  s.run (.sscSet rq q v) fun c => c.regWrite rq (Reg.SERDES_SSC q) v noVerdict

/-- MONITOR_SOURCE_SET: R95: a write of SERDES_MON. -/
def execMonitorSourceSet (rq : Requester) (v : Word) (s : State) : Host.Outcome State Fault Refusal :=
  s.run (.monitorSourceSet rq v) fun c => c.regWrite rq (Reg.SERDES_MON 10) v noVerdict

/-- LOOPBACK_SET: R101, R102: a write of SERDES_LB. -/
def execLoopbackSet (rq : Requester) (q : Nat) (v : Word) (s : State) : Host.Outcome State Fault Refusal :=
  s.run (.loopbackSet rq q v) fun c => c.regWrite rq (Reg.SERDES_LB q) v noVerdict

/-- LOOPBACK_TIMEOUT: R102: SERDES_LB.TIMEOUT expires. -/
def execLoopbackTimeout (q : Nat) (s : State) : Host.Outcome State Fault Refusal :=
  s.run (.loopbackTimeout q) fun c => (c.lbElapse q).lbExpire q

/-- PRBS_GENERATOR_SET: R102, R103: a write of SERDES_Lk_PRBS. -/
def execPrbsGeneratorSet (rq : Requester) (q k : Nat) (v : Word) (s : State) : Host.Outcome State Fault Refusal :=
  s.run (.prbsGeneratorSet rq q k v) fun c => c.regWrite rq (Reg.SERDES_L_PRBS q k) v noVerdict

/-- PRBS_CHECKER_ENABLE: R103: CHK_EN is written 1 beside the fields as they stand. -/
def execPrbsCheckerEnable (rq : Requester) (q k : Nat) (s : State) : Host.Outcome State Fault Refusal :=
  s.run (.prbsCheckerEnable rq q k) fun c => c.regWrite rq (Reg.SERDES_L_PRBS q k) (c.rd (Reg.SERDES_L_PRBS q k) ||| chkBit) noVerdict

/-- PRBS_CHECKER_LOCK: R101, R103: bits arrive on a lane, and its checker locks on them and counts errors. -/
def execPrbsCheckerLock (q k : Nat) (bits : List Bool) (s : State) : Host.Outcome State Fault Refusal :=
  s.run (.prbsCheckerLock q k bits) fun c => c.prbsBitsIn q k bits

end Sys2Proof.Machine
end

