-- ==== Sys2Proof/Machine/LoomRows.lean ====
section
/-!
DEFINITION. Loom, scanout and the memories of the map and the correction (R175–R195, R217–R219).
-/

namespace Sys2Proof.Machine

/-- GRP_PWR_WRITE: R177, R191: a write of LOOM_GRP_PWR. -/
def execGrpPwrWrite (rq : Requester) (v : Word) (s : State) : Host.Outcome State Fault Refusal :=
  s.run (.grpPwrWrite rq v) fun c => c.regWrite rq Reg.LOOM_GRP_PWR v noVerdict

/-- GRP_READY: R177: a powered fetch group becomes ready. -/
def execGrpReady (g : Nat) (s : State) : Host.Outcome State Fault Refusal :=
  s.run (.grpReady g) fun c => c.grpReadyNow g

/-- LUT_DATA_WRITE: R175, R176: a write of LOOM_LUT_DATA. -/
def execLutDataWrite (rq : Requester) (v : Word) (s : State) : Host.Outcome State Fault Refusal :=
  s.run (.lutDataWrite rq v) fun c => c.regWrite rq Reg.LOOM_LUT_DATA v noVerdict

/-- LUT_DATA_READ: R175: a read of LOOM_LUT_DATA. -/
def execLutDataRead (rq : Requester) (s : State) : Host.Outcome State Fault Refusal :=
  s.run (.lutDataRead rq) fun c => c.readOut rq Reg.LOOM_LUT_DATA

/-- FENCE_INC: R181: a write of LOOM_FENCE_INC. -/
def execFenceInc (rq : Requester) (v : Word) (s : State) : Host.Outcome State Fault Refusal :=
  s.run (.fenceInc rq v) fun c => c.regWrite rq Reg.LOOM_FENCE_INC v noVerdict

/-- FENCE_TIMEOUT: R183, R184: at its tick a held commit times out, with everything due in the same instant. -/
def execFenceTimeout (s : State) : Host.Outcome State Fault Refusal :=
  s.run (.fenceTimeout) fun c => c.applyDue (!c.fencesOver.isEmpty)

/-- FENCE_CANCEL: R183: a write of LOOM_LYR_FENCE_CANCEL. -/
def execFenceCancel (rq : Requester) (layer : Nat) (s : State) : Host.Outcome State Fault Refusal :=
  s.run (.fenceCancel rq layer) fun c => c.regWrite rq (Reg.LOOM_LYR_FENCE_CANCEL layer) 1 noVerdict

/-- FLIP_GROUP_WRITE: R184: a write of LOOM_FLIP_GROUP. -/
def execFlipGroupWrite (rq : Requester) (v : Word) (s : State) : Host.Outcome State Fault Refusal :=
  s.run (.flipGroupWrite rq v) fun c => c.regWrite rq Reg.LOOM_FLIP_GROUP v noVerdict

/-- SCAN_LINE: R120, R188–R193, R197–R203: scanout’s next line, with the pixel from which layer data was missing and the lowest fills seen. -/
def execScanLine (under : Option Nat) (fills : List (Nat × Nat)) (s : State) : Host.Outcome State Fault Refusal :=
  s.run (.scanLine under fills) fun c => c.scanLine under fills

/-- MAP_DATA_WRITE: R194, R195: a write of SCAN_MAP_DATA. -/
def execMapDataWrite (rq : Requester) (v : Word) (s : State) : Host.Outcome State Fault Refusal :=
  s.run (.mapDataWrite rq v) fun c => c.regWrite rq Reg.SCAN_MAP_DATA v noVerdict

/-- MAP_DATA_READ: R194: a read of SCAN_MAP_DATA. -/
def execMapDataRead (rq : Requester) (s : State) : Host.Outcome State Fault Refusal :=
  s.run (.mapDataRead rq) fun c => c.readOut rq Reg.SCAN_MAP_DATA

/-- FILL_MIN_READ: R191: a read of SCAN_FILL_MIN re-arms all four. -/
def execFillMinRead (rq : Requester) (s : State) : Host.Outcome State Fault Refusal :=
  s.run (.fillMinRead rq) fun c => c.readOut rq Reg.SCAN_FILL_MIN

/-- CORR_MEM_DATA_WRITE: R217, R219, R220: a write of CORR_MEM_DATA. -/
def execCorrMemDataWrite (rq : Requester) (v : Word) (s : State) : Host.Outcome State Fault Refusal :=
  s.run (.corrMemDataWrite rq v) fun c => c.regWrite rq Reg.CORR_MEM_DATA v noVerdict

/-- CORR_MEM_DATA_READ: R217: a read of CORR_MEM_DATA. -/
def execCorrMemDataRead (rq : Requester) (s : State) : Host.Outcome State Fault Refusal :=
  s.run (.corrMemDataRead rq) fun c => c.readOut rq Reg.CORR_MEM_DATA

end Sys2Proof.Machine
end

