-- ==== Sys2Proof/Machine/PowerRows.lean ====
section
/-!
DEFINITION. The power sequencer, Weathervane and a sender’s start (R349, R394–R412).
-/

namespace Sys2Proof.Machine

/-- A write of PWR_STATE_CTRL (R403). -/
def Chip.stateOp (c : Chip) (rq : Requester) (target : Nat) (atTick : Bool) : Chip :=
  c.regWrite rq Reg.PWR_STATE_CTRL (BitVec.ofNat 32 (target + (if atTick then 256 else 0))) noVerdict

/-- The age at which a domain last reached a safe point. -/
def Chip.lastSafe (c : Chip) : Nat := c.pwr.safe.foldl (fun m x => max m x.2.1) 0

/-- Time passes to the end of a dwell that holds a step back (R397). -/
def Chip.dwellElapse (c : Chip) : Chip :=
  if c.pwr.held then c.elapseAge (c.lastSafe + us (max 20 (c.get .PWR_DWELL_US))) else c

/-- Time passes in Deep to the expiry of the wake timer (R405). -/
def Chip.wakeElapse (c : Chip) : Chip :=
  if c.pwr.state = .deep ∧ c.nat Reg.PWR_WAKE_TIMER ≠ 0 then c.elapseAge (c.pwr.deepAt + ms (1000 * c.nat Reg.PWR_WAKE_TIMER)) else c

/-- Time passes in an orderly stop: 500 ms to Dim (R410). -/
def Chip.orderlyElapse (c : Chip) : Chip :=
  match c.wx.orderlyAt with
  | some a => if c.level = 2 then c.elapseAge (a + ms 500) else c
  | none => c

/-- Time passes to 10 s below WARN_C (R408). -/
def Chip.coolElapse (c : Chip) : Chip :=
  match c.wx.coolAt with
  | some a => if c.level = 2 then c.elapseAge (a + ms 10000) else c
  | none => c

/-- STATE_REQUEST_RUN: R403, R404: PWR_STATE_CTRL with TARGET RUN. -/
def execStateRequestRun (rq : Requester) (atTick : Bool) (s : State) : Host.Outcome State Fault Refusal :=
  s.run (.stateRequestRun rq atTick) fun c => c.stateOp rq 2 atTick

/-- STATE_REQUEST_DIM: R403, R404: PWR_STATE_CTRL with TARGET DIM. -/
def execStateRequestDim (rq : Requester) (atTick : Bool) (s : State) : Host.Outcome State Fault Refusal :=
  s.run (.stateRequestDim rq atTick) fun c => c.stateOp rq 3 atTick

/-- STATE_REQUEST_DEEP: R403, R405, R406: PWR_STATE_CTRL with TARGET DEEP. -/
def execStateRequestDeep (rq : Requester) (atTick : Bool) (s : State) : Host.Outcome State Fault Refusal :=
  s.run (.stateRequestDeep rq atTick) fun c => c.stateOp rq 4 atTick

/-- STATE_REQUEST_AT_TICK: R403: a request that waited for its tick is judged and takes effect. -/
def execStateRequestAtTick (s : State) : Host.Outcome State Fault Refusal :=
  s.run (.stateRequestAtTick) fun c => c.stateAtTick

/-- DOMAIN_STEP_DONE: R394–R397, R400: a domain reaches its safe point. -/
def execDomainStepDone (s : State) : Host.Outcome State Fault Refusal :=
  s.run (.domainStepDone) fun c => c.stepDone

/-- DOMAIN_RETRY: R394: power good is not reached: one retry, then the domain has failed. -/
def execDomainRetry (s : State) : Host.Outcome State Fault Refusal :=
  s.run (.domainRetry) fun c => c.stepFail

/-- SRAM_INIT_DONE: R400, R361: a domain’s arrays are initialised. -/
def execSramInitDone (d : Nat) (s : State) : Host.Outcome State Fault Refusal :=
  s.run (.sramInitDone d) fun c => c.sramDone d

/-- A wake source in Deep (R405): the timer at its expiry, GPIO0 and RST_N once low for 4 samples, a signal on lane M or a chain port. -/
def Chip.wakeFrom (c : Chip) (src low : Nat) : Chip :=
  if src = 0 then c.wakeElapse.wakeTimer
  else if (src = 1 ∨ src = 4) ∧ low < 4 then c
  else c.wakeBy src

/-- DEEP_WAKE: R405: a wake source: 0 timer, 1 GPIO0, 2 lane M, 3 chain, 4 RST_N; `low` the samples a pin has been low. -/
def execDeepWake (src low : Nat) (s : State) : Host.Outcome State Fault Refusal :=
  s.run (.deepWake src low) fun c => c.wakeFrom src low

/-- WAKE_TIMER: R405: PWR_WAKE_TIMER expires in Deep. -/
def execWakeTimer (s : State) : Host.Outcome State Fault Refusal :=
  s.run (.wakeTimer) fun c => c.wakeElapse.wakeTimer

/-- TILE_DEEP_ENTRY: R406: a tile enters Deep. -/
def execTileDeepEntry (s : State) : Host.Outcome State Fault Refusal :=
  s.run (.tileDeepEntry) fun c => c.tileDeep

/-- Time passes to the next reading of the diode, 125 µs after the one before (R407). -/
def Chip.readingElapse (c : Chip) : Chip :=
  if c.domOn 9 then
    let c := c.elapseAge (c.wx.readAt + us 125)
    c.onWx fun w => { w with readAt := c.age }
  else c

/-- Time passes to the next update of T_f, 1 ms after the one before (R407). -/
def Chip.tfElapse (c : Chip) : Chip :=
  if c.domOn 9 then
    let c := c.elapseAge (c.wx.tfAt + ms 1)
    c.onWx fun w => { w with tfAt := c.age }
  else c

/-- TEMP_READING: R407, R412: a reading of the diode in 1/16 °C. -/
def execTempReading (raw : Int) (fault : Bool) (s : State) : Host.Outcome State Fault Refusal :=
  s.run (.tempReading raw fault) fun c => c.readingElapse.tempReading raw fault

/-- TF_UPDATE: R407–R409: T_f is updated and sets the level and DERATE. -/
def execTfUpdate (s : State) : Host.Outcome State Fault Refusal :=
  s.run (.tfUpdate) fun c => c.tfElapse.tfUpdate

/-- ORDERLY_DIM: R410: 500 ms into the orderly stop. -/
def execOrderlyDim (s : State) : Host.Outcome State Fault Refusal :=
  s.run (.orderlyDim) fun c => c.orderlyElapse.orderlyDim

/-- ORDERLY_END: R408, R410: T_f has stayed below WARN_C for 10 s. -/
def execOrderlyEnd (s : State) : Host.Outcome State Fault Refusal :=
  s.run (.orderlyEnd) fun c => c.coolElapse.orderlyEnd

/-- THERMAL_TRIP: R408, R411: the comparator's reading in 1/16 °C and for how many µs it has held: 130 °C for 10 µs trips. -/
def execThermalTrip (temp : Int) (held : Nat) (s : State) : Host.Outcome State Fault Refusal :=
  s.run (.thermalTrip temp held) fun c => if 2080 ≤ temp ∧ 10 ≤ held then c.trip else c

/-- TRIP_RESTART: R411: the comparator has read below 100 °C for 10 s. -/
def execTripRestart (s : State) : Host.Outcome State Fault Refusal :=
  s.run (.tripRestart) fun c => (if c.pwr.state = .offTrip then c.elapse (ms 10000) else c).tripRestart

/-- WEATHER_PEAK_READ: R407: a read of WEATHER_PEAK re-arms it. -/
def execWeatherPeakRead (rq : Requester) (s : State) : Host.Outcome State Fault Refusal :=
  s.run (.weatherPeakRead rq) fun c => c.readOut rq Reg.WEATHER_PEAK

/-- SENDER_FIRMWARE_START: R349, R375, R380, R398: a sender’s boot ROM has read, verified and measured its image and configuration. -/
def execSenderFirmwareStart (okA okB formatOk : Bool) (flash : Flash) (s : State) : Host.Outcome State Fault Refusal :=
  s.run (.senderFirmwareStart okA okB formatOk flash) fun c => c.senderBoot okA okB formatOk flash

/-- DWELL_ELAPSED: R397: PWR_DWELL has passed. -/
def execDwellElapsed (s : State) : Host.Outcome State Fault Refusal :=
  s.run (.dwellElapsed) fun c => c.dwellElapse.dwellDone

end Sys2Proof.Machine
end

