-- ==== Sys2Proof/Machine/TileCommands.lean ====
section
/-!
DEFINITION. Commands that a tile takes from its chain (R44, R108, R109, R115–R118, R205, R219, R305, R353, R383).
-/

namespace Sys2Proof.Machine

/-- Words read from an address upward: their bytes, and whether one was a fabric error (R44). -/
def Chip.chainReads (c : Chip) (a : Nat) : Nat → Chip × List Byte × Bool
  | 0 => (c, [], false)
  | n + 1 =>
    let bad := c.fabricCause .chain a false != 0
    let r := c.regRead .chain a
    let x := r.1.chainReads (a + 4) n
    (x.1, leBytes 4 r.2.toNat ++ x.2.1, bad || x.2.2)

/-- Words written from an address upward in ascending order, and whether one was a fabric error (R44). -/
def Chip.chainWrites (c : Chip) (a : Nat) : List Nat → Chip × Bool
  | [] => (c, false)
  | v :: l =>
    let bad := c.fabricCause .chain a true != 0
    let x := (c.regWriteAny .chain a (BitVec.ofNat 32 v)).chainWrites (a + 4) l
    (x.1, bad || x.2)

/-- The words of a run of bytes, least significant byte first. -/
def wordsOf (n : Nat) (d : List Byte) : List Nat := (List.range n).map fun k => leNat ((d.drop (4 * k)).take 4)

/-- REG_RD at a tile: COUNT ÷ 4 words from ADDR (R44, R115). -/
def Chip.regRdIn (c : Chip) (x : Cmd) : Chip × Ans :=
  let r := c.chainReads x.addr (x.data.length / 4)
  (r.1, ⟨if r.2.2 then 1 else 0, if r.2.2 then 2 else 0, r.2.1⟩)

/-- REG_WR at a tile (R44, R115); one that asks for Deep leaves its TOKEN for R406. -/
def Chip.regWrIn (c : Chip) (x : Cmd) : Chip × Ans :=
  let deep := (wordsOf (x.data.length / 4) x.data).zipIdx.any fun w => x.addr + 4 * w.2 == Reg.PWR_STATE_CTRL && w.1 % 8 == 4
  let c := c.when deep fun c => c.onPwr fun p => { p with deepTok := some x.token }
  let r := c.chainWrites x.addr (wordsOf (x.data.length / 4) x.data)
  (r.1, if r.2 then ansFail 2 else ansOk)

/-- The outcome of a claim or release (R353). -/
def claimAns (r : Chip × Nat) : Chip × Ans := (r.1, if r.2 = 0 then ansOk else ansFail r.2)

/-- An ACTION at a tile by its number (R115): a claim and a release (R353), a release of images (R383), the burn of R387; an
action the tile does not know completes FAILED with UNKNOWN_OP. `sig` is whether the owner's signature verifies, `burn`
whether what is burned reads back. -/
def Chip.actionIn (c : Chip) (x : Cmd) (sig burn : Bool) : Chip × Ans :=
  let hash := Config.sha384 (x.data.take 97)
  match x.addr with
  | 0x101 => claimAns (c.claim hash sig burn)
  | 0x102 => claimAns (c.releaseClaim hash sig burn)
  | 0x201 => c.actArmIn x
  | 0x202 => c.actGoIn
  | 0x203 => c.actAbortIn
  | 0x204 => c.burnIn x
  | _ => (c, ansFail 1)

/-- A forward cell at a tile's port; at a sender's it is checked, and counted for the wrong direction (R107). -/
def Chip.forwardCell (c : Chip) (port : Nat) (x : Cell) (h : Hdr) (rx : Rx) (f : Chip → Chip) : Chip :=
  if c.isTile then (if port < 2 then f c else c)
  else if c.enabled (0x20 + port) then (c.checkCell port x h rx).1 else c

/-- A tagged command at a tile. -/
def Chip.tileCmd (c : Chip) (port : Nat) (h : Hdr) (x : Cmd) (rx : Rx) (amodes : List Nat) (run : Chip → Chip × Ans) : Chip :=
  c.forwardCell port (.command h x) h rx fun c => c.tagged port h x rx amodes run

/-- An untagged command at a tile. -/
def Chip.tileOpen (c : Chip) (port : Nat) (h : Hdr) (x : Cmd) (rx : Rx) (amode : Nat) (run : Chip → Chip) : Chip :=
  c.forwardCell port (.command h x) h rx fun c => c.untagged port h x rx amode run

/-- A RACK at a tile (R108, R131); its tag's IV has the index of the tick whose superframe it answers, which has not ended. -/
def Chip.rackCell (c : Chip) (port : Nat) (h : Hdr) (units : List Nat) (rx : Rx) : Chip :=
  let x := Cell.rack c.lastIndex units
  let c := c.passDown port x h rx
  let r := c.receive port x h rx
  if !r.2 || c.tile.session.isNone then r.1
  else if !r.1.tagOk x h rx then r.1.tagErr
  else r.1.rackIn units

/-- Block 0 of a superframe at a tile, with the CENSUS cell that arrived from downstream (R107, R128, R138, R139). -/
def Chip.censusBlock (c : Chip) (d : Option (Hdr × Rx)) : Chip :=
  if c.isTile && c.enabled 0x30 && c.servo != 0 then
    let c := c.superframe
    match d with
    | none => c.censusStep none
    | some x =>
      let r := c.checkCell c.downPort (.census x.1.dest) x.1 x.2
      r.1.censusStep (if r.2 then some x.1.dest else none)
  else c

/-- A start block of another unit passes a tile, or reaches a sender's port (R139). -/
def Chip.unitPasses (c : Chip) (port unit : Nat) (x : Cell) (h : Hdr) (rx : Rx) (off : Int) : Chip :=
  if c.isTile then (if port < 2 then c.unitForward port unit x h rx off else c)
  else if x.type = 0x78 then c.portForward port h.dest unit off else c

/-- REG_RD: R44, R115: COUNT ÷ 4 register words are read from ADDR and returned. -/
def execRegRd (port : Nat) (h : Hdr) (x : Cmd) (rx : Rx) (s : State) : Host.Outcome State Fault Refusal :=
  s.run (.regRd port h x rx) fun c => c.tileCmd port h x rx [0, 1, 2, 3] fun c => c.regRdIn x

/-- REG_WR: R44, R115: the words of DATA are written from ADDR upward. -/
def execRegWr (port : Nat) (h : Hdr) (x : Cmd) (rx : Rx) (s : State) : Host.Outcome State Fault Refusal :=
  s.run (.regWr port h x rx) fun c => c.tileCmd port h x rx [0, 1, 2, 3] fun c => c.regWrIn x

/-- BULK_WR: R115, R217–R219: DATA goes into the correction memory. -/
def execBulkWr (port : Nat) (h : Hdr) (x : Cmd) (rx : Rx) (s : State) : Host.Outcome State Fault Refusal :=
  s.run (.bulkWr port h x rx) fun c => c.tileCmd port h x rx [0, 1, 2, 3] fun c => c.bulkWrite x.addr x.data

/-- BULK_RD: R115, R217: COUNT bytes of the correction memory are returned. -/
def execBulkRd (port : Nat) (h : Hdr) (x : Cmd) (rx : Rx) (s : State) : Host.Outcome State Fault Refusal :=
  s.run (.bulkRd port h x rx) fun c => c.tileCmd port h x rx [0] fun c => (c, c.bulkRead x.addr x.data.length)

/-- ACTION: R115, R353, R383, R387: the firmware action ADDR. -/
def execAction (port : Nat) (h : Hdr) (x : Cmd) (rx : Rx) (sig burn : Bool) (s : State) : Host.Outcome State Fault Refusal :=
  s.run (.action port h x rx sig burn) fun c => c.tileCmd port h x rx [0, 1, 2, 3] fun c => c.actionIn x sig burn

/-- TEL_SUB: R305: a telemetry subscription is made or cancelled. -/
def execTelSub (port : Nat) (h : Hdr) (x : Cmd) (rx : Rx) (s : State) : Host.Outcome State Fault Refusal :=
  s.run (.telSub port h x rx) fun c => c.tileCmd port h x rx [0, 1, 2, 3] fun c => c.telSubIn x

/-- TELEMETRY_SAMPLE: R130, R305: a subscription’s tick count expires, and its words are sampled. -/
def execTelemetrySample (s : State) : Host.Outcome State Fault Refusal :=
  s.run (.telemetrySample) fun c => if c.isTile then c.telSample else c

/-- DISCOVER: R115, R116, R133: a HELLO waits for an answer unit. -/
def execDiscover (port : Nat) (h : Hdr) (x : Cmd) (rx : Rx) (s : State) : Host.Outcome State Fault Refusal :=
  s.run (.discover port h x rx) fun c => c.tileOpen port h x rx 3 fun c => c.discoverIn

/-- ANSWER_TRANSMIT: R133: the next answer goes out in its unit, or is deferred where a start block arrives there from downstream. -/
def execAnswerTransmit (busy : Bool) (s : State) : Host.Outcome State Fault Refusal :=
  s.run (.answerTransmit busy) fun c => if c.isTile then c.sendAnswer busy else c

/-- ID_REQ: R115, R116, R355: four ID_PART answers. -/
def execIdReq (port : Nat) (h : Hdr) (x : Cmd) (rx : Rx) (s : State) : Host.Outcome State Fault Refusal :=
  s.run (.idReq port h x rx) fun c => c.tileOpen port h x rx 1 fun c => c.idReqIn h x.data

/-- KEYX: R354, R356, R357: certificate, nonce, signature, claim and wrapped keys are judged; `cert`, `sig`, `owner` are whether the three signatures verify, `wrap` whether the keys unwrap. -/
def execKeyx (port : Nat) (h : Hdr) (x : Cmd) (rx : Rx) (cert sig owner wrap : Bool) (epoch : Nat) (next : Bool) (s : State) : Host.Outcome State Fault Refusal :=
  s.run (.keyx port h x rx cert sig owner wrap epoch next) fun c => c.tileOpen port h x rx 1 fun c => c.keyxIn h x.data cert sig owner wrap epoch next

/-- ASSIGN: R115, R135: WDN, slot units and return advance are taken. -/
def execAssign (port : Nat) (h : Hdr) (x : Cmd) (rx : Rx) (s : State) : Host.Outcome State Fault Refusal :=
  s.run (.assign port h x rx) fun c => c.tileCmd port h x rx [1] fun c => c.assignIn x

/-- ADMIT: R115, R135: pixel cells are accepted from the named tick. -/
def execAdmitTile (port : Nat) (h : Hdr) (x : Cmd) (rx : Rx) (s : State) : Host.Outcome State Fault Refusal :=
  s.run (.admitTile port h x rx) fun c => c.tileCmd port h x rx [0] fun c => c.admitIn x

/-- REKEY: R123, R358: the next epoch’s session key is derived. -/
def execRekey (port : Nat) (h : Hdr) (x : Cmd) (rx : Rx) (s : State) : Host.Outcome State Fault Refusal :=
  s.run (.rekey port h x rx) fun c => c.tileCmd port h x rx [3] fun c => c.rekeyIn x

/-- UNMUTE: R115, R139: a muted owner is to be muted no longer. -/
def execUnmute (port : Nat) (h : Hdr) (x : Cmd) (rx : Rx) (s : State) : Host.Outcome State Fault Refusal :=
  s.run (.unmute port h x rx) fun c => c.tileCmd port h x rx [0] fun c => c.unmuteIn x

/-- TAIL_OFF: R115, R138: the tail role is to end. -/
def execTailOff (port : Nat) (h : Hdr) (x : Cmd) (rx : Rx) (s : State) : Host.Outcome State Fault Refusal :=
  s.run (.tailOff port h x rx) fun c => c.tileCmd port h x rx [0] fun c => c.tailOffIn

/-- GROUPS: R115: the multicast groups are set. -/
def execGroups (port : Nat) (h : Hdr) (x : Cmd) (rx : Rx) (s : State) : Host.Outcome State Fault Refusal :=
  s.run (.groups port h x rx) fun c => c.tileCmd port h x rx [0] fun c => c.groupsIn x

/-- MODE_ARM: R23, R115: a switch of mode is armed. -/
def execModeArm (port : Nat) (h : Hdr) (x : Cmd) (rx : Rx) (s : State) : Host.Outcome State Fault Refusal :=
  s.run (.modeArm port h x rx) fun c => c.tileCmd port h x rx [0, 1, 2, 3] fun c => c.modeArmIn x

/-- MODE_GO: R23, R115: the go for the armed switch. -/
def execModeGo (port : Nat) (h : Hdr) (x : Cmd) (rx : Rx) (s : State) : Host.Outcome State Fault Refusal :=
  s.run (.modeGo port h x rx) fun c => c.tileCmd port h x rx [0, 1, 2, 3] fun c => c.modeGoIn

/-- MODE_ABORT: R23, R115: the armed switch is dropped. -/
def execModeAbort (port : Nat) (h : Hdr) (x : Cmd) (rx : Rx) (s : State) : Host.Outcome State Fault Refusal :=
  s.run (.modeAbort port h x rx) fun c => c.tileCmd port h x rx [0, 1, 2, 3] fun c => c.modeAbortIn

/-- BOOT_CELL: R118: a piece of an image arrives. -/
def execBootCell (port : Nat) (h : Hdr) (id off : Nat) (data : List Byte) (rx : Rx) (s : State) : Host.Outcome State Fault Refusal :=
  s.run (.bootCell port h id off data rx) fun c => c.forwardCell port (.boot h id off data) h rx fun c => c.bootIn port h id off data rx

/-- IMAGE_VERIFY_DONE: R349, R448: a whole image has been checked; `sig` is whether its signature verifies. -/
def execImageVerifyDone (sig : Bool) (s : State) : Host.Outcome State Fault Refusal :=
  s.run (.imageVerifyDone sig) fun c => if c.isTile then c.imageVerified sig else c

/-- FIRMWARE_START: R221, R232, R349: tile firmware starts; `iref` is the reference current measured. -/
def execFirmwareStart (iref : Nat) (s : State) : Host.Outcome State Fault Refusal :=
  s.run (.firmwareStart iref) fun c => if c.isTile then c.tileBoot iref else c

/-- PIXEL_CELL: R108, R109, R119–R121, R205–R216: a pixel cell arrives. -/
def execPixelCell (port : Nat) (h : Hdr) (p : PixHdr) (data : List Byte) (rx : Rx) (s : State) : Host.Outcome State Fault Refusal :=
  s.run (.pixelCell port h p data rx) fun c => c.forwardCell port (.pixel h p data) h rx fun c => c.pixelIn port h p data rx

/-- SLICE_TAG_RESULT: R206, R223: the slice tag has been checked. -/
def execSliceTagResult (s : State) : Host.Outcome State Fault Refusal :=
  s.run (.sliceTagResult) fun c => if c.isTile then c.sliceTag else c

/-- SWAP_DECISION: R224, R242: the slice is closed and the swap armed or counted. -/
def execSwapDecision (s : State) : Host.Outcome State Fault Refusal :=
  s.run (.swapDecision) fun c => if c.isTile then c.decision else c

/-- SWAP: R222, R224, R26: the swap instant. -/
def execSwap (s : State) : Host.Outcome State Fault Refusal :=
  s.run (.swap) fun c => if c.isTile then c.swapping Chip.swapNow else c

/-- RACK_RECEIVE: R131: a RACK says which units arrived. -/
def execRackReceive (port : Nat) (h : Hdr) (units : List Nat) (rx : Rx) (s : State) : Host.Outcome State Fault Refusal :=
  s.run (.rackReceive port h units rx) fun c => c.forwardCell port (.rack c.lastIndex units) h rx fun c => c.rackCell port h units rx

/-- RACK_MISS: R131: no valid RACK for a superframe. -/
def execRackMiss (s : State) : Host.Outcome State Fault Refusal :=
  s.run (.rackMiss) fun c => if c.isTile then c.rackMiss else c

/-- SLOT_TRANSMIT: R124, R125, R129–R131: the SLOT cell of a unit is sent; `clobber` is how many downstream blocks it replaces. -/
def execSlotTransmit (unit clobber : Nat) (s : State) : Host.Outcome State Fault Refusal :=
  s.run (.slotTransmit unit clobber) fun c => if c.isTile then c.slotSend unit clobber else c

/-- CENSUS: R107, R128, R138, R139: block 0 of a superframe; `d` is the CENSUS cell that arrived from downstream. -/
def execCensus (d : Option (Hdr × Rx)) (s : State) : Host.Outcome State Fault Refusal :=
  s.run (.census d) fun c => c.censusBlock d

/-- SLOT_UNIT_FORWARD: R107, R108, R125, R139: a cell of another owner’s unit, its start block `off` blocks from its expected instant. -/
def execSlotUnitForward (port unit : Nat) (x : Cell) (h : Hdr) (rx : Rx) (off : Int) (s : State) : Host.Outcome State Fault Refusal :=
  s.run (.slotUnitForward port unit x h rx off) fun c => c.unitPasses port unit x h rx off

/-- KEY_EPOCH_BOUNDARY: R123, R358, R359: the tick index passes k × 2^20. -/
def execKeyEpochBoundary (s : State) : Host.Outcome State Fault Refusal :=
  s.run (.keyEpochBoundary) fun c => if c.isTile then c.tileEpoch else (c.each (List.range 16) Chip.keyEpoch).twinEpoch

/-- OLD_KEY_EXPIRY: R123: sixteen ticks after the boundary the old key goes. -/
def execOldKeyExpiry (s : State) : Host.Outcome State Fault Refusal :=
  s.run (.oldKeyExpiry) fun c => if c.isTile then c.dropOldKey else c

/-- CLAIM: R353: ACTION CLAIM. -/
def execClaim (port : Nat) (h : Hdr) (x : Cmd) (rx : Rx) (sig burn : Bool) (s : State) : Host.Outcome State Fault Refusal :=
  s.run (.claim port h x rx sig burn) fun c => c.tileCmd port h x rx [0, 1, 2, 3] fun c => c.actionIn { x with addr := 0x101 } sig burn

/-- RELEASE: R353: ACTION RELEASE. -/
def execReleaseClaim (port : Nat) (h : Hdr) (x : Cmd) (rx : Rx) (sig burn : Bool) (s : State) : Host.Outcome State Fault Refusal :=
  s.run (.releaseClaim port h x rx sig burn) fun c => c.tileCmd port h x rx [0, 1, 2, 3] fun c => c.actionIn { x with addr := 0x102 } sig burn

/-- ACT_ARM: R383: a release of images is armed, and the image staged. -/
def execActArm (port : Nat) (h : Hdr) (x : Cmd) (rx : Rx) (s : State) : Host.Outcome State Fault Refusal :=
  s.run (.actArm port h x rx) fun c => c.tileCmd port h x rx [0, 1, 2, 3] fun c => c.actArmIn x

/-- ACT_GO: R383: the go for the armed release. -/
def execActGo (port : Nat) (h : Hdr) (x : Cmd) (rx : Rx) (s : State) : Host.Outcome State Fault Refusal :=
  s.run (.actGo port h x rx) fun c => c.tileCmd port h x rx [0, 1, 2, 3] fun c => c.actGoIn

/-- ACT_ABORT: R383: the armed release is dropped. -/
def execActAbort (port : Nat) (h : Hdr) (x : Cmd) (rx : Rx) (s : State) : Host.Outcome State Fault Refusal :=
  s.run (.actAbort port h x rx) fun c => c.tileCmd port h x rx [0, 1, 2, 3] fun c => c.actAbortIn

/-- ANTI_ROLLBACK_BURN: R387: the anti-rollback counter is burned up to ARG. -/
def execAntiRollbackBurn (port : Nat) (h : Hdr) (x : Cmd) (rx : Rx) (s : State) : Host.Outcome State Fault Refusal :=
  s.run (.antiRollbackBurn port h x rx) fun c => c.tileCmd port h x rx [0, 1, 2, 3] fun c => c.burnIn x

/-- TRIM_MEASURE: R266: the tile action measures each used column sink, by port and µA. -/
def execTrimMeasure (readings : List (Nat × Nat)) (s : State) : Host.Outcome State Fault Refusal :=
  s.run (.trimMeasure readings) fun c => c.trimMeasure readings

end Sys2Proof.Machine
end

