-- ==== Sys2Proof/Machine/TwinRows.lean ====
section
/-!
DEFINITION. Twin mode: copies, the twin link, turns of ring tiles, mandates and split service (R332–R343).
-/

namespace Sys2Proof.Machine

/-- Time passes until the peer has been silent for `t`, while the link is up (R338). -/
def Chip.quietElapse (c : Chip) (t : Nat) : Chip := if c.twinOn && c.twin.up then c.elapseAge (c.twin.heardAt + t) else c

/-- Time passes to half a period after the tick from which the copy was sent (R336). -/
def Chip.lateElapse (c : Chip) : Chip :=
  match c.twin.copyOut with
  | some p => if c.twin.late then c else c.elapseTo (c.tickTime (p + 1) + c.period / 2)
  | none => c

/-- Time passes from a turn’s trigger (R332). -/
def Chip.turnElapse (c : Chip) (t : Nat) : Chip :=
  match c.tile.trigAt with
  | some a => if c.get .ELDER_T_STAT_STATE = 1 then c.elapseAge (a + t) else c
  | none => c

/-- Time passes to four beacon intervals without a beacon on an upstream port that is UP (R332). -/
def Chip.silentElapse (c : Chip) : Chip :=
  if c.isTile && c.flag .ELDER_T_CFG_RING && c.tile.up.isSome && c.get .ELDER_T_STAT_STATE == 0 && c.linkUpAt c.upPort then
    c.elapseAge (c.bell.noBeaconSince + us 500)
  else c

/-- Time passes to 500 µs without a beacon of the Elder’s holder (R339). -/
def Chip.holderElapse (c : Chip) : Chip :=
  if c.isTile && c.flag .ELDER_T_CFG_ELDER then
    match assoc c.tile.heard (c.nat Reg.ELDER_T_HOLDER % 64) with
    | some a => c.elapseAge (a + us 500)
    | none => c
  else c

/-- Time passes to the end of a yield’s idle (R334). -/
def Chip.idleElapse (c : Chip) : Chip := if c.twin.yieldPorts = 0 then c else c.elapseAge (c.twin.yieldAt + ms 1)

/-- A message of the peer is performed (R335, R336): what the active sender mirrors, and its configuration store (R343), at the other; the segment’s records, at
the active sender. Before Twin mode a resynchronisation brings the other sender the same (R337). -/
def Chip.twinMsg (c : Chip) (m : TwinMsg) : Chip :=
  if !(c.isSender && c.twin.up && c.twin.keyed && (c.twinOn || (c.twin.resync && !c.leads))) then c
  else
    let c := c.twinHeard
    match m with
    | .record n wdn r => if c.twinRole = 3 then c.segmentIn n wdn r else c
    | .write a bs => if c.twinRole = 3 then c else c.gWrite a bs
    | .reg a v => if c.twinRole = 3 ∨ mirroredReg a = false then c else c.regPerform (.core 0) a v noVerdict
    | .tail w v => if c.twinRole = 3 then c else c.onTwin fun t => { t with tails := assocPut t.tails w v }
    | .store cfg st =>
      if c.twinRole = 3 then c
      else ({ c with store := st, upd := { c.upd with cfgs := List.replicate 3 cfg } }).setNat Reg.UPDATE_CFG_GEN cfg.gen
    | .command wdn cmd => if c.twinRole = 3 then c else c.segmentCmd wdn cmd

/-- STATE_COPY_RECEIVE: R336, R338, R343: the state copy of a period; `same` is whether the digest it carries agrees. -/
def execStateCopyReceive (copy : Copy) (same : Bool) (s : State) : Host.Outcome State Fault Refusal :=
  s.run (.stateCopyReceive copy same) fun c => c.copyIn copy same

/-- COPY_ACK: R336–R338: a copy is acknowledged, with the peer’s health flags and near ports. -/
def execCopyAck (period flags near : Nat) (s : State) : Host.Outcome State Fault Refusal :=
  s.run (.copyAck period flags near) fun c => c.copyAck period flags near

/-- COPY_LATE: R336: a copy not acknowledged by half a period after its tick. -/
def execCopyLate (s : State) : Host.Outcome State Fault Refusal :=
  s.run (.copyLate) fun c => c.lateElapse.copyLate

/-- KEEP_ALIVE: R336, R338: a keep-alive leaves the standby, or reaches the active sender. -/
def execKeepAlive (s : State) : Host.Outcome State Fault Refusal :=
  s.run (.keepAlive) fun c => c.keepAlive

/-- HEALTH_REPORT: R338: the standby evaluates and reports its health. -/
def execHealthReport (s : State) : Host.Outcome State Fault Refusal :=
  s.run (.healthReport) fun c => c.healthReport

/-- TWIN_LINK_QUIET: R338: 125 µs with nothing from the peer. -/
def execTwinLinkQuiet (s : State) : Host.Outcome State Fault Refusal :=
  s.run (.twinLinkQuiet) fun c => (c.quietElapse (us 125)).linkQuiet

/-- PEER_SILENT: R337, R338: 500 µs of silence of the twin link. -/
def execPeerSilent (s : State) : Host.Outcome State Fault Refusal :=
  s.run (.peerSilent) fun c => (c.quietElapse (us 500)).peerSilent

/-- TWIN_LINK_DOWN: R335, R337, R338: the twin link goes down. -/
def execTwinLinkDown (s : State) : Host.Outcome State Fault Refusal :=
  s.run (.twinLinkDown) fun c => if c.isSender then c.twinDown else c

/-- TWIN_LINK_UP: R337: the twin link returns. -/
def execTwinLinkUp (s : State) : Host.Outcome State Fault Refusal :=
  s.run (.twinLinkUp) fun c => c.twinUp

/-- RESYNC: R337: a write of TWIN_CTRL.RESYNC. -/
def execResync (rq : Requester) (s : State) : Host.Outcome State Fault Refusal :=
  s.run (.resync rq) fun c => c.regWrite rq Reg.TWIN_CTRL 2 noVerdict

/-- RESYNC_DONE: R337: a full resynchronisation completes. -/
def execResyncDone (s : State) : Host.Outcome State Fault Refusal :=
  s.run (.resyncDone) fun c => c.resyncElapse.resyncDone

/-- TURN_TRIGGER: R332: the upstream is lost, or has been silent for 500 µs. -/
def execTurnTrigger (s : State) : Host.Outcome State Fault Refusal :=
  s.run (.turnTrigger) fun c => c.silentElapse.turnTrigger

/-- TURN_COMPLETE: R332, R92: after 10 µs of idle the tile turns. -/
def execTurnComplete (s : State) : Host.Outcome State Fault Refusal :=
  s.run (.turnComplete) fun c => (c.turnElapse (us 10)).turnComplete

/-- TURN_TIMEOUT: R332, R135: the other port is not UP within 2 ms. -/
def execTurnTimeout (s : State) : Host.Outcome State Fault Refusal :=
  s.run (.turnTimeout) fun c => (c.turnElapse (ms 2)).turnTimeout

/-- MANDATE_TRANSFER: R339: an Elder moves its mandate. -/
def execMandateTransfer (s : State) : Host.Outcome State Fault Refusal :=
  s.run (.mandateTransfer) fun c => c.holderElapse.mandateMove

/-- YIELD_IDLE_END: R334: one millisecond after yielding. -/
def execYieldIdleEnd (s : State) : Host.Outcome State Fault Refusal :=
  s.run (.yieldIdleEnd) fun c => c.idleElapse.yieldEnd

/-- PRESENCE_RECORD: R339: a far sender’s PRESENCE record passes an Elder. -/
def execPresenceRecord (sidx : Nat) (silent eligible tag : Bool) (s : State) : Host.Outcome State Fault Refusal :=
  s.run (.presenceRecord sidx silent eligible tag) fun c => c.presenceIn sidx silent eligible tag

/-- ELDER_SILENT: R340: nothing heard from an Elder for 8 superframes. -/
def execElderSilent (k : Nat) (s : State) : Host.Outcome State Fault Refusal :=
  s.run (.elderSilent k) fun c => c.elderSilent k

/-- ISOLATED: R342: a silent twin link and no Elder. -/
def execIsolated (s : State) : Host.Outcome State Fault Refusal :=
  s.run (.isolated) fun c => (c.quietElapse (us 500)).isolated

/-- REJOIN: R335: a write of TWIN_CTRL.REJOIN. -/
def execRejoin (rq : Requester) (s : State) : Host.Outcome State Fault Refusal :=
  s.run (.rejoin rq) fun c => c.regWrite rq Reg.TWIN_CTRL 1 noVerdict

/-- REJOIN_AT_TICK: R335: at tick T the named ports are yielded by the sender that is not active; the operands are what the active one named to it. -/
def execRejoinAtTick (ports t : Nat) (s : State) : Host.Outcome State Fault Refusal :=
  s.run (.rejoinAtTick ports t) fun c => c.rejoinAtTick ports t

/-- MIRROR_WRITE_RECEIVE: R335, R336: a message of the peer is performed. -/
def execMirrorWriteReceive (m : TwinMsg) (s : State) : Host.Outcome State Fault Refusal :=
  s.run (.mirrorWriteReceive m) fun c => c.twinMsg m

/-- SPLIT_GRANT: R335: SPLIT is granted or withdrawn. -/
def execSplitGrant (n : Nat) (on : Bool) (s : State) : Host.Outcome State Fault Refusal :=
  s.run (.splitGrant n on) fun c => c.splitGrant n on

end Sys2Proof.Machine
end

