-- ==== Sys2Proof/Machine/Dispatch.lean ====
section
/-!
DEFINITION. Dispatch: the meaning of every command.
-/

namespace Sys2Proof.Machine

def exec (i : Instr) (s : State) : Host.Outcome State Fault Refusal :=
  match i with
  | .internalResetRelease b => Sys2Proof.Machine.execInternalResetRelease b s
  | .roleStrapResample b => Sys2Proof.Machine.execRoleStrapResample b s
  | .wdtKick rq v => Sys2Proof.Machine.execWdtKick rq v s
  | .softwareReset rq => Sys2Proof.Machine.execSoftwareReset rq s
  | .factoryDefaultStart sdp => Sys2Proof.Machine.execFactoryDefaultStart sdp s
  | .modeSwitchArm rq => Sys2Proof.Machine.execModeSwitchArm rq s
  | .modeSwitchCancel rq arm => Sys2Proof.Machine.execModeSwitchCancel rq arm s
  | .registerWrite rq a ws => Sys2Proof.Machine.execRegisterWrite rq a ws s
  | .pageEnable rq p => Sys2Proof.Machine.execPageEnable rq p s
  | .pageDisable rq p => Sys2Proof.Machine.execPageDisable rq p s
  | .drainComplete p => Sys2Proof.Machine.execDrainComplete p s
  | .pageSoftReset rq p => Sys2Proof.Machine.execPageSoftReset rq p s
  | .softResetComplete p => Sys2Proof.Machine.execSoftResetComplete p s
  | .pageCommit rq p => Sys2Proof.Machine.execPageCommit rq p s
  | .commitApply p => Sys2Proof.Machine.execCommitApply p s
  | .pgEventClear rq p v => Sys2Proof.Machine.execPgEventClear rq p v s
  | .pgEventSet rq p v => Sys2Proof.Machine.execPgEventSet rq p v s
  | .pgStatusRead rq p => Sys2Proof.Machine.execPgStatusRead rq p s
  | .counterReadClear rq a be => Sys2Proof.Machine.execCounterReadClear rq a be s
  | .counterLowRead rq a be => Sys2Proof.Machine.execCounterLowRead rq a be s
  | .timeLatchRead rq => Sys2Proof.Machine.execTimeLatchRead rq s
  | .syncCapRead rq => Sys2Proof.Machine.execSyncCapRead rq s
  | .fabHold rq atTick => Sys2Proof.Machine.execFabHold rq atTick s
  | .fabRelease rq atTick => Sys2Proof.Machine.execFabRelease rq atTick s
  | .readTimeout rq a => Sys2Proof.Machine.execReadTimeout rq a s
  | .srcCfgWrite rq n v => Sys2Proof.Machine.execSrcCfgWrite rq n v s
  | .sgiSet rq v => Sys2Proof.Machine.execSgiSet rq v s
  | .msixEoi rq v => Sys2Proof.Machine.execMsixEoi rq v s
  | .msixUnmask en func masked table => Sys2Proof.Machine.execMsixUnmask en func masked table s
  | .interruptTake core masked asleep => Sys2Proof.Machine.execInterruptTake core masked asleep s
  | .handlerEnd core => Sys2Proof.Machine.execHandlerEnd core s
  | .gpioEdgeAccept pin samples => Sys2Proof.Machine.execGpioEdgeAccept pin samples s
  | .ptpSyncReceive port dt f origin corr interval domain => Sys2Proof.Machine.execPtpSyncReceive port dt f origin corr interval domain s
  | .ptpAnnounceReceive port dt f a domain => Sys2Proof.Machine.execPtpAnnounceReceive port dt f a domain s
  | .ptpTransparentForward port f kind residence corr => Sys2Proof.Machine.execPtpTransparentForward port f kind residence corr s
  | .sourceLost announce => Sys2Proof.Machine.execSourceLost announce s
  | .timeSet rq => Sys2Proof.Machine.execTimeSet rq s
  | .forceStep rq => Sys2Proof.Machine.execForceStep rq s
  | .bandTick k => Sys2Proof.Machine.execBandTick k s
  | .tickEnable rq en => Sys2Proof.Machine.execTickEnable rq en s
  | .beaconDue port dt => Sys2Proof.Machine.execBeaconDue port dt s
  | .beaconReceive port dt h b rx => Sys2Proof.Machine.execBeaconReceive port dt h b rx s
  | .toutArm rq pin v => Sys2Proof.Machine.execToutArm rq pin v s
  | .toutPulse pin k => Sys2Proof.Machine.execToutPulse pin k s
  | .syncInEdge falling dt => Sys2Proof.Machine.execSyncInEdge falling dt s
  | .pllLock q => Sys2Proof.Machine.execPllLock q s
  | .pllUnlock q => Sys2Proof.Machine.execPllUnlock q s
  | .signalDetect q h rate spread => Sys2Proof.Machine.execSignalDetect q h rate spread s
  | .cdrLock q h ppm => Sys2Proof.Machine.execCdrLock q h ppm s
  | .blockLock q h hdrs0 hdrs1 => Sys2Proof.Machine.execBlockLock q h hdrs0 hdrs1 s
  | .markerLock q h a b skew => Sys2Proof.Machine.execMarkerLock q h a b skew s
  | .linkUp q h => Sys2Proof.Machine.execLinkUp q h s
  | .linkDown q h w => Sys2Proof.Machine.execLinkDown q h w s
  | .alignmentMarker q k blocks m gap dt => Sys2Proof.Machine.execAlignmentMarker q k blocks m gap dt s
  | .eyeMeasure q k width height ppm => Sys2Proof.Machine.execEyeMeasure q k width height ppm s
  | .rxeqWrite rq q k v => Sys2Proof.Machine.execRxeqWrite rq q k v s
  | .sscSet rq q v => Sys2Proof.Machine.execSscSet rq q v s
  | .monitorSourceSet rq v => Sys2Proof.Machine.execMonitorSourceSet rq v s
  | .loopbackSet rq q v => Sys2Proof.Machine.execLoopbackSet rq q v s
  | .loopbackTimeout q => Sys2Proof.Machine.execLoopbackTimeout q s
  | .prbsGeneratorSet rq q k v => Sys2Proof.Machine.execPrbsGeneratorSet rq q k v s
  | .prbsCheckerEnable rq q k => Sys2Proof.Machine.execPrbsCheckerEnable rq q k s
  | .prbsCheckerLock q k bits => Sys2Proof.Machine.execPrbsCheckerLock q k bits s
  | .cellSchedule port dt => Sys2Proof.Machine.execCellSchedule port dt s
  | .pixelDeadline port => Sys2Proof.Machine.execPixelDeadline port s
  | .regRd port h x rx => Sys2Proof.Machine.execRegRd port h x rx s
  | .regWr port h x rx => Sys2Proof.Machine.execRegWr port h x rx s
  | .bulkWr port h x rx => Sys2Proof.Machine.execBulkWr port h x rx s
  | .bulkRd port h x rx => Sys2Proof.Machine.execBulkRd port h x rx s
  | .action port h x rx sig burn => Sys2Proof.Machine.execAction port h x rx sig burn s
  | .telSub port h x rx => Sys2Proof.Machine.execTelSub port h x rx s
  | .discover port h x rx => Sys2Proof.Machine.execDiscover port h x rx s
  | .answerTransmit busy => Sys2Proof.Machine.execAnswerTransmit busy s
  | .idReq port h x rx => Sys2Proof.Machine.execIdReq port h x rx s
  | .keyx port h x rx cert sig owner wrap epoch next => Sys2Proof.Machine.execKeyx port h x rx cert sig owner wrap epoch next s
  | .assign port h x rx => Sys2Proof.Machine.execAssign port h x rx s
  | .admitTile port h x rx => Sys2Proof.Machine.execAdmitTile port h x rx s
  | .rekey port h x rx => Sys2Proof.Machine.execRekey port h x rx s
  | .unmute port h x rx => Sys2Proof.Machine.execUnmute port h x rx s
  | .tailOff port h x rx => Sys2Proof.Machine.execTailOff port h x rx s
  | .groups port h x rx => Sys2Proof.Machine.execGroups port h x rx s
  | .modeArm port h x rx => Sys2Proof.Machine.execModeArm port h x rx s
  | .modeGo port h x rx => Sys2Proof.Machine.execModeGo port h x rx s
  | .modeAbort port h x rx => Sys2Proof.Machine.execModeAbort port h x rx s
  | .bootCell port h id off data rx => Sys2Proof.Machine.execBootCell port h id off data rx s
  | .imageVerifyDone sig => Sys2Proof.Machine.execImageVerifyDone sig s
  | .firmwareStart iref => Sys2Proof.Machine.execFirmwareStart iref s
  | .pixelCell port h p data rx => Sys2Proof.Machine.execPixelCell port h p data rx s
  | .sliceTagResult => Sys2Proof.Machine.execSliceTagResult s
  | .rackDue port => Sys2Proof.Machine.execRackDue port s
  | .rackReceive port h units rx => Sys2Proof.Machine.execRackReceive port h units rx s
  | .slotTransmit unit clobber => Sys2Proof.Machine.execSlotTransmit unit clobber s
  | .farPresenceSlot port => Sys2Proof.Machine.execFarPresenceSlot port s
  | .slotReceive port unit h slot rx => Sys2Proof.Machine.execSlotReceive port unit h slot rx s
  | .census d => Sys2Proof.Machine.execCensus d s
  | .censusReceive port h rx => Sys2Proof.Machine.execCensusReceive port h rx s
  | .helloReceive port h a orient card rx => Sys2Proof.Machine.execHelloReceive port h a orient card rx s
  | .idPartReceive port h a cert sig rx => Sys2Proof.Machine.execIdPartReceive port h a cert sig rx s
  | .idReqTimeout port serial => Sys2Proof.Machine.execIdReqTimeout port serial s
  | .keyxRespReceive port h a ok rx => Sys2Proof.Machine.execKeyxRespReceive port h a ok rx s
  | .refusedReceive port h a rx => Sys2Proof.Machine.execRefusedReceive port h a rx s
  | .chainListWdn rq port v => Sys2Proof.Machine.execChainListWdn rq port v s
  | .mutedReceive port h rx => Sys2Proof.Machine.execMutedReceive port h rx s
  | .slotUnitForward port unit x h rx off => Sys2Proof.Machine.execSlotUnitForward port unit x h rx off s
  | .unitEmpty port wdn => Sys2Proof.Machine.execUnitEmpty port wdn s
  | .noResponder port => Sys2Proof.Machine.execNoResponder port s
  | .lonelyTimeout port => Sys2Proof.Machine.execLonelyTimeout port s
  | .discoveryRound port => Sys2Proof.Machine.execDiscoveryRound port s
  | .discoveryTimeout port => Sys2Proof.Machine.execDiscoveryTimeout port s
  | .retSwitch port => Sys2Proof.Machine.execRetSwitch port s
  | .rekeySend port => Sys2Proof.Machine.execRekeySend port s
  | .ethLinkUp n => Sys2Proof.Machine.execEthLinkUp n s
  | .ethLinkDown n => Sys2Proof.Machine.execEthLinkDown n s
  | .arpReceive n sender target request f => Sys2Proof.Machine.execArpReceive n sender target request f s
  | .igmpQuery n group f => Sys2Proof.Machine.execIgmpQuery n group f s
  | .videoPacket n f net dst src udp pt form q dt => Sys2Proof.Machine.execVideoPacket n f net dst src udp pt form q dt s
  | .streamLost p k => Sys2Proof.Machine.execStreamLost p k s
  | .pathLost p k n => Sys2Proof.Machine.execPathLost p k n s
  | .fillTimeout p k => Sys2Proof.Machine.execFillTimeout p k s
  | .cramDataWrite rq p v => Sys2Proof.Machine.execCramDataWrite rq p v s
  | .cramDataRead rq p => Sys2Proof.Machine.execCramDataRead rq p s
  | .grpPwrWrite rq v => Sys2Proof.Machine.execGrpPwrWrite rq v s
  | .grpReady g => Sys2Proof.Machine.execGrpReady g s
  | .lutDataWrite rq v => Sys2Proof.Machine.execLutDataWrite rq v s
  | .lutDataRead rq => Sys2Proof.Machine.execLutDataRead rq s
  | .fenceInc rq v => Sys2Proof.Machine.execFenceInc rq v s
  | .fenceCancel rq layer => Sys2Proof.Machine.execFenceCancel rq layer s
  | .flipGroupWrite rq v => Sys2Proof.Machine.execFlipGroupWrite rq v s
  | .scanLine under fills => Sys2Proof.Machine.execScanLine under fills s
  | .mapDataWrite rq v => Sys2Proof.Machine.execMapDataWrite rq v s
  | .mapDataRead rq => Sys2Proof.Machine.execMapDataRead rq s
  | .fillMinRead rq => Sys2Proof.Machine.execFillMinRead rq s
  | .corrMemDataWrite rq v => Sys2Proof.Machine.execCorrMemDataWrite rq v s
  | .corrMemDataRead rq => Sys2Proof.Machine.execCorrMemDataRead rq s
  | .rowSlot bad micro short => Sys2Proof.Machine.execRowSlot bad micro short s
  | .pulseSample p mv => Sys2Proof.Machine.execPulseSample p mv s
  | .irefMeasure cur dt => Sys2Proof.Machine.execIrefMeasure cur dt s
  | .sweepStart rq => Sys2Proof.Machine.execSweepStart rq s
  | .faultListClear rq => Sys2Proof.Machine.execFaultListClear rq s
  | .pinFaultClear rq g k v => Sys2Proof.Machine.execPinFaultClear rq g k v s
  | .descriptorChange cfg card => Sys2Proof.Machine.execDescriptorChange cfg card s
  | .trimMeasure readings => Sys2Proof.Machine.execTrimMeasure readings s
  | .csiFrameStart p vc ext ecc num dt => Sys2Proof.Machine.execCsiFrameStart p vc ext ecc num dt s
  | .csiLongPacket p vc ext ecc type crc codes dt => Sys2Proof.Machine.execCsiLongPacket p vc ext ecc type crc codes dt s
  | .csiFrameEnd p vc ext ecc num dt => Sys2Proof.Machine.execCsiFrameEnd p vc ext ecc num dt s
  | .csiFrameTimeout v => Sys2Proof.Machine.execCsiFrameTimeout v s
  | .sensorApply rq v => Sys2Proof.Machine.execSensorApply rq v s
  | .accStart rq => Sys2Proof.Machine.execAccStart rq s
  | .accAbort rq => Sys2Proof.Machine.execAccAbort rq s
  | .jobStart rq => Sys2Proof.Machine.execJobStart rq s
  | .jobAbort rq => Sys2Proof.Machine.execJobAbort rq s
  | .pushStart rq all => Sys2Proof.Machine.execPushStart rq all s
  | .pushAbort rq => Sys2Proof.Machine.execPushAbort rq s
  | .cardWriteDone entry ok => Sys2Proof.Machine.execCardWriteDone entry ok s
  | .granaryRead req a n ecc => Sys2Proof.Machine.execGranaryRead req a n ecc s
  | .granaryWrite req a bytes ecc => Sys2Proof.Machine.execGranaryWrite req a bytes ecc s
  | .regionFill rq r => Sys2Proof.Machine.execRegionFill rq r s
  | .regionClear rq r => Sys2Proof.Machine.execRegionClear rq r s
  | .regionFillDone r => Sys2Proof.Machine.execRegionFillDone r s
  | .trainingDone n ok rd wr ms => Sys2Proof.Machine.execTrainingDone n ok rd wr ms s
  | .refresh n hot fills => Sys2Proof.Machine.execRefresh n hot fills s
  | .retrainingPause n => Sys2Proof.Machine.execRetrainingPause n s
  | .patrolScrub res dt => Sys2Proof.Machine.execPatrolScrub res dt s
  | .migrationDone bad dt => Sys2Proof.Machine.execMigrationDone bad dt s
  | .rankRetire rq n rank => Sys2Proof.Machine.execRankRetire rq n rank s
  | .arbDecision fills n reqs => Sys2Proof.Machine.execArbDecision fills n reqs s
  | .starve n => Sys2Proof.Machine.execStarve n s
  | .compatSet rq v => Sys2Proof.Machine.execCompatSet rq v s
  | .ringEnable rq w => Sys2Proof.Machine.execRingEnable rq w s
  | .ringFlush rq w => Sys2Proof.Machine.execRingFlush rq w s
  | .ringResume rq w => Sys2Proof.Machine.execRingResume rq w s
  | .ringDisable rq w => Sys2Proof.Machine.execRingDisable rq w s
  | .sqDoorbell w v => Sys2Proof.Machine.execSqDoorbell w v s
  | .cqDoorbell w v => Sys2Proof.Machine.execCqDoorbell w v s
  | .descriptorTake w => Sys2Proof.Machine.execDescriptorTake w s
  | .barrier w => Sys2Proof.Machine.execBarrier w s
  | .tickFence w => Sys2Proof.Machine.execTickFence w s
  | .notifyHoldoff w dt => Sys2Proof.Machine.execNotifyHoldoff w dt s
  | .bar4Read a n ecc => Sys2Proof.Machine.execBar4Read a n ecc s
  | .bar4Write a data ecc => Sys2Proof.Machine.execBar4Write a data ecc s
  | .pcieLinkUp gen width => Sys2Proof.Machine.execPcieLinkUp gen width s
  | .mgmtRegRd seq a words tag => Sys2Proof.Machine.execMgmtRegRd seq a words tag s
  | .mgmtRegWr seq a bytes tag => Sys2Proof.Machine.execMgmtRegWr seq a bytes tag s
  | .mgmtMemRd seq a n tag => Sys2Proof.Machine.execMgmtMemRd seq a n tag s
  | .mgmtMemWr seq a bytes tag => Sys2Proof.Machine.execMgmtMemWr seq a bytes tag s
  | .mgmtDoorbell seq off v tag => Sys2Proof.Machine.execMgmtDoorbell seq off v tag s
  | .mHello peer data ok => Sys2Proof.Machine.execMHello peer data ok s
  | .mFinish seq ok => Sys2Proof.Machine.execMFinish seq ok s
  | .mClose tag => Sys2Proof.Machine.execMClose tag s
  | .twinPairHandshake cert owner sig peer eph => Sys2Proof.Machine.execTwinPairHandshake cert owner sig peer eph s
  | .stateCopyReceive copy same => Sys2Proof.Machine.execStateCopyReceive copy same s
  | .copyAck period flags near => Sys2Proof.Machine.execCopyAck period flags near s
  | .resync rq => Sys2Proof.Machine.execResync rq s
  | .mandateRecord m => Sys2Proof.Machine.execMandateRecord m s
  | .presenceRecord sidx silent eligible tag => Sys2Proof.Machine.execPresenceRecord sidx silent eligible tag s
  | .elderSilent k => Sys2Proof.Machine.execElderSilent k s
  | .rejoin rq => Sys2Proof.Machine.execRejoin rq s
  | .rejoinAtTick ports t => Sys2Proof.Machine.execRejoinAtTick ports t s
  | .attStart rq => Sys2Proof.Machine.execAttStart rq s
  | .keyErase rq => Sys2Proof.Machine.execKeyErase rq s
  | .writePublic rq len => Sys2Proof.Machine.execWritePublic rq len s
  | .keyImport rq len ok => Sys2Proof.Machine.execKeyImport rq len ok s
  | .generateAes rq => Sys2Proof.Machine.execGenerateAes rq s
  | .generateEc rq => Sys2Proof.Machine.execGenerateEc rq s
  | .openDebug rq len ok => Sys2Proof.Machine.execOpenDebug rq len ok s
  | .pendingKeyWrite n => Sys2Proof.Machine.execPendingKeyWrite n s
  | .polDataWrite rq v => Sys2Proof.Machine.execPolDataWrite rq v s
  | .policyCommit rq => Sys2Proof.Machine.execPolicyCommit rq s
  | .tamperEnWrite rq v => Sys2Proof.Machine.execTamperEnWrite rq v s
  | .tamperEvent x => Sys2Proof.Machine.execTamperEvent x s
  | .claim port h x rx sig burn => Sys2Proof.Machine.execClaim port h x rx sig burn s
  | .releaseClaim port h x rx sig burn => Sys2Proof.Machine.execReleaseClaim port h x rx sig burn s
  | .actArm port h x rx => Sys2Proof.Machine.execActArm port h x rx s
  | .actGo port h x rx => Sys2Proof.Machine.execActGo port h x rx s
  | .actAbort port h x rx => Sys2Proof.Machine.execActAbort port h x rx s
  | .antiRollbackBurn port h x rx => Sys2Proof.Machine.execAntiRollbackBurn port h x rx s
  | .chunkPut rq index x => Sys2Proof.Machine.execChunkPut rq index x s
  | .discardAll rq => Sys2Proof.Machine.execDiscardAll rq s
  | .bundleVerifyDone ok => Sys2Proof.Machine.execBundleVerifyDone ok s
  | .stage rq => Sys2Proof.Machine.execStage rq s
  | .releaseArm rq => Sys2Proof.Machine.execReleaseArm rq s
  | .releaseGo rq => Sys2Proof.Machine.execReleaseGo rq s
  | .releaseAbort rq => Sys2Proof.Machine.execReleaseAbort rq s
  | .confirm rq => Sys2Proof.Machine.execConfirm rq s
  | .fallback rq => Sys2Proof.Machine.execFallback rq s
  | .stateRequestRun rq atTick => Sys2Proof.Machine.execStateRequestRun rq atTick s
  | .stateRequestDim rq atTick => Sys2Proof.Machine.execStateRequestDim rq atTick s
  | .stateRequestDeep rq atTick => Sys2Proof.Machine.execStateRequestDeep rq atTick s
  | .sramInitDone d => Sys2Proof.Machine.execSramInitDone d s
  | .deepWake src low => Sys2Proof.Machine.execDeepWake src low s
  | .tempReading raw fault => Sys2Proof.Machine.execTempReading raw fault s
  | .weatherPeakRead rq => Sys2Proof.Machine.execWeatherPeakRead rq s
  | .senderFirmwareStart okA okB formatOk flash => Sys2Proof.Machine.execSenderFirmwareStart okA okB formatOk flash s
  | .jobComputeDone fail sets => Sys2Proof.Machine.execJobComputeDone fail sets s
  | .mirrorWriteReceive m => Sys2Proof.Machine.execMirrorWriteReceive m s
  | .splitGrant n on => Sys2Proof.Machine.execSplitGrant n on s
  | .delayRespReceive port f domain p2p t1 t2 t3 t4 corr => Sys2Proof.Machine.execDelayRespReceive port f domain p2p t1 t2 t3 t4 corr s
  | .csiLinkActive p stop => Sys2Proof.Machine.execCsiLinkActive p stop s
  | .csiLinkStop p stop act => Sys2Proof.Machine.execCsiLinkStop p stop act s
  | .csiSkewCalibration p ok => Sys2Proof.Machine.execCsiSkewCalibration p ok s
  | .laneMLink up => Sys2Proof.Machine.execLaneMLink up s
  | .pcieAerError corr => Sys2Proof.Machine.execPcieAerError corr s
  | .ethHiBer n on => Sys2Proof.Machine.execEthHiBer n on s
  | .powerOnReset => Sys2Proof.Machine.execPowerOnReset s
  | .powerFailDetect => Sys2Proof.Machine.execPowerFailDetect s
  | .warmResetPin low => Sys2Proof.Machine.execWarmResetPin low s
  | .watchdogExpiry => Sys2Proof.Machine.execWatchdogExpiry s
  | .locatorTimeout => Sys2Proof.Machine.execLocatorTimeout s
  | .modeAck => Sys2Proof.Machine.execModeAck s
  | .modeDecision => Sys2Proof.Machine.execModeDecision s
  | .modeSwitch => Sys2Proof.Machine.execModeSwitch s
  | .fabReleaseApply => Sys2Proof.Machine.execFabReleaseApply s
  | .freeRunStart => Sys2Proof.Machine.execFreeRunStart s
  | .stepApply => Sys2Proof.Machine.execStepApply s
  | .frameTick => Sys2Proof.Machine.execFrameTick s
  | .telemetrySample => Sys2Proof.Machine.execTelemetrySample s
  | .swapDecision => Sys2Proof.Machine.execSwapDecision s
  | .swap => Sys2Proof.Machine.execSwap s
  | .rackMiss => Sys2Proof.Machine.execRackMiss s
  | .bootRecord => Sys2Proof.Machine.execBootRecord s
  | .muteReport => Sys2Proof.Machine.execMuteReport s
  | .keyEpochBoundary => Sys2Proof.Machine.execKeyEpochBoundary s
  | .oldKeyExpiry => Sys2Proof.Machine.execOldKeyExpiry s
  | .completionRecord => Sys2Proof.Machine.execCompletionRecord s
  | .eventRecord => Sys2Proof.Machine.execEventRecord s
  | .telemetryRecord => Sys2Proof.Machine.execTelemetryRecord s
  | .dropsRecord => Sys2Proof.Machine.execDropsRecord s
  | .igmpJoin => Sys2Proof.Machine.execIgmpJoin s
  | .igmpRepeat => Sys2Proof.Machine.execIgmpRepeat s
  | .fenceTimeout => Sys2Proof.Machine.execFenceTimeout s
  | .gridEnd => Sys2Proof.Machine.execGridEnd s
  | .sweepDue => Sys2Proof.Machine.execSweepDue s
  | .accZeroed => Sys2Proof.Machine.execAccZeroed s
  | .accNoFrames => Sys2Proof.Machine.execAccNoFrames s
  | .pushDecision => Sys2Proof.Machine.execPushDecision s
  | .pushConfirm => Sys2Proof.Machine.execPushConfirm s
  | .tickFenceDone => Sys2Proof.Machine.execTickFenceDone s
  | .flr => Sys2Proof.Machine.execFlr s
  | .pcieLinkDown => Sys2Proof.Machine.execPcieLinkDown s
  | .mgmtSessionSilence => Sys2Proof.Machine.execMgmtSessionSilence s
  | .copyLate => Sys2Proof.Machine.execCopyLate s
  | .keepAlive => Sys2Proof.Machine.execKeepAlive s
  | .healthReport => Sys2Proof.Machine.execHealthReport s
  | .twinLinkQuiet => Sys2Proof.Machine.execTwinLinkQuiet s
  | .peerSilent => Sys2Proof.Machine.execPeerSilent s
  | .twinLinkDown => Sys2Proof.Machine.execTwinLinkDown s
  | .twinLinkUp => Sys2Proof.Machine.execTwinLinkUp s
  | .resyncDone => Sys2Proof.Machine.execResyncDone s
  | .turnTrigger => Sys2Proof.Machine.execTurnTrigger s
  | .turnComplete => Sys2Proof.Machine.execTurnComplete s
  | .turnTimeout => Sys2Proof.Machine.execTurnTimeout s
  | .mandateTransfer => Sys2Proof.Machine.execMandateTransfer s
  | .yieldIdleEnd => Sys2Proof.Machine.execYieldIdleEnd s
  | .isolated => Sys2Proof.Machine.execIsolated s
  | .attestationDone => Sys2Proof.Machine.execAttestationDone s
  | .policyDrainDone => Sys2Proof.Machine.execPolicyDrainDone s
  | .stagingDone => Sys2Proof.Machine.execStagingDone s
  | .releaseDecision => Sys2Proof.Machine.execReleaseDecision s
  | .releaseActivation => Sys2Proof.Machine.execReleaseActivation s
  | .releaseRetry => Sys2Proof.Machine.execReleaseRetry s
  | .trialExpiry => Sys2Proof.Machine.execTrialExpiry s
  | .stateRequestAtTick => Sys2Proof.Machine.execStateRequestAtTick s
  | .domainStepDone => Sys2Proof.Machine.execDomainStepDone s
  | .domainRetry => Sys2Proof.Machine.execDomainRetry s
  | .wakeTimer => Sys2Proof.Machine.execWakeTimer s
  | .tileDeepEntry => Sys2Proof.Machine.execTileDeepEntry s
  | .tfUpdate => Sys2Proof.Machine.execTfUpdate s
  | .orderlyDim => Sys2Proof.Machine.execOrderlyDim s
  | .orderlyEnd => Sys2Proof.Machine.execOrderlyEnd s
  | .thermalTrip temp held => Sys2Proof.Machine.execThermalTrip temp held s
  | .tripRestart => Sys2Proof.Machine.execTripRestart s
  | .dwellElapsed => Sys2Proof.Machine.execDwellElapsed s

end Sys2Proof.Machine
end

