-- ==== Sys2Proof/Safety.lean ====
section
/-!
DEFINITION. What counts as a safe state and a safe run, in the terms the claims use.
-/

namespace Sys2Proof.Safety

open Machine

/-- Every waiting command names only what the part has. -/
def queueOk (s : State) : Bool := s.pending.all Instr.wf

/-- The Crier’s record of MSI-X agrees with the sources (R52): the vectors it has seen pending are those with a pending
source, and a message held while masked is one of them. -/
def msixOk (c : Chip) : Bool :=
  c.fab.vecSeen == pendingVectors c && c.fab.vecHeld.all fun v => c.fab.vecSeen.contains v

/-- A run is safe while every step answers a next state. -/
def runs (n : Nat) (s : State) : Prop := ∃ t, core.run n s = .next t

/-- Registers, shadows and memories are in their one canonical form. -/
def storesOk (c : Chip) : Bool :=
  spWf regReset c.regs && spWf regReset c.shadow && memWf c.gran.mem && memWf c.ing.cram && memWf c.loom.lut &&
    memWf c.scan.map && memWf c.nim.mem

/-- A register write by `rq` reaches its page and is performed there: no fabric error, no soft reset in progress, and no twin
pair that refuses it or sends it on (R5, R30, R34, R336). -/
def takes (c : Chip) (rq : Requester) (a : Nat) : Bool :=
  c.fabricCause rq a true == 0 &&
    (!c.flag (.PG_STATUS_SRST_BUSY (a / 0x1000)) || a % 0x1000 == 8) &&
    (!(mirroredReg a && c.isSender) || !(c.twinRole == 2 || c.twinRole == 3))

/-- A read by `rq` reaches its register, which answers what it holds now: no fabric error, no soft reset in progress, no value held
by an earlier read (R5, R6, R34). -/
def reads (c : Chip) (rq : Requester) (a : Nat) : Bool :=
  c.fabricCause rq a false == 0 && !c.flag (.PG_STATUS_SRST_BUSY (a / 0x1000)) && (assoc c.fab.held64 a).isNone

/-- The part after a read of the data register `a` of a memory window that answers `n`: the window's address moves on with AUTO_INC. -/
def windowGives (a : Nat) (inc addr : Fld) (n : Nat) (c : Chip) : Chip :=
  ((c.onFab fun f => { f with held64 := f.held64.filter fun e => e.1 != a }).autoInc inc addr).emit (.read a (word n))

/-- Two parts that differ in registers, in what was sent, in the Crier’s record of MSI-X and in the management channel’s record of
NOTIFYs, and in nothing else. -/
def restSame (c d : Chip) : Prop :=
  d = { c with
    regs := d.regs, out := d.out, fab := { c.fab with vecSeen := d.fab.vecSeen, vecHeld := d.fab.vecHeld }
    mgmt := { c.mgmt with notified := d.mgmt.notified } }

/-- The frame of a command: no register outside `rs` changes, and of the rest only what `restSame` names. -/
def onlyRegs (c d : Chip) (rs : List Nat) : Prop := (∀ a, a ∉ rs → d.rd a = c.rd a) ∧ restSame c d

/-- A part that a warm reset has started with cause `k` (R1, R398): Waking, D0, TRIP_HOLD and the straps as sampled as they were,
every other register and shadow at its reset value; fuses and flash stay. -/
def warmStarted (c d : Chip) (k : Nat) : Prop :=
  d.pwr.state = .waking ∧ d.get .PWR_RESET_CAUSE_CAUSE = k ∧
    (∀ a, a ≠ Reg.PWR_RESET_CAUSE → a ≠ Reg.WEATHER_CFG → a ≠ Reg.SYS_ROLE →
      d.rd a = if inD0 a then c.rd a else regReset a) ∧
    d.get .WEATHER_CFG_TRIP_HOLD = c.get .WEATHER_CFG_TRIP_HOLD ∧
    d.get .SYS_ROLE_ROLE = c.get .SYS_ROLE_ROLE ∧ d.get .SYS_ROLE_GEO_SEL = c.get .SYS_ROLE_GEO_SEL ∧ (∀ a, d.rdS a = regReset a) ∧ d.fuses = c.fuses ∧
    d.store = c.store

/-- A cell comes with no stray block before it, whole and with both its CRCs right (R107). -/
def soundRx (x : Cell) (h : Hdr) (rx : Rx) : Bool := rx.pre.isEmpty && rx.holds x h

/-- A tile takes a tagged command on its upstream port as a new one: it is sound, names the tile, is tagged under a key the tile
holds, counts beyond the last one, its TOKEN is not kept, its OP is known and its AMODE of the OP's column (R109, R113, R115–R117). -/
def newCommand (c : Chip) (port : Nat) (h : Hdr) (x : Cmd) (rx : Rx) (amodes : List Nat) : Bool :=
  c.isTile && decide (port < 2) && soundRx (.command h x) h rx && c.tile.up == some port && c.namesMe h && !x.unauth &&
    c.tagOk (.command h x) h rx &&
    decide (c.tile.ctrMax < x.ctr) && (assoc c.tile.kept x.token).isNone && amodes.contains h.amode && knownOps.contains x.op

/-- The tile as it begins a new command: the cell goes on downstream, and the counter moves. -/
def begun (c : Chip) (port : Nat) (h : Hdr) (x : Cmd) (rx : Rx) : Chip :=
  (c.passDown port (.command h x) h rx).onTile fun t => { t with ctrMax := x.ctr }

/-- The tile once the command is done: the completion is kept under its TOKEN and queued, unless it follows later. -/
def answered (x : Cmd) (y : Chip × Ans) : Chip :=
  if y.2.status = 255 then y.1 else y.1.finish x.token y.2.status y.2.cause y.2.data

/-- A tile acts on an untagged command: it is sound, names the tile with the OP's AMODE, and the tile, awake, holds no session
(R115, R116). -/
def openCommand (c : Chip) (port : Nat) (h : Hdr) (x : Cmd) (rx : Rx) (amode : Nat) : Bool :=
  c.isTile && decide (port < 2) && soundRx (.command h x) h rx && c.tile.up == some port && c.namesMe h && c.tile.session.isNone && h.amode == amode &&
    c.tile.st != 0 && c.tile.st != 5

/-- A pixel cell is for the tile: sound, on its upstream port, addressed to its WDN, and the tile is admitted (R109, R119). -/
def pixelFor (c : Chip) (port : Nat) (h : Hdr) (p : PixHdr) (d : List Byte) (rx : Rx) : Bool :=
  c.isTile && decide (port < 2) && soundRx (.pixel h p d) h rx && c.tile.up == some port && c.namesMe h && h.amode == 0 && c.tile.st == 4

end Sys2Proof.Safety
end

