-- ==== Sys2Proof/Certificates/Slice0/Obligations.lean ====
section
/-!
DEFINITION. The statements for the provers. In every one, `s.effect f` is the state after a command whose effect on the part is
`f`: the part is `s.chip.after f` and the queue is as it was; AfterCommand says what `after` adds to `f`.
-/

open Sys2Proof Sys2Proof.Machine Sys2Proof.Safety

/-- A step carries out the command at the front of the queue. For every command and state, a step with that command in
front of the queue is exec of the command on the state whose queue holds the rest; with nothing waiting the step
answers the state unchanged (the idle step is the model’s choice, log entry 1). -/
def Obligations.StepRunsFrontCommand : Prop :=
  (∀ (i : Instr) (s : State), step { s with pending := i :: s.pending } = exec i s) ∧
    ∀ s : State, s.pending = [] → step s = .next s

/-- Every command whose operands the part has is carried out, and no other is. Every well-formed command answers a next
state with the queue as it was; a command that names a port, pin, page or unit the part does not have is refused as
out of range, and nothing else stops. The refusal of such operands is the model’s own (log entry 2). -/
def Obligations.EveryCommandCompletes : Prop :=
  ∀ (i : Instr) (s : State),
    (i.wf = true → ∃ t, exec i s = .next t ∧ t.pending = s.pending) ∧
      (i.wf = false → exec i s = .refused .outOfRange)

/-- What follows every command. After a command’s own effect, commits that wait for no tick apply: with no commit waiting
none does. Then the Crier alone acts: it records the vectors that have a pending source, and sends and holds MSI-X
messages; every register and shadow and all other state stays as the effect left it. -/
def Obligations.AfterCommand : Prop :=
  ∀ (s : State) (f : Chip → Chip),
    (s.effect f).pending = s.pending ∧
      ((f s.chip).fab.commits = [] → (s.effect f).chip = (f s.chip).settle) ∧
      ∀ c : Chip, ∃ fab out mgmt, c.settle = { c with fab := fab, out := out, mgmt := mgmt } ∧
        fab = { c.fab with vecSeen := pendingVectors c, vecHeld := fab.vecHeld } ∧
        mgmt = { c.mgmt with notified := mgmt.notified }

/-- The waiting commands are all carried out. From every state whose waiting commands are well formed, as many steps as
commands wait answer a next state whose queue is empty. -/
def Obligations.QueueDrains : Prop :=
  ∀ s : State, queueOk s = true → ∃ t, core.run s.pending.length s = .next t ∧ t.pending = []

/-- Every step keeps the Crier’s record of MSI-X true to the pending sources. In every state whose waiting commands are
well formed and whose record of MSI-X agrees with the pending sources, the step answers a next state, and every such
next state keeps both: the vectors recorded as pending are exactly those with a pending, enabled and routed source,
and every held message is for one of them. -/
def Obligations.StepKeepsSafe : Prop :=
  ∀ s : State, queueOk s = true → msixOk s.chip = true →
    (∃ t, step s = .next t) ∧
      ∀ t, step s = .next t → queueOk t = true ∧ msixOk t.chip = true

/-- The state after reset keeps what every step keeps. After reset nothing waits, the record of MSI-X agrees with the
pending sources, and all registers, shadows and memories are in their canonical form. -/
def Obligations.ResetSafe : Prop :=
  queueOk State.reset = true ∧ msixOk State.reset.chip = true ∧ storesOk State.reset.chip = true

/-- What a power-on reset leaves. After reset every register and every shadow reads its reset value, every byte of the
DRAM reads 0, no page is enabled, no commit waits, the part is Off with D0 alone powered and the Run state as its
target. -/
def Obligations.ResetValues : Prop :=
  (∀ a, State.reset.chip.rd a = regReset a ∧ State.reset.chip.rdS a = regReset a) ∧
    (∀ a, memRd State.reset.chip.gran.mem a = 0) ∧
    State.reset.chip.fab.commits = [] ∧ State.reset.chip.pwr.state = .off ∧ State.reset.chip.pwr.target = .run ∧
    State.reset.chip.pwr.dom = 1 ∧ State.reset.pending = [] ∧
    ∀ p, State.reset.chip.enabled p = false

/-- Only aligned whole words are accessed. A write of less than a word, or at an unaligned address, changes no register
outside the Crier’s error capture and the tile’s event queue: it is discarded as the fabric error UNALIGNED (cause 3).
A read of less than a word or at an unaligned address answers 0x0000_0000 and is the same fabric error. An aligned
whole write or read that passes the checks on its way is performed. A PCIe request of several doublewords is that many
accesses, in ascending order of address (REGISTER_WRITE, COUNTER_READ_CLEAR and COUNTER_LOW_READ complete so). -/
def Obligations.AccessesAreWholeAndAligned : Prop :=
  ∀ (s : State) (rq : Requester) (a : Nat) (v : Word), a < 2 ^ 24 →
    let refused := fun (c : Chip) => (c.fabErr rq a false 3).emit (.read a 0)
    exec (.registerWrite rq a [(v, false)]) s = .next (s.effect fun c => c.fabErr rq a true 3) ∧
      exec (.counterReadClear rq a [false]) s = .next (s.effect refused) ∧
      exec (.counterLowRead rq a [false]) s = .next (s.effect refused) ∧
      (a % 4 ≠ 0 →
        (judged a = false → exec (.registerWrite rq a [(v, true)]) s = .next (s.effect fun c => c.fabErr rq a true 3)) ∧
          exec (.counterReadClear rq a [true]) s = .next (s.effect refused) ∧
          exec (.counterLowRead rq a [true]) s = .next (s.effect refused)) ∧
      (∀ k, ∀ b, b / 0x1000 ≠ 2 → b / 0x1000 ≠ 0x30 → (s.chip.fabErr rq a true k).rd b = s.chip.rd b) ∧
      (takes s.chip rq a = true → judged a = false →
        exec (.registerWrite rq a [(v, true)]) s = .next (s.effect fun c => c.pageWrite rq a v noVerdict)) ∧
      (∀ ws : List (Word × Bool), ws ≠ [] → a + 4 * ws.length ≤ 2 ^ 24 →
        exec (.registerWrite .pcie a ws) s = .next (s.effect fun c =>
          ws.zipIdx.foldl (fun c x => c.writeWhole .pcie (a + 4 * x.2) x.1.1 x.1.2) c)) ∧
      ∀ be : List Bool, be ≠ [] → a + 4 * be.length ≤ 2 ^ 24 →
        exec (.counterReadClear .pcie a be) s = .next (s.effect fun c =>
          be.zipIdx.foldl (fun c x => c.readWhole .pcie (a + 4 * x.2) x.1) c)

/-- A fabric error is counted and the first one captured. An access that does not reach its register is discarded and
captured: if none has been counted since FAB_ERR was last cleared, CRIER_FAB_ERR_ADDR and INFO take the address,
cause, direction and requester, and else they stay; FAB_ERR is set in any case. -/
def Obligations.FabricErrorCaptured : Prop :=
  ∀ (s : State) (rq : Requester) (a : Nat) (v : Word), a < 2 ^ 24 → s.chip.fabricCause rq a true ≠ 0 →
    (judged a = false →
      exec (.registerWrite rq a [(v, true)]) s =
        .next (s.effect fun c => c.fabErr rq a true (s.chip.fabricCause rq a true))) ∧
      (∀ (w : Bool) (k : Nat), k < 8 →
        let d := s.chip.fabErr rq a w k
        bitAt (d.nat (Reg.PG_EVENT 2)) 0 = true ∧
          if s.chip.get .CRIER_FAB_ERR_INFO_COUNT ≠ 0 then
            d.get .CRIER_FAB_ERR_ADDR_ADDR = s.chip.get .CRIER_FAB_ERR_ADDR_ADDR ∧
              d.get .CRIER_FAB_ERR_INFO_CAUSE = s.chip.get .CRIER_FAB_ERR_INFO_CAUSE ∧
              d.get .CRIER_FAB_ERR_INFO_REQUESTER = s.chip.get .CRIER_FAB_ERR_INFO_REQUESTER
          else
            d.get .CRIER_FAB_ERR_ADDR_ADDR = a ∧ d.get .CRIER_FAB_ERR_INFO_CAUSE = k ∧
              d.get .CRIER_FAB_ERR_INFO_REQUESTER = rq.code ∧
              d.get .CRIER_FAB_ERR_INFO_WRITE = if w then 1 else 0)

/-- A write acts by its register’s access code. For a register above the header that takes the write: a read-only register
ignores it; write-1-to-clear bits are cleared where the row’s mask has them, and a correction flag register that reads
0 again arms its first-error record anew; a write of an RWL register of an enabled page is rejected with WR_REJ; a
write to a shadow is rejected with WR_REJ while the page’s commit is PENDING and else changes the shadow alone, under
the row’s mask, so that bits the row does not assign keep their value. -/
def Obligations.WritesFollowAccessCodes : Prop :=
  ∀ (s : State) (rq : Requester) (a : Nat) (v : Word) (r : RegRow),
    a < 2 ^ 24 → 0x40 ≤ a % 0x1000 → takes s.chip rq a = true → rowOf a = some r → s.chip.roleZero a = false →
    (r.acc = .ro → exec (.registerWrite rq a [(v, true)]) s = .next (s.effect fun c => c)) ∧
      (r.acc = .w1c →
        exec (.registerWrite rq a [(v, true)]) s =
          .next (s.effect fun c => (c.wr a (c.rd a &&& ~~~(v &&& r.wmask))).flagsRearm)) ∧
      (r.acc = .rwl → s.chip.enabled (a / 0x1000) = true →
        exec (.registerWrite rq a [(v, true)]) s = .next (s.effect fun c => c.reject a)) ∧
      (r.acc = .rws → s.chip.flag (.PG_COMMIT_PENDING (a / 0x1000)) = true →
        exec (.registerWrite rq a [(v, true)]) s = .next (s.effect fun c => c.reject a)) ∧
      (r.acc = .rws → s.chip.flag (.PG_COMMIT_PENDING (a / 0x1000)) = false → s.chip.shadowMute a = false →
        shadowBad a v = false → a / 0x1000 ≠ 0x75 → a ≠ Reg.LAMP_FADE_TARGET → a ≠ Reg.LAMP_FADE_MS →
        exec (.registerWrite rq a [(v, true)]) s =
          .next (s.effect fun c => c.wrS a ((c.rdS a &&& ~~~r.wmask) ||| (layerShadow a v &&& r.wmask))))

/-- A rejected write sets WR_REJ and keeps the first rejected word. Rejecting a write sets PG_STATUS.WR_REJ of its page;
REJ_WORD takes the word’s number if WR_REJ was clear and stays if it was set; no other register changes. A read of
PG_STATUS by any requester but the debug port clears both, and by the debug port clears neither. -/
def Obligations.RejectedWriteIsTold : Prop :=
  (∀ (c : Chip) (a : Nat), a < 2 ^ 24 →
    let p := a / 0x1000
    (c.reject a).flag (.PG_STATUS_WR_REJ p) = true ∧
      (c.reject a).get (.PG_STATUS_REJ_WORD p) =
        (if c.flag (.PG_STATUS_WR_REJ p) then c.get (.PG_STATUS_REJ_WORD p) else a % 0x1000 / 4) ∧
      ∀ b, b ≠ Reg.PG_STATUS p → (c.reject a).rd b = c.rd b) ∧
    ∀ (s : State) (rq : Requester) (p : Nat), p < 4096 → s.chip.fabricCause rq (Reg.PG_STATUS p) false = 0 →
      s.chip.fab.commits = [] →
      ∃ t, exec (.pgStatusRead rq p) s = .next t ∧ t.pending = s.pending ∧
        onlyRegs s.chip t.chip [Reg.PG_STATUS p] ∧
        t.chip.rd (Reg.PG_STATUS p) =
          if rq = .debug then s.chip.rd (Reg.PG_STATUS p)
          else withBits (withBits (s.chip.rd (Reg.PG_STATUS p)) 0 0 0) 25 16 0

/-- Starting, stopping and draining a page. A write of ENABLE = 1 sets ENABLE and, where the page’s domains are on and it
is not running, starts the block; the domains it asks for are requested. A write of 0 to a running page that may be
stopped clears ENABLE and stops the block at its next safe point; at a page that must stay on it is rejected. Once a
stopped block has drained, ENABLED reads 0. A soft reset that is under way ends within 2 µs. -/
def Obligations.PagesStartStopAndDrain : Prop :=
  ∀ (s : State) (rq : Requester) (p : Nat), p < 4096 →
    (takes s.chip rq (Reg.PG_CTRL p) = true →
      ((pageDomains p).all s.chip.domOn = true → s.chip.enabled p = false →
        exec (.pageEnable rq p) s =
          .next (s.effect fun c => ((c.put (.PG_CTRL_ENABLE p) 1).pageStart p).domSync)) ∧
      ((pageDomains p).all s.chip.domOn = false →
        exec (.pageEnable rq p) s = .next (s.effect fun c => (c.put (.PG_CTRL_ENABLE p) 1).domSync)) ∧
      (s.chip.flag (.PG_CTRL_ENABLE p) = true → s.chip.keepsOn rq p = false → s.chip.enabled p = true →
        exec (.pageDisable rq p) s = .next (s.effect fun c => (c.put (.PG_CTRL_ENABLE p) 0).pageStop p)) ∧
      (s.chip.flag (.PG_CTRL_ENABLE p) = true → s.chip.keepsOn rq p = true →
        exec (.pageDisable rq p) s = .next (s.effect fun c => c.reject (Reg.PG_CTRL p))) ∧
      exec (.pageSoftReset rq p) s = .next (s.effect fun c =>
        (if p = 2 ∧ c.flag .CRIER_FAB_HOLD_HOLD = true then c.fabRelease none else c).softReset p)) ∧
    (s.chip.enabled p = true → s.chip.flag (.PG_CTRL_ENABLE p) = false → s.chip.drained p = true →
      exec (.drainComplete p) s = .next (s.effect fun c => (c.pageDrained p).domSync) ∧
        (s.chip.pageDrained p).enabled p = false) ∧
    (s.chip.flag (.PG_STATUS_SRST_BUSY p) = true →
      exec (.softResetComplete p) s =
        .next (s.effect fun c => ((c.elapse (us 2)).put (.PG_STATUS_SRST_BUSY p) 0).put (.PG_CTRL_SRST p) 0))

/-- A soft reset returns a page to its reset values. After a soft reset, in which no picture of the pixel engine fails and
no mode switch is given up, every register of the page that the reset does not keep, but for PG_CTRL and PG_STATUS and
the status words that are shown again from what stays (the mode switch’s, the pixel engine’s, the Cavas engine’s),
reads its reset value, every shadow of the page reads its reset value, SRST_BUSY reads 1, and no commit of the page
waits. An Ethernet page shows its fused address again. An open picture of the pixel engine fails with the engine’s
reset. -/
def Obligations.SoftResetRestores : Prop :=
  ∀ (c : Chip) (p : Nat), p < 4096 →
    let d := c.softReset p
    let opened := within p 0xa0 0xa1 && c.nim.open_ && decide (c.slice < 4)
    (opened = false → (p = 0 → c.switch = none) →
      (∀ a, a / 0x1000 = p → softKept p a = false → a ≠ Reg.PG_CTRL p → a ≠ Reg.PG_STATUS p →
        a ∉ [Reg.SYS_MODE_STAT, Reg.NIMBUS_STAT, Reg.UPDATE_DL_STAT, Reg.UPDATE_CFG_GEN, Reg.UPDATE_ACT_STAT,
          Reg.UPDATE_T_IMAGE] → d.rd a = regReset a) ∧
      (∀ a, a / 0x1000 = p → d.rdS a = regReset a) ∧
      d.flag (.PG_STATUS_SRST_BUSY p) = true ∧
      ∀ x ∈ d.fab.commits, x.page ≠ p) ∧
    (opened = true → d.slice = 4) ∧
    ∀ n, n < 2 → p = 0x40 + n → d.rd (Reg.ETH_MAC_LO n) = BitVec.ofNat 32 (c.fuses.mac + n)

/-- A commit waits for its tick; a second one is ignored. A COMMIT write to a page with none pending, whose shadows pass
the check the page makes at the write, sets PENDING and joins the commits that wait, held if the fabric hold is on.
While one is PENDING the write changes nothing. A commit that the check refuses clears PENDING and shows its cause.
When the commit falls due at the executed tick, the tick’s waiting work is done: the mode, every commit due, in one
instant. -/
def Obligations.CommitWaits : Prop :=
  ∀ (s : State) (rq : Requester) (p : Nat), p < 4096 →
    (takes s.chip rq (Reg.PG_COMMIT p) = true →
      (s.chip.flag (.PG_COMMIT_PENDING p) = true → exec (.pageCommit rq p) s = .next (s.effect fun c => c)) ∧
      (s.chip.flag (.PG_COMMIT_PENDING p) = false → p ≠ 0x75 →
        (checkedAtWrite p = true → s.chip.commitCause p = 0) →
        exec (.pageCommit rq p) s = .next (s.effect fun c =>
          ((c.put (.PG_COMMIT_PENDING p) 1).onFab fun f =>
            { f with commits := f.commits ++ [⟨p, c.age, c.flag .CRIER_FAB_HOLD_HOLD, none⟩] }).applyUntimed)) ∧
      (s.chip.flag (.PG_COMMIT_PENDING p) = false → p ≠ 0x75 → checkedAtWrite p = true → s.chip.commitCause p ≠ 0 →
        exec (.pageCommit rq p) s = .next (s.effect fun c => c.refuseCommit p (s.chip.commitCause p)))) ∧
    (s.chip.pageDue p = true → s.chip.bell.open_ = true →
      exec (.commitApply p) s = .next (s.effect fun c =>
        (c.modeSwitch.applyTick.tickWork c.lastIndex).onBell fun b => { b with open_ := false }))

/-- A commit of a page that is not enabled applies at once. For a page whose settings no chapter checks at a commit: with
nothing waiting and no fabric hold, a COMMIT write while the page is not enabled, or while no frame tick is generated,
makes every shadowed register read its shadow at once; PENDING reads 0, APPLIED_TICK holds the low 16 bits of the
index of the last tick executed, 0 if there was none, and every other register keeps its value. -/
def Obligations.CommitAppliesAtOnceWhenDisabled : Prop :=
  ∀ (s : State) (rq : Requester) (p : Nat), p = 3 ∨ p = 0xa0 ∨ p = 0xa1 ∨ (0x10 ≤ p ∧ p ≤ 0x1b) →
    takes s.chip rq (Reg.PG_COMMIT p) = true → s.chip.flag (.PG_COMMIT_PENDING p) = false →
    s.chip.fab.commits = [] → s.chip.flag .CRIER_FAB_HOLD_HOLD = false →
    s.chip.enabled p = false ∨ s.chip.ticking = false →
    ∃ t, exec (.pageCommit rq p) s = .next t ∧ t.pending = s.pending ∧ restSame s.chip t.chip ∧
      (∀ a, a / 0x1000 = p → isRws a = true → t.chip.rd a = s.chip.rdS a) ∧
      t.chip.flag (.PG_COMMIT_PENDING p) = false ∧
      t.chip.get (.PG_COMMIT_APPLIED_TICK p) = s.chip.lastIndex % 65536 ∧
      ∀ a, (a / 0x1000 ≠ p ∨ isRws a = false) → a ≠ Reg.PG_COMMIT p → t.chip.rd a = s.chip.rd a

/-- The fabric hold keeps commits and releases them as one group. A write of HOLD = 1, and one of HOLD = 0 with no hold
on, stores HOLD and AT_TICK alone. A write of HOLD = 0 while the hold is on stores them and releases the held commits,
for the next tick or for the named one. At the release tick what is due applies in one instant. A commit that is held
does not fall due. -/
def Obligations.FabricHoldGroupsCommits : Prop :=
  ∀ (s : State) (rq : Requester) (atTick : Bool),
    (takes s.chip rq Reg.CRIER_FAB_HOLD = true →
      exec (.fabHold rq atTick) s =
          .next (s.effect fun c => c.wr Reg.CRIER_FAB_HOLD (if atTick then 3 else 1)) ∧
      (s.chip.flag .CRIER_FAB_HOLD_HOLD = false →
        exec (.fabRelease rq atTick) s =
          .next (s.effect fun c => c.wr Reg.CRIER_FAB_HOLD (if atTick then 2 else 0))) ∧
      (s.chip.flag .CRIER_FAB_HOLD_HOLD = true →
        exec (.fabRelease rq atTick) s = .next (s.effect fun c =>
          (c.wr Reg.CRIER_FAB_HOLD (if atTick then 2 else 0)).fabRelease (if atTick then some c.relTickReg else none)))) ∧
    (s.chip.releaseDue = true → exec .fabReleaseApply s = .next (s.effect Chip.tickClose)) ∧
    ∀ x : Commit, x.held = true → s.chip.commitDue x = false

/-- A write to PG_EVENT_SET is an occurrence of the event. Writing 1 to the bit of an assigned event makes it occur,
whatever PG_EVENT_EN holds: its flag reads 1 whether or not it did before, PG_EVENT_CNT adds one up to its highest
value, and a tile that holds slot units forwards it to its sender or marks its event queue as overflowed. -/
def Obligations.EventOccurrence : Prop :=
  ∀ (s : State) (rq : Requester) (p b : Nat), p < 4096 → b < 32 → bitAt (pageEvents p).toNat b = true →
    takes s.chip rq (Reg.PG_EVENT_SET p) = true →
    exec (.pgEventSet rq p (BitVec.ofNat 32 (2 ^ b))) s = .next (s.effect fun c => c.raise ⟨p, b⟩) ∧
      let d := s.chip.raise ⟨p, b⟩
      (d.rd (Reg.PG_EVENT p)).getLsbD b = true ∧
        (p ≠ 0x30 → d.get (.PG_EVENT_CNT_COUNT p) = min (s.chip.get (.PG_EVENT_CNT_COUNT p) + 1) 65535) ∧
        (s.chip.isTile = true → s.chip.get .RET_UNITS_COUNT ≠ 0 →
          d.tile.evqOvf = true ∨ ∃ n, (p, b, n) ∈ d.tile.evq)

/-- A page is pending while an enabled event flag is set. A page of the role is pending as a Crier source exactly while
PG_EVENT AND PG_EVENT_EN is nonzero. Clearing its enabled flags by a write of ones to PG_EVENT, or writing PG_EVENT_EN
to 0, ends the pending state; a clear changes no flag that is written 0. -/
def Obligations.PagePendingFollowsEvents : Prop :=
  ∀ (s : State) (rq : Requester) (p : Nat), p < 0xe0 ∨ p = 0xf0 →
    (pageInRole s.chip p = true →
      (srcPending s.chip p = true ↔ s.chip.rd (Reg.PG_EVENT p) &&& s.chip.rd (Reg.PG_EVENT_EN p) ≠ 0)) ∧
    (s.chip.fab.commits = [] → takes s.chip rq (Reg.PG_EVENT p) = true →
      ∀ v : Word, ∃ t, exec (.pgEventClear rq p v) s = .next t ∧ t.pending = s.pending ∧ restSame s.chip t.chip ∧
        t.chip.rd (Reg.PG_EVENT p) = s.chip.rd (Reg.PG_EVENT p) &&& ~~~v ∧
        (∀ a, a ≠ Reg.PG_EVENT p → a ≠ Reg.CRIER_FAB_ERR_INFO → t.chip.rd a = s.chip.rd a) ∧
        (s.chip.rd (Reg.PG_EVENT p) &&& s.chip.rd (Reg.PG_EVENT_EN p) &&& ~~~v = 0 → srcPending t.chip p = false)) ∧
    (s.chip.fab.commits = [] → takes s.chip rq (Reg.PG_EVENT_EN p) = true →
      ∃ t, exec (.registerWrite rq (Reg.PG_EVENT_EN p) [(0, true)]) s = .next t ∧ t.pending = s.pending ∧
        onlyRegs s.chip t.chip [Reg.PG_EVENT_EN p] ∧ srcPending t.chip p = false)

/-- What register reads answer, clear and latch. A read that reaches its register completes: it answers the register’s
word and makes what the read changes. COUNTER_READ_CLEAR by any requester but the debug port answers a counter that
clears on reading and leaves it at 0; the debug port leaves it as it was. COUNTER_LOW_READ of the low word of a 64-bit
count holds the high word as it stands at that instant. TIME_LATCH_READ and SYNC_CAP_READ, reads of BELL_TIME_SUBNS
and BELL_SYNC_CAP_NS, hold the rest of the time and of the capture. READ_TIMEOUT: a read not complete after 1 ms
answers 0 and is the fabric error TIMEOUT. PG_STATUS_READ has its own statement. -/
def Obligations.ReadsAndWhatTheyChange : Prop :=
  ∀ (s : State) (rq : Requester) (a : Nat), a < 2 ^ 24 → s.chip.fabricCause rq a false = 0 →
    s.chip.flag (.PG_STATUS_SRST_BUSY (a / 0x1000)) = false →
    let answered := fun (c : Chip) => (c.readEffect rq a).emit (.read a (c.regWord a))
    exec (.counterReadClear rq a [true]) s = .next (s.effect answered) ∧
      exec (.counterLowRead rq a [true]) s = .next (s.effect answered) ∧
      exec (.readTimeout rq a) s =
        .next (s.effect fun c => ((c.elapse (ms 1)).fabErr rq a false 5).emit (.read a 0)) ∧
      (a = Reg.BELL_TIME_SUBNS → exec (.timeLatchRead rq) s = .next (s.effect answered)) ∧
      (a = Reg.BELL_SYNC_CAP_NS → exec (.syncCapRead rq) s = .next (s.effect answered)) ∧
      (∀ r, rowOf a = some r → r.kind = .count → s.chip.fab.commits = [] →
        (rq ≠ .debug → ∃ t, exec (.counterReadClear rq a [true]) s = .next t ∧ t.pending = s.pending ∧
          t.chip.rd a = 0 ∧ .read a (s.chip.regWord a) ∈ t.chip.out) ∧
        (rq = .debug → ∃ t, exec (.counterReadClear rq a [true]) s = .next t ∧ t.pending = s.pending ∧
          t.chip.rd a = s.chip.rd a ∧ .read a (s.chip.regWord a) ∈ t.chip.out)) ∧
      (∀ b, latches a = [b] → 0x40 ≤ b % 0x1000 → s.chip.fab.commits = [] →
        let before := s.chip.onFab fun f => { f with held64 := f.held64.filter fun e => e.1 != b }
        ∃ t, exec (.counterLowRead rq a [true]) s = .next t ∧ t.pending = s.pending ∧
          assoc t.chip.fab.held64 b = some (before.regWord b)) ∧
      (a = Reg.BELL_TIME_SUBNS → s.chip.fab.commits = [] → ∃ t, exec (.timeLatchRead rq) s = .next t ∧
        assoc t.chip.fab.held64 Reg.BELL_TIME_NS = some (word (nsOf s.chip.bell.time)) ∧
        (assoc t.chip.fab.held64 Reg.BELL_TIME_SEC_LO).isSome = true ∧
        (assoc t.chip.fab.held64 Reg.BELL_TIME_SEC_HI).isSome = true) ∧
      (a = Reg.BELL_SYNC_CAP_NS → s.chip.fab.commits = [] → ∃ t, exec (.syncCapRead rq) s = .next t ∧
        (assoc t.chip.fab.held64 Reg.BELL_SYNC_CAP_SEC_LO).isSome = true ∧
        (assoc t.chip.fab.held64 Reg.BELL_SYNC_CAP_SEC_HI).isSome = true)

/-- The Crier chooses the best pending source. PRIGROUP = g, values above 4 acting as 4, splits a source’s 4-bit priority
into the group part, bits from g upward, and the sub-priority, the g bits below. Among the sources offered, the one
chosen has the lowest group part, then the lowest sub-priority, then the lowest number; one is chosen whenever there
is one; and the sources offered to a core and to a target are the pending ones enabled and routed to it. -/
def Obligations.CrierChoosesByPriority : Prop :=
  ∀ (c : Chip) (l : List Nat),
    (bestSource c l = none ↔ l = []) ∧
      (∀ n, bestSource c l = some n → n ∈ l ∧ ∀ m ∈ l, m ≠ n → rankLt (srcRank c n) (srcRank c m) = true) ∧
      (∀ n,
        let g := min (c.get .CRIER_CTRL_PRIGROUP) 4
        let p := c.get (.CRIER_SRC_CFG_PRIO n)
        p < 16 ∧ p = (srcRank c n).1 * 2 ^ g + (srcRank c n).2.1 ∧ (srcRank c n).2.1 < 2 ^ g ∧ (srcRank c n).2.2 = n) ∧
      ∀ n k, k ∈ c.coreSources n →
        srcPending c k = true ∧ c.flag (.CRIER_SRC_CFG_EN k) = true ∧ bitAt (c.get (.CRIER_SRC_CFG_CORE_EN k)) n = true

/-- A source’s routing takes effect at once; software sources are set and end. A write of CRIER_SRC_CFGn by a Reeve core
stores the assigned bits; by any other requester it stores all but CORE_EN, which keeps its value. Clearing EN of a
software source ends it. No other register changes. A write of CRIER_SGI makes the software source of each bit written
1 pending. -/
def Obligations.CrierRoutingAndSoftwareSources : Prop :=
  ∀ (s : State) (rq : Requester) (n : Nat) (v : Word) (r : RegRow), n < 256 → rowOf (Reg.CRIER_SRC_CFG n) = some r →
    (takes s.chip rq (Reg.CRIER_SRC_CFG n) = true → s.chip.fab.commits = [] →
      ∃ t, exec (.srcCfgWrite rq n v) s = .next t ∧ t.pending = s.pending ∧
        restSame (s.chip.onFab fun f => { f with sgi := t.chip.fab.sgi }) t.chip ∧ (n < 0xf8 → t.chip.fab.sgi = s.chip.fab.sgi) ∧
        (∀ k, rq = .core k → t.chip.rd (Reg.CRIER_SRC_CFG n) = v &&& r.wmask) ∧
        ((∀ k, rq ≠ .core k) → t.chip.rd (Reg.CRIER_SRC_CFG n) =
          withBits (v &&& r.wmask) 3 0 (bitsOf (s.chip.rd (Reg.CRIER_SRC_CFG n)) 3 0)) ∧
        (∀ a, a ≠ Reg.CRIER_SRC_CFG n → t.chip.rd a = s.chip.rd a) ∧
        (0xf8 ≤ n → v.getLsbD 31 = false → bitAt t.chip.fab.sgi (n - 0xf8) = false)) ∧
    ∀ k, k < 8 → takes s.chip rq Reg.CRIER_SGI = true →
      exec (.sgiSet rq (BitVec.ofNat 32 (2 ^ k))) s =
        .next (s.effect fun c => c.onFab fun f => { f with sgi := setBitAt f.sgi k true })

/-- MSI-X messages are sent when a vector becomes pending, and held while masked. A vector that MSI-X masking does not
hold sends its message; one that it holds is kept. A write of a vector to CRIER_MSIX_EOI sends its message again if a
source on it is still pending and does nothing otherwise. When the host changes Enable, the function mask, the masked
vectors and the table while the link is up, the endpoint holds what it wrote and messages held before are sent if
their source is still pending. After any command the vectors recorded are those with a pending source. -/
def Obligations.MsixSendsAndHolds : Prop :=
  ∀ (s : State) (rq : Requester) (v : Word),
    (takes s.chip rq Reg.CRIER_MSIX_EOI = true → s.chip.isSender = true →
      ((vectorBest s.chip (bitsOf v 5 0)).isSome = true → msixMasked s.chip (bitsOf v 5 0) = false →
        exec (.msixEoi rq v) s = .next (s.effect fun c =>
          (c.emit (.msix (bitsOf v 5 0))).onFab fun f =>
            { f with vecHeld := f.vecHeld.filter (· != bitsOf v 5 0) })) ∧
      (vectorBest s.chip (bitsOf v 5 0) = none → exec (.msixEoi rq v) s = .next (s.effect fun c => c))) ∧
    (∀ (en func : Bool) (masked : List Nat) (table : List (Nat × Nat × Nat)), masked.all (· < 64) = true →
      s.chip.isSender = true → s.chip.pcie.up = true → s.chip.fab.commits = [] →
      ∃ t, exec (.msixUnmask en func masked table) s = .next t ∧ t.pending = s.pending ∧
        onlyRegs (s.chip.onPcie fun x => { x with
          msixEn := en, funcMask := func, vecMask := t.chip.pcie.vecMask, table := table }) t.chip [Fld.PCIE_MSIX_ENABLE.reg] ∧
        (∀ k, k ∈ t.chip.pcie.vecMask ↔ k ∈ masked) ∧
        t.chip.get .PCIE_MSIX_ENABLE = (if en then 1 else 0) ∧
        t.chip.get .PCIE_MSIX_FUNC_MASK = if func then 1 else 0) ∧
    ∀ f, (s.effect f).chip.fab.vecSeen = pendingVectors (f s.chip).applyUntimed

/-- A Reeve core takes an interrupt, and a handler’s end restores the one it pre-empted. A core with no pending source
keeps the mask and sleep that its firmware has set. With a best source it wakes; it takes the source if its mask
allows it and its group part is lower than the running one’s with fewer than 16 handlers nested, pushing the source
with its priority; while masked it wakes and takes nothing. A handler’s end takes the innermost handler away and
chooses again. Samples of a GPIO pin are taken one after another: a sample at the accepted level starts the run of new
ones anew, the FILT-th in a row at the other level (FILT 0 acting as 1) is accepted as the pin’s level, with its edge
latched if it is of the selected polarity, and one before it lengthens the run. INTERRUPT_TAKE, HANDLER_END and
GPIO_EDGE_ACCEPT complete so. -/
def Obligations.CoresTakeAndReturn : Prop :=
  ∀ (s : State) (n : Nat) (m a : Bool), n < 4 →
    let set := fun (c : Chip) => c.setCore n { c.core n with masked := m, asleep := a }
    (bestSource (set s.chip) ((set s.chip).coreSources n) = none →
      exec (.interruptTake n m a) s = .next (s.effect set)) ∧
    (∀ k, bestSource (set s.chip) ((set s.chip).coreSources n) = some k →
      let woken := { (set s.chip).core n with asleep := false }
      (woken.masked = false → (set s.chip).preempts woken k = true →
        exec (.interruptTake n m a) s = .next (s.effect fun c =>
          let d := (set c).setCore n { woken with stack := (k, c.get (.CRIER_SRC_CFG_PRIO k)) :: woken.stack }
          if k < 0xf8 then d else d.onFab fun f => { f with sgi := setBitAt f.sgi (k - 0xf8) false })) ∧
      (woken.masked = true ∨ (set s.chip).preempts woken k = false → exec (.interruptTake n m a) s = .next (s.effect fun c => (set c).setCore n woken))) ∧
    (∀ x l, (s.chip.core n).stack = x :: l →
      exec (.handlerEnd n) s =
        .next (s.effect fun c => (c.setCore n { c.core n with stack := l }).coreTake n)) ∧
    ((s.chip.core n).stack = [] → exec (.handlerEnd n) s = .next (s.effect fun c => c)) ∧
    ∀ (pin : Nat) (high : Bool), pin < 16 → s.chip.domOn 78 = true →
      let restart := fun (c : Chip) => c.onFab fun f => { f with gpioRun := listPut f.gpioRun pin 0 }
      let level := fun (c : Chip) => (restart c).onFab fun f => { f with gpio := setBitAt f.gpio pin high }
      let filt := s.chip.get (.CRIER_GPIO_CFG_FILT pin)
      let run := listAt s.chip.fab.gpioRun pin 0 + 1
      (bitAt s.chip.fab.gpio pin = high → exec (.gpioEdgeAccept pin [high]) s = .next (s.effect restart)) ∧
      (bitAt s.chip.fab.gpio pin ≠ high →
        (filt ≤ run → s.chip.get (.CRIER_GPIO_CFG_TRIG pin) = (if high then 2 else 3) →
          exec (.gpioEdgeAccept pin [high]) s = .next (s.effect fun c =>
            (level c).setNat Reg.CRIER_GPIO_EDGE (setBitAt (c.nat Reg.CRIER_GPIO_EDGE) pin true))) ∧
        (filt ≤ run → s.chip.get (.CRIER_GPIO_CFG_TRIG pin) ≠ (if high then 2 else 3) →
          exec (.gpioEdgeAccept pin [high]) s = .next (s.effect level)) ∧
        (run < filt → exec (.gpioEdgeAccept pin [high]) s =
          .next (s.effect fun c => c.onFab fun f => { f with gpioRun := listPut f.gpioRun pin run }))) ∧
      ∀ l, exec (.gpioEdgeAccept pin l) s = .next (s.effect fun c => l.foldl (fun c b => c.gpioSample pin b) c)

/-- The tick grid is changed only while ticks are off. At a sender, a write of the rate or epoch registers while TICK_EN
is 1 is ignored and sets WR_REJ, and while it is 0 it is taken, an EPOCH_NS of one second or more excepted, and a new
grid begins: no index of it has been executed and none before the present instant will be. TICK_EN = 1 is taken with a
valid rate and rejected with an invalid one. TICK_EN = 0 is rejected while a mode switch is ARMED, READY or GO_SENT, a
release is pending or a wall-wide activation is pending, and is else taken. -/
def Obligations.TickRateRegistersAreGuarded : Prop :=
  ∀ (s : State) (rq : Requester), s.chip.isSender = true →
    (∀ a ∈ rateRegs, ∀ v : Word, takes s.chip rq a = true →
      (s.chip.flag .BELL_TICK_CTRL_TICK_EN = true →
        exec (.registerWrite rq a [(v, true)]) s = .next (s.effect fun c => c.reject a)) ∧
      (s.chip.flag .BELL_TICK_CTRL_TICK_EN = false → a ≠ Reg.BELL_EPOCH_NS ∨ v.toNat ≤ 999999999 →
        ∃ r, rowOf a = some r ∧ exec (.registerWrite rq a [(v, true)]) s =
          .next (s.effect fun c => (c.wr a ((c.rd a &&& ~~~r.wmask) ||| (v &&& r.wmask))).newGrid))) ∧
    (takes s.chip rq Reg.BELL_TICK_CTRL = true →
      (rateOk s.chip.rateNum s.chip.rateDen = true →
        exec (.tickEnable rq true) s = .next (s.effect fun c => c.put .BELL_TICK_CTRL_TICK_EN 1)) ∧
      (rateOk s.chip.rateNum s.chip.rateDen = false →
        exec (.tickEnable rq true) s = .next (s.effect fun c => c.reject Reg.BELL_TICK_CTRL)) ∧
      ((s.chip.switch.isSome = true ∧ 1 ≤ s.chip.get .SYS_MODE_STAT_STATE ∧ s.chip.get .SYS_MODE_STAT_STATE ≤ 3) ∨
          (∃ x ∈ s.chip.fab.commits, x.released.isSome = true) ∨ s.chip.upd.rel.isSome = true →
        exec (.tickEnable rq false) s = .next (s.effect fun c => c.reject Reg.BELL_TICK_CTRL)) ∧
      (s.chip.ticksNeeded = false →
        exec (.tickEnable rq false) s = .next (s.effect fun c => c.put .BELL_TICK_CTRL_TICK_EN 0)))

/-- The next tick is the first of the grid that is not past. For a valid rate and a time from the epoch on, the index
chosen is the first whose instant on the grid is not before that time; the next tick to execute is always later than
the last one executed on the grid in force, so that no index of a grid is executed twice. -/
def Obligations.NextTickOfTheGrid : Prop :=
  ∀ c : Chip, rateOk c.rateNum c.rateDen = true →
    (∀ t, c.epoch ≤ t → t ≤ c.tickTime (c.indexAt t) ∧ ∀ k, k < c.indexAt t → c.tickTime k < t) ∧
      ∀ m, c.bell.gridTick = some m → m < c.nextTick

/-- A frame tick is executed at its instant. Where ticks are generated from the grid, FRAME_TICK closes what the tick
before left open, lets time pass to the instant of the next tick and executes it; a band tick inside the tick period
lets time pass to its own instant, where a tile of that band exchanges its buffers. FRAME_TICK and BAND_TICK complete
so. Executing tick n makes it the last executed index before anything else of the tick is done. Where no tick is
generated the command does nothing. -/
def Obligations.FrameAndBandTicks : Prop :=
  ∀ s : State,
    (s.chip.tickSource = true → s.chip.syncTicks = false →
      exec .frameTick s = .next (s.effect fun c =>
        let d := c.tickClose.overdue
        (d.elapseTo (d.tickTime d.nextTick)).tickNow d.nextTick)) ∧
    (s.chip.tickSource = false → exec .frameTick s = .next (s.effect fun c => c)) ∧
    (∀ k, s.chip.banding = true → s.chip.tickSource = true → s.chip.bell.tick.isSome = true → 0 < k → k < s.chip.bands →
      exec (.bandTick k) s = .next (s.effect fun c =>
        (if c.isTile && c.nim.band == k then c.bandSwapping else c).elapseTo (c.bandTime c.lastIndex k))) ∧
    ∀ n, s.chip.tickNow n =
      let d := (s.chip.onBell fun b => { b with tick := some n, gridTick := some n, tickUp := s.chip.age, tickTime := b.time }).fenceTick s.chip.bell.time
      if d.tickDue || d.modeDue then d.onBell fun b => { b with open_ := true } else d.tickWork n

/-- Domain time is set, stepped and started free-running. STEP_CTRL.SET in UNSET or FREE loads BELL_SET with no sub-
nanoseconds and takes the servo to FREE, and in any other state does nothing. FORCE_STEP while REFUSING is 1 steps at
once where no tick is generated, and else waits for its step point, one microsecond after the next executed tick; one
that waits already is not put off. At the step point STEP_APPLY steps. A sender with its page enabled, no source and
the servo UNSET 3 s after ENABLE starts free-running from BELL_SET. A jump sets time to its target. TIME_SET,
FORCE_STEP, STEP_APPLY and FREE_RUN_START complete so. -/
def Obligations.TimeIsSetAndStepped : Prop :=
  ∀ (s : State) (rq : Requester),
    (∀ b, (s.chip.jumpTo b).bell.time = b) ∧
    (takes s.chip rq Reg.BELL_STEP_CTRL = true →
      (s.chip.servo = 0 ∨ s.chip.servo = 4 → exec (.timeSet rq) s = .next (s.effect fun c =>
        (c.jumpTo (c.timeOf Reg.BELL_SET_SEC_HI Reg.BELL_SET_SEC_LO Reg.BELL_SET_NS)).put .BELL_STATUS_STATE 4)) ∧
      (s.chip.servo ≠ 0 → s.chip.servo ≠ 4 → exec (.timeSet rq) s = .next (s.effect fun c => c)) ∧
      (s.chip.servo ≠ 0 → s.chip.flag .BELL_STATUS_REFUSING = true →
        (s.chip.ticking = false → exec (.forceStep rq) s = .next (s.effect Chip.doStep)) ∧
        (s.chip.ticking = true → exec (.forceStep rq) s = .next (s.effect fun c =>
          if c.bell.stepPending = true then c
          else c.onBell fun b => { b with stepPending := true, stepArmedTick := b.tick }))) ∧
      (s.chip.servo = 0 ∨ s.chip.flag .BELL_STATUS_REFUSING = false →
        exec (.forceStep rq) s = .next (s.effect fun c => c))) ∧
    (s.chip.bell.stepPending = true → s.chip.isSender = true →
      (s.chip.ticking = false → exec .stepApply s = .next (s.effect Chip.doStep)) ∧
      (s.chip.ticking = true → s.chip.bell.tick ≠ s.chip.bell.stepArmedTick →
        exec .stepApply s = .next (s.effect fun c => (c.elapseTo (c.bell.tickTime + us 1)).doStep))) ∧
    (s.chip.bell.stepPending = true → s.chip.isTile = true →
      let crossed := fun (c : Chip) => c.stepOver c.bell.time ((c.bell.time : Int) - c.bell.offset).toNat
      (s.chip.ticking = false → exec .stepApply s = .next (s.effect fun c => (crossed c).doStep)) ∧
      (s.chip.ticking = true → s.chip.bell.tick ≠ s.chip.bell.stepArmedTick →
        exec .stepApply s = .next (s.effect fun c => (crossed (c.elapseTo (c.bell.tickTime + us 1))).doStep))) ∧
    (s.chip.isSender = true → s.chip.enabled 3 = true → s.chip.servo = 0 →
      s.chip.timeSource = 0 ∨ s.chip.timeSource = 3 →
      exec .freeRunStart s = .next (s.effect fun c =>
        let d := c.elapseAge (c.bell.enAt + ms 3000)
        (d.jumpTo d.setValue).put .BELL_STATUS_STATE 4))

/-- PTP messages and beacons give the servo its measurements. At a sender whose port takes PTP, a sound Sync of the port
it follows, within the subset, is a measurement of the local time less origin, correction, path delay and asymmetry,
and delay requests follow it; a message outside the subset is counted and discarded; a first Announce of a port is
kept and the parent chosen anew; the answer to a delay request gives the mean path delay of the exchange. With TC_EN a
PTP message goes out of the other port with the residence time added to its correction, and a Sync in peer-to-peer
operation with the delay of the link it came by as well. A source that is lost, at a tile after 500 µs, at a sender
after three Sync intervals or the announce receipt timeout, takes ACQUIRE and LOCKED to HOLDOVER. A beacon falls due
and is queued on its port. PTP_SYNC_RECEIVE, PTP_ANNOUNCE_RECEIVE, DELAY_RESP_RECEIVE, PTP_TRANSPARENT_FORWARD,
SOURCE_LOST and BEACON_DUE complete so. -/
def Obligations.TimeSourcesAreMeasured : Prop :=
  ∀ (s : State) (port dt : Nat) (f : EthFrame), port < 2 → f.fcs = true →
    let come := fun (c : Chip) => c.ethFec port f
    let good := fun (c : Chip) => ((c.elapse dt).ethFec port f).ethGood port
    let d := come (s.chip.elapse dt)
    let e := good s.chip
    ((s.chip.elapse dt).ethUp port = true → d.ethFits port f = true → d.ptpOn port = true →
      (∀ (origin : Nat) (corr interval : Int) (domain : Nat),
        (e.ptpFits domain interval (-7) = true → e.enabled 3 = true → e.timeSource ≠ 3 →
          e.bell.parent.map (·.1) = some port →
          exec (.ptpSyncReceive port dt f origin corr interval domain) s = .next (s.effect fun c =>
            let g := (good c).onBell fun b => { b with syncAt := (good c).age, syncLog := interval }
            (g.measure (g.bell.time - (origin + corr + g.nat Reg.BELL_PATH_DLY * 256 + g.asym port))).askDelays port)) ∧
        (e.ptpFits domain interval (-7) = false →
          exec (.ptpSyncReceive port dt f origin corr interval domain) s =
            .next (s.effect fun c => (good c).count (Reg.ETH_PTP_DISC port)))) ∧
      (listAt e.bell.ptp port none = none →
        ∀ (a : Announce) (domain : Nat), e.ptpFits domain a.logInterval (-3) = true →
          exec (.ptpAnnounceReceive port dt f a domain) s = .next (s.effect fun c =>
            ((good c).onBell fun b =>
              { b with ptp := listPut b.ptp port (some a), annAt := listPut b.annAt port (good c).age }).chooseParent))) ∧
    (s.chip.ethUp port = true → (come s.chip).ethFits port f = true → (come s.chip).ptpOn port = true →
      let g := (come s.chip).ethGood port
      ∀ (domain : Nat) (p2p : Bool) (t1 t2 t3 t4 : Nat) (corr : Int),
        domain = min (g.get .BELL_PTP_CFG_DOMAIN) 127 → p2p = g.flag .BELL_PTP_CFG_P2P →
        listAt g.bell.asked port false = true → g.bell.parent.map (·.1) = some port →
        exec (.delayRespReceive port f domain p2p t1 t2 t3 t4 corr) s = .next (s.effect fun c =>
          let n := min (max ((((t2 : Int) - t1) + ((t4 : Int) - t3) - corr) / 2) 0 / 256).toNat 0xffffffff
          (((come c).ethGood port).onBell fun b =>
            { b with asked := listPut b.asked port false, linkDly := listPut b.linkDly port n }).setNat Reg.BELL_PATH_DLY n)) ∧
    (s.chip.isSender = true → s.chip.flag .BELL_PTP_CFG_TC_EN = true →
      s.chip.domOn 8 = true → s.chip.ethUp port = true → s.chip.ethUp (1 - port) = true → s.chip.ethFits port f = true →
      ∀ (kind residence : Nat) (corr : Int), kind < 4 →
        exec (.ptpTransparentForward port f kind residence corr) s = .next (s.effect fun c =>
          let link := if kind = 0 ∧ c.flag .BELL_PTP_CFG_P2P = true then listAt c.bell.linkDly port 0 * 256 else 0
          ((if kind = 0 then c else c.ethGood port).count (Reg.ETH_TC_FWD port)).ethSend (1 - port) 4
            [kind, wrapTo 64 (corr + (residence + link : Nat))])) ∧
    (let held := fun (c : Chip) =>
        if c.servo = 1 ∨ c.servo = 2 then ((c.put .BELL_STATUS_STATE 3).clearRun).raise .BELL_HOLDOVER else c;
      (s.chip.isTile = true → ∀ announce,
        exec (.sourceLost announce) s = .next (s.effect fun c => held (c.elapseAge (c.bell.noBeaconSince + us 500)))) ∧
      (s.chip.isTile = false → s.chip.bell.parent.isSome = true →
        exec (.sourceLost false) s =
          .next (s.effect fun c => held (c.elapseAge (c.bell.syncAt + 3 * logTime c.bell.syncLog)))) ∧
      ∀ p a t, s.chip.isTile = false → s.chip.bell.parent = some (p, a) → s.chip.annExpiry p = some t →
        exec (.sourceLost true) s = .next (s.effect fun c => (held (c.elapseAge t)).annExpire)) ∧
    ∀ n, n < 16 →
      let g := s.chip.elapse dt
      g.isSender = true → g.enabled 3 = true → g.enabled (0x20 + n) = true → g.near n = true → g.sends n = true →
      ∃ b : Beacon, b.origin = g.bell.time ∧ b.corr = 0 ∧ b.bseq = (g.port n).bseq ∧ b.mode = g.mode ∧
        exec (.beaconDue n dt) s = .next (s.effect fun c => (c.elapse dt).onPort n fun p =>
          { p with beacons := p.beacons ++ [.beacon b], bseq := (p.bseq + 1) % 65536 })

/-- A beacon at a tile goes on with its residence added, and is acted on if it is sound. A beacon that a tile receives
goes on downstream with the measured residence added to its correction, whatever its checks say; one cut short or with
a wrong CRC has no other effect than the receive counters; a sound one, after no stray block, in no session, on the
upstream port, is heard and gives census, return timing, tick parameters and a measurement. A sound beacon at a ring
port of a sender of a pair is noted as seen. At the tick a beacon named, the announced return timing comes into force.
BEACON_RECEIVE and RET_SWITCH complete so. -/
def Obligations.BeaconsReachTilesAndFarSenders : Prop :=
  ∀ (s : State) (port dt : Nat) (h : Hdr) (b : Beacon) (rx : Rx), port < 2 → h.sidx < 64 →
    let d := s.chip.elapse dt
    (d.isTile = true → d.linkUpAt port = true →
      (rx.holds (.beacon b) h = false →
        exec (.beaconReceive port dt h b rx) s = .next (s.effect fun c =>
          (((c.elapse dt).passBeacon port h b rx).receive port (.beacon b) h rx).1)) ∧
      (soundRx (.beacon b) h rx = true → d.tile.up = some port → d.tile.locked = true → d.tile.session = none →
        d.flag .ELDER_T_CFG_RING = false →
        exec (.beaconReceive port dt h b rx) s = .next (s.effect fun c =>
          (((c.elapse dt).passBeacon port h b rx).beaconHeard h.sidx).beaconTaken port h b))) ∧
    (d.isSender = true → d.enabled (0x20 + port) = true → d.twinOn = true → d.ringed port = true →
      d.near port = false → soundRx (.beacon b) h rx = true →
      exec (.beaconReceive port dt h b rx) s =
        .next (s.effect fun c => (c.elapse dt).onTwin fun t => { t with beaconAt := (c.elapse dt).age })) ∧
    (∀ r x, s.chip.isTile = true → s.chip.tile.ret = some r → r.next = some x →
      (s.chip.lastIndex + 65536 - x.2.2 % 65536) % 65536 < 32768 →
      exec (.retSwitch port) s =
        .next (s.effect fun c => c.onTile fun t => { t with ret := some ⟨x.1, x.2.1, x.2.2, none, false⟩ })) ∧
    ∀ r x, s.chip.isTile = false → (s.chip.port port).ret = some r → r.next = some x → x.2.2 ≤ s.chip.lastIndex →
      r.again = false →
      exec (.retSwitch port) s =
        .next (s.effect fun c => c.onPort port fun p => { p with ret := some ⟨x.1, x.2.1, x.2.2, none, false⟩ })

/-- TICK_OUT pins are armed and pulse, and SYNC_IN edges are captured or make ticks. A write of BELL_TOUTn_CFG stores it
and arms the pin from its START: a one-shot whose start is not past is armed, one whose start is past gives no pulse
and raises TOUTn_MISSED. An armed one-shot gives its pulse at its start and is spent. An edge of the selected polarity
is captured to the nanosecond with SYNC_EDGE in mode 1, and in mode 2 at a sender; in mode 2 at a tile that is not
LOCKED it makes the next tick 100 ns later, unless it follows the last accepted edge by less than 3.75 ms. TOUT_ARM,
TOUT_PULSE and SYNC_IN_EDGE complete so. -/
def Obligations.TickOutputsAndSyncInput : Prop :=
  ∀ (s : State) (rq : Requester) (pin : Nat) (v : Word) (r : RegRow), pin < 2 →
    (rowOf (Reg.BELL_TOUT_CFG pin) = some r → takes s.chip rq (Reg.BELL_TOUT_CFG pin) = true →
      exec (.toutArm rq pin v) s =
        .next (s.effect fun c => (c.regStore r (Reg.BELL_TOUT_CFG pin) v).armTout pin)) ∧
    (s.chip.toutMode pin = 1 →
      s.chip.armTout pin =
        if s.chip.toutStart pin < s.chip.bell.time then
          (s.chip.onBell fun b => { b with tout := listPut b.tout pin none }).raise (toutMissed pin)
        else s.chip.onBell fun b => { b with tout := listPut b.tout pin (some ⟨1, s.chip.toutStart pin, 0⟩) }) ∧
    (∀ at_ k, listAt s.chip.bell.tout pin none = some ⟨1, at_, 0⟩ → k < 256 →
      exec (.toutPulse pin k) s = .next (s.effect fun c =>
        let d := c.elapseTo at_
        (d.emit (.pulse pin at_ (d.toutWidth pin) (d.flag (.BELL_TOUT_CFG_POL pin)))).onBell fun b =>
          { b with tout := listPut b.tout pin none })) ∧
    ∀ (falling : Bool) (dt : Nat),
      let d := s.chip.elapse dt
      d.domOn 8 = true → (d.get .BELL_SYNC_CFG_EDGE == 1) = falling →
      (d.get .BELL_SYNC_CFG_MODE = 1 ∨ (d.get .BELL_SYNC_CFG_MODE = 2 ∧ d.isSender = true) → exec (.syncInEdge falling dt) s = .next (s.effect fun c =>
        ((c.elapse dt).onBell fun b => { b with syncCap := b.time / 65536 * 65536 }).raise .BELL_SYNC_EDGE)) ∧
      (d.get .BELL_SYNC_CFG_MODE = 2 → d.isTile = true → d.servo ≠ 2 → d.bell.syncLast = none →
        exec (.syncInEdge falling dt) s = .next (s.effect fun c =>
          let e := (c.elapse dt).onBell fun b => { b with syncLast := some (c.elapse dt).age }
          let f := e.tickClose.overdue.elapse (ns 100)
          f.tickNow (f.lastIndex + 1))) ∧
      (d.get .BELL_SYNC_CFG_MODE = 2 → d.isTile = true → d.servo ≠ 2 →
        (∃ a, d.bell.syncLast = some a ∧ d.age < a + us 3750) →
        exec (.syncInEdge falling dt) s = .next (s.effect fun c => c.elapse dt))

/-- A power-on reset resets everything, D0 included. After PORST_N, and after VDD_IO fails, the part is Off, every
register and shadow reads its reset value, the Granary lists nothing and no secret is held; the fuses, the flash with
its slots and the stored configuration, and the time as the outside counts it stay. POWER_ON_RESET and
POWER_FAIL_DETECT complete so. -/
def Obligations.PowerOnResetClearsAll : Prop :=
  ∀ s : State,
    let cleared := fun (t : State) => t.pending = s.pending ∧ t.chip.pwr = powerReset ∧
      (∀ a, t.chip.rd a = regReset a ∧ t.chip.rdS a = regReset a) ∧ t.chip.gran = granReset ∧ t.chip.gate = gateReset ∧
      t.chip.fuses = s.chip.fuses ∧ t.chip.store = s.chip.store ∧ t.chip.upd.slots = s.chip.upd.slots ∧
      t.chip.upd.cfgs = s.chip.upd.cfgs ∧ t.chip.age = s.chip.age
    (∃ t, exec .powerOnReset s = .next t ∧ cleared t) ∧ ∃ t, exec .powerFailDetect s = .next t ∧ cleared t

/-- A warm reset keeps D0 and the sampled straps and nothing else. RST_N low for four samples, the watchdog’s expiry and a
software reset are ignored in Off and in Quarantine, and RST_N low for less everywhere. Else, in a state other than
Deep, the part is in Waking with the cause in PWR_RESET_CAUSE; the registers of D0 and the straps as sampled keep
their values and every other register but WEATHER_CFG, whose TRIP_HOLD stays, reads its reset value. In Deep RST_N
wakes a part that asks for it. WARM_RESET_PIN, WATCHDOG_EXPIRY and SOFTWARE_RESET complete so; WDT_KICK completes: it
stores the watchdog’s time, restarts its count and changes no other register. -/
def Obligations.WarmResetsKeepD0 : Prop :=
  ∀ (s : State) (rq : Requester) (low : Nat),
    (s.chip.pwr.state = .run ∨ s.chip.pwr.state = .dim ∨ s.chip.pwr.state = .waking →
      (4 ≤ low → ∃ t, exec (.warmResetPin low) s = .next t ∧ warmStarted s.chip t.chip 1) ∧
        (s.chip.get .PWR_WDT_MS ≠ 0 → s.chip.domOn 7 = true →
          ∃ t, exec .watchdogExpiry s = .next t ∧ warmStarted s.chip t.chip 2) ∧
        (takes s.chip rq Reg.PWR_RESET_CTRL = true →
          ∃ t, exec (.softwareReset rq) s = .next t ∧ warmStarted s.chip t.chip 3)) ∧
    (low < 4 → exec (.warmResetPin low) s = .next (s.effect fun c => c)) ∧
    (s.chip.pwr.state = .deep → bitAt (s.chip.nat Reg.PWR_WAKE_EN) 4 = true → 4 ≤ low →
      exec (.warmResetPin low) s = .next (s.effect fun c =>
        ((c.setNat Reg.PWR_WAKE_CAUSE 16).startCause 5).onPwr fun p =>
          { p with state := .waking, target := .dim, deepWake := true, dom := 1, step := none })) ∧
    (s.chip.pwr.state = .off ∨ s.chip.pwr.state = .offTrip ∨ s.chip.pwr.state = .quarantine →
      exec (.warmResetPin low) s = .next (s.effect fun c => c) ∧
        (takes s.chip rq Reg.PWR_RESET_CTRL = true → exec (.softwareReset rq) s = .next (s.effect fun c => c))) ∧
    ∀ v : Word, takes s.chip rq Reg.PWR_WDT = true →
      exec (.wdtKick rq v) s = .next (s.effect fun c =>
        (c.setNat Reg.PWR_WDT (bitsOf v 15 0)).onPwr fun p => { p with wdtAt := c.age }) ∧
      (s.chip.fab.commits = [] → ∃ t, exec (.wdtKick rq v) s = .next t ∧ t.pending = s.pending ∧
        t.chip.get .PWR_WDT_MS = bitsOf v 15 0 ∧ t.chip.pwr = { s.chip.pwr with wdtAt := s.chip.age } ∧
        ∀ a, a ≠ Reg.PWR_WDT → t.chip.rd a = s.chip.rd a)

/-- How a part starts. Released from Off, or from a warm reset before it has started, with a role of 0x, the part samples
its straps and is in Waking or Quarantine with the boot ROM’s steps done; with a role of 1x it stays in reset, and
samples again 1 ms later. The boot ROM’s first steps end at step 4 unless a fuse field, a tamper latch or the tamper
counter, or the ROM test stops them. A sender whose ROM is done reads its flash and starts slot A if it is bootable
and its image is one the ROM accepts, else slot B, else ends in Quarantine with the result of the last slot tried. A
booted sender without stored configuration begins factory operation, and joins a stream given to it. A tile that sees
no beacon for 2 s shows the locator. INTERNAL_RESET_RELEASE, ROLE_STRAP_RESAMPLE, SENDER_FIRMWARE_START,
FACTORY_DEFAULT_START and LOCATOR_TIMEOUT complete so. -/
def Obligations.StartsFromReset : Prop :=
  ∀ (s : State) (b : BootIn), b.role < 4 → b.geo < 8 → b.tamper < 32 →
    (2 ≤ b.role →
      exec (.internalResetRelease b) s = .next (s.effect fun c => c.elapse (us 100)) ∧
        exec (.roleStrapResample b) s = .next (s.effect fun c => c.elapse (ms 1))) ∧
    (s.chip.pwr.state = .off ∨ (s.chip.pwr.state = .waking ∧ s.chip.pwr.dom = 1 ∧ s.chip.pwr.step = none ∧
        s.chip.pwr.booted = false) → b.role < 2 →
      let blocked := { emptySlot with state := 3 }
      let d := fun (dt : Nat) =>
        let x := ((((s.chip.elapse dt).put .SYS_ROLE_ROLE b.role).put .SYS_ROLE_GEO_SEL b.geo).onPwr
          fun p => { p with state := .waking }).showFuses
        x.onBell fun y => { y with noBeaconSince := x.age }
      let e := fun (dt : Nat) =>
        if (d dt).flag .GATE_QUAR_ACTIVE = true then
          (((d dt).setSlot 0 blocked).setSlot 1 blocked).onPwr fun p => { p with state := .quarantine }
        else (d dt).bootSteps b
      exec (.internalResetRelease b) s = .next (s.effect fun _ =>
        (if b.role = 0 then (e (us 100)).ownDesc b.card else e (us 100)).seqNext) ∧
      exec (.roleStrapResample b) s = .next (s.effect fun _ =>
        (if b.role = 0 then (e (ms 1)).ownDesc b.card else e (ms 1)).seqNext)) ∧
    (b.fuseOk = true → b.tamper = 0 → b.romOk = true → s.chip.get .GATE_TAMPER_STAT_LATCHED = 0 →
      s.chip.fuses.tamperCnt < 31 →
      (s.chip.bootSteps b).get .GATE_BOOT_STAGE = 4 ∧ (s.chip.bootSteps b).get .GATE_BOOT_RESULT = 0) ∧
    (∀ (okA okB formatOk : Bool) (f : Flash), s.chip.isSender = true → s.chip.romDone = true →
      let d := s.chip.readFlash f
      let pick := (d.chooseSlot okA okB).2
      ((d.img 0).bootable = true → d.senderVerdict (d.img 0).bytes okA = 0 → pick = .ok 0) ∧
        ((d.img 0).bootable = false → (d.img 1).bootable = true → d.senderVerdict (d.img 1).bytes okB = 0 → pick = .ok 1) ∧
        ((d.img 0).bootable = false → (d.img 1).bootable = false → pick = .error 2) ∧
        (∀ k, pick = .ok k → exec (.senderFirmwareStart okA okB formatOk f) s = .next (s.effect fun c =>
          let x := ((c.readFlash f).chooseSlot okA okB).1
          let y := ((((x.extend 1 ((c.readFlash f).img k).bytes).put .GATE_BOOT_SLOT k).onUpd fun u => { u with runB := k == 1 }).takeConfig
            formatOk).updShow.pageEnable 0x75
          if y.pwr.deepWake && y.bootDone.flag (.PG_CTRL_ENABLE 0x74) then y.bootDone.put (.PG_STATUS_ENABLED 0x74) 1
          else y.bootDone)) ∧
        ∀ v, pick = .error v → exec (.senderFirmwareStart okA okB formatOk f) s =
          .next (s.effect fun c => ((c.readFlash f).chooseSlot okA okB).1.bootQuarantine 5 v 4)) ∧
    (s.chip.isSender = true → s.chip.store.factory = true → s.chip.pwr.booted = true →
      (s.chip.flag .SYS_ROLE_FACTORY = false →
        exec (.factoryDefaultStart none) s = .next (s.effect Chip.factoryBegin)) ∧
      (s.chip.flag .SYS_ROLE_FACTORY = true → ∀ x : Sdp,
        exec (.factoryDefaultStart (some x)) s = .next (s.effect fun c => c.factoryJoin x))) ∧
    (s.chip.isTile = true → s.chip.tile.locator = false → s.chip.pwr.state = .run ∨ s.chip.pwr.state = .waking →
      exec .locatorTimeout s = .next (s.effect fun c =>
        let d := (((c.elapseAge (c.bell.noBeaconSince + ms 2000)).onTile fun t => { t with locator := true }).setLamp 3)
        (d.gridStart d.bell.time).raise .SYS_LOCATOR))

/-- A mode switch is armed, acknowledged, decided and taken at its tick. ARM with a cause to refuse it raises MODE_REFUSED
and arms nothing; without one the switch is ARMED for the tick in SYS_MODE_TICK, expects every tile in service, and an
arm cell goes to each port that has one. CANCEL aborts a pending switch that is not yet decided and raises CANCEL_LATE
of one that is; with ARM in the same write it arms nothing. An acknowledgement of an expected tile is counted once. At
N − 4 a READY switch sends its go cells; one that is not READY, or whose decision comes after N − 2, is aborted. At N
a decided sender and a tile with a go cell take the mode; a tile without one keeps its mode and reports MODE_MISS.
MODE_SWITCH_ARM, MODE_SWITCH_CANCEL, MODE_ACK, MODE_DECISION and MODE_SWITCH complete so. -/
def Obligations.ModesSwitchAtOneTick : Prop :=
  ∀ (s : State) (rq : Requester),
    let m := s.chip.get .SYS_MODE_ARM_MODE
    let n := s.chip.pair Reg.SYS_MODE_TICK_LO Reg.SYS_MODE_TICK_HI
    (s.chip.isSender = true → takes s.chip rq Reg.SYS_MODE_CTRL = true →
      (s.chip.armCause m n ≠ 0 →
        exec (.modeSwitchArm rq) s = .next (s.effect fun c => c.armRefuse (c.armCause m n))) ∧
      (s.chip.armCause m n = 0 → exec (.modeSwitchArm rq) s = .next (s.effect fun c =>
        let d := ({ c.switchState 1 0 with
          switch := some ⟨m, n, c.switchTiles.map fun (x : Nat × Dev) => (x.1, x.2.wdn), [], 0⟩ }).switchCells 0x50 m (beBytes 8 n)
        (if m = 3 then
            d.each ((List.range 16).flatMap fun n => (d.serving n).map fun y => (n, y)) fun d x => d.sendBand x.1 x.2
          else d).showSwitch)) ∧
      ∀ arm : Bool,
        (s.chip.switchPending = true → s.chip.get .SYS_MODE_STAT_STATE ≠ 3 →
          exec (.modeSwitchCancel rq arm) s = .next (s.effect fun c => c.modeAbort 8)) ∧
        (s.chip.switchPending = true → s.chip.get .SYS_MODE_STAT_STATE = 3 →
          exec (.modeSwitchCancel rq arm) s = .next (s.effect fun c => c.raise .SYS_CANCEL_LATE)) ∧
        (s.chip.switchPending = false → exec (.modeSwitchCancel rq arm) s = .next (s.effect fun c => c))) ∧
    (∀ (d : Chip) (port wdn idx mode : Nat),
      s.chip.popRecord isModeAck = some (d, port, wdn, .modeAck idx mode) →
      exec .modeAck s = .next (s.effect fun _ => d.modeAck port wdn idx mode)) ∧
    (∀ (x : Switch) (port wdn : Nat), s.chip.switch = some x → s.chip.switchPending = true →
      s.chip.modeAck port wdn (x.n % 2 ^ 32) x.mode =
        if x.expected.contains (port, wdn) = true ∧ x.acked.contains (port, wdn) = false then
          { s.chip with switch := some { x with acked := x.acked ++ [(port, wdn)] } }.showSwitch
        else s.chip) ∧
    (∀ x : Switch, s.chip.switch = some x → s.chip.switchPending = true → s.chip.isSender = true → s.chip.standby = false →
      x.n ≤ s.chip.lastIndex + 4 →
      (s.chip.get .SYS_MODE_STAT_STATE = 2 → s.chip.lastIndex + 2 ≤ x.n →
        exec .modeDecision s = .next (s.effect fun c => (c.switchState 3 0).modeGo x c.lastIndex)) ∧
      (s.chip.get .SYS_MODE_STAT_STATE = 1 ∨ s.chip.get .SYS_MODE_STAT_STATE = 2 ∧ x.n < s.chip.lastIndex + 2 →
        exec .modeDecision s = .next (s.effect fun c => c.modeAbort 7))) ∧
    (∀ x : Switch, s.chip.isSender = true → s.chip.switch = some x → s.chip.get .SYS_MODE_STAT_STATE = 3 →
      s.chip.modeDue = true →
      exec .modeSwitch s = .next (s.effect fun c =>
        let d := ((c.switchState 4 0).setMode x.mode).raise .SYS_MODE_DONE
        if d.tickDue then d else d.tickClose)) ∧
    ∀ (i : Nat) (a : TileArm), s.chip.isTile = true → s.chip.isSender = false → s.chip.bell.tick = some i → s.chip.tile.arm = some a →
      a.n ≤ i →
      exec .modeSwitch s = .next (s.effect fun c =>
        let d := c.onTile fun t => { t with arm := none }
        let e := if a.go = true ∧ a.n = i then d.setMode a.mode else d.onTile fun t => { t with modeMiss := true }
        if e.tickDue then e else e.tickClose)

/-- A port comes up from DOWN to UP in the order of the lane states. A PLL that locks takes its quad’s Ronuno ports from
DOWN to DETECT and lets enabled ports transmit, and one that unlocks raises PLL_UNLOCK. In DETECT a signal at the
sender’s own rate starts CDR, one at another rate does nothing, and a tile without an upstream takes the rate and
spread it detects; a port in electrical idle after a key erase ends it first. CDR within the window leads to BLOCK
with adaptation begun, outside it a tile’s port raises FREQ_OOR and returns to DETECT; 64 valid headers in a row on
both lanes lead to ALIGN; two markers on each lane, of different lanes, within the skew limit lead to ADAPT and
otherwise leave the port in ALIGN with SKEW 0x3FF. From ADAPT the port is UP; a loss criterion that holds returns it
to DETECT with LINK_DOWN, and one that does not hold does nothing. PLL_LOCK, PLL_UNLOCK, SIGNAL_DETECT, CDR_LOCK,
BLOCK_LOCK, MARKER_LOCK, LINK_UP and LINK_DOWN complete so. -/
def Obligations.LanesComeUpInOrder : Prop :=
  ∀ (s : State) (q h : Nat), q < 12 → h < 2 →
    (s.chip.enabled (0x10 + q) = true → exec (.pllLock q) s = .next (s.effect fun c =>
      ((c.put (.SERDES_QSTAT_PLL_LOCK q) 1).each ([0, 1].filter (ronunoPort q)) fun c h =>
        if c.portState q h = 0 then c.setPortState q h 1 else c).txEnable q)) ∧
    (s.chip.flag (.SERDES_QSTAT_PLL_LOCK q) = true → exec (.pllUnlock q) s = .next (s.effect fun c =>
      (c.put (.SERDES_QSTAT_PLL_LOCK q) 0).raise (.SERDES_PLL_UNLOCK q))) ∧
    (∀ (a rate spread : Nat), (s.chip.txOf q h).idleAt = some a →
      exec (.signalDetect q h rate spread) s = .next (s.effect fun c =>
        ((c.elapseAge (a + ms 1)).idleOver q h).signalAt q h rate spread)) ∧
    (ronunoPort q h = true → s.chip.portState q h = 1 → (s.chip.txOf q h).idleAt = none → ∀ rate spread : Nat, rate < 3 →
      (s.chip.isTile = false → rate = s.chip.rateCode q →
        exec (.signalDetect q h rate spread) s = .next (s.effect fun c => c.setPortState q h 2)) ∧
      (s.chip.isTile = false → rate ≠ s.chip.rateCode q →
        exec (.signalDetect q h rate spread) s = .next (s.effect fun c => c)) ∧
      (s.chip.isTile = true → s.chip.tile.up = none →
        exec (.signalDetect q h rate spread) s = .next (s.effect fun c =>
          ((c.put (.SERDES_QCFG_RATE q) rate).setNat (Reg.SERDES_SSC q)
            (if spread = 0 then 0 else 256 + min spread 10)).setPortState q h 2)) ∧
      (s.chip.isTile = true → s.chip.tile.up.isSome = true →
        exec (.signalDetect q h rate spread) s = .next (s.effect fun c =>
          if rate = s.chip.rateCode q then c.setPortState q h 2 else c))) ∧
    (ronunoPort q h = true → s.chip.portState q h = 2 → ∀ ppm : Int,
      (s.chip.isTile = false →
        exec (.cdrLock q h ppm) s = .next (s.effect fun c => (c.setPortState q h 3).adaptPort q h)) ∧
      (s.chip.isTile = true →
        let shown := fun (c : Chip) =>
          if c.tile.clk = none ∨ c.tile.clk = some h then c.put (.SERDES_QSTAT_FREQ_PPM q) (wrapTo 16 ppm) else c
        (-5150 ≤ ppm → ppm ≤ 150 →
          exec (.cdrLock q h ppm) s = .next (s.effect fun c => ((shown c).setPortState q h 3).adaptPort q h)) ∧
        (ppm < -5150 ∨ 150 < ppm → exec (.cdrLock q h ppm) s =
          .next (s.effect fun c => ((shown c).setPortState q h 1).raise (.SERDES_FREQ_OOR q))))) ∧
    (s.chip.portState q h = 3 → ∀ l0 l1 : List Nat,
      exec (.blockLock q h l0 l1) s = .next (s.effect fun c =>
        if blockLock l0 = true ∧ blockLock l1 = true then c.setPortState q h 4 else c)) ∧
    (s.chip.portState q h = 4 → ∀ (a b : Block × Block) (skew : Int),
      (∀ x y, laneLock a.1 a.2 = some x → laneLock b.1 b.2 = some y → x.1 ≠ y.1 →
        exec (.markerLock q h a b skew) s = .next (s.effect fun c =>
          let d := (((c.put (.SERDES_L_STAT_RX_INV q (2 * h)) x.2.toNat).put (.SERDES_L_STAT_RX_INV q (2 * h + 1))
            y.2.toNat).put (.SERDES_L_STAT_LANE_ID q (2 * h)) x.1).put (.SERDES_L_STAT_LANE_ID q (2 * h + 1)) y.1
          if skewMax (d.rateCode q) < skew.natAbs then
            (d.put (.SERDES_L_STAT_SKEW q (2 * h)) 0x3ff).put (.SERDES_L_STAT_SKEW q (2 * h + 1)) 0x3ff
          else
            ((d.put (.SERDES_L_STAT_SKEW q (2 * h)) (-skew).toNat).put (.SERDES_L_STAT_SKEW q (2 * h + 1))
              skew.toNat).setPortState q h 5)) ∧
      (laneLock a.1 a.2 = none ∨ laneLock b.1 b.2 = none →
        exec (.markerLock q h a b skew) s = .next (s.effect fun c => c))) ∧
    (ronunoPort q h = true → s.chip.portState q h = 5 →
      let up := fun (c : Chip) => ((c.setPortState q h 6).adaptPort q h).raise (.SERDES_LINK_UP q)
      (s.chip.isTile = false → exec (.linkUp q h) s = .next (s.effect fun c =>
        let d := (up c).portClock q h
        let n := 2 * q + h
        (if q < 8 ∧ d.enabled (0x20 + n) = true ∧ d.chainState n = 0 ∧ d.serves n = true then d.startDiscovery n
          else d).hopDelay)) ∧
      (s.chip.isTile = true → exec (.linkUp q h) s = .next (s.effect fun c =>
        let d := (((up c).clockUp h).chooseUp h false).upstreamBack
        (if d.tile.trigAt = none then (d.txStart 0 0).txStart 0 1 else d).hopDelay))) ∧
    (ronunoPort q h = true → s.chip.portState q h = 6 → ∀ w : Loss,
      (s.chip.lossHolds q h w = true → (∀ ppm, w ≠ .frequency ppm) →
        exec (.linkDown q h w) s = .next (s.effect fun c =>
          (((((c.setPortState q h 1).rxClear q h).put (.SERDES_L_STAT_HI_BER q (2 * h)) 0).put
            (.SERDES_L_STAT_HI_BER q (2 * h + 1)) 0).raise (.SERDES_LINK_DOWN q)).portLost q h)) ∧
      (∀ ppm, w = .frequency ppm → s.chip.lossHolds q h w = true →
        exec (.linkDown q h w) s = .next (s.effect fun c =>
          (((c.elapse (us 10)).put (.SERDES_QSTAT_FREQ_PPM q) (wrapTo 16 ppm)).raise (.SERDES_FREQ_OOR q)).portDown q h)) ∧
      (s.chip.lossHolds q h w = false → exec (.linkDown q h w) s = .next (s.effect fun c => c)))

/-- Markers, eyes and equalisers of a lane. A marker period on a Ronuno lane adds its invalid headers and, with a valid
marker, the bits in which the BIP8 of its payloads differs to their counters; more than 32 invalid headers set HI_BER,
and 32 or fewer clear it. A loss criterion reached takes the port down. The eye is stored while the lane is UP, with
what an adapting equaliser has found, and EYE_LOW is raised at the second low measurement in a row, once until the eye
has recovered. A write of RXEQ takes the equaliser’s values only with MODE LOAD. The spread is set only while the quad
is disabled, the monitor source at any time. ALIGNMENT_MARKER, EYE_MEASURE, RXEQ_WRITE, SSC_SET and MONITOR_SOURCE_SET
complete so. -/
def Obligations.LanesAreWatched : Prop :=
  ∀ (s : State) (rq : Requester) (q k : Nat), q < 12 → k < 4 →
    (∀ (c : Chip) (l : List Block) (m : Block), ronuno q k = true → 2 ≤ c.laneState q k → c.laneState q k ≠ 7 →
      let d := (c.markerIn q k l m).1
      let seen := c.upright q k l
      let mark := listAt (c.upright q k [m]) 0 m
      let bad := seen.countP fun b => !b.valid
      d.nat (Reg.SERDES_L_HDR_ERR q k) = min (c.nat (Reg.SERDES_L_HDR_ERR q k) + bad) 0xffffffff ∧
        d.nat (Reg.SERDES_L_BIP_ERR q k) =
          (if mark.isMarker then min (c.nat (Reg.SERDES_L_BIP_ERR q k) + ones8 (bip8 seen ^^^ mark.bip)) 0xffffffff
          else c.nat (Reg.SERDES_L_BIP_ERR q k)) ∧
        d.flag (.SERDES_L_STAT_HI_BER q k) = decide (32 < bad)) ∧
    (∀ (l : List Block) (m : Block) (gap dt : Nat),
      let x := fun (c : Chip) => (c.elapse dt).markerIn q k l m
      let mark := listAt ((s.chip.elapse dt).upright q k [m]) 0 m
      ((x s.chip).2 = true →
        exec (.alignmentMarker q k l m gap dt) s = .next (s.effect fun c => (x c).1.portDown q (k / 2))) ∧
      ((x s.chip).2 = false → mark.isMarker = false →
        exec (.alignmentMarker q k l m gap dt) s = .next (s.effect fun c => (x c).1)) ∧
      ((x s.chip).2 = false → mark.isMarker = true →
        exec (.alignmentMarker q k l m gap dt) s = .next (s.effect fun c =>
          let d := (x c).1.passMarker q k mark.seq
          if d.laneState q k = 6 ∧ k % 2 = 0 then d.stampMarker q (k / 2) mark.seq gap else d))) ∧
    (∀ (w hgt : Nat) (ppm : Int), s.chip.laneState q k = 6 →
      let e := fun (c : Chip) =>
        let d := c.adaptLane q k
        (((if k % 2 = 0 then d.freqSeen q (k / 2) ppm else d).put (.SERDES_L_EYE_VALID q k) 1).put
          (.SERDES_L_EYE_WIDTH q k) w).put (.SERDES_L_EYE_HEIGHT q k) hgt
      let l := s.chip.lane q k
      let low := w < s.chip.get (.SERDES_EYE_MIN_WIDTH q) ∨ hgt < s.chip.get (.SERDES_EYE_MIN_HEIGHT q)
      (¬low → exec (.eyeMeasure q k w hgt ppm) s = .next (s.effect fun c =>
          (e c).setLane q k { l with low := 0, good := l.good + 1, told := decide (l.good = 0) && l.told })) ∧
      (low → 1 ≤ l.low → l.told = false →
        exec (.eyeMeasure q k w hgt ppm) s = .next (s.effect fun c =>
          ((e c).setLane q k { l with low := l.low + 1, good := 0, told := true }).raise (.SERDES_EYE_LOW q))) ∧
      (low → l.low = 0 ∨ l.told = true →
        exec (.eyeMeasure q k w hgt ppm) s =
          .next (s.effect fun c => (e c).setLane q k { l with low := l.low + 1, good := 0 }))) ∧
    (∀ v : Word, takes s.chip rq (Reg.SERDES_L_RXEQ q k) = true → exec (.rxeqWrite rq q k v) s = .next (s.effect fun c =>
      c.wr (Reg.SERDES_L_RXEQ q k)
        (if bitsOf v 31 30 = 2 then v &&& 0xcfffffff
         else withBits (c.rd (Reg.SERDES_L_RXEQ q k)) 31 30 (bitsOf v 31 30)))) ∧
    (∀ v : Word, takes s.chip rq (Reg.SERDES_SSC q) = true →
      (s.chip.enabled (0x10 + q) = true →
        exec (.sscSet rq q v) s = .next (s.effect fun c => c.reject (Reg.SERDES_SSC q))) ∧
      (s.chip.enabled (0x10 + q) = false → s.chip.isTile = false →
        exec (.sscSet rq q v) s = .next (s.effect fun c =>
          c.wr (Reg.SERDES_SSC q) ((c.rd (Reg.SERDES_SSC q) &&& ~~~0x10f) ||| (v &&& 0x10f))))) ∧
    ∀ v : Word, takes s.chip rq (Reg.SERDES_MON 10) = true → exec (.monitorSourceSet rq v) s = .next (s.effect fun c =>
      c.wr (Reg.SERDES_MON 10) ((c.rd (Reg.SERDES_MON 10) &&& ~~~0x8000010f) ||| (v &&& 0x8000010f)))

/-- Loopbacks and generators run only in Service mode, and end by themselves. A write of SERDES_LB that sets a loopback,
and one of a lane’s PRBS with the generator on, are rejected outside Service mode; in Service mode a loopback with a
timeout is stored, its lanes go to test and its timer starts. At the timeout every loopback and generator of the quad
ends with LB_END. A generator that is switched on starts its pattern. A checker that is switched on starts from 0;
bits that arrive are followed until 64 in a row are the pattern’s, and then every one that differs is counted, and the
first is told. A lane under a far-end loopback sends on what it receives. LOOPBACK_SET, LOOPBACK_TIMEOUT,
PRBS_GENERATOR_SET, PRBS_CHECKER_ENABLE, PRBS_CHECKER_LOCK and LANE_M_LINK complete so. Lane M wakes a sender in Deep
that asks for it. -/
def Obligations.LoopbacksOnlyInService : Prop :=
  ∀ (s : State) (rq : Requester) (q k : Nat), q < 12 → k < 4 →
    (∀ v : Word, takes s.chip rq (Reg.SERDES_LB q) = true →
      let w := lbMask q (v &&& 0xffff00ff)
      (w.toNat % 256 ≠ 0 → s.chip.mode ≠ 5 →
        exec (.loopbackSet rq q v) s = .next (s.effect fun c => c.reject (Reg.SERDES_LB q))) ∧
      (s.chip.mode = 5 → bitsOf w 31 16 ≠ 0 → exec (.loopbackSet rq q v) s = .next (s.effect fun c =>
        ((c.wr (Reg.SERDES_LB q) w).testApply q (c.testLanes q)).lbTimer q true))) ∧
    (∀ a : Nat, (s.chip.quad q).lbAt = some a →
      exec (.loopbackTimeout q) s = .next (s.effect fun c =>
        (c.elapseAge (a + ms (c.get (.SERDES_LB_TIMEOUT q)))).testsEnd q)) ∧
    (∀ v : Word, takes s.chip rq (Reg.SERDES_L_PRBS q k) = true → 4 * q + k < 42 →
      (bitsOf v 3 3 = 1 → s.chip.mode ≠ 5 →
        exec (.prbsGeneratorSet rq q k v) s = .next (s.effect fun c => c.reject (Reg.SERDES_L_PRBS q k))) ∧
      (bitsOf v 3 3 = 0 → bitsOf v 11 11 = 0 → exec (.prbsGeneratorSet rq q k v) s = .next (s.effect fun c =>
        ((c.wr (Reg.SERDES_L_PRBS q k) (withBits (v &&& 0xf0f) 16 16 0)).testApply q (c.testLanes q)).lbTimer q false)) ∧
      (bitsOf v 3 3 = 1 → bitsOf v 11 11 = 0 → s.chip.mode = 5 → s.chip.upstreamLane q k = false →
        s.chip.flag (.SERDES_L_PRBS_GEN_EN q k) = false →
        exec (.prbsGeneratorSet rq q k v) s = .next (s.effect fun c =>
          (((c.wr (Reg.SERDES_L_PRBS q k) (withBits (v &&& 0xf0f) 16 16 0)).generatorStart q k).testApply q
            (c.testLanes q)).lbTimer q false))) ∧
    (takes s.chip rq (Reg.SERDES_L_PRBS q k) = true → 4 * q + k < 42 →
      s.chip.flag (.SERDES_L_PRBS_GEN_EN q k) = false → s.chip.flag (.SERDES_L_PRBS_CHK_EN q k) = false →
      exec (.prbsCheckerEnable rq q k) s = .next (s.effect fun c =>
        (((c.wr (Reg.SERDES_L_PRBS q k) (withBits ((c.rd (Reg.SERDES_L_PRBS q k) ||| 0x800) &&& 0xf0f) 16 16
          (c.get (.SERDES_L_PRBS_CHK_LOCK q k)))).checkerStart q k).testApply q (c.testLanes q)).lbTimer q false)) ∧
    (∀ bits : List Bool, 4 * q + k < 42 → s.chip.flag (.SERDES_L_PRBS_GEN_EN q k) = false →
      (s.chip.flag (.SERDES_L_PRBS_CHK_EN q k) = true → s.chip.lbCode q k = 0 →
        let l := s.chip.lane q k
        let x := prbsCheck (s.chip.get (.SERDES_L_PRBS_CHK_PAT q k)) (l.chk, l.run, 0) bits
        exec (.prbsCheckerLock q k bits) s = .next (s.effect fun c =>
          let e := c.put (.SERDES_L_PRBS_CHK_LOCK q k) (if 64 ≤ x.2.1 then 1 else 0)
          let lo := Reg.SERDES_L_PRBS_ERR_LO q k
          let hi := Reg.SERDES_L_PRBS_ERR_HI q k
          let d := (e.setPair lo hi (min (e.pair lo hi + x.2.2) (2 ^ 64 - 1))).setLane q k
            { l with chk := x.1, run := x.2.1, prbsSeen := l.prbsSeen || decide (0 < x.2.2) }
          if 0 < x.2.2 ∧ l.prbsSeen = false then d.raise (.SERDES_PRBS_ERR q) else d)) ∧
      (s.chip.flag (.SERDES_L_PRBS_CHK_EN q k) = false → s.chip.lbCode q k = 3 →
        exec (.prbsCheckerLock q k bits) s = .next (s.effect fun c => c.emit (.looped q k bits)))) ∧
    (s.chip.pwr.state = .deep → s.chip.isSender = true → bitAt (s.chip.nat Reg.PWR_WAKE_EN) 2 = true →
      exec (.laneMLink true) s = .next (s.effect fun c =>
        ((c.setNat Reg.PWR_WAKE_CAUSE 4).startCause 5).onPwr fun p =>
          { p with state := .waking, target := .dim, deepWake := true, dom := 1, step := none })) ∧
    (s.chip.pwr.state ≠ .deep → s.chip.isSender = true → ∀ up : Bool,
      up = false ∨ (s.chip.enabled 0x1a = true ∧ s.chip.flag .WELL_MGMT_CFG_EN = true) →
      exec (.laneMLink up) s = .next (s.effect fun c => c.put .WELL_MGMT_STAT_LINK (if up then 1 else 0)))

/-- At a cell boundary the waiting cell of highest rank leaves. On an enabled port that transmits a waiting beacon leaves
first, stamped with the time it leaves, then a RACK; then a command and a boot cell, each while its budget allows it
as long as pixel cells are owed; then pixel cells; with nothing waiting, idle. A port that does not transmit sends
nothing, and one that is not enabled idle blocks. At the deadline the pixel cells left are dropped, counted, and
DEADLINE_MISS raised if there were any. A RACK of the units received joins the queue where it falls due. A far
sender’s presence goes out on a ring’s port. REKEY takes a fresh key for the next epoch, and at the boundary the
sender tags under it. CELL_SCHEDULE, PIXEL_DEADLINE, RACK_DUE, FAR_PRESENCE_SLOT, REKEY_SEND and KEY_EPOCH_BOUNDARY
complete so. -/
def Obligations.CellsLeaveByRank : Prop :=
  ∀ (s : State) (n dt : Nat), n < 16 → s.chip.isSender = true →
    let now := fun (c : Chip) =>
      let d := c.elapse dt
      if d.pastDeadline n = true then d.atDeadline n else d
    let g := now s.chip
    let p := g.port n
    (g.sends n = false → exec (.cellSchedule n dt) s = .next (s.effect now)) ∧
    (g.sends n = true → g.enabled (0x20 + n) = false →
      exec (.cellSchedule n dt) s = .next (s.effect fun c => (now c).sendCell n .idle)) ∧
    (g.sends n = true → g.enabled (0x20 + n) = true →
      (∀ b r, p.beacons = .beacon b :: r → exec (.cellSchedule n dt) s = .next (s.effect fun c =>
        ((now c).onPort n fun p => { p with beacons := r }).sendCell n (.beacon { b with origin := (now c).bell.time }))) ∧
      (p.beacons = [] →
        (∀ x r, p.racks = x :: r → exec (.cellSchedule n dt) s = .next (s.effect fun c =>
          ((now c).onPort n fun p => { p with racks := r }).sendCell n x)) ∧
        (p.racks = [] →
          let fits := fun (x : Hdr × Cmd × Option (Nat × Nat)) =>
            p.pixDone = true ∨ p.cmdSpent + (Cell.command x.1 x.2.1).blocks ≤ g.get (.CHAIN_CMD_BUDGET_BLOCKS n)
          let fitsBoot := fun (x : Cell) => p.pixDone = true ∨ p.bootSpent + x.blocks ≤ g.get .UPDATE_BOOT_BUDGET_BLOCKS
          (∀ x r, p.cmds = x :: r → fits x →
            exec (.cellSchedule n dt) s = .next (s.effect fun c =>
              ((now c).onPort n fun p =>
                { p with cmds := r, cmdSpent := p.cmdSpent + (Cell.command x.1 x.2.1).blocks }).commandLeaves n x.1 x.2.1 x.2.2)) ∧
          ((∀ x ∈ p.cmds.head?, ¬fits x) →
            (∀ x r, p.boots = x :: r → fitsBoot x →
              exec (.cellSchedule n dt) s = .next (s.effect fun c =>
                ((now c).onPort n fun p => { p with boots := r, bootSpent := p.bootSpent + x.blocks }).sendCell n
                  (x.withKe ((now c).portKe n)))) ∧
            ((∀ x ∈ p.boots.head?, ¬fitsBoot x) →
              (∀ x r, p.pixels = x :: r →
                exec (.cellSchedule n dt) s = .next (s.effect fun c => (now c).pixelLeaves n x r)) ∧
              (p.pixels = [] → exec (.cellSchedule n dt) s =
                .next (s.effect fun c => (now c).sendCell n .idle))))))) ∧
    (s.chip.bell.tick.isSome = true →
      let late := fun (c : Chip) =>
        let d := c.elapseTo (c.deadline n)
        d.onPort n fun p => { p with pixels := [], pixDone := true }
      let k := (((s.chip.elapseTo (s.chip.deadline n)).port n).pixels).length
      (k ≠ 0 → exec (.pixelDeadline n) s = .next (s.effect fun c =>
        ((late c).countBy (Reg.CHAIN_DEADLINE_MISS n) k).raise (.CHAIN_DEADLINE_MISS n))) ∧
      (k = 0 → exec (.pixelDeadline n) s = .next (s.effect late))) ∧
    (let d := fun (c : Chip) =>
        c.elapseRet (c.retInstant (c.retNow n).1 (c.rateCode (n / 2)) (superframeLen (c.retNow n).2 - 1) + us 10);
      (d s.chip).enabled (0x20 + n) = true → (d s.chip).enabled 0x30 = true → (d s.chip).near n = true →
      (d s.chip).sends n = true → (d s.chip).chainState n ≠ 2 →
      exec (.rackDue n) s = .next (s.effect fun c => (d c).onPort n fun p =>
        { p with
          racks := p.racks ++ [.rack (d c).lastIndex p.units], units := [], quiet := if p.fresh then 0 else p.quiet + 1
          silent := p.silent + 1, fresh := false })) ∧
    (s.chip.twinOn = true → s.chip.ringed n = true → s.chip.near n = false → s.chip.linkUpAt n = true → s.chip.sends n = true →
      ∃ x : Slot, x.wdn = s.chip.sidx ∧
        exec (.farPresenceSlot n) s = .next (s.effect fun c => c.sendCell n (.slot 1024 x))) ∧
    (∀ k : Session, (s.chip.port n).session = some k → k.next = false → k.epoch = s.chip.lastIndex / 2 ^ 20 →
      s.chip.lastIndex + 64 ≤ (k.epoch + 1) * 2 ^ 20 →
      exec (.rekeySend (some n)) s = .next (s.effect fun c =>
        let x := c.slot (8 + n)
        let d := (c.redraw.setSlot (8 + n) { x with next := some (Config.kdf 3 [c.randomNow, x.key, k.epoch + 1]) }).onPort n
          fun p => { p with session := some { k with next := true }, rekeySent := c.lastIndex }
        d.sendFw n 3 0 0x45 0 0 (beBytes 4 (k.epoch + 1) ++ beBytes 32 c.randomNow))) ∧
    (s.chip.isTile = false →
      exec .keyEpochBoundary s = .next (s.effect fun c => (c.each (List.range 16) Chip.keyEpoch).twinEpoch)) ∧
    ∀ (c : Chip) (k : Session), (c.port n).session = some k → k.next = true → k.epoch < c.lastIndex / 2 ^ 20 →
      c.keyEpoch n =
        let x := c.slot (8 + n)
        let e := c.lastIndex / 2 ^ 20
        ((c.setSlot (8 + n) { x with key := x.next.getD x.key, next := none, epoch := e }).onPort n fun p =>
          { p with session := some ⟨e, false, false⟩ }).raise .KEYS_REKEYED

/-- A tile is found, verified, keyed and assigned, or listed with a reason. The answers of tiles act only on an enabled
port with the RET page on, and after their checks. A HELLO of a new serial makes it FOUND and asks for its identity.
With all four ID_PARTs a bad certificate, or one that is not of a tile with that serial, or a bad signature lists the
tile as a stranger, and good ones send KEYX; a valid KEYX_RESP assigns a tile whose WDN is known and lists another as
UNASSIGNED; REFUSED with cause 1 makes it foreign. The eighth unanswered ID_REQ lists it. A WDN written for an
unassigned entry, free and not reserved, is stored and assigns it. A port without UP after a second is LONELY, and a
round is begun when its period or silence says so. HELLO_RECEIVE, ID_PART_RECEIVE, ID_REQ_TIMEOUT, KEYX_RESP_RECEIVE,
REFUSED_RECEIVE, CHAIN_LIST_WDN, LONELY_TIMEOUT, DISCOVERY_ROUND and DISCOVERY_TIMEOUT complete so. -/
def Obligations.TilesAreFoundAndAdmitted : Prop :=
  ∀ (s : State) (n : Nat) (h : Hdr) (a : Answer) (rx : Rx), n < 16 → s.chip.isSender = true →
    let heard := s.chip.enabled (0x20 + n) = true ∧ s.chip.enabled 0x30 = true ∧ soundRx (.answer 0 a) h rx = true
    (heard → a.kind = 1 → s.chip.devOf n a.serial = none →
      ∀ (orient : Nat) (card : Option CalRec),
        exec (.helloReceive n h a orient card rx) s = .next (s.effect fun c => c.helloIn n a orient card)) ∧
    (∀ (c : Chip) (serial depth : Nat) (desc : List Byte) (hash orient : Nat), c.devOf n serial = none →
      c.hello n serial depth desc hash orient =
        let d := ((c.putDev n { newDev serial with
          depth := depth, desc := desc, hash := hash * 2 ^ 256, orient := orient }).onPort n fun p =>
            { p with fresh := true, silent := 0 }).raise (.CHAIN_FOUND n)
        (d.when (d.miswired n orient) fun d => d.raise .SYS_MISWIRED).sendIdReq n serial) ∧
    (∀ d : Dev, s.chip.devOf n a.serial = some d →
      (heard → a.kind = 2 → d.st = .verifying → a.part < 4 → ∀ (cert sig : Bool),
        let parts := assocPut d.parts a.part a.body
        let e := { d with parts := parts }
        let good := cert = true ∧ idCertOk e.identity 1 = true ∧ beField e.identity 8 8 = a.serial
        (parts.length < 4 → exec (.idPartReceive n h a cert sig rx) s = .next (s.effect fun c => c.putDev n e)) ∧
        (4 ≤ parts.length → s.chip.fuses.lifecycle ≠ 2 →
          (¬good → exec (.idPartReceive n h a cert sig rx) s = .next (s.effect fun c => c.makeStranger n e 2)) ∧
          (good → sig = false →
            exec (.idPartReceive n h a cert sig rx) s = .next (s.effect fun c => c.makeStranger n e 3)) ∧
          (good → sig = true → exec (.idPartReceive n h a cert sig rx) s = .next (s.effect fun c =>
            ((c.putDev n { e with st := .keying }).sendFw n 1 (c.devPos n e) 0x42 0 0 (c.keyxData n e.nonce)).redraw)))) ∧
      (d.st = .verifying ∨ d.st = .keying →
        (d.idReqs < 7 → exec (.idReqTimeout n a.serial) s = .next (s.effect fun c =>
          (c.putDev n { d with idReqs := d.idReqs + 1 }).sendIdReq n a.serial)) ∧
        (7 ≤ d.idReqs → exec (.idReqTimeout n a.serial) s = .next (s.effect fun c =>
          c.makeStranger n { d with idReqs := d.idReqs + 1 } 4))) ∧
      (heard → d.st = .keying →
        (a.kind = 3 →
          (∀ w : Nat, s.chip.wdnFor n d = some w → exec (.keyxRespReceive n h a true rx) s =
            .next (s.effect fun c => (c.assignDev n d w).calWaiting)) ∧
          (s.chip.wdnFor n d = none → exec (.keyxRespReceive n h a true rx) s = .next (s.effect fun c =>
            (((c.putDev n { d with st := .unassigned, first := 0, count := 0, listedAt := c.age }).listAdd n
              ⟨a.serial, 3, d.depth, 0⟩).raise (.CHAIN_UNASSIGNED n)).calWaiting)) ∧
          exec (.keyxRespReceive n h a false rx) s =
            .next (s.effect fun c => (c.idUnanswered n a.serial).calWaiting)) ∧
        (a.kind = 4 →
          (leNat (a.body.take 1) = 1 → exec (.refusedReceive n h a rx) s = .next (s.effect fun c =>
            ((c.putDev n { d with st := .foreign, listedAt := c.age }).listAdd n ⟨a.serial, 1, d.depth, 5⟩).raise
              (.CHAIN_FOREIGN n))) ∧
          (leNat (a.body.take 1) ≠ 1 → exec (.refusedReceive n h a rx) s = .next (s.effect fun c =>
            (c.putDev n { d with st := .found }).idUnanswered n a.serial))))) ∧
    (∀ (rq : Requester) (v : Word) (e : ListEntry), takes s.chip rq (Reg.CHAIN_LIST_WDN n) = true → bitsOf v 31 31 = 1 →
      (s.chip.port n).list[s.chip.get (.CHAIN_LIST_IDX_IDX n)]? = some e → s.chip.isTile = false →
      (e.kind = 3 → 0x40 ≤ bitsOf v 15 0 → (s.chip.store.wdns.any fun x => x.2 == bitsOf v 15 0 && x.1 != e.serial) = false →
        exec (.chainListWdn rq n v) s = .next (s.effect fun c =>
          let d := ((c.onStore fun t => { t with wdns := assocPut t.wdns e.serial (bitsOf v 15 0) }).writeCfg
            c.sections).listDel n e.serial
          (match d.devOf n e.serial with
            | none => d
            | some x => d.assignDev n x (bitsOf v 15 0)).calWaiting)) ∧
      (e.kind ≠ 3 ∨ bitsOf v 15 0 < 0x40 → exec (.chainListWdn rq n v) s =
        .next (s.effect fun c => (c.reject (Reg.CHAIN_LIST_WDN n)).calWaiting))) ∧
    (s.chip.enabled (0x20 + n) = true →
      (s.chip.chainState n = 0 → s.chip.linkUpAt n = false → s.chip.flag (.CHAIN_CFG_DISC_EN n) = true → exec (.lonelyTimeout n) s =
        .next (s.effect fun c => (c.put (.CHAIN_STATE_STATE n) 1).raise (.CHAIN_LONELY n))) ∧
      (s.chip.chainState n = 1 → s.chip.linkUpAt n = true →
        exec (.lonelyTimeout n) s = .next (s.effect fun c => c.startDiscovery n)) ∧
      (s.chip.chainState n = 3 → s.chip.get (.CHAIN_DISC_PERIOD n) ≠ 0 → exec (.discoveryRound n) s =
        .next (s.effect fun c => (c.onPort n fun p => { p with discAt := c.age }).discover n))) ∧
    (s.chip.chainState n = 2 → 16 ≤ (s.chip.port n).silent → exec (.discoveryTimeout n) s =
      .next (s.effect fun c => (c.put (.CHAIN_STATE_STATE n) 1).raise (.CHAIN_LONELY n)))

/-- What slots and records of tiles do at the sender. A slot after no stray block with a wrong header CRC, cut short, with
a wrong content CRC or with a wrong tag has no effect but its counters and event; a sound slot of a known tile that is
not muted is taken. The census of block 0 is kept, and a change of it is told. A record at the head of the burst queue
is taken off and acts: a completion on the command it answers, an event and a telemetry sample on the enabled pairs of
its tile, drops on their counts, BOOT and MUTE_REPORT on the tile’s record, MANDATE on its Elder. A MUTED cell
suspends an admitted tile. A unit that stays empty is counted, and the tile is lost at the limit. A command without an
answer by its timeout ends for the tiles still silent. SLOT_RECEIVE, CENSUS_RECEIVE, COMPLETION_RECORD, EVENT_RECORD,
TELEMETRY_RECORD, DROPS_RECORD, BOOT_RECORD, MUTE_REPORT, MANDATE_RECORD, MUTED_RECEIVE, UNIT_EMPTY and NO_RESPONDER
complete so. -/
def Obligations.SlotsAndRecordsOfTiles : Prop :=
  ∀ (s : State) (n : Nat), n < 16 → s.chip.isSender = true →
    (∀ (unit : Nat) (h : Hdr) (x : Slot) (rx : Rx) (c : Chip) (pre : Chip → Chip), c.examines n = true → c.isTile = false →
      ((c.port n).drift.any fun d => d.wdn == x.wdn && d.muted) = false → rx.pre = [] →
      let y := Cell.slot unit x
      (rx.hcrc ≠ y.hcrc h → rx.cut = none →
        c.slotIn n unit h x rx pre = (c.count (Reg.CHAIN_HCRC_ERR n)).countBy (Reg.CHAIN_ORPHAN n) 17) ∧
      (rx.hcrc = y.hcrc h → rx.cut = none →
        (rx.crc ≠ y.crc h rx.tag → c.slotIn n unit h x rx pre = c.count (Reg.CHAIN_CRC_ERR n)) ∧
        (rx.crc = y.crc h rx.tag →
          (c.portTagOk n y h rx = false →
            c.slotIn n unit h x rx pre = (c.count (Reg.CHAIN_TAG_ERR n)).raise (.CHAIN_TAG_FAIL n)) ∧
          ∀ d, c.portTagOk n y h rx = true → (pre c).devWdn n x.wdn = some d →
            c.slotIn n unit h x rx pre = (pre c).slotFrom n unit d x)) ∧
      ∀ k b, rx.hcrc = y.hcrc h → rx.cut = some (k, b) →
        c.slotIn n unit h x rx pre = (Chip.stray n (c, 1) b).1) ∧
    (∀ (unit : Nat) (h : Hdr) (x : Slot) (rx : Rx), s.chip.twinOn = false → s.chip.ringed n = false →
      exec (.slotReceive n unit h x rx) s = .next (s.effect fun c =>
        (c.slotIn n unit h x rx fun c => c.twinSlot n unit x).segmentOut n)) ∧
    (∀ (h : Hdr) (rx : Rx), s.chip.examines n = true → soundRx (.census h.dest) h rx = true →
      exec (.censusReceive n h rx) s = .next (s.effect fun c => (c.censusIn n h.dest).ringChanged)) ∧
    (∀ (d : Chip) (port wdn : Nat) (r : Rec),
      (s.chip.popRecord fun _ => true) = some (d, port, wdn, r) →
      d = (s.chip.onWell fun w => { w with queue := w.queue.drop 1 }).showBurst ∧
      (∀ token status cause dup data, r = .completion token status cause dup data →
        let x := d.completionIn port wdn token status cause dup data
        (x.2 = none → exec .completionRecord s = .next (s.effect fun _ => x.1)) ∧
        ∀ f, x.2 = some f → exec .completionRecord s = .next (s.effect fun _ =>
          ((x.1.fwAnswer port wdn f status data).relAnswer port wdn f status).calWaiting)) ∧
      (∀ page bits occ, r = .event page bits occ → exec .eventRecord s = .next (s.effect fun _ =>
        d.each ((d.pairsOf wdn).filter fun w =>
          match d.pairAt w with
          | some p => bitAt p.rflags 1
          | none => false) fun d w => d.putEvent w page bits occ)) ∧
      (∀ sub sample, r = .telemetry sub sample → exec .telemetryRecord s =
        .next (s.effect fun _ => d.each (d.pairsOf wdn) fun d w => d.putTelemetry w sub sample)) ∧
      (∀ k, r = .drops k → exec .dropsRecord s = .next (s.effect fun _ =>
        d.each (d.pairsOf wdn) fun d w => (d.onPair w fun p => { p with dropTel := p.dropTel + k }).putDrops w)) ∧
      (∀ image first last st, r = .boot image first last st →
        exec .bootRecord s = .next (s.effect fun _ => (d.bootRec port wdn image first last st).calWaiting)) ∧
      (∀ muted run total clean, r = .muteReport muted run total clean →
        exec .muteReport s = .next (s.effect fun _ => d.muteReportIn port wdn muted clean)) ∧
      ∀ holder epoch k, r = .mandate holder epoch → d.elderOf wdn = some k →
        exec (.mandateRecord none) s = .next (s.effect fun _ => d.mandateIn k holder epoch)) ∧
    (∀ m : Nat × Nat × Nat, m.1 < 3 → m.2.1 < 64 →
      exec (.mandateRecord (some m)) s = .next (s.effect fun c => c.mandateIn m.1 m.2.1 m.2.2)) ∧
    (∀ (wdn : Nat) (d : Dev), s.chip.devWdn n wdn = some d → s.chip.examines n = true →
      ∀ (h : Hdr) (rx : Rx), h.dest = wdn → soundRx (.muted wdn) h rx = true →
      (d.st = .admitted →
        exec (.mutedReceive n h rx) s =
          .next (s.effect fun c => c.putDev n { d with st := .suspended, unmuting := false })) ∧
      (d.st ≠ .admitted → exec (.mutedReceive n h rx) s = .next (s.effect fun c => c))) ∧
    (∀ (wdn : Nat) (d : Dev), s.chip.devWdn n wdn = some d → d.st = .admitted → s.chip.enabled (0x20 + n) = true →
      exec (.unitEmpty n wdn) s = .next (s.effect fun c =>
        let x := { d with missed := d.missed + 1 }
        let e := ((c.putDev n x).count (Reg.CHAIN_SLOT_MISS n)).raise (.CHAIN_SLOT_MISS n)
        (if max (e.get (.CHAIN_LOSS_CNT_COUNT n)) 1 ≤ x.missed then e.loseDev n x else e).ringChanged)) ∧
    exec (.noResponder n) s = .next (s.effect fun c =>
      let out := (c.port n).flight.filter fun f =>
        decide (f.sentTick + max (c.get (.CHAIN_RSP_TMO_TICKS n)) 1 ≤ c.lastIndex)
      (c.noResponder n).fwLost n 2 out)

/-- A new command is carried out once and completed. A tile that takes a tagged command as a new one passes it on, moves
its counter, carries the OP out and queues the completion with the OP’s status, cause and data under the TOKEN:
register and bulk accesses, actions, subscriptions, the commands of the link and of a mode switch, releases of images,
claims and burns. A read of one register returns its word, with cause FABRIC on a fabric error; ASSIGN takes the WDN
and a keyed tile to ASSIGNED, ADMIT an assigned tile to ADMITTED; a seventeenth subscription fails with LIMIT; a claim
is burned where the signature holds and a record is free. REG_RD, REG_WR, BULK_WR, BULK_RD, ACTION, TEL_SUB, ASSIGN,
ADMIT, REKEY, UNMUTE, TAIL_OFF, GROUPS, MODE_ARM, MODE_GO, MODE_ABORT, ACT_ARM, ACT_GO, ACT_ABORT, ANTI_ROLLBACK_BURN,
CLAIM and RELEASE complete so. -/
def Obligations.TilesCarryOutCommands : Prop :=
  ∀ (s : State) (port : Nat) (h : Hdr) (x : Cmd) (rx : Rx), port < 2 →
    (newCommand s.chip port h x rx [0, 1, 2, 3] = true →
        exec (.regRd port h x rx) s = .next (s.effect fun c => answered x ((begun c port h x rx).regRdIn x)) ∧
        exec (.regWr port h x rx) s = .next (s.effect fun c => answered x ((begun c port h x rx).regWrIn x)) ∧
        exec (.bulkWr port h x rx) s = .next (s.effect fun c => answered x ((begun c port h x rx).bulkWrite x.addr x.data)) ∧
        exec (.telSub port h x rx) s = .next (s.effect fun c => answered x ((begun c port h x rx).telSubIn x)) ∧
        exec (.modeArm port h x rx) s = .next (s.effect fun c => answered x ((begun c port h x rx).modeArmIn x)) ∧
        exec (.modeGo port h x rx) s = .next (s.effect fun c => answered x ((begun c port h x rx).modeGoIn)) ∧
        exec (.modeAbort port h x rx) s = .next (s.effect fun c => answered x ((begun c port h x rx).modeAbortIn)) ∧
        exec (.actArm port h x rx) s = .next (s.effect fun c => answered x ((begun c port h x rx).actArmIn x)) ∧
        exec (.actGo port h x rx) s = .next (s.effect fun c => answered x ((begun c port h x rx).actGoIn)) ∧
        exec (.actAbort port h x rx) s = .next (s.effect fun c => answered x ((begun c port h x rx).actAbortIn)) ∧
        exec (.antiRollbackBurn port h x rx) s = .next (s.effect fun c => answered x ((begun c port h x rx).burnIn x)) ∧
        ∀ sig burn : Bool,
          exec (.action port h x rx sig burn) s =
              .next (s.effect fun c => answered x ((begun c port h x rx).actionIn x sig burn)) ∧
            exec (.claim port h x rx sig burn) s = .next (s.effect fun c =>
              answered x (claimAns ((begun c port h x rx).claim (Config.sha384 (x.data.take 97)) sig burn))) ∧
            exec (.releaseClaim port h x rx sig burn) s = .next (s.effect fun c =>
              answered x (claimAns ((begun c port h x rx).releaseClaim (Config.sha384 (x.data.take 97)) sig burn)))) ∧
    (newCommand s.chip port h x rx [0] = true →
        exec (.admitTile port h x rx) s = .next (s.effect fun c => answered x ((begun c port h x rx).admitIn x)) ∧
        exec (.unmute port h x rx) s = .next (s.effect fun c => answered x ((begun c port h x rx).unmuteIn x)) ∧
        exec (.tailOff port h x rx) s = .next (s.effect fun c => answered x ((begun c port h x rx).tailOffIn)) ∧
        exec (.groups port h x rx) s = .next (s.effect fun c => answered x ((begun c port h x rx).groupsIn x)) ∧
        exec (.bulkRd port h x rx) s = .next (s.effect fun c =>
          answered x (begun c port h x rx, (begun c port h x rx).bulkRead x.addr x.data.length))) ∧
    (newCommand s.chip port h x rx [1] = true →
        exec (.assign port h x rx) s = .next (s.effect fun c => answered x ((begun c port h x rx).assignIn x))) ∧
    (newCommand s.chip port h x rx [3] = true →
        exec (.rekey port h x rx) s = .next (s.effect fun c => answered x ((begun c port h x rx).rekeyIn x))) ∧
    ∀ c : Chip,
      (x.data.length = 4 → c.regRdIn x =
        ((c.regRead .chain x.addr).1,
          if c.fabricCause .chain x.addr false = 0 then ⟨0, 0, leBytes 4 (c.regRead .chain x.addr).2.toNat⟩
          else ⟨1, 2, leBytes 4 (c.regRead .chain x.addr).2.toNat⟩)) ∧
      (x.data.length = 4 → c.regWrIn x =
        (c.regWriteAny .chain x.addr (BitVec.ofNat 32 (leNat x.data)),
          if c.fabricCause .chain x.addr true = 0 then ⟨0, 0, []⟩ else ⟨1, 2, []⟩)) ∧
      ((c.assignIn x).1.get .SYS_DOMAIN_WDN = x.arg % 65536 ∧ (c.assignIn x).1.flag .SYS_DOMAIN_WDN_VALID = true ∧
        (c.tile.st = 2 → (c.assignIn x).1.tile.st = 3)) ∧
      ((c.admitIn x).1.tile.admitTick = x.addr * 2 ^ 32 + x.arg ∧ (c.tile.st = 3 → (c.admitIn x).1.tile.st = 4)) ∧
      (16 ≤ (c.tile.subs.filter fun y => y.id != x.arg / 65536 % 65536).length → x.arg % 256 ≠ 0 →
        c.telSubIn x = (c, ⟨1, 15, []⟩)) ∧
      (c.fuses.claimed = false → c.fuses.spent = false → ∀ hash : Nat,
        (c.claim hash true true).2 = 0 ∧ (c.claim hash true true).1.fuses.claims = c.fuses.claims ++ [(hash, false)] ∧
          c.claim hash false true = (c, 128) ∧ c.claim hash true false = (c, 132))

/-- A tile refuses what is not tagged, stale or not for it, and repeats what it has done. A command that is not sound, or
comes from the other side, has no effect but its counters, and one from upstream still goes on; one that does not name
the tile only goes on. One without a tag, or with a wrong one, counts a tag failure and raises TAG_FAIL; a CTR that is
not beyond the last is counted as a replay; a TOKEN that is kept is answered again with DUP and not carried out; an
unknown OP completes FAILED with cause UNKNOWN_OP and an AMODE outside the OP’s column with cause TARGET, neither
kept. Sixteen ticks after a key boundary the old key is dropped, and at the boundary the tile goes over to the new
one. OLD_KEY_EXPIRY and KEY_EPOCH_BOUNDARY complete so. -/
def Obligations.TagsGuardCommands : Prop :=
  (∀ (c : Chip) (port : Nat) (h : Hdr) (x : Cmd) (rx : Rx) (amodes : List Nat) (run : Chip → Chip × Ans),
    c.isTile = true → port < 2 → rx.pre = [] →
    let y := Cell.command h x
    let d := c.passDown port y h rx
    (rx.cut = none → rx.hcrc ≠ y.hcrc h → c.tileCmd port h x rx amodes run =
      (d.count (Reg.CHAIN_HCRC_ERR port)).countBy (Reg.CHAIN_ORPHAN port) (y.blocks - 1)) ∧
      (rx.hcrc = y.hcrc h → c.flag .ELDER_T_CFG_RING = false → c.tile.up = some (1 - port) →
        c.tileCmd port h x rx amodes run = d.count (Reg.CHAIN_ORPHAN port)) ∧
      (rx.hcrc = y.hcrc h → c.tile.up = some port →
        (∀ n b, rx.cut = some (n, b) → c.tileCmd port h x rx amodes run = (Chip.stray port (d, 1) b).1) ∧
        (rx.cut = none → rx.crc ≠ y.crc h rx.tag → c.tileCmd port h x rx amodes run = d.count (Reg.CHAIN_CRC_ERR port))) ∧
      (soundRx y h rx = true → c.tile.up = some port →
        (c.namesMe h = false → c.tileCmd port h x rx amodes run = d) ∧
        (c.namesMe h = true →
          (x.unauth = true → c.tileCmd port h x rx amodes run = d.tagErr) ∧
          (x.unauth = false → c.tile.session.isSome = true → c.tagOk y h rx = false →
            c.tileCmd port h x rx amodes run = d.tagErr) ∧
          (x.unauth = false → c.tagOk y h rx = true →
            (x.ctr ≤ c.tile.ctrMax → c.tileCmd port h x rx amodes run = d.count (Reg.CHAIN_REPLAY_REJ c.upPort)) ∧
            (c.tile.ctrMax < x.ctr →
              (∀ k, assoc c.tile.kept x.token = some k → c.tileCmd port h x rx amodes run =
                ((begun c port h x rx).onTile fun t => { t with dupSeen := true }).queueRec k.withDup) ∧
              (assoc c.tile.kept x.token = none →
                (knownOps.contains x.op = false → c.tileCmd port h x rx amodes run =
                  (begun c port h x rx).queueRec (.completion x.token 1 1 false [])) ∧
                (knownOps.contains x.op = true → amodes.contains h.amode = false → c.tileCmd port h x rx amodes run =
                  (begun c port h x rx).queueRec (.completion x.token 1 12 false [])))))))) ∧
    ∀ (s : State) (k : Session), s.chip.isTile = true → s.chip.tile.session = some k →
      (k.old = true → k.epoch * 2 ^ 20 + 16 ≤ s.chip.lastIndex → exec .oldKeyExpiry s = .next (s.effect fun c =>
        (c.setSlot 8 { c.slot 8 with next := none }).onTile fun t => { t with session := some { k with old := false } })) ∧
      (k.next = true → k.epoch < s.chip.lastIndex / 2 ^ 20 → exec .keyEpochBoundary s = .next (s.effect fun c =>
        let x := c.slot 8
        let e := c.lastIndex / 2 ^ 20
        ((c.setSlot 8 { x with key := x.next.getD x.key, next := some x.key, epoch := e }).onTile fun t =>
          { t with session := some ⟨e, false, true⟩ }).raise .KEYS_REKEYED))

/-- A tile answers discovery, is keyed, loads its image and starts its firmware. A tile without a session answers DISCOVER
with a HELLO in place of one that still waits, ID_REQ with a fresh nonce and its four parts, and KEYX with a session
and KEYX_RESP, or with REFUSED and the first cause that holds (the order of the causes is the model’s choice, log
entry 192). An answer goes out in its unit, or is deferred and counted. A boot cell of an image the tile waits for is
kept; a whole image is judged, measured and started, or fails with its result; one staged for a release is marked
staged. Firmware starts once in Waking. A subscription whose period is over is sampled. The tile action of R266 keeps
the readings of used ports. DISCOVER, ID_REQ, KEYX, ANSWER_TRANSMIT, BOOT_CELL, IMAGE_VERIFY_DONE, FIRMWARE_START,
TELEMETRY_SAMPLE and TRIM_MEASURE complete so. -/
def Obligations.TilesIdentifyThemselvesAndStart : Prop :=
  (∀ (s : State) (port : Nat) (h : Hdr) (x : Cmd) (rx : Rx),
    let d := fun (c : Chip) => c.passDown port (.command h x) h rx
    (openCommand s.chip port h x rx 3 = true → exec (.discover port h x rx) s = .next (s.effect fun c =>
      ((d c).onTile fun t => { t with answers := t.answers.filter fun a => a.kind != 1 }).answerWith 1 0 (d c).helloBody)) ∧
    (openCommand s.chip port h x rx 1 = true →
      exec (.idReq port h x rx) s = .next (s.effect fun c => (d c).idReqIn h x.data) ∧
        (s.chip.flag .GATE_QUAR_ACTIVE = false → s.chip.fuses.lifecycle ≠ 2 →
          ∀ (cert sig owner wrap next : Bool) (epoch : Nat),
            let fresh := beField x.data 0x2a8 48 = s.chip.tile.nonce
            let mine := s.chip.claimCheck x.data = true ∧ (s.chip.fuses.claimed = true → owner = true)
            let told := fun (k : Nat) => exec (.keyx port h x rx cert sig owner wrap epoch next) s =
              .next (s.effect fun c => (d c).answerWith 4 0 (beBytes 1 k))
            (cert = false ∨ idCertOk x.data 0 = false → told 2) ∧
            (cert = true → idCertOk x.data 0 = true →
              (¬fresh → told 4) ∧
              (fresh → sig = false → told 3) ∧
              (fresh → sig = true → ¬mine → told 1) ∧
              (fresh → sig = true → mine → wrap = false → told 5) ∧
              (fresh → sig = true → mine → wrap = true →
                ∃ body, exec (.keyx port h x rx cert sig owner wrap epoch next) s = .next (s.effect fun c =>
                  let key := Config.kdf 4 [beNat x.data, (c.slot 0).key]
                  let e := (d c).setSlot 8 (loadedSlot 2 key epoch
                    (if next then some (Config.kdf 5 [beNat x.data, (c.slot 0).key]) else none))
                  ((e.onTile fun t => { t with session := some ⟨epoch, next, false⟩, ctrMax := 0 }).setTileState 2).answerWith 3
                    0 body))))) ∧
    (s.chip.isTile = true →
      (∀ a r, s.chip.tile.answers = a :: r → s.chip.servo ≠ 0 →
        let g := fun (c : Chip) => c.elapseSlot (windowBlock (1024 + c.answerUnit))
        exec (.answerTransmit true) s = .next (s.effect fun c =>
          (g c).redraw.count (Reg.CHAIN_ANS_DEFER (g c).upPort)) ∧
          exec (.answerTransmit false) s = .next (s.effect fun c =>
            (((g c).onTile fun t => { t with answers := r }).sendUp (.answer (g c).answerUnit a)).redraw)) ∧
      (∀ (id off : Nat) (data : List Byte) (staged : Bool), port < 2 → soundRx (.boot h id off data) h rx = true →
        s.chip.tile.up = some port → s.chip.namesMe h = true → h.amode ≠ 0 → s.chip.wantsImage id = some staged →
        s.chip.tile.image = none →
        exec (.bootCell port h id off data rx) s = .next (s.effect fun c =>
          ((c.passDown port (.boot h id off data) h rx).onTile fun t =>
            { t with image := some ((newImage id staged).take off data), bootTold := false }).showStage)) ∧
      (∀ (i : Image) (sig : Bool), s.chip.tile.image = some i → i.whole = true → i.state = 0 →
        let v := s.chip.verdict i sig
        let hash := Config.sha384 (memBytes i.data 0 (i.length.getD 0))
        (i.staged = false → v = 1 → exec (.imageVerifyDone sig) s = .next (s.effect fun c =>
          (c.extend 1 (beBytes 48 hash)).onTile fun t => { t with firmware := some hash })) ∧
        (i.staged = false → v ≠ 1 → exec (.imageVerifyDone sig) s = .next (s.effect fun c =>
          ((c.put .GATE_BOOT_STAGE 5).put .GATE_BOOT_RESULT (if v = 4 then 4 else if v = 3 then 3 else 2)).onTile fun t =>
            { t with image := some { i with state := v }, bootTold := false })) ∧
        (i.staged = true → exec (.imageVerifyDone sig) s = .next (s.effect fun c =>
          (c.onTile fun t => { t with image := some { i with state := v }, bootTold := false }).stagedNow (v == 2)))) ∧
      (∀ iref : Nat, s.chip.tile.running = false → s.chip.tile.firmware.isSome = true → s.chip.pwr.state = .waking →
        s.chip.pwr.booted = false → exec (.firmwareStart iref) s = .next (s.effect fun c =>
          ((((((c.onTile fun t =>
            { t with running := true, image := t.image.map fun i => { i with state := 1 }, bootTold := false }).corrInit).pageEnable
              0xa1).pageEnable 0xa0).firmwareLamps iref).updShow).bootDone)) ∧
      ((∀ y ∈ s.chip.tile.subs, y.left ≠ 0) → exec .telemetrySample s = .next (s.effect fun c => c)) ∧
      (∀ y : TelSub, s.chip.tile.subs = [y] → y.left = 0 → exec .telemetrySample s = .next (s.effect fun c =>
        let r := c.telWords y.addr y.words
        (r.1.onTile fun t =>
          { t with subs := t.subs.map fun z => if z.id = y.id then { z with left := z.period } else z }).telQueue y.id r.2)) ∧
      (∀ l : List (Nat × Nat), s.chip.enabled 0xa6 = true → exec (.trimMeasure l) s = .next (s.effect fun c =>
        c.onLamp fun y => { y with meas := l.filter fun m => decide (m.1 < 480) && c.portUsed m.1 })))) ∧
  ∀ (c : Chip) (h : Hdr) (challenge : List Byte), c.flag .GATE_QUAR_ACTIVE = false → c.fuses.lifecycle ≠ 2 →
    (c.idReqIn h challenge).tile.nonce = c.randomNow % 2 ^ 384 ∧ (c.idReqIn h challenge).draws = c.draws + 1 ∧
      ∃ w x y z : Answer, (c.idReqIn h challenge).tile.answers = c.tile.answers ++ [w, x, y, z] ∧
        (w.kind = 2 ∧ x.kind = 2 ∧ y.kind = 2 ∧ z.kind = 2) ∧ w.part = 0 ∧ x.part = 1 ∧ y.part = 2 ∧ z.part = 3

/-- A slice is received, checked, corrected and shown, or held. A pixel cell for an admitted tile in an open period
corrects its pixels into the back buffer while the slice is IDLE or RECEIVING and nothing is wrong with the cell, and
else fails the slice with the first cause of R223; after a decision, which falls due by itself, it is counted as
AFTER, and a cell of a slice already complete fails it. The tag verifies a complete slice or fails it with GMAC_FAIL.
The decision, at its instant, arms the swap of a slice verified in time with its current limit, and else closes the
slice with its counter and event. At the swap instant an armed swap exchanges the buffers; one not armed holds the
frame. A lamp’s code never exceeds 65,535. PIXEL_CELL, SLICE_TAG_RESULT, SWAP_DECISION and SWAP complete so. -/
def Obligations.SlicesAreShownOrHeld : Prop :=
  (∀ (s : State) (port : Nat) (h : Hdr) (p : PixHdr) (data : List Byte) (rx : Rx),
    let g := fun (c : Chip) => (c.passDown port (.pixel h p data) h rx).decideDue
    let c := g s.chip
    let k := c.cellCause p
    pixelFor s.chip port h p data rx = true → c.nim.open_ = true → p.frame = c.nim.period % 65536 →
    c.tile.admitTick ≤ c.nim.period → c.enabled 0xa0 = true →
    (c.slice = 5 → exec (.pixelCell port h p data rx) s = .next (s.effect fun c =>
      ((g c).count Reg.NIMBUS_AFTER_CNT).raise .NIMBUS_AFTER)) ∧
    (c.slice = 4 → exec (.pixelCell port h p data rx) s = .next (s.effect g)) ∧
    (c.slice = 2 ∨ c.slice = 3 → exec (.pixelCell port h p data rx) s = .next (s.effect fun c => (g c).sliceFail 3)) ∧
    (c.slice = 0 ∨ c.slice = 1 →
      (k ≠ 0 → exec (.pixelCell port h p data rx) s = .next (s.effect fun c => (g c).sliceFail k)) ∧
      (k = 0 → exec (.pixelCell port h p data rx) s = .next (s.effect fun c =>
        let d := ((g c).sliceTake h p data rx.tag).onNim fun n => { n with code := p.code }
        let e := d.correctAll (bitsOfCode p.code) p.off
          (unpackPixels (bitsOfCode p.code) p.npix ((g c).decipher h p data))
        (e.put .NIMBUS_RX_PIXELS (p.off + p.npix)).setSlice (if p.last then 2 else 1))))) ∧
  (∀ s : State, s.chip.isTile = true →
    (s.chip.decideDue.slice = 2 →
      (s.chip.decideDue.sliceTagOk = true → exec .sliceTagResult s = .next (s.effect fun c =>
        (c.decideDue.setSlice 3).onNim fun n => { n with readyAt := c.decideDue.bell.time })) ∧
      (s.chip.decideDue.sliceTagOk = false → exec .sliceTagResult s = .next (s.effect fun c =>
        let d := c.decideDue.sliceFail 5
        (d.count (Reg.CHAIN_TAG_ERR d.upPort)).raise .NIMBUS_GMAC_FAIL))) ∧
    (s.chip.gridAhead = true ∨ s.chip.syncTicks = true →
      let g := fun (c : Chip) => if c.gridAhead then c.elapseTo c.decideInstant else c
      let shut := fun (c d : Chip) =>
        ((d.setSlice 5).onNim fun n => { n with decided := true }).onTile fun t =>
          { t with held := true, gmacFail := t.gmacFail || (c.slice == 4 && c.nim.cause == 5) }
      (g s.chip).nim.open_ = true →
      ((g s.chip).slice = 3 → (g s.chip).inTime = true → exec .swapDecision s = .next (s.effect fun c =>
        let e := (g c).estimate
        let d := ((((g c).put .NIMBUS_STAT_ARMED 1).put .LAMP_ILIM_EST_MA e.1).onNim fun n => { n with limk := e.2 }).setSlice 5
        d.onNim fun n => { n with decided := true })) ∧
      ((g s.chip).slice = 0 → exec .swapDecision s = .next (s.effect fun c =>
        shut (g c) ((g c).count Reg.NIMBUS_EMPTY_CNT))) ∧
      ((g s.chip).slice = 4 → exec .swapDecision s = .next (s.effect fun c =>
        shut (g c) (((((g c).count Reg.NIMBUS_INVALID_CNT).raise .NIMBUS_INVALID).put .NIMBUS_LAST_FAIL_FRAME
          (g c).nim.period).put .NIMBUS_LAST_FAIL_CAUSE (g c).nim.cause))) ∧
      ((g s.chip).slice = 1 ∨ (g s.chip).slice = 2 ∨ ((g s.chip).slice = 3 ∧ (g s.chip).inTime = false) →
        exec .swapDecision s = .next (s.effect fun c =>
          shut (g c) (((((g c).count Reg.NIMBUS_LATE_CNT).raise .NIMBUS_LATE).put .NIMBUS_LAST_FAIL_FRAME
            (g c).nim.period).put .NIMBUS_LAST_FAIL_CAUSE 6)))) ∧
    (s.chip.gridAhead = true → s.chip.nim.band ≠ 0 ∨ s.chip.nextTick = s.chip.nim.period + 1 →
      let g := fun (c : Chip) => c.decision.elapseTo c.swapInstant
      let f := fun (c : Chip) => ((g c).put .NIMBUS_STAT_ARMED 0).onNim fun n => { n with decided := false }
      (g s.chip).nim.decided = true → (g s.chip).tile.locator = false →
      ((g s.chip).flag .NIMBUS_STAT_ARMED = false → exec .swap s = .next (s.effect fun c => (f c).swapHeld)) ∧
      ((g s.chip).flag .NIMBUS_STAT_ARMED = true → (g s.chip).enabled 0xa0 = true →
        exec .swap s = .next (s.effect fun c => (f c).swapArmed)))) ∧
  ∀ (m : Nat → Dy) (ofs scale d : Dy) (x : List Dy), (lampCode m ofs x scale d).1 ≤ 65535

/-- A tile’s slots, census and measured neighbours. A slot of an owned unit repeats the records of the last one until it
is acknowledged, and the last unit clears what the status told; a unit that is not the tile’s is left alone. Records
go out in order, none cut, as many as fit the field. A RACK moves the units it names on to new records, and one with a
wrong tag does nothing but count; a superframe without one raises RACK_MISS. Block 0 takes a sound census from
downstream one higher; the third start block in a row that lies beyond two blocks mutes its owner. SLOT_TRANSMIT,
RACK_RECEIVE, RACK_MISS, CENSUS and SLOT_UNIT_FORWARD complete so. -/
def Obligations.ReturnSlotsOfATile : Prop :=
  (∀ (c : Chip) (u : Nat), c.flag .ELDER_T_CFG_RING = false →
    (c.owns u = true ↔ c.get .RET_UNITS_COUNT ≠ 0 ∧ c.get .RET_UNITS_FIRST ≤ u ∧
      u < c.get .RET_UNITS_FIRST + c.get .RET_UNITS_COUNT)) ∧
  (∀ (s : State) (unit clobber : Nat) (l : List Rec), unit < 1280 → s.chip.isTile = true →
    let g := fun (c : Chip) => c.elapseSlot (windowBlock unit)
    let c := g s.chip
    (s.chip.owns unit = true → s.chip.enabled 0x30 = true → s.chip.flag .GATE_QUAR_ACTIVE = false → s.chip.servo ≠ 0 →
      c.flag .ELDER_T_CFG_RING = false → assoc c.tile.sent unit = some l →
      ∃ x : Slot, x.recs = l ∧ x.rseq = (assoc c.tile.rseq unit).getD 0 ∧ x.wdn = c.get .SYS_DOMAIN_WDN ∧
        exec (.slotTransmit unit 0) s = .next (s.effect fun c =>
          let d := (g c).sendUp (.slot unit x)
          if unit + 1 = c.get .RET_UNITS_FIRST + c.get .RET_UNITS_COUNT then d.onTile fun t =>
            { t with held := false, gmacFail := false, modeMiss := false, evqOvf := false, dupSeen := false }
          else d)) ∧
    (s.chip.owns unit = false → exec (.slotTransmit unit clobber) s = .next (s.effect fun c => c))) ∧
  (∀ (room : Nat) (l : List Rec), (fitRecs room l).1 ++ (fitRecs room l).2 = l ∧
    ((fitRecs room l).1.map Rec.size).sum ≤ room) ∧
  (∀ (s : State) (port : Nat) (h : Hdr) (units : List Nat) (rx : Rx), port < 2 → s.chip.isTile = true →
    let x := Cell.rack s.chip.lastIndex units
    soundRx x h rx = true → s.chip.tile.up = some port → s.chip.tile.session.isSome = true →
    (s.chip.tagOk x h rx = true → exec (.rackReceive port h units rx) s =
      .next (s.effect fun c => (c.passDown port x h rx).rackIn units)) ∧
    (s.chip.tagOk x h rx = false → exec (.rackReceive port h units rx) s =
      .next (s.effect fun c => (c.passDown port x h rx).tagErr))) ∧
  (∀ s : State, s.chip.isTile = true →
    (s.chip.get .RET_UNITS_COUNT ≠ 0 → exec .rackMiss s = .next (s.effect fun c => c.raise .RET_RACK_MISS)) ∧
    (s.chip.enabled 0x30 = true → s.chip.servo ≠ 0 →
      exec (.census none) s = .next (s.effect fun c => c.superframe.censusStep none) ∧
        ∀ (h : Hdr) (rx : Rx), soundRx (.census h.dest) h rx = true →
          exec (.census (some (h, rx))) s = .next (s.effect fun c => c.superframe.censusStep (some h.dest))) ∧
    ∀ (port unit : Nat) (x : Cell) (h : Hdr) (rx : Rx) (off : Int), port < 2 → unit < 1280 →
      exec (.slotUnitForward port unit x h rx off) s = .next (s.effect fun c => c.unitForward port unit x h rx off) ∧
        (s.chip.tile.up = some (1 - port) → x.type = 0x78 → rx.hcrc = x.hcrc h → s.chip.owns unit = false →
          let was := s.chip.tile.drift.any fun d => d.wdn == h.dest && d.muted
          let y := driftMeasure s.chip.tile.drift h.dest unit off
          s.chip.unitForward port unit x h rx off =
            ((s.chip.onTile fun t => { t with drift := y.1 }).edge y.2 was off).returnCell port unit x h rx)) ∧
  (∀ (c : Chip) (k : Nat), 0 < k → let e := c.elapseSlot 0;
    e.flag (.CHAIN_STATE_TAIL e.upPort) = false →
    c.censusStep (some k) = ((e.put (.CHAIN_POS_DEPTH e.upPort) (k + 1)).showPos).sendUp (.census (k + 1))) ∧
  ∀ (d : Drift) (off : Int),
    ((off < -2 ∨ 2 < off) → (driftStep d off).run = d.run + 1 ∧ (2 ≤ d.run → (driftStep d off).muted = true)) ∧
      (-2 ≤ off → off ≤ 2 → (driftStep d off).run = 0 ∧ (driftStep d off).muted = d.muted)

/-- Ethernet ports come up and go down, answer ARP and join groups. A port of an enabled page that comes up shows its
lock, raises LINK_UP, announces its address and joins its groups; going down it shows nothing and raises LINK_DOWN;
HI_BER follows the condition and is raised where it begins. A port that is up counts its FEC codewords and a frame
with a bad FCS, and counts one outside the subset in RX_OTHER; it answers a request for ETH_IP, also one of a station
that claims it, raises ADDR_CONFLICT on a claim, and counts any other ARP packet as outside the subset; lane M answers
for the management address. A query is answered with joins, the next message due is sent, and a join is repeated once,
a second later, if its group is still used. ETH_LINK_UP, ETH_LINK_DOWN, ETH_HI_BER, ARP_RECEIVE, IGMP_QUERY, IGMP_JOIN
and IGMP_REPEAT complete so. -/
def Obligations.EthernetPortsAndGroups : Prop :=
  ∀ (s : State) (n sender target : Nat) (request on : Bool) (group : Option Nat) (f : EthFrame), n < 2 → sender < 2 ^ 32 →
    target < 2 ^ 32 → s.chip.isSender = true →
    (s.chip.enabled (0x40 + n) = true → s.chip.enabled (0x18 + n) = true → s.chip.flag (.ETH_STAT_LINK n) = false →
      exec (.ethLinkUp n) s = .next (s.effect fun c =>
        let d := ((c.put (.ETH_STAT_LINK n) 1).put (.ETH_STAT_FEC_LOCK n) (c.get (.ETH_CFG_FEC_EN n))).put
          (.ETH_STAT_AM_LOCK n) 1
        (((d.put (.ETH_STAT_LANE_LOCK n) 0xF).raise (.ETH_LINK_UP n)).gratuitousArp n).joinAll n none)) ∧
    (s.chip.flag (.ETH_STAT_LINK n) = true →
      exec (.ethLinkDown n) s =
        .next (s.effect fun c => (c.setNat (Reg.ETH_STAT n) 0).raise (.ETH_LINK_DOWN n))) ∧
    (s.chip.enabled (0x40 + n) = true → s.chip.enabled (0x18 + n) = true →
      (s.chip.flag (.ETH_STAT_HI_BER n) = false → exec (.ethHiBer n true) s =
        .next (s.effect fun c => (c.put (.ETH_STAT_HI_BER n) 1).raise (.ETH_HI_BER n))) ∧
      (s.chip.flag (.ETH_STAT_HI_BER n) = true → exec (.ethHiBer n false) s =
        .next (s.effect fun c => c.put (.ETH_STAT_HI_BER n) 0)) ∧
      (s.chip.flag (.ETH_STAT_HI_BER n) = on → exec (.ethHiBer n on) s = .next (s.effect fun c => c))) ∧
    (s.chip.ethUp n = false → exec (.arpReceive n sender target request f) s = .next (s.effect fun c => c)) ∧
    (s.chip.ethUp n = true →
      let g := fun (c : Chip) => c.ethFec n f
      let ip := (g s.chip).nat (Reg.ETH_IP n)
      (f.fcs = false →
        exec (.arpReceive n sender target request f) s = .next (s.effect fun c => (g c).count (Reg.ETH_RX_FCS n)) ∧
          exec (.igmpQuery n group f) s = .next (s.effect fun c => (g c).count (Reg.ETH_RX_FCS n))) ∧
      (f.fcs = true → (g s.chip).ethFits n f = false →
        exec (.arpReceive n sender target request f) s = .next (s.effect fun c => (g c).count (Reg.ETH_RX_OTHER n)) ∧
          exec (.igmpQuery n group f) s = .next (s.effect fun c => (g c).count (Reg.ETH_RX_OTHER n))) ∧
      (f.fcs = true → (g s.chip).ethFits n f = true →
        exec (.igmpQuery n group f) s = .next (s.effect fun c => ((g c).ethGood n).joinAll n group) ∧
        (ip ≠ 0 →
          (sender ≠ ip → target = ip →
            exec (.arpReceive n sender target true f) s =
                .next (s.effect fun c => ((g c).ethGood n).ethSend n 5 [target, sender]) ∧
              exec (.arpReceive n sender target false f) s = .next (s.effect fun c => (g c).ethGood n)) ∧
          (sender = ip → target = ip → exec (.arpReceive n sender target true f) s =
            .next (s.effect fun c => (((g c).ethGood n).raise (.ETH_ADDR_CONFLICT n)).ethSend n 5 [target, sender])) ∧
          (sender = ip → target ≠ ip ∨ request = false → exec (.arpReceive n sender target request f) s =
            .next (s.effect fun c => ((g c).ethGood n).raise (.ETH_ADDR_CONFLICT n)))) ∧
        (ip = 0 ∨ (sender ≠ ip ∧ target ≠ ip) → exec (.arpReceive n sender target request f) s =
          .next (s.effect fun c => (g c).count (Reg.ETH_RX_OTHER n))))) ∧
    (s.chip.flag .WELL_MGMT_CFG_EN = true → s.chip.flag .WELL_MGMT_STAT_LINK = true → target ≠ 0 →
      target = s.chip.nat Reg.WELL_MGMT_IP → f.fcs = true →
      exec (.arpReceive 2 sender target true f) s =
        .next (s.effect fun c => c.emit (.eth 2 5 [target, sender] none))) ∧
    ∀ (g : Igmp) (at_ : Nat),
      (∀ r, s.chip.ing.joins = g :: r → s.chip.ethUp g.port = true → s.chip.nat (Reg.ETH_IP g.port) ≠ 0 →
        exec .igmpJoin s = .next (s.effect fun c =>
          let v2 := c.flag (.ETH_CFG_IGMP_V2 g.port)
          (c.ethSend g.port (if g.join then 1 else 2) [if v2 then 2 else 3, g.group, if v2 then 0 else g.src]).onIng
            fun i => { i with joins := r, repeats := if g.join then i.repeats ++ [(g, c.age)] else i.repeats })) ∧
      ∀ r, s.chip.ing.repeats = (g, at_) :: r →
        let e := fun (c : Chip) => c.elapseAge (at_ + ms 1000)
        ((e s.chip).groupUsed g.port g.group = true → exec .igmpRepeat s =
          .next (s.effect fun c => ((e c).sendIgmp g).onIng fun i => { i with repeats := r })) ∧
        ((e s.chip).groupUsed g.port g.group = false → exec .igmpRepeat s =
          .next (s.effect fun c => (e c).onIng fun i => { i with repeats := r }))

/-- Packets reach their contexts; streams, paths and holds end as the tables say. A frame outside the subset, or one that
no context takes, is counted in RX_OTHER; one with a bad FCS in RX_FCS; corrected and uncorrectable codewords are
counted with FEC_EN and an uncorrectable one raises FEC_UNCORR. A packet is counted in PKT_RX and goes to every
context that matches it and takes its form; a late one has no other effect than PKT_LATE. A frame with more lost
packets than LOSS_MAX ends bad and is not kept; another ends complete, and its context RUNNING. A buffer for a new
frame is never the latched, the newest complete or the receiving one. 100 ms after the last packet RUNNING goes to
HOLDING, HOLDING to FILL when HOLD.MS has passed, and a merged path that is silent for 100 ms loses its LIVE bit. The
coefficient RAM is written except into a slot in use, and read through its window. VIDEO_PACKET, STREAM_LOST,
PATH_LOST, FILL_TIMEOUT, CRAM_DATA_WRITE and CRAM_DATA_READ complete so. -/
def Obligations.StreamsAreReceivedAndLost : Prop :=
  ∀ (s : State) (n dt : Nat), n < 2 →
    (∀ (f : EthFrame) (net : NetKind) (dst src udp pt : Nat) (form : PayForm) (q : Pkt), (s.chip.elapse dt).ethUp n = true →
      let fec := fun (c : Chip) => (c.elapse dt).ethFec n f
      let takers := ctxNames.filter fun m => (fec s.chip).ctxTakes m.1 m.2 n dst src udp pt
      let fit := takers.filter fun m => ((fec s.chip).ctxSet false m.1 m.2).takesForm form q.segs.length
      (f.fcs = false → exec (.videoPacket n f net dst src udp pt form q dt) s =
          .next (s.effect fun c => (fec c).count (Reg.ETH_RX_FCS n))) ∧
        (f.fcs = true → (fec s.chip).ethFits n f = false ∨ net ≠ .udp ∨ takers = [] →
          exec (.videoPacket n f net dst src udp pt form q dt) s =
            .next (s.effect fun c => (fec c).count (Reg.ETH_RX_OTHER n))) ∧
        (f.fcs = true → (fec s.chip).ethFits n f = true → takers ≠ [] →
          exec (.videoPacket n f .udp dst src udp pt form q dt) s =
            .next (s.effect fun c => fit.foldl (fun d m => d.packetIn m.1 m.2 n { q with at_ := (fec c).bell.time })
              ((fec c).ethGood n)))) ∧
    (∀ (c : Chip) (f : EthFrame), (c.flag (.ETH_CFG_FEC_EN n) = false → c.ethFec n f = c) ∧
      (c.flag (.ETH_CFG_FEC_EN n) = true →
        let d := (c.countBy (Reg.ETH_FEC_CORR n) f.corr).countBy (Reg.ETH_FEC_UNCORR n) f.uncorr
        c.ethFec n f = if f.uncorr = 0 then d else d.raise (.ETH_FEC_UNCORR n))) ∧
    ∀ p k, p < 4 → k < 4 →
      (∀ last, (s.chip.ctx p k).lastAt = some last →
        let e := fun (c : Chip) => ((c.elapseAge (last + ms 100)).pathSilent p k 0).pathSilent p k 1
        ((e s.chip).ctxState p k = 2 → exec (.streamLost p k) s = .next (s.effect fun c =>
          (((e c).setCtxState p k 3).onCtx p k fun x => { x with holdAt := (e c).age }).raise (.INGEST_STREAM_LOST p))) ∧
        ((e s.chip).ctxState p k ≠ 2 → exec (.streamLost p k) s = .next (s.effect e))) ∧
      ((s.chip.ctx p k).lastAt = none → exec (.streamLost p k) s = .next (s.effect fun c => c)) ∧
      (∀ last, (s.chip.ctxSet false p k).srcSel = 2 →
        let e := fun (c : Chip) => c.elapseAge (last + ms 100)
        ((e s.chip).ctxSet false p k).srcSel = 2 →
        ((s.chip.ctx p k).at0 = some last → (e s.chip).flag (.INGEST_CTX_STAT_LIVE0 p k) = true →
          exec (.pathLost p k 0) s = .next (s.effect fun c =>
            (((e c).put (.INGEST_CTX_STAT_LIVE0 p k) 0).onCtx p k fun x => { x with hi0 := none }).raise
              (.INGEST_PATH_LOST p))) ∧
        ((s.chip.ctx p k).at1 = some last → (e s.chip).flag (.INGEST_CTX_STAT_LIVE1 p k) = true →
          exec (.pathLost p k 1) s = .next (s.effect fun c =>
            (((e c).put (.INGEST_CTX_STAT_LIVE1 p k) 0).onCtx p k fun x => { x with hi1 := none }).raise
              (.INGEST_PATH_LOST p)))) ∧
      (let e := s.chip.holdElapse p k;
        e.ctxState p k = 3 → e.get (.INGEST_CTX_HOLD_MS p k) ≠ 0 → e.fab.commits = [] →
        ∃ t, exec (.fillTimeout p k) s = .next t ∧ t.pending = s.pending ∧
          t.chip.ports = e.ports ∧ t.chip.well = e.well ∧ t.chip.loom = e.loom ∧ t.chip.scan = e.scan ∧
          t.chip.age = e.age ∧
          t.chip.ctxState p k = 4 ∧ bitAt (t.chip.nat (Reg.PG_EVENT (0x42 + p))) 7 = true ∧
          t.chip.get (.INGEST_CTX_STAT_LATCHED p k) = e.freeBuf p k) ∧
      (s.chip.ctxState p k ≠ 3 ∨ s.chip.get (.INGEST_CTX_HOLD_MS p k) = 0 →
        exec (.fillTimeout p k) s = .next (s.effect fun c => c)) ∧
      (∀ (rq : Requester) (v : Word), takes s.chip rq (Reg.INGEST_CRAM_DATA p) = true → s.chip.isSender = true →
        let a := s.chip.get (.INGEST_CRAM_ADDR_ADDR p) / 4 * 4
        (s.chip.cramBusy a = true → exec (.cramDataWrite rq p v) s = .next (s.effect fun c =>
          (c.reject (Reg.INGEST_CRAM_DATA p)).autoInc (.INGEST_CRAM_ADDR_AUTO_INC p) (.INGEST_CRAM_ADDR_ADDR p))) ∧
        (s.chip.cramBusy a = false → a < 0x8000 → exec (.cramDataWrite rq p v) s = .next (s.effect fun c =>
          (c.onIng fun g => { g with cram := memPut g.cram a (leBytes 4 v.toNat) }).autoInc
            (.INGEST_CRAM_ADDR_AUTO_INC p) (.INGEST_CRAM_ADDR_ADDR p)))) ∧
      (∀ rq : Requester, reads s.chip rq (Reg.INGEST_CRAM_DATA p) = true →
        exec (.cramDataRead rq p) s = .next (s.effect (windowGives (Reg.INGEST_CRAM_DATA p)
          (.INGEST_CRAM_ADDR_AUTO_INC p) (.INGEST_CRAM_ADDR_ADDR p)
          (s.chip.cramWord (s.chip.get (.INGEST_CRAM_ADDR_ADDR p) / 4 * 4))))) ∧
      ∀ c : Chip,
        (∀ q : Pkt, unwrapSeq ((c.ctx p k).base.getD q.seq) q.seq < (c.ctx p k).base.getD q.seq →
          (c.ctxSet false p k).srcSel ≠ 2 →
          (c.packetIn p k n q).nat (Reg.INGEST_CTX_PKT_LATE p k) =
              min (c.nat (Reg.INGEST_CTX_PKT_LATE p k) + 1) 0xffffffff ∧
            (c.packetIn p k n q).nat (Reg.INGEST_CTX_PKT_RX p k) =
              min (c.nat (Reg.INGEST_CTX_PKT_RX p k) + 1) 0xffffffff ∧
            ((c.packetIn p k n q).ctx p k).frame = (c.ctx p k).frame ∧
            ((c.packetIn p k n q).ctx p k).held = (c.ctx p k).held) ∧
        (∀ f, (c.ctx p k).frame = some f →
          let lossMax := (c.ctxSet false p k).lossMax
          ((c.endFrame p k).ctx p k).frame = none ∧
            (lossMax ≠ 0 → lossMax < f.lost → f.buf < 4 → listAt ((c.endFrame p k).ctx p k).bufs f.buf none = none) ∧
            (lossMax = 0 ∨ f.lost ≤ lossMax → (c.endFrame p k).ctxState p k = 2)) ∧
        c.freeBuf p k < 4 ∧
          ((c.ctx p k).frame = none → some (c.freeBuf p k) ≠ (c.ctx p k).latched ∧
            ∀ v, newest ((c.ctx p k).bufsWhere (·.complete)) = some v → c.freeBuf p k ≠ v.1)

/-- Loom’s powers, tables and fences, and scanout’s lines. A fetch group that is powered becomes ready with GRP_READY; a
group with an applied enabled layer is not powered off, and the attempt sets WR_REJ. Words of the Loom tables, the map
and the correction memory are stored, except into a slot or bank in use, which sets WR_REJ; the address moves on with
AUTO_INC either way. FENCE_INC adds one modulo 2^32, keeping the value before with its time. CANCEL withdraws a held
commit and else does nothing; a held commit that is over its time is dealt with as the tick closes. A flip group is
not changed while a member has a commit pending. A line scanned lets time pass to its own instant, moves the raster
on, and counts an underrun; no line is scanned while scanout does not run. The windows are read through their data
registers, and a read of FILL_MIN but by the debug port re-arms all four. GRP_READY, GRP_PWR_WRITE, LUT_DATA_WRITE,
LUT_DATA_READ, FENCE_INC, FENCE_CANCEL, FENCE_TIMEOUT, FLIP_GROUP_WRITE, MAP_DATA_WRITE, MAP_DATA_READ, FILL_MIN_READ,
CORR_MEM_DATA_WRITE, CORR_MEM_DATA_READ and SCAN_LINE complete so. -/
def Obligations.LoomAndScanoutAreDriven : Prop :=
  ∀ (s : State) (rq : Requester) (v : Word),
    (s.chip.isSender = true →
      (∀ g, g < 4 →
        (bitAt (s.chip.get .LOOM_GRP_PWR_ON) g = true → s.chip.grpReady g = false →
          exec (.grpReady g) s = .next (s.effect fun c =>
            (c.put .LOOM_STAT_GRP_RDY (setBitAt (c.get .LOOM_STAT_GRP_RDY) g true)).raise .LOOM_GRP_READY)) ∧
        (bitAt (s.chip.get .LOOM_GRP_PWR_ON) g = false → exec (.grpReady g) s = .next (s.effect fun c => c)) ∧
        (∀ i, i / 4 = g → (s.chip.layerSet false i).en = true → bitAt (s.chip.get .LOOM_GRP_PWR_ON) g = true →
          bitAt (bitsOf v 3 0) g = false →
          (s.chip.grpPower (bitsOf v 3 0)).flag (.PG_STATUS_WR_REJ 0x50) = true ∧
            bitAt ((s.chip.grpPower (bitsOf v 3 0)).get .LOOM_GRP_PWR_ON) g = true)) ∧
      (takes s.chip rq Reg.LOOM_GRP_PWR = true → exec (.grpPwrWrite rq v) s =
        .next (s.effect fun c => (c.grpPower (bitsOf v 3 0)).domSync)) ∧
      (takes s.chip rq Reg.LOOM_LUT_DATA = true →
        let a := s.chip.get .LOOM_LUT_ADDR_ADDR / 4 * 4
        let on := fun (c : Chip) => c.autoInc .LOOM_LUT_ADDR_AUTO_INC .LOOM_LUT_ADDR_ADDR
        (0x60000 ≤ a → exec (.lutDataWrite rq v) s = .next (s.effect on)) ∧
        (a < 0x60000 → bitAt s.chip.lutUse (a / 0x6000) = true →
          exec (.lutDataWrite rq v) s = .next (s.effect fun c => on (c.reject Reg.LOOM_LUT_DATA))) ∧
        (a < 0x60000 → bitAt s.chip.lutUse (a / 0x6000) = false → exec (.lutDataWrite rq v) s =
          .next (s.effect fun c => on (c.onLoom fun l => { l with lut := memPut l.lut a (leBytes 4 v.toNat) })))) ∧
      (takes s.chip rq Reg.LOOM_FENCE_INC = true → exec (.fenceInc rq v) s = .next (s.effect fun c =>
        let n := bitsOf v 3 0
        (c.onLoom fun l => { l with fences := l.fences ++ [(c.bell.time, n, c.nat (Reg.LOOM_FENCE n))] }).setNat
          (Reg.LOOM_FENCE n) ((c.nat (Reg.LOOM_FENCE n) + 1) % 2 ^ 32))) ∧
      (∀ i, i < 16 → takes s.chip rq (Reg.LOOM_LYR_FENCE_CANCEL i) = true →
        ((assoc s.chip.loom.held i).isSome = true →
          exec (.fenceCancel rq i) s = .next (s.effect fun c => c.dropCommit i)) ∧
        (assoc s.chip.loom.held i = none → exec (.fenceCancel rq i) s = .next (s.effect fun c => c))) ∧
      (takes s.chip rq Reg.LOOM_FLIP_GROUP = true →
        let busy := ∃ i, i < 16 ∧ s.chip.flipMember i = true ∧ s.chip.flag (.PG_COMMIT_PENDING (layerPage i)) = true
        (busy → exec (.flipGroupWrite rq v) s = .next (s.effect fun c => c.reject Reg.LOOM_FLIP_GROUP)) ∧
        (¬ busy → exec (.flipGroupWrite rq v) s =
          .next (s.effect fun c => c.put .LOOM_FLIP_GROUP_MEMBERS (bitsOf v 15 0)))) ∧
      (takes s.chip rq Reg.SCAN_MAP_DATA = true →
        let a := s.chip.get .SCAN_MAP_ADDR_ADDR / 4 * 4
        let on := fun (c : Chip) => c.autoInc .SCAN_MAP_ADDR_AUTO_INC .SCAN_MAP_ADDR_ADDR
        let busy := a / 0x40000 = s.chip.get .SCAN_MAP_CFG_BANK ∨
          s.chip.flag (.PG_COMMIT_PENDING 0x68) = true ∧ a / 0x40000 = s.chip.getS .SCAN_MAP_CFG_BANK
        (busy → exec (.mapDataWrite rq v) s = .next (s.effect fun c => on (c.reject Reg.SCAN_MAP_DATA))) ∧
        (¬ busy → exec (.mapDataWrite rq v) s = .next (s.effect fun c =>
          on (c.onScan fun x =>
            { x with map := memPut x.map a (leBytes 4 (v &&& BitVec.ofNat 32 (mapMask a)).toNat) }))))) ∧
    (s.chip.isTile = true → takes s.chip rq Reg.CORR_MEM_DATA = true →
      let a := s.chip.get .CORR_MEM_ADDR_ADDR / 4 * 4
      let on := fun (c : Chip) => c.autoInc .CORR_MEM_ADDR_AUTO_INC .CORR_MEM_ADDR_ADDR
      (finiteHalves (leBytes 4 v.toNat) = false → exec (.corrMemDataWrite rq v) s =
        .next (s.effect fun c => on (c.reject Reg.CORR_MEM_DATA).loadRej)) ∧
      (finiteHalves (leBytes 4 v.toNat) = true →
        (corrWindow a 4 = none → exec (.corrMemDataWrite rq v) s =
          .next (s.effect fun c => on (c.reject Reg.CORR_MEM_DATA))) ∧
        ∀ k, corrWindow a 4 = some k →
          (4 ≤ k ∨ s.chip.windowLocked k = true →
            exec (.corrMemDataWrite rq v) s = .next (s.effect fun c => on (c.reject Reg.CORR_MEM_DATA))) ∧
          (k < 4 → s.chip.windowLocked k = false →
            exec (.corrMemDataWrite rq v) s = .next (s.effect fun c =>
              on (c.onNim fun n => { n with mem := memPut n.mem a (leBytes 4 v.toNat) }))))) ∧
    (reads s.chip rq Reg.LOOM_LUT_DATA = true → exec (.lutDataRead rq) s = .next (s.effect
      (windowGives Reg.LOOM_LUT_DATA .LOOM_LUT_ADDR_AUTO_INC .LOOM_LUT_ADDR_ADDR
        (s.chip.lutWord (s.chip.get .LOOM_LUT_ADDR_ADDR / 4 * 4))))) ∧
    (reads s.chip rq Reg.SCAN_MAP_DATA = true → exec (.mapDataRead rq) s = .next (s.effect
      (windowGives Reg.SCAN_MAP_DATA .SCAN_MAP_ADDR_AUTO_INC .SCAN_MAP_ADDR_ADDR
        (memLe s.chip.scan.map (s.chip.get .SCAN_MAP_ADDR_ADDR / 4 * 4) 4)))) ∧
    (reads s.chip rq Reg.CORR_MEM_DATA = true → exec (.corrMemDataRead rq) s = .next (s.effect
      (windowGives Reg.CORR_MEM_DATA .CORR_MEM_ADDR_AUTO_INC .CORR_MEM_ADDR_ADDR
        (memLe s.chip.nim.mem (s.chip.get .CORR_MEM_ADDR_ADDR / 4 * 4) 4)))) ∧
    (reads s.chip rq Reg.SCAN_FILL_MIN = true → exec (.fillMinRead rq) s = .next (s.effect fun c =>
      let d := c.onFab fun f => { f with held64 := f.held64.filter fun e => e.1 != Reg.SCAN_FILL_MIN }
      (if rq = .debug then d else d.onScan fun x => { x with rearm := 15 }).emit
        (.read Reg.SCAN_FILL_MIN (c.rd Reg.SCAN_FILL_MIN)))) ∧
    (exec .fenceTimeout s =
      .next (s.effect fun c => if (c.fencesOver.isEmpty || !c.bell.open_) = true then c else c.tickClose)) ∧
    ∀ (under : Option Nat) (fills : List (Nat × Nat)),
      (s.chip.scan.run = false → exec (.scanLine under fills) s = .next (s.effect fun c => c)) ∧
      (let p := s.chip.atTick.planNow;
        let g := s.chip.elapseTo (s.chip.bell.tickTime + p.ty s.chip.scan.line);
        s.chip.scan.run = true → s.chip.enabled 0x68 = true → s.chip.scan.line < p.h → g.fab.commits = [] →
        ∃ t, exec (.scanLine under fills) s = .next t ∧ t.pending = s.pending ∧
          t.chip.gran = g.gran ∧ t.chip.ing = g.ing ∧ t.chip.loom = g.loom ∧ t.chip.well = g.well ∧
          t.chip.scan.line = s.chip.scan.line + 1 ∧
          t.chip.scan.run = decide (s.chip.scan.line + 1 < p.h) ∧
          t.chip.age = g.age ∧ t.chip.bell = g.bell ∧
          (∀ u, under = some u → u < p.w → t.chip.nat Reg.SCAN_UNDERRUN_CNT =
            min (g.nat Reg.SCAN_UNDERRUN_CNT + 1) 0xffffffff))

/-- The segments of a frame share a lamp’s on-time. For N = 2^m segments of at most W GCLK, a lamp’s ON is (code × LIMK ×
N × W + 32,768 × 65,535) ÷ (65,535 × 65,536), rounded down, and segment s has ON ÷ N, one more where s with its m low
bits reversed is below the remainder. The segments sum to ON and none exceeds W. A masked lamp, by its own bit, a pin
fault of its column or a row fault of its row, is never on. A lamp found open in the frame is dark to its end (log
entry 184) and is left out. -/
def Obligations.SegmentsSplitTheOnTime : Prop :=
  ∀ (c : Chip) (g : Grid) (m p r : Nat), m ≤ 6 → g.n = 2 ^ m → c.tile.locator = false →
    c.get .LAMP_ILIM_STAT_LIMK ≤ 65536 →
    let on := (c.frontCode p r * c.get .LAMP_ILIM_STAT_LIMK * (g.n * g.w) + 32768 * 65535) / (65535 * 65536)
    (c.flag (maskFld p r) = true ∨ c.flag (pinFld p) = true ∨ c.flag (pinFld (480 + r)) = true →
      ∀ s, c.lampOn g s r p = 0) ∧
    (c.flag (maskFld p r) = false → c.flag (pinFld p) = false → c.flag (pinFld (480 + r)) = false →
      c.lamp.opens.contains (r, p) = false →
      ((List.range g.n).map fun s => c.lampOn g s r p).sum = on ∧
      ∀ s, s < g.n → c.lampOn g s r p ≤ g.w ∧
        ∃ rev, rev < g.n ∧ (∀ i, i < m → rev.testBit i = s.testBit (m - 1 - i)) ∧
          c.lampOn g s r p = on / g.n + if rev < on % g.n then 1 else 0)

/-- Row slots run, samples and measurements confirm faults, sweeps start and lists clear. During the power-up sweep a slot
of 1 µs tests a pair; while the grid has slots left, a row slot lets time pass to its end, or to the anchor of the
next grid, which cuts it, drives pre-charge, row and pulses at their times and moves on, row by row and segment by
segment; at the grid’s end the next grid starts where a tick has anchored it or where the grid ends. Without PRECHG.EN
no switch closes, a faulty row stays inactive, and without power in group 3 no ROWD pin is driven. A sample of a lamp
driven for 32 GCLK or more that fails in min(4, N) segments in a row is confirmed, an open one at the frame’s end
where rows count, and a good one forgets what was found. A reference current in 36–440 µA is used; outside it the
sinks stop, STATE is IREF_FAULT and the fault is listed and raised. A sweep starts with every pair when commanded or
when SWEEP_MIN minutes are over and no test runs; one pair is tested in each slot, and a short masks both columns.
LAMP_FAULT_IDX.CLEAR empties the list, a write of LAMP_PINFLT clears the bits written 0, and a descriptor comes into
force and is measured once. ROW_SLOT, GRID_END, PULSE_SAMPLE, IREF_MEASURE, SWEEP_START, SWEEP_DUE, FAULT_LIST_CLEAR,
PIN_FAULT_CLEAR and DESCRIPTOR_CHANGE complete so. -/
def Obligations.LamplighterRunsItsGrid : Prop :=
  ∀ s : State, s.chip.isTile = true → s.chip.enabled 0xa6 = true →
    (∀ (bad : List Nat) (micro : List (Nat × Nat)) (short : Bool),
      (s.chip.lamp.sweepOn = true → s.chip.lamp.waitTick = true →
        exec (.rowSlot bad micro short) s = .next (s.effect fun c => (c.elapse (us 1)).pinTest short)) ∧
      (s.chip.lamp.sweepOn = false ∨ s.chip.lamp.waitTick = false →
        (s.chip.gridNow.lamp.grid = none → exec (.rowSlot bad micro short) s = .next (s.effect Chip.gridNow)) ∧
        ∀ g, s.chip.gridNow.lamp.grid = some g →
          (g.n ≤ s.chip.gridNow.lamp.seg → exec (.rowSlot bad micro short) s = .next (s.effect Chip.gridNow)) ∧
          (s.chip.gridNow.lamp.seg < g.n → exec (.rowSlot bad micro short) s =
            .next (s.effect fun c => c.gridNow.gridSlot g bad micro short)))) ∧
    (∀ (c : Chip) (g : Grid) (bad : List Nat) (micro : List (Nat × Nat)) (short : Bool),
      let x := c.lamp
      let stop := match x.next with
        | some h => min h.anchor (slotEnd g x.seg x.row)
        | none => slotEnd g x.seg x.row
      let d := c.slotDrive g x.seg x.row (c.pulsesNow g) ((stop - slotStart g x.seg x.row) / ns 4)
      let t := c.gridSlot g bad micro short
      t.nim = c.nim ∧ t.ports = c.ports ∧ t.gate = c.gate ∧ t.pwr = c.pwr ∧ t.lamp.last = (x.seg, x.row) ∧
        (t.lamp.seg, t.lamp.row) = (if x.row + 1 < g.scan then (x.seg, x.row + 1) else (x.seg + 1, 0)) ∧
        t.age = (c.elapseTo stop).age ∧ t.bell = (c.elapseTo stop).bell ∧
        (2 ≤ c.lampState → Out.lamp d ∈ t.out) ∧
        (c.flag .LAMP_PRECHG_EN = false → d.precharge = none) ∧
        (c.rowFault x.row = true → d.active = none) ∧
        (c.domOn 76 = false → ∀ y ∈ d.idle ++ d.rows, y = none) ∧
        ∀ y ∈ d.on, d.window + y.2 ≤ max d.stop d.window) ∧
    (exec .gridEnd s = .next (s.effect Chip.gridEnd) ∧ s.chip.gridEnd.lamp.seg = 0 ∧ s.chip.gridEnd.lamp.row = 0 ∧
      (∀ h, s.chip.lamp.next = some h → s.chip.gridEnd.lamp.grid = some h) ∧
      ∀ g, s.chip.lamp.next = none → s.chip.lamp.grid = some g →
        ∃ g', s.chip.gridEnd.lamp.grid = some g' ∧ g'.anchor = g.anchor + ns (4 * (g.p + 32))) ∧
    (∀ (p mv : Nat) (g : Grid), p < 480 → s.chip.lamp.grid = some g →
      let r := s.chip.lamp.last.2
      let driven := ∃ n, 32 ≤ n ∧ (p, n) ∈ s.chip.lamp.lastOn
      (¬ driven → exec (.pulseSample p mv) s = .next (s.effect fun c => c)) ∧
      (driven →
        let d := fun (c : Chip) => (c.noteVmin p r mv).onLamp fun l => { l with
          lastOn := l.lastOn.filter fun x => x.1 != p, sampled := (r, p) :: l.sampled.filter (· != (r, p)) }
        let e := d s.chip
        let rest := e.lamp.runs.filter fun x => x.1 != 32 * p + r
        (e.sampleKind mv = 0 → exec (.pulseSample p mv) s =
          .next (s.effect fun c => (d c).onLamp fun l => { l with runs := rest })) ∧
        (∀ n, e.sampleKind mv ≠ 0 → e.lamp.runs.find? (fun x => x.1 == 32 * p + r) = some (32 * p + r, e.sampleKind mv, n) →
          (min 4 g.n ≤ n + 1 → exec (.pulseSample p mv) s = .next (s.effect fun c =>
            ((d c).onLamp fun l => { l with runs := rest }).lampFails (e.sampleKind mv - 1) p r)) ∧
          (n + 1 < min 4 g.n → exec (.pulseSample p mv) s = .next (s.effect fun c =>
            (d c).onLamp fun l => { l with runs := (32 * p + r, e.sampleKind mv, n + 1) :: rest }))))) ∧
    (∀ (c : Chip) (p r : Nat), c.lampFails 1 p r = c.confirmLamp 1 p r ∧
      (c.rowOpenEighths = 0 → c.lampFails 0 p r = c.confirmLamp 0 p r) ∧
      (c.rowOpenEighths ≠ 0 → c.lampFails 0 p r = c.onLamp fun l => { l with opens := (r, p) :: l.opens })) ∧
    (∀ cur dt, cur < 65536 →
      (3600 ≤ cur → cur ≤ 44000 → exec (.irefMeasure cur dt) s = .next (s.effect fun c =>
        let d := ((c.elapse dt).put .LAMP_IREF_CURRENT cur).put .LAMP_IREF_VALID 1
        (d.onLamp fun l => { l with
          iref := cur, irefOk := if d.lampState = 4 then some (l.irefOk.getD d.age) else none }).showCurrents)) ∧
      (cur < 3600 ∨ 44000 < cur → s.chip.lampState ≠ 4 → s.chip.fab.commits = [] →
        ∃ t, exec (.irefMeasure cur dt) s = .next t ∧ t.pending = s.pending ∧ t.chip.nim = s.chip.nim ∧
          t.chip.lamp.runs = s.chip.lamp.runs ∧ t.chip.pwr = s.chip.pwr ∧ t.chip.lampState = 4 ∧
          t.chip.get .LAMP_IREF_CURRENT = cur ∧ t.chip.flag .LAMP_IREF_VALID = false ∧
          t.chip.flag .LAMP_IREF_FAULT = true ∧ t.chip.lampShows = false ∧
          bitAt (t.chip.nat (Reg.PG_EVENT 0xa6)) 8 = true)) ∧
    (∀ c : Chip,
      (c.lamp.ocPairs = [] → c.lamp.sweepOn = true → ∀ n r, c.lamp.sweep = n :: r →
        c.pinTest false = (c.onLamp fun l => { l with sweep := r }).sweepEnd ∧
          c.pinTest true = (((c.pinShort n).put .LAMP_SWEEP_STAT_FOUND 1).onLamp fun l => { l with sweep := r }).sweepEnd) ∧
      (c.lamp.ocPairs = [] → c.lamp.sweepOn = false → ∀ b, c.pinTest b = c) ∧
      (∀ g n m r rest, c.lamp.ocPairs = (g, n :: m :: r) :: rest →
        c.pinTest false = (c.onLamp fun l => { l with ocPairs := (g, m :: r) :: rest }).showSweep ∧
          c.pinTest true = ((c.pinShort n).onLamp fun l => { l with ocPairs := (g, m :: r) :: rest }).showSweep)) ∧
    (let start := fun (c : Chip) =>
        ((c.onLamp fun l => { l with sweep := c.pairs_ 0 478, sweepOn := true }).put .LAMP_SWEEP_STAT_FOUND 0).showSweep;
      (∀ rq, takes s.chip rq Reg.LAMP_SWEEP_CTRL = true →
        (s.chip.testing = false → exec (.sweepStart rq) s = .next (s.effect start)) ∧
        (s.chip.testing = true → exec (.sweepStart rq) s = .next (s.effect fun c => c))) ∧
      (s.chip.pwr.target = .run → s.chip.get .LAMP_FAULT_CFG_SWEEP_MIN ≠ 0 → s.chip.testing = false →
        exec .sweepDue s = .next (s.effect fun c =>
          start (c.elapseAge (c.lamp.sweepAt + ms (c.get .LAMP_FAULT_CFG_SWEEP_MIN * 60000))))) ∧
      (s.chip.pwr.target = .run → s.chip.get .LAMP_FAULT_CFG_SWEEP_MIN ≠ 0 → s.chip.testing = true →
        exec .sweepDue s = .next (s.effect fun c =>
          c.elapseAge (c.lamp.sweepAt + ms (c.get .LAMP_FAULT_CFG_SWEEP_MIN * 60000)))) ∧
      (s.chip.get .LAMP_FAULT_CFG_SWEEP_MIN = 0 → exec .sweepDue s = .next (s.effect fun c => c))) ∧
    (∀ rq, takes s.chip rq Reg.LAMP_FAULT_IDX = true → exec (.faultListClear rq) s = .next (s.effect fun c =>
      (c.onLamp fun l => { l with faults := [] }).put .LAMP_FAULT_IDX_IDX 0)) ∧
    (∀ rq g k v, g < 4 → k < 4 → takes s.chip rq (Reg.LAMP_PINFLT g k) = true →
      exec (.pinFaultClear rq g k v) s = .next (s.effect fun c =>
        let d := c.setNat (Reg.LAMP_PINFLT g k) (c.nat (Reg.LAMP_PINFLT g k) &&& v.toNat)
        d.onLamp fun l => { l with rowRuns := l.rowRuns.filter fun x => !(c.rowFault x.1 && !d.rowFault x.1) })) ∧
    ∀ (b : List Byte) (card : Option (List Byte)),
      let d := fun (c : Chip) => (if listAt c.gate.m 2 0 = 0 then c.extend 2 b else c).setDesc b 2
      (descOk b = true → (d s.chip).pdesc ≠ s.chip.pdesc →
        exec (.descriptorChange (some b) card) s = .next (s.effect fun c => ((d c).lampRewire).domSync)) ∧
      (descOk b = true → (d s.chip).pdesc = s.chip.pdesc →
        exec (.descriptorChange (some b) card) s = .next (s.effect d)) ∧
      (descOk b = false → exec (.descriptorChange (some b) card) s = .next (s.effect fun c => c))

/-- Camera packets make frames, and the watchdog lets only whole frames through. On an enabled port a packet with an
uncorrectable header is counted and raised, a corrected one counted, one with a virtual channel extension counted as
dropped; of a received channel, a frame start drops a frame still open and opens one with the pending parameter set, a
long packet of the configured type adds its line or keeps the first rule it breaks, and a frame end closes it: it is
dropped, in this order, for a size the port does not take, the watchdog’s time, a rule broken by a line, the number of
lines, or another frame number, and is else accepted. A frame still open at its time is dropped. A dropped frame is
counted and gone. APPLY makes the staging set pending; the lanes’ state and the result of a skew calibration are
shown. Where a frame breaks several rules the order of the causes is the model’s choice (log entry 189).
CSI_FRAME_START, CSI_LONG_PACKET, CSI_FRAME_END, CSI_FRAME_TIMEOUT, SENSOR_APPLY, CSI_LINK_ACTIVE, CSI_LINK_STOP and
CSI_SKEW_CALIBRATION complete so. -/
def Obligations.CameraFramesAreWatched : Prop :=
  ∀ (s : State) (p vc dt num type : Nat) (crc : Bool) (codes : List Nat), p < 2 → vc < 4 →
    let v := 4 * p + vc
    let d := s.chip.elapse dt
    (s.chip.enabled (0x49 + p) = true →
      (∀ ext ecc, 2 ≤ ecc →
        exec (.csiFrameStart p vc ext ecc num dt) s =
            .next (s.effect fun c => (((c.elapse dt).count (Reg.CSI_ECC_ERR p)).raise (.CSI_ECC_ERR p)).domSync) ∧
          exec (.csiFrameEnd p vc ext ecc num dt) s =
            .next (s.effect fun c => (((c.elapse dt).count (Reg.CSI_ECC_ERR p)).raise (.CSI_ECC_ERR p)).domSync) ∧
          exec (.csiLongPacket p vc ext ecc type crc codes dt) s =
            .next (s.effect fun c => ((c.elapse dt).count (Reg.CSI_ECC_ERR p)).raise (.CSI_ECC_ERR p))) ∧
      (∀ ext, ext ≠ 0 →
        exec (.csiLongPacket p vc ext 0 type crc codes dt) s =
            .next (s.effect fun c => (c.elapse dt).count (Reg.CSI_FRAME_DROP p)) ∧
          exec (.csiLongPacket p vc ext 1 type crc codes dt) s =
            .next (s.effect fun c => ((c.elapse dt).count (Reg.CSI_ECC_CORR p)).count (Reg.CSI_FRAME_DROP p))) ∧
      (s.chip.vcOn v = true →
        ((d.sensor v).frame = none → exec (.csiFrameStart p vc 0 0 num dt) s = .next (s.effect fun c =>
          let e := c.elapse dt
          ((e.onSensor v fun x => { x with
            working := x.pending.getD x.working, pending := none
            frame := some ⟨num, e.age, e.bell.tick, e.enabled 0x48, [], 0⟩ }).put (.HALO_S_STAT_PENDING v) 0).domSync)) ∧
        (∀ f, (d.sensor v).frame = some f → exec (.csiFrameStart p vc 0 0 num dt) s = .next (s.effect fun c =>
          let e := (c.elapse dt).csiDrop v 6
          ((e.onSensor v fun x => { x with
            working := x.pending.getD x.working, pending := none
            frame := some ⟨num, e.age, e.bell.tick, e.enabled 0x48, [], 0⟩ }).put (.HALO_S_STAT_PENDING v) 0).domSync)) ∧
        (∀ f, (d.sensor v).frame = some f →
          (type = s.chip.get (.CSI_VC_CFG_DT p vc) → crc = true →
            codes.length = s.chip.get (.CSI_VC_SIZE_WIDTH p vc) → f.lines.length < s.chip.get (.CSI_VC_SIZE_HEIGHT p vc) →
            exec (.csiLongPacket p vc 0 0 type crc codes dt) s = .next (s.effect fun c =>
              (c.elapse dt).onSensor v fun x => { x with frame := some { f with lines := codes :: f.lines } })) ∧
          (let h := s.chip.get (.CSI_VC_SIZE_HEIGHT p vc);
           let size := sizeOk h && sizeOk (s.chip.get (.CSI_VC_SIZE_WIDTH p vc));
           let drop := fun (k : Nat) => exec (.csiFrameEnd p vc 0 0 num dt) s =
            .next (s.effect fun c => ((c.elapse dt).csiDrop v k).domSync);
            (size = false → drop 7) ∧
            (size = true → d.csiLate v f = true → drop 1) ∧
            (size = true → d.csiLate v f = false → f.cause ≠ 0 → drop f.cause) ∧
            (size = true → d.csiLate v f = false → f.cause = 0 → f.lines.length ≠ h → drop 2) ∧
            (size = true → d.csiLate v f = false → f.cause = 0 → f.lines.length = h → f.num ≠ num → drop 5) ∧
            (size = true → d.csiLate v f = false → f.cause = 0 → f.lines.length = h → f.num = num →
              exec (.csiFrameEnd p vc 0 0 num dt) s =
                .next (s.effect fun c => ((c.elapse dt).csiAccept v f).domSync)))) ∧
        ((d.sensor v).frame = none →
          exec (.csiFrameEnd p vc 0 0 num dt) s = .next (s.effect fun c => (c.elapse dt).domSync))) ∧
      (∀ stop, stop < 16 →
        exec (.csiLinkActive p stop) s = .next (s.effect fun c =>
            ((c.put (.CSI_STAT_ACTIVE p) 1).put (.CSI_STAT_STOP p) stop).raise (.CSI_LINK_ACTIVE p)) ∧
          exec (.csiLinkStop p stop false) s = .next (s.effect fun c =>
            ((c.put (.CSI_STAT_ACTIVE p) 0).put (.CSI_STAT_STOP p) stop).raise (.CSI_LINK_STOP p))) ∧
      exec (.csiSkewCalibration p true) s = .next (s.effect fun c => c.put (.CSI_STAT_SKEW_OK p) 1) ∧
      exec (.csiSkewCalibration p false) s =
        .next (s.effect fun c => (c.put (.CSI_STAT_SKEW_OK p) 0).raise (.CSI_SKEW_FAIL p))) ∧
    (∀ f t, (s.chip.sensor v).frame = some f → s.chip.csiTmo v = some t →
      exec (.csiFrameTimeout v) s =
        .next (s.effect fun c => ((c.elapseAge (f.at_ + t + 1)).csiDrop v 1).domSync)) ∧
    ((s.chip.sensor v).frame = none → exec (.csiFrameTimeout v) s = .next (s.effect fun c => c.domSync)) ∧
    (∀ rq, takes s.chip rq (Reg.HALO_S_APPLY v) = true → exec (.sensorApply rq v) s = .next (s.effect fun c =>
      (c.onSensor v fun x => { x with pending := some (c.staging v) }).put (.HALO_S_STAT_PENDING v) 1)) ∧
    ∀ (c : Chip) (k : Nat), k < 16 → c.halo.sensors.length = 8 →
      ((c.csiDrop v k).sensor v).frame = none ∧ (c.csiDrop v k).get (.CSI_VC_STAT_CAUSE p vc) = k ∧
        (c.csiDrop v k).nat (Reg.CSI_FRAME_DROP p) = min (c.nat (Reg.CSI_FRAME_DROP p) + 1) 0xffffffff ∧
        ∀ w, w ≠ v → (c.csiDrop v k).sensor w = c.sensor w

/-- Accumulation runs, calibration jobs and pushes start, end and fail as their tables say. START of a run with one busy
(one being zeroed counts so, log entry 186), or with a job, shows cause BUSY; with invalid settings the cause of the
first that fails; else the counts are cleared and the array zeroed at 16 GB/s, after which the run is ARMED. ABORT, or
a second with no accepted frame, ends a run ABORTED. A job starts only with nothing else running, on an enabled page,
in Service mode, with a record that breaks no rule (log entry 198); ABORT ends it; its computation fails it or writes
the list and starts its push. A push is refused while another runs or when T is less than 64 ticks ahead, and an empty
one is done at once; at T − 8 the loaded entries are decided, or under ALL_OR_NONE a failed entry stops the push; at T
+ 2 entries become SWITCHED or NOT_CONFIRMED; a failed card write is shown in its entry and leaves no valid record
(log entry 197), and a good one holds the set. ACC_START, ACC_ZEROED, ACC_ABORT, ACC_NO_FRAMES, JOB_START, JOB_ABORT,
JOB_COMPUTE_DONE, PUSH_START, PUSH_ABORT, PUSH_DECISION, PUSH_CONFIRM and CARD_WRITE_DONE complete so. -/
def Obligations.RunsJobsAndPushes : Prop :=
  ∀ (s : State) (rq : Requester),
    (takes s.chip rq Reg.HALO_ACC_CTRL = true →
      (s.chip.accBusy = true ∨ s.chip.halo.job.isSome = true →
        exec (.accStart rq) s = .next (s.effect fun c => c.put .HALO_ACC_STAT_CAUSE 5)) ∧
      (s.chip.accBusy = false → s.chip.halo.job = none →
        (s.chip.accCause ≠ 0 →
          exec (.accStart rq) s = .next (s.effect fun c => c.put .HALO_ACC_STAT_CAUSE c.accCause)) ∧
        (s.chip.accCause = 0 → exec (.accStart rq) s = .next (s.effect fun c =>
          let d := ((c.setNat Reg.HALO_ACC_DONE 0).setNat Reg.HALO_ACC_SAT 0).setNat Reg.HALO_ACC_SAT_FRAME 0
          let e := (d.setNat Reg.HALO_ACC_DISCARD 0).put .HALO_ACC_STAT_CAUSE 0
          e.onHalo fun h => { h with
            zeroing := true, frameAt := c.age, startTick := c.pair Reg.HALO_ACC_START_LO Reg.HALO_ACC_START_HI }))) ∧
      (s.chip.accBusy = true → exec (.accAbort rq) s = .next (s.effect fun c =>
        ((((c.onHalo fun h => { h with zeroing := false }).put .HALO_ACC_STAT_STATE 4).put .HALO_ACC_STAT_CAUSE 7).raise
          .HALO_RUN_ABORT).jobFail 6)) ∧
      (s.chip.accBusy = false → exec (.accAbort rq) s = .next (s.effect fun c => c))) ∧
    (s.chip.halo.zeroing = true →
      let n := s.chip.accBitmap - s.chip.accBase + (3 * s.chip.accCw * s.chip.accCh + 7) / 8
      let armed := fun (c : Chip) =>
        let e := (c.elapseAge (c.halo.frameAt + 4096 * n)).gWrite c.accBase (List.replicate n 0)
        (e.onHalo fun h => { h with zeroing := false, frameAt := e.age }).put .HALO_ACC_STAT_STATE 1
      (s.chip.enabled 0x48 = true → exec .accZeroed s = .next (s.effect fun c => (armed c).domSync)) ∧
      (s.chip.enabled 0x48 = false → exec .accZeroed s = .next (s.effect fun c => ((armed c).accAbort 8).domSync))) ∧
    (s.chip.accState = 1 ∨ s.chip.accState = 2 → s.chip.halo.zeroing = false →
      exec .accNoFrames s =
        .next (s.effect fun c => ((c.elapseAge (c.halo.frameAt + ms 1000)).accAbort 6).domSync)) ∧
    (s.chip.accState ≠ 1 → s.chip.accState ≠ 2 → exec .accNoFrames s = .next (s.effect fun c => c.domSync)) ∧
    (takes s.chip rq Reg.HALO_JOB_CTRL = true →
      let busy := s.chip.halo.job.isSome || s.chip.accBusy || s.chip.halo.push.isSome
      let a := s.chip.nat Reg.HALO_JOB_LO / 256 * 256 + 2 ^ 32 * s.chip.get .HALO_JOB_HI_ADDR
      let fail := fun (k : Nat) (c : Chip) => ((c.setJob 7).put .HALO_JOB_STAT_CAUSE k).raise .HALO_JOB_FAIL
      (busy = true → exec (.jobStart rq) s = .next (s.effect fun c => c.put .HALO_JOB_STAT_CAUSE 9)) ∧
      (busy = false → s.chip.enabled 0x48 = false → exec (.jobStart rq) s = .next (s.effect (fail 10))) ∧
      (busy = false → s.chip.enabled 0x48 = true → s.chip.mode ≠ 5 → exec (.jobStart rq) s = .next (s.effect (fail 2))) ∧
      (busy = false → s.chip.enabled 0x48 = true → s.chip.mode = 5 → s.chip.readJob a = none →
        exec (.jobStart rq) s = .next (s.effect (fail 1))) ∧
      (∀ j, busy = false → s.chip.enabled 0x48 = true → s.chip.mode = 5 → s.chip.readJob a = some j →
        exec (.jobStart rq) s = .next (s.effect fun c =>
          (((c.setJob 1).put .HALO_JOB_STAT_CAUSE 0).onHalo fun h => { h with job := some j }).jobAsk)) ∧
      (s.chip.halo.job = none → exec (.jobAbort rq) s = .next (s.effect fun c => c)) ∧
      (∀ j, s.chip.halo.job = some j → s.chip.halo.push = none →
        exec (.jobAbort rq) s = .next (s.effect fun c => (c.jobFail 8).accAbort 7))) ∧
    (∀ (j : Job) (fail : Nat) (sets : List (Nat × List Byte × List Nat)), s.chip.halo.job = some j →
      (fail = 3 ∨ fail = 4 → s.chip.get .HALO_JOB_STAT_STATE < 4 →
        exec (.jobComputeDone fail sets) s = .next (s.effect fun c => (c.jobFail fail).domSync)) ∧
      (s.chip.get .HALO_JOB_STAT_STATE = 3 → exec (.jobComputeDone 0 sets) s = .next (s.effect fun c =>
        let d := (List.range j.tiles.length).foldl (fun d i =>
          d.jobEntry j i (listAt sets i (0, [], [])).1 (listAt sets i (0, [], [])).2.1 (listAt sets i (0, [], [])).2.2) c
        let r := (d.setJob 4).pushStart j.out j.tiles.length (d.pair Reg.HALO_JOB_TICK_LO Reg.HALO_JOB_TICK_HI) false true
        (if r.2 then r.1 else r.1.jobFail 7).domSync))) ∧
    (∀ all : Bool, takes s.chip rq Reg.HALO_PUSH_CTRL = true →
      let busy := s.chip.halo.push.isSome || !s.chip.halo.cards.isEmpty || s.chip.halo.job.isSome
      let cnt := s.chip.get .HALO_PUSH_COUNT_COUNT
      let t := s.chip.pair Reg.HALO_PUSH_TICK_LO Reg.HALO_PUSH_TICK_HI
      let base := s.chip.nat Reg.HALO_PUSH_LIST_LO / 64 * 64 + 2 ^ 32 * s.chip.get .HALO_PUSH_LIST_HI_ADDR
      (busy = true → exec (.pushStart rq all) s = .next (s.effect fun c => c.put .HALO_PUSH_STAT_CAUSE 2)) ∧
      (busy = false → cnt = 0 → exec (.pushStart rq all) s = .next (s.effect fun c =>
        (((c.put .HALO_PUSH_STAT_CAUSE 0).put .HALO_PUSH_STAT_STATE 5).put .HALO_PUSH_STAT_SWITCHED 0).raise
          .HALO_PUSH_DONE)) ∧
      (busy = false → cnt ≠ 0 → t < s.chip.lastIndex + 64 →
        exec (.pushStart rq all) s = .next (s.effect fun c => c.put .HALO_PUSH_STAT_CAUSE 1)) ∧
      (busy = false → cnt ≠ 0 → s.chip.lastIndex + 64 ≤ t →
        let es := (List.range (min cnt 4096)).map (s.chip.readEntry base)
        let begun := fun (c : Chip) =>
          (((c.put .HALO_PUSH_STAT_CAUSE 0).put .HALO_PUSH_STAT_STATE 1).put .HALO_PUSH_STAT_SWITCHED 0).onHalo fun h =>
            { h with push := some ⟨t, all, base, es, false, false⟩ }
        (s.chip.enabled 0x48 = true → exec (.pushStart rq all) s =
          .next (s.effect fun c => es.foldl Chip.pushLoad (begun c))) ∧
        (s.chip.enabled 0x48 = false → exec (.pushStart rq all) s = .next (s.effect fun c => (begun c).pushEnd 6))) ∧
      (s.chip.halo.push = none → exec (.pushAbort rq) s = .next (s.effect fun c => c)) ∧
      (∀ p, s.chip.halo.push = some p →
        (p.decided = true → exec (.pushAbort rq) s = .next (s.effect fun c => c)) ∧
        (p.decided = false → p.job = false → exec (.pushAbort rq) s = .next (s.effect fun c =>
          let d := (p.entries.filter fun e => e.status == 0).foldl (fun d e => d.entryEnds e 5 0 0) c
          ((d.pushEnd 6).put .HALO_PUSH_STAT_CAUSE 3).raise .HALO_PUSH_ABORT)))) ∧
    (∀ p : Push, s.chip.halo.push = some p → p.job = false →
      (p.decided = false → p.t ≤ s.chip.lastIndex + 8 → (∀ e ∈ p.entries, e.status = 0 → e.waits = 0) →
        (p.all = true → (∃ e ∈ p.entries, e.status = 2 ∨ e.status = 3) →
          exec .pushDecision s = .next (s.effect fun c => (c.pushAbort 0).domSync)) ∧
        (p.all = false → exec .pushDecision s = .next (s.effect fun c =>
          let d := (c.onPush fun q => { q with decided := true }).put .HALO_PUSH_STAT_STATE 2
          ((p.entries.filter fun e => e.status == 0).foldl (fun d e =>
            match d.tileOf e.wdn with
            | none => d
            | some x => d.tileRead x.1 e.wdn Reg.CRIER_FAB_REL_TICK_LO 3) d).domSync))) ∧
      (p.decided = false → s.chip.lastIndex + 8 < p.t → exec .pushDecision s = .next (s.effect fun c => c.domSync)) ∧
      (p.decided = true → p.t + 2 ≤ s.chip.lastIndex → s.chip.get .HALO_PUSH_STAT_STATE ≠ 4 →
        (∀ e ∈ p.entries, bitAt e.flags 0 = false) → exec .pushConfirm s = .next (s.effect fun c =>
          let d := (p.entries.filter fun e => e.status == 0).foldl (fun d e =>
            d.entryEnds e (if d.pushConfirmed p e then 1 else 4) 0 0) (c.put .HALO_PUSH_STAT_STATE 3)
          ((d.pushEnd 5).raise .HALO_PUSH_DONE).domSync)) ∧
      (∀ (e : PushEntry) (i k : Nat), i ≠ k → s.chip.halo.cards = [i, k] → p.entries.find? (fun x => x.idx == i) = some e →
        exec (.cardWriteDone i false) s = .next (s.effect fun c =>
          ((((c.onHalo fun h => { h with cards := [k] }).putEntry' { e with cause := pushCause 6 }).cardSpoilt e.wdn).raise
            .HALO_CARD_FAIL).domSync)) ∧
      (∀ i k : Nat, i ≠ k → s.chip.halo.cards = [i, k] → exec (.cardWriteDone i true) s =
        .next (s.effect fun c => ((c.onHalo fun h => { h with cards := [k] }).cardWritten i).domSync)) ∧
      (∀ i : Nat, s.chip.halo.cards = [i] → s.chip.get .HALO_JOB_STAT_STATE ≠ 4 → exec (.cardWriteDone i true) s =
        .next (s.effect fun c => (((c.onHalo fun h => { h with cards := [] }).cardWritten i).pushFinish).domSync))) ∧
    ∀ (i : Nat) (ok : Bool), i ∉ s.chip.halo.cards →
      exec (.cardWriteDone i ok) s = .next (s.effect fun c => c.domSync)

/-- Reads, writes, fills, training, errors, migration and the arbiter. A write lands in the bytes it names below TOP and
in no others, and a read returns them; a write to a region not yet written starts its fill and waits, and proceeds
when it is filled; an access to what a write still waiting covers waits or is answered from it. A corrected error is
counted and the data returned; an uncorrectable one returns data marked poisoned and freezes the channel. Training
makes a channel READY or FAILED; refresh is postponed up to four times under urgency; a finished migration retires its
rank, spends the spare and unfreezes the channel; retirement is refused during one. A clear of a region waits for the
accesses queued to it. The arbiter keeps an owner within its limit and else takes the asking requester of lowest
effective priority; a requester that waited ARB_STARVE_TMO is shown and counted, once for a wait. GRANARY_READ,
GRANARY_WRITE, REGION_FILL, REGION_CLEAR, REGION_FILL_DONE, TRAINING_DONE, REFRESH, RETRAINING_PAUSE, PATROL_SCRUB,
MIGRATION_DONE, RANK_RETIRE, ARB_DECISION, STARVE and COMPAT_SET complete so. -/
def Obligations.GranaryServesItsRequesters : Prop :=
  ∀ (s : State) (rq : Requester) (req a n : Nat), s.chip.isSender = true → req < 16 → a < 2 ^ 40 →
    (s.chip.granOn = true → s.chip.gran.waiting = [] → s.chip.gBlocked a n = false →
      a < s.chip.granTop → s.chip.gran.written.contains (a / 2 ^ 20) = true →
      let at_ := s.chip.granMap a
      let x : GAcc := ⟨req, a, false, [], n, false⟩
      let answer := fun (c : Chip) =>
        ((c.onBus x).gReadCount a n).emit (.mem req a ((c.onBus x).gPeek a n).1 ((c.onBus x).gPeek a n).2)
      exec (.granaryRead req a n .ok) s = .next (s.effect fun c => (answer c).granAfter) ∧
        (∀ sym, s.chip.flag (.GRAN_CH_STAT_ERASED at_.1) = false →
          exec (.granaryRead req a n (.ce sym)) s = .next (s.effect fun c =>
            (answer (c.gCorrected at_.1 req a at_.2.1 (subChannel at_.2.2) sym)).granAfter)) ∧
        (∀ rr, exec (.granaryRead req a n (.ue rr)) s = .next (s.effect fun c =>
          (((c.onBus x).emit (.mem req a (c.gPeek a n).1 true)).gFreeze at_.1 req a 2 rr).granAfter))) ∧
    (∀ bs : List Byte, s.chip.granOn = true → s.chip.gran.waiting = [] → s.chip.gBlocked a bs.length = false →
      (∀ r ∈ regionsOf a (s.chip.belowTop a bs.length), r ∈ s.chip.gran.written) →
      exec (.granaryWrite req a bs .ok) s =
        .next (s.effect fun c => ((c.onBus ⟨req, a, true, bs, 0, false⟩).gWrite a bs).granAfter)) ∧
    (∀ (bs : List Byte) (r : Nat), s.chip.granOn = true → s.chip.gran.filling = [] →
      regionsOf a (s.chip.belowTop a bs.length) = [r] → r ∉ s.chip.gran.written →
      exec (.granaryWrite req a bs .ok) s = .next (s.effect fun c => (c.onGran fun g => { g with
        filling := [r], waiting := g.waiting ++ [⟨req, a, true, bs, 0, false⟩] }).granAfter)) ∧
    (∀ r, r < 2 ^ 17 → takes s.chip rq Reg.GRAN_MGR_UNW = true →
      (s.chip.get .GRAN_MGR_TOP_MIB ≤ r →
        exec (.regionFill rq r) s = .next (s.effect fun c => c.reject Reg.GRAN_MGR_UNW) ∧
          exec (.regionClear rq r) s = .next (s.effect fun c => c.reject Reg.GRAN_MGR_UNW)) ∧
      (r < s.chip.get .GRAN_MGR_TOP_MIB →
        (s.chip.gran.written.contains r = false → s.chip.gran.filling.contains r = false →
          exec (.regionFill rq r) s =
            .next (s.effect fun c => c.onGran fun g => { g with filling := g.filling ++ [r] })) ∧
        (s.chip.gran.written.contains r = true →
          exec (.regionFill rq r) s = .next (s.effect fun c => c) ∧
            (s.chip.gran.waiting = [] → exec (.regionClear rq r) s =
              .next (s.effect fun c => c.onGran fun g => { g with
                mem := spKeep (fun b => b / 2 ^ 20 != r) g.mem
                poison := g.poison.filter fun l => l / 16384 != r
                written := g.written.filter (· != r) })) ∧
            ((∃ w ∈ s.chip.gran.waiting, r ∈ regionsOf w.addr w.size) → exec (.regionClear rq r) s =
              .next (s.effect fun c => c.onGran fun g => { g with
                waiting := g.waiting ++ [⟨15, r * 2 ^ 20, true, [], 0, true⟩] }))))) ∧
    (∀ r, r < 2 ^ 17 → s.chip.gran.filling.contains r = true → s.chip.gran.written.contains r = false →
      exec (.regionFillDone r) s = .next (s.effect fun c => (c.onGran fun g => { g with
        filling := g.filling.filter (· != r), written := r :: g.written }).gDrain.granAfter)) ∧
    (∀ ch rd wr tms, ch < 4 → rd < 65536 → wr < 65536 → tms < 65536 →
      let shown := fun (c : Chip) =>
        ((c.put (.GRAN_CH_MARGIN_READ ch) rd).put (.GRAN_CH_MARGIN_WRITE ch) wr).put (.GRAN_CH_STAT_TRAIN_MS ch) tms
      (s.chip.chanState ch = 1 →
        exec (.trainingDone ch true rd wr tms) s = .next (s.effect fun c =>
            (((((shown c).put (.GRAN_CH_STAT_STATE ch) 2).put (.PG_STATUS_ENABLED (0x70 + ch)) 1).put
              (.GRAN_CH_STAT_ERASED ch) 0).setGchan ch { c.gchan ch with
                refAt := c.age, pauseAt := c.age }).granTryEnable.granAfter.domSync) ∧
          exec (.trainingDone ch false rd wr tms) s = .next (s.effect fun c =>
            (((shown c).put (.GRAN_CH_STAT_STATE ch) 5).raise (.GRANCH_TRAIN_FAIL ch)).granAfter.domSync)) ∧
      ((s.chip.chanState ch = 2 ∨ s.chip.chanState ch = 3) → ∀ (hot : Bool) (fills : List Nat),
        fills.length ≤ 4 → exec (.refresh ch hot fills) s = .next (s.effect fun c =>
          let urgent := (c.urgencies fills).contains 2
          let d := (c.fillsSeen fills).elapseAge ((c.gchan ch).refAt + ns (if c.flag (.GRAN_CH_STAT_HOT ch) then 1950 else 3900))
          let e := (d.put (.GRAN_CH_STAT_HOT ch) (if hot then 1 else 0)).when
            (hot && !c.flag (.GRAN_CH_STAT_HOT ch)) fun d => d.raise (.GRANCH_HOT ch)
          let g : GChan := { c.gchan ch with refAt := d.age }
          (if urgent && decide (g.postponed < 4) then e.setGchan ch { g with postponed := g.postponed + 1 }
          else if e.pauseFits ch urgent then e.setGchan ch { g with postponed := 0, retrainDue := false, pauseAt := d.age }
          else e.setGchan ch { g with postponed := 0 }).granAfter)) ∧
      (s.chip.chanState ch = 2 → s.chip.get (.GRAN_CH_RETRAIN_MS ch) ≠ 0 → exec (.retrainingPause ch) s =
        .next (s.effect fun c =>
          ((c.elapseAge ((c.gchan ch).pauseAt + us (1000 * c.get (.GRAN_CH_RETRAIN_MS ch)))).setGchan ch { c.gchan ch with
            retrainDue := true }).granAfter))) ∧
    (∀ dt, s.chip.granOn = true → s.chip.get .GRAN_MGR_SCRUB_HOURS ≠ 0 →
      exec (.patrolScrub [] dt) s = .next (s.effect fun c =>
        let d := (c.elapse dt).elapseAge (c.gran.scrubAt + us (3600000000 * c.get .GRAN_MGR_SCRUB_HOURS))
        ((d.countBy Reg.GRAN_MGR_POISON_RD c.gran.poison.length).onGran fun g => { g with scrubAt := d.age }).granAfter)) ∧
    (∀ (bad : List Nat) (dt : Nat),
      (s.chip.gran.migr = none →
        exec (.migrationDone bad dt) s = .next (s.effect fun c => (c.elapse dt).granAfter.deepAfterMigration)) ∧
      (∀ m, s.chip.gran.migr = some m → m.1 < 4 → m.2.1 < 2 → s.chip.gran.disableWait = false →
        exec (.migrationDone bad dt) s =
            .next (s.effect fun c =>
              ((c.elapse (min dt (m.2.2 + c.migBound m.1 m.2.1 - c.age))).migDone bad).granAfter.deepAfterMigration) ∧
          let d := s.chip.migDone bad
          d.gran.migr = none ∧ d.gran.spareUsed = true ∧ d.flag .GRAN_MGR_STAT_SPARE_AVAIL = false ∧
            bitAt (d.get .GRAN_MGR_STAT_RETIRED) (2 * m.1 + m.2.1) = true ∧ d.chanState m.1 = 2)) ∧
    (∀ ch rank, ch < 4 → rank < 2 → takes s.chip rq Reg.GRAN_MGR_CTRL = true →
      let no := s.chip.gran.migr.isSome || (s.chip.sparing && ch == s.chip.get .GRAN_MGR_CFG_SPARE_CH && rank == 1) ||
        bitAt (s.chip.get .GRAN_MGR_STAT_RETIRED) (2 * ch + rank)
      (no = true → exec (.rankRetire rq ch rank) s = .next (s.effect fun c => c.reject Reg.GRAN_MGR_CTRL)) ∧
      (no = false → s.chip.granOn = true → s.chip.chanState ch = 2 →
        (s.chip.spareFree = true → exec (.rankRetire rq ch rank) s =
          .next (s.effect fun c => (c.put (.GRAN_CH_STAT_STATE ch) 3).migStart ch rank)) ∧
        (s.chip.spareFree = false → exec (.rankRetire rq ch rank) s =
          .next (s.effect fun c => c.raise .GRANMGR_UE_NOSPARE)))) ∧
    (s.chip.granOn = true →
      (∀ (fills reqs : List Nat) (ch o : Nat), ch < 4 → reqs.all (· < 16) = true →
        ((s.chip.gchan ch).owner = none →
          (s.chip.fillsSeen fills).arbWinner ((s.chip.fillsSeen fills).urgencies fills) (s.chip.gchan ch).last reqs = some o →
          exec (.arbDecision fills ch reqs) s = .next (s.effect fun c =>
            ((((c.fillsSeen fills).setGchan ch { c.gchan ch with owner := some o, done := 1, last := o }).arbAsks ch reqs
              (some o)).put .ARB_GRANT_ACTIVE (setBitAt (c.get .ARB_GRANT_ACTIVE) ch true)).put
                ⟨Reg.ARB_GRANT, 4 * ch + 3, 4 * ch⟩ o)) ∧
        ((s.chip.gchan ch).owner = some o → o ∈ reqs → s.chip.get (.ARB_REQ_CFG_LIMIT o) = 0 →
          exec (.arbDecision fills ch reqs) s = .next (s.effect fun c =>
            ((c.fillsSeen fills).setGchan ch { c.gchan ch with done := (c.gchan ch).done + 1 }).arbAsks ch reqs (some o)))) ∧
      (∀ m, m < 16 → s.chip.get .ARB_STARVE_TMO_US ≠ 0 →
        (∀ ch, (List.range 4).find? (fun k => (s.chip.starvesAt m k).isSome) = some ch →
          exec (.starve m) s = .next (s.effect fun c =>
            let d := (c.elapseAge ((c.starvesAt m ch).getD 0)).setGchan ch { c.gchan ch with
              asks := (c.gchan ch).asks.map fun x => if x.1 = m then (x.1, x.2.1, true) else x }
            ((d.put .ARB_STARVE_REQ (setBitAt (c.get .ARB_STARVE_REQ) m true)).count Reg.ARB_STARVE_CNT).raise
              .ARB_STARVE)) ∧
        ((∀ ch < 4, s.chip.starvesAt m ch = none) → exec (.starve m) s = .next (s.effect fun c => c))) ∧
      (∀ m, m < 16 → s.chip.get .ARB_STARVE_TMO_US = 0 → exec (.starve m) s = .next (s.effect fun c => c))) ∧
    (∀ v : Word, takes s.chip rq Reg.ARB_CFG = true → s.chip.fab.commits = [] →
      ∃ t, exec (.compatSet rq v) s = .next t ∧ t.pending = s.pending ∧ restSame s.chip t.chip ∧
        (∀ b, b / 0x1000 ≠ 0x75 → t.chip.rd b = s.chip.rd b) ∧ t.chip.get .ARB_CFG_COMPAT = bitsOf v 0 0 ∧
        (s.chip.flag .ARB_CFG_COMPAT = false → bitsOf v 0 0 = 1 → t.chip.flag (.PG_COMMIT_PENDING 0x75) = false)) ∧
    ∀ c : Chip,
      (∀ (urg reqs : List Nat) (last : Nat), reqs.all (· < 16) = true → reqs ≠ [] →
        ∃ o ∈ reqs, c.arbWinner urg last reqs = some o ∧ ∀ m ∈ reqs, c.effPrio urg o ≤ c.effPrio urg m) ∧
      ∀ bs : List Byte, c.granOn = true → a + bs.length ≤ c.granTop →
        ((c.gWrite a bs).gPeek a bs.length).1 = bs ∧
          ∀ b, b < a ∨ a + bs.length ≤ b → memRd (c.gWrite a bs).gran.mem b = memRd c.gran.mem b

/-- Ring operations, doorbells, descriptors, fences and notifies. ENABLE of a pair not enabled reads its entry, and ends
OK or INVALID; an enabled one ends BUSY; FLUSH and RESUME act on a halted ring, DISABLE on an empty one with nothing
in flight. A doorbell moves its index; one of a pair that is not enabled, or beyond what the ring can hold, is
refused, counted and raised. Where the Well may take the head of a ring, it reserves a credit and advances SQ_HEAD; a
TICK_FENCE whose tick has come completes LATE and another holds the ring; a descriptor that fails a check completes
with that cause, one that moves nothing completes OK, one whose tile cannot be reached completes with cause 13,
another is sent. A barrier completes once nothing it waits for is left, a fence at its tick. An entry unconsumed
HOLDOFF after it was written sets its group’s notify, once. A FLUSH keeps WELL_RING_RES.BUSY at 1 while it lasts,
which is the model’s choice (log entry 147). RING_ENABLE, RING_FLUSH, RING_RESUME, RING_DISABLE, SQ_DOORBELL,
CQ_DOORBELL, DESCRIPTOR_TAKE, TICK_FENCE, BARRIER, TICK_FENCE_DONE and NOTIFY_HOLDOFF complete so. -/
def Obligations.RingsTakeAndComplete : Prop :=
  ∀ (s : State) (rq : Requester) (w : Nat), w < 16384 → s.chip.isSender = true →
    (takes s.chip rq Reg.WELL_RING_CTRL = true → s.chip.flag .WELL_RING_RES_BUSY = false →
      (∀ p, s.chip.pairAt w = some p →
        exec (.ringEnable rq w) s = .next (s.effect fun c => c.ringRes w 3) ∧
          (p.state = 2 →
            exec (.ringFlush rq w) s = .next (s.effect fun c =>
                let d := (c.setPair' w { p with state := 3, flushTo := some p.sqTail }).setNat Reg.WELL_RING_RES (2 ^ 31 + w)
                (d.pairSync w).flushAll w (d.flushLeft w)) ∧
              exec (.ringResume rq w) s =
                .next (s.effect fun c => (((c.setPair' w { p with state := 1 }).pairSync w)).ringRes w 0)) ∧
          (p.state ≠ 2 →
            exec (.ringFlush rq w) s = .next (s.effect fun c => c.ringRes w 3) ∧
              exec (.ringResume rq w) s = .next (s.effect fun c => c.ringRes w 3)) ∧
          (p.state ≠ 3 →
            (s.chip.takenOf w = [] → p.sqHead = p.sqTail → exec (.ringDisable rq w) s = .next (s.effect fun c =>
              (((c.setPair' w { p with state := 0 }).pairSync w).onWell fun x =>
                { x with pairs := x.pairs.filter (·.1 != w) }).ringRes w 0)) ∧
            (s.chip.takenOf w ≠ [] ∨ p.sqHead ≠ p.sqTail →
              exec (.ringDisable rq w) s = .next (s.effect fun c => c.ringRes w 2)))) ∧
      (s.chip.pairAt w = none →
        exec (.ringFlush rq w) s = .next (s.effect fun c => c.ringRes w 3) ∧
          exec (.ringResume rq w) s = .next (s.effect fun c => c.ringRes w 3) ∧
          exec (.ringDisable rq w) s = .next (s.effect fun c => c.ringRes w 3) ∧
          (s.chip.entryOk (s.chip.readPair w) = true → exec (.ringEnable rq w) s =
            .next (s.effect fun c => ((c.setPair' w (c.readPair w)).pairSync w).ringRes w 0)) ∧
          (s.chip.entryOk (s.chip.readPair w) = false →
            exec (.ringEnable rq w) s = .next (s.effect fun c => c.ringRes w 1)))) ∧
    (∀ v, v < 65536 → s.chip.pcie.up = true → s.chip.twinHolds = false →
      let refused := fun (c : Chip) => (c.count Reg.WELL_DB_ERR).raise .WELL_DB_ERR
      (s.chip.pairAt w = none → exec (.sqDoorbell w v) s = .next (s.effect refused) ∧
        exec (.cqDoorbell w v) s = .next (s.effect refused)) ∧
      ∀ p, s.chip.pairAt w = some p →
        (2 ^ p.sqLog < idxDist v p.sqHead → exec (.sqDoorbell w v) s = .next (s.effect refused)) ∧
        (idxDist v p.sqHead ≤ 2 ^ p.sqLog →
          exec (.sqDoorbell w v) s = .next (s.effect fun c => c.setPair' w { p with sqTail := v })) ∧
        (p.unconsumed < idxDist v p.cqHead → exec (.cqDoorbell w v) s = .next (s.effect refused)) ∧
        (idxDist v p.cqHead ≤ p.unconsumed → exec (.cqDoorbell w v) s = .next (s.effect fun c =>
          let d := (c.setPair' w { p with cqHead := v, stamps := p.stamps.drop (idxDist v p.cqHead) }).putDrops w
          d.flushAll w (d.flushLeft w)))) ∧
    (let ends := fun (f : Chip → Chip) =>
        exec (.descriptorTake w) s = .next (s.effect f) ∧ exec (.tickFence w) s = .next (s.effect f);
      (s.chip.pairAt w = none → ends fun c => c) ∧
      ∀ p, s.chip.pairAt w = some p →
        (s.chip.canTake w p = false → ends fun c => c) ∧
        (s.chip.canTake w p = true → s.chip.replaying w = false →
          let d := s.chip.headDesc p
          let x := s.chip.takeHead w p false
          let y := x.1.when (d.usesBuf && d.writes && decide (d.buf + d.count ≤ x.1.granTop)) fun c => c.gReadCount d.buf d.count
          (d.op = 0x11 →
            (s.chip.bell.tick.isSome = true → d.aux ≤ s.chip.lastIndex →
              ends fun _ => x.1.complete x.2 { result 0 0 with late := true } 0) ∧
            (s.chip.lastIndex < d.aux → ends fun _ => x.1.blockBy w x.2.num)) ∧
          (d.op ≠ 0x10 → d.op ≠ 0x11 →
            (∀ k, y.descCause d = some k → ends fun _ => y.complete x.2 (result 1 k) 0) ∧
            (y.descCause d = none →
              (d.count = 0 → d.op ≤ 4 → ends fun _ => y.complete x.2 (result 0 0) 0) ∧
              (d.count ≠ 0 → d.tgt = 0 → y.reachable p.wdn = false → ends fun _ => y.complete x.2 (result 1 13) 0) ∧
              (d.count ≠ 0 → d.tgt ≠ 0 ∨ y.reachable p.wdn = true →
                ends fun _ => (y.when (bitAt d.dflags 0) fun c => c.blockBy w x.2.num).dispatch w x.2))))) ∧
    (∀ (p : Pair) (t : Taken), s.chip.pairAt w = some p → p.block = some t.num →
      s.chip.well.taken.find? (fun u => u.num == t.num) = some t → t.pair = w →
      (t.desc.op = 0x10 → t.after = [] →
        exec (.barrier w) s = .next (s.effect fun c => c.complete t (result 0 0) 0)) ∧
      (t.desc.op = 0x10 → t.after ≠ [] → exec (.barrier w) s = .next (s.effect fun c => c)) ∧
      (t.desc.op = 0x11 → (s.chip.well.taken.filter fun u => u.desc.op == 0x11) = [t] →
        (s.chip.bell.tick.isSome = true → t.desc.aux ≤ s.chip.lastIndex →
          exec .tickFenceDone s = .next (s.effect fun c => c.complete t (result 0 0) 0)) ∧
        (s.chip.lastIndex < t.desc.aux → exec .tickFenceDone s = .next (s.effect fun c => c)))) ∧
    ∀ dt,
      (∀ (p : Pair) (at_ : Nat), s.chip.pairAt w = some p → p.stamps.find? (fun x => !x.2) = some (at_, false) →
        exec (.notifyHoldoff w dt) s = .next (s.effect fun c =>
          let h := us (c.get .WELL_NOTIFY_CFG_HOLDOFF)
          let d := (c.elapse dt).elapseAge (at_ + h)
          let e := d.setPair' w { p with stamps := p.stamps.map fun y => (y.1, y.2 || decide (y.1 + h ≤ d.age)) }
          e.when (bitAt p.rflags 0) fun e =>
            (e.setNat Reg.WELL_NOTIFY (setBitAt (e.nat Reg.WELL_NOTIFY) (p.ngrp % 32) true)).raise .WELL_CQ_NOTIFY)) ∧
      ∀ p, s.chip.pairAt w = some p → p.stamps.find? (fun x => !x.2) = none →
        exec (.notifyHoldoff w dt) s = .next (s.effect fun c => c.elapse dt)

/-- The PCIe link, the host’s memory window and the management channel. The link comes up within what PCIE_CFG allows and
goes down with its state at reset, as after a Function Level Reset; errors are counted and raised. Reads and enabled
bytes written through BAR4 are requests of the Granary’s requester 10. On a management session a message with a failed
tag is counted; one of the last 16 answered is answered again as kept; the next 16 are held and processed in SEQ
order, each kind with its own status and payload, a count that does not fit being FORMAT. M_HELLO with a valid
certificate is answered; M_FINISH with a valid signature begins the session with slot 5 keyed; M_CLOSE and ten seconds
of silence end it. PCIE_LINK_UP, FLR, PCIE_LINK_DOWN, BAR4_READ, BAR4_WRITE, PCIE_AER_ERROR, MGMT_REG_RD, MGMT_REG_WR,
MGMT_MEM_RD, MGMT_MEM_WR, MGMT_DOORBELL, M_HELLO, M_FINISH, M_CLOSE, MGMT_SESSION_SILENCE and LANE_M_LINK complete so. -/
def Obligations.HostReachesThePart : Prop :=
  ∀ s : State, s.chip.isSender = true →
    (∀ gen width, gen ≤ 4 → width ≤ 4 → s.chip.enabled 0x81 = true → s.chip.enabled 0x1b = true → s.chip.pcie.up = false → s.chip.fab.commits = [] →
      ∃ t, exec (.pcieLinkUp gen width) s = .next t ∧ t.pending = s.pending ∧
        onlyRegs (s.chip.onPcie fun x => { x with up := true }) t.chip
          [Reg.PCIE_LINK, Reg.PG_EVENT 0x81, Fld.reg (.PG_EVENT_CNT_COUNT 0x81)] ∧
        t.chip.flag .PCIE_LINK_UP = true ∧ 1 ≤ t.chip.get .PCIE_LINK_GEN ∧
        t.chip.get .PCIE_LINK_GEN ≤ max (s.chip.get .PCIE_CFG_GEN) 1 ∧ t.chip.get .PCIE_LINK_GEN ≤ max gen 1 ∧
        t.chip.get .PCIE_LINK_WIDTH ∈ [1, 2, 4] ∧ t.chip.get .PCIE_LINK_WIDTH ≤ max width 1 ∧
        bitAt (t.chip.nat (Reg.PG_EVENT 0x81)) 0 = true) ∧
    (s.chip.pcie.up = true →
      exec .flr s = .next (s.effect fun c => c.pcieClear.raise .PCIE_FLR) ∧
        exec .pcieLinkDown s = .next (s.effect fun c =>
          (((c.onPcie fun p => { p with up := false }).setNat Reg.PCIE_LINK 0).pcieClear).raise .PCIE_LINK_DOWN) ∧
        (∀ a n ecc, a < 2 ^ 40 → 1 ≤ n → n ≤ 4096 →
          exec (.bar4Read a n ecc) s = .next (s.effect fun c => (c.gRead 10 a n ecc).mgmtDrain 16)) ∧
        ∀ a (bs : List Byte) ecc, a < 2 ^ 40 → bs ≠ [] → bs.length ≤ 512 →
          exec (.bar4Write a (bs.map some) ecc) s = .next (s.effect fun c => (c.gWriteReq 10 a bs ecc).mgmtDrain 16) ∧
            exec (.bar4Write a (none :: (bs.drop 1).map some) ecc) s = .next (s.effect fun c =>
              (if bs.length = 1 then c else c.gWriteReq 10 (a + 1) (bs.drop 1) ecc).mgmtDrain 16)) ∧
    (s.chip.pcie.up = false → exec .flr s = .next (s.effect fun c => c) ∧
      exec .pcieLinkDown s = .next (s.effect fun c => c)) ∧
    (s.chip.enabled 0x81 = true → exec (.pcieAerError true) s =
        .next (s.effect fun c => (c.count Reg.PCIE_CORR_CNT).raise .PCIE_CORR_ERR) ∧
      exec (.pcieAerError false) s =
        .next (s.effect fun c => (c.count Reg.PCIE_UNCORR_CNT).raise .PCIE_UNCORR_ERR)) ∧
    (s.chip.enabled 0x81 = false → ∀ corr : Bool, exec (.pcieAerError corr) s = .next (s.effect fun c => c)) ∧
    (s.chip.mgmtOn = true →
      (∀ (seq a m n : Nat) (bs : List Byte) (tag : Bool), a < 2 ^ 32 → m < 2 ^ 64 → s.chip.mgmt.session = true →
        let ends := fun (f : MgmtReq → Chip → Chip) =>
          exec (.mgmtRegRd seq a n tag) s = .next (s.effect (f ⟨seq, 1, a, n, []⟩)) ∧
            exec (.mgmtRegWr seq a bs tag) s = .next (s.effect (f ⟨seq, 2, a, 0, bs⟩)) ∧
            exec (.mgmtMemRd seq m n tag) s = .next (s.effect (f ⟨seq, 3, m, n, []⟩)) ∧
            exec (.mgmtMemWr seq m bs tag) s = .next (s.effect (f ⟨seq, 4, m, 0, bs⟩)) ∧
            exec (.mgmtDoorbell seq a n tag) s = .next (s.effect (f ⟨seq, 5, a, n, []⟩))
        let heard := fun (c : Chip) => c.onMgmt fun x => { x with heardAt := c.age }
        let d := (seq + 2 ^ 64 - s.chip.mgmt.lastSeq) % 2 ^ 64
        (tag = false → ends fun _ c => (c.countF .WELL_MGMT_STAT_AUTH_FAIL).raise .WELL_MGMT_AUTH_FAIL) ∧
        (tag = true →
          (∀ k, s.chip.mgmt.kept.find? (fun k => k.1 == seq) = some k →
            ends fun r c => (heard c).emit (.mgmt (0x80 + r.kind) [k.1, k.2.1] k.2.2)) ∧
          (s.chip.mgmt.kept.find? (fun k => k.1 == seq) = none →
            (d = 0 ∨ 16 < d → ends fun _ => heard) ∧
            (1 ≤ d → d ≤ 16 → (s.chip.mgmt.held.any fun q => q.seq == seq) = false →
              ends fun r c => (c.onMgmt fun x => { x with heardAt := c.age, held := x.held ++ [r] }).mgmtDrain 16) ∧
            (s.chip.mgmt.held = [] → s.chip.mgmt.lastSeq < 2 ^ 64 → seq = (s.chip.mgmt.lastSeq + 1) % 2 ^ 64 →
              (s.chip.granOn = true → s.chip.gBlocked m n = false) → ends fun r c =>
                let x := (c.onMgmt fun x => { x with heardAt := c.age, held := [r] }).mgmtDo r
                ((x.1.onMgmt fun y => { y with
                  lastSeq := seq, held := y.held.filter (fun q => q.seq != seq)
                  kept := ((seq, x.2.1, x.2.2) :: y.kept).take 16 }).emit
                    (.mgmt (0x80 + r.kind) [seq, x.2.1] x.2.2)).mgmtDrain 15)))) ∧
      (∀ (peer : Nat) (data : List Byte), peer < 2 ^ 32 → data.length = 481 → s.chip.mgmt.session = false →
        let taken := fun (c : Chip) => (c.onMgmt fun m => { m with hello := none }).pendingWrite 3
        let d := taken s.chip
        exec (.mHello peer data false) s = .next (s.effect fun c => c) ∧
        (ownerCertOk data 1 (Config.sha384 (beBytes 97 (d.slot 3).key)) (secOf s.chip.bell.time) = true →
          (d.slot 3).state = 1 → s.chip.fuses.lifecycle ≠ 2 → d.mgmt.session = false →
          exec (.mHello peer data true) s = .next (s.effect fun c =>
            let d := taken c
            let part := d.idCert ++ Config.public d.randomNow
            ((d.onMgmt fun m => { m with hello := some peer, heardAt := d.age }).emit
              (.mgmt 0x31 [peer] (part ++ Config.sign (d.slot 0).key (data ++ part)))).redraw)) ∧
        ((d.slot 3).state ≠ 1 → exec (.mHello peer data true) s = .next (s.effect fun c => c))) ∧
      (∀ seq peer, seq < 2 ^ 64 → s.chip.mgmt.hello = some peer →
        exec (.mFinish seq false) s = .next (s.effect fun c => c) ∧
          exec (.mFinish seq true) s = .next (s.effect fun c =>
            let d := (c.setSlot 5 (loadedSlot 1 (Config.kdf 7 [c.draws, peer]) 0 none)).onMgmt fun m => { m with
              session := true, hello := none, lastSeq := seq, kept := [], held := [], heardAt := c.age, notified := [] }
            ((d.put .WELL_MGMT_STAT_SESSION 1).setNat Reg.WELL_MGMT_PEER peer).raise .WELL_MGMT_UP)) ∧
      (s.chip.mgmt.session = true → exec (.mClose true) s = .next (s.effect Chip.mgmtEnd) ∧
        exec (.mClose false) s =
          .next (s.effect fun c => (c.countF .WELL_MGMT_STAT_AUTH_FAIL).raise .WELL_MGMT_AUTH_FAIL))) ∧
    (s.chip.mgmt.session = true →
      exec .mgmtSessionSilence s =
        .next (s.effect fun c => (c.elapseAge (c.mgmt.heardAt + ms 10000)).mgmtEnd)) ∧
    (s.chip.mgmt.session = false → exec .mgmtSessionSilence s = .next (s.effect fun c => c)) ∧
    (∀ up : Bool, s.chip.pwr.state ≠ .deep → s.chip.enabled 0x1a = true → s.chip.flag .WELL_MGMT_CFG_EN = true →
      exec (.laneMLink up) s = .next (s.effect fun c => c.put .WELL_MGMT_STAT_LINK (if up then 1 else 0))) ∧
    ∀ (c : Chip) (r : MgmtReq),
      (r.kind = 1 → (r.b = 0 ∨ 256 < r.b → c.mgmtDo r = (c, 2, [])) ∧ (1 ≤ r.b → r.b ≤ 256 →
        let x := c.wordReads .mgmt r.a r.b
        c.mgmtDo r = (x.1, if x.2.2 then 1 else 0, x.2.1) ∧ x.2.1.length = 4 * r.b)) ∧
      (r.kind = 2 → (r.bytes.length % 4 ≠ 0 ∨ r.bytes = [] ∨ 1020 < r.bytes.length → c.mgmtDo r = (c, 2, [])) ∧
        (∀ v : Word, r.bytes = leBytes 4 v.toNat → c.mgmtDo r =
          (c.regWriteAny .mgmt r.a v, if c.fabricCause .mgmt r.a true = 4 then 1 else 0, []))) ∧
      (r.kind = 3 → (r.b = 0 ∨ 1024 < r.b → c.mgmtDo r = (c, 2, [])) ∧ (1 ≤ r.b → r.b ≤ 1024 →
        c.mgmtDo r = (c.gReadCount r.a r.b, if (c.gPeek r.a r.b).2 then 3 else 0, (c.gPeek r.a r.b).1))) ∧
      (r.kind = 4 → (r.bytes = [] ∨ 1016 < r.bytes.length → c.mgmtDo r = (c, 2, [])) ∧ (r.bytes ≠ [] →
        r.bytes.length ≤ 1016 → c.mgmtDo r = (c.gWriteReq 11 r.a r.bytes .ok, 0, []))) ∧
      (r.kind = 5 → c.mgmtDo r = (c.bar2Doorbell r.a r.b, 0, [])) ∧
      (∀ n, c.mgmt.held.find? (fun q => q.seq == (c.mgmt.lastSeq + 1) % 2 ^ 64) = none → c.mgmtDrain n = c) ∧
      ((c.mgmtEnd).mgmt.session = false ∧ (c.mgmt.session = true →
        c.mgmtEnd.mgmt.held = [] ∧ c.mgmtEnd.mgmt.kept = [] ∧ c.mgmtEnd.flag .WELL_MGMT_STAT_SESSION = false))

/-- The pair’s handshake, copies, keep-alives, health and the twin link. The handshake keys slot 4 where certificates,
owner keys and signatures hold, and else leaves the pair unkeyed. A copy received replaces the other sender’s rings
and what is in flight, and reads SYNCED where the digest agrees; where it does not, SYNCED falls and a
resynchronisation is asked for. An acknowledged copy shows its period and no entry of that period or before is held
any longer; one late is counted and raised once. A keep-alive acknowledges the mirror writes before it. The sender
that is not active reports its health, ELIGIBLE after two good reports unless frozen; 125 µs of silence freeze it; 500
µs show the peer silent. The link coming up starts a resynchronisation; going down it ends SYNCED, and the active
sender runs SOLO; a finished resynchronisation, after the windows at 4 GB/s and 10 ms, reads SYNCED and not SOLO.
TWIN_PAIR_HANDSHAKE, STATE_COPY_RECEIVE, COPY_ACK, COPY_LATE, KEEP_ALIVE, HEALTH_REPORT, TWIN_LINK_QUIET, PEER_SILENT,
TWIN_LINK_DOWN, TWIN_LINK_UP, RESYNC, RESYNC_DONE and MIRROR_WRITE_RECEIVE complete so. -/
def Obligations.TwinLinkCarriesTheCopy : Prop :=
  ∀ (s : State) (rq : Requester), s.chip.isSender = true →
    (∀ (cert owner sig peer : Bool) (eph : Nat), s.chip.enabled 0x90 = true → s.chip.twin.up = true →
      s.chip.flag .TWIN_CFG_EN = true → (s.chip.slot 3).state = 1 →
      ((cert && owner && sig) = true → exec (.twinPairHandshake cert owner sig peer eph) s = .next (s.effect fun c =>
        (((c.emit (.twin 0 [c.sidx] c.idCert)).redraw.setSlot 4
          (loadedSlot 2 (Config.kdf 6 [c.randomNow, eph]) (c.lastIndex / 2 ^ 20) none))).onTwin fun t =>
            { t with keyed := true, peerOk := peer, heardAt := c.age, epoch := c.lastIndex / 2 ^ 20 })) ∧
      ((cert && owner && sig) = false → exec (.twinPairHandshake cert owner sig peer eph) s = .next (s.effect fun c =>
        (c.emit (.twin 0 [c.sidx] c.idCert)).redraw.onTwin fun t => { t with keyed := false, peerOk := false }))) ∧
    (∀ (cp : Copy) (same : Bool), s.chip.twinOn = true → s.chip.twinRole = 2 → s.chip.twin.up = true →
      s.chip.twin.keyed = true → cp.commits = [] → (∀ x ∈ cp.ports, x.n < 16) →
      ∃ t, exec (.stateCopyReceive cp same) s = .next t ∧ t.pending = s.pending ∧ t.chip.bell = s.chip.bell ∧
        t.chip.gran = s.chip.gran ∧ t.chip.ing = s.chip.ing ∧ t.chip.fuses = s.chip.fuses ∧ t.chip.well.pairs = cp.pairs ∧
        t.chip.well.taken = cp.taken ∧ t.chip.twin.copy = some cp ∧ t.chip.twin.digestOk = same ∧
        t.chip.flag .TWIN_STAT_SYNCED = same ∧ t.chip.twin.frozen = false ∧
        (same = false → Out.twin 12 [cp.period] [] ∈ t.chip.out)) ∧
    (s.chip.twinOn = false → ∀ (cp : Copy) (same : Bool),
      exec (.stateCopyReceive cp same) s = .next (s.effect fun c => c)) ∧
    (∀ p flags near, flags < 512 → near < 65536 →
      (s.chip.twinRole ≠ 3 → exec (.copyAck p flags near) s = .next (s.effect fun c => c)) ∧
      (s.chip.twinRole = 3 → s.chip.twin.up = true → s.chip.twin.copyOut = some p → s.chip.fab.commits = [] →
        ∃ t, exec (.copyAck p flags near) s = .next t ∧ t.pending = s.pending ∧ t.chip.bell = s.chip.bell ∧
          t.chip.gate = s.chip.gate ∧ t.chip.twin.copyOut = none ∧
          t.chip.twin.peerNear = near ∧ t.chip.get .TWIN_COPY_STAT_ACK_TICK = p % 65536 ∧
          t.chip.flag .TWIN_STAT_SYNCED = true ∧ ∀ h ∈ t.chip.well.held, p < h.period)) ∧
    (s.chip.twin.copyOut = none → exec .copyLate s = .next (s.effect fun c => c)) ∧
    (∀ p, s.chip.twin.copyOut = some p → s.chip.twin.late = false → exec .copyLate s = .next (s.effect fun c =>
      let d := (c.elapseTo (c.tickTime (p + 1) + c.period / 2)).onTwin fun t => { t with late := true }
      ((d.count Reg.TWIN_COPY_LATE).put .TWIN_STAT_SYNCED 0).raise .TWIN_COPY_LATE)) ∧
    (s.chip.twin.up = false → exec .keepAlive s = .next (s.effect fun c => c)) ∧
    (s.chip.twin.up = true →
      (s.chip.twinRole = 3 → exec .keepAlive s = .next (s.effect fun c =>
        (c.onTwin fun t => { t with heardAt := c.age, frozen := false }).mirrorAcked)) ∧
      (s.chip.twinRole ≠ 3 → s.chip.twinOn = true →
        exec .keepAlive s = .next (s.effect fun c =>
        let d := c.elapseAge (c.twin.aliveAt + us 125)
        (d.onTwin fun t => { t with aliveAt := d.age }).emit (.twin 6 [] [])))) ∧
    (s.chip.twinOn = true → s.chip.twinRole = 2 → s.chip.twin.up = true →
      let f := s.chip.healthFlags
      let good := if healthGood f then min (s.chip.twin.good + 1) 2 else 0
      (s.chip.twin.frozen = true → exec .healthReport s = .next (s.effect fun c =>
        (c.onTwin fun t => { t with good := good }).emit (.twin 5 [f, c.get .TWIN_PORTS_NEAR] []))) ∧
      (s.chip.twin.frozen = false → s.chip.fab.commits = [] →
        ∃ t, exec .healthReport s = .next t ∧ t.pending = s.pending ∧ 
          onlyRegs (s.chip.onTwin fun x => { x with good := good }) t.chip [Fld.TWIN_STAT_ELIGIBLE.reg] ∧
          t.chip.flag .TWIN_STAT_ELIGIBLE = (good == 2) ∧ Out.twin 5 [f, s.chip.get .TWIN_PORTS_NEAR] [] ∈ t.chip.out)) ∧
    (∀ m : TwinMsg,
      let open_ := s.chip.twin.up && s.chip.twin.keyed && (s.chip.twinOn || (s.chip.twin.resync && !s.chip.leads))
      (open_ = false → exec (.mirrorWriteReceive m) s = .next (s.effect fun c => c)) ∧
      (open_ = true → s.chip.twinRole ≠ 3 →
        (∀ a bs, m = .write a bs → exec (.mirrorWriteReceive m) s = .next (s.effect fun c => c.twinHeard.gWrite a bs)) ∧
        (∀ a v, m = .reg a v → mirroredReg a = true → exec (.mirrorWriteReceive m) s =
          .next (s.effect fun c => c.twinHeard.regPerform (.core 0) a v noVerdict)) ∧
        (∀ w v, m = .tail w v → exec (.mirrorWriteReceive m) s = .next (s.effect fun c =>
          c.twinHeard.onTwin fun t => { t with tails := assocPut t.tails w v })) ∧
        ∀ wdn cmd, m = .command wdn cmd →
          exec (.mirrorWriteReceive m) s = .next (s.effect fun c => c.twinHeard.segmentCmd wdn cmd))) ∧
    (s.chip.twinOn = true → s.chip.twin.up = true →
      (s.chip.twinRole ≠ 3 → exec .twinLinkQuiet s = .next (s.effect fun c =>
        (c.elapseAge (c.twin.heardAt + us 125)).onTwin fun t => { t with frozen := true })) ∧
      (s.chip.twinRole = 3 → s.chip.get .TWIN_STAT_PEER ≠ 1 → exec .peerSilent s = .next (s.effect fun c =>
        ((c.elapseAge (c.twin.heardAt + us 500)).put .TWIN_STAT_PEER 1).raise .TWIN_PEER_SILENT))) ∧
    (s.chip.twin.up = true → s.chip.fab.commits = [] →
      ∃ t, exec .twinLinkDown s = .next t ∧ t.pending = s.pending ∧ t.chip.bell = s.chip.bell ∧ t.chip.gate = s.chip.gate ∧
        t.chip.twin.up = false ∧ t.chip.twin.keyed = false ∧
        t.chip.twin.copyOut = none ∧ t.chip.flag .TWIN_STAT_SYNCED = false ∧ t.chip.get .TWIN_STAT_PEER = 3 ∧
        (s.chip.twinRole = 3 → t.chip.flag .TWIN_STAT_SOLO = true ∧ t.chip.twin.doorbells = []) ∧
        (s.chip.twinRole ≠ 3 → s.chip.twin.frozen = false → t.chip.flag .TWIN_STAT_ELIGIBLE = false)) ∧
    (s.chip.twin.up = false → exec .twinLinkDown s = .next (s.effect fun c => c)) ∧
    (s.chip.enabled 0x90 = true → s.chip.flag .TWIN_CFG_EN = true → s.chip.portState 10 0 = 6 → s.chip.twin.up = false →
      s.chip.twinRole ≠ 2 → exec .twinLinkUp s = .next (s.effect fun c =>
        let d := (c.onTwin fun t => { t with up := true, heardAt := c.age, aliveAt := c.age, frozen := false }).raise .TWIN_LINK_UP
        (((d.onTwin fun t => { t with resync := true, resyncAt := c.age, good := 0 }).put .TWIN_STAT_SYNCED 0).emit
          (.twin 7 [] [])).resyncSend)) ∧
    (takes s.chip rq Reg.TWIN_CTRL = true → s.chip.enabled 0x90 = true → s.chip.twin.up = true →
      s.chip.twin.keyed = true → s.chip.flag .TWIN_CFG_EN = true → s.chip.twinRole = 3 →
      exec (.resync rq) s = .next (s.effect fun c =>
        (((c.onTwin fun t => { t with resync := true, resyncAt := c.age, good := 0 }).put .TWIN_STAT_SYNCED 0).emit
          (.twin 7 [] [])).resyncSend)) ∧
    (s.chip.twin.resync = true → s.chip.twin.up = true → s.chip.fab.commits = [] →
      ∃ t, exec .resyncDone s = .next t ∧ t.pending = s.pending ∧
        (let mirrored := s.chip.mirrorWindows.foldl (fun n w => n + w.2) 0
         let d := s.chip.elapseAge (s.chip.twin.resyncAt + ms 10 + mirrored * 16384);
         onlyRegs (d.onTwin fun x => { x with resync := false, digestOk := true, heardAt := d.age, frozen := false })
          t.chip [Fld.TWIN_STAT_SYNCED.reg, Reg.PG_EVENT 0x90, Fld.reg (.PG_EVENT_CNT_COUNT 0x90)]) ∧
        t.chip.twin.resync = false ∧
        t.chip.flag .TWIN_STAT_SYNCED = true ∧ t.chip.flag .TWIN_STAT_SOLO = false ∧ t.chip.twinRole ≠ 1) ∧
    (s.chip.twin.resync = false → exec .resyncDone s = .next (s.effect fun c => c))

/-- A ring’s tiles turn, Elders move their mandates, senders gain and lose them, and split service follows. A tile of a
ring whose upstream is not UP, or has brought no beacon for 500 µs, idles its downstream transmitter, and holds
instead within 100 ms of its last turn; after 10 µs with the other port UP it turns, its counts and units following;
with that port not UP for 2 ms it holds, silent and without its session. An Elder that misses its holder, and whose
last report of the other sender is fresh, eligible and silent about the peer, moves its mandate with the next epoch; a
tagged presence record is its latest report. At a sender, a yield’s idle ends after 1 ms; an Elder not heard for eight
superframes is told once; silence of link and Elders isolates the active sender. A rejoin is refused for a port that
is not near or a tick too early; at its tick SPLIT is withdrawn there, and a grant serves the lost tiles whose units
are kept. TURN_TRIGGER, TURN_COMPLETE, TURN_TIMEOUT, MANDATE_TRANSFER, PRESENCE_RECORD, YIELD_IDLE_END, ELDER_SILENT,
ISOLATED, REJOIN, REJOIN_AT_TICK and SPLIT_GRANT complete so. -/
def Obligations.RingsTurnAndMandatesMove : Prop :=
  ∀ s : State,
    (s.chip.isTile = true → s.chip.flag .ELDER_T_CFG_RING = true → s.chip.tile.up.isSome = true →
      (s.chip.get .ELDER_T_STAT_STATE = 0 → s.chip.linkUpAt s.chip.upPort = false →
        (s.chip.tile.turnAt = none → exec .turnTrigger s = .next (s.effect fun c =>
          ((c.put .ELDER_T_STAT_STATE 1).onTile fun t => { t with trigAt := some c.age }).txStop 0 c.downPort)) ∧
        (∀ a, s.chip.tile.turnAt = some a → s.chip.age < a + ms 100 →
          exec .turnTrigger s = .next (s.effect fun c => c.put .ELDER_T_STAT_STATE 2))) ∧
      (s.chip.get .ELDER_T_STAT_STATE = 0 → s.chip.linkUpAt s.chip.upPort = true → s.chip.tile.turnAt = none →
        exec .turnTrigger s = .next (s.effect fun c =>
          let d := (c.elapseAge (c.bell.noBeaconSince + us 500)).setPortState 0 c.upPort 1
          ((d.put .ELDER_T_STAT_STATE 1).onTile fun t => { t with trigAt := some d.age }).txStop 0 c.downPort)) ∧
      ∀ a, s.chip.tile.trigAt = some a → s.chip.get .ELDER_T_STAT_STATE = 1 →
        (s.chip.linkUpAt s.chip.downPort = true →
          exec .turnComplete s = .next (s.effect fun c =>
              (((c.elapseAge (a + us 10)).turnTo c.downPort).txStart 0 c.downPort).raise .ELDER_TURNED) ∧
            exec .turnTimeout s = .next (s.effect fun c => c.elapseAge (a + ms 2))) ∧
        (s.chip.linkUpAt s.chip.downPort = false →
          exec .turnComplete s = .next (s.effect fun c => c.elapseAge (a + us 10)) ∧
            exec .turnTimeout s = .next (s.effect fun c =>
              ((((c.elapseAge (a + ms 2)).put .ELDER_T_STAT_STATE 2).onTile fun t =>
                { t with trigAt := none }).dropSession).setTileState 5))) ∧
    (s.chip.isTile = true → s.chip.flag .ELDER_T_CFG_ELDER = true →
      let h := s.chip.nat Reg.ELDER_T_HOLDER % 64
      let willing := s.chip.get .ELDER_T_PEER_SIDX ≠ h ∧ s.chip.get .ELDER_T_PEER_AGE ≤ 2 ∧
        s.chip.flag .ELDER_T_PEER_PEER_SILENT = true ∧ s.chip.flag .ELDER_T_PEER_ELIGIBLE = true
      (∀ a, assoc s.chip.tile.heard h = some a →
        (willing → exec .mandateTransfer s = .next (s.effect fun c =>
          let d := c.elapseAge (a + us 500)
          ((d.setNat Reg.ELDER_T_HOLDER (d.get .ELDER_T_PEER_SIDX)).setNat Reg.ELDER_T_EPOCH
            (d.nat Reg.ELDER_T_EPOCH + 1)).raise .ELDER_MANDATE_MOVED)) ∧
        (¬ willing → exec .mandateTransfer s = .next (s.effect fun c => c.elapseAge (a + us 500)))) ∧
      ∀ (sidx : Nat) (silent eligible : Bool), sidx < 64 →
        exec (.presenceRecord sidx silent eligible true) s = .next (s.effect fun c => c.setNat Reg.ELDER_T_PEER
            ((if silent then 2 ^ 31 else 0) + (if eligible then 2 ^ 30 else 0) + sidx * 65536)) ∧
          exec (.presenceRecord sidx silent eligible false) s = .next (s.effect fun c => c)) ∧
    (s.chip.twin.yieldPorts ≠ 0 → exec .yieldIdleEnd s = .next (s.effect fun c =>
      let d := c.elapseAge (c.twin.yieldAt + ms 1)
      ((portsOf c.twin.yieldPorts).filter fun n => d.mayTransmit (n / 2) (n % 2)).foldl
        (fun d n => d.txStart (n / 2) (n % 2)) (d.onTwin fun t => { t with yieldPorts := 0 }))) ∧
    (s.chip.twin.yieldPorts = 0 → exec .yieldIdleEnd s = .next (s.effect fun c => c)) ∧
    (s.chip.twinOn = true →
      (∀ k m, k < 3 → s.chip.twin.mand[k]? = some m →
        (8 ≤ m.age → m.told = false → 2 ≤ s.chip.eldersHeard → m.split = false →
          exec (.elderSilent k) s = .next (s.effect fun c =>
            (c.onTwin fun t => { t with mand := listPut t.mand k { m with told := true } }).raise .ELDER_ELDER_SILENT)) ∧
        (m.age < 8 ∨ m.told = true → exec (.elderSilent k) s = .next (s.effect fun c => c))) ∧
      (s.chip.twinRole = 3 → s.chip.twin.up = true → s.chip.eldersHeard = 0 →
        exec .isolated s = .next (s.effect fun c =>
          ((c.elapseAge (c.twin.heardAt + us 500)).put .TWIN_STAT_ROLE 4).raise .TWIN_ISOLATED)) ∧
      (s.chip.twinRole = 3 → s.chip.twin.up = true → s.chip.eldersHeard ≠ 0 →
        exec .isolated s = .next (s.effect fun c => c.elapseAge (c.twin.heardAt + us 500)))) ∧
    (∀ rq : Requester, s.chip.isSender = true → takes s.chip rq Reg.TWIN_CTRL = true → s.chip.twinRole = 3 →
      let ports := s.chip.get .TWIN_REJOIN_PORTS
      let tick := s.chip.pair Reg.TWIN_REJOIN_TICK_LO Reg.TWIN_REJOIN_TICK_HI
      ports ≠ 0 →
        (portsLess ports (s.chip.get .TWIN_PORTS_NEAR) ≠ 0 ∨ tick < s.chip.lastIndex + 16 →
          exec (.rejoin rq) s = .next (s.effect fun c => c.reject Reg.TWIN_CTRL)) ∧
        (portsLess ports (s.chip.get .TWIN_PORTS_NEAR) = 0 → s.chip.lastIndex + 16 ≤ tick →
          exec (.rejoin rq) s = .next (s.effect fun c =>
            (c.onTwin fun x => { x with rejoin := some (ports, tick) }).emit (.twin 13 [ports, tick] [])))) ∧
    (∀ ports t, ports < 65536 →
      (s.chip.twinOn = true → s.chip.twinRole ≠ 3 → t ≤ s.chip.lastIndex → s.chip.fab.commits = [] →
        ∃ u, exec (.rejoinAtTick ports t) s = .next u ∧ u.pending = s.pending ∧
          onlyRegs { s.chip with twin := u.chip.twin, quads := u.chip.quads } u.chip [Fld.TWIN_PORTS_NEAR.reg, Fld.TWIN_PORTS_SPLIT.reg,
            Reg.PG_EVENT 0x90, Fld.reg (.PG_EVENT_CNT_COUNT 0x90)] ∧
          ∀ n, n < 16 → bitAt ports n = true →
            bitAt (u.chip.get .TWIN_PORTS_NEAR) n = false ∧ bitAt (u.chip.get .TWIN_PORTS_SPLIT) n = false) ∧
      (s.chip.twinRole = 3 → s.chip.twin.rejoin = none →
        exec (.rejoinAtTick ports t) s = .next (s.effect fun c => c))) ∧
    (∀ n, n < 16 → s.chip.twinOn = true → s.chip.twinRole ≠ 3 → s.chip.near n = true → s.chip.ringed n = true →
      s.chip.twin.up = true → exec (.splitGrant n true) s = .next (s.effect fun c =>
          ((c.port n).devs.filter fun d => d.st == .lost && d.count != 0).foldl (fun d x =>
            d.putDev n { x with st := .admitted, missed := 0, rseq := [] }) (c.setSplit n true)) ∧
        exec (.splitGrant n false) s = .next (s.effect fun c => c.setSplit n false)) ∧
    (∀ (m : Mandate) (holder epoch : Nat),
      (m.known = false ∨ m.epoch < epoch → m.take holder epoch = ⟨true, holder, epoch, false, 0, false⟩) ∧
      (m.known = true → m.epoch = epoch → m.holder ≠ holder → (m.take holder epoch).split = true) ∧
      (m.known = true → epoch < m.epoch → (m.take holder epoch).holder = m.holder ∧
        (m.take holder epoch).epoch = m.epoch)) ∧
    ∀ c : Chip, (2 ≤ c.mandates → c.twinRole ≠ 3 → c.twinRole ≠ 4 → c.mandateEval = c.activate) ∧
      (c.mandates < 2 → c.twinRole = 3 → c.mandateEval = c.yield) ∧
      (c.well.taken = [] → c.activate.twinRole = 3) ∧ c.yield.twinRole = 2 ∧ c.yield.well.taken = [] ∧ c.yield.well.held = []

/-- Key operations, reports, the policy and tamper events. A key operation on a slot that the role lacks or the policy
denies ends DENIED, one on slots 0 to 2 FIXED. ERASE zeroes the slot, extends M3, counts and ends what used it, and is
refused for a ring’s chain slot; a write of a wrong length or slot ends with its result, one of an unused slot is
taken, one of a used slot waits until its users are done, and a second is refused. A debug token that verifies, names
this part and has not expired opens the debug port. START makes a report unless Quarantine or RETURNED end the
request. The shadow policy takes writes; COMMIT puts it in force, advances the epoch and extends M3, and is refused
while draining. Enable bits of tamper sources are only set. A source fires where its condition holds for its filter.
An enabled one latches: in Run, Dim and Waking from boot stage 4 on a tile’s secrets go and it is in Quarantine with
one fuse bit burned; in Deep the retained keys go and the part wakes; in Quarantine nothing more happens. KEY_ERASE,
WRITE_PUBLIC, KEY_IMPORT, GENERATE_AES, GENERATE_EC, OPEN_DEBUG, PENDING_KEY_WRITE, ATT_START, ATTESTATION_DONE,
POL_DATA_WRITE, POLICY_COMMIT, POLICY_DRAIN_DONE, TAMPER_EN_WRITE and TAMPER_EVENT complete so. -/
def Obligations.KeysPolicyAndTamper : Prop :=
  ∀ (s : State) (rq : Requester),
    (takes s.chip rq Reg.KEYS_CTRL = true → s.chip.flag .KEYS_STAT_BUSY = false → ∀ len ok, len < 256 →
      let n := s.chip.get .KEYS_SEL_SLOT
      (s.chip.slotHere n = false ∨ s.chip.slotAllowed rq n = false →
        ∀ i ∈ [Instr.keyErase rq, .writePublic rq len, .keyImport rq len ok, .generateAes rq, .generateEc rq],
          exec i s = .next (s.effect fun c => c.keyResult n 1)) ∧
      (s.chip.slotHere n = true → s.chip.slotAllowed rq n = true →
        (n < 3 → ∀ i ∈ [Instr.keyErase rq, .writePublic rq len, .keyImport rq len ok, .generateAes rq, .generateEc rq],
          exec i s = .next (s.effect fun c => c.keyResult n 2)) ∧
        (3 ≤ n →
          (8 ≤ n → n < 24 → s.chip.isSender = true → s.chip.ringed (n - 8) = true →
            exec (.keyErase rq) s = .next (s.effect fun c => c.keyResult n 7)) ∧
          (n < 8 ∨ 24 ≤ n ∨ s.chip.isSender = false ∨ s.chip.ringed (n - 8) = false →
            (s.chip.slotUsers n = 0 → exec (.keyErase rq) s = .next (s.effect fun c =>
              (((c.zeroSlot n).extend 3 (m3Item 5 n)).slotRevoked n).keyResult n 0)) ∧
            (s.chip.slotUsers n ≠ 0 → exec (.keyErase rq) s = .next (s.effect fun c =>
              (((((c.zeroSlot n).extend 3 (m3Item 5 n)).raise .KEYS_KEY_ERASED_IN_USE).countBy Reg.KEYS_REVOKED
                (c.slotUsers n)).slotRevoked n).keyResult n 0))) ∧
          (len ≠ 97 → exec (.writePublic rq len) s = .next (s.effect fun c => c.keyResult n 3)) ∧
          (n ≠ 3 → n ≠ 6 → exec (.writePublic rq 97) s = .next (s.effect fun c => c.keyResult n 6)) ∧
          (n = 3 ∨ n = 6 →
            exec (.writePublic rq 97) s = .next (s.effect fun c => c.writeSlot n 4 (beNat (c.keyBuf 97)))) ∧
          (len ≠ 60 → len ≠ 76 → exec (.keyImport rq len ok) s = .next (s.effect fun c => c.keyResult n 3)) ∧
          (len = 60 ∨ len = 76 →
            (n < 24 → exec (.keyImport rq len ok) s = .next (s.effect fun c => c.keyResult n 6)) ∧
            (24 ≤ n →
              exec (.keyImport rq len false) s = .next (s.effect fun c => c.keyResult n 4) ∧
                exec (.keyImport rq len true) s = .next (s.effect fun c =>
                  c.writeSlot n (if len = 60 then 1 else 3) (Config.kdf 1 [(c.slot 1).key, beNat (c.keyBuf len)])))) ∧
          (∀ i ∈ [Instr.generateAes rq, .generateEc rq],
            (n < 24 → exec i s = .next (s.effect fun c => c.keyResult n 6)) ∧
            (24 ≤ n → (s.chip.slot n).pend.isSome = true → exec i s = .next (s.effect fun c => c.keyResult n 5))) ∧
          (24 ≤ n → (s.chip.slot n).pend = none →
            exec (.generateAes rq) s = .next (s.effect fun c =>
                let iv := Config.random (c.draws + 1)
                let body := (Config.gcm (c.slot 1).key iv (beBytes 32 c.randomNow)).take 48
                (c.redraw.redraw.setKeyBuf (beBytes 12 iv ++ body ++ [])).writeSlot n 1 c.randomNow) ∧
              exec (.generateEc rq) s = .next (s.effect fun c =>
                let iv := Config.random (c.draws + 1)
                let body := (Config.gcm (c.slot 1).key iv (beBytes 48 c.randomNow)).take 64
                (c.redraw.redraw.setKeyBuf (beBytes 12 iv ++ body ++ Config.public c.randomNow)).writeSlot n 3
                  c.randomNow)))) ∧
      (s.chip.slotAllowed rq 2 = true →
        (len ≠ 112 → exec (.openDebug rq len ok) s = .next (s.effect fun c => c.keyResult n 3)) ∧
        (let fits := beNat ((s.chip.keyBuf 112).take 8) = s.chip.fuses.serial ∧
            secOf s.chip.bell.time ≤ beNat (((s.chip.keyBuf 112).drop 8).take 8);
          (ok = true → fits → exec (.openDebug rq 112 ok) s = .next (s.effect fun c =>
            let d := (((c.zeroVolatile.extend 3 (m3Item 3 0)).put .GATE_LIFECYCLE_DEBUG_OPEN 1).raise .GATE_DEBUG_OPEN).keyResult n 0
            ((List.range 32).drop 3).foldl (fun d k => d.slotRevoked k) d)) ∧
          (ok = false ∨ ¬ fits → exec (.openDebug rq 112 ok) s = .next (s.effect fun c => c.keyResult n 4))))) ∧
    (∀ (c : Chip) (n kind key : Nat),
      ((c.slot n).pend.isSome = true → c.writeSlot n kind key = c.keyResult n 5) ∧
      ((c.slot n).pend = none → c.slotUsers n = 0 →
        c.writeSlot n kind key = (c.setSlot n (loadedSlot kind key 0 none)).keyResult n 0) ∧
      ((c.slot n).pend = none → c.slotUsers n ≠ 0 → c.writeSlot n kind key =
        (c.setSlot n { c.slot n with state := 2, pend := some (kind, key) }).put .KEYS_STAT_PENDING_WRITE 1)) ∧
    (∀ n, n < 32 →
      ((s.chip.slot n).pend = none → exec (.pendingKeyWrite n) s = .next (s.effect fun c => c)) ∧
      ∀ kind key, (s.chip.slot n).pend = some (kind, key) → exec (.pendingKeyWrite n) s = .next (s.effect fun c =>
        (c.setSlot n (loadedSlot kind key 0 none)).keyResult n 0)) ∧
    (takes s.chip rq Reg.GATE_ATT_CTRL = true →
      (s.chip.flag .GATE_ATT_STAT_BUSY = true → exec (.attStart rq) s = .next (s.effect fun c => c)) ∧
      (s.chip.flag .GATE_ATT_STAT_BUSY = false →
        (s.chip.flag .GATE_QUAR_ACTIVE = true ∨ s.chip.fuses.lifecycle = 2 → exec (.attStart rq) s =
          .next (s.effect fun c => (c.put .GATE_ATT_STAT_VALID 0).put .GATE_ATT_STAT_RESULT 1)) ∧
        (s.chip.flag .GATE_QUAR_ACTIVE = false → s.chip.fuses.lifecycle ≠ 2 → exec (.attStart rq) s =
          .next (s.effect fun c => ((c.put .GATE_ATT_STAT_VALID 0).put .GATE_ATT_STAT_BUSY 1).onGate fun g =>
            { g with nonce := (List.range 12).flatMap fun k => leBytes 4 (c.nat (Reg.GATE_ATT_NONCE k)) })))) ∧
    (s.chip.flag .GATE_ATT_STAT_BUSY = true → s.chip.fab.commits = [] →
      ∃ t, exec .attestationDone s = .next t ∧ t.pending = s.pending ∧
        restSame (s.chip.onTile fun _ => t.chip.tile) t.chip ∧
        (∀ a, a / 0x1000 ≠ 0xb0 → a / 0x1000 ≠ 0x30 → t.chip.rd a = s.chip.rd a) ∧
        (∀ k, k < 116 → t.chip.nat (Reg.GATE_ATT_REPORT k) = leNat ((s.chip.report.drop (4 * k)).take 4) % 2 ^ 32) ∧
        t.chip.flag .GATE_ATT_STAT_BUSY = false ∧ t.chip.flag .GATE_ATT_STAT_VALID = true ∧
        t.chip.get .GATE_ATT_STAT_RESULT = 0) ∧
    (takes s.chip rq Reg.GATE_POL_DATA = true → ∀ v : Word, exec (.polDataWrite rq v) s = .next (s.effect fun c =>
      let i := c.get .GATE_POL_ADDR_IDX
      let x := if i < 4096 then v.toNat % 65536 else v.toNat % 256
      let d := c.onGate fun g => { g with polShadow := spSet polReset g.polShadow i x }
      if c.flag .GATE_POL_ADDR_AUTO_INC = true ∧ i < 4127 then d.put .GATE_POL_ADDR_IDX (i + 1) else d)) ∧
    (takes s.chip rq Reg.GATE_POL_COMMIT = true →
      (s.chip.fab.draining ≠ 0 → exec (.policyCommit rq) s = .next (s.effect fun c => c.reject Reg.GATE_POL_COMMIT)) ∧
      (s.chip.fab.draining = 0 → exec (.policyCommit rq) s = .next (s.effect fun c =>
        let e := (c.fab.epoch + 1) % 65536
        ((c.onGate fun g => { g with pol := g.polShadow }).onFab fun f => { f with epoch := e, draining := 1 }).extend 3
          (m3Item 2 e)))) ∧
    (s.chip.fab.draining = 0 → exec .policyDrainDone s = .next (s.effect fun c => c)) ∧
    (s.chip.fab.draining ≠ 0 → exec .policyDrainDone s = .next (s.effect fun c =>
      (c.onFab fun f => { f with draining := 0 }).raise .GATE_POLICY_DONE)) ∧
    (takes s.chip rq Reg.GATE_TAMPER_EN = true → ∀ v : Word, exec (.tamperEnWrite rq v) s = .next (s.effect fun c =>
      c.wr Reg.GATE_TAMPER_EN (c.rd Reg.GATE_TAMPER_EN ||| (v &&& 0x1f)))) ∧
    (∀ n : Nat, (∀ k, (Tamper.pin k n).met = decide (4 ≤ n)) ∧
      (∀ dev, ((Tamper.supply dev n).met = true ↔ 120 < dev ∧ 10 ≤ n) ∧ ((Tamper.clock dev n).met = true ↔ 100 < dev ∨ 200 ≤ n)) ∧
      ∀ temp, (Tamper.diode temp n).met = true ↔ (temp < -500 ∨ 1450 < temp) ∧ 1000 ≤ n) ∧
    ∀ x : Tamper, (Instr.tamperEvent x).wf = true →
      let src := x.src
      src < 5 ∧
      (x.met = false ∨ s.chip.tamperOn src = false ∨ s.chip.pwr.state = .off →
        exec (.tamperEvent x) s = .next (s.effect fun c => c)) ∧
      (x.met = true → s.chip.tamperOn src = true →
        (s.chip.pwr.state = .quarantine ∨ s.chip.pwr.state = .offTrip →
          exec (.tamperEvent x) s = .next (s.effect fun c => c.tamperLatch src)) ∧
        (s.chip.pwr.state = .waking → s.chip.get .GATE_BOOT_STAGE < 4 →
          exec (.tamperEvent x) s = .next (s.effect fun c => (c.tamperLatch src).onGate fun g => { g with retained := [] })) ∧
        (s.chip.pwr.state = .deep → s.chip.fab.commits = [] →
          ∃ t, exec (.tamperEvent x) s = .next t ∧ t.pending = s.pending ∧ t.chip.gran = s.chip.gran ∧
            t.chip.fuses = s.chip.fuses ∧ t.chip.upd = s.chip.upd ∧ t.chip.pwr.state = .waking ∧
            t.chip.gate.retained = [] ∧ t.chip.nat Reg.PWR_WAKE_CAUSE = 0x20 ∧ t.chip.get .PWR_RESET_CAUSE_CAUSE = 5 ∧
            bitAt (t.chip.get .GATE_TAMPER_STAT_LATCHED) src = true) ∧
        (s.chip.pwr.state = .run ∨ s.chip.pwr.state = .dim ∨
            s.chip.pwr.state = .waking ∧ 4 ≤ s.chip.get .GATE_BOOT_STAGE →
          s.chip.isTile = true → s.chip.isSender = false → s.chip.flag .GATE_QUAR_ACTIVE = false → s.chip.fab.commits = [] →
          ∃ t, exec (.tamperEvent x) s = .next t ∧ t.pending = s.pending ∧ t.chip.bell = s.chip.bell ∧
            t.chip.ports = (s.chip.ports.map fun p => { p with session := none }) ∧ t.chip.nim = s.chip.nim ∧
            t.chip.upd = s.chip.upd ∧ t.chip.pwr.state = .quarantine ∧
            bitAt (t.chip.get .GATE_TAMPER_STAT_LATCHED) src = true ∧ t.chip.flag .GATE_QUAR_ACTIVE = true ∧
            t.chip.get .GATE_QUAR_CAUSE = 2 ∧ t.chip.fuses.tamperCnt = min (s.chip.fuses.tamperCnt + 1) 31 ∧
            t.chip.gate.retained = [] ∧ (t.chip.slot 0).state = 3 ∧ (t.chip.slot 1).state = 3 ∧ t.chip.lampState = 0))

/-- Chunks, staging, the release at its tick, trial, confirmation and fall-back. PUT stores a chunk not yet held, and is
refused while hashes are checked; a chunk beyond the bundle or that fails its table entry raises CHUNK_BAD.
DISCARD_ALL empties the region unless a release depends on it. A whole bundle is READY or BAD. STAGE of a READY bundle
empties the slots it writes, and its end writes them. ARM is refused BUSY, NOT_STAGED, LATE, CLASH or NOT_LISTED in
this order, else the release starts; GO counts only while READY and undecided; ABORT ends an undecided release. At T −
8 the release goes on, or is aborted LATE, BUSY, NOT_READY or NO_GO. At T the sender enters the trial, or ends it in a
fall-back, and a tile that holds a go runs its staged image; 16 ticks later the tiles without a go are sent it again
and those tiles report a miss. CONFIRM confirms the slots, FALLBACK and an expired trial start a release of the old
images. The order of the checks is the model’s choice (log entry 193). CHUNK_PUT, DISCARD_ALL, BUNDLE_VERIFY_DONE,
STAGE, STAGING_DONE, RELEASE_ARM, RELEASE_GO, RELEASE_ABORT, RELEASE_DECISION, RELEASE_ACTIVATION, RELEASE_RETRY,
CONFIRM, FALLBACK and TRIAL_EXPIRY complete so. -/
def Obligations.BundlesStageAndReleasesRun : Prop :=
  ∀ (s : State) (rq : Requester),
    (s.chip.isSender = true →
      (takes s.chip rq Reg.UPDATE_CHUNK_CTRL = true →
        (s.chip.get .UPDATE_DL_STAT_STATE = 2 →
          exec (.discardAll rq) s = .next (s.effect fun c => c.reject Reg.UPDATE_CHUNK_CTRL) ∧
            ∀ i x, i < 8192 → exec (.chunkPut rq i x) s = .next (s.effect fun c => c.reject Reg.UPDATE_CHUNK_CTRL)) ∧
        (s.chip.get .UPDATE_DL_STAT_STATE ≠ 2 →
          (s.chip.relStaged = true →
            exec (.discardAll rq) s = .next (s.effect fun c => c.reject Reg.UPDATE_CHUNK_CTRL)) ∧
          (s.chip.relStaged = false → exec (.discardAll rq) s = .next (s.effect fun c =>
            ((c.onUpd fun u => { u with chunks := [], dirOk := false }).showHeld.put .UPDATE_DL_STAT_STATE 0).put
              .UPDATE_DL_STAT_CAUSE 0)) ∧
          ∀ i x, i < 8192 →
            let beyond := 4352 ≤ i ∨ s.chip.upd.dirOk = true ∧ s.chip.bundleChunks ≤ i
            let wrong := s.chip.upd.dirOk = true ∧ s.chip.dirChunks ≤ i ∧ x.ok = false
            (beyond → exec (.chunkPut rq i x) s = .next (s.effect fun c => c.raise .UPDATE_CHUNK_BAD)) ∧
            (¬ beyond → (assoc s.chip.upd.chunks i).isSome = true →
              exec (.chunkPut rq i x) s = .next (s.effect fun c => c)) ∧
            (¬ beyond → assoc s.chip.upd.chunks i = none →
              (wrong → exec (.chunkPut rq i x) s = .next (s.effect fun c => c.raise .UPDATE_CHUNK_BAD)) ∧
              (¬ wrong → exec (.chunkPut rq i x) s = .next (s.effect fun c =>
                let a := c.nat Reg.UPDATE_CHUNK_LO / 64 * 64 + 2 ^ 32 * (c.nat Reg.UPDATE_CHUNK_HI % 32)
                let d := (c.gReadCount a (c.chunkLen i)).onUpd fun u =>
                  { u with chunks := (i, (c.gPeek a (c.chunkLen i)).1) :: u.chunks }
                ((((d.put .UPDATE_DL_STAT_STATE 1).put .UPDATE_DL_STAT_CAUSE 0).dirDone x.table x.vendor x.owner
                  x.bad).showHeld).bundleFull))))) ∧
      (takes s.chip rq Reg.UPDATE_ACT_CTRL = true →
        (s.chip.act = 6 → exec (.stage rq) s = .next (s.effect fun c => c.actCause 9)) ∧
        (s.chip.act ≠ 6 → s.chip.get .UPDATE_DL_STAT_STATE ≠ 3 ∨ s.chip.act ≠ 0 ∧ s.chip.act ≠ 7 →
          exec (.stage rq) s = .next (s.effect fun c => c)) ∧
        (s.chip.act = 0 ∨ s.chip.act = 7 → s.chip.get .UPDATE_DL_STAT_STATE = 3 →
          exec (.stage rq) s = .next (s.effect fun c =>
            let d := (c.setAct 1).actCause 0
            let e := if c.senderItem.isSome then d.clearA 0 else d
            if c.tileItem.isSome then e.clearA 2 else e)) ∧
        (let listed := (s.chip.manifest.filter (·.role == 0)).map (·.serial)
          let clash := s.chip.switchPending = true ∧ (s.chip.switch.any fun x => x.n == s.chip.actTick) = true
          let all := s.chip.get .TWIN_STAT_ROLE == 2 || s.chip.allSerials.all listed.contains
          (s.chip.upd.rel.isSome = true → exec (.releaseArm rq) s = .next (s.effect fun c => c.actCause 2)) ∧
          (s.chip.upd.rel = none →
            (s.chip.act ≠ 2 → exec (.releaseArm rq) s = .next (s.effect fun c => c.actCause 4)) ∧
            (s.chip.act = 2 → s.chip.actTick < s.chip.lastIndex + 64 →
              exec (.releaseArm rq) s = .next (s.effect fun c => c.actCause 1)) ∧
            (s.chip.act = 2 → s.chip.lastIndex + 64 ≤ s.chip.actTick →
              (clash → exec (.releaseArm rq) s = .next (s.effect fun c => c.actCause 3)) ∧
              (¬ clash → all = false → exec (.releaseArm rq) s = .next (s.effect fun c => c.actCause 8)) ∧
              (¬ clash → all = true →
                exec (.releaseArm rq) s = .next (s.effect fun c => c.relStart c.actTick false))))) ∧
        (s.chip.upd.rel = none →
          exec (.releaseGo rq) s = .next (s.effect fun c => c.reject Reg.UPDATE_ACT_CTRL) ∧
            (s.chip.act ≠ 6 → exec (.releaseAbort rq) s = .next (s.effect fun c => c) ∧
              exec (.confirm rq) s = .next (s.effect fun c => c) ∧ exec (.fallback rq) s = .next (s.effect fun c => c)) ∧
            (s.chip.act = 6 →
              exec (.releaseAbort rq) s = .next (s.effect fun c => c.reject Reg.UPDATE_ACT_CTRL) ∧
                exec (.fallback rq) s = .next (s.effect fun c => c.relStart c.actTick true) ∧
                exec (.confirm rq) s = .next (s.effect fun c =>
                  let ok := fun (d : Chip) (k : Nat) =>
                    if (d.img k).state = 2 then d.setImg k { d.img k with state := 3 } else d
                  let d := ok (ok c 0) 2
                  let e := (d.burnSvn (imageSvn (d.img 0).bytes)).each d.allTiles fun e x =>
                    e.act_ x.1 x.2 4 (imageSvn e.tileImage) []
                  let top := e.sections.foldl (fun m x => max m x.1) 0
                  (((e.writeCfg (e.sections.filter fun x => x.1 == top)).onUpd fun u => { u with trialAt := none }).setAct
                    0).raise .UPDATE_CONFIRMED))) ∧
        ∀ r, s.chip.upd.rel = some r →
          (s.chip.act = 4 → r.decided = false → exec (.releaseGo rq) s =
            .next (s.effect fun c => c.onUpd fun u => { u with rel := some { r with go := true } })) ∧
          (s.chip.act ≠ 4 ∨ r.decided = true →
            exec (.releaseGo rq) s = .next (s.effect fun c => c.reject Reg.UPDATE_ACT_CTRL)) ∧
          (r.decided = true →
            exec (.releaseAbort rq) s = .next (s.effect fun c => c.reject Reg.UPDATE_ACT_CTRL)) ∧
          (r.decided = false → exec (.releaseAbort rq) s = .next (s.effect fun c => c.relAbort 7)) ∧
          exec (.confirm rq) s = .next (s.effect fun c => c) ∧ exec (.fallback rq) s = .next (s.effect fun c => c)) ∧
      (∀ r, s.chip.upd.rel = some r →
        (r.decided = true ∨ s.chip.lastIndex + 8 < r.t → exec .releaseDecision s = .next (s.effect fun c => c)) ∧
        (r.decided = false → r.t ≤ s.chip.lastIndex + 8 →
          let here := r.covered.all fun x => r.acked.contains x && s.chip.allTiles.contains x
          (r.t ≤ s.chip.lastIndex + 4 → exec .releaseDecision s = .next (s.effect fun c => c.relAbort 1)) ∧
          (s.chip.lastIndex + 4 < r.t →
            (s.chip.relBusy = true → exec .releaseDecision s = .next (s.effect fun c => c.relAbort 2)) ∧
            (s.chip.relBusy = false →
              (s.chip.act ≠ 4 ∨ here = false → exec .releaseDecision s = .next (s.effect fun c => c.relAbort 5)) ∧
              (s.chip.act = 4 → here = true →
                (r.go = false → r.alone = false → exec .releaseDecision s = .next (s.effect fun c => c.relAbort 6)) ∧
                (r.go = true ∨ r.alone = true → exec .releaseDecision s = .next (s.effect fun c =>
                  ((if r.fallback then c else (c.onTrial 0).onTrial 2).onUpd fun u =>
                    { u with rel := some { r with decided := true } }).setAct 5)))))) ∧
        (r.decided = false ∨ s.chip.lastIndex < r.t → exec .releaseActivation s = .next (s.effect fun c => c)) ∧
        (r.decided = true → r.t ≤ s.chip.lastIndex → s.chip.fab.commits = [] →
          ∃ t, exec .releaseActivation s = .next t ∧ t.pending = s.pending ∧ t.chip.bell = s.chip.bell ∧
            t.chip.gran = s.chip.gran ∧ t.chip.well = s.chip.well ∧ t.chip.fuses = s.chip.fuses ∧ t.chip.upd.rel = none ∧
            t.chip.upd.retryAt = r.t + 16 ∧ t.chip.upd.missed = (r.covered.filter fun x => !r.gone.contains x) ∧
            (r.fallback = false → t.chip.act = 6 ∧ t.chip.upd.trialAt = some s.chip.age) ∧
            (r.fallback = true → t.chip.act = 0 ∧ t.chip.upd.trialAt = none ∧
              t.chip.upd.runB = ((s.chip.img 0).state == 2 || s.chip.upd.runB)))) ∧
      (s.chip.upd.missed = [] ∨ s.chip.lastIndex < s.chip.upd.retryAt →
        exec .releaseRetry s = .next (s.effect fun c => c)) ∧
      (s.chip.upd.missed ≠ [] → s.chip.upd.retryAt ≤ s.chip.lastIndex → exec .releaseRetry s = .next (s.effect fun c =>
        ((c.armTiles c.upd.retryAt c.tileImage c.upd.missed).each c.upd.missed fun d x =>
          d.act_ x.1 x.2 2 0 []).onUpd fun u => { u with missed := [] }))) ∧
    (∀ ok : Bool,
      (s.chip.get .UPDATE_DL_STAT_STATE ≠ 2 → exec (.bundleVerifyDone ok) s = .next (s.effect fun c => c)) ∧
      (s.chip.get .UPDATE_DL_STAT_STATE = 2 → exec (.bundleVerifyDone ok) s = .next (s.effect fun c =>
        if ok then ((c.put .UPDATE_DL_STAT_STATE 3).put .UPDATE_DL_STAT_CAUSE 0).raise .UPDATE_BUNDLE_READY
        else ((c.put .UPDATE_DL_STAT_STATE 4).put .UPDATE_DL_STAT_CAUSE 4).raise .UPDATE_BUNDLE_BAD))) ∧
    (s.chip.act ≠ 1 → exec .stagingDone s = .next (s.effect fun c => c)) ∧
    (s.chip.act = 1 → s.chip.fab.commits = [] → s.chip.upd.slots.length = 4 →
      ∃ t, exec .stagingDone s = .next t ∧ t.pending = s.pending ∧ t.chip.gran = s.chip.gran ∧
        t.chip.ports = s.chip.ports ∧ t.chip.fuses = s.chip.fuses ∧ t.chip.upd.rel = s.chip.upd.rel ∧ t.chip.act = 2 ∧
        (∀ i, s.chip.senderItem = some i → t.chip.img 0 = ⟨1, 0, s.chip.bundle i.off i.len⟩) ∧
        ∀ i, s.chip.tileItem = some i → t.chip.img 2 = ⟨1, 0, s.chip.bundle i.off i.len⟩) ∧
    (∀ a, s.chip.upd.trialAt = some a → s.chip.get .UPDATE_CFG_TRIAL_MIN ≠ 0 → s.chip.act = 6 → s.chip.upd.rel = none →
      exec .trialExpiry s = .next (s.effect fun c =>
        let d := c.elapseAge (a + c.get .UPDATE_CFG_TRIAL_MIN * 3932160000000000)
        (d.relStart (d.lastIndex + 64) true).raise .UPDATE_TRIAL_EXPIRED)) ∧
    (s.chip.upd.trialAt = none → exec .trialExpiry s = .next (s.effect fun c => c)) ∧
    (s.chip.isSender = false → ∀ r, s.chip.tile.rel = some r →
      ((r.go && r.staged) = false ∨ s.chip.lastIndex < r.t → exec .releaseActivation s = .next (s.effect fun c => c)) ∧
      (r.go = true → r.staged = true → r.t ≤ s.chip.lastIndex → s.chip.fab.commits = [] →
        ∃ t, exec .releaseActivation s = .next t ∧ t.pending = s.pending ∧ t.chip.nim = s.chip.nim ∧
          t.chip.lamp = s.chip.lamp ∧ t.chip.tile.session = s.chip.tile.session ∧ t.chip.gate = s.chip.gate ∧ t.chip.tile.rel = none ∧
          t.chip.tile.image = none ∧ t.chip.get .UPDATE_T_STAT_STATE = 4 ∧
          t.chip.nat Reg.UPDATE_T_IMAGE = r.image % 2 ^ 32 ∧ t.chip.nat Reg.UPDATE_T_STAGE = 0) ∧
      (r.go = false → r.t + 16 ≤ s.chip.lastIndex → exec .releaseRetry s = .next (s.effect fun c =>
        ((c.onTile fun x => { x with rel := none }).put .UPDATE_T_STAT_STATE 0).raise .UPDATE_UPD_MISS)) ∧
      (r.go = true ∨ s.chip.lastIndex < r.t + 16 → exec .releaseRetry s = .next (s.effect fun c => c)))

/-- State requests, the sequencer’s steps, Deep and waking, readings, levels, the orderly stop and the trip. RUN, DIM and
DEEP take effect at once, or at a tick that is still to come; one that the state does not allow, or RUN at level
ORDERLY, is refused with its cause. The step in progress reaches its safe point and the next follows; a step without
power good is tried once more and then the domain has FAILED; a dwell holds a reversal back. A domain’s arrays read
initialised once. In Deep an enabled wake source, the timer among them, starts the part with cause DEEP_WAKE; a tile
enters Deep when its completion is acknowledged or two ticks have passed. A plausible reading is kept with the offset,
an implausible one counted and the sensor failed with ORDERLY; T_f is the mean of eight. The orderly stop ends in Dim,
and ends itself 10 s below WARN_C. The trip, at 130 °C for 10 µs, drops every switched domain and counts; 10 s later
the part starts with cause TRIP unless held. Reading the peak re-arms it. STATE_REQUEST_RUN, STATE_REQUEST_DIM,
STATE_REQUEST_DEEP, STATE_REQUEST_AT_TICK, DOMAIN_STEP_DONE, DOMAIN_RETRY, DWELL_ELAPSED, SRAM_INIT_DONE, DEEP_WAKE,
WAKE_TIMER, TILE_DEEP_ENTRY, TEMP_READING, TF_UPDATE, ORDERLY_DIM, ORDERLY_END, THERMAL_TRIP, TRIP_RESTART and
WEATHER_PEAK_READ complete so. -/
def Obligations.PowerStatesAndTemperature : Prop :=
  ∀ (s : State) (rq : Requester),
    (takes s.chip rq Reg.PWR_STATE_CTRL = true →
      let here := s.chip.pwr.state = .run ∨ s.chip.pwr.state = .dim
      (s.chip.pwr.state ≠ .run → s.chip.pwr.state ≠ .dim →
        exec (.stateRequestRun rq false) s =
            .next (s.effect fun c => (c.onPwr fun p => { p with atTick := none }).pwrRefuse 1) ∧
          exec (.stateRequestDim rq false) s =
            .next (s.effect fun c => (c.onPwr fun p => { p with atTick := none }).pwrRefuse 1)) ∧
      (here →
        (s.chip.level = 2 → exec (.stateRequestRun rq false) s =
          .next (s.effect fun c => (c.onPwr fun p => { p with atTick := none }).pwrRefuse 4)) ∧
        (s.chip.level ≠ 2 → exec (.stateRequestRun rq false) s = .next (s.effect fun c =>
          let d := c.onPwr fun p => { p with atTick := none }
          if c.pwr.target = .run then d else d.runEnter)) ∧
        exec (.stateRequestDim rq false) s = .next (s.effect fun c =>
          let d := c.onPwr fun p => { p with atTick := none }
          if c.pwr.target = .dim then d else d.dimEnter)) ∧
      (s.chip.pwr.state ≠ .dim ∨ s.chip.pwr.target ≠ .dim → exec (.stateRequestDeep rq false) s =
        .next (s.effect fun c => (c.onPwr fun p => { p with atTick := none }).pwrRefuse 1)) ∧
      (s.chip.pwr.state = .dim → s.chip.pwr.target = .dim →
        (s.chip.isTile = true → s.chip.isSender = false → exec (.stateRequestDeep rq false) s =
          .next (s.effect fun c => c.onPwr fun p =>
            { p with deepAck := some c.age, deepTick := c.lastIndex, atTick := none })) ∧
        (s.chip.isSender = true →
          (s.chip.mode = 4 → s.chip.twinRole = 3 → exec (.stateRequestDeep rq false) s =
            .next (s.effect fun c => (c.onPwr fun p => { p with atTick := none }).pwrRefuse 2)) ∧
          (s.chip.mode ≠ 4 ∨ s.chip.twinRole ≠ 3 →
            (s.chip.switchPending = true ∨ s.chip.upd.rel.isSome = true → exec (.stateRequestDeep rq false) s =
              .next (s.effect fun c => (c.onPwr fun p => { p with atTick := none }).pwrRefuse 3)) ∧
            (s.chip.switchPending = false → s.chip.upd.rel = none →
              exec (.stateRequestDeep rq false) s = .next (s.effect fun c =>
                let d := c.onPwr fun p => { p with atTick := none }
                if c.gran.migr.isSome then d.onPwr fun p => { p with deepAck := some c.age, deepTick := c.lastIndex }
                else d.deepEnter))))) ∧
      (let n := s.chip.pair Reg.PWR_STATE_TICK_LO Reg.PWR_STATE_TICK_HI;
        s.chip.ticking = true → (∀ m, s.chip.bell.tick = some m → m < n) →
        (s.chip.tickSource = true → s.chip.bell.time ≤ s.chip.tickTime n) →
        (s.chip.isTile = false ∨ s.chip.pwr.target ≠ .dim → exec (.stateRequestRun rq true) s =
            .next (s.effect fun c => c.onPwr fun p => { p with atTick := some (.run, n) })) ∧
          exec (.stateRequestDim rq true) s = .next (s.effect fun c => c.onPwr fun p => { p with atTick := some (.dim, n) }) ∧
          exec (.stateRequestDeep rq true) s =
            .next (s.effect fun c => c.onPwr fun p => { p with atTick := some (.deep, n) }))) ∧
    (s.chip.pwr.atTick = none → exec .stateRequestAtTick s = .next (s.effect fun c => c)) ∧
    (∀ st n, s.chip.pwr.atTick = some (st, n) →
      (s.chip.bell.tick = none ∨ s.chip.lastIndex < n → exec .stateRequestAtTick s = .next (s.effect fun c => c)) ∧
      (s.chip.bell.tick.isSome = true → n ≤ s.chip.lastIndex → exec .stateRequestAtTick s = .next (s.effect fun c =>
        let d := (c.onPwr fun p => { p with atTick := none }).stateAsk (targetCode st)
        if d.isTile = true ∧ d.bell.time = d.bell.tickTime then d.lampResume else d))) ∧
    (s.chip.pwr.step = none → exec .domainStepDone s = .next (s.effect fun c => c) ∧
      exec .domainRetry s = .next (s.effect fun c => c)) ∧
    (∀ x, s.chip.pwr.step = some x →
      exec .domainStepDone s = .next (s.effect fun c =>
          let e := c.elapseAge (x.since + us (if x.on then 10 else 5))
          let d := e.onPwr fun p =>
            { p with step := none, safe := (x.dom, e.age, x.on) :: p.safe.filter fun y => y.1 != x.dom }
          (if x.on then d.domUp x.dom else d.domDown x.dom).domSync) ∧
        (x.on = false → exec .domainRetry s = .next (s.effect fun c => c)) ∧
        (x.on = true →
          (x.retry = false → exec .domainRetry s =
            .next (s.effect fun c => (c.elapseAge (x.since + us 8)).onPwr fun p =>
              { p with step := some { x with retry := true, since := x.since + us 28 } })) ∧
          (x.retry = true → exec .domainRetry s = .next (s.effect fun c =>
            let d := (c.elapseAge (x.since + us 8)).onPwr fun p =>
              { p with step := none, failed := setBitAt p.failed x.dom true }
            let low := ((List.range 80).find? fun k => bitAt d.pwr.failed k).getD 0
            (((d.put .PWR_SEQ_STAT_FAIL 1).put .PWR_SEQ_STAT_DOMAIN low).raise .PWR_DOM_FAIL).seqNext)))) ∧
    (s.chip.pwr.held = false → exec .dwellElapsed s = .next (s.effect fun c => c)) ∧
    (s.chip.pwr.held = true → exec .dwellElapsed s = .next (s.effect fun c =>
      (c.elapseAge (c.lastSafe + us (max 20 (c.get .PWR_DWELL_US)))).seqNext)) ∧
    (∀ d, d < 80 →
      (s.chip.domOn d = false ∨ bitAt s.chip.pwr.sram d = true →
        exec (.sramInitDone d) s = .next (s.effect fun c => c)) ∧
      (s.chip.domOn d = true → bitAt s.chip.pwr.sram d = false → s.chip.fab.commits = [] →
        ∃ t, exec (.sramInitDone d) s = .next t ∧ t.pending = s.pending ∧
          onlyRegs { s.chip with pwr := t.chip.pwr, ing := t.chip.ing, loom := t.chip.loom, gate := t.chip.gate } t.chip [] ∧
          t.chip.pwr.sram = setBitAt s.chip.pwr.sram d true ∧
          (d = 45 → t.chip.ing.cram = cramInit) ∧ (d = 55 → t.chip.loom.lut = loomLutInit) ∧
          (d = 1 → s.chip.pwr.deepWake = true → s.chip.gate.retained ≠ [] → s.chip.flag .GATE_QUAR_ACTIVE = false →
            t.chip.gate.slots = s.chip.gate.slots.take 3 ++ (s.chip.gate.retained.drop 3).take 29 ∧
              t.chip.gate.retained = []))) ∧
    (let woken := fun (c : Chip) (src : Nat) => ((c.setNat Reg.PWR_WAKE_CAUSE (2 ^ src)).startCause 5).onPwr fun p =>
        { p with state := .waking, target := .dim, deepWake := true, dom := 1, step := none };
      (∀ src low, src < 5 → src ≠ 0 →
        let seen := (src = 1 ∨ src = 4 → 4 ≤ low) ∧ (src = 2 → s.chip.isSender = true) ∧ (src = 3 → s.chip.isTile = true)
        (s.chip.pwr.state = .deep → bitAt (s.chip.nat Reg.PWR_WAKE_EN) src = true → seen →
          exec (.deepWake src low) s = .next (s.effect fun c => woken c src)) ∧
        (s.chip.pwr.state ≠ .deep ∨ bitAt (s.chip.nat Reg.PWR_WAKE_EN) src = false ∨ ¬ seen →
          exec (.deepWake src low) s = .next (s.effect fun c => c))) ∧
      (∀ i ∈ [Instr.wakeTimer, .deepWake 0 0], s.chip.pwr.state = .deep → s.chip.nat Reg.PWR_WAKE_TIMER ≠ 0 →
        let expired := fun (c : Chip) => c.elapseAge (c.pwr.deepAt + ms (1000 * c.nat Reg.PWR_WAKE_TIMER))
        (bitAt (s.chip.nat Reg.PWR_WAKE_EN) 0 = true → exec i s = .next (s.effect fun c => woken (expired c) 0)) ∧
        (bitAt (s.chip.nat Reg.PWR_WAKE_EN) 0 = false → exec i s = .next (s.effect expired))) ∧
      (s.chip.nat Reg.PWR_WAKE_TIMER = 0 → exec .wakeTimer s = .next (s.effect fun c => c))) ∧
    (s.chip.isTile = true → s.chip.pwr.deepAck.isSome = true →
      (s.chip.deepFree = true → exec .tileDeepEntry s = .next (s.effect fun c => c.deepEnter)) ∧
      (s.chip.deepFree = false → exec .tileDeepEntry s = .next (s.effect fun c => c)) ∧
      (s.chip.pwr.deepTick + 2 ≤ s.chip.lastIndex → s.chip.deepFree = true)) ∧
    (s.chip.isTile = false ∨ s.chip.pwr.deepAck = none → exec .tileDeepEntry s = .next (s.effect fun c => c)) ∧
    (∀ (raw : Int) (fault : Bool), -32768 ≤ raw → raw ≤ 32767 →
      (s.chip.domOn 9 = false → exec (.tempReading raw fault) s = .next (s.effect fun c => c)) ∧
      (s.chip.domOn 9 = true →
        let due := fun (c : Chip) =>
          let d := c.elapseAge (c.wx.readAt + us 125)
          d.onWx fun w => { w with readAt := d.age }
        let jump := ∃ p, s.chip.wx.prev = some p ∧ 128 < (raw - p).natAbs
        let bad := fault = true ∨ raw < -880 ∨ 2560 < raw ∨ jump
        (bad → exec (.tempReading raw fault) s = .next (s.effect fun c =>
          let d := (((due c).count Reg.WEATHER_FAULT_CNT).put .WEATHER_STAT_RAW
            (if fault then 0x8000 else wrapTo 16 raw)).onWx fun w =>
              { w with okRun := 0, prev := if fault then w.prev else some raw, coolAt := none }
          if c.flag .WEATHER_STAT_SENSOR then d
          else
            let e := (d.put .WEATHER_STAT_SENSOR 1).raise .WEATHER_SENSOR_FAIL
            (if c.level = 2 then e else e.orderlyStart).derateShow)) ∧
        (¬ bad → exec (.tempReading raw fault) s = .next (s.effect fun c =>
          let v := raw + signOf 16 (c.get .WEATHER_OFFSET_OFFSET)
          let d := ((due c).put .WEATHER_STAT_RAW (wrapTo 16 raw)).onWx fun w =>
            { w with prev := some raw, readings := (v :: w.readings).take 8, okRun := w.okRun + 1 }
          if c.flag .WEATHER_STAT_SENSOR = true ∧ 1000 ≤ d.wx.okRun then
            (d.put .WEATHER_STAT_SENSOR 0).raise .WEATHER_SENSOR_OK
          else d)))) ∧
    (s.chip.domOn 9 = false → exec .tfUpdate s = .next (s.effect fun c => c)) ∧
    (s.chip.domOn 9 = true →
      let due := fun (c : Chip) =>
        let d := c.elapseAge (c.wx.tfAt + ms 1)
        d.onWx fun w => { w with tfAt := d.age }
      (s.chip.wx.readings.length < 8 → exec .tfUpdate s = .next (s.effect due)) ∧
      (8 ≤ s.chip.wx.readings.length → exec .tfUpdate s = .next (s.effect fun c =>
        let t := (c.wx.readings.foldl (· + ·) 0 + 4) / 8
        (((((due c).put .WEATHER_TEMP_TF (wrapTo 16 t)).put .WEATHER_TEMP_VALID 1).peakNote t).levelStep t).derateShow))) ∧
    (∀ (c : Chip) (t : Int), c.level ≠ 2 → c.orderlyC ≤ t → (c.levelStep t).level = 2) ∧
    (∀ a, s.chip.wx.orderlyAt = some a → s.chip.level = 2 → s.chip.get .WEATHER_STAT_PHASE = 1 →
      exec .orderlyDim s = .next (s.effect fun c =>
        let d := c.elapseAge (a + ms 500)
        let e := if c.pwr.state = .run ∧ c.pwr.target = .run then d.dimEnter else d
        (e.put .WEATHER_STAT_PHASE 2).raise .WEATHER_ORDERLY_DONE)) ∧
    (∀ a, s.chip.wx.coolAt = some a → s.chip.level = 2 → s.chip.flag .WEATHER_STAT_SENSOR = false →
      exec .orderlyEnd s = .next (s.effect fun c =>
        let d := c.elapseAge (a + ms 10000)
        let e := if c.warnC - 80 ≤ c.tf then d.put .WEATHER_TEMP_LEVEL 1
          else (d.put .WEATHER_TEMP_LEVEL 0).raise .WEATHER_WARN_CLEAR
        let g := ((e.put .WEATHER_STAT_PHASE 0).onWx fun w => { w with orderlyAt := none, coolAt := none }).derateShow
        if c.flag .WEATHER_CFG_AUTO_RESUME then (g.stateAsk 2).raise .WEATHER_RESUMED else g)) ∧
    (s.chip.level ≠ 2 → exec .orderlyDim s = .next (s.effect fun c => c) ∧
      exec .orderlyEnd s = .next (s.effect fun c => c)) ∧
    (∀ (temp : Int) (held : Nat),
      (temp < 2080 ∨ held < 10 ∨ s.chip.pwr.state = .off ∨ s.chip.pwr.state = .offTrip ∨ s.chip.pwr.state = .deep →
        exec (.thermalTrip temp held) s = .next (s.effect fun c => c)) ∧
      (2080 ≤ temp → 10 ≤ held → s.chip.pwr.state ≠ .off → s.chip.pwr.state ≠ .offTrip → s.chip.pwr.state ≠ .deep →
        exec (.thermalTrip temp held) s = .next (s.effect fun c =>
          ((c.dropSwitched.count Reg.WEATHER_TRIP_CNT).onWx fun w =>
            { w with trips := c.age :: (w.trips.filter fun a => decide (c.age < a + ms 3600000)) }).onPwr fun p =>
              { p with state := .offTrip }))) ∧
    (s.chip.pwr.state ≠ .offTrip → exec .tripRestart s = .next (s.effect fun c => c)) ∧
    (s.chip.pwr.state = .offTrip →
      (s.chip.flag .WEATHER_CFG_TRIP_HOLD = true ∨ 3 ≤ s.chip.wx.trips.length →
        exec .tripRestart s = .next (s.effect fun c => c.elapse (ms 10000))) ∧
      (s.chip.flag .WEATHER_CFG_TRIP_HOLD = false → s.chip.wx.trips.length < 3 →
        exec .tripRestart s = .next (s.effect fun c =>
          ((c.elapse (ms 10000)).startCause 4).onPwr fun p => { p with state := .waking, tripStart := true }))) ∧
    (reads s.chip rq Reg.WEATHER_PEAK = true →
      exec (.weatherPeakRead rq) s = .next (s.effect fun c =>
        (c.onWx fun w => { w with peakNew := true }).emit (.read Reg.WEATHER_PEAK (c.regWord Reg.WEATHER_PEAK))))
end

