-- ==== Sys2Proof/Laws/Bits.lean ====
section
/-!
SUPPORT. Bit fields of words: reading a field back, and that storing one leaves the others alone.
-/

namespace Sys2Proof.Machine

theorem testBit_bitsOf (v : Word) (hi lo i : Nat) :
    (bitsOf v hi lo).testBit i = (decide (i < hi + 1 - lo) && v.getLsbD (lo + i)) := by
  simp only [bitsOf, Nat.testBit_mod_two_pow, Nat.testBit_div_two_pow, BitVec.getLsbD]
  rw [Nat.add_comm lo i]

theorem bitsOf_lt (v : Word) (hi lo : Nat) : bitsOf v hi lo < 2 ^ (hi + 1 - lo) :=
  Nat.mod_lt _ (Nat.two_pow_pos _)

theorem getLsbD_withBits (v : Word) (hi lo n j : Nat) :
    (withBits v hi lo n).getLsbD j =
      (decide (j < 32) &&
        if lo ≤ j ∧ j < hi + 1 then n.testBit (j - lo) else v.getLsbD j) := by
  simp only [withBits, BitVec.getLsbD_or, BitVec.getLsbD_and, BitVec.getLsbD_not, BitVec.getLsbD_ofNat,
    Nat.testBit_mul_two_pow, Nat.testBit_two_pow_sub_one, Nat.testBit_mod_two_pow]
  by_cases hj : j < 32
  · by_cases h1 : lo ≤ j
    · by_cases h2 : j < hi + 1
      · have h3 : j - lo < hi + 1 - lo := by omega
        simp [hj, h1, h2, h3]
      · have h3 : ¬ (j - lo < hi + 1 - lo) := by omega
        simp [hj, h1, h2, h3]
    · simp [hj, h1]
  · have : v.getLsbD j = false := BitVec.getLsbD_of_ge v j (by omega)
    simp [hj, this]

/-- A field reads back what was stored in it. -/
theorem bitsOf_withBits_same (v : Word) (hi lo n : Nat) (h : hi < 32) :
    bitsOf (withBits v hi lo n) hi lo = n % 2 ^ (hi + 1 - lo) := by
  apply Nat.eq_of_testBit_eq
  intro i
  simp only [testBit_bitsOf, getLsbD_withBits, Nat.testBit_mod_two_pow]
  by_cases hi' : i < hi + 1 - lo
  · have h1 : lo + i < 32 := by omega
    have h2 : lo + i < hi + 1 := by omega
    simp [hi', h1, h2]
  · simp [hi']

/-- Storing a field leaves a field that shares no bit with it. -/
theorem bitsOf_withBits_other (v : Word) (hi lo n hi' lo' : Nat) (h : hi' < lo ∨ hi < lo') :
    bitsOf (withBits v hi lo n) hi' lo' = bitsOf v hi' lo' := by
  apply Nat.eq_of_testBit_eq
  intro i
  simp only [testBit_bitsOf, getLsbD_withBits]
  by_cases h1 : i < hi' + 1 - lo'
  · have h2 : ¬ (lo ≤ lo' + i ∧ lo' + i < hi + 1) := by omega
    simp only [h1, decide_true, Bool.true_and, if_neg h2]
    by_cases h3 : lo' + i < 32
    · simp [h3]
    · have : v.getLsbD (lo' + i) = false := BitVec.getLsbD_of_ge v _ (by omega)
      simp [this]
  · simp [h1]

end Sys2Proof.Machine
end

