-- ==== Sys2Proof/Laws/State.lean ====
section
/-!
SUPPORT. One lemma per field and update of the part: an update changes its own field and leaves every other as it was.
-/

namespace Sys2Proof.Machine

section

variable (c : Chip) (a n : Nat) (v : Word) (o : Out) (g : Fld)

@[simp] theorem Chip.onFab_regs (f : Fabric → Fabric) : (c.onFab f).regs = c.regs := rfl
@[simp] theorem Chip.onFab_shadow (f : Fabric → Fabric) : (c.onFab f).shadow = c.shadow := rfl
@[simp] theorem Chip.onFab_age (f : Fabric → Fabric) : (c.onFab f).age = c.age := rfl
@[simp] theorem Chip.onFab_fuses (f : Fabric → Fabric) : (c.onFab f).fuses = c.fuses := rfl
@[simp] theorem Chip.onFab_fab (f : Fabric → Fabric) : (c.onFab f).fab = f c.fab := rfl
@[simp] theorem Chip.onFab_bell (f : Fabric → Fabric) : (c.onFab f).bell = c.bell := rfl
@[simp] theorem Chip.onFab_pwr (f : Fabric → Fabric) : (c.onFab f).pwr = c.pwr := rfl
@[simp] theorem Chip.onFab_wx (f : Fabric → Fabric) : (c.onFab f).wx = c.wx := rfl
@[simp] theorem Chip.onFab_quads (f : Fabric → Fabric) : (c.onFab f).quads = c.quads := rfl
@[simp] theorem Chip.onFab_ports (f : Fabric → Fabric) : (c.onFab f).ports = c.ports := rfl
@[simp] theorem Chip.onFab_tile (f : Fabric → Fabric) : (c.onFab f).tile = c.tile := rfl
@[simp] theorem Chip.onFab_pcie (f : Fabric → Fabric) : (c.onFab f).pcie = c.pcie := rfl
@[simp] theorem Chip.onFab_gran (f : Fabric → Fabric) : (c.onFab f).gran = c.gran := rfl
@[simp] theorem Chip.onFab_well (f : Fabric → Fabric) : (c.onFab f).well = c.well := rfl
@[simp] theorem Chip.onFab_mgmt (f : Fabric → Fabric) : (c.onFab f).mgmt = c.mgmt := rfl
@[simp] theorem Chip.onFab_switch (f : Fabric → Fabric) : (c.onFab f).switch = c.switch := rfl
@[simp] theorem Chip.onFab_store (f : Fabric → Fabric) : (c.onFab f).store = c.store := rfl
@[simp] theorem Chip.onFab_gate (f : Fabric → Fabric) : (c.onFab f).gate = c.gate := rfl
@[simp] theorem Chip.onFab_twin (f : Fabric → Fabric) : (c.onFab f).twin = c.twin := rfl
@[simp] theorem Chip.onFab_upd (f : Fabric → Fabric) : (c.onFab f).upd = c.upd := rfl
@[simp] theorem Chip.onFab_scan (f : Fabric → Fabric) : (c.onFab f).scan = c.scan := rfl
@[simp] theorem Chip.onFab_ing (f : Fabric → Fabric) : (c.onFab f).ing = c.ing := rfl
@[simp] theorem Chip.onFab_loom (f : Fabric → Fabric) : (c.onFab f).loom = c.loom := rfl
@[simp] theorem Chip.onFab_nim (f : Fabric → Fabric) : (c.onFab f).nim = c.nim := rfl
@[simp] theorem Chip.onFab_lamp (f : Fabric → Fabric) : (c.onFab f).lamp = c.lamp := rfl
@[simp] theorem Chip.onFab_halo (f : Fabric → Fabric) : (c.onFab f).halo = c.halo := rfl
@[simp] theorem Chip.onFab_scanHold (f : Fabric → Fabric) : (c.onFab f).scanHold = c.scanHold := rfl
@[simp] theorem Chip.onFab_out (f : Fabric → Fabric) : (c.onFab f).out = c.out := rfl
@[simp] theorem Chip.onFab_draws (f : Fabric → Fabric) : (c.onFab f).draws = c.draws := rfl

@[simp] theorem Chip.onBell_regs (f : Bell → Bell) : (c.onBell f).regs = c.regs := rfl
@[simp] theorem Chip.onBell_shadow (f : Bell → Bell) : (c.onBell f).shadow = c.shadow := rfl
@[simp] theorem Chip.onBell_age (f : Bell → Bell) : (c.onBell f).age = c.age := rfl
@[simp] theorem Chip.onBell_fuses (f : Bell → Bell) : (c.onBell f).fuses = c.fuses := rfl
@[simp] theorem Chip.onBell_fab (f : Bell → Bell) : (c.onBell f).fab = c.fab := rfl
@[simp] theorem Chip.onBell_bell (f : Bell → Bell) : (c.onBell f).bell = f c.bell := rfl
@[simp] theorem Chip.onBell_pwr (f : Bell → Bell) : (c.onBell f).pwr = c.pwr := rfl
@[simp] theorem Chip.onBell_wx (f : Bell → Bell) : (c.onBell f).wx = c.wx := rfl
@[simp] theorem Chip.onBell_quads (f : Bell → Bell) : (c.onBell f).quads = c.quads := rfl
@[simp] theorem Chip.onBell_ports (f : Bell → Bell) : (c.onBell f).ports = c.ports := rfl
@[simp] theorem Chip.onBell_tile (f : Bell → Bell) : (c.onBell f).tile = c.tile := rfl
@[simp] theorem Chip.onBell_pcie (f : Bell → Bell) : (c.onBell f).pcie = c.pcie := rfl
@[simp] theorem Chip.onBell_gran (f : Bell → Bell) : (c.onBell f).gran = c.gran := rfl
@[simp] theorem Chip.onBell_well (f : Bell → Bell) : (c.onBell f).well = c.well := rfl
@[simp] theorem Chip.onBell_mgmt (f : Bell → Bell) : (c.onBell f).mgmt = c.mgmt := rfl
@[simp] theorem Chip.onBell_switch (f : Bell → Bell) : (c.onBell f).switch = c.switch := rfl
@[simp] theorem Chip.onBell_store (f : Bell → Bell) : (c.onBell f).store = c.store := rfl
@[simp] theorem Chip.onBell_gate (f : Bell → Bell) : (c.onBell f).gate = c.gate := rfl
@[simp] theorem Chip.onBell_twin (f : Bell → Bell) : (c.onBell f).twin = c.twin := rfl
@[simp] theorem Chip.onBell_upd (f : Bell → Bell) : (c.onBell f).upd = c.upd := rfl
@[simp] theorem Chip.onBell_scan (f : Bell → Bell) : (c.onBell f).scan = c.scan := rfl
@[simp] theorem Chip.onBell_ing (f : Bell → Bell) : (c.onBell f).ing = c.ing := rfl
@[simp] theorem Chip.onBell_loom (f : Bell → Bell) : (c.onBell f).loom = c.loom := rfl
@[simp] theorem Chip.onBell_nim (f : Bell → Bell) : (c.onBell f).nim = c.nim := rfl
@[simp] theorem Chip.onBell_lamp (f : Bell → Bell) : (c.onBell f).lamp = c.lamp := rfl
@[simp] theorem Chip.onBell_halo (f : Bell → Bell) : (c.onBell f).halo = c.halo := rfl
@[simp] theorem Chip.onBell_scanHold (f : Bell → Bell) : (c.onBell f).scanHold = c.scanHold := rfl
@[simp] theorem Chip.onBell_out (f : Bell → Bell) : (c.onBell f).out = c.out := rfl
@[simp] theorem Chip.onBell_draws (f : Bell → Bell) : (c.onBell f).draws = c.draws := rfl

@[simp] theorem Chip.onPwr_regs (f : Power → Power) : (c.onPwr f).regs = c.regs := rfl
@[simp] theorem Chip.onPwr_shadow (f : Power → Power) : (c.onPwr f).shadow = c.shadow := rfl
@[simp] theorem Chip.onPwr_age (f : Power → Power) : (c.onPwr f).age = c.age := rfl
@[simp] theorem Chip.onPwr_fuses (f : Power → Power) : (c.onPwr f).fuses = c.fuses := rfl
@[simp] theorem Chip.onPwr_fab (f : Power → Power) : (c.onPwr f).fab = c.fab := rfl
@[simp] theorem Chip.onPwr_bell (f : Power → Power) : (c.onPwr f).bell = c.bell := rfl
@[simp] theorem Chip.onPwr_pwr (f : Power → Power) : (c.onPwr f).pwr = f c.pwr := rfl
@[simp] theorem Chip.onPwr_wx (f : Power → Power) : (c.onPwr f).wx = c.wx := rfl
@[simp] theorem Chip.onPwr_quads (f : Power → Power) : (c.onPwr f).quads = c.quads := rfl
@[simp] theorem Chip.onPwr_ports (f : Power → Power) : (c.onPwr f).ports = c.ports := rfl
@[simp] theorem Chip.onPwr_tile (f : Power → Power) : (c.onPwr f).tile = c.tile := rfl
@[simp] theorem Chip.onPwr_pcie (f : Power → Power) : (c.onPwr f).pcie = c.pcie := rfl
@[simp] theorem Chip.onPwr_gran (f : Power → Power) : (c.onPwr f).gran = c.gran := rfl
@[simp] theorem Chip.onPwr_well (f : Power → Power) : (c.onPwr f).well = c.well := rfl
@[simp] theorem Chip.onPwr_mgmt (f : Power → Power) : (c.onPwr f).mgmt = c.mgmt := rfl
@[simp] theorem Chip.onPwr_switch (f : Power → Power) : (c.onPwr f).switch = c.switch := rfl
@[simp] theorem Chip.onPwr_store (f : Power → Power) : (c.onPwr f).store = c.store := rfl
@[simp] theorem Chip.onPwr_gate (f : Power → Power) : (c.onPwr f).gate = c.gate := rfl
@[simp] theorem Chip.onPwr_twin (f : Power → Power) : (c.onPwr f).twin = c.twin := rfl
@[simp] theorem Chip.onPwr_upd (f : Power → Power) : (c.onPwr f).upd = c.upd := rfl
@[simp] theorem Chip.onPwr_scan (f : Power → Power) : (c.onPwr f).scan = c.scan := rfl
@[simp] theorem Chip.onPwr_ing (f : Power → Power) : (c.onPwr f).ing = c.ing := rfl
@[simp] theorem Chip.onPwr_loom (f : Power → Power) : (c.onPwr f).loom = c.loom := rfl
@[simp] theorem Chip.onPwr_nim (f : Power → Power) : (c.onPwr f).nim = c.nim := rfl
@[simp] theorem Chip.onPwr_lamp (f : Power → Power) : (c.onPwr f).lamp = c.lamp := rfl
@[simp] theorem Chip.onPwr_halo (f : Power → Power) : (c.onPwr f).halo = c.halo := rfl
@[simp] theorem Chip.onPwr_scanHold (f : Power → Power) : (c.onPwr f).scanHold = c.scanHold := rfl
@[simp] theorem Chip.onPwr_out (f : Power → Power) : (c.onPwr f).out = c.out := rfl
@[simp] theorem Chip.onPwr_draws (f : Power → Power) : (c.onPwr f).draws = c.draws := rfl

@[simp] theorem Chip.onWx_regs (f : Weather → Weather) : (c.onWx f).regs = c.regs := rfl
@[simp] theorem Chip.onWx_shadow (f : Weather → Weather) : (c.onWx f).shadow = c.shadow := rfl
@[simp] theorem Chip.onWx_age (f : Weather → Weather) : (c.onWx f).age = c.age := rfl
@[simp] theorem Chip.onWx_fuses (f : Weather → Weather) : (c.onWx f).fuses = c.fuses := rfl
@[simp] theorem Chip.onWx_fab (f : Weather → Weather) : (c.onWx f).fab = c.fab := rfl
@[simp] theorem Chip.onWx_bell (f : Weather → Weather) : (c.onWx f).bell = c.bell := rfl
@[simp] theorem Chip.onWx_pwr (f : Weather → Weather) : (c.onWx f).pwr = c.pwr := rfl
@[simp] theorem Chip.onWx_wx (f : Weather → Weather) : (c.onWx f).wx = f c.wx := rfl
@[simp] theorem Chip.onWx_quads (f : Weather → Weather) : (c.onWx f).quads = c.quads := rfl
@[simp] theorem Chip.onWx_ports (f : Weather → Weather) : (c.onWx f).ports = c.ports := rfl
@[simp] theorem Chip.onWx_tile (f : Weather → Weather) : (c.onWx f).tile = c.tile := rfl
@[simp] theorem Chip.onWx_pcie (f : Weather → Weather) : (c.onWx f).pcie = c.pcie := rfl
@[simp] theorem Chip.onWx_gran (f : Weather → Weather) : (c.onWx f).gran = c.gran := rfl
@[simp] theorem Chip.onWx_well (f : Weather → Weather) : (c.onWx f).well = c.well := rfl
@[simp] theorem Chip.onWx_mgmt (f : Weather → Weather) : (c.onWx f).mgmt = c.mgmt := rfl
@[simp] theorem Chip.onWx_switch (f : Weather → Weather) : (c.onWx f).switch = c.switch := rfl
@[simp] theorem Chip.onWx_store (f : Weather → Weather) : (c.onWx f).store = c.store := rfl
@[simp] theorem Chip.onWx_gate (f : Weather → Weather) : (c.onWx f).gate = c.gate := rfl
@[simp] theorem Chip.onWx_twin (f : Weather → Weather) : (c.onWx f).twin = c.twin := rfl
@[simp] theorem Chip.onWx_upd (f : Weather → Weather) : (c.onWx f).upd = c.upd := rfl
@[simp] theorem Chip.onWx_scan (f : Weather → Weather) : (c.onWx f).scan = c.scan := rfl
@[simp] theorem Chip.onWx_ing (f : Weather → Weather) : (c.onWx f).ing = c.ing := rfl
@[simp] theorem Chip.onWx_loom (f : Weather → Weather) : (c.onWx f).loom = c.loom := rfl
@[simp] theorem Chip.onWx_nim (f : Weather → Weather) : (c.onWx f).nim = c.nim := rfl
@[simp] theorem Chip.onWx_lamp (f : Weather → Weather) : (c.onWx f).lamp = c.lamp := rfl
@[simp] theorem Chip.onWx_halo (f : Weather → Weather) : (c.onWx f).halo = c.halo := rfl
@[simp] theorem Chip.onWx_scanHold (f : Weather → Weather) : (c.onWx f).scanHold = c.scanHold := rfl
@[simp] theorem Chip.onWx_out (f : Weather → Weather) : (c.onWx f).out = c.out := rfl
@[simp] theorem Chip.onWx_draws (f : Weather → Weather) : (c.onWx f).draws = c.draws := rfl

@[simp] theorem Chip.onTile_regs (f : Tile → Tile) : (c.onTile f).regs = c.regs := rfl
@[simp] theorem Chip.onTile_shadow (f : Tile → Tile) : (c.onTile f).shadow = c.shadow := rfl
@[simp] theorem Chip.onTile_age (f : Tile → Tile) : (c.onTile f).age = c.age := rfl
@[simp] theorem Chip.onTile_fuses (f : Tile → Tile) : (c.onTile f).fuses = c.fuses := rfl
@[simp] theorem Chip.onTile_fab (f : Tile → Tile) : (c.onTile f).fab = c.fab := rfl
@[simp] theorem Chip.onTile_bell (f : Tile → Tile) : (c.onTile f).bell = c.bell := rfl
@[simp] theorem Chip.onTile_pwr (f : Tile → Tile) : (c.onTile f).pwr = c.pwr := rfl
@[simp] theorem Chip.onTile_wx (f : Tile → Tile) : (c.onTile f).wx = c.wx := rfl
@[simp] theorem Chip.onTile_quads (f : Tile → Tile) : (c.onTile f).quads = c.quads := rfl
@[simp] theorem Chip.onTile_ports (f : Tile → Tile) : (c.onTile f).ports = c.ports := rfl
@[simp] theorem Chip.onTile_tile (f : Tile → Tile) : (c.onTile f).tile = f c.tile := rfl
@[simp] theorem Chip.onTile_pcie (f : Tile → Tile) : (c.onTile f).pcie = c.pcie := rfl
@[simp] theorem Chip.onTile_gran (f : Tile → Tile) : (c.onTile f).gran = c.gran := rfl
@[simp] theorem Chip.onTile_well (f : Tile → Tile) : (c.onTile f).well = c.well := rfl
@[simp] theorem Chip.onTile_mgmt (f : Tile → Tile) : (c.onTile f).mgmt = c.mgmt := rfl
@[simp] theorem Chip.onTile_switch (f : Tile → Tile) : (c.onTile f).switch = c.switch := rfl
@[simp] theorem Chip.onTile_store (f : Tile → Tile) : (c.onTile f).store = c.store := rfl
@[simp] theorem Chip.onTile_gate (f : Tile → Tile) : (c.onTile f).gate = c.gate := rfl
@[simp] theorem Chip.onTile_twin (f : Tile → Tile) : (c.onTile f).twin = c.twin := rfl
@[simp] theorem Chip.onTile_upd (f : Tile → Tile) : (c.onTile f).upd = c.upd := rfl
@[simp] theorem Chip.onTile_scan (f : Tile → Tile) : (c.onTile f).scan = c.scan := rfl
@[simp] theorem Chip.onTile_ing (f : Tile → Tile) : (c.onTile f).ing = c.ing := rfl
@[simp] theorem Chip.onTile_loom (f : Tile → Tile) : (c.onTile f).loom = c.loom := rfl
@[simp] theorem Chip.onTile_nim (f : Tile → Tile) : (c.onTile f).nim = c.nim := rfl
@[simp] theorem Chip.onTile_lamp (f : Tile → Tile) : (c.onTile f).lamp = c.lamp := rfl
@[simp] theorem Chip.onTile_halo (f : Tile → Tile) : (c.onTile f).halo = c.halo := rfl
@[simp] theorem Chip.onTile_scanHold (f : Tile → Tile) : (c.onTile f).scanHold = c.scanHold := rfl
@[simp] theorem Chip.onTile_out (f : Tile → Tile) : (c.onTile f).out = c.out := rfl
@[simp] theorem Chip.onTile_draws (f : Tile → Tile) : (c.onTile f).draws = c.draws := rfl

@[simp] theorem Chip.onPcie_regs (f : Pcie → Pcie) : (c.onPcie f).regs = c.regs := rfl
@[simp] theorem Chip.onPcie_shadow (f : Pcie → Pcie) : (c.onPcie f).shadow = c.shadow := rfl
@[simp] theorem Chip.onPcie_age (f : Pcie → Pcie) : (c.onPcie f).age = c.age := rfl
@[simp] theorem Chip.onPcie_fuses (f : Pcie → Pcie) : (c.onPcie f).fuses = c.fuses := rfl
@[simp] theorem Chip.onPcie_fab (f : Pcie → Pcie) : (c.onPcie f).fab = c.fab := rfl
@[simp] theorem Chip.onPcie_bell (f : Pcie → Pcie) : (c.onPcie f).bell = c.bell := rfl
@[simp] theorem Chip.onPcie_pwr (f : Pcie → Pcie) : (c.onPcie f).pwr = c.pwr := rfl
@[simp] theorem Chip.onPcie_wx (f : Pcie → Pcie) : (c.onPcie f).wx = c.wx := rfl
@[simp] theorem Chip.onPcie_quads (f : Pcie → Pcie) : (c.onPcie f).quads = c.quads := rfl
@[simp] theorem Chip.onPcie_ports (f : Pcie → Pcie) : (c.onPcie f).ports = c.ports := rfl
@[simp] theorem Chip.onPcie_tile (f : Pcie → Pcie) : (c.onPcie f).tile = c.tile := rfl
@[simp] theorem Chip.onPcie_pcie (f : Pcie → Pcie) : (c.onPcie f).pcie = f c.pcie := rfl
@[simp] theorem Chip.onPcie_gran (f : Pcie → Pcie) : (c.onPcie f).gran = c.gran := rfl
@[simp] theorem Chip.onPcie_well (f : Pcie → Pcie) : (c.onPcie f).well = c.well := rfl
@[simp] theorem Chip.onPcie_mgmt (f : Pcie → Pcie) : (c.onPcie f).mgmt = c.mgmt := rfl
@[simp] theorem Chip.onPcie_switch (f : Pcie → Pcie) : (c.onPcie f).switch = c.switch := rfl
@[simp] theorem Chip.onPcie_store (f : Pcie → Pcie) : (c.onPcie f).store = c.store := rfl
@[simp] theorem Chip.onPcie_gate (f : Pcie → Pcie) : (c.onPcie f).gate = c.gate := rfl
@[simp] theorem Chip.onPcie_twin (f : Pcie → Pcie) : (c.onPcie f).twin = c.twin := rfl
@[simp] theorem Chip.onPcie_upd (f : Pcie → Pcie) : (c.onPcie f).upd = c.upd := rfl
@[simp] theorem Chip.onPcie_scan (f : Pcie → Pcie) : (c.onPcie f).scan = c.scan := rfl
@[simp] theorem Chip.onPcie_ing (f : Pcie → Pcie) : (c.onPcie f).ing = c.ing := rfl
@[simp] theorem Chip.onPcie_loom (f : Pcie → Pcie) : (c.onPcie f).loom = c.loom := rfl
@[simp] theorem Chip.onPcie_nim (f : Pcie → Pcie) : (c.onPcie f).nim = c.nim := rfl
@[simp] theorem Chip.onPcie_lamp (f : Pcie → Pcie) : (c.onPcie f).lamp = c.lamp := rfl
@[simp] theorem Chip.onPcie_halo (f : Pcie → Pcie) : (c.onPcie f).halo = c.halo := rfl
@[simp] theorem Chip.onPcie_scanHold (f : Pcie → Pcie) : (c.onPcie f).scanHold = c.scanHold := rfl
@[simp] theorem Chip.onPcie_out (f : Pcie → Pcie) : (c.onPcie f).out = c.out := rfl
@[simp] theorem Chip.onPcie_draws (f : Pcie → Pcie) : (c.onPcie f).draws = c.draws := rfl

@[simp] theorem Chip.onGran_regs (f : Gran → Gran) : (c.onGran f).regs = c.regs := rfl
@[simp] theorem Chip.onGran_shadow (f : Gran → Gran) : (c.onGran f).shadow = c.shadow := rfl
@[simp] theorem Chip.onGran_age (f : Gran → Gran) : (c.onGran f).age = c.age := rfl
@[simp] theorem Chip.onGran_fuses (f : Gran → Gran) : (c.onGran f).fuses = c.fuses := rfl
@[simp] theorem Chip.onGran_fab (f : Gran → Gran) : (c.onGran f).fab = c.fab := rfl
@[simp] theorem Chip.onGran_bell (f : Gran → Gran) : (c.onGran f).bell = c.bell := rfl
@[simp] theorem Chip.onGran_pwr (f : Gran → Gran) : (c.onGran f).pwr = c.pwr := rfl
@[simp] theorem Chip.onGran_wx (f : Gran → Gran) : (c.onGran f).wx = c.wx := rfl
@[simp] theorem Chip.onGran_quads (f : Gran → Gran) : (c.onGran f).quads = c.quads := rfl
@[simp] theorem Chip.onGran_ports (f : Gran → Gran) : (c.onGran f).ports = c.ports := rfl
@[simp] theorem Chip.onGran_tile (f : Gran → Gran) : (c.onGran f).tile = c.tile := rfl
@[simp] theorem Chip.onGran_pcie (f : Gran → Gran) : (c.onGran f).pcie = c.pcie := rfl
@[simp] theorem Chip.onGran_gran (f : Gran → Gran) : (c.onGran f).gran = f c.gran := rfl
@[simp] theorem Chip.onGran_well (f : Gran → Gran) : (c.onGran f).well = c.well := rfl
@[simp] theorem Chip.onGran_mgmt (f : Gran → Gran) : (c.onGran f).mgmt = c.mgmt := rfl
@[simp] theorem Chip.onGran_switch (f : Gran → Gran) : (c.onGran f).switch = c.switch := rfl
@[simp] theorem Chip.onGran_store (f : Gran → Gran) : (c.onGran f).store = c.store := rfl
@[simp] theorem Chip.onGran_gate (f : Gran → Gran) : (c.onGran f).gate = c.gate := rfl
@[simp] theorem Chip.onGran_twin (f : Gran → Gran) : (c.onGran f).twin = c.twin := rfl
@[simp] theorem Chip.onGran_upd (f : Gran → Gran) : (c.onGran f).upd = c.upd := rfl
@[simp] theorem Chip.onGran_scan (f : Gran → Gran) : (c.onGran f).scan = c.scan := rfl
@[simp] theorem Chip.onGran_ing (f : Gran → Gran) : (c.onGran f).ing = c.ing := rfl
@[simp] theorem Chip.onGran_loom (f : Gran → Gran) : (c.onGran f).loom = c.loom := rfl
@[simp] theorem Chip.onGran_nim (f : Gran → Gran) : (c.onGran f).nim = c.nim := rfl
@[simp] theorem Chip.onGran_lamp (f : Gran → Gran) : (c.onGran f).lamp = c.lamp := rfl
@[simp] theorem Chip.onGran_halo (f : Gran → Gran) : (c.onGran f).halo = c.halo := rfl
@[simp] theorem Chip.onGran_scanHold (f : Gran → Gran) : (c.onGran f).scanHold = c.scanHold := rfl
@[simp] theorem Chip.onGran_out (f : Gran → Gran) : (c.onGran f).out = c.out := rfl
@[simp] theorem Chip.onGran_draws (f : Gran → Gran) : (c.onGran f).draws = c.draws := rfl

@[simp] theorem Chip.onWell_regs (f : Well → Well) : (c.onWell f).regs = c.regs := rfl
@[simp] theorem Chip.onWell_shadow (f : Well → Well) : (c.onWell f).shadow = c.shadow := rfl
@[simp] theorem Chip.onWell_age (f : Well → Well) : (c.onWell f).age = c.age := rfl
@[simp] theorem Chip.onWell_fuses (f : Well → Well) : (c.onWell f).fuses = c.fuses := rfl
@[simp] theorem Chip.onWell_fab (f : Well → Well) : (c.onWell f).fab = c.fab := rfl
@[simp] theorem Chip.onWell_bell (f : Well → Well) : (c.onWell f).bell = c.bell := rfl
@[simp] theorem Chip.onWell_pwr (f : Well → Well) : (c.onWell f).pwr = c.pwr := rfl
@[simp] theorem Chip.onWell_wx (f : Well → Well) : (c.onWell f).wx = c.wx := rfl
@[simp] theorem Chip.onWell_quads (f : Well → Well) : (c.onWell f).quads = c.quads := rfl
@[simp] theorem Chip.onWell_ports (f : Well → Well) : (c.onWell f).ports = c.ports := rfl
@[simp] theorem Chip.onWell_tile (f : Well → Well) : (c.onWell f).tile = c.tile := rfl
@[simp] theorem Chip.onWell_pcie (f : Well → Well) : (c.onWell f).pcie = c.pcie := rfl
@[simp] theorem Chip.onWell_gran (f : Well → Well) : (c.onWell f).gran = c.gran := rfl
@[simp] theorem Chip.onWell_well (f : Well → Well) : (c.onWell f).well = f c.well := rfl
@[simp] theorem Chip.onWell_mgmt (f : Well → Well) : (c.onWell f).mgmt = c.mgmt := rfl
@[simp] theorem Chip.onWell_switch (f : Well → Well) : (c.onWell f).switch = c.switch := rfl
@[simp] theorem Chip.onWell_store (f : Well → Well) : (c.onWell f).store = c.store := rfl
@[simp] theorem Chip.onWell_gate (f : Well → Well) : (c.onWell f).gate = c.gate := rfl
@[simp] theorem Chip.onWell_twin (f : Well → Well) : (c.onWell f).twin = c.twin := rfl
@[simp] theorem Chip.onWell_upd (f : Well → Well) : (c.onWell f).upd = c.upd := rfl
@[simp] theorem Chip.onWell_scan (f : Well → Well) : (c.onWell f).scan = c.scan := rfl
@[simp] theorem Chip.onWell_ing (f : Well → Well) : (c.onWell f).ing = c.ing := rfl
@[simp] theorem Chip.onWell_loom (f : Well → Well) : (c.onWell f).loom = c.loom := rfl
@[simp] theorem Chip.onWell_nim (f : Well → Well) : (c.onWell f).nim = c.nim := rfl
@[simp] theorem Chip.onWell_lamp (f : Well → Well) : (c.onWell f).lamp = c.lamp := rfl
@[simp] theorem Chip.onWell_halo (f : Well → Well) : (c.onWell f).halo = c.halo := rfl
@[simp] theorem Chip.onWell_scanHold (f : Well → Well) : (c.onWell f).scanHold = c.scanHold := rfl
@[simp] theorem Chip.onWell_out (f : Well → Well) : (c.onWell f).out = c.out := rfl
@[simp] theorem Chip.onWell_draws (f : Well → Well) : (c.onWell f).draws = c.draws := rfl

@[simp] theorem Chip.onMgmt_regs (f : Mgmt → Mgmt) : (c.onMgmt f).regs = c.regs := rfl
@[simp] theorem Chip.onMgmt_shadow (f : Mgmt → Mgmt) : (c.onMgmt f).shadow = c.shadow := rfl
@[simp] theorem Chip.onMgmt_age (f : Mgmt → Mgmt) : (c.onMgmt f).age = c.age := rfl
@[simp] theorem Chip.onMgmt_fuses (f : Mgmt → Mgmt) : (c.onMgmt f).fuses = c.fuses := rfl
@[simp] theorem Chip.onMgmt_fab (f : Mgmt → Mgmt) : (c.onMgmt f).fab = c.fab := rfl
@[simp] theorem Chip.onMgmt_bell (f : Mgmt → Mgmt) : (c.onMgmt f).bell = c.bell := rfl
@[simp] theorem Chip.onMgmt_pwr (f : Mgmt → Mgmt) : (c.onMgmt f).pwr = c.pwr := rfl
@[simp] theorem Chip.onMgmt_wx (f : Mgmt → Mgmt) : (c.onMgmt f).wx = c.wx := rfl
@[simp] theorem Chip.onMgmt_quads (f : Mgmt → Mgmt) : (c.onMgmt f).quads = c.quads := rfl
@[simp] theorem Chip.onMgmt_ports (f : Mgmt → Mgmt) : (c.onMgmt f).ports = c.ports := rfl
@[simp] theorem Chip.onMgmt_tile (f : Mgmt → Mgmt) : (c.onMgmt f).tile = c.tile := rfl
@[simp] theorem Chip.onMgmt_pcie (f : Mgmt → Mgmt) : (c.onMgmt f).pcie = c.pcie := rfl
@[simp] theorem Chip.onMgmt_gran (f : Mgmt → Mgmt) : (c.onMgmt f).gran = c.gran := rfl
@[simp] theorem Chip.onMgmt_well (f : Mgmt → Mgmt) : (c.onMgmt f).well = c.well := rfl
@[simp] theorem Chip.onMgmt_mgmt (f : Mgmt → Mgmt) : (c.onMgmt f).mgmt = f c.mgmt := rfl
@[simp] theorem Chip.onMgmt_switch (f : Mgmt → Mgmt) : (c.onMgmt f).switch = c.switch := rfl
@[simp] theorem Chip.onMgmt_store (f : Mgmt → Mgmt) : (c.onMgmt f).store = c.store := rfl
@[simp] theorem Chip.onMgmt_gate (f : Mgmt → Mgmt) : (c.onMgmt f).gate = c.gate := rfl
@[simp] theorem Chip.onMgmt_twin (f : Mgmt → Mgmt) : (c.onMgmt f).twin = c.twin := rfl
@[simp] theorem Chip.onMgmt_upd (f : Mgmt → Mgmt) : (c.onMgmt f).upd = c.upd := rfl
@[simp] theorem Chip.onMgmt_scan (f : Mgmt → Mgmt) : (c.onMgmt f).scan = c.scan := rfl
@[simp] theorem Chip.onMgmt_ing (f : Mgmt → Mgmt) : (c.onMgmt f).ing = c.ing := rfl
@[simp] theorem Chip.onMgmt_loom (f : Mgmt → Mgmt) : (c.onMgmt f).loom = c.loom := rfl
@[simp] theorem Chip.onMgmt_nim (f : Mgmt → Mgmt) : (c.onMgmt f).nim = c.nim := rfl
@[simp] theorem Chip.onMgmt_lamp (f : Mgmt → Mgmt) : (c.onMgmt f).lamp = c.lamp := rfl
@[simp] theorem Chip.onMgmt_halo (f : Mgmt → Mgmt) : (c.onMgmt f).halo = c.halo := rfl
@[simp] theorem Chip.onMgmt_scanHold (f : Mgmt → Mgmt) : (c.onMgmt f).scanHold = c.scanHold := rfl
@[simp] theorem Chip.onMgmt_out (f : Mgmt → Mgmt) : (c.onMgmt f).out = c.out := rfl
@[simp] theorem Chip.onMgmt_draws (f : Mgmt → Mgmt) : (c.onMgmt f).draws = c.draws := rfl

@[simp] theorem Chip.onGate_regs (f : Gate → Gate) : (c.onGate f).regs = c.regs := rfl
@[simp] theorem Chip.onGate_shadow (f : Gate → Gate) : (c.onGate f).shadow = c.shadow := rfl
@[simp] theorem Chip.onGate_age (f : Gate → Gate) : (c.onGate f).age = c.age := rfl
@[simp] theorem Chip.onGate_fuses (f : Gate → Gate) : (c.onGate f).fuses = c.fuses := rfl
@[simp] theorem Chip.onGate_fab (f : Gate → Gate) : (c.onGate f).fab = c.fab := rfl
@[simp] theorem Chip.onGate_bell (f : Gate → Gate) : (c.onGate f).bell = c.bell := rfl
@[simp] theorem Chip.onGate_pwr (f : Gate → Gate) : (c.onGate f).pwr = c.pwr := rfl
@[simp] theorem Chip.onGate_wx (f : Gate → Gate) : (c.onGate f).wx = c.wx := rfl
@[simp] theorem Chip.onGate_quads (f : Gate → Gate) : (c.onGate f).quads = c.quads := rfl
@[simp] theorem Chip.onGate_ports (f : Gate → Gate) : (c.onGate f).ports = c.ports := rfl
@[simp] theorem Chip.onGate_tile (f : Gate → Gate) : (c.onGate f).tile = c.tile := rfl
@[simp] theorem Chip.onGate_pcie (f : Gate → Gate) : (c.onGate f).pcie = c.pcie := rfl
@[simp] theorem Chip.onGate_gran (f : Gate → Gate) : (c.onGate f).gran = c.gran := rfl
@[simp] theorem Chip.onGate_well (f : Gate → Gate) : (c.onGate f).well = c.well := rfl
@[simp] theorem Chip.onGate_mgmt (f : Gate → Gate) : (c.onGate f).mgmt = c.mgmt := rfl
@[simp] theorem Chip.onGate_switch (f : Gate → Gate) : (c.onGate f).switch = c.switch := rfl
@[simp] theorem Chip.onGate_store (f : Gate → Gate) : (c.onGate f).store = c.store := rfl
@[simp] theorem Chip.onGate_gate (f : Gate → Gate) : (c.onGate f).gate = f c.gate := rfl
@[simp] theorem Chip.onGate_twin (f : Gate → Gate) : (c.onGate f).twin = c.twin := rfl
@[simp] theorem Chip.onGate_upd (f : Gate → Gate) : (c.onGate f).upd = c.upd := rfl
@[simp] theorem Chip.onGate_scan (f : Gate → Gate) : (c.onGate f).scan = c.scan := rfl
@[simp] theorem Chip.onGate_ing (f : Gate → Gate) : (c.onGate f).ing = c.ing := rfl
@[simp] theorem Chip.onGate_loom (f : Gate → Gate) : (c.onGate f).loom = c.loom := rfl
@[simp] theorem Chip.onGate_nim (f : Gate → Gate) : (c.onGate f).nim = c.nim := rfl
@[simp] theorem Chip.onGate_lamp (f : Gate → Gate) : (c.onGate f).lamp = c.lamp := rfl
@[simp] theorem Chip.onGate_halo (f : Gate → Gate) : (c.onGate f).halo = c.halo := rfl
@[simp] theorem Chip.onGate_scanHold (f : Gate → Gate) : (c.onGate f).scanHold = c.scanHold := rfl
@[simp] theorem Chip.onGate_out (f : Gate → Gate) : (c.onGate f).out = c.out := rfl
@[simp] theorem Chip.onGate_draws (f : Gate → Gate) : (c.onGate f).draws = c.draws := rfl

@[simp] theorem Chip.onTwin_regs (f : Twin → Twin) : (c.onTwin f).regs = c.regs := rfl
@[simp] theorem Chip.onTwin_shadow (f : Twin → Twin) : (c.onTwin f).shadow = c.shadow := rfl
@[simp] theorem Chip.onTwin_age (f : Twin → Twin) : (c.onTwin f).age = c.age := rfl
@[simp] theorem Chip.onTwin_fuses (f : Twin → Twin) : (c.onTwin f).fuses = c.fuses := rfl
@[simp] theorem Chip.onTwin_fab (f : Twin → Twin) : (c.onTwin f).fab = c.fab := rfl
@[simp] theorem Chip.onTwin_bell (f : Twin → Twin) : (c.onTwin f).bell = c.bell := rfl
@[simp] theorem Chip.onTwin_pwr (f : Twin → Twin) : (c.onTwin f).pwr = c.pwr := rfl
@[simp] theorem Chip.onTwin_wx (f : Twin → Twin) : (c.onTwin f).wx = c.wx := rfl
@[simp] theorem Chip.onTwin_quads (f : Twin → Twin) : (c.onTwin f).quads = c.quads := rfl
@[simp] theorem Chip.onTwin_ports (f : Twin → Twin) : (c.onTwin f).ports = c.ports := rfl
@[simp] theorem Chip.onTwin_tile (f : Twin → Twin) : (c.onTwin f).tile = c.tile := rfl
@[simp] theorem Chip.onTwin_pcie (f : Twin → Twin) : (c.onTwin f).pcie = c.pcie := rfl
@[simp] theorem Chip.onTwin_gran (f : Twin → Twin) : (c.onTwin f).gran = c.gran := rfl
@[simp] theorem Chip.onTwin_well (f : Twin → Twin) : (c.onTwin f).well = c.well := rfl
@[simp] theorem Chip.onTwin_mgmt (f : Twin → Twin) : (c.onTwin f).mgmt = c.mgmt := rfl
@[simp] theorem Chip.onTwin_switch (f : Twin → Twin) : (c.onTwin f).switch = c.switch := rfl
@[simp] theorem Chip.onTwin_store (f : Twin → Twin) : (c.onTwin f).store = c.store := rfl
@[simp] theorem Chip.onTwin_gate (f : Twin → Twin) : (c.onTwin f).gate = c.gate := rfl
@[simp] theorem Chip.onTwin_twin (f : Twin → Twin) : (c.onTwin f).twin = f c.twin := rfl
@[simp] theorem Chip.onTwin_upd (f : Twin → Twin) : (c.onTwin f).upd = c.upd := rfl
@[simp] theorem Chip.onTwin_scan (f : Twin → Twin) : (c.onTwin f).scan = c.scan := rfl
@[simp] theorem Chip.onTwin_ing (f : Twin → Twin) : (c.onTwin f).ing = c.ing := rfl
@[simp] theorem Chip.onTwin_loom (f : Twin → Twin) : (c.onTwin f).loom = c.loom := rfl
@[simp] theorem Chip.onTwin_nim (f : Twin → Twin) : (c.onTwin f).nim = c.nim := rfl
@[simp] theorem Chip.onTwin_lamp (f : Twin → Twin) : (c.onTwin f).lamp = c.lamp := rfl
@[simp] theorem Chip.onTwin_halo (f : Twin → Twin) : (c.onTwin f).halo = c.halo := rfl
@[simp] theorem Chip.onTwin_scanHold (f : Twin → Twin) : (c.onTwin f).scanHold = c.scanHold := rfl
@[simp] theorem Chip.onTwin_out (f : Twin → Twin) : (c.onTwin f).out = c.out := rfl
@[simp] theorem Chip.onTwin_draws (f : Twin → Twin) : (c.onTwin f).draws = c.draws := rfl

@[simp] theorem Chip.onStore_regs (f : Store → Store) : (c.onStore f).regs = c.regs := rfl
@[simp] theorem Chip.onStore_shadow (f : Store → Store) : (c.onStore f).shadow = c.shadow := rfl
@[simp] theorem Chip.onStore_age (f : Store → Store) : (c.onStore f).age = c.age := rfl
@[simp] theorem Chip.onStore_fuses (f : Store → Store) : (c.onStore f).fuses = c.fuses := rfl
@[simp] theorem Chip.onStore_fab (f : Store → Store) : (c.onStore f).fab = c.fab := rfl
@[simp] theorem Chip.onStore_bell (f : Store → Store) : (c.onStore f).bell = c.bell := rfl
@[simp] theorem Chip.onStore_pwr (f : Store → Store) : (c.onStore f).pwr = c.pwr := rfl
@[simp] theorem Chip.onStore_wx (f : Store → Store) : (c.onStore f).wx = c.wx := rfl
@[simp] theorem Chip.onStore_quads (f : Store → Store) : (c.onStore f).quads = c.quads := rfl
@[simp] theorem Chip.onStore_ports (f : Store → Store) : (c.onStore f).ports = c.ports := rfl
@[simp] theorem Chip.onStore_tile (f : Store → Store) : (c.onStore f).tile = c.tile := rfl
@[simp] theorem Chip.onStore_pcie (f : Store → Store) : (c.onStore f).pcie = c.pcie := rfl
@[simp] theorem Chip.onStore_gran (f : Store → Store) : (c.onStore f).gran = c.gran := rfl
@[simp] theorem Chip.onStore_well (f : Store → Store) : (c.onStore f).well = c.well := rfl
@[simp] theorem Chip.onStore_mgmt (f : Store → Store) : (c.onStore f).mgmt = c.mgmt := rfl
@[simp] theorem Chip.onStore_switch (f : Store → Store) : (c.onStore f).switch = c.switch := rfl
@[simp] theorem Chip.onStore_store (f : Store → Store) : (c.onStore f).store = f c.store := rfl
@[simp] theorem Chip.onStore_gate (f : Store → Store) : (c.onStore f).gate = c.gate := rfl
@[simp] theorem Chip.onStore_twin (f : Store → Store) : (c.onStore f).twin = c.twin := rfl
@[simp] theorem Chip.onStore_upd (f : Store → Store) : (c.onStore f).upd = c.upd := rfl
@[simp] theorem Chip.onStore_scan (f : Store → Store) : (c.onStore f).scan = c.scan := rfl
@[simp] theorem Chip.onStore_ing (f : Store → Store) : (c.onStore f).ing = c.ing := rfl
@[simp] theorem Chip.onStore_loom (f : Store → Store) : (c.onStore f).loom = c.loom := rfl
@[simp] theorem Chip.onStore_nim (f : Store → Store) : (c.onStore f).nim = c.nim := rfl
@[simp] theorem Chip.onStore_lamp (f : Store → Store) : (c.onStore f).lamp = c.lamp := rfl
@[simp] theorem Chip.onStore_halo (f : Store → Store) : (c.onStore f).halo = c.halo := rfl
@[simp] theorem Chip.onStore_scanHold (f : Store → Store) : (c.onStore f).scanHold = c.scanHold := rfl
@[simp] theorem Chip.onStore_out (f : Store → Store) : (c.onStore f).out = c.out := rfl
@[simp] theorem Chip.onStore_draws (f : Store → Store) : (c.onStore f).draws = c.draws := rfl

@[simp] theorem Chip.onUpd_regs (f : Upd → Upd) : (c.onUpd f).regs = c.regs := rfl
@[simp] theorem Chip.onUpd_shadow (f : Upd → Upd) : (c.onUpd f).shadow = c.shadow := rfl
@[simp] theorem Chip.onUpd_age (f : Upd → Upd) : (c.onUpd f).age = c.age := rfl
@[simp] theorem Chip.onUpd_fuses (f : Upd → Upd) : (c.onUpd f).fuses = c.fuses := rfl
@[simp] theorem Chip.onUpd_fab (f : Upd → Upd) : (c.onUpd f).fab = c.fab := rfl
@[simp] theorem Chip.onUpd_bell (f : Upd → Upd) : (c.onUpd f).bell = c.bell := rfl
@[simp] theorem Chip.onUpd_pwr (f : Upd → Upd) : (c.onUpd f).pwr = c.pwr := rfl
@[simp] theorem Chip.onUpd_wx (f : Upd → Upd) : (c.onUpd f).wx = c.wx := rfl
@[simp] theorem Chip.onUpd_quads (f : Upd → Upd) : (c.onUpd f).quads = c.quads := rfl
@[simp] theorem Chip.onUpd_ports (f : Upd → Upd) : (c.onUpd f).ports = c.ports := rfl
@[simp] theorem Chip.onUpd_tile (f : Upd → Upd) : (c.onUpd f).tile = c.tile := rfl
@[simp] theorem Chip.onUpd_pcie (f : Upd → Upd) : (c.onUpd f).pcie = c.pcie := rfl
@[simp] theorem Chip.onUpd_gran (f : Upd → Upd) : (c.onUpd f).gran = c.gran := rfl
@[simp] theorem Chip.onUpd_well (f : Upd → Upd) : (c.onUpd f).well = c.well := rfl
@[simp] theorem Chip.onUpd_mgmt (f : Upd → Upd) : (c.onUpd f).mgmt = c.mgmt := rfl
@[simp] theorem Chip.onUpd_switch (f : Upd → Upd) : (c.onUpd f).switch = c.switch := rfl
@[simp] theorem Chip.onUpd_store (f : Upd → Upd) : (c.onUpd f).store = c.store := rfl
@[simp] theorem Chip.onUpd_gate (f : Upd → Upd) : (c.onUpd f).gate = c.gate := rfl
@[simp] theorem Chip.onUpd_twin (f : Upd → Upd) : (c.onUpd f).twin = c.twin := rfl
@[simp] theorem Chip.onUpd_upd (f : Upd → Upd) : (c.onUpd f).upd = f c.upd := rfl
@[simp] theorem Chip.onUpd_scan (f : Upd → Upd) : (c.onUpd f).scan = c.scan := rfl
@[simp] theorem Chip.onUpd_ing (f : Upd → Upd) : (c.onUpd f).ing = c.ing := rfl
@[simp] theorem Chip.onUpd_loom (f : Upd → Upd) : (c.onUpd f).loom = c.loom := rfl
@[simp] theorem Chip.onUpd_nim (f : Upd → Upd) : (c.onUpd f).nim = c.nim := rfl
@[simp] theorem Chip.onUpd_lamp (f : Upd → Upd) : (c.onUpd f).lamp = c.lamp := rfl
@[simp] theorem Chip.onUpd_halo (f : Upd → Upd) : (c.onUpd f).halo = c.halo := rfl
@[simp] theorem Chip.onUpd_scanHold (f : Upd → Upd) : (c.onUpd f).scanHold = c.scanHold := rfl
@[simp] theorem Chip.onUpd_out (f : Upd → Upd) : (c.onUpd f).out = c.out := rfl
@[simp] theorem Chip.onUpd_draws (f : Upd → Upd) : (c.onUpd f).draws = c.draws := rfl

@[simp] theorem Chip.onScan_regs (f : Scan → Scan) : (c.onScan f).regs = c.regs := rfl
@[simp] theorem Chip.onScan_shadow (f : Scan → Scan) : (c.onScan f).shadow = c.shadow := rfl
@[simp] theorem Chip.onScan_age (f : Scan → Scan) : (c.onScan f).age = c.age := rfl
@[simp] theorem Chip.onScan_fuses (f : Scan → Scan) : (c.onScan f).fuses = c.fuses := rfl
@[simp] theorem Chip.onScan_fab (f : Scan → Scan) : (c.onScan f).fab = c.fab := rfl
@[simp] theorem Chip.onScan_bell (f : Scan → Scan) : (c.onScan f).bell = c.bell := rfl
@[simp] theorem Chip.onScan_pwr (f : Scan → Scan) : (c.onScan f).pwr = c.pwr := rfl
@[simp] theorem Chip.onScan_wx (f : Scan → Scan) : (c.onScan f).wx = c.wx := rfl
@[simp] theorem Chip.onScan_quads (f : Scan → Scan) : (c.onScan f).quads = c.quads := rfl
@[simp] theorem Chip.onScan_ports (f : Scan → Scan) : (c.onScan f).ports = c.ports := rfl
@[simp] theorem Chip.onScan_tile (f : Scan → Scan) : (c.onScan f).tile = c.tile := rfl
@[simp] theorem Chip.onScan_pcie (f : Scan → Scan) : (c.onScan f).pcie = c.pcie := rfl
@[simp] theorem Chip.onScan_gran (f : Scan → Scan) : (c.onScan f).gran = c.gran := rfl
@[simp] theorem Chip.onScan_well (f : Scan → Scan) : (c.onScan f).well = c.well := rfl
@[simp] theorem Chip.onScan_mgmt (f : Scan → Scan) : (c.onScan f).mgmt = c.mgmt := rfl
@[simp] theorem Chip.onScan_switch (f : Scan → Scan) : (c.onScan f).switch = c.switch := rfl
@[simp] theorem Chip.onScan_store (f : Scan → Scan) : (c.onScan f).store = c.store := rfl
@[simp] theorem Chip.onScan_gate (f : Scan → Scan) : (c.onScan f).gate = c.gate := rfl
@[simp] theorem Chip.onScan_twin (f : Scan → Scan) : (c.onScan f).twin = c.twin := rfl
@[simp] theorem Chip.onScan_upd (f : Scan → Scan) : (c.onScan f).upd = c.upd := rfl
@[simp] theorem Chip.onScan_scan (f : Scan → Scan) : (c.onScan f).scan = f c.scan := rfl
@[simp] theorem Chip.onScan_ing (f : Scan → Scan) : (c.onScan f).ing = c.ing := rfl
@[simp] theorem Chip.onScan_loom (f : Scan → Scan) : (c.onScan f).loom = c.loom := rfl
@[simp] theorem Chip.onScan_nim (f : Scan → Scan) : (c.onScan f).nim = c.nim := rfl
@[simp] theorem Chip.onScan_lamp (f : Scan → Scan) : (c.onScan f).lamp = c.lamp := rfl
@[simp] theorem Chip.onScan_halo (f : Scan → Scan) : (c.onScan f).halo = c.halo := rfl
@[simp] theorem Chip.onScan_scanHold (f : Scan → Scan) : (c.onScan f).scanHold = c.scanHold := rfl
@[simp] theorem Chip.onScan_out (f : Scan → Scan) : (c.onScan f).out = c.out := rfl
@[simp] theorem Chip.onScan_draws (f : Scan → Scan) : (c.onScan f).draws = c.draws := rfl

@[simp] theorem Chip.onIng_regs (f : Ingest → Ingest) : (c.onIng f).regs = c.regs := rfl
@[simp] theorem Chip.onIng_shadow (f : Ingest → Ingest) : (c.onIng f).shadow = c.shadow := rfl
@[simp] theorem Chip.onIng_age (f : Ingest → Ingest) : (c.onIng f).age = c.age := rfl
@[simp] theorem Chip.onIng_fuses (f : Ingest → Ingest) : (c.onIng f).fuses = c.fuses := rfl
@[simp] theorem Chip.onIng_fab (f : Ingest → Ingest) : (c.onIng f).fab = c.fab := rfl
@[simp] theorem Chip.onIng_bell (f : Ingest → Ingest) : (c.onIng f).bell = c.bell := rfl
@[simp] theorem Chip.onIng_pwr (f : Ingest → Ingest) : (c.onIng f).pwr = c.pwr := rfl
@[simp] theorem Chip.onIng_wx (f : Ingest → Ingest) : (c.onIng f).wx = c.wx := rfl
@[simp] theorem Chip.onIng_quads (f : Ingest → Ingest) : (c.onIng f).quads = c.quads := rfl
@[simp] theorem Chip.onIng_ports (f : Ingest → Ingest) : (c.onIng f).ports = c.ports := rfl
@[simp] theorem Chip.onIng_tile (f : Ingest → Ingest) : (c.onIng f).tile = c.tile := rfl
@[simp] theorem Chip.onIng_pcie (f : Ingest → Ingest) : (c.onIng f).pcie = c.pcie := rfl
@[simp] theorem Chip.onIng_gran (f : Ingest → Ingest) : (c.onIng f).gran = c.gran := rfl
@[simp] theorem Chip.onIng_well (f : Ingest → Ingest) : (c.onIng f).well = c.well := rfl
@[simp] theorem Chip.onIng_mgmt (f : Ingest → Ingest) : (c.onIng f).mgmt = c.mgmt := rfl
@[simp] theorem Chip.onIng_switch (f : Ingest → Ingest) : (c.onIng f).switch = c.switch := rfl
@[simp] theorem Chip.onIng_store (f : Ingest → Ingest) : (c.onIng f).store = c.store := rfl
@[simp] theorem Chip.onIng_gate (f : Ingest → Ingest) : (c.onIng f).gate = c.gate := rfl
@[simp] theorem Chip.onIng_twin (f : Ingest → Ingest) : (c.onIng f).twin = c.twin := rfl
@[simp] theorem Chip.onIng_upd (f : Ingest → Ingest) : (c.onIng f).upd = c.upd := rfl
@[simp] theorem Chip.onIng_scan (f : Ingest → Ingest) : (c.onIng f).scan = c.scan := rfl
@[simp] theorem Chip.onIng_ing (f : Ingest → Ingest) : (c.onIng f).ing = f c.ing := rfl
@[simp] theorem Chip.onIng_loom (f : Ingest → Ingest) : (c.onIng f).loom = c.loom := rfl
@[simp] theorem Chip.onIng_nim (f : Ingest → Ingest) : (c.onIng f).nim = c.nim := rfl
@[simp] theorem Chip.onIng_lamp (f : Ingest → Ingest) : (c.onIng f).lamp = c.lamp := rfl
@[simp] theorem Chip.onIng_halo (f : Ingest → Ingest) : (c.onIng f).halo = c.halo := rfl
@[simp] theorem Chip.onIng_scanHold (f : Ingest → Ingest) : (c.onIng f).scanHold = c.scanHold := rfl
@[simp] theorem Chip.onIng_out (f : Ingest → Ingest) : (c.onIng f).out = c.out := rfl
@[simp] theorem Chip.onIng_draws (f : Ingest → Ingest) : (c.onIng f).draws = c.draws := rfl

@[simp] theorem Chip.onLoom_regs (f : Loom → Loom) : (c.onLoom f).regs = c.regs := rfl
@[simp] theorem Chip.onLoom_shadow (f : Loom → Loom) : (c.onLoom f).shadow = c.shadow := rfl
@[simp] theorem Chip.onLoom_age (f : Loom → Loom) : (c.onLoom f).age = c.age := rfl
@[simp] theorem Chip.onLoom_fuses (f : Loom → Loom) : (c.onLoom f).fuses = c.fuses := rfl
@[simp] theorem Chip.onLoom_fab (f : Loom → Loom) : (c.onLoom f).fab = c.fab := rfl
@[simp] theorem Chip.onLoom_bell (f : Loom → Loom) : (c.onLoom f).bell = c.bell := rfl
@[simp] theorem Chip.onLoom_pwr (f : Loom → Loom) : (c.onLoom f).pwr = c.pwr := rfl
@[simp] theorem Chip.onLoom_wx (f : Loom → Loom) : (c.onLoom f).wx = c.wx := rfl
@[simp] theorem Chip.onLoom_quads (f : Loom → Loom) : (c.onLoom f).quads = c.quads := rfl
@[simp] theorem Chip.onLoom_ports (f : Loom → Loom) : (c.onLoom f).ports = c.ports := rfl
@[simp] theorem Chip.onLoom_tile (f : Loom → Loom) : (c.onLoom f).tile = c.tile := rfl
@[simp] theorem Chip.onLoom_pcie (f : Loom → Loom) : (c.onLoom f).pcie = c.pcie := rfl
@[simp] theorem Chip.onLoom_gran (f : Loom → Loom) : (c.onLoom f).gran = c.gran := rfl
@[simp] theorem Chip.onLoom_well (f : Loom → Loom) : (c.onLoom f).well = c.well := rfl
@[simp] theorem Chip.onLoom_mgmt (f : Loom → Loom) : (c.onLoom f).mgmt = c.mgmt := rfl
@[simp] theorem Chip.onLoom_switch (f : Loom → Loom) : (c.onLoom f).switch = c.switch := rfl
@[simp] theorem Chip.onLoom_store (f : Loom → Loom) : (c.onLoom f).store = c.store := rfl
@[simp] theorem Chip.onLoom_gate (f : Loom → Loom) : (c.onLoom f).gate = c.gate := rfl
@[simp] theorem Chip.onLoom_twin (f : Loom → Loom) : (c.onLoom f).twin = c.twin := rfl
@[simp] theorem Chip.onLoom_upd (f : Loom → Loom) : (c.onLoom f).upd = c.upd := rfl
@[simp] theorem Chip.onLoom_scan (f : Loom → Loom) : (c.onLoom f).scan = c.scan := rfl
@[simp] theorem Chip.onLoom_ing (f : Loom → Loom) : (c.onLoom f).ing = c.ing := rfl
@[simp] theorem Chip.onLoom_loom (f : Loom → Loom) : (c.onLoom f).loom = f c.loom := rfl
@[simp] theorem Chip.onLoom_nim (f : Loom → Loom) : (c.onLoom f).nim = c.nim := rfl
@[simp] theorem Chip.onLoom_lamp (f : Loom → Loom) : (c.onLoom f).lamp = c.lamp := rfl
@[simp] theorem Chip.onLoom_halo (f : Loom → Loom) : (c.onLoom f).halo = c.halo := rfl
@[simp] theorem Chip.onLoom_scanHold (f : Loom → Loom) : (c.onLoom f).scanHold = c.scanHold := rfl
@[simp] theorem Chip.onLoom_out (f : Loom → Loom) : (c.onLoom f).out = c.out := rfl
@[simp] theorem Chip.onLoom_draws (f : Loom → Loom) : (c.onLoom f).draws = c.draws := rfl

@[simp] theorem Chip.onNim_regs (f : Nimbus → Nimbus) : (c.onNim f).regs = c.regs := rfl
@[simp] theorem Chip.onNim_shadow (f : Nimbus → Nimbus) : (c.onNim f).shadow = c.shadow := rfl
@[simp] theorem Chip.onNim_age (f : Nimbus → Nimbus) : (c.onNim f).age = c.age := rfl
@[simp] theorem Chip.onNim_fuses (f : Nimbus → Nimbus) : (c.onNim f).fuses = c.fuses := rfl
@[simp] theorem Chip.onNim_fab (f : Nimbus → Nimbus) : (c.onNim f).fab = c.fab := rfl
@[simp] theorem Chip.onNim_bell (f : Nimbus → Nimbus) : (c.onNim f).bell = c.bell := rfl
@[simp] theorem Chip.onNim_pwr (f : Nimbus → Nimbus) : (c.onNim f).pwr = c.pwr := rfl
@[simp] theorem Chip.onNim_wx (f : Nimbus → Nimbus) : (c.onNim f).wx = c.wx := rfl
@[simp] theorem Chip.onNim_quads (f : Nimbus → Nimbus) : (c.onNim f).quads = c.quads := rfl
@[simp] theorem Chip.onNim_ports (f : Nimbus → Nimbus) : (c.onNim f).ports = c.ports := rfl
@[simp] theorem Chip.onNim_tile (f : Nimbus → Nimbus) : (c.onNim f).tile = c.tile := rfl
@[simp] theorem Chip.onNim_pcie (f : Nimbus → Nimbus) : (c.onNim f).pcie = c.pcie := rfl
@[simp] theorem Chip.onNim_gran (f : Nimbus → Nimbus) : (c.onNim f).gran = c.gran := rfl
@[simp] theorem Chip.onNim_well (f : Nimbus → Nimbus) : (c.onNim f).well = c.well := rfl
@[simp] theorem Chip.onNim_mgmt (f : Nimbus → Nimbus) : (c.onNim f).mgmt = c.mgmt := rfl
@[simp] theorem Chip.onNim_switch (f : Nimbus → Nimbus) : (c.onNim f).switch = c.switch := rfl
@[simp] theorem Chip.onNim_store (f : Nimbus → Nimbus) : (c.onNim f).store = c.store := rfl
@[simp] theorem Chip.onNim_gate (f : Nimbus → Nimbus) : (c.onNim f).gate = c.gate := rfl
@[simp] theorem Chip.onNim_twin (f : Nimbus → Nimbus) : (c.onNim f).twin = c.twin := rfl
@[simp] theorem Chip.onNim_upd (f : Nimbus → Nimbus) : (c.onNim f).upd = c.upd := rfl
@[simp] theorem Chip.onNim_scan (f : Nimbus → Nimbus) : (c.onNim f).scan = c.scan := rfl
@[simp] theorem Chip.onNim_ing (f : Nimbus → Nimbus) : (c.onNim f).ing = c.ing := rfl
@[simp] theorem Chip.onNim_loom (f : Nimbus → Nimbus) : (c.onNim f).loom = c.loom := rfl
@[simp] theorem Chip.onNim_nim (f : Nimbus → Nimbus) : (c.onNim f).nim = f c.nim := rfl
@[simp] theorem Chip.onNim_lamp (f : Nimbus → Nimbus) : (c.onNim f).lamp = c.lamp := rfl
@[simp] theorem Chip.onNim_halo (f : Nimbus → Nimbus) : (c.onNim f).halo = c.halo := rfl
@[simp] theorem Chip.onNim_scanHold (f : Nimbus → Nimbus) : (c.onNim f).scanHold = c.scanHold := rfl
@[simp] theorem Chip.onNim_out (f : Nimbus → Nimbus) : (c.onNim f).out = c.out := rfl
@[simp] theorem Chip.onNim_draws (f : Nimbus → Nimbus) : (c.onNim f).draws = c.draws := rfl

@[simp] theorem Chip.onLamp_regs (f : Lamp → Lamp) : (c.onLamp f).regs = c.regs := rfl
@[simp] theorem Chip.onLamp_shadow (f : Lamp → Lamp) : (c.onLamp f).shadow = c.shadow := rfl
@[simp] theorem Chip.onLamp_age (f : Lamp → Lamp) : (c.onLamp f).age = c.age := rfl
@[simp] theorem Chip.onLamp_fuses (f : Lamp → Lamp) : (c.onLamp f).fuses = c.fuses := rfl
@[simp] theorem Chip.onLamp_fab (f : Lamp → Lamp) : (c.onLamp f).fab = c.fab := rfl
@[simp] theorem Chip.onLamp_bell (f : Lamp → Lamp) : (c.onLamp f).bell = c.bell := rfl
@[simp] theorem Chip.onLamp_pwr (f : Lamp → Lamp) : (c.onLamp f).pwr = c.pwr := rfl
@[simp] theorem Chip.onLamp_wx (f : Lamp → Lamp) : (c.onLamp f).wx = c.wx := rfl
@[simp] theorem Chip.onLamp_quads (f : Lamp → Lamp) : (c.onLamp f).quads = c.quads := rfl
@[simp] theorem Chip.onLamp_ports (f : Lamp → Lamp) : (c.onLamp f).ports = c.ports := rfl
@[simp] theorem Chip.onLamp_tile (f : Lamp → Lamp) : (c.onLamp f).tile = c.tile := rfl
@[simp] theorem Chip.onLamp_pcie (f : Lamp → Lamp) : (c.onLamp f).pcie = c.pcie := rfl
@[simp] theorem Chip.onLamp_gran (f : Lamp → Lamp) : (c.onLamp f).gran = c.gran := rfl
@[simp] theorem Chip.onLamp_well (f : Lamp → Lamp) : (c.onLamp f).well = c.well := rfl
@[simp] theorem Chip.onLamp_mgmt (f : Lamp → Lamp) : (c.onLamp f).mgmt = c.mgmt := rfl
@[simp] theorem Chip.onLamp_switch (f : Lamp → Lamp) : (c.onLamp f).switch = c.switch := rfl
@[simp] theorem Chip.onLamp_store (f : Lamp → Lamp) : (c.onLamp f).store = c.store := rfl
@[simp] theorem Chip.onLamp_gate (f : Lamp → Lamp) : (c.onLamp f).gate = c.gate := rfl
@[simp] theorem Chip.onLamp_twin (f : Lamp → Lamp) : (c.onLamp f).twin = c.twin := rfl
@[simp] theorem Chip.onLamp_upd (f : Lamp → Lamp) : (c.onLamp f).upd = c.upd := rfl
@[simp] theorem Chip.onLamp_scan (f : Lamp → Lamp) : (c.onLamp f).scan = c.scan := rfl
@[simp] theorem Chip.onLamp_ing (f : Lamp → Lamp) : (c.onLamp f).ing = c.ing := rfl
@[simp] theorem Chip.onLamp_loom (f : Lamp → Lamp) : (c.onLamp f).loom = c.loom := rfl
@[simp] theorem Chip.onLamp_nim (f : Lamp → Lamp) : (c.onLamp f).nim = c.nim := rfl
@[simp] theorem Chip.onLamp_lamp (f : Lamp → Lamp) : (c.onLamp f).lamp = f c.lamp := rfl
@[simp] theorem Chip.onLamp_halo (f : Lamp → Lamp) : (c.onLamp f).halo = c.halo := rfl
@[simp] theorem Chip.onLamp_scanHold (f : Lamp → Lamp) : (c.onLamp f).scanHold = c.scanHold := rfl
@[simp] theorem Chip.onLamp_out (f : Lamp → Lamp) : (c.onLamp f).out = c.out := rfl
@[simp] theorem Chip.onLamp_draws (f : Lamp → Lamp) : (c.onLamp f).draws = c.draws := rfl

@[simp] theorem Chip.onHalo_regs (f : Halo → Halo) : (c.onHalo f).regs = c.regs := rfl
@[simp] theorem Chip.onHalo_shadow (f : Halo → Halo) : (c.onHalo f).shadow = c.shadow := rfl
@[simp] theorem Chip.onHalo_age (f : Halo → Halo) : (c.onHalo f).age = c.age := rfl
@[simp] theorem Chip.onHalo_fuses (f : Halo → Halo) : (c.onHalo f).fuses = c.fuses := rfl
@[simp] theorem Chip.onHalo_fab (f : Halo → Halo) : (c.onHalo f).fab = c.fab := rfl
@[simp] theorem Chip.onHalo_bell (f : Halo → Halo) : (c.onHalo f).bell = c.bell := rfl
@[simp] theorem Chip.onHalo_pwr (f : Halo → Halo) : (c.onHalo f).pwr = c.pwr := rfl
@[simp] theorem Chip.onHalo_wx (f : Halo → Halo) : (c.onHalo f).wx = c.wx := rfl
@[simp] theorem Chip.onHalo_quads (f : Halo → Halo) : (c.onHalo f).quads = c.quads := rfl
@[simp] theorem Chip.onHalo_ports (f : Halo → Halo) : (c.onHalo f).ports = c.ports := rfl
@[simp] theorem Chip.onHalo_tile (f : Halo → Halo) : (c.onHalo f).tile = c.tile := rfl
@[simp] theorem Chip.onHalo_pcie (f : Halo → Halo) : (c.onHalo f).pcie = c.pcie := rfl
@[simp] theorem Chip.onHalo_gran (f : Halo → Halo) : (c.onHalo f).gran = c.gran := rfl
@[simp] theorem Chip.onHalo_well (f : Halo → Halo) : (c.onHalo f).well = c.well := rfl
@[simp] theorem Chip.onHalo_mgmt (f : Halo → Halo) : (c.onHalo f).mgmt = c.mgmt := rfl
@[simp] theorem Chip.onHalo_switch (f : Halo → Halo) : (c.onHalo f).switch = c.switch := rfl
@[simp] theorem Chip.onHalo_store (f : Halo → Halo) : (c.onHalo f).store = c.store := rfl
@[simp] theorem Chip.onHalo_gate (f : Halo → Halo) : (c.onHalo f).gate = c.gate := rfl
@[simp] theorem Chip.onHalo_twin (f : Halo → Halo) : (c.onHalo f).twin = c.twin := rfl
@[simp] theorem Chip.onHalo_upd (f : Halo → Halo) : (c.onHalo f).upd = c.upd := rfl
@[simp] theorem Chip.onHalo_scan (f : Halo → Halo) : (c.onHalo f).scan = c.scan := rfl
@[simp] theorem Chip.onHalo_ing (f : Halo → Halo) : (c.onHalo f).ing = c.ing := rfl
@[simp] theorem Chip.onHalo_loom (f : Halo → Halo) : (c.onHalo f).loom = c.loom := rfl
@[simp] theorem Chip.onHalo_nim (f : Halo → Halo) : (c.onHalo f).nim = c.nim := rfl
@[simp] theorem Chip.onHalo_lamp (f : Halo → Halo) : (c.onHalo f).lamp = c.lamp := rfl
@[simp] theorem Chip.onHalo_halo (f : Halo → Halo) : (c.onHalo f).halo = f c.halo := rfl
@[simp] theorem Chip.onHalo_scanHold (f : Halo → Halo) : (c.onHalo f).scanHold = c.scanHold := rfl
@[simp] theorem Chip.onHalo_out (f : Halo → Halo) : (c.onHalo f).out = c.out := rfl
@[simp] theorem Chip.onHalo_draws (f : Halo → Halo) : (c.onHalo f).draws = c.draws := rfl

@[simp] theorem Chip.wr_regs : (c.wr a v).regs = spSet regReset c.regs a v := rfl
@[simp] theorem Chip.wr_shadow : (c.wr a v).shadow = c.shadow := rfl
@[simp] theorem Chip.wr_age : (c.wr a v).age = c.age := rfl
@[simp] theorem Chip.wr_fuses : (c.wr a v).fuses = c.fuses := rfl
@[simp] theorem Chip.wr_fab : (c.wr a v).fab = c.fab := rfl
@[simp] theorem Chip.wr_bell : (c.wr a v).bell = c.bell := rfl
@[simp] theorem Chip.wr_pwr : (c.wr a v).pwr = c.pwr := rfl
@[simp] theorem Chip.wr_wx : (c.wr a v).wx = c.wx := rfl
@[simp] theorem Chip.wr_quads : (c.wr a v).quads = c.quads := rfl
@[simp] theorem Chip.wr_ports : (c.wr a v).ports = c.ports := rfl
@[simp] theorem Chip.wr_tile : (c.wr a v).tile = c.tile := rfl
@[simp] theorem Chip.wr_pcie : (c.wr a v).pcie = c.pcie := rfl
@[simp] theorem Chip.wr_gran : (c.wr a v).gran = c.gran := rfl
@[simp] theorem Chip.wr_well : (c.wr a v).well = c.well := rfl
@[simp] theorem Chip.wr_mgmt : (c.wr a v).mgmt = c.mgmt := rfl
@[simp] theorem Chip.wr_switch : (c.wr a v).switch = c.switch := rfl
@[simp] theorem Chip.wr_store : (c.wr a v).store = c.store := rfl
@[simp] theorem Chip.wr_gate : (c.wr a v).gate = c.gate := rfl
@[simp] theorem Chip.wr_twin : (c.wr a v).twin = c.twin := rfl
@[simp] theorem Chip.wr_upd : (c.wr a v).upd = c.upd := rfl
@[simp] theorem Chip.wr_scan : (c.wr a v).scan = c.scan := rfl
@[simp] theorem Chip.wr_ing : (c.wr a v).ing = c.ing := rfl
@[simp] theorem Chip.wr_loom : (c.wr a v).loom = c.loom := rfl
@[simp] theorem Chip.wr_nim : (c.wr a v).nim = c.nim := rfl
@[simp] theorem Chip.wr_lamp : (c.wr a v).lamp = c.lamp := rfl
@[simp] theorem Chip.wr_halo : (c.wr a v).halo = c.halo := rfl
@[simp] theorem Chip.wr_scanHold : (c.wr a v).scanHold = c.scanHold := rfl
@[simp] theorem Chip.wr_out : (c.wr a v).out = c.out := rfl
@[simp] theorem Chip.wr_draws : (c.wr a v).draws = c.draws := rfl

@[simp] theorem Chip.wrS_regs : (c.wrS a v).regs = c.regs := rfl
@[simp] theorem Chip.wrS_shadow : (c.wrS a v).shadow = spSet regReset c.shadow a v := rfl
@[simp] theorem Chip.wrS_age : (c.wrS a v).age = c.age := rfl
@[simp] theorem Chip.wrS_fuses : (c.wrS a v).fuses = c.fuses := rfl
@[simp] theorem Chip.wrS_fab : (c.wrS a v).fab = c.fab := rfl
@[simp] theorem Chip.wrS_bell : (c.wrS a v).bell = c.bell := rfl
@[simp] theorem Chip.wrS_pwr : (c.wrS a v).pwr = c.pwr := rfl
@[simp] theorem Chip.wrS_wx : (c.wrS a v).wx = c.wx := rfl
@[simp] theorem Chip.wrS_quads : (c.wrS a v).quads = c.quads := rfl
@[simp] theorem Chip.wrS_ports : (c.wrS a v).ports = c.ports := rfl
@[simp] theorem Chip.wrS_tile : (c.wrS a v).tile = c.tile := rfl
@[simp] theorem Chip.wrS_pcie : (c.wrS a v).pcie = c.pcie := rfl
@[simp] theorem Chip.wrS_gran : (c.wrS a v).gran = c.gran := rfl
@[simp] theorem Chip.wrS_well : (c.wrS a v).well = c.well := rfl
@[simp] theorem Chip.wrS_mgmt : (c.wrS a v).mgmt = c.mgmt := rfl
@[simp] theorem Chip.wrS_switch : (c.wrS a v).switch = c.switch := rfl
@[simp] theorem Chip.wrS_store : (c.wrS a v).store = c.store := rfl
@[simp] theorem Chip.wrS_gate : (c.wrS a v).gate = c.gate := rfl
@[simp] theorem Chip.wrS_twin : (c.wrS a v).twin = c.twin := rfl
@[simp] theorem Chip.wrS_upd : (c.wrS a v).upd = c.upd := rfl
@[simp] theorem Chip.wrS_scan : (c.wrS a v).scan = c.scan := rfl
@[simp] theorem Chip.wrS_ing : (c.wrS a v).ing = c.ing := rfl
@[simp] theorem Chip.wrS_loom : (c.wrS a v).loom = c.loom := rfl
@[simp] theorem Chip.wrS_nim : (c.wrS a v).nim = c.nim := rfl
@[simp] theorem Chip.wrS_lamp : (c.wrS a v).lamp = c.lamp := rfl
@[simp] theorem Chip.wrS_halo : (c.wrS a v).halo = c.halo := rfl
@[simp] theorem Chip.wrS_scanHold : (c.wrS a v).scanHold = c.scanHold := rfl
@[simp] theorem Chip.wrS_out : (c.wrS a v).out = c.out := rfl
@[simp] theorem Chip.wrS_draws : (c.wrS a v).draws = c.draws := rfl

@[simp] theorem Chip.emit_regs : (c.emit o).regs = c.regs := rfl
@[simp] theorem Chip.emit_shadow : (c.emit o).shadow = c.shadow := rfl
@[simp] theorem Chip.emit_age : (c.emit o).age = c.age := rfl
@[simp] theorem Chip.emit_fuses : (c.emit o).fuses = c.fuses := rfl
@[simp] theorem Chip.emit_fab : (c.emit o).fab = c.fab := rfl
@[simp] theorem Chip.emit_bell : (c.emit o).bell = c.bell := rfl
@[simp] theorem Chip.emit_pwr : (c.emit o).pwr = c.pwr := rfl
@[simp] theorem Chip.emit_wx : (c.emit o).wx = c.wx := rfl
@[simp] theorem Chip.emit_quads : (c.emit o).quads = c.quads := rfl
@[simp] theorem Chip.emit_ports : (c.emit o).ports = c.ports := rfl
@[simp] theorem Chip.emit_tile : (c.emit o).tile = c.tile := rfl
@[simp] theorem Chip.emit_pcie : (c.emit o).pcie = c.pcie := rfl
@[simp] theorem Chip.emit_gran : (c.emit o).gran = c.gran := rfl
@[simp] theorem Chip.emit_well : (c.emit o).well = c.well := rfl
@[simp] theorem Chip.emit_mgmt : (c.emit o).mgmt = c.mgmt := rfl
@[simp] theorem Chip.emit_switch : (c.emit o).switch = c.switch := rfl
@[simp] theorem Chip.emit_store : (c.emit o).store = c.store := rfl
@[simp] theorem Chip.emit_gate : (c.emit o).gate = c.gate := rfl
@[simp] theorem Chip.emit_twin : (c.emit o).twin = c.twin := rfl
@[simp] theorem Chip.emit_upd : (c.emit o).upd = c.upd := rfl
@[simp] theorem Chip.emit_scan : (c.emit o).scan = c.scan := rfl
@[simp] theorem Chip.emit_ing : (c.emit o).ing = c.ing := rfl
@[simp] theorem Chip.emit_loom : (c.emit o).loom = c.loom := rfl
@[simp] theorem Chip.emit_nim : (c.emit o).nim = c.nim := rfl
@[simp] theorem Chip.emit_lamp : (c.emit o).lamp = c.lamp := rfl
@[simp] theorem Chip.emit_halo : (c.emit o).halo = c.halo := rfl
@[simp] theorem Chip.emit_scanHold : (c.emit o).scanHold = c.scanHold := rfl
@[simp] theorem Chip.emit_out : (c.emit o).out = o :: c.out := rfl
@[simp] theorem Chip.emit_draws : (c.emit o).draws = c.draws := rfl

@[simp] theorem Chip.redraw_regs : (c.redraw).regs = c.regs := rfl
@[simp] theorem Chip.redraw_shadow : (c.redraw).shadow = c.shadow := rfl
@[simp] theorem Chip.redraw_age : (c.redraw).age = c.age := rfl
@[simp] theorem Chip.redraw_fuses : (c.redraw).fuses = c.fuses := rfl
@[simp] theorem Chip.redraw_fab : (c.redraw).fab = c.fab := rfl
@[simp] theorem Chip.redraw_bell : (c.redraw).bell = c.bell := rfl
@[simp] theorem Chip.redraw_pwr : (c.redraw).pwr = c.pwr := rfl
@[simp] theorem Chip.redraw_wx : (c.redraw).wx = c.wx := rfl
@[simp] theorem Chip.redraw_quads : (c.redraw).quads = c.quads := rfl
@[simp] theorem Chip.redraw_ports : (c.redraw).ports = c.ports := rfl
@[simp] theorem Chip.redraw_tile : (c.redraw).tile = c.tile := rfl
@[simp] theorem Chip.redraw_pcie : (c.redraw).pcie = c.pcie := rfl
@[simp] theorem Chip.redraw_gran : (c.redraw).gran = c.gran := rfl
@[simp] theorem Chip.redraw_well : (c.redraw).well = c.well := rfl
@[simp] theorem Chip.redraw_mgmt : (c.redraw).mgmt = c.mgmt := rfl
@[simp] theorem Chip.redraw_switch : (c.redraw).switch = c.switch := rfl
@[simp] theorem Chip.redraw_store : (c.redraw).store = c.store := rfl
@[simp] theorem Chip.redraw_gate : (c.redraw).gate = c.gate := rfl
@[simp] theorem Chip.redraw_twin : (c.redraw).twin = c.twin := rfl
@[simp] theorem Chip.redraw_upd : (c.redraw).upd = c.upd := rfl
@[simp] theorem Chip.redraw_scan : (c.redraw).scan = c.scan := rfl
@[simp] theorem Chip.redraw_ing : (c.redraw).ing = c.ing := rfl
@[simp] theorem Chip.redraw_loom : (c.redraw).loom = c.loom := rfl
@[simp] theorem Chip.redraw_nim : (c.redraw).nim = c.nim := rfl
@[simp] theorem Chip.redraw_lamp : (c.redraw).lamp = c.lamp := rfl
@[simp] theorem Chip.redraw_halo : (c.redraw).halo = c.halo := rfl
@[simp] theorem Chip.redraw_scanHold : (c.redraw).scanHold = c.scanHold := rfl
@[simp] theorem Chip.redraw_out : (c.redraw).out = c.out := rfl
@[simp] theorem Chip.redraw_draws : (c.redraw).draws = c.draws + 1 := rfl

@[simp] theorem Chip.put_shadow : (c.put g n).shadow = c.shadow := rfl
@[simp] theorem Chip.put_age : (c.put g n).age = c.age := rfl
@[simp] theorem Chip.put_fuses : (c.put g n).fuses = c.fuses := rfl
@[simp] theorem Chip.put_fab : (c.put g n).fab = c.fab := rfl
@[simp] theorem Chip.put_bell : (c.put g n).bell = c.bell := rfl
@[simp] theorem Chip.put_pwr : (c.put g n).pwr = c.pwr := rfl
@[simp] theorem Chip.put_wx : (c.put g n).wx = c.wx := rfl
@[simp] theorem Chip.put_quads : (c.put g n).quads = c.quads := rfl
@[simp] theorem Chip.put_ports : (c.put g n).ports = c.ports := rfl
@[simp] theorem Chip.put_tile : (c.put g n).tile = c.tile := rfl
@[simp] theorem Chip.put_pcie : (c.put g n).pcie = c.pcie := rfl
@[simp] theorem Chip.put_gran : (c.put g n).gran = c.gran := rfl
@[simp] theorem Chip.put_well : (c.put g n).well = c.well := rfl
@[simp] theorem Chip.put_mgmt : (c.put g n).mgmt = c.mgmt := rfl
@[simp] theorem Chip.put_switch : (c.put g n).switch = c.switch := rfl
@[simp] theorem Chip.put_store : (c.put g n).store = c.store := rfl
@[simp] theorem Chip.put_gate : (c.put g n).gate = c.gate := rfl
@[simp] theorem Chip.put_twin : (c.put g n).twin = c.twin := rfl
@[simp] theorem Chip.put_upd : (c.put g n).upd = c.upd := rfl
@[simp] theorem Chip.put_scan : (c.put g n).scan = c.scan := rfl
@[simp] theorem Chip.put_ing : (c.put g n).ing = c.ing := rfl
@[simp] theorem Chip.put_loom : (c.put g n).loom = c.loom := rfl
@[simp] theorem Chip.put_nim : (c.put g n).nim = c.nim := rfl
@[simp] theorem Chip.put_lamp : (c.put g n).lamp = c.lamp := rfl
@[simp] theorem Chip.put_halo : (c.put g n).halo = c.halo := rfl
@[simp] theorem Chip.put_scanHold : (c.put g n).scanHold = c.scanHold := rfl
@[simp] theorem Chip.put_out : (c.put g n).out = c.out := rfl
@[simp] theorem Chip.put_draws : (c.put g n).draws = c.draws := rfl

@[simp] theorem Chip.setNat_shadow : (c.setNat a n).shadow = c.shadow := rfl
@[simp] theorem Chip.setNat_age : (c.setNat a n).age = c.age := rfl
@[simp] theorem Chip.setNat_fuses : (c.setNat a n).fuses = c.fuses := rfl
@[simp] theorem Chip.setNat_fab : (c.setNat a n).fab = c.fab := rfl
@[simp] theorem Chip.setNat_bell : (c.setNat a n).bell = c.bell := rfl
@[simp] theorem Chip.setNat_pwr : (c.setNat a n).pwr = c.pwr := rfl
@[simp] theorem Chip.setNat_wx : (c.setNat a n).wx = c.wx := rfl
@[simp] theorem Chip.setNat_quads : (c.setNat a n).quads = c.quads := rfl
@[simp] theorem Chip.setNat_ports : (c.setNat a n).ports = c.ports := rfl
@[simp] theorem Chip.setNat_tile : (c.setNat a n).tile = c.tile := rfl
@[simp] theorem Chip.setNat_pcie : (c.setNat a n).pcie = c.pcie := rfl
@[simp] theorem Chip.setNat_gran : (c.setNat a n).gran = c.gran := rfl
@[simp] theorem Chip.setNat_well : (c.setNat a n).well = c.well := rfl
@[simp] theorem Chip.setNat_mgmt : (c.setNat a n).mgmt = c.mgmt := rfl
@[simp] theorem Chip.setNat_switch : (c.setNat a n).switch = c.switch := rfl
@[simp] theorem Chip.setNat_store : (c.setNat a n).store = c.store := rfl
@[simp] theorem Chip.setNat_gate : (c.setNat a n).gate = c.gate := rfl
@[simp] theorem Chip.setNat_twin : (c.setNat a n).twin = c.twin := rfl
@[simp] theorem Chip.setNat_upd : (c.setNat a n).upd = c.upd := rfl
@[simp] theorem Chip.setNat_scan : (c.setNat a n).scan = c.scan := rfl
@[simp] theorem Chip.setNat_ing : (c.setNat a n).ing = c.ing := rfl
@[simp] theorem Chip.setNat_loom : (c.setNat a n).loom = c.loom := rfl
@[simp] theorem Chip.setNat_nim : (c.setNat a n).nim = c.nim := rfl
@[simp] theorem Chip.setNat_lamp : (c.setNat a n).lamp = c.lamp := rfl
@[simp] theorem Chip.setNat_halo : (c.setNat a n).halo = c.halo := rfl
@[simp] theorem Chip.setNat_scanHold : (c.setNat a n).scanHold = c.scanHold := rfl
@[simp] theorem Chip.setNat_out : (c.setNat a n).out = c.out := rfl
@[simp] theorem Chip.setNat_draws : (c.setNat a n).draws = c.draws := rfl

@[simp] theorem Chip.countBy_shadow : (c.countBy a n).shadow = c.shadow := rfl
@[simp] theorem Chip.countBy_age : (c.countBy a n).age = c.age := rfl
@[simp] theorem Chip.countBy_fuses : (c.countBy a n).fuses = c.fuses := rfl
@[simp] theorem Chip.countBy_fab : (c.countBy a n).fab = c.fab := rfl
@[simp] theorem Chip.countBy_bell : (c.countBy a n).bell = c.bell := rfl
@[simp] theorem Chip.countBy_pwr : (c.countBy a n).pwr = c.pwr := rfl
@[simp] theorem Chip.countBy_wx : (c.countBy a n).wx = c.wx := rfl
@[simp] theorem Chip.countBy_quads : (c.countBy a n).quads = c.quads := rfl
@[simp] theorem Chip.countBy_ports : (c.countBy a n).ports = c.ports := rfl
@[simp] theorem Chip.countBy_tile : (c.countBy a n).tile = c.tile := rfl
@[simp] theorem Chip.countBy_pcie : (c.countBy a n).pcie = c.pcie := rfl
@[simp] theorem Chip.countBy_gran : (c.countBy a n).gran = c.gran := rfl
@[simp] theorem Chip.countBy_well : (c.countBy a n).well = c.well := rfl
@[simp] theorem Chip.countBy_mgmt : (c.countBy a n).mgmt = c.mgmt := rfl
@[simp] theorem Chip.countBy_switch : (c.countBy a n).switch = c.switch := rfl
@[simp] theorem Chip.countBy_store : (c.countBy a n).store = c.store := rfl
@[simp] theorem Chip.countBy_gate : (c.countBy a n).gate = c.gate := rfl
@[simp] theorem Chip.countBy_twin : (c.countBy a n).twin = c.twin := rfl
@[simp] theorem Chip.countBy_upd : (c.countBy a n).upd = c.upd := rfl
@[simp] theorem Chip.countBy_scan : (c.countBy a n).scan = c.scan := rfl
@[simp] theorem Chip.countBy_ing : (c.countBy a n).ing = c.ing := rfl
@[simp] theorem Chip.countBy_loom : (c.countBy a n).loom = c.loom := rfl
@[simp] theorem Chip.countBy_nim : (c.countBy a n).nim = c.nim := rfl
@[simp] theorem Chip.countBy_lamp : (c.countBy a n).lamp = c.lamp := rfl
@[simp] theorem Chip.countBy_halo : (c.countBy a n).halo = c.halo := rfl
@[simp] theorem Chip.countBy_scanHold : (c.countBy a n).scanHold = c.scanHold := rfl
@[simp] theorem Chip.countBy_out : (c.countBy a n).out = c.out := rfl
@[simp] theorem Chip.countBy_draws : (c.countBy a n).draws = c.draws := rfl

@[simp] theorem Chip.count_shadow : (c.count a).shadow = c.shadow := rfl
@[simp] theorem Chip.count_age : (c.count a).age = c.age := rfl
@[simp] theorem Chip.count_fuses : (c.count a).fuses = c.fuses := rfl
@[simp] theorem Chip.count_fab : (c.count a).fab = c.fab := rfl
@[simp] theorem Chip.count_bell : (c.count a).bell = c.bell := rfl
@[simp] theorem Chip.count_pwr : (c.count a).pwr = c.pwr := rfl
@[simp] theorem Chip.count_wx : (c.count a).wx = c.wx := rfl
@[simp] theorem Chip.count_quads : (c.count a).quads = c.quads := rfl
@[simp] theorem Chip.count_ports : (c.count a).ports = c.ports := rfl
@[simp] theorem Chip.count_tile : (c.count a).tile = c.tile := rfl
@[simp] theorem Chip.count_pcie : (c.count a).pcie = c.pcie := rfl
@[simp] theorem Chip.count_gran : (c.count a).gran = c.gran := rfl
@[simp] theorem Chip.count_well : (c.count a).well = c.well := rfl
@[simp] theorem Chip.count_mgmt : (c.count a).mgmt = c.mgmt := rfl
@[simp] theorem Chip.count_switch : (c.count a).switch = c.switch := rfl
@[simp] theorem Chip.count_store : (c.count a).store = c.store := rfl
@[simp] theorem Chip.count_gate : (c.count a).gate = c.gate := rfl
@[simp] theorem Chip.count_twin : (c.count a).twin = c.twin := rfl
@[simp] theorem Chip.count_upd : (c.count a).upd = c.upd := rfl
@[simp] theorem Chip.count_scan : (c.count a).scan = c.scan := rfl
@[simp] theorem Chip.count_ing : (c.count a).ing = c.ing := rfl
@[simp] theorem Chip.count_loom : (c.count a).loom = c.loom := rfl
@[simp] theorem Chip.count_nim : (c.count a).nim = c.nim := rfl
@[simp] theorem Chip.count_lamp : (c.count a).lamp = c.lamp := rfl
@[simp] theorem Chip.count_halo : (c.count a).halo = c.halo := rfl
@[simp] theorem Chip.count_scanHold : (c.count a).scanHold = c.scanHold := rfl
@[simp] theorem Chip.count_out : (c.count a).out = c.out := rfl
@[simp] theorem Chip.count_draws : (c.count a).draws = c.draws := rfl

@[simp] theorem Chip.countF_shadow : (c.countF g).shadow = c.shadow := rfl
@[simp] theorem Chip.countF_age : (c.countF g).age = c.age := rfl
@[simp] theorem Chip.countF_fuses : (c.countF g).fuses = c.fuses := rfl
@[simp] theorem Chip.countF_fab : (c.countF g).fab = c.fab := rfl
@[simp] theorem Chip.countF_bell : (c.countF g).bell = c.bell := rfl
@[simp] theorem Chip.countF_pwr : (c.countF g).pwr = c.pwr := rfl
@[simp] theorem Chip.countF_wx : (c.countF g).wx = c.wx := rfl
@[simp] theorem Chip.countF_quads : (c.countF g).quads = c.quads := rfl
@[simp] theorem Chip.countF_ports : (c.countF g).ports = c.ports := rfl
@[simp] theorem Chip.countF_tile : (c.countF g).tile = c.tile := rfl
@[simp] theorem Chip.countF_pcie : (c.countF g).pcie = c.pcie := rfl
@[simp] theorem Chip.countF_gran : (c.countF g).gran = c.gran := rfl
@[simp] theorem Chip.countF_well : (c.countF g).well = c.well := rfl
@[simp] theorem Chip.countF_mgmt : (c.countF g).mgmt = c.mgmt := rfl
@[simp] theorem Chip.countF_switch : (c.countF g).switch = c.switch := rfl
@[simp] theorem Chip.countF_store : (c.countF g).store = c.store := rfl
@[simp] theorem Chip.countF_gate : (c.countF g).gate = c.gate := rfl
@[simp] theorem Chip.countF_twin : (c.countF g).twin = c.twin := rfl
@[simp] theorem Chip.countF_upd : (c.countF g).upd = c.upd := rfl
@[simp] theorem Chip.countF_scan : (c.countF g).scan = c.scan := rfl
@[simp] theorem Chip.countF_ing : (c.countF g).ing = c.ing := rfl
@[simp] theorem Chip.countF_loom : (c.countF g).loom = c.loom := rfl
@[simp] theorem Chip.countF_nim : (c.countF g).nim = c.nim := rfl
@[simp] theorem Chip.countF_lamp : (c.countF g).lamp = c.lamp := rfl
@[simp] theorem Chip.countF_halo : (c.countF g).halo = c.halo := rfl
@[simp] theorem Chip.countF_scanHold : (c.countF g).scanHold = c.scanHold := rfl
@[simp] theorem Chip.countF_out : (c.countF g).out = c.out := rfl
@[simp] theorem Chip.countF_draws : (c.countF g).draws = c.draws := rfl

end

end Sys2Proof.Machine
end

