-- ==== Sys2Proof/Laws/Store.lean ====
section
/-!
SUPPORT. Sparse stores: a read after a write, and that every operation on a store or byte memory keeps its canonical form.
-/

namespace Sys2Proof.Machine

section Reads

variable {α : Type} (d : Nat → α)

@[simp] theorem spGet_nil (a : Nat) : spGet d [] a = d a := rfl

theorem spGet_spDel (m : List (Nat × α)) (a b : Nat) :
    spGet d (spDel m a) b = if b = a then d a else spGet d m b := by
  induction m with
  | nil => simp only [spDel, spGet_nil]; split <;> simp_all
  | cons p r ih =>
    obtain ⟨k, v⟩ := p
    simp only [spDel, spGet]
    by_cases hk : a = k
    · subst hk
      simp only [if_true, ih]
      by_cases hb : b = a <;> simp [hb]
    · simp only [if_neg hk, spGet, ih]
      by_cases hb : b = a
      · subst hb; simp [hk]
      · simp [hb]

theorem spGet_spIns (m : List (Nat × α)) (a b : Nat) (v : α) :
    spGet d (spIns m a v) b = if b = a then v else spGet d m b := by
  induction m with
  | nil => simp [spIns, spGet]
  | cons p r ih =>
    obtain ⟨k, w⟩ := p
    simp only [spIns]
    by_cases hlt : a < k
    · simp [hlt, spGet]
    · by_cases hk : a = k
      · subst hk
        simp only [hlt, if_false, if_true, spGet]
        by_cases hb : b = a <;> simp [hb]
      · simp only [hlt, if_false, hk, spGet, ih]
        by_cases hb : b = a
        · subst hb; simp [hk]
        · simp [hb]

/-- A read after a write: the value written at its key, everything else as before. -/
theorem spGet_spSet [DecidableEq α] (m : List (Nat × α)) (a b : Nat) (v : α) :
    spGet d (spSet d m a v) b = if b = a then v else spGet d m b := by
  simp only [spSet]
  split
  · rename_i h
    rw [spGet_spDel]; simp [h]
  · rw [spGet_spIns]

@[simp] theorem spGet_spSet_same [DecidableEq α] (m : List (Nat × α)) (a : Nat) (v : α) :
    spGet d (spSet d m a v) a = v := by simp [spGet_spSet]

theorem spGet_spSet_ne [DecidableEq α] (m : List (Nat × α)) {a b : Nat} (v : α) (h : b ≠ a) :
    spGet d (spSet d m a v) b = spGet d m b := by simp [spGet_spSet, h]

theorem spGet_spKeep (p : Nat → Bool) (m : List (Nat × α)) (b : Nat) :
    spGet d (spKeep p m) b = if p b then spGet d m b else d b := by
  induction m with
  | nil => simp [spKeep]
  | cons q r ih =>
    obtain ⟨k, v⟩ := q
    simp only [spKeep]
    by_cases hp : p k
    · by_cases hb : b = k
      · subst hb; simp [spGet, hp]
      · simp [spGet, hp, hb, ih]
    · by_cases hb : b = k
      · subst hb; simp [hp, ih]
      · simp [hp, spGet, hb, ih]

/-- A read after a list of entries was written: what the list reads as where it has the key, else as before. -/
theorem spGet_spSetAll [DecidableEq α] (l m : List (Nat × α)) (b : Nat) :
    spGet d (spSetAll d m l) b = if l.any (fun q => q.1 == b) then spGet d l b else spGet d m b := by
  induction l with
  | nil => simp [spSetAll]
  | cons q r ih =>
    obtain ⟨k, v⟩ := q
    simp only [spSetAll, spGet_spSet, ih, List.any_cons, spGet]
    by_cases hb : b = k
    · subst hb; simp
    · have : (k == b) = false := by simp; omega
      simp only [if_neg hb, this, Bool.false_or]

theorem spGet_append_of_not_mem (m n : List (Nat × α)) (b : Nat) (h : ∀ q ∈ m, q.1 ≠ b) :
    spGet d (m ++ n) b = spGet d n b := by
  induction m with
  | nil => rfl
  | cons q r ih =>
    obtain ⟨k, v⟩ := q
    have hk : b ≠ k := fun e => h (k, v) (by simp) e.symm
    simp only [List.cons_append, spGet, if_neg hk]
    exact ih fun q hq => h q (by simp [hq])

theorem spGet_append_default (m n : List (Nat × α)) (b : Nat) (h : ∀ q ∈ n, q.1 ≠ b) :
    spGet d (m ++ n) b = spGet d m b := by
  induction m with
  | nil =>
    induction n with
    | nil => rfl
    | cons q r ih =>
      obtain ⟨k, v⟩ := q
      have hk : b ≠ k := fun e => h (k, v) (by simp) e.symm
      simp only [List.nil_append, spGet, if_neg hk]
      exact ih fun q hq => h q (by simp [hq])
  | cons q r ih =>
    obtain ⟨k, v⟩ := q
    simp only [List.cons_append, spGet, ih]

theorem mem_spKeep (p : Nat → Bool) (m : List (Nat × α)) (q : Nat × α) :
    q ∈ spKeep p m ↔ q ∈ m ∧ p q.1 = true := by
  induction m with
  | nil => simp [spKeep]
  | cons r s ih =>
    obtain ⟨k, v⟩ := r
    simp only [spKeep]
    split
    · rename_i hk
      simp only [List.mem_cons, ih]
      constructor
      · rintro (rfl | h)
        · exact ⟨.inl rfl, hk⟩
        · exact ⟨.inr h.1, h.2⟩
      · rintro ⟨rfl | h, h2⟩
        · exact .inl rfl
        · exact .inr ⟨h, h2⟩
    · rename_i hk
      simp only [List.mem_cons, ih]
      constructor
      · rintro ⟨h1, h2⟩; exact ⟨.inr h1, h2⟩
      · rintro ⟨rfl | h, h2⟩
        · exact absurd h2 hk
        · exact ⟨h, h2⟩

end Reads

section Bytes

theorem mem_memCells (l : List Byte) (a : Nat) (q : Nat × Byte) (h : q ∈ memCells a l) :
    a ≤ q.1 ∧ q.1 < a + l.length := by
  induction l generalizing a with
  | nil => simp [memCells] at h
  | cons b r ih =>
    simp only [memCells] at h
    split at h
    · have := ih (a + 1) h; simp only [List.length_cons]; omega
    · rcases List.mem_cons.1 h with rfl | h
      · simp
      · have := ih (a + 1) h; simp only [List.length_cons]; omega

theorem spGet_memCells (l : List Byte) (a k : Nat) :
    spGet memZero (memCells a l) (a + k) = l.getD k 0 := by
  induction l generalizing a k with
  | nil => simp [memCells, memZero]
  | cons b r ih =>
    cases k with
    | zero =>
      simp only [memCells, Nat.add_zero, List.getD_cons_zero]
      split
      · rename_i hb
        have : spGet memZero (memCells (a + 1) r ++ []) a = spGet memZero [] a :=
          spGet_append_of_not_mem _ _ _ _ fun q hq => by have := mem_memCells r (a + 1) q hq; omega
        simp only [List.append_nil, spGet_nil] at this
        rw [this, hb]; rfl
      · simp [spGet]
    | succ k =>
      have e : a + (k + 1) = a + 1 + k := by omega
      simp only [memCells, List.getD_cons_succ]
      split
      · rw [e, ih]
      · have hne : a + 1 + k ≠ a := by omega
        rw [e]
        simp only [spGet, if_neg hne, ih]

/-- A byte read after bytes were written: inside them the byte written, outside as before. -/
theorem memRd_memPut (m : Mem) (a : Nat) (l : List Byte) (b : Nat) :
    memRd (memPut m a l) b = if a ≤ b ∧ b < a + l.length then l.getD (b - a) 0 else memRd m b := by
  simp only [memRd, memPut]
  by_cases h1 : b < a
  · have hh : ∀ q ∈ memCells a l ++ spKeep (fun k => decide (a + l.length ≤ k)) m, q.1 ≠ b := by
      intro q hq
      rcases List.mem_append.1 hq with hq | hq
      · have := mem_memCells l a q hq; omega
      · have := ((mem_spKeep _ _ _).1 hq).2; simp only [decide_eq_true_eq] at this; omega
    rw [spGet_append_default _ _ _ _ hh, spGet_spKeep]
    have : ¬ (a ≤ b ∧ b < a + l.length) := by omega
    simp [h1, this]
  · have hh : ∀ q ∈ spKeep (fun k => decide (k < a)) m, q.1 ≠ b := by
      intro q hq
      have := ((mem_spKeep _ _ _).1 hq).2; simp only [decide_eq_true_eq] at this; omega
    rw [spGet_append_of_not_mem _ _ _ _ hh]
    by_cases h2 : b < a + l.length
    · have hh2 : ∀ q ∈ spKeep (fun k => decide (a + l.length ≤ k)) m, q.1 ≠ b := by
        intro q hq
        have := ((mem_spKeep _ _ _).1 hq).2; simp only [decide_eq_true_eq] at this; omega
      rw [spGet_append_default _ _ _ _ hh2]
      obtain ⟨k, rfl⟩ : ∃ k, b = a + k := ⟨b - a, by omega⟩
      rw [spGet_memCells]
      have h3 : a ≤ a + k ∧ a + k < a + l.length := by omega
      simp [h3]
    · have hh2 : ∀ q ∈ memCells a l, q.1 ≠ b := by
        intro q hq
        have := mem_memCells l a q hq; omega
      rw [spGet_append_of_not_mem _ _ _ _ hh2, spGet_spKeep]
      have h3 : ¬ (a ≤ b ∧ b < a + l.length) := by omega
      have h4 : a + l.length ≤ b := by omega
      simp [h3, h4]

/-- A byte read after one byte was written. -/
theorem memRd_memWr (m : Mem) (a b : Nat) (v : Byte) :
    memRd (memWr m a v) b = if b = a then v else memRd m b := spGet_spSet memZero m a b v

@[simp] theorem memBytes_length (m : Mem) (a n : Nat) : (memBytes m a n).length = n := by
  induction n generalizing a with
  | zero => rfl
  | succ n ih => simp [memBytes, ih]

theorem memBytes_getD (m : Mem) (a n k : Nat) (h : k < n) : (memBytes m a n).getD k 0 = memRd m (a + k) := by
  induction n generalizing a k with
  | zero => omega
  | succ n ih =>
    cases k with
    | zero => simp [memBytes]
    | succ k =>
      simp only [memBytes, List.getD_cons_succ]
      rw [ih (a + 1) k (by omega)]
      congr 1; omega

/-- Bytes written and read back are the bytes written. -/
theorem memBytes_memPut (m : Mem) (a : Nat) (l : List Byte) : memBytes (memPut m a l) a l.length = l := by
  apply List.ext_getElem
  · simp
  · intro k h1 h2
    have := memBytes_getD (memPut m a l) a l.length k h2
    rw [memRd_memPut] at this
    have h3 : a ≤ a + k ∧ a + k < a + l.length := by omega
    simp only [h3, and_self, if_true, Nat.add_sub_cancel_left] at this
    rw [List.getD_eq_getElem _ _ h1, List.getD_eq_getElem _ _ h2] at this
    exact this

@[simp] theorem leBytes_length (n v : Nat) : (leBytes n v).length = n := by
  induction n generalizing v with
  | zero => rfl
  | succ n ih => simp [leBytes, ih]

theorem leNat_leBytes (n v : Nat) : leNat (leBytes n v) = v % 256 ^ n := by
  induction n generalizing v with
  | zero => simp [leBytes, leNat, Nat.mod_one]
  | succ n ih =>
    have e : (256 : Nat) ^ (n + 1) = 256 * 256 ^ n := by rw [Nat.pow_succ, Nat.mul_comm]
    rw [e, Nat.mod_mul]
    simp [leBytes, leNat, ih]

end Bytes

section Form

variable {α : Type} [DecidableEq α] (d : Nat → α)

theorem spWfFrom_mono {lo lo' : Nat} (h : lo' ≤ lo) (m : List (Nat × α)) :
    spWfFrom d lo m = true → spWfFrom d lo' m = true := by
  cases m with
  | nil => simp [spWfFrom]
  | cons q r =>
    obtain ⟨k, v⟩ := q
    simp only [spWfFrom, Bool.and_eq_true, decide_eq_true_eq]
    rintro ⟨⟨h1, h2⟩, h3⟩
    exact ⟨⟨by omega, h2⟩, h3⟩

theorem spWfFrom_spDel (lo : Nat) (m : List (Nat × α)) (a : Nat) :
    spWfFrom d lo m = true → spWfFrom d lo (spDel m a) = true := by
  induction m generalizing lo with
  | nil => simp [spDel]
  | cons q r ih =>
    obtain ⟨k, v⟩ := q
    simp only [spWfFrom, spDel, Bool.and_eq_true, decide_eq_true_eq]
    rintro ⟨⟨h1, h2⟩, h3⟩
    split
    · exact spWfFrom_mono d (by omega) _ (ih (k + 1) h3)
    · simp only [spWfFrom, Bool.and_eq_true, decide_eq_true_eq]
      exact ⟨⟨h1, h2⟩, ih (k + 1) h3⟩

theorem spWfFrom_spIns (lo : Nat) (m : List (Nat × α)) (a : Nat) (v : α) (hlo : lo ≤ a) (hv : v ≠ d a) :
    spWfFrom d lo m = true → spWfFrom d lo (spIns m a v) = true := by
  induction m generalizing lo with
  | nil =>
    intro _
    simp [spIns, spWfFrom, hlo, hv]
  | cons q r ih =>
    obtain ⟨k, w⟩ := q
    simp only [spWfFrom, spIns, Bool.and_eq_true, decide_eq_true_eq]
    rintro ⟨⟨h1, h2⟩, h3⟩
    split
    · simp only [spWfFrom, Bool.and_eq_true, decide_eq_true_eq]
      exact ⟨⟨hlo, hv⟩, ⟨by omega, h2⟩, h3⟩
    · split
      · rename_i _ e
        subst e
        simp only [spWfFrom, Bool.and_eq_true, decide_eq_true_eq]
        exact ⟨⟨h1, hv⟩, h3⟩
      · simp only [spWfFrom, Bool.and_eq_true, decide_eq_true_eq]
        exact ⟨⟨h1, h2⟩, ih (k + 1) (by omega) h3⟩

/-- A write keeps the canonical form. -/
theorem spWf_spSet (m : List (Nat × α)) (a : Nat) (v : α) : spWf d m = true → spWf d (spSet d m a v) = true := by
  intro h
  simp only [spSet, spWf] at *
  split
  · exact spWfFrom_spDel d 0 m a h
  · exact spWfFrom_spIns d 0 m a v (by omega) (by assumption) h

theorem spWfFrom_spKeep (lo : Nat) (p : Nat → Bool) (m : List (Nat × α)) :
    spWfFrom d lo m = true → spWfFrom d lo (spKeep p m) = true := by
  induction m generalizing lo with
  | nil => simp [spKeep]
  | cons q r ih =>
    obtain ⟨k, v⟩ := q
    simp only [spWfFrom, spKeep, Bool.and_eq_true, decide_eq_true_eq]
    rintro ⟨⟨h1, h2⟩, h3⟩
    split
    · simp only [spWfFrom, Bool.and_eq_true, decide_eq_true_eq]
      exact ⟨⟨h1, h2⟩, ih (k + 1) h3⟩
    · exact spWfFrom_mono d (by omega) _ (ih (k + 1) h3)

/-- Keeping some entries keeps the canonical form. -/
theorem spWf_spKeep (p : Nat → Bool) (m : List (Nat × α)) : spWf d m = true → spWf d (spKeep p m) = true :=
  spWfFrom_spKeep d 0 p m

/-- Writing a list of entries keeps the canonical form. -/
theorem spWf_spSetAll (l m : List (Nat × α)) : spWf d m = true → spWf d (spSetAll d m l) = true := by
  induction l generalizing m with
  | nil => simp [spSetAll]
  | cons q r ih =>
    obtain ⟨k, v⟩ := q
    intro h
    exact spWf_spSet d _ k v (ih m h)

theorem spWfFrom_append {lo mid : Nat} (m n : List (Nat × α)) (hm : ∀ q ∈ m, q.1 < mid) (hle : lo ≤ mid) :
    spWfFrom d lo m = true → spWfFrom d mid n = true → spWfFrom d lo (m ++ n) = true := by
  induction m generalizing lo with
  | nil => intro _ h; exact spWfFrom_mono d hle _ h
  | cons q r ih =>
    obtain ⟨k, v⟩ := q
    simp only [spWfFrom, List.cons_append, Bool.and_eq_true, decide_eq_true_eq]
    rintro ⟨⟨h1, h2⟩, h3⟩ hn
    have hk : k < mid := hm (k, v) (by simp)
    exact ⟨⟨h1, h2⟩, ih (fun q hq => hm q (by simp [hq])) (by omega) h3 hn⟩

theorem spWfFrom_raise {lo : Nat} (mid : Nat) (m : List (Nat × α)) (hm : ∀ q ∈ m, mid ≤ q.1) :
    spWfFrom d lo m = true → spWfFrom d mid m = true := by
  cases m with
  | nil => simp [spWfFrom]
  | cons q r =>
    obtain ⟨k, v⟩ := q
    simp only [spWfFrom, Bool.and_eq_true, decide_eq_true_eq]
    rintro ⟨⟨_, h2⟩, h3⟩
    exact ⟨⟨hm (k, v) (by simp), h2⟩, h3⟩

end Form

theorem spWfFrom_memCells (l : List Byte) (a : Nat) : spWfFrom memZero a (memCells a l) = true := by
  induction l generalizing a with
  | nil => rfl
  | cons b r ih =>
    simp only [memCells]
    split
    · exact spWfFrom_mono memZero (by omega) _ (ih (a + 1))
    · rename_i hb
      simp only [spWfFrom, Bool.and_eq_true, decide_eq_true_eq, Nat.le_refl, true_and]
      exact ⟨hb, ih (a + 1)⟩

/-- One byte written keeps a memory's canonical form. -/
theorem memWf_memWr (m : Mem) (a : Nat) (v : Byte) : memWf m = true → memWf (memWr m a v) = true :=
  spWf_spSet memZero m a v

/-- Bytes written keep a memory's canonical form. -/
theorem memWf_memPut (m : Mem) (a : Nat) (l : List Byte) : memWf m = true → memWf (memPut m a l) = true := by
  intro h
  simp only [memWf, spWf] at *
  refine spWfFrom_append (mid := a) _ _ _ ?_ (by omega) (spWfFrom_spKeep _ 0 _ m h) ?_
  · intro q hq
    simpa using ((mem_spKeep _ _ _).1 hq).2
  · refine spWfFrom_append (mid := a + l.length) _ _ _ ?_ (by omega) (spWfFrom_memCells l a) ?_
    · intro q hq; exact (mem_memCells l a q hq).2
    · refine spWfFrom_raise (lo := 0) _ _ _ ?_ (spWfFrom_spKeep _ 0 _ m h)
      intro q hq
      simpa using ((mem_spKeep _ _ _).1 hq).2

/-- Keeping part of a memory keeps its canonical form. -/
theorem memWf_spKeep (p : Nat → Bool) (m : Mem) : memWf m = true → memWf (spKeep p m) = true := spWf_spKeep memZero p m

end Sys2Proof.Machine
end

