-- ==== Sys2Proof/Laws/Ops.lean ====
section
/-!
SUPPORT. What the named operations do to registers, once for each: a read after a write, fields, counters, events, rejections,
and what follows every command.
-/

namespace Sys2Proof.Machine

/-! ### Registers and fields -/

/-- A register read after a register was stored. -/
theorem Chip.rd_wr (c : Chip) (a b : Nat) (v : Word) : (c.wr a v).rd b = if b = a then v else c.rd b :=
  spGet_spSet regReset c.regs a b v

@[simp] theorem Chip.rd_wr_same (c : Chip) (a : Nat) (v : Word) : (c.wr a v).rd a = v := by simp [Chip.rd_wr]

theorem Chip.rd_wr_ne (c : Chip) {a b : Nat} (v : Word) (h : b ≠ a) : (c.wr a v).rd b = c.rd b := by
  simp [Chip.rd_wr, h]

/-- A shadow read after a shadow was stored. -/
theorem Chip.rdS_wrS (c : Chip) (a b : Nat) (v : Word) : (c.wrS a v).rdS b = if b = a then v else c.rdS b :=
  spGet_spSet regReset c.shadow a b v

theorem Chip.rd_wrS (c : Chip) (a b : Nat) (v : Word) : (c.wrS a v).rd b = c.rd b := rfl

theorem Chip.rdS_wr (c : Chip) (a b : Nat) (v : Word) : (c.wr a v).rdS b = c.rdS b := rfl

/-- A register read after a field was stored. -/
theorem Chip.rd_put (c : Chip) (f : Fld) (n b : Nat) :
    (c.put f n).rd b = if b = f.reg then withBits (c.rd f.reg) f.hi f.lo n else c.rd b := Chip.rd_wr c _ _ _

theorem Chip.rd_put_ne (c : Chip) (f : Fld) (n : Nat) {b : Nat} (h : b ≠ f.reg) : (c.put f n).rd b = c.rd b := by
  simp [Chip.rd_put, h]

/-- A field reads what was stored in it, cut to its width. -/
theorem Chip.get_put_same (c : Chip) (f : Fld) (n : Nat) (h : f.hi < 32) :
    (c.put f n).get f = n % 2 ^ (f.hi + 1 - f.lo) := by
  simp only [Chip.get, Chip.rd_put, if_true]
  exact bitsOf_withBits_same _ _ _ _ h

/-- Storing a field leaves every field that shares no bit with it. -/
theorem Chip.get_put_other (c : Chip) (f g : Fld) (n : Nat) (h : g.reg ≠ f.reg ∨ g.hi < f.lo ∨ f.hi < g.lo) :
    (c.put f n).get g = c.get g := by
  simp only [Chip.get, Chip.rd_put]
  split
  · rename_i e
    rw [bitsOf_withBits_other _ _ _ _ _ _ (h.resolve_left fun k => k e), e]
  · rfl

theorem Chip.get_wr_ne (c : Chip) (f : Fld) {a : Nat} (v : Word) (h : f.reg ≠ a) : (c.wr a v).get f = c.get f := by
  simp only [Chip.get, Chip.rd_wr_ne c v h]

theorem Chip.rd_setNat (c : Chip) (a b n : Nat) :
    (c.setNat a n).rd b = if b = a then BitVec.ofNat 32 n else c.rd b := Chip.rd_wr c _ _ _

/-- A counter saturates at 0xFFFF_FFFF. -/
theorem Chip.nat_countBy_same (c : Chip) (a n : Nat) : (c.countBy a n).nat a = min (c.nat a + n) 0xffffffff := by
  simp only [Chip.countBy, Chip.nat, Chip.rd_setNat, if_true, BitVec.toNat_ofNat]
  apply Nat.mod_eq_of_lt
  omega

theorem Chip.rd_countBy_ne (c : Chip) {a b : Nat} (n : Nat) (h : b ≠ a) : (c.countBy a n).rd b = c.rd b := by
  simp [Chip.countBy, Chip.rd_setNat, h]

@[simp] theorem Chip.when_true (c : Chip) (f : Chip → Chip) : c.when true f = f c := rfl

@[simp] theorem Chip.when_false (c : Chip) (f : Chip → Chip) : c.when false f = c := rfl

@[simp] theorem Chip.each_nil {α : Type} (c : Chip) (f : Chip → α → Chip) : c.each [] f = c := rfl

@[simp] theorem Chip.each_cons {α : Type} (c : Chip) (x : α) (l : List α) (f : Chip → α → Chip) :
    c.each (x :: l) f = (f c x).each l f := rfl

/-- What every element of a list keeps, the list keeps. -/
theorem Chip.each_induct {α : Type} (P : Chip → Prop) (f : Chip → α → Chip) (l : List α)
    (h : ∀ c x, P c → P (f c x)) (c : Chip) (hc : P c) : P (c.each l f) := by
  induction l generalizing c with
  | nil => exact hc
  | cons x r ih => exact ih (f c x) (h c x hc)

/-! ### What follows every command -/

/-- Two parts that differ in nothing but the Crier's record of MSI-X, what was sent, and the management channel's record of
NOTIFYs. -/
def sameButSent (c d : Chip) : Prop :=
  ∃ fab out mgmt, d = { c with fab := fab, out := out, mgmt := mgmt } ∧
    fab = { c.fab with vecSeen := fab.vecSeen, vecHeld := fab.vecHeld } ∧
    mgmt = { c.mgmt with notified := mgmt.notified }

theorem sameButSent.refl (c : Chip) : sameButSent c c := ⟨c.fab, c.out, c.mgmt, rfl, rfl, rfl⟩

theorem sameButSent.trans {c d e : Chip} (h : sameButSent c d) (k : sameButSent d e) : sameButSent c e := by
  obtain ⟨f1, o1, m1, rfl, hf1, hm1⟩ := h
  obtain ⟨f2, o2, m2, rfl, hf2, hm2⟩ := k
  refine ⟨f2, o2, m2, rfl, ?_, ?_⟩
  · simp only at hf2; rw [hf2, hf1]
  · simp only at hm2; rw [hm2, hm1]

theorem sameButSent_sendVector (c : Chip) (v : Nat) : sameButSent c (sendVector c v) := by
  simp only [sendVector]; split
  · exact ⟨_, c.out, c.mgmt, rfl, rfl, rfl⟩
  · exact ⟨_, _, c.mgmt, rfl, rfl, rfl⟩

theorem sameButSent_notifyPeer (c : Chip) (v : Nat) : sameButSent c (notifyPeer c v) := by
  have h : ∀ b : Bool, sameButSent c (if b then (c.emit (.mgmt 0x20 [v] [])).onMgmt fun m =>
      { m with notified := assocPut m.notified v c.age } else c) := by
    intro b
    cases b
    · exact .refl c
    · exact ⟨c.fab, _, _, rfl, rfl, rfl⟩
  exact h _

theorem sameButSent_each {α : Type} (f : Chip → α → Chip) (hf : ∀ c x, sameButSent c (f c x)) (l : List α) (c : Chip) :
    sameButSent c (c.each l f) :=
  Chip.each_induct (sameButSent c) f l (fun d x h => h.trans (hf d x)) c (.refl c)

/-- The Crier's work after a command changes nothing but its own record and what is sent. -/
theorem Chip.settle_sameButSent (c : Chip) : sameButSent c c.settle := by
  simp only [Chip.settle]
  refine sameButSent.trans (d := { c with fab := { c.fab with
      vecSeen := pendingVectors c, vecHeld := c.fab.vecHeld.filter fun v => (pendingVectors c).contains v } }) ?_ ?_
  · exact ⟨_, c.out, c.mgmt, rfl, rfl, rfl⟩
  · exact (sameButSent_each _ sameButSent_sendVector _ _).trans (sameButSent_each _ sameButSent_notifyPeer _ _)

@[simp] theorem Chip.settle_regs (c : Chip) : c.settle.regs = c.regs := by
  obtain ⟨_, _, _, h, _, _⟩ := c.settle_sameButSent; rw [h]

@[simp] theorem Chip.settle_shadow (c : Chip) : c.settle.shadow = c.shadow := by
  obtain ⟨_, _, _, h, _, _⟩ := c.settle_sameButSent; rw [h]

@[simp] theorem Chip.settle_age (c : Chip) : c.settle.age = c.age := by
  obtain ⟨_, _, _, h, _, _⟩ := c.settle_sameButSent; rw [h]

@[simp] theorem Chip.settle_fuses (c : Chip) : c.settle.fuses = c.fuses := by
  obtain ⟨_, _, _, h, _, _⟩ := c.settle_sameButSent; rw [h]

@[simp] theorem Chip.settle_bell (c : Chip) : c.settle.bell = c.bell := by
  obtain ⟨_, _, _, h, _, _⟩ := c.settle_sameButSent; rw [h]

@[simp] theorem Chip.settle_pwr (c : Chip) : c.settle.pwr = c.pwr := by
  obtain ⟨_, _, _, h, _, _⟩ := c.settle_sameButSent; rw [h]

@[simp] theorem Chip.settle_wx (c : Chip) : c.settle.wx = c.wx := by
  obtain ⟨_, _, _, h, _, _⟩ := c.settle_sameButSent; rw [h]

@[simp] theorem Chip.settle_quads (c : Chip) : c.settle.quads = c.quads := by
  obtain ⟨_, _, _, h, _, _⟩ := c.settle_sameButSent; rw [h]

@[simp] theorem Chip.settle_ports (c : Chip) : c.settle.ports = c.ports := by
  obtain ⟨_, _, _, h, _, _⟩ := c.settle_sameButSent; rw [h]

@[simp] theorem Chip.settle_tile (c : Chip) : c.settle.tile = c.tile := by
  obtain ⟨_, _, _, h, _, _⟩ := c.settle_sameButSent; rw [h]

@[simp] theorem Chip.settle_pcie (c : Chip) : c.settle.pcie = c.pcie := by
  obtain ⟨_, _, _, h, _, _⟩ := c.settle_sameButSent; rw [h]

@[simp] theorem Chip.settle_gran (c : Chip) : c.settle.gran = c.gran := by
  obtain ⟨_, _, _, h, _, _⟩ := c.settle_sameButSent; rw [h]

@[simp] theorem Chip.settle_well (c : Chip) : c.settle.well = c.well := by
  obtain ⟨_, _, _, h, _, _⟩ := c.settle_sameButSent; rw [h]

@[simp] theorem Chip.settle_switch (c : Chip) : c.settle.switch = c.switch := by
  obtain ⟨_, _, _, h, _, _⟩ := c.settle_sameButSent; rw [h]

@[simp] theorem Chip.settle_store (c : Chip) : c.settle.store = c.store := by
  obtain ⟨_, _, _, h, _, _⟩ := c.settle_sameButSent; rw [h]

@[simp] theorem Chip.settle_gate (c : Chip) : c.settle.gate = c.gate := by
  obtain ⟨_, _, _, h, _, _⟩ := c.settle_sameButSent; rw [h]

@[simp] theorem Chip.settle_twin (c : Chip) : c.settle.twin = c.twin := by
  obtain ⟨_, _, _, h, _, _⟩ := c.settle_sameButSent; rw [h]

@[simp] theorem Chip.settle_upd (c : Chip) : c.settle.upd = c.upd := by
  obtain ⟨_, _, _, h, _, _⟩ := c.settle_sameButSent; rw [h]

@[simp] theorem Chip.settle_scan (c : Chip) : c.settle.scan = c.scan := by
  obtain ⟨_, _, _, h, _, _⟩ := c.settle_sameButSent; rw [h]

@[simp] theorem Chip.settle_ing (c : Chip) : c.settle.ing = c.ing := by
  obtain ⟨_, _, _, h, _, _⟩ := c.settle_sameButSent; rw [h]

@[simp] theorem Chip.settle_loom (c : Chip) : c.settle.loom = c.loom := by
  obtain ⟨_, _, _, h, _, _⟩ := c.settle_sameButSent; rw [h]

@[simp] theorem Chip.settle_nim (c : Chip) : c.settle.nim = c.nim := by
  obtain ⟨_, _, _, h, _, _⟩ := c.settle_sameButSent; rw [h]

@[simp] theorem Chip.settle_lamp (c : Chip) : c.settle.lamp = c.lamp := by
  obtain ⟨_, _, _, h, _, _⟩ := c.settle_sameButSent; rw [h]

@[simp] theorem Chip.settle_halo (c : Chip) : c.settle.halo = c.halo := by
  obtain ⟨_, _, _, h, _, _⟩ := c.settle_sameButSent; rw [h]

@[simp] theorem Chip.settle_scanHold (c : Chip) : c.settle.scanHold = c.scanHold := by
  obtain ⟨_, _, _, h, _, _⟩ := c.settle_sameButSent; rw [h]

@[simp] theorem Chip.settle_draws (c : Chip) : c.settle.draws = c.draws := by
  obtain ⟨_, _, _, h, _, _⟩ := c.settle_sameButSent; rw [h]

@[simp] theorem Chip.settle_rd (c : Chip) (a : Nat) : c.settle.rd a = c.rd a := by simp [Chip.rd]

@[simp] theorem Chip.settle_rdS (c : Chip) (a : Nat) : c.settle.rdS a = c.rdS a := by simp [Chip.rdS]

@[simp] theorem Chip.settle_get (c : Chip) (f : Fld) : c.settle.get f = c.get f := by simp [Chip.get]

/-- The Crier's work after a command leaves the commits and everything else of the fabric but its record of MSI-X. -/
theorem Chip.settle_fab (c : Chip) :
    c.settle.fab = { c.fab with vecSeen := c.settle.fab.vecSeen, vecHeld := c.settle.fab.vecHeld } := by
  obtain ⟨f, _, _, h, hf, _⟩ := c.settle_sameButSent
  rw [h]; exact hf

@[simp] theorem Chip.settle_fab_commits (c : Chip) : c.settle.fab.commits = c.fab.commits := by rw [Chip.settle_fab]

@[simp] theorem Chip.settle_fab_held64 (c : Chip) : c.settle.fab.held64 = c.fab.held64 := by rw [Chip.settle_fab]

@[simp] theorem Chip.settle_fab_sgi (c : Chip) : c.settle.fab.sgi = c.fab.sgi := by rw [Chip.settle_fab]

@[simp] theorem Chip.settle_fab_gpio (c : Chip) : c.settle.fab.gpio = c.fab.gpio := by rw [Chip.settle_fab]

@[simp] theorem Chip.settle_fab_cores (c : Chip) : c.settle.fab.cores = c.fab.cores := by rw [Chip.settle_fab]

@[simp] theorem Chip.settle_fab_epoch (c : Chip) : c.settle.fab.epoch = c.fab.epoch := by rw [Chip.settle_fab]

@[simp] theorem Chip.settle_fab_draining (c : Chip) : c.settle.fab.draining = c.fab.draining := by rw [Chip.settle_fab]

theorem Chip.each_keeps {α β : Type} (g : Chip → β) (f : Chip → α → Chip) (hf : ∀ c x, g (f c x) = g c) (l : List α) (c : Chip) :
    g (c.each l f) = g c :=
  Chip.each_induct (fun d => g d = g c) f l (fun d x h => (hf d x).trans h) c rfl

/-- After a command the Crier’s record of pending vectors is what the sources say. -/
theorem Chip.settle_vecSeen (c : Chip) : c.settle.fab.vecSeen = pendingVectors c := by
  simp only [Chip.settle]
  rw [Chip.each_keeps (fun d => d.fab.vecSeen) notifyPeer, Chip.each_keeps (fun d => d.fab.vecSeen) sendVector]
  · intro d v; simp only [sendVector]; split <;> rfl
  · intro d v
    obtain ⟨f, _, _, h, hf, _⟩ := sameButSent_notifyPeer d v
    have e : (notifyPeer d v).fab = d.fab := by
      have k : ∀ b : Bool, (if b then (d.emit (.mgmt 0x20 [v] [])).onMgmt fun m =>
        { m with notified := assocPut m.notified v d.age } else d).fab = d.fab := by
        intro b; cases b <;> rfl
      exact k _
    rw [e]

/-- What is pending does not depend on the Crier’s own record. -/
@[simp] theorem Chip.settle_srcPending (c : Chip) (n : Nat) : srcPending c.settle n = srcPending c n := by
  simp only [srcPending, pagePending, gpioPending, Chip.settle_rd, Chip.settle_get, Chip.nat, pageInRole, Chip.isSender,
    Chip.settle_fab_gpio, Chip.settle_fab_sgi]
  rfl

@[simp] theorem Chip.settle_pendingVectors (c : Chip) : pendingVectors c.settle = pendingVectors c := by
  simp only [pendingVectors, Chip.isSender, Chip.settle_get, targetSources, routedSources, Chip.settle_regs, Chip.flag,
    Chip.settle_srcPending]
  rfl

/-- Every command is carried out alike: its own effect, then what follows every command; an ill-formed one is refused. -/
theorem exec_run (i : Instr) (s : State) : ∃ f, exec i s = s.run i f := by
  cases i <;> exact ⟨_, rfl⟩

/-- With no commit waiting, no commit applies after a command. -/
theorem Chip.applyUntimed_none (c : Chip) (h : c.fab.commits = []) : c.applyUntimed = c := by
  simp [Chip.applyUntimed, h]

/-- A command whose effect leaves no commit waiting is followed by the Crier's work alone. -/
theorem Chip.after_none (c : Chip) (f : Chip → Chip) (h : (f c).fab.commits = []) : c.after f = (f c).settle := by
  simp only [Chip.after, Chip.applyUntimed_none _ h]

/-- A well-formed command answers a next state: the part after it, and the queue as it was. -/
theorem State.run_wf (i : Instr) (f : Chip → Chip) (s : State) (h : i.wf = true) :
    s.run i f = .next (s.effect f) := by simp [State.run, h]

/-- An ill-formed command is refused. -/
theorem State.run_bad (i : Instr) (f : Chip → Chip) (s : State) (h : i.wf = false) :
    s.run i f = .refused .outOfRange := by simp [State.run, h]

/-! ### Accesses through the fabric -/

/-- A write that passes the checks on its way, at no page in soft reset and at no pair of senders, is performed at its page. -/
theorem Chip.regWrite_takes (c : Chip) (rq : Requester) (a : Nat) (v : Word) (x : Verdict)
    (h : Safety.takes c rq a = true) : c.regWrite rq a v x = c.pageWrite rq a v x := by
  simp only [Safety.takes, Bool.and_eq_true, Bool.or_eq_true, Bool.not_eq_true', beq_iff_eq] at h
  obtain ⟨⟨h0, h1⟩, h2⟩ := h
  simp only [Chip.regWrite, h0, Chip.regPerform]
  have e1 : (c.flag (.PG_STATUS_SRST_BUSY (a / 0x1000)) && a % 0x1000 != 8) = false := by
    rcases h1 with h1 | h1 <;> simp [h1]
  simp only [e1]
  split
  · simp_all
  · split
    · rfl
    · simp_all

/-- A write that does not pass the checks on its way is a fabric error with its cause. -/
theorem Chip.regWrite_error (c : Chip) (rq : Requester) (a : Nat) (v : Word) (x : Verdict)
    (h : c.fabricCause rq a true ≠ 0) : c.regWrite rq a v x = c.fabErr rq a true (c.fabricCause rq a true) := by
  unfold Chip.regWrite
  split
  · rename_i k; exact absurd k h
  · rfl

/-- A write of a write-only register that reaches its page does what the page's block does with it. -/
theorem Chip.regWrite_wo (c : Chip) (rq : Requester) (a : Nat) (v : Word) (x : Verdict) (r : RegRow)
    (h : Safety.takes c rq a = true) (hr : rowOf a = some r) (ho : ¬ a % 0x1000 < 0x40) (hz : c.roleZero a = false)
    (hacc : r.acc = .wo) {k : PClass} {i : Nat} (hc : classOf (a / 0x1000) = some (k, i)) :
    c.regWrite rq a v x = Chip.blockHook k c c rq a v x := by
  rw [Chip.regWrite_takes _ _ _ _ _ h]
  simp [Chip.pageWrite, Chip.pageHook, ho, hz, hr, hacc, hc]

/-- A write of a plain register that reaches its page is stored under the row's mask, and the page's block has the last word. -/
theorem Chip.regWrite_rw (c : Chip) (rq : Requester) (a : Nat) (v : Word) (x : Verdict) (r : RegRow)
    (h : Safety.takes c rq a = true) (hr : rowOf a = some r) (ho : ¬ a % 0x1000 < 0x40) (hz : c.roleZero a = false)
    (hacc : r.acc = .rw) {k : PClass} {i : Nat} (hc : classOf (a / 0x1000) = some (k, i)) :
    c.regWrite rq a v x = Chip.blockHook k c (c.regStore r a v) rq a (v &&& r.wmask) x := by
  rw [Chip.regWrite_takes _ _ _ _ _ h]
  simp [Chip.pageWrite, Chip.pageHook, ho, hz, hr, hacc, hc]

/-- A sender is no tile. -/
theorem Chip.isTile_of_isSender (c : Chip) (h : c.isSender = true) : c.isTile = false := by
  simp only [Chip.isSender, Chip.isTile, beq_iff_eq] at *
  simp [h]

/-- A tile is no sender. -/
theorem Chip.isSender_of_isTile (c : Chip) (h : c.isTile = true) : c.isSender = false := by
  simp only [Chip.isSender, Chip.isTile, beq_iff_eq] at *
  simp [h]

/-- Outside UPDATE, ELDER and BELL no register is absent in a role. -/
theorem Chip.roleZero_other (c : Chip) (a : Nat) (h : (a / 0x1000 == 0xc0 || a / 0x1000 == 0x91 || a / 0x1000 == 3) = false) :
    c.roleZero a = false := by
  simp only [Bool.or_eq_false_iff, beq_eq_false_iff_ne] at h
  obtain ⟨⟨h1, h2⟩, h3⟩ := h
  simp only [Chip.roleZero, roleHas, h1, h2, if_false, Bool.not_true, Bool.false_or, Bool.and_eq_false_iff,
    Bool.or_eq_false_iff, beq_eq_false_iff_ne, decide_eq_false_iff_not]
  refine .inr ⟨?_, ?_⟩
  · intro e; subst e; exact h3 (by decide)
  · rintro ⟨x, y⟩
    simp only [Reg.BELL_ASYM] at x y
    omega

/-- At a sender a register of its role is not absent. -/
theorem Chip.roleZero_sender (c : Chip) (a : Nat) (h : c.isSender = true) (ha : roleHas true a = true) :
    c.roleZero a = false := by
  simp [Chip.roleZero, h, ha, c.isTile_of_isSender h]

/-- A read of a register computed at the read answers its word, and moves the window it belongs to. -/
theorem Chip.readOut_live (c : Chip) (rq : Requester) (a n : Nat) (r : RegRow) (h : Safety.reads c rq a = true)
    (hl : latches a = []) (h4 : 0x40 ≤ a % 0x1000) (hr : rowOf a = some r) (hw : r.acc ≠ .wo) (hk : (r.kind == .count) = false)
    (h1 : a ≠ Reg.SCAN_FILL_MIN ∧ a ≠ Reg.WEATHER_PEAK ∧ a ≠ Reg.WELL_MGMT_STAT ∧ a ≠ Reg.GRAN_MGR_STAT)
    (hv : c.liveWord a = some n) :
    c.readOut rq a =
      ((c.onFab fun f => { f with held64 := f.held64.filter fun e => e.1 != a }).windowRead a).emit (.read a (word n)) := by
  simp only [Safety.reads, Bool.and_eq_true, beq_iff_eq, Bool.not_eq_true', Option.isNone_iff_eq_none] at h
  obtain ⟨⟨g1, g2⟩, g3⟩ := h
  obtain ⟨k1, k2, k3, k4⟩ := h1
  have e : c.regWord a = word n := by
    unfold Chip.regWord
    rw [if_neg (by omega)]
    simp [hr, hw, g3, hv]
  have m1 : a % 4096 ≠ 32 := by omega
  have m2 : a % 4096 ≠ 16 := by omega
  simp [Chip.readOut, Chip.regRead, g1, g2, e, Chip.readEffect, hl, k4, Chip.countRead, hr, hk, m1, m2, k1, k2, k3]

end Sys2Proof.Machine
end

