-- ==== Sys2Proof/Laws/Wire.lean ====
section
/-!
SUPPORT. What the wire side of the operations does, once for each: sending touches only the lanes and what was sent; a sound cell
that comes the right way passes its checks unchanged; a new command at a tile is carried out once and answered.
-/

namespace Sys2Proof.Machine

open Safety

/-- Two parts that differ in nothing but the state of their lanes and what was sent. -/
def sameButWire (c d : Chip) : Prop := ∃ quads out, d = { c with quads := quads, out := out }

theorem sameButWire.refl (c : Chip) : sameButWire c c := ⟨c.quads, c.out, rfl⟩

theorem sameButWire.trans {c d e : Chip} (h : sameButWire c d) (k : sameButWire d e) : sameButWire c e := by
  obtain ⟨q1, o1, rfl⟩ := h
  obtain ⟨q2, o2, rfl⟩ := k
  exact ⟨q2, o2, rfl⟩

theorem sameButWire_setQuad (c : Chip) (q : Nat) (x : Quad) : sameButWire c (c.setQuad q x) := ⟨_, c.out, rfl⟩

theorem sameButWire_emit (c : Chip) (o : Out) : sameButWire c (c.emit o) := ⟨c.quads, _, rfl⟩

theorem sameButWire_when (c : Chip) (b : Bool) (f : Chip → Chip) (h : sameButWire c (f c)) : sameButWire c (c.when b f) := by
  cases b
  · exact .refl c
  · exact h

theorem sameButWire_laneOut (c : Chip) (q k : Nat) (l : List Block) : sameButWire c (c.laneOut q k l) := by
  unfold Chip.laneOut
  split
  · exact .refl c
  · exact (sameButWire_emit c _).trans (sameButWire_when _ _ _ (sameButWire_emit _ _))

theorem sameButWire_sendPairing (c : Chip) (q h : Nat) (p : Pairing) : sameButWire c (c.sendPairing q h p) :=
  (((sameButWire_setQuad c _ _).trans (sameButWire_setQuad _ _ _)).trans (sameButWire_setQuad _ _ _)).trans
    ((sameButWire_laneOut _ _ _ _).trans (sameButWire_laneOut _ _ _ _))

/-- Blocks that leave a port change the lanes and what was sent. -/
theorem Chip.transmit_sameButWire (c : Chip) (q h : Nat) (l : List Block) : sameButWire c (c.transmit q h l) := by
  unfold Chip.transmit
  split
  · exact sameButWire_sendPairing c q h _
  · exact .refl c

/-- A forwarded cell changes the lanes and what was sent. -/
theorem Chip.pass_sameButWire (c : Chip) (port : Nat) (x : Cell) (h : Hdr) (rx : Rx) : sameButWire c (c.pass port x h rx) := by
  unfold Chip.pass
  split
  · exact (sameButWire_emit c _).trans (Chip.transmit_sameButWire _ _ _ _)
  · exact .refl c

theorem Chip.passDown_sameButWire (c : Chip) (port : Nat) (x : Cell) (h : Hdr) (rx : Rx) :
    sameButWire c (c.passDown port x h rx) := by
  unfold Chip.passDown
  split
  · exact Chip.pass_sameButWire c _ x h rx
  · exact .refl c

theorem Chip.passUp_sameButWire (c : Chip) (port : Nat) (x : Cell) (h : Hdr) (rx : Rx) :
    sameButWire c (c.passUp port x h rx) := by
  unfold Chip.passUp
  split
  · exact Chip.pass_sameButWire c _ x h rx
  · exact .refl c

/-- What a tile asks of itself about a cell does not change with what was sent. -/
theorem sameButWire.reads {c d : Chip} (k : sameButWire c d) :
    d.regs = c.regs ∧ d.tile = c.tile ∧ d.fuses = c.fuses ∧ d.gate = c.gate ∧ d.bell = c.bell ∧ d.nim = c.nim ∧ d.draws = c.draws ∧
      (∀ h, d.namesMe h = c.namesMe h) ∧ (∀ x h rx, d.tagOk x h rx = c.tagOk x h rx) ∧
      (∀ port x, d.wrongWay port x = c.wrongWay port x) ∧ (∀ f, d.get f = c.get f) ∧ d.isTile = c.isTile := by
  obtain ⟨q, o, rfl⟩ := k
  exact ⟨rfl, rfl, rfl, rfl, rfl, rfl, rfl, fun _ => rfl, fun _ _ _ => rfl, fun _ _ => rfl, fun _ => rfl, rfl⟩

/-- A sound cell that comes the right way passes its checks and leaves no count (R107). -/
theorem Chip.checkCell_sound (c : Chip) (port : Nat) (x : Cell) (h : Hdr) (rx : Rx) (hs : soundRx x h rx = true)
    (hw : c.wrongWay port x = false) : c.checkCell port x h rx = (c, true) := by
  simp only [soundRx, Rx.holds, Bool.and_eq_true, List.isEmpty_iff, Option.isNone_iff_eq_none, beq_iff_eq] at hs
  obtain ⟨h1, ⟨h2, h3⟩, h4⟩ := hs
  have h5 : (x.hasData && rx.crc != x.crc h rx.tag) = false := by
    cases hd : x.hasData <;> simp [hd] at h4 ⊢
    exact h4
  simp [Chip.checkCell, h1, h2, h3, hw, h5]

/-- A forward cell that came on a tile's upstream port came the right way (R109). -/
theorem Chip.wrongWay_forward (c : Chip) (port : Nat) (x : Cell) (ht : c.isTile = true) (hu : c.tile.up = some port)
    (hx : x.returns = false) : c.wrongWay port x = false := by
  simp [Chip.wrongWay, ht, hu, hx]

/-- A tile may act on a sound forward cell of its upstream port, which leaves no count (R107, R109). -/
theorem Chip.receive_sound (c : Chip) (port : Nat) (x : Cell) (h : Hdr) (rx : Rx) (hs : soundRx x h rx = true)
    (ht : c.isTile = true) (hu : c.tile.up = some port) (hx : x.returns = false) : c.receive port x h rx = (c, true) := by
  simp [Chip.receive, Chip.checkCell_sound c port x h rx hs (c.wrongWay_forward port x ht hu hx), hu]

/-- A new tagged command at a tile is carried out once, after the cell went on and the counter moved, and is answered. -/
theorem Chip.tileCmd_new (c : Chip) (port : Nat) (h : Hdr) (x : Cmd) (rx : Rx) (amodes : List Nat) (run : Chip → Chip × Ans)
    (H : newCommand c port h x rx amodes = true) :
    c.tileCmd port h x rx amodes run = answered x (run (begun c port h x rx)) := by
  simp only [newCommand, Bool.and_eq_true, decide_eq_true_eq, Bool.not_eq_true', beq_iff_eq] at H
  obtain ⟨⟨⟨⟨⟨⟨⟨⟨⟨⟨h1, h2⟩, h3⟩, h4⟩, h5⟩, h6⟩, h7⟩, h8⟩, h9⟩, h10⟩, h11⟩ := H
  obtain ⟨-, p2, -, -, -, -, -, pn, pt, -, -, pi⟩ := (c.passDown_sameButWire port (.command h x) h rx).reads
  have e := Chip.receive_sound (c.passDown port (.command h x) h rx) port (.command h x) h rx h3 (pi.trans h1)
    (by rw [p2, h4]) rfl
  have k : assoc c.tile.kept x.token = none := by simpa using h9
  have ss : c.tile.session.isNone = false := by
    cases hk : c.tile.session <;> simp [Chip.tagOk, Chip.tileKey, hk] at h7 ⊢
  rw [List.contains_iff_mem] at h10 h11
  simp [Chip.tileCmd, Chip.forwardCell, h1, h2, Chip.tagged, e, pn, pt, p2, h5, h6, h7, h10, h11, k, ss, Nat.not_le.2 h8]
  rfl

/-- An untagged command that a tile acts on is carried out after the cell went on. -/
theorem Chip.tileOpen_open (c : Chip) (port : Nat) (h : Hdr) (x : Cmd) (rx : Rx) (amode : Nat) (run : Chip → Chip)
    (H : openCommand c port h x rx amode = true) :
    c.tileOpen port h x rx amode run = run (c.passDown port (.command h x) h rx) := by
  simp only [openCommand, Bool.and_eq_true, decide_eq_true_eq, beq_iff_eq, bne_iff_ne] at H
  obtain ⟨⟨⟨⟨⟨⟨⟨⟨h1, h2⟩, h3⟩, h4⟩, h5⟩, h6⟩, h7⟩, h8⟩, h9⟩ := H
  obtain ⟨-, p2, -, -, -, -, -, pn, -, -, -, pi⟩ := (c.passDown_sameButWire port (.command h x) h rx).reads
  have e := Chip.receive_sound (c.passDown port (.command h x) h rx) port (.command h x) h rx h3 (pi.trans h1)
    (by rw [p2, h4]) rfl
  simp at h6
  simp [Chip.tileOpen, Chip.forwardCell, h1, h2, Chip.untagged, e, pn, p2, h5, h6, h7, h8, h9]

end Sys2Proof.Machine
end

