-- ==== Sys2Proof/Machine/Package.lean ====
section
/-!
DEFINITION. What the electrical chapter gives as numbers of the part: ratings and operating limits (R416, R417), what a dip of a
supply comes to (R419), the pin voltage and the dissipation of the lamp sinks (R422, R423), the inputs of the always-on bank (R434),
the balls of the lamp field (R438), the text of the 2D code (R443). These are facts about the part as it stands; no command changes them.
-/

namespace Sys2Proof.Machine

/-- The supplies of R416 and R417. -/
inductive Rail
  | core | sram | aon | serdes | hSerdes | ddr | io
  deriving DecidableEq, Repr

/-- The operating limits of a rail, in units of 0.1 mV: minimum, nominal, maximum (R417). -/
def Rail.limits : Rail → Nat × Nat × Nat
  | .core => (7275, 7500, 7725)
  | .sram => (7760, 8000, 8240)
  | .aon => (7760, 8000, 8240)
  | .serdes => (8245, 8500, 8755)
  | .hSerdes => (11640, 12000, 12360)
  | .ddr => (10670, 11000, 11330)
  | .io => (17100, 18000, 18900)

/-- The absolute maximum of a rail, in units of 0.1 mV (R416); the minimum is −0.3 V on each. -/
def Rail.absolute : Rail → Nat
  | .core => 9000
  | .sram => 9500
  | .aon => 9500
  | .serdes => 10000
  | .hSerdes => 14000
  | .ddr => 14000
  | .io => 21600

/-- A rail at a voltage in units of 0.1 mV is within its operating limits (R417); a tile's VDDQ is not monitored and may be 0 (R418). -/
def Chip.railOk (c : Chip) (r : Rail) (v : Nat) : Bool :=
  (r == .ddr && c.isTile) || (decide (r.limits.1 ≤ v) && decide (v ≤ r.limits.2.2))

/-- The junction temperature in tenths of a °C is within the operating conditions (R417). -/
def junctionOk (t : Int) : Bool := decide (-400 ≤ t) && decide (t ≤ 1250)

/-- What a dip of the supplies of a running tile comes to (R419). -/
inductive Dip
  | none | powerOn | glitch
  deriving DecidableEq, Repr

/-- The lowest VDD_IO in units of 0.1 mV with how many ns below 1.60 V, and the lowest core or always-on rail as tenths of a percent of
its nominal with for how many ns: the first is a power-on reset, the second a glitch (R366, R419). -/
def dipOf (io ioNs rail railNs : Nat) : Dip :=
  if io < 16000 ∧ 1000 ≤ ioNs then .powerOn
  else if rail < 880 ∧ 10 ≤ railNs then .glitch
  else .none

/-- The regulation headroom V_HR in mV of a sink at a current in µA (R422). -/
def headroom (i : Nat) : Nat := if i ≤ 8000 then 300 else if i ≤ 16000 then 400 else 550

/-- V_pin = V_LED − V_row − V_f in mV (R423). -/
def pinVoltage (led row vf : Int) : Int := led - row - vf

/-- A lamp lies within R423: V_pin at or above V_HR of its current and below the SHORT threshold in force. -/
def Chip.pinOk (c : Chip) (v : Int) (i : Nat) : Bool :=
  decide ((headroom i : Int) ≤ v) && (c.get .LAMP_FAULT_CFG_SHORT == 0 || decide (v < 10 * c.get .LAMP_FAULT_CFG_SHORT))

/-- The average dissipation of the sinks in nW: over the used ports, V_pin in mV times I in µA times the sum of on[s] in GCLK, by
P_GCLK + 32 (R423). -/
def sinkPower (ports : List (Nat × Nat × Nat)) (pGclk : Nat) : Nat :=
  (ports.map fun x => x.1 * x.2.1 * x.2.2).sum / (pGclk + 32)

/-- A low pulse in ns on PORST_N, RST_N, TAMPERn_N or GPIO0: always accepted from 5 µs, never up to 3 µs; between them either (R434). -/
def lowAccepted (ns : Nat) : Option Bool := if 5000 ≤ ns then some true else if ns ≤ 3000 then some false else none

/-- The letter of a ball row within its run of 19: I, O, Q, R, S, X and Z are not used (R438). -/
def rowLetter (k : Nat) : String :=
  ["A", "B", "C", "D", "E", "F", "G", "H", "J", "K", "L", "M", "N", "P", "T", "U", "V", "W", "Y"].getD k ""

/-- The name of ball row k of the 54: A to Y, AA to AY, BA to BU (R438). -/
def ballRow (k : Nat) : String := ["", "A", "B"].getD (k / 19) "" ++ rowLetter (k % 19)

/-- The port rows of the lamp field in the order of k = 0 to 9: BU, BP, BM, BK, BH, BF, BD, BB, AY, AV (R438). -/
def portRows : List Nat := [53, 51, 49, 47, 45, 43, 41, 39, 37, 35]

/-- The ball of COLp as row number and column (R438). -/
def colBall (p : Nat) : Nat × Nat := (portRows.getD (p / 48) 0, if p / 48 % 2 = 0 then 4 + p % 48 else 51 - p % 48)

/-- The ball of ROWDn: row AT, column 12 + n (R438). -/
def rowdBall (n : Nat) : Nat × Nat := (33, 12 + n)

/-- Two balls are neighbours, side by side or across a diagonal. -/
def neighbours (a b : Nat × Nat) : Bool :=
  a != b && decide (a.1 ≤ b.1 + 1) && decide (b.1 ≤ a.1 + 1) && decide (a.2 ≤ b.2 + 1) && decide (b.2 ≤ a.2 + 1)

/-- Digits of a number in a base, most significant first, in uppercase. -/
def digits (base n : Nat) : Nat → List Byte
  | 0 => []
  | k + 1 => digits base (n / base) k ++ [BitVec.ofNat 8 (if n % base < 10 then 48 + n % base else 55 + n % base)]

/-- The ASCII text of the 2D code (R443): the ordering code, lot, wafer, die X and die Y of the fuses. -/
def Fuses.code2D (f : Fuses) (order : List Byte) : List Byte :=
  order ++ [0x20] ++ digits 16 f.lot 6 ++ [0x20] ++ digits 10 f.wafer 2 ++ [0x20] ++ digits 16 f.dieX 2 ++ [0x20] ++ digits 16 f.dieY 2

end Sys2Proof.Machine
end

