-- ==== Sys2Proof/Tests/Slice0.lean ====
section
/-!
SUPPORT. Tests: ill-formed commands are refused, small states meet the hypotheses of every statement with hypotheses, and a few
worked values of the spec.
-/

set_option maxRecDepth 8000

open Sys2Proof Sys2Proof.Machine Sys2Proof.Safety

namespace Sys2Proof.Tests

/-! ### Small states -/

/-- A part in Run with every domain on, in a role: 0 a tile, 1 a sender. -/
def running (role : Nat) : Chip :=
  (chipReset.put .SYS_ROLE_ROLE role).onPwr fun p =>
    { p with state := .run, target := .run, dom := 2 ^ 80 - 1, sram := 2 ^ 80 - 1, booted := true }

/-- Pages run. -/
def on (c : Chip) (l : List Nat) : Chip :=
  l.foldl (fun c p => (c.put (.PG_CTRL_ENABLE p) 1).put (.PG_STATUS_ENABLED p) 1) c

/-- Fields hold values. -/
def puts (c : Chip) (l : List (Fld × Nat)) : Chip := l.foldl (fun c x => c.put x.1 x.2) c

/-- A sender in Run. -/
def sender : Chip := on (running 1) [1, 3, 4, 0x75, 0x81, 0xb0, 0xb1, 0xc0]

/-- A tile in Run. -/
def tile : Chip := on (running 0) [1, 3, 4, 0x10, 0x20, 0x21, 0x30, 0xa0, 0xa1, 0xa6, 0xb0, 0xb1, 0xc0]

/-- Core 0 of the Reeve. -/
def core0 : Requester := .core 0

/-- A state with nothing waiting. -/
def st (c : Chip) : State := ⟨c, []⟩

/-- A sender that has executed tick 5 of 60 Hz and generates ticks. -/
def ticked : Chip :=
  (puts sender [(.BELL_TICK_CTRL_TICK_EN, 1), (.BELL_STATUS_STATE, 2), (⟨Reg.BELL_FRAME_NUM, 31, 0⟩, 60),
    (⟨Reg.BELL_FRAME_DEN, 31, 0⟩, 1)]).onBell fun b => { b with tick := some 5, tickUp := us 2, open_ := true }

/-- A commit of a page that waits since power-on. -/
def waits (c : Chip) (p : Nat) (held : Bool) (r : Option Release) : Chip :=
  (c.put (.PG_COMMIT_PENDING p) 1).onFab fun f => { f with commits := [⟨p, 0, held, r⟩] }

/-! ### What meets the statements' hypotheses -/

theorem test_meets_StepRunsFrontCommand : State.reset.pending = [] := by decide

theorem test_meets_EveryCommandCompletes : Instr.wf .frameTick = true ∧ Instr.wf (.gpioEdgeAccept 16 [true]) = false := by decide

theorem test_meets_AfterCommand : sender.fab.commits = [] := by decide

theorem test_meets_QueueDrains : queueOk ⟨sender, [.gridEnd, .tfUpdate]⟩ = true := by decide

theorem test_meets_StepKeepsSafe :
    queueOk ⟨sender, [.gridEnd]⟩ = true ∧ msixOk sender = true := by decide

theorem test_meets_AccessesAreWholeAndAligned :
    0xfffffd < 2 ^ 24 ∧ 0xfffffd % 4 ≠ 0 ∧ 0x1fff / 0x1000 ≠ 2 ∧ 0x1fff / 0x1000 ≠ 0x30 ∧
      takes sender core0 (Reg.PG_EVENT_EN 0) = true ∧ judged (Reg.PG_EVENT_EN 0) = false ∧
      takes sender core0 (Reg.PG_EVENT_EN 0xc0) = true ∧ judged (Reg.PG_EVENT_EN 0xc0) = false ∧
      [((1 : Word), true), (2, false)] ≠ [] ∧ 0xfffff8 + 4 * 2 ≤ 2 ^ 24 := by decide

theorem test_meets_FabricErrorCaptured :
    sender.fabricCause core0 0xfffffc true ≠ 0 ∧ judged 0xfffffc = false ∧
      bitAt (sender.nat (Reg.PG_EVENT 2)) 0 = false ∧
      bitAt ((sender.setNat (Reg.PG_EVENT 2) 1).nat (Reg.PG_EVENT 2)) 0 = true ∧
      (sender.setNat (Reg.PG_EVENT 2) 1).fabricCause .debug Reg.CORR_BRIGHT true ≠ 0 := by decide

theorem test_meets_WritesFollowAccessCodes :
    [Reg.BELL_STATUS, Reg.CRIER_GPIO_EDGE, Reg.BELL_SRC_CFG, Reg.BELL_GUARD].map (fun a => (rowOf a).map (·.acc)) =
        [some .ro, some .w1c, some .rwl, some .rws] ∧
      ([Reg.BELL_STATUS, Reg.CRIER_GPIO_EDGE, Reg.BELL_SRC_CFG, Reg.BELL_GUARD].all fun a =>
        takes sender core0 a && !sender.roleZero a && decide (0x40 ≤ a % 0x1000)) = true ∧
      sender.enabled 3 = true ∧ takes (waits sender 3 false none) core0 Reg.BELL_GUARD = true ∧
      sender.shadowMute Reg.BELL_GUARD = false ∧ shadowBad Reg.BELL_GUARD 60 = false := by decide

theorem test_meets_RejectedWriteIsTold :
    sender.fabricCause core0 (Reg.PG_STATUS 0) false = 0 ∧ sender.fabricCause .pcie (Reg.PG_STATUS 0xc0) false = 0 ∧
      sender.fab.commits = [] ∧ (sender.reject 0x3fff).flag (.PG_STATUS_WR_REJ 3) = true := by decide

theorem test_meets_PagesStartStopAndDrain :
    takes sender core0 (Reg.PG_CTRL 0x50) = true ∧ (pageDomains 0x50).all sender.domOn = true ∧
      sender.enabled 0x50 = false ∧
      (let c := sender.onPwr fun p => { p with dom := 2 ^ 50 - 1 };
        takes c core0 (Reg.PG_CTRL 0x70) = true ∧ (pageDomains 0x70).all c.domOn = false) ∧
      takes sender core0 (Reg.PG_CTRL 3) = true ∧ sender.flag (.PG_CTRL_ENABLE 3) = true ∧
      sender.keepsOn core0 3 = false ∧ sender.enabled 3 = true ∧
      takes sender core0 (Reg.PG_CTRL 0xc0) = true ∧ sender.keepsOn core0 0xc0 = true ∧
      (let c := sender.put (.PG_CTRL_ENABLE 3) 0;
        c.enabled 3 = true ∧ c.flag (.PG_CTRL_ENABLE 3) = false ∧ c.drained 3 = true) ∧
      (sender.put (.PG_STATUS_SRST_BUSY 3) 1).flag (.PG_STATUS_SRST_BUSY 3) = true := by decide

theorem test_meets_SoftResetRestores :
    0xf0 < 4096 ∧ 0xf0 ≠ 0 ∧ 0xf0 ≠ 0xa0 ∧ 0xf0 ≠ 0xa1 ∧ Reg.BELL_FRAME_NUM / 0x1000 = 3 ∧
      softKept 3 Reg.BELL_FRAME_NUM = false ∧ Reg.BELL_FRAME_NUM ≠ Reg.PG_CTRL 3 ∧
      (within 0xa0 0xa0 0xa1 && tile.nim.open_ && decide (tile.slice < 4)) = false ∧ sender.switch = none ∧
      (let c : Chip := { tile with nim := { tile.nim with open_ := true } };
        (within 0xa1 0xa0 0xa1 && c.nim.open_ && decide (c.slice < 4)) = true) ∧ 0x41 = 0x40 + 1 := by decide

theorem test_meets_CommitWaits :
    takes sender core0 (Reg.PG_COMMIT 3) = true ∧ sender.flag (.PG_COMMIT_PENDING 3) = false ∧
      takes (waits sender 3 false none) core0 (Reg.PG_COMMIT 3) = true ∧
      (waits sender 3 false none).flag (.PG_COMMIT_PENDING 3) = true ∧
      takes (on sender [0x68]) core0 (Reg.PG_COMMIT 0x68) = true ∧ checkedAtWrite 0x68 = true ∧
      (on sender [0x68]).commitCause 0x68 ≠ 0 ∧
      takes sender core0 (Reg.PG_COMMIT 0x50) = true ∧ checkedAtWrite 0x50 = true ∧ sender.commitCause 0x50 = 0 ∧
      (waits ticked 3 false none).pageDue 3 = true ∧ (waits ticked 3 false none).bell.open_ = true := by decide

theorem test_meets_CommitAppliesAtOnceWhenDisabled :
    (let c := sender.put (.PG_STATUS_ENABLED 3) 0;
      takes c core0 (Reg.PG_COMMIT 3) = true ∧ c.flag (.PG_COMMIT_PENDING 3) = false ∧ c.enabled 3 = false) ∧
      takes sender core0 (Reg.PG_COMMIT 0x1b) = true ∧ sender.ticking = false ∧ sender.fab.commits = [] ∧
      sender.flag .CRIER_FAB_HOLD_HOLD = false ∧ takes tile core0 (Reg.PG_COMMIT 0xa1) = true ∧ tile.ticking = false := by
  decide

theorem test_meets_FabricHoldGroupsCommits :
    takes sender core0 Reg.CRIER_FAB_HOLD = true ∧ sender.flag .CRIER_FAB_HOLD_HOLD = false ∧
      takes (sender.put .CRIER_FAB_HOLD_HOLD 1) core0 Reg.CRIER_FAB_HOLD = true ∧
      (sender.put .CRIER_FAB_HOLD_HOLD 1).flag .CRIER_FAB_HOLD_HOLD = true ∧
      (waits ticked 3 false (some ⟨some 5, 0⟩)).releaseDue = true ∧
      (Commit.mk 3 0 true none).held = true := by decide

theorem test_meets_EventOccurrence :
    (let c := tile.put .RET_UNITS_COUNT 1;
      bitAt (pageEvents 3).toNat 0 = true ∧ takes c core0 (Reg.PG_EVENT_SET 3) = true ∧ c.isTile = true ∧
        c.get .RET_UNITS_COUNT ≠ 0) ∧
      bitAt (pageEvents 0xb0).toNat 6 = true ∧ takes sender core0 (Reg.PG_EVENT_SET 0xb0) = true := by decide

theorem test_meets_PagePendingFollowsEvents :
    pageInRole sender 0xdf = false ∧ pageInRole sender 0xf0 = true ∧ pageInRole sender 0 = true ∧
      sender.fab.commits = [] ∧ takes sender core0 (Reg.PG_EVENT 0) = true ∧
      takes sender core0 (Reg.PG_EVENT_EN 0xc0) = true ∧
      sender.rd (Reg.PG_EVENT 0) &&& sender.rd (Reg.PG_EVENT_EN 0) &&& ~~~(0 : Word) = 0 := by decide

theorem test_meets_ReadsAndWhatTheyChange :
    let a := [Reg.BELL_TIME_SUBNS, Reg.BELL_SYNC_CAP_NS, Reg.BELL_TICK_IDX_LO, Reg.KEYS_REVOKED]
    (a.all fun x => sender.fabricCause core0 x false == 0 && !sender.flag (.PG_STATUS_SRST_BUSY (x / 0x1000))) = true ∧
      ((rowOf Reg.KEYS_REVOKED).map fun r => r.kind) = some .count ∧
      latches Reg.BELL_TICK_IDX_LO = [Reg.BELL_TICK_IDX_HI] ∧ 0x40 ≤ Reg.BELL_TICK_IDX_HI % 0x1000 ∧
      sender.fab.commits = [] ∧ core0 ≠ .debug := by decide

theorem test_meets_CrierChoosesByPriority : 0xf8 ∈ (((sender.put (.CRIER_SRC_CFG_EN 0xf8) 1).put (.CRIER_SRC_CFG_CORE_EN 0xf8) 1).onFab
    fun f => { f with sgi := 1 }).coreSources 0 := by decide

theorem test_meets_CrierRoutingAndSoftwareSources :
    (rowOf (Reg.CRIER_SRC_CFG 0)).isSome = true ∧ (rowOf (Reg.CRIER_SRC_CFG 255)).isSome = true ∧
      takes sender core0 (Reg.CRIER_SRC_CFG 255) = true ∧ takes sender .pcie (Reg.CRIER_SRC_CFG 0) = true ∧
      sender.fab.commits = [] ∧ takes sender core0 Reg.CRIER_SGI = true ∧
      (0x7fffffff : Word).getLsbD 31 = false := by decide

theorem test_meets_MsixSendsAndHolds :
    (let c := ((sender.put (.CRIER_SRC_CFG_EN 0xf8) 1).put (.CRIER_SRC_CFG_MSIX_EN 0xf8) 1).onFab fun f => { f with sgi := 1 }
      let d := c.onPcie fun x => { x with up := true, msixEn := true, funcMask := false, vecMask := [] }
      takes d core0 Reg.CRIER_MSIX_EOI = true ∧ d.isSender = true ∧ (vectorBest d 0).isSome = true ∧
        msixMasked d 0 = false ∧ vectorBest d 63 = none ∧ d.pcie.up = true ∧ d.fab.commits = []) ∧
      [0, 63].all (· < 64) = true := by decide

theorem test_meets_CoresTakeAndReturn :
    (let set := fun (c : Chip) => c.setCore 3 { c.core 3 with masked := false, asleep := true }
      let c := ((sender.put (.CRIER_SRC_CFG_EN 0) 1).put (.CRIER_SRC_CFG_CORE_EN 0) 15).setNat (Reg.PG_EVENT 0) 1
      let d := c.setNat (Reg.PG_EVENT_EN 0) 1
      bestSource (set sender) ((set sender).coreSources 3) = none ∧
        bestSource (set d) ((set d).coreSources 3) = some 0 ∧ (set d).preempts ((set d).core 3) 0 = true) ∧
      ((sender.setCore 3 { sender.core 3 with stack := [(7, 2)] }).core 3).stack = [(7, 2)] ∧
      (sender.core 0).stack = [] ∧ bitAt sender.fab.gpio 15 ≠ true ∧ sender.domOn 78 = true ∧
      (sender.put (.CRIER_GPIO_CFG_TRIG 15) 2).get (.CRIER_GPIO_CFG_TRIG 15) = 2 ∧
      bitAt ((sender.onFab fun f => { f with gpio := 1 }).fab.gpio) 0 ≠ false ∧
      (sender.put (.CRIER_GPIO_CFG_TRIG 0) 3).get (.CRIER_GPIO_CFG_TRIG 0) = 3 := by decide

/-- A link state of a lane port. -/
def linkAt (c : Chip) (n : Nat) (state : Nat) : Chip := c.setPortState (n / 2) (n % 2) state

/-- How a cell arrives whole, with right check words and no tag. -/
def good (x : Cell) (h : Hdr) : Rx := ⟨[], x.hcrc h, [], x.crc h [], none⟩

/-- A cell cut short. -/
def cutShort : Rx := ⟨[], 0, [], 0, some (1, errorBlock)⟩

/-- An Ethernet frame of the smallest size, untagged and good. -/
def frame64 : EthFrame := ⟨64, none, true, 0, 0⟩

theorem good_holds (x : Cell) (h : Hdr) : (good x h).holds x h = true := by simp [good, Rx.holds]

theorem good_sound (x : Cell) (h : Hdr) : soundRx x h (good x h) = true := by
  simp [soundRx, good_holds]; rfl

/-- A sender of a pair that is active (role 3), standby (role 2) or far; the twin link is up and keyed. -/
def twin (role : Nat) : Chip :=
  (puts (on sender [0x90]) [(.SYS_MODE_MODE, 4), (.TWIN_STAT_ROLE, role), (.TWIN_CFG_EN, 1), (.TWIN_RING_PORTS, 3)]).onTwin
    fun t => { t with up := true, keyed := true }

theorem test_meets_TickRateRegistersAreGuarded :
    sender.isSender = true ∧ Reg.BELL_FRAME_NUM ∈ rateRegs ∧ Reg.BELL_EPOCH_NS ∈ rateRegs ∧
      takes sender core0 Reg.BELL_FRAME_NUM = true ∧ sender.flag .BELL_TICK_CTRL_TICK_EN = false ∧
      Reg.BELL_FRAME_NUM ≠ Reg.BELL_EPOCH_NS ∧ takes ticked core0 Reg.BELL_EPOCH_NS = true ∧
      ticked.flag .BELL_TICK_CTRL_TICK_EN = true ∧ takes ticked core0 Reg.BELL_TICK_CTRL = true ∧
      rateOk ticked.rateNum ticked.rateDen = true ∧
      (let c := ticked.put ⟨Reg.BELL_FRAME_NUM, 31, 0⟩ 0;
        takes c core0 Reg.BELL_TICK_CTRL = true ∧ rateOk c.rateNum c.rateDen = false) ∧
      (let c := { ticked.put .SYS_MODE_STAT_STATE 3 with switch := some ⟨3, 99, [], [], 0⟩ };
        takes c core0 Reg.BELL_TICK_CTRL = true ∧ c.switch.isSome = true ∧ 1 ≤ c.get .SYS_MODE_STAT_STATE ∧
          c.get .SYS_MODE_STAT_STATE ≤ 3) ∧
      (∃ x ∈ (waits ticked 3 false (some ⟨none, 0⟩)).fab.commits, x.released.isSome = true) ∧
      ticked.ticksNeeded = false := by decide

theorem test_meets_NextTickOfTheGrid :
    rateOk ticked.rateNum ticked.rateDen = true ∧ ticked.epoch ≤ 0 ∧ 0 < ticked.indexAt (ms 20) ∧
      ticked.bell.tick = some 5 := by decide

theorem test_meets_FrameAndBandTicks :
    ticked.tickSource = true ∧ ticked.flag .BELL_STATUS_SYNC_TICKS = false ∧ sender.tickSource = false ∧
      (let c := puts ticked [(.BELL_BAND_CFG_COUNT, 4), (.SYS_MODE_MODE, 3)];
        c.banding = true ∧ c.tickSource = true ∧ c.bell.tick.isSome = true ∧ 3 < c.bands) := by decide

theorem test_meets_TimeIsSetAndStepped :
    takes sender core0 Reg.BELL_STEP_CTRL = true ∧ sender.servo = 0 ∧ ticked.servo ≠ 0 ∧ ticked.servo ≠ 4 ∧
      (sender.put .BELL_STATUS_STATE 4).servo = 4 ∧
      (let c := puts sender [(.BELL_STATUS_STATE, 2), (.BELL_STATUS_REFUSING, 1)];
        takes c core0 Reg.BELL_STEP_CTRL = true ∧ c.servo ≠ 0 ∧ c.flag .BELL_STATUS_REFUSING = true ∧ c.ticking = false) ∧
      (let c := ticked.put .BELL_STATUS_REFUSING 1;
        takes c core0 Reg.BELL_STEP_CTRL = true ∧ c.flag .BELL_STATUS_REFUSING = true ∧ c.ticking = true) ∧
      (let c := sender.onBell fun b => { b with stepPending := true }; c.bell.stepPending = true ∧ c.ticking = false) ∧
      (let c := ticked.onBell fun b => { b with stepPending := true, stepArmedTick := some 4 };
        c.bell.stepPending = true ∧ c.ticking = true ∧ c.bell.tick ≠ c.bell.stepArmedTick) ∧
      sender.enabled 3 = true ∧ (sender.timeSource = 0 ∨ sender.timeSource = 3) := by decide

theorem test_meets_TimeSourcesAreMeasured :
    let e := linkAt (on sender [0x40, 0x41, 0x20, 0x2f]) 0 6
    let up := puts e [(.ETH_STAT_LINK 0, 1), (.ETH_STAT_LINK 1, 1), (.BELL_SRC_CFG_SRC, 1), (.BELL_PTP_CFG_TC_EN, 1)]
    let c := (((up.onBell fun b => { b with parent := some (0, []), asked := [true, false] }).elapse 7).ethFec 0 frame64).ethGood 0
    frame64.fcs = true ∧ c.ethFits 0 frame64 = true ∧ c.ptpOn 0 = true ∧ c.timeSource ≠ 3 ∧ c.bell.parent.map (·.1) = some 0 ∧
      c.ptpFits 127 (-7) (-7) = true ∧ c.ptpFits 126 0 (-7) = false ∧ listAt c.bell.ptp 0 none = none ∧
      c.ptpFits 127 (-3) (-3) = true ∧ 127 = min (c.get .BELL_PTP_CFG_DOMAIN) 127 ∧ listAt c.bell.asked 0 false = true ∧
      c.isSender = true ∧ c.flag .BELL_PTP_CFG_TC_EN = true ∧ c.flag .BELL_PTP_CFG_P2P = false ∧ c.enabled 3 = true ∧
      c.domOn 8 = true ∧ c.ethUp 1 = true ∧ c.ethUp 0 = true ∧ (c.put .BELL_STATUS_STATE 1).servo = 1 ∧
      (c.put .BELL_STATUS_STATE 2).servo = 2 ∧ c.isTile = false ∧
      (c.onBell fun b => { b with ptp := [some ⟨[], 0⟩, none] }).annExpiry 0 = some (c.annTimeout * logTime 0) ∧
      c.enabled 0x2f = true ∧ c.near 15 = true ∧ (c.txStart 7 1).sends 15 = true ∧ c.enabled 0x20 = true ∧ c.near 0 = true ∧
      (c.txStart 0 0).sends 0 = true := by decide

/-- A beacon at 60 Hz. -/
def beacon0 : Cell := .beacon ⟨0, 0, 0, ⟨60, 1, 0, 0, 0, true, 0⟩, 0, 0, 0, 0, 0, false⟩

theorem test_meets_BeaconsReachTilesAndFarSenders :
    cutShort.holds beacon0 ⟨3, 0, 0, 63, 0⟩ = false ∧
      soundRx beacon0 ⟨3, 0, 0, 63, 0⟩ (good beacon0 ⟨3, 0, 0, 63, 0⟩) = true ∧
      (let c := (linkAt (linkAt tile 0 6) 1 6).elapse 1
        let d := c.onTile fun t => { t with up := some 0, locked := true }
        c.isTile = true ∧ c.linkUpAt 0 = true ∧ c.linkUpAt 1 = true ∧ d.tile.up = some 0 ∧ d.tile.locked = true ∧
          d.tile.session = none ∧ d.flag .ELDER_T_CFG_RING = false) ∧
      (let c := on (twin 2) [0x21];
        c.isSender = true ∧ c.isTile = false ∧ c.enabled 0x21 = true ∧ c.twinOn = true ∧ c.ringed 1 = true ∧
          (c.put .TWIN_PORTS_NEAR 1).near 1 = false) ∧
      (let d := tile.onTile fun t => { t with ret := some ⟨500, 64, 0, some (600, 32, 0), false⟩ };
        d.isTile = true ∧ d.tile.ret = some ⟨500, 64, 0, some (600, 32, 0), false⟩ ∧
          (d.lastIndex + 65536 - 0 % 65536) % 65536 < 32768) ∧
      (let d := ticked.onPort 1 fun p => { p with ret := some ⟨500, 64, 0, some (600, 32, 5), false⟩ };
        d.isTile = false ∧ (d.port 1).ret = some ⟨500, 64, 0, some (600, 32, 5), false⟩ ∧ 5 ≤ d.lastIndex) :=
  ⟨rfl, good_sound _ _, by decide⟩

theorem test_meets_TickOutputsAndSyncInput :
    (rowOf (Reg.BELL_TOUT_CFG 0)).isSome = true ∧ (rowOf (Reg.BELL_TOUT_CFG 1)).isSome = true ∧
      takes sender core0 (Reg.BELL_TOUT_CFG 1) = true ∧ (sender.put (.BELL_TOUT_CFG_MODE 1) 1).toutMode 1 = 1 ∧
      listAt (sender.onBell fun b => { b with tout := [some ⟨1, 9, 0⟩, none] }).bell.tout 0 none = some ⟨1, 9, 0⟩ ∧
      (let d := (puts tile [(.BELL_SYNC_CFG_MODE, 1), (.BELL_SYNC_CFG_EDGE, 1)]).elapse 3;
        d.domOn 8 = true ∧ (d.get .BELL_SYNC_CFG_EDGE == 1) = true ∧ d.get .BELL_SYNC_CFG_MODE = 1) ∧
      (let d := (tile.put .BELL_SYNC_CFG_MODE 2).elapse 3;
        d.domOn 8 = true ∧ (d.get .BELL_SYNC_CFG_EDGE == 1) = false ∧ d.get .BELL_SYNC_CFG_MODE = 2 ∧ d.isTile = true ∧
          d.servo ≠ 2 ∧ d.bell.syncLast = none) ∧
      (let d := (tile.onBell fun b => { b with syncLast := some 0 }).elapse (us 3749);
        d.bell.syncLast = some 0 ∧ d.age < 0 + us 3750) := by decide

theorem test_meets_WarmResetsKeepD0 :
    sender.pwr.state = .run ∧ 4 ≤ 4 ∧ (let c := (sender.put .PWR_WAKE_EN_RST_N 1).onPwr fun p => { p with state := .deep };
      c.pwr.state = .deep ∧ bitAt (c.nat Reg.PWR_WAKE_EN) 4 = true) ∧ (sender.put .PWR_WDT_MS 1).get .PWR_WDT_MS ≠ 0 ∧ sender.domOn 7 = true ∧
      takes sender core0 Reg.PWR_RESET_CTRL = true ∧ takes sender core0 Reg.PWR_WDT = true ∧
      State.reset.chip.pwr.state = .off ∧ (sender.onPwr fun p => { p with state := .dim }).pwr.state = .dim ∧
      (let c := tile.onPwr fun p => { p with state := .quarantine };
        c.pwr.state = .quarantine ∧ takes c core0 Reg.PWR_RESET_CTRL = true) := by decide

theorem test_meets_StartsFromReset :
    (let b : BootIn := ⟨3, 7, true, 0, 31, true, none⟩; 2 ≤ b.role ∧ b.role < 4 ∧ b.geo < 8 ∧ b.tamper < 32) ∧
      State.reset.chip.pwr.state = .off ∧
      (let b : BootIn := ⟨1, 0, true, 0, 0, true, none⟩;
        b.role < 2 ∧ b.fuseOk = true ∧ b.disagree = 0 ∧ b.tamper = 0 ∧ b.romOk = true) ∧
      State.reset.chip.get .GATE_TAMPER_STAT_LATCHED = 0 ∧ State.reset.chip.fuses.tamperCnt < 31 ∧
      (let c := ((sender.onPwr fun p => { p with state := .waking, booted := false }).put .GATE_BOOT_STAGE 4).onUpd fun u =>
          { u with read := true, slots := [⟨3, 0, []⟩, ⟨0, 0, []⟩, ⟨0, 0, []⟩, ⟨0, 0, []⟩] };
        c.isSender = true ∧ c.romDone = true ∧ c.upd.read = true ∧ (c.img 0).state = 3) ∧
      (let c := { sender with store := { sender.store with factory := true } };
        c.store.factory = true ∧ c.pwr.booted = true ∧ c.flag .SYS_ROLE_FACTORY = false ∧
          (c.put .SYS_ROLE_FACTORY 1).flag .SYS_ROLE_FACTORY = true) ∧
      tile.isTile = true ∧ tile.tile.locator = false ∧ tile.pwr.state = .run := by decide

/-- A device of a sender's port. -/
def device (serial wdn : Nat) (st : DevState) : Dev := { newDev serial with st := st, wdn := wdn, count := 1 }

/-- A sender with a port in use and what hangs on it: port 0 is RUNNING, its link UP. -/
def chained (l : List Dev) : Chip :=
  ((linkAt (on ticked [0x20, 0x30]) 0 6).put (.CHAIN_STATE_STATE 0) 3).onPort 0 fun p => { p with devs := l }

/-- A sender with a record at the head of the burst queue. -/
def burst (c : Chip) (r : Rec) : Chip := c.onWell fun w => { w with queue := [(0, 64, r)] }

/-- A sender with a switch to mode 1 at tick `n` in a state. -/
def switching (state n : Nat) : Chip :=
  { (chained [device 7 64 .admitted]).put .SYS_MODE_STAT_STATE state with switch := some ⟨1, n, [(0, 64)], [], 0⟩ }

/-- A tile armed to switch. -/
def armed (n : Nat) (go : Bool) : Chip :=
  (tile.onBell fun b => { b with tick := some 5 }).onTile fun t => { t with arm := some ⟨1, n, go⟩ }

theorem test_meets_ModesSwitchAtOneTick :
    let arm := fun (m n : Nat) => puts ticked [(.SYS_MODE_ARM_MODE, m), (⟨Reg.SYS_MODE_TICK_LO, 31, 0⟩, n)]
    (arm 1 21).isSender = true ∧ takes (arm 1 21) core0 Reg.SYS_MODE_CTRL = true ∧ (arm 1 21).armCause 1 21 = 0 ∧
      (arm 1 20).armCause 1 20 = 1 ∧ takes (arm 1 20) core0 Reg.SYS_MODE_CTRL = true ∧
      takes (switching 2 9) core0 Reg.SYS_MODE_CTRL = true ∧ (switching 2 9).switchPending = true ∧
      (switching 2 9).get .SYS_MODE_STAT_STATE ≠ 3 ∧ (switching 3 9).switchPending = true ∧
      (switching 3 9).get .SYS_MODE_STAT_STATE = 3 ∧ ticked.switchPending = false ∧
      ((burst (switching 1 9) (.modeAck 9 1)).popRecord isModeAck).map (·.2) = some (0, 64, .modeAck 9 1) := by decide

theorem test_meets_ModesSwitchAtOneTick_at_its_tick :
    (switching 2 9).isSender = true ∧ (switching 2 9).standby = false ∧ 9 ≤ (switching 2 9).lastIndex + 4 ∧
      (switching 2 9).get .SYS_MODE_STAT_STATE = 2 ∧ (switching 2 9).lastIndex + 2 ≤ 9 ∧
      (switching 2 7).lastIndex + 2 ≤ 7 ∧ 6 < (switching 2 6).lastIndex + 2 ∧
      (switching 1 9).get .SYS_MODE_STAT_STATE = 1 ∧ (switching 1 9).switchPending = true ∧
      (switching 3 5).modeDue = true ∧ (switching 3 5).get .SYS_MODE_STAT_STATE = 3 ∧
      (armed 5 true).isTile = true ∧ (armed 5 true).isSender = false ∧ (armed 5 true).bell.tick = some 5 ∧
      (armed 5 true).tile.arm = some ⟨1, 5, true⟩ ∧ (armed 4 true).tile.arm = some ⟨1, 4, true⟩ ∧
      (armed 5 false).tile.arm = some ⟨1, 5, false⟩ := by decide

/-- Markers that follow each other on a lane, and the same with every bit inverted. -/
def markers (lane seq : Nat) : Block × Block := (markerBlock lane seq 0, markerBlock lane (seq + 1) 0)

theorem test_meets_LanesComeUpInOrder :
    (on sender [0x10]).enabled 0x10 = true ∧ (sender.put (.SERDES_QSTAT_PLL_LOCK 11) 1).flag (.SERDES_QSTAT_PLL_LOCK 11) = true ∧
      ((sender.setTx 0 1 { emptyTx with idleAt := some 4 }).txOf 0 1).idleAt = some 4 ∧ ronunoPort 0 1 = true ∧
      (sender.txOf 0 1).idleAt = none ∧
      ([0, 1, 2, 3, 4, 5, 6].all fun i => (linkAt sender 1 i).portState 0 1 == i && (linkAt tile 1 i).portState 0 1 == i) = true ∧
      sender.isTile = false ∧ sender.rateCode 0 < 3 ∧ sender.rateCode 0 ≠ 1 ∧
      tile.isTile = true ∧ tile.tile.up = none ∧ ((tile.onTile fun t => { t with up := some 0 }).tile.up).isSome = true ∧
      blockLock (List.replicate 64 1) = true ∧ laneLock (markers 0 9).1 (markers 0 9).2 = some (0, false) ∧
      laneLock (markers 1 65535).1 (markers 1 0).1 = some (1, false) ∧ (0 : Nat) ≠ 1 ∧
      laneLock (markers 1 9).1.inverted (markers 1 9).2.inverted = some (1, true) ∧ laneLock idleBlock idleBlock = none := by decide

theorem test_meets_LanesComeUpInOrder_and_go_down :
    sender.lossHolds 0 1 .signal = true ∧ (∀ ppm, Loss.signal ≠ .frequency ppm) ∧ tile.lossHolds 0 1 (.frequency 200) = true ∧
      sender.lossHolds 0 1 .markers = false ∧
      sender.lossHolds 0 1 (.headers 2 (List.replicate 16 0)) = true :=
  ⟨rfl, (fun _ h => Loss.noConfusion h), by decide, by decide, by decide⟩

theorem test_meets_LanesAreWatched :
    ronuno 0 0 = true ∧ 2 ≤ (linkAt sender 0 2).laneState 0 0 ∧ (linkAt sender 0 2).laneState 0 0 ≠ 7 ∧
      (((linkAt sender 0 6).elapse 5).markerIn 0 0 [] (markerBlock 0 9 0)).2 = false ∧
      (((linkAt sender 0 6).elapse 5).markerIn 0 0 (List.replicate 16 ⟨0, []⟩) idleBlock).2 = true ∧
      ((listAt (((linkAt sender 0 6).elapse 5).upright 0 0 [markerBlock 0 9 0]) 0 (markerBlock 0 9 0)).isMarker = true) ∧
      ((listAt (((linkAt sender 0 6).elapse 5).upright 0 0 [idleBlock]) 0 idleBlock).isMarker = false) ∧
      (linkAt sender 0 6).laneState 0 0 = 6 ∧ (sender.put (.SERDES_EYE_MIN_WIDTH 0) 9).get (.SERDES_EYE_MIN_WIDTH 0) = 9 ∧
      sender.get (.SERDES_EYE_MIN_WIDTH 0) ≤ 127 ∧ sender.get (.SERDES_EYE_MIN_HEIGHT 0) ≤ 127 ∧
      (sender.lane 0 0).low = 0 ∧ (sender.lane 0 0).told = false ∧
      (let c := sender.setLane 0 0 { sender.lane 0 0 with low := 1 }; 1 ≤ (c.lane 0 0).low ∧ (c.lane 0 0).told = false) ∧
      takes (on sender [0x10]) core0 (Reg.SERDES_L_RXEQ 0 3) = true ∧ takes (on sender [0x10]) core0 (Reg.SERDES_SSC 0) = true ∧
      takes sender core0 (Reg.SERDES_SSC 0) = true ∧ sender.enabled 0x10 = false ∧ (on sender [0x10]).enabled 0x10 = true ∧
      takes sender core0 (Reg.SERDES_MON 10) = true := by decide

theorem test_meets_LoopbacksOnlyInService :
    let w := (on sender [0x10]).put .SYS_MODE_MODE 5
    takes sender core0 (Reg.SERDES_LB 0) = true ∧ sender.mode ≠ 5 ∧ (lbMask 0 (1 &&& 0xffff00ff)).toNat % 256 ≠ 0 ∧
      w.mode = 5 ∧ takes w core0 (Reg.SERDES_LB 0) = true ∧ bitsOf (lbMask 0 (0x10001 &&& 0xffff00ff)) 31 16 ≠ 0 ∧
      ((w.setLbAt 0 (some 4)).quad 0).lbAt = some 4 ∧ w.upstreamLane 10 1 = false ∧
      takes w core0 (Reg.SERDES_L_PRBS 10 1) = true ∧ 4 * 10 + 1 < 42 ∧ w.flag (.SERDES_L_PRBS_GEN_EN 10 1) = false ∧
      w.flag (.SERDES_L_PRBS_CHK_EN 10 1) = false ∧ (w.put (.SERDES_L_PRBS_CHK_EN 0 0) 1).flag (.SERDES_L_PRBS_CHK_EN 0 0) = true ∧
      w.lbCode 0 0 = 0 ∧ (w.put ⟨Reg.SERDES_LB 0, 31, 0⟩ 3).lbCode 0 0 = 3 ∧
      (let d := (sender.setNat Reg.PWR_WAKE_EN 4).onPwr fun p => { p with state := .deep };
        d.pwr.state = .deep ∧ bitAt (d.nat Reg.PWR_WAKE_EN) 2 = true) ∧
      sender.pwr.state ≠ .deep ∧ sender.isSender = true ∧ (on sender [0x1a]).enabled 0x1a = true ∧
      (sender.put .WELL_MGMT_CFG_EN 1).flag .WELL_MGMT_CFG_EN = true := by decide

/-- Port 15, which transmits, with its queues. -/
def queued (f : Port → Port) : Chip := ((on ticked [0x2f, 0x30]).txStart 7 1).onPort 15 f

/-- A command that waits at port 15. -/
def waiting : Hdr × Cmd × Option (Nat × Nat) := (⟨0, 64, 0, 0, 15⟩, ⟨1, 1, 2, false, false, 0, 0, []⟩, none)

theorem test_meets_CellsLeaveByRank :
    let g := fun f => (queued f).elapse 0
    (g id).isSender = true ∧ (g id).pastDeadline 15 = false ∧ (g id).sends 15 = true ∧ (g id).enabled 0x2f = true ∧
      (g id).enabled 0x30 = true ∧ (g id).near 15 = true ∧ ((ticked.txStart 7 1).elapse 0).sends 15 = true ∧
      ((ticked.txStart 7 1).elapse 0).enabled 0x2f = false ∧ (ticked.elapse 0).sends 15 = false ∧
      ((g id).elapse (ms 120)).pastDeadline 15 = true ∧
      ((g id).port 15).beacons = [] ∧ ((g id).port 15).racks = [] ∧ ((g id).port 15).cmds = [] ∧ ((g id).port 15).boots = [] ∧
      ((g id).port 15).pixels = [] ∧
      ((g fun p => { p with beacons := [beacon0] }).port 15).beacons = [beacon0] ∧
      ((g fun p => { p with racks := [.rack 5 [1]] }).port 15).racks = [.rack 5 [1]] ∧
      ((g fun p => { p with pixDone := true, cmds := [waiting] }).port 15).cmds = [waiting] ∧
      ((g fun p => { p with cmds := [waiting] }).port 15).cmdSpent + (Cell.command waiting.1 waiting.2.1).blocks ≤
        (g id).get (.CHAIN_CMD_BUDGET_BLOCKS 15) ∧
      ¬(((g fun p => { p with cmds := [waiting], cmdSpent := 9999 }).port 15).cmdSpent +
        (Cell.command waiting.1 waiting.2.1).blocks ≤ (g id).get (.CHAIN_CMD_BUDGET_BLOCKS 15)) ∧
      (let c := g fun p => { p with pixDone := true, boots := [.boot ⟨3, 0, 0, 0, 15⟩ 1 0 []] };
        (c.port 15).boots = [.boot ⟨3, 0, 0, 0, 15⟩ 1 0 []] ∧ (c.port 15).pixDone = true) ∧
      ((g fun p => { p with pixels := [.idle, .idle] }).port 15).pixels = [.idle, .idle] ∧ (queued id).bell.tick.isSome = true := by
  decide

theorem test_meets_CellsLeaveByRank_and_at_instants :
    (let c := queued fun p => { p with pixels := [.idle] };
      (((c.elapseTo (c.deadline 15)).port 15).pixels).length = 1) ∧
      (let c := queued id;
        let d := c.elapseRet (c.retInstant (c.retNow 15).1 (c.rateCode 7) (superframeLen (c.retNow 15).2 - 1) + us 10);
        d.enabled 0x2f = true ∧ d.enabled 0x30 = true ∧ d.near 15 = true ∧ d.sends 15 = true ∧ d.chainState 15 ≠ 2) ∧
      (let c := (linkAt (twin 3) 1 6).txStart 0 1;
        c.twinOn = true ∧ c.ringed 1 = true ∧ c.near 1 = false ∧ c.linkUpAt 1 = true ∧ c.sends 1 = true) := by decide

theorem test_meets_CellsLeaveByRank_and_keys :
    (let c := queued fun p => { p with session := some ⟨0, false, false⟩ };
        (c.port 15).session = some ⟨0, false, false⟩ ∧ 0 = c.lastIndex / 2 ^ 20 ∧ c.lastIndex + 64 ≤ (0 + 1) * 2 ^ 20) ∧
      (let c := (queued fun p => { p with session := some ⟨0, true, false⟩ }).onBell fun b => { b with tick := some (2 ^ 20) };
        (c.port 15).session = some ⟨0, true, false⟩ ∧ 0 < c.lastIndex / 2 ^ 20) := by decide

/-- A device whose first three identity parts are held, the certificate a tile's for serial 7. -/
def partly : Dev :=
  { device 7 0 .verifying with
    parts := [(0, [0x48, 0x49, 0x43, 0x31, 0, 1, 2, 0, 0, 0, 0, 0, 0, 0, 0, 7]), (1, []), (2, [])] }

theorem test_meets_TilesAreFoundAndAdmitted :
    let d := device 7 0 .verifying
    (chained []).enabled 0x20 = true ∧ (chained []).enabled 0x30 = true ∧ (chained []).isSender = true ∧
      (chained []).devOf 0 7 = none ∧ (chained [d]).devOf 0 7 = some d ∧ (assocPut d.parts 3 []).length < 4 ∧
      4 ≤ (assocPut partly.parts 3 []).length ∧ (chained []).fuses.lifecycle ≠ 2 ∧
      (let e := { partly with parts := assocPut partly.parts 3 [] };
        idCertOk e.identity 1 = true ∧ beField e.identity 8 8 = 7) ∧
      (chained [partly]).devOf 0 7 = some partly ∧ d.idReqs < 7 ∧ 7 ≤ ({ d with idReqs := 7 } : Dev).idReqs ∧
      (let k := device 7 0 .keying;
        (chained [k]).devOf 0 7 = some k ∧ ((chained [k]).onStore fun t => { t with factory := false }).wdnFor 0 k = none ∧
          ((chained [k]).onStore fun t => { t with factory := false, wdns := [(7, 64)] }).wdnFor 0 k = some 64) ∧
      leNat (([1] : List Byte).take 1) = 1 ∧ leNat (([2] : List Byte).take 1) ≠ 1 := by decide

theorem test_meets_TilesAreFoundAndAdmitted_and_heard (a : Answer) (h : Hdr) :
    soundRx (.answer 0 a) h (good (.answer 0 a) h) = true := good_sound _ _

theorem test_meets_TilesAreFoundAndAdmitted_and_listed :
    let l := (chained [device 7 64 .unassigned]).onPort 0 fun p => { p with list := [⟨7, 3, 1, 0⟩] }
    takes l core0 (Reg.CHAIN_LIST_WDN 0) = true ∧ (l.port 0).list[l.get (.CHAIN_LIST_IDX_IDX 0)]? = some ⟨7, 3, 1, 0⟩ ∧
      l.isTile = false ∧ bitsOf 0x80000040 31 31 = 1 ∧ 0x40 ≤ bitsOf 0x80000040 15 0 ∧ bitsOf 0x8000003f 15 0 < 0x40 ∧
      (l.store.wdns.any fun x => x.2 == bitsOf 0x80000040 15 0 && x.1 != 7) = false ∧
      (let c := (on ticked [0x20]).put (.CHAIN_CFG_DISC_EN 0) 1;
        c.enabled 0x20 = true ∧ c.chainState 0 = 0 ∧ c.linkUpAt 0 = false ∧ c.flag (.CHAIN_CFG_DISC_EN 0) = true) ∧
      (let c := (chained []).put (.CHAIN_STATE_STATE 0) 1; c.chainState 0 = 1 ∧ c.linkUpAt 0 = true) ∧
      (let c := (chained []).put (.CHAIN_DISC_PERIOD 0) 1; c.chainState 0 = 3 ∧ c.get (.CHAIN_DISC_PERIOD 0) ≠ 0) ∧
      (let c := ((chained []).put (.CHAIN_STATE_STATE 0) 2).onPort 0 fun p => { p with silent := 16 };
        c.chainState 0 = 2 ∧ 16 ≤ (c.port 0).silent) := by decide

/-- A slot of WDN 64 without records. -/
def slot64 : Slot := ⟨64, 0, 0, 0, 0, 0, 0, 0, 0, 0, 0, []⟩

theorem test_meets_SlotsAndRecordsOfTiles :
    let c := chained [device 7 64 .admitted]
    c.isSender = true ∧ c.isTile = false ∧ c.enabled 0x20 = true ∧ c.enabled 0x30 = true ∧ c.examines 0 = true ∧
      c.devWdn 0 slot64.wdn = some (device 7 64 .admitted) ∧
      ((c.port 0).drift.any fun d => d.wdn == slot64.wdn && d.muted) = false ∧ c.twinOn = false ∧ c.ringed 0 = false ∧
      ([Rec.completion 1 0 0 false [], .event 1 1 1, .telemetry 1 [], .drops 2, .boot 1 0 0 2, .muteReport 64 0 0 true,
          .mandate 3 1].all fun r => ((burst c r).popRecord fun _ => true).map (·.2) == some (0, 64, r)) = true ∧
      (match (burst c (.completion 1 0 0 false [])).popRecord fun _ => true with
        | some (d, _) => (d.completionIn 0 64 1 0 0 false []).2.isNone
        | none => false) = true ∧
      (let b := c.onPort 0 fun p => { p with flight := [⟨waiting.1, waiting.2.1, 5, [64], none⟩] };
        ((b.completionIn 0 64 1 0 0 false []).2).isSome = true) ∧
      (burst (puts c [(.ELDER_NOM_VALID 0, 1), (.ELDER_NOM_WDN 0, 64)]) (.mandate 3 1)).elderOf 64 = some 0 ∧
      (device 7 64 .suspended).st ≠ .admitted := by decide

theorem test_meets_SlotsAndRecordsOfTiles_and_checks (y : Cell) (h : Hdr) (n : Nat) (c : Chip) (k e : Nat)
    (key : c.portKey n h.ke = some (k, e)) :
    (⟨[], y.hcrc h + 1, [], 0, none⟩ : Rx).hcrc ≠ y.hcrc h ∧ (good y h).hcrc = y.hcrc h ∧ (good y h).cut = none ∧
      (good y h).crc = y.crc h (good y h).tag ∧ (good y h).pre = [] ∧
      (⟨[], y.hcrc h, [], y.crc h [] + 1, none⟩ : Rx).crc ≠ y.crc h [] ∧
      soundRx (.census h.dest) h (good (.census h.dest) h) = true ∧ soundRx (.muted h.dest) h (good (.muted h.dest) h) = true ∧
      c.portTagOk n y h ⟨[], y.hcrc h, y.tag h k e c.lastIndex, y.crc h (y.tag h k e c.lastIndex), none⟩ = true :=
  ⟨Nat.succ_ne_self _, rfl, rfl, rfl, rfl, Nat.succ_ne_self _, good_sound _ _, good_sound _ _, by simp [Chip.portTagOk, key]⟩

theorem test_meets_SlotsAndRecordsOfTiles_and_keys :
    let c := (chained []).onPort 0 fun p => { p with session := some ⟨0, false, false⟩ }
    c.portKey 0 0 = some ((c.slot 8).key, 0) ∧ (chained []).portKey 0 0 = none := by decide

/-- A command cell's fields with a CTR, a TOKEN and an OP. -/
def cmd (ctr token op : Nat) : Cmd := ⟨ctr, token, op, false, false, 0, 0, []⟩

/-- An addressee: by WDN 64, by position 1, or every tile. -/
def addr (amode dest : Nat) : Hdr := ⟨amode, dest, 0, 0, 0⟩

/-- A tile of WDN 64 in a state of the chain, its session keyed, upstream port 0. -/
def keyed (st : Nat) : Chip :=
  (puts tile [(.SYS_DOMAIN_WDN, 64), (.SYS_DOMAIN_WDN_VALID, 1), (.CHAIN_POS_POSITION 0, 1), (.RET_UNITS_FIRST, 8), (.RET_UNITS_COUNT, 2)]).onTile
    fun t => { t with up := some 0, st := st, session := some ⟨0, false, false⟩ }

/-- How a cell with a right tag of the tile's key arrives. -/
def tagged (c : Chip) (x : Cell) (h : Hdr) : Rx :=
  let k := (c.tileKey h.ke).getD (0, 0)
  let t := x.tag h k.1 k.2 c.lastIndex
  ⟨[], x.hcrc h, t, x.crc h t, none⟩

theorem tagged_sound (c : Chip) (x : Cell) (h : Hdr) : soundRx x h (tagged c x h) = true := by simp [soundRx, tagged, Rx.holds]

theorem tagged_ok (c : Chip) (x : Cell) (h : Hdr) (key : (c.tileKey h.ke).isSome = true) : c.tagOk x h (tagged c x h) = true := by
  obtain ⟨k, e⟩ := Option.isSome_iff_exists.mp key
  simp [Chip.tagOk, tagged, e]

/-- A command that is tagged right is new where the rest of what makes it so holds. -/
theorem taken (c : Chip) (port : Nat) (h : Hdr) (x : Cmd) (l : List Nat)
    (rest : (c.isTile && decide (port < 2) && c.tile.up == some port && c.namesMe h && !x.unauth && (c.tileKey h.ke).isSome &&
      decide (c.tile.ctrMax < x.ctr) && (assoc c.tile.kept x.token).isNone && l.contains h.amode && knownOps.contains x.op) = true) :
    newCommand c port h x (tagged c (.command h x) h) l = true := by
  simp only [Bool.and_eq_true] at rest
  obtain ⟨⟨⟨⟨⟨⟨⟨⟨⟨h1, h2⟩, h3⟩, h4⟩, h5⟩, h6⟩, h7⟩, h8⟩, h9⟩, h10⟩ := rest
  simp only [newCommand, tagged_sound, tagged_ok c _ h h6, h1, h2, h3, h4, h5, h7, h8, h9, h10, Bool.and_true]

theorem test_meets_TilesCarryOutCommands :
    newCommand (keyed 4) 0 (addr 3 0) (cmd 1 9 1) (tagged (keyed 4) (.command (addr 3 0) (cmd 1 9 1)) (addr 3 0)) [0, 1, 2, 3] = true ∧
      newCommand (keyed 4) 0 (addr 0 64) (cmd 1 9 4) (tagged (keyed 4) (.command (addr 0 64) (cmd 1 9 4)) (addr 0 64)) [0] = true ∧
      newCommand (keyed 2) 0 (addr 1 1) (cmd 1 9 0x46) (tagged (keyed 2) (.command (addr 1 1) (cmd 1 9 0x46)) (addr 1 1)) [1] = true ∧
      newCommand (keyed 4) 0 (addr 3 0) (cmd 1 9 0x45) (tagged (keyed 4) (.command (addr 3 0) (cmd 1 9 0x45)) (addr 3 0)) [3] = true :=
  ⟨taken _ _ _ _ _ (by decide), taken _ _ _ _ _ (by decide), taken _ _ _ _ _ (by decide), taken _ _ _ _ _ (by decide)⟩

theorem test_meets_TilesCarryOutCommands_operations :
    ({ cmd 1 9 2 with data := leBytes 4 7 } : Cmd).data.length = 4 ∧ (keyed 2).tile.st = 2 ∧ (keyed 3).tile.st = 3 ∧
      (let c := (keyed 4).onTile fun t => { t with subs := (List.range 16).map fun i => ⟨i + 1, 0, 1, 1, 1⟩ };
        16 ≤ (c.tile.subs.filter fun y => y.id != 0).length) ∧
      (keyed 4).fuses.claimed = false ∧ (keyed 4).fuses.spent = false := by decide

theorem test_meets_TagsGuardCommands :
    (keyed 4).isTile = true ∧ (keyed 4).flag .ELDER_T_CFG_RING = false ∧
      (keyed 4).namesMe (addr 0 65) = false ∧ (keyed 4).namesMe (addr 0 64) = true ∧
      (keyed 4).tile.up = some 0 ∧ (keyed 4).tile.session.isSome = true ∧ ((keyed 4).tileKey (addr 0 64).ke).isSome = true ∧
      (keyed 4).tileKey 1 = none ∧ (cmd 0 9 1).ctr ≤ (keyed 4).tile.ctrMax ∧ (keyed 4).tile.ctrMax < (cmd 1 9 1).ctr ∧
      assoc (keyed 4).tile.kept 9 = none ∧ [1].contains (addr 0 64).amode = false ∧ knownOps.contains (cmd 1 9 0xff).op = false ∧
      assoc ((keyed 4).onTile fun t => { t with kept := [(9, .completion 9 0 0 false [])] }).tile.kept 9 =
        some (.completion 9 0 0 false []) ∧
      (let at_ := fun (n : Nat) (k : Session) => ((keyed 4).onTile fun t => { t with session := some k }).onBell
          fun b => { b with tick := some n };
        (at_ (2 ^ 20 + 16) ⟨1, false, true⟩).tile.session = some ⟨1, false, true⟩ ∧
          1 * 2 ^ 20 + 16 ≤ (at_ (2 ^ 20 + 16) ⟨1, false, true⟩).lastIndex ∧
          0 < (at_ (2 ^ 20) ⟨0, true, false⟩).lastIndex / 2 ^ 20) := by decide

theorem test_meets_TagsGuardCommands_and_checks (y : Cell) (h : Hdr) (tag : List Byte) :
    (⟨[], y.hcrc h + 1, tag, 0, none⟩ : Rx).hcrc ≠ y.hcrc h ∧ (⟨[], y.hcrc h, tag, y.crc h tag + 1, none⟩ : Rx).crc ≠ y.crc h tag ∧
      (⟨[], y.hcrc h, tag, 0, some (2, errorBlock)⟩ : Rx).cut = some (2, errorBlock) ∧ (keyed 4).tagOk y { h with ke := 1 } (good y h) = false :=
  ⟨Nat.succ_ne_self _, Nat.succ_ne_self _, rfl, by
    have e : (keyed 4).tileKey 1 = none := by decide
    simp only [Chip.tagOk, e]⟩

/-- A tile without a session. -/
def unkeyed : Chip := (keyed 1).onTile fun t => { t with session := none }

/-- An untagged command that is sound is acted on where the rest of what makes it so holds. -/
theorem opened (c : Chip) (port : Nat) (h : Hdr) (x : Cmd) (amode : Nat)
    (rest : (c.isTile && decide (port < 2) && c.tile.up == some port && c.namesMe h && c.tile.session.isNone && h.amode == amode &&
      c.tile.st != 0 && c.tile.st != 5) = true) :
    openCommand c port h x (good (.command h x) h) amode = true := by
  simp only [Bool.and_eq_true] at rest
  obtain ⟨⟨⟨⟨⟨⟨⟨h1, h2⟩, h3⟩, h4⟩, h5⟩, h6⟩, h7⟩, h8⟩ := rest
  simp only [openCommand, good_sound, h1, h2, h3, h4, h5, h6, h7, h8, Bool.and_true]

/-- A KEYX with the nonce and a certificate of use 0. -/
def keyxCmd : Cmd := { cmd 1 9 0x42 with data := [0x48, 0x49, 0x43, 0x31, 0, 1, 1] ++ leBytes 800 0 }

theorem test_meets_TilesIdentifyThemselvesAndStart (x : Cmd) :
    openCommand unkeyed 0 (addr 3 0) x (good (.command (addr 3 0) x) (addr 3 0)) 3 = true ∧
      openCommand unkeyed 0 (addr 1 1) x (good (.command (addr 1 1) x) (addr 1 1)) 1 = true :=
  ⟨opened _ _ _ _ _ (by decide), opened _ _ _ _ _ (by decide)⟩

theorem test_meets_TilesIdentifyThemselvesAndStart_and_key :
    unkeyed.flag .GATE_QUAR_ACTIVE = false ∧ unkeyed.fuses.lifecycle ≠ 2 ∧ idCertOk keyxCmd.data 0 = true ∧ idCertOk [] 0 = false ∧
      beField keyxCmd.data 0x2a8 48 = unkeyed.tile.nonce ∧ beField keyxCmd.data 0x2a8 48 ≠ 1 ∧
      (unkeyed.onTile fun t => { t with nonce := 1 }).tile.nonce = 1 ∧ unkeyed.fuses.claimed = false ∧
      unkeyed.claimCheck keyxCmd.data = true ∧
      (let c := { unkeyed with fuses := { unkeyed.fuses with claims := [(1, false)] } };
        c.fuses.claimed = true ∧ c.claimCheck keyxCmd.data = false) ∧
      (let a : Answer := ⟨7, 1, 1, 1, 0, []⟩; (unkeyed.onTile fun t => { t with answers := [a] }).tile.answers = [a]) ∧
      (unkeyed.put .BELL_STATUS_STATE 1).servo ≠ 0 := by decide

/-- An image of 256 bytes of which every piece is held. -/
def whole256 (b : List Byte) : Image := ⟨1, some 256, [0], 0, false, memPut [] 0 b, []⟩

theorem test_meets_TilesIdentifyThemselvesAndStart_images :
    (keyed 3).wantsImage 1 = some false ∧ (keyed 3).tile.image = none ∧ (addr 1 1).amode ≠ 0 ∧ (keyed 3).namesMe (addr 1 1) = true ∧
      (whole256 []).whole = true ∧ (whole256 []).state = 0 ∧ (whole256 []).staged = false ∧
      (keyed 3).verdict (whole256 (beBytes 4 0x43494d31)) true = 1 ∧ (keyed 3).verdict (whole256 []) true = 5 ∧
      (keyed 3).verdict (whole256 (beBytes 4 0x43494d31)) false = 3 ∧
      (let c := ((keyed 3).onTile fun t => { t with firmware := some 1 }).onPwr
          fun p => { p with state := .waking, booted := false };
        c.tile.running = false ∧ c.tile.firmware.isSome = true ∧ c.pwr.state = .waking ∧ c.pwr.booted = false) ∧
      (keyed 4).tile.subs = [] ∧ ((keyed 4).onTile fun t => { t with subs := [⟨1, 0, 1, 1, 0⟩] }).tile.subs = [⟨1, 0, 1, 1, 0⟩] ∧
      (keyed 4).enabled 0xa6 = true := by decide

/-- The descriptor of a panel of 2 × 2 pixels, all currents in range. -/
def panel : List Byte :=
  let b := leBytes 4 0x3144504c ++ leBytes 2 1 ++ leBytes 2 64 ++ leBytes 2 2 ++ leBytes 2 2 ++ leBytes 1 2 ++ leBytes 1 1 ++ leBytes 2 0 ++
    leBytes 2 0 ++ leBytes 2 1000 ++ leBytes 2 1000 ++ leBytes 2 1000 ++ leBytes 36 0
  b ++ leBytes 4 (crc32 b)

/-- An admitted tile with a panel and an open tick period 5, its slice in a state. -/
def receiving (slice : Nat) : Chip :=
  (((keyed 4).setDesc panel 2).put .NIMBUS_STAT_SLICE slice).onNim fun n => { n with open_ := true, period := 5 }

theorem test_meets_SlicesAreShownOrHeld (p : PixHdr) (b : List Byte) :
    pixelFor (receiving 0) 0 (addr 0 64) p b (good (.pixel (addr 0 64) p b) (addr 0 64)) = true := by
  have e : (receiving 0).isTile = true ∧ (receiving 0).tile.up = some 0 ∧ (receiving 0).namesMe (addr 0 64) = true ∧
      (receiving 0).tile.st = 4 := by decide
  have m : (addr 0 64).amode = 0 := rfl
  simp [pixelFor, good_sound, e, m]

/-- A tile in tick period 5 that takes ticks from its own grid, its slice in a state, and one that takes them from SYNC_IN. -/
def gridded (slice : Nat) : Chip :=
  ((puts (receiving slice) [(.BELL_STATUS_STATE, 2), (.BELL_TICK_CTRL_TICK_EN, 1), (⟨Reg.BELL_FRAME_NUM, 31, 0⟩, 60), (⟨Reg.BELL_FRAME_DEN, 31, 0⟩, 1)]).onBell
    fun b => { b with tick := some 5, tickUp := us 2, gridTick := some 5 })

theorem test_meets_SlicesAreShownOrHeld_cells :
    (receiving 0).decideDue.nim.open_ = true ∧
      (let p : PixHdr := ⟨5, 0, 4, true, true, 0⟩
        let c := (receiving 0).decideDue;
        p.frame = c.nim.period % 65536 ∧ c.cellCause p = 0 ∧ c.cellCause { p with off := 4 } ≠ 0 ∧
          c.cellCause { p with last := false } ≠ 0 ∧ c.tile.admitTick ≤ c.nim.period ∧ c.enabled 0xa0 = true) ∧
      ([0, 1, 2, 3, 4, 5].all fun k => (receiving k).decideDue.slice == k) = true ∧ (receiving 2).isTile = true ∧
      ((receiving 2).onTile fun t => { t with session := none }).decideDue.sliceTagOk = false := by decide

theorem test_meets_SlicesAreShownOrHeld_decisions :
    (gridded 3).gridAhead = true ∧ (gridded 3).syncTicks = false ∧
      (let c := (gridded 3).put .BELL_STATUS_STATE 0; (c.put .BELL_SYNC_CFG_MODE 2).syncTicks = true) ∧
      (let c := (gridded 3).elapseTo (gridded 3).decideInstant; c.nim.open_ = true ∧ c.slice = 3 ∧ c.inTime = true) ∧
      (let c := (gridded 3).onNim fun n => { n with band := 1, readyAt := ms 500 };
        (c.elapseTo c.decideInstant).slice = 3 ∧ (c.elapseTo c.decideInstant).inTime = false) ∧
      ([0, 1, 2, 4].all fun k => ((gridded k).elapseTo (gridded k).decideInstant).slice == k) = true ∧
      ((gridded 3).nim.band ≠ 0 ∨ (gridded 3).nextTick = (gridded 3).nim.period + 1) := by decide

theorem test_meets_SlicesAreShownOrHeld_swaps :
    (let c := (gridded 3).decision; let d := c.elapseTo c.swapInstant;
        d.nim.decided = true ∧ d.tile.locator = false ∧ d.flag .NIMBUS_STAT_ARMED = true ∧ d.enabled 0xa0 = true) ∧
      (let c := (gridded 0).decision; let d := c.elapseTo c.swapInstant;
        d.nim.decided = true ∧ d.tile.locator = false ∧ d.flag .NIMBUS_STAT_ARMED = false) := by decide

theorem test_meets_ReturnSlotsOfATile :
    let c := ((keyed 4).put .BELL_STATUS_STATE 1).onTile fun t => { t with sent := [(9, [.drops 1])] }
    c.isTile = true ∧ c.flag .ELDER_T_CFG_RING = false ∧ c.enabled 0x30 = true ∧ c.flag .GATE_QUAR_ACTIVE = false ∧ c.servo ≠ 0 ∧
      c.owns 9 = true ∧ c.owns 10 = false ∧ assoc (c.elapseSlot (windowBlock 9)).tile.sent 9 = some [.drops 1] ∧
      (c.elapseSlot (windowBlock 9)).flag .ELDER_T_CFG_RING = false ∧
      c.tile.up = some 0 ∧ c.tile.session.isSome = true ∧ (c.tileKey 0).isSome = true ∧ c.tileKey 1 = none ∧
      c.get .RET_UNITS_COUNT ≠ 0 ∧ (c.elapseSlot 0).flag (.CHAIN_STATE_TAIL (c.elapseSlot 0).upPort) = false ∧
      (Cell.slot 9 ⟨64, 0, 0, 0, 0, 0, 0, 0, 0, 0, 0, []⟩).type = 0x78 ∧
      ((c.onTile fun t => { t with up := some 1 }).tile.up) = some (1 - 0) ∧
      (driftStep ⟨64, 2, 0, 0, 9, false⟩ (-3)).muted = true ∧ (driftStep ⟨64, 1, 0, 0, 9, false⟩ 3).muted = false ∧
      (driftStep ⟨64, 2, 0, 0, 9, false⟩ 2).run = 0 := by decide

/-- A sender with Ethernet port 0 up at address 1. -/
def ethernet : Chip := puts (on ticked [0x40, 0x41, 0x42]) [(.ETH_STAT_LINK 0, 1), (⟨Reg.ETH_IP 0, 31, 0⟩, 1)]

theorem test_meets_EthernetPortsAndGroups :
    ethernet.isSender = true ∧ ethernet.enabled 0x41 = true ∧ (on ethernet [0x19]).enabled 0x19 = true ∧ ethernet.flag (.ETH_STAT_LINK 1) = false ∧
      ethernet.flag (.ETH_STAT_LINK 0) = true ∧ ethernet.flag (.ETH_STAT_HI_BER 0) = false ∧
      (ethernet.put (.ETH_STAT_HI_BER 0) 1).flag (.ETH_STAT_HI_BER 0) = true ∧ ethernet.ethUp 0 = true ∧
      ethernet.nat (Reg.ETH_IP 0) = 1 ∧
      (let c := puts ethernet [(.WELL_MGMT_CFG_EN, 1), (.WELL_MGMT_STAT_LINK, 1), (⟨Reg.WELL_MGMT_IP, 31, 0⟩, 9)];
        c.flag .WELL_MGMT_CFG_EN = true ∧ c.flag .WELL_MGMT_STAT_LINK = true ∧ c.nat Reg.WELL_MGMT_IP = 9) ∧
      (let g : Igmp := ⟨0, true, 7, 0⟩
        let c := ethernet.onIng fun i => { i with joins := [g], repeats := [(g, 0)] };
        c.ethUp g.port = true ∧ c.ing.joins = [g] ∧ c.ing.repeats = [(g, 0)] ∧ c.groupUsed 0 7 = false) ∧
      (let c := puts ethernet [(⟨Reg.INGEST_CTX_GROUP 0 0, 31, 0⟩, 7), (.INGEST_CTX_STAT_STATE 0 0, 1)];
        c.groupUsed 0 7 = true) := by decide

/-- Context 0 of pipe 0 in a state, fed from both ports. -/
def fed (state : Nat) : Chip :=
  puts ethernet [(.INGEST_CTX_CFG_EN 0 0, 1), (.INGEST_CTX_CFG_SRC 0 0, 2), (⟨Reg.INGEST_CTX_GROUP 0 0, 31, 0⟩, 7),
    (.INGEST_CTX_STAT_STATE 0 0, state), (.INGEST_CTX_STAT_LIVE0 0 0, 1), (.INGEST_CTX_STAT_LIVE1 0 0, 1), (.INGEST_CTX_HOLD_MS 0 0, 1)]

theorem test_meets_StreamsAreReceivedAndLost :
    ((fed 1).elapse 3).ethUp 0 = true ∧
      (ctxNames.filter fun m => ((fed 1).elapse 3).ctxTakes m.1 m.2 0 7 1 2 96) = [(0, 0)] ∧
      (ctxNames.filter fun m => ((fed 1).elapse 3).ctxTakes m.1 m.2 0 8 1 2 96) = [] ∧
      (fed 2).isSender = true ∧ ((fed 2).elapse 3).ctxState 0 0 = 2 ∧ ((fed 3).elapse 3).ctxState 0 0 ≠ 2 ∧
      (((fed 2).elapse 3).ctxSet false 0 0).srcSel = 2 ∧ ((fed 2).elapse 3).flag (.INGEST_CTX_STAT_LIVE0 0 0) = true ∧
      ((fed 2).elapse 3).flag (.INGEST_CTX_STAT_LIVE1 0 0) = true ∧ (fed 3).ctxState 0 0 = 3 ∧
      (fed 3).get (.INGEST_CTX_HOLD_MS 0 0) ≠ 0 ∧ (fed 3).fab.commits = [] ∧
      ((fed 3).put (.INGEST_CTX_HOLD_MS 0 0) 0).get (.INGEST_CTX_HOLD_MS 0 0) = 0 := by decide

theorem test_meets_StreamsAreReceivedAndLost_memory :
    takes (fed 2) core0 (Reg.INGEST_CRAM_DATA 0) = true ∧ (fed 2).cramBusy 0 = true ∧ (fed 2).cramBusy 0x7ffc = false ∧
      (let c := ethernet.onCtx 0 0 fun x => { x with base := some 9 };
        unwrapSeq ((c.ctx 0 0).base.getD 8) 8 < (c.ctx 0 0).base.getD 8 ∧ (c.ctxSet false 0 0).srcSel ≠ 2) ∧
      (let f : InFrame := ⟨1, 3, 2, 0, []⟩
        let c := ((fed 2).put (.INGEST_CTX_LATCH_LOSS_MAX 0 0) 1).onCtx 0 0 fun x => { x with frame := some f };
        (c.ctx 0 0).frame = some f ∧ (c.ctxSet false 0 0).lossMax ≠ 0 ∧ (c.ctxSet false 0 0).lossMax < f.lost ∧ f.buf < 4) ∧
      ((fed 2).ctx 0 0).frame = none := by decide

theorem test_meets_EthernetPortsAndGroups_frames :
    frame64.fcs = true ∧ (⟨64, none, false, 0, 0⟩ : EthFrame).fcs = false ∧ (ethernet.ethFec 0 frame64).ethFits 0 frame64 = true ∧
      (ethernet.ethFec 0 ⟨63, none, true, 0, 0⟩).ethFits 0 ⟨63, none, true, 0, 0⟩ = false ∧
      (ethernet.ethFec 0 ⟨64, some 5, true, 0, 0⟩).ethFits 0 ⟨64, some 5, true, 0, 0⟩ = false ∧
      (ethernet.ethFec 0 frame64).nat (Reg.ETH_IP 0) = 1 ∧ (1 : Nat) ≠ 0 ∧ (2 : Nat) ≠ 1 ∧ ethernet.ethUp 1 = false ∧
      ((ethernet.put (⟨Reg.ETH_IP 0, 31, 0⟩) 0).ethFec 0 frame64).nat (Reg.ETH_IP 0) = 0 ∧
      (let g : Igmp := ⟨0, true, 7, 0⟩
        let c := puts ethernet [(⟨Reg.INGEST_CTX_GROUP 0 0, 31, 0⟩, 7), (.INGEST_CTX_STAT_STATE 0 0, 1)];
        (c.elapseAge (ms 1000)).groupUsed g.port g.group = true ∧ (ethernet.elapseAge (ms 1000)).groupUsed g.port g.group = false) := by
  decide

/-- Context 0 whose last packets came with the part's start. -/
def quiet (state : Nat) : Chip := (fed state).onCtx 0 0 fun x => { x with at0 := some 0, at1 := some 0 }

theorem test_meets_StreamsAreReceivedAndLost_times :
    ((quiet 2).ctx 0 0).lastAt = some 0 ∧ ((fed 2).ctx 0 0).lastAt = none ∧
      (let e := fun (c : Chip) => ((c.elapseAge (0 + ms 100)).pathSilent 0 0 0).pathSilent 0 0 1;
        (e (quiet 2)).ctxState 0 0 = 2 ∧ (e (quiet 3)).ctxState 0 0 ≠ 2) ∧
      (let e := (quiet 2).elapseAge (0 + ms 100);
        (e.ctxSet false 0 0).srcSel = 2 ∧ e.flag (.INGEST_CTX_STAT_LIVE0 0 0) = true ∧
          e.flag (.INGEST_CTX_STAT_LIVE1 0 0) = true) ∧
      (let e := (fed 3).holdElapse 0 0; e.ctxState 0 0 = 3 ∧ e.get (.INGEST_CTX_HOLD_MS 0 0) ≠ 0 ∧ e.fab.commits = []) ∧
      (let f := ((fed 1).elapse 3).ethFec 0 frame64;
        f.ethFits 0 frame64 = true ∧ (ctxNames.filter fun m => f.ctxTakes m.1 m.2 0 7 1 2 96) ≠ [] ∧
          (f.ctxSet false 0 0).takesForm ⟨200, false, false⟩ 1 = true) ∧
      (ethernet.put (.ETH_CFG_FEC_EN 0) 1).flag (.ETH_CFG_FEC_EN 0) = true ∧
      (ethernet.put (.ETH_CFG_FEC_EN 0) 0).flag (.ETH_CFG_FEC_EN 0) = false := by decide

/-- A sender whose Loom runs with layer 0 of group 0, the map page, and the frame's canvas of 16 × 16. -/
def loomed : Chip :=
  (puts (on ticked [0x50, 0x51, 0x68]) [(.LOOM_GRP_PWR_ON, 1), (.LOOM_STAT_GRP_RDY, 0), (.LOOM_LYR_CFG_EN 0, 1),
    (.SCAN_CANVAS_W, 16), (.SCAN_CANVAS_H, 16)]).onScan fun x => { x with run := true, view := [(Reg.SCAN_CANVAS, 0x100010)] }

theorem test_meets_LoomAndScanoutAreDriven :
    loomed.isSender = true ∧ bitAt (loomed.get .LOOM_GRP_PWR_ON) 0 = true ∧ loomed.grpReady 0 = false ∧
      bitAt (loomed.get .LOOM_GRP_PWR_ON) 3 = false ∧ (loomed.layerSet false 0).en = true ∧ bitAt (bitsOf 0xe 3 0) 0 = false ∧
      ([Reg.LOOM_GRP_PWR, Reg.LOOM_LUT_DATA, Reg.LOOM_FENCE_INC, Reg.LOOM_LYR_FENCE_CANCEL 0, Reg.LOOM_FLIP_GROUP,
        Reg.SCAN_MAP_DATA].all fun a => takes loomed core0 a) = true ∧
      (loomed.put .LOOM_LUT_ADDR_ADDR 0x60000).get .LOOM_LUT_ADDR_ADDR / 4 * 4 = 0x60000 ∧
      (let c := loomed.put (.LOOM_LYR_CFG_PRE_LUT 0) 0; bitAt c.lutUse 0 = true) ∧ bitAt loomed.lutUse 15 = false ∧
      (assoc (loomed.onLoom fun l => { l with held := [(0, 1)] }).loom.held 0).isSome = true ∧ assoc loomed.loom.held 0 = none ∧
      (let c := puts loomed [(.LOOM_FLIP_GROUP_MEMBERS, 0x8000), (.PG_COMMIT_PENDING 0x60, 1)];
        c.flipMember 15 = true ∧ c.flag (.PG_COMMIT_PENDING (layerPage 15)) = true) ∧ loomed.flipMember 15 = false ∧
      0 / 0x40000 = loomed.get .SCAN_MAP_CFG_BANK ∧ 0x40000 / 0x40000 ≠ loomed.get .SCAN_MAP_CFG_BANK ∧
      loomed.flag (.PG_COMMIT_PENDING 0x68) = false := by decide

theorem test_meets_LoomAndScanoutAreDriven_lines :
    loomed.scan.run = true ∧ loomed.enabled 0x68 = true ∧ loomed.scan.line < loomed.atTick.planNow.h ∧
      (loomed.elapseTo (loomed.bell.tickTime + loomed.atTick.planNow.ty loomed.scan.line)).fab.commits = [] ∧
      15 < loomed.atTick.planNow.w ∧ sender.scan.run = false ∧
      ([Reg.LOOM_LUT_DATA, Reg.SCAN_MAP_DATA, Reg.SCAN_FILL_MIN].all fun a => reads loomed core0 a) = true ∧
      reads tile core0 Reg.CORR_MEM_DATA = true ∧ tile.isTile = true ∧ takes tile core0 Reg.CORR_MEM_DATA = true ∧
      corrWindow 0x1e000 4 = none ∧ corrWindow 0x1dffc 4 = some 0 ∧ corrWindow 0x48000 4 = some 3 ∧ corrWindow 0x50000 4 = some 4 ∧
      finiteHalves (leBytes 4 0x7c00) = false ∧ finiteHalves (leBytes 4 0x7bff) = true ∧ tile.windowLocked 0 = true ∧
      tile.windowLocked 1 = false := by decide

/-- A grid of 4 segments over 2 rows. -/
def grid4 : Grid := ⟨4, 200, 100, 100, 1000, 2, 0, 0, 0⟩

/-- A tile that drives it for the panel of 2 × 2 pixels, lamp 0 of row 0 lit. -/
def driving : Chip :=
  (((((on (keyed 4) [0xa2, 0xa5]).setDesc panel 2).put .LAMP_STAT_STATE 2).put .LAMP_ILIM_STAT_LIMK 65536).onLamp fun l =>
    { l with grid := some grid4, lastOn := [(0, 100), (1, 31)] }).onNim fun n => { n with mem := memPut [] 0x50000 [0xff, 0xff] }

theorem test_meets_SegmentsSplitTheOnTime :
    (4 : Nat) = 2 ^ 2 ∧ driving.tile.locator = false ∧ driving.get .LAMP_ILIM_STAT_LIMK ≤ 65536 ∧
      (driving.put (maskFld 0 0) 1).flag (maskFld 0 0) = true ∧ (driving.put (pinFld 480) 1).flag (pinFld 480) = true ∧
      driving.flag (maskFld 0 0) = false ∧ driving.flag (pinFld 0) = false ∧ driving.flag (pinFld 480) = false ∧
      driving.lamp.opens.contains (0, 0) = false ∧
      (List.range 4).map (fun s => driving.lampOn grid4 s 0 0) = [100, 100, 100, 100] := by decide

theorem test_meets_LamplighterRunsItsGrid :
    driving.isTile = true ∧ driving.enabled 0xa6 = true ∧ driving.lamp.sweepOn = false ∧ tile.gridNow.lamp.grid = none ∧
      driving.gridNow.lamp.grid = some grid4 ∧ driving.gridNow.lamp.seg < grid4.n ∧
      grid4.n ≤ (driving.onLamp fun l => { l with seg := 4 }).gridNow.lamp.seg ∧ 2 ≤ driving.lampState ∧
      driving.flag .LAMP_PRECHG_EN = false ∧ (driving.put (pinFld 480) 1).rowFault 0 = true ∧
      (driving.onPwr fun p => { p with dom := 0 }).domOn 76 = false ∧ driving.domOn 76 = true ∧
      driving.lamp.next = none ∧ (driving.onLamp fun l => { l with next := some grid4 }).lamp.next = some grid4 ∧
      (0, 100) ∈ driving.lamp.lastOn ∧ 32 ≤ 100 ∧ 31 < 32 ∧ driving.rowOpenEighths ≠ 0 ∧
      (driving.put .LAMP_FAULT_CFG_ROW_OPEN 0).rowOpenEighths = 0 ∧
      (let c := driving.put .LAMP_FAULT_CFG_OPEN 100;
        c.sampleKind 99 = 1 ∧ c.sampleKind 100 = 0) ∧
      (let c := driving.onLamp fun l => { l with runs := [(0, 1, 3)] };
        c.lamp.runs.find? (fun x => x.1 == 32 * 0 + 0) = some (32 * 0 + 0, 1, 3) ∧ min 4 grid4.n ≤ 3 + 1 ∧
          2 + 1 < min 4 grid4.n) := by decide

theorem test_meets_LamplighterRunsItsGrid_tests :
    driving.lampState ≠ 4 ∧ driving.fab.commits = [] ∧
      (let c := driving.onLamp fun l => { l with sweepOn := true, waitTick := true, sweep := [0, 1] };
        c.lamp.ocPairs = [] ∧ c.lamp.sweepOn = true ∧ c.lamp.waitTick = true ∧ c.testing = true) ∧
      (driving.onLamp fun l => { l with ocPairs := [(0, [1, 2])] }).lamp.ocPairs = [(0, [1, 2])] ∧
      ([Reg.LAMP_SWEEP_CTRL, Reg.LAMP_FAULT_IDX, Reg.LAMP_PINFLT 3 3].all fun a => takes driving core0 a) = true ∧
      driving.testing = false ∧ driving.pwr.target = .run ∧
      (driving.put .LAMP_FAULT_CFG_SWEEP_MIN 1).get .LAMP_FAULT_CFG_SWEEP_MIN ≠ 0 ∧
      (driving.put .LAMP_FAULT_CFG_SWEEP_MIN 0).get .LAMP_FAULT_CFG_SWEEP_MIN = 0 := by decide

theorem test_meets_LamplighterRunsItsGrid_descriptors :
    let d := fun (c : Chip) => (if listAt c.gate.m 2 0 = 0 then c.extend 2 panel else c).setDesc panel 2
    descOk panel = true ∧ (d tile).pdesc ≠ tile.pdesc ∧ (d driving).pdesc = driving.pdesc ∧ descOk [] = false := by decide

/-- A sender whose CSI port 1 takes channel 3 in frames of 16 × 16. -/
def filmed : Chip :=
  puts (on ticked [0x48, 0x49, 0x4a]) [(.CSI_VC_CFG_EN 1 3, 1), (.CSI_VC_CFG_DT 1 3, 0x2a), (.CSI_VC_SIZE_WIDTH 1 3, 16),
    (.CSI_VC_SIZE_HEIGHT 1 3, 16), (.CSI_VC_TMO_MS 1 3, 1)]

/-- Its frame, 7, open with some lines and a cause. -/
def open7 (lines cause : Nat) : CsiFrame := ⟨7, 0, some 5, false, List.replicate lines (List.replicate 16 0), cause⟩

/-- The sender with the frame open. -/
def filming (lines cause : Nat) : Chip := filmed.onSensor 7 fun x => { x with frame := some (open7 lines cause) }

theorem test_meets_CameraFramesAreWatched :
    filmed.enabled 0x4a = true ∧ filmed.vcOn 7 = true ∧ ((filmed.elapse 1).sensor 7).frame = none ∧
      ((filming 15 0).elapse 1).sensor 7 = { filmed.sensor 7 with frame := some (open7 15 0) } ∧
      (filming 15 0).get (.CSI_VC_CFG_DT 1 3) = 0x2a ∧ (filming 15 0).get (.CSI_VC_SIZE_WIDTH 1 3) = 16 ∧
      (open7 15 0).lines.length < (filming 15 0).get (.CSI_VC_SIZE_HEIGHT 1 3) ∧
      (sizeOk 15 || sizeOk 8193) = false ∧ (sizeOk 16 && sizeOk 8192) = true ∧
      ((filming 16 0).elapse (ms 1)).csiLate 7 (open7 16 0) = false ∧
      ((filming 16 0).elapse (ms 1 + 1)).csiLate 7 (open7 16 0) = true ∧
      (open7 16 3).cause ≠ 0 ∧ (open7 15 0).lines.length ≠ 16 ∧ (open7 16 0).lines.length = 16 ∧
      filmed.csiTmo 7 = some (ms 1) ∧ (filmed.sensor 7).frame = none ∧
      takes filmed core0 (Reg.HALO_S_APPLY 7) = true ∧ filmed.halo.sensors.length = 8 := by decide

/-- A sender in Service mode that can run an accumulation of camera channel 7. -/
def measuring : Chip :=
  puts filmed [(.SYS_MODE_MODE, 5), (.HALO_ACC_SRC_SENSOR, 7), (.HALO_ACC_FRAMES_FRAMES, 1), (.HALO_ACC_WIN_SIZE_X_W, 16),
    (.HALO_ACC_WIN_SIZE_Y_H, 16)]

/-- A job of one tile. -/
def job1 : Job := ⟨7, 1, 1, (0, 0, 16, 16), 1, 0, [64], 0, 0, [], [64], none, false⟩

/-- An entry of a push. -/
def entry1 (status : Nat) : PushEntry := ⟨0, 64, 1, 0, 0, status, 0, 0, 2, 0, 0, false, (0, 0), none, []⟩

/-- A push for tick `t`. -/
def pushing (t : Nat) (all decided job : Bool) (e : List PushEntry) : Chip :=
  measuring.onHalo fun h => { h with push := some ⟨t, all, 0, e, job, decided⟩ }

theorem test_meets_RunsJobsAndPushes :
    takes measuring core0 Reg.HALO_ACC_CTRL = true ∧ measuring.accBusy = false ∧ measuring.halo.job = none ∧ measuring.accCause = 0 ∧
      filmed.accCause ≠ 0 ∧ (measuring.put .HALO_ACC_STAT_STATE 1).accBusy = true ∧
      (measuring.onHalo fun h => { h with zeroing := true }).halo.zeroing = true ∧ measuring.halo.zeroing = false ∧
      (measuring.put .HALO_ACC_STAT_STATE 2).accState = 2 ∧ measuring.accState ≠ 1 ∧ measuring.accState ≠ 2 ∧
      takes measuring core0 Reg.HALO_JOB_CTRL = true ∧ measuring.mode = 5 ∧ filmed.mode ≠ 5 ∧ measuring.halo.push = none ∧
      (measuring.onHalo fun h => { h with job := some job1 }).halo.job = some job1 ∧ measuring.readJob 0 = none ∧
      (puts measuring [(.HALO_JOB_STAT_STATE, 3)]).get .HALO_JOB_STAT_STATE = 3 := by decide

theorem test_meets_RunsJobsAndPushes_pushes :
    takes measuring core0 Reg.HALO_PUSH_CTRL = true ∧
      (measuring.halo.push.isSome || !measuring.halo.cards.isEmpty || measuring.halo.job.isSome) = false ∧
      measuring.get .HALO_PUSH_COUNT_COUNT = 0 ∧
      (let c := puts measuring [(.HALO_PUSH_COUNT_COUNT, 1), (⟨Reg.HALO_PUSH_TICK_LO, 31, 0⟩, 69)];
        c.get .HALO_PUSH_COUNT_COUNT ≠ 0 ∧ c.lastIndex + 64 ≤ c.pair Reg.HALO_PUSH_TICK_LO Reg.HALO_PUSH_TICK_HI) ∧
      measuring.pair Reg.HALO_PUSH_TICK_LO Reg.HALO_PUSH_TICK_HI < measuring.lastIndex + 64 ∧
      (pushing 13 true false false [entry1 2]).halo.push = some ⟨13, true, 0, [entry1 2], false, false⟩ ∧
      13 ≤ (pushing 13 true false false [entry1 2]).lastIndex + 8 ∧ (pushing 14 true false false []).lastIndex + 8 < 14 ∧
      (entry1 2).status = 2 ∧ (entry1 0).waits = 0 ∧ 3 + 2 ≤ (pushing 3 true true false [entry1 0]).lastIndex ∧
      (pushing 3 true true false [entry1 0]).get .HALO_PUSH_STAT_STATE ≠ 4 ∧ bitAt (entry1 0).flags 0 = false ∧
      ((pushing 3 true true false [entry1 0]).onHalo fun h => { h with cards := [0, 1] }).halo.cards = [0, 1] ∧
      [entry1 0].find? (fun x => x.idx == 0) = some (entry1 0) := by decide

/-- A sender with one Granary channel of 64 MiB in use, its region 0 written. -/
def granary : Chip :=
  (puts (on ticked [0x70, 0x74, 0x75]) [(.GRAN_MGR_CFG_CH_EN, 1), (.GRAN_MGR_TOP_MIB, 64), (.GRAN_CH_STAT_STATE 0, 2),
    (.GRAN_MGR_STAT_SPARE_AVAIL, 1), (.GRAN_CH_RETRAIN_MS 0, 1), (.GRAN_MGR_SCRUB_HOURS, 1), (.ARB_STARVE_TMO_US, 1)]).onGran
    fun g => { g with written := [0] }

theorem test_meets_GranaryServesItsRequesters :
    granary.isSender = true ∧ granary.granOn = true ∧ granary.gran.waiting = [] ∧ granary.gBlocked 0 64 = false ∧
      0 < granary.granTop ∧ granary.gran.written.contains (0 / 2 ^ 20) = true ∧
      (∀ r ∈ regionsOf 0 (granary.belowTop 0 64), r ∈ granary.gran.written) ∧ granary.gran.filling = [] ∧
      regionsOf (2 ^ 20) (granary.belowTop (2 ^ 20) 64) = [1] ∧ 1 ∉ granary.gran.written ∧
      takes granary core0 Reg.GRAN_MGR_UNW = true ∧ granary.get .GRAN_MGR_TOP_MIB ≤ 64 ∧ 63 < granary.get .GRAN_MGR_TOP_MIB ∧
      (granary.onGran fun g => { g with filling := [1] }).gran.filling.contains 1 = true ∧
      (granary.onGran fun g => { g with filling := [1] }).gran.written.contains 1 = false ∧
      granary.flag (.GRAN_CH_STAT_ERASED (granary.granMap 0).1) = false ∧
      (∃ w ∈ (granary.onGran fun g => { g with waiting := [⟨1, 64, true, [7], 0, false⟩] }).gran.waiting,
        0 ∈ regionsOf w.addr w.size) ∧
      (granary.put (.GRAN_CH_STAT_STATE 3) 1).chanState 3 = 1 ∧ granary.chanState 0 = 2 ∧
      granary.get (.GRAN_CH_RETRAIN_MS 0) ≠ 0 ∧ granary.get .GRAN_MGR_SCRUB_HOURS ≠ 0 ∧ granary.gran.migr = none ∧
      (granary.onGran fun g => { g with migr := some (0, 1, 0) }).gran.migr = some (0, 1, 0) ∧
      granary.gran.disableWait = false := by decide

theorem test_meets_GranaryServesItsRequesters_and_arbiter :
    takes granary core0 Reg.GRAN_MGR_CTRL = true ∧
      (granary.gran.migr.isSome || (granary.sparing && 0 == granary.get .GRAN_MGR_CFG_SPARE_CH && 0 == 1) ||
        bitAt (granary.get .GRAN_MGR_STAT_RETIRED) 0) = false ∧
      bitAt ((granary.put .GRAN_MGR_STAT_RETIRED 128).get .GRAN_MGR_STAT_RETIRED) (2 * 3 + 1) = true ∧
      granary.spareFree = true ∧ (granary.put .GRAN_MGR_STAT_SPARE_AVAIL 0).spareFree = false ∧
      (granary.gchan 0).owner = none ∧
      ((granary.fillsSeen []).arbWinner ((granary.fillsSeen []).urgencies []) (granary.gchan 0).last [15, 4]).isSome = true ∧
      (let c := granary.setGchan 1 { granary.gchan 1 with asks := [(4, 0, false)] };
        (List.range 4).find? (fun k => (c.starvesAt 4 k).isSome) = some 1) ∧ (∀ ch < 4, granary.starvesAt 4 ch = none) ∧
      ((granary.setGchan 0 { granary.gchan 0 with owner := some 4 }).gchan 0).owner = some 4 ∧
      (granary.put (.ARB_REQ_CFG_LIMIT 4) 0).get (.ARB_REQ_CFG_LIMIT 4) = 0 ∧ granary.get .ARB_STARVE_TMO_US ≠ 0 ∧
      (granary.put .ARB_STARVE_TMO_US 0).get .ARB_STARVE_TMO_US = 0 ∧ takes granary core0 Reg.ARB_CFG = true ∧
      granary.fab.commits = [] ∧ granary.flag .ARB_CFG_COMPAT = false ∧ 0 + 64 ≤ granary.granTop := by decide

/-- A ring pair of 16 entries each. -/
def pair1 (state head tail : Nat) : Pair :=
  ⟨0, 0x1000, 0x2000, 4, 4, 0, 1, 0, head, tail, 0, 0, state, 0, 0, 0, 0, 0, 0, 0, 0, none, none, []⟩

/-- A sender with pair 1 in a state, its host link up, and a descriptor at the head of its ring: op, target, count, aux. -/
def ringing (p : Pair) (op tgt n aux : Nat) : Chip :=
  (((on granary [0x80]).onGran fun g => { g with
    mem := memPut [] 0x1000 ([BitVec.ofNat 8 op, 0, BitVec.ofNat 8 tgt] ++ leBytes 9 0 ++ leBytes 4 n ++ leBytes 16 0 ++ leBytes 8 aux)
    }).onWell fun x => { x with pairs := [(1, p)] }).onPcie fun x => { x with up := true }

/-- A descriptor in flight that holds its ring. -/
def holding (op aux : Nat) (after : List Nat) : Taken :=
  ⟨3, 1, 0, ⟨op, 0, 0, 0, 0, 0, 0, 0, 0, 0, aux, []⟩, 0, [], [], 0, [], false, after, false, [], []⟩

/-- A sender whose pair 1 is held by it. -/
def held (t : Taken) : Chip :=
  (ringing { pair1 1 0 0 with block := some 3 } 0 0 0 0).onWell fun x => { x with taken := [t] }

theorem test_meets_RingsTakeAndComplete :
    let c := ringing (pair1 1 0 1) 1 0 0 0
    c.isSender = true ∧ takes c core0 Reg.WELL_RING_CTRL = true ∧ c.flag .WELL_RING_RES_BUSY = false ∧
      c.pairAt 1 = some (pair1 1 0 1) ∧ (pair1 2 0 1).state = 2 ∧ (pair1 1 0 1).state ≠ 3 ∧ c.takenOf 1 = [] ∧
      (held (holding 0x10 0 [])).takenOf 1 ≠ [] ∧ (pair1 1 0 0).sqHead = (pair1 1 0 0).sqTail ∧ c.pairAt 16383 = none ∧
      c.entryOk (c.readPair 16383) = false ∧ c.pcie.up = true ∧
      c.twinHolds = false ∧ idxDist 16 (pair1 1 0 1).sqHead ≤ 2 ^ (pair1 1 0 1).sqLog ∧
      2 ^ (pair1 1 0 1).sqLog < idxDist 17 (pair1 1 0 1).sqHead ∧ (pair1 1 0 1).unconsumed < idxDist 1 (pair1 1 0 1).cqHead ∧
      idxDist 0 (pair1 1 0 1).cqHead ≤ (pair1 1 0 1).unconsumed ∧
      (let p := { pair1 1 0 0 with stamps := [(4, true), (9, false)] };
        p.stamps.find? (fun x => !x.2) = some (9, false) ∧ bitAt p.rflags 0 = true) ∧
      (pair1 1 0 0).stamps.find? (fun x => !x.2) = none := by decide

/-- The part once the head of pair 1 is taken, as a descriptor's checks see it. -/
def headTaken (c : Chip) : Chip :=
  let d := c.headDesc (pair1 1 0 1)
  (c.takeHead 1 (pair1 1 0 1) false).1.when (d.usesBuf && d.writes && decide (d.buf + d.count ≤
    (c.takeHead 1 (pair1 1 0 1) false).1.granTop)) fun c => c.gReadCount d.buf d.count

theorem test_meets_RingsTakeAndComplete_heads :
    let c := fun (op tgt n aux : Nat) => ringing (pair1 1 0 1) op tgt n aux
    let d := fun (op tgt n aux : Nat) => (c op tgt n aux).headDesc (pair1 1 0 1)
    (c 1 0 0 0).canTake 1 (pair1 1 0 1) = true ∧ (c 1 0 0 0).replaying 1 = false ∧ (c 1 0 0 0).canTake 1 (pair1 2 0 1) = false ∧
      (d 0x11 0 0 5).op = 0x11 ∧ (c 0x11 0 0 5).bell.tick.isSome = true ∧ (d 0x11 0 0 5).aux ≤ (c 0x11 0 0 5).lastIndex ∧
      (c 0x11 0 0 6).lastIndex < (d 0x11 0 0 6).aux ∧ (d 7 0 0 0).op ≠ 0x10 ∧ (d 7 0 0 0).op ≠ 0x11 ∧
      (headTaken (c 7 0 0 0)).descCause (d 7 0 0 0) = some 1 ∧ (headTaken (c 1 0 0 0)).descCause (d 1 0 0 0) = none ∧
      (d 1 0 0 0).count = 0 ∧ (d 1 0 0 0).op ≤ 4 ∧ (headTaken (c 1 0 4 0)).descCause (d 1 0 4 0) = none ∧
      (d 1 0 4 0).count ≠ 0 ∧ (d 1 0 4 0).tgt = 0 ∧ (headTaken (c 1 0 4 0)).reachable (pair1 1 0 1).wdn = false ∧
      (headTaken (c 5 3 4 0)).descCause (d 5 3 4 0) = none ∧ (d 5 3 4 0).tgt ≠ 0 ∧ (d 5 3 4 0).count ≠ 0 := by decide

theorem test_meets_RingsTakeAndComplete_fences :
    (held (holding 0x10 0 [])).pairAt 1 = some { pair1 1 0 0 with block := some 3 } ∧
      ((held (holding 0x10 0 [])).well.taken.find? fun u => u.num == 3) = some (holding 0x10 0 []) ∧
      ((held (holding 0x11 5 [])).well.taken.filter fun u => u.desc.op == 0x11) = [holding 0x11 5 []] ∧
      (holding 0x10 0 [2]).after ≠ [] ∧ (held (holding 0x11 5 [])).bell.tick.isSome = true ∧
      5 ≤ (held (holding 0x11 5 [])).lastIndex ∧ (held (holding 0x11 6 [])).lastIndex < 6 := by decide

/-- A sender with a management channel, its session up or not. -/
def managed (session : Bool) : Chip :=
  (puts granary [(.WELL_MGMT_CFG_EN, 1), (⟨Reg.WELL_MGMT_IP, 31, 0⟩, 9)]).onMgmt fun m => { m with session := session }

theorem test_meets_HostReachesThePart :
    (on sender [0x1b]).enabled 0x81 = true ∧ (on sender [0x1b]).enabled 0x1b = true ∧ sender.pcie.up = false ∧ sender.fab.commits = [] ∧
      tile.enabled 0x81 = false ∧
      (sender.onPcie fun x => { x with up := true }).pcie.up = true ∧ (managed true).mgmtOn = true ∧
      (managed true).mgmt.session = true ∧ (1 + 2 ^ 64 - (managed true).mgmt.lastSeq) % 2 ^ 64 = 1 ∧
      1 = ((managed true).mgmt.lastSeq + 1) % 2 ^ 64 ∧ (managed true).granOn = true ∧ (managed true).gBlocked 64 4 = false ∧
      (managed true).mgmt.kept.find? (fun k => k.1 == 1) = none ∧ (managed true).mgmt.held = [] ∧
      ((managed true).mgmt.held.any fun q => q.seq == 1) = false ∧
      ((managed true).onMgmt fun m => { m with kept := [(1, 0, [])] }).mgmt.kept.find? (fun k => k.1 == 1) = some (1, 0, []) ∧
      16 < (17 + 2 ^ 64 - (managed true).mgmt.lastSeq) % 2 ^ 64 ∧ (managed false).mgmt.session = false ∧
      ((managed false).slot 3).state ≠ 1 ∧ (managed false).fuses.lifecycle ≠ 2 ∧
      ((managed false).onMgmt fun m => { m with hello := some 1 }).mgmt.hello = some 1 ∧ (managed true).pwr.state ≠ .deep ∧
      (on sender [0x1a]).enabled 0x1a = true ∧ (managed true).flag .WELL_MGMT_CFG_EN = true ∧
      (let r : MgmtReq := ⟨1, 3, 0, 1024, []⟩; r.kind = 3 ∧ 1 ≤ r.b ∧ r.b ≤ 1024) := by decide

/-- An M_HELLO with an owner certificate whose public key is zeros. -/
def helloData : List Byte := [0x48, 0x4f, 0x43, 0x31, 0, 1, 1] ++ leBytes 474 0

theorem test_meets_HostReachesThePart_hello :
    (let c := (managed false).setSlot 3 (loadedSlot 1 0 0 none)
      let d := (c.onMgmt fun m => { m with hello := none }).pendingWrite 3;
      (d.slot 3).state = 1 ∧ (d.slot 3).key = 0 ∧ secOf d.bell.time = 0 ∧ d.mgmt.session = false) ∧ helloData.length = 481 := by
  decide

theorem test_meets_HostReachesThePart_certificate : ownerCertOk helloData 1 (Config.sha384 (beBytes 97 0)) 0 = true := by
  have e : (helloData.drop 0x88).take 97 = beBytes 97 0 := by decide
  simp only [ownerCertOk, e, beq_self_eq_true, Bool.and_true]
  decide

/-- A sender whose memory holds a job's record at 0x4000 and pair 1's entry in the ring table. -/
def recorded : Chip :=
  (puts measuring [(.PG_STATUS_ENABLED 0x74, 1), (.GRAN_MGR_TOP_MIB, 64)]).onGran fun g => { g with
    mem := memPut (memPut [] 0x4000 (leBytes 4 0x314a4348 ++ leBytes 1 7 ++ leBytes 1 1 ++ leBytes 2 1 ++ leBytes 8 0 ++
      leBytes 2 4095 ++ leBytes 2 1 ++ leBytes 4 0 ++ leBytes 8 0x4100))
      (64 * 1) (leBytes 8 0x1000 ++ leBytes 8 0x2000 ++ leBytes 2 64 ++ leBytes 1 4 ++ leBytes 1 4) }

theorem test_meets_RunsJobsAndPushes_record : (recorded.readJob 0x4000).isSome = true := by decide

theorem test_meets_RingsTakeAndComplete_entry : recorded.entryOk (recorded.readPair 1) = true := by decide

/-- A copy that holds nothing. -/
def copy0 : Copy := ⟨5, [], [], 0, [], [], [], [], 0, 0, 0, 5, none, 0, none, [], [], false, false⟩

theorem test_meets_TwinLinkCarriesTheCopy :
    let keyed3 := (twin 3).setSlot 3 (loadedSlot 1 1 0 none)
    (twin 2).isSender = true ∧ keyed3.enabled 0x90 = true ∧ keyed3.twin.up = true ∧ keyed3.flag .TWIN_CFG_EN = true ∧
      (keyed3.slot 3).state = 1 ∧ (twin 2).twinOn = true ∧ (twin 2).twinRole = 2 ∧ (twin 2).twin.up = true ∧
      (twin 2).twin.keyed = true ∧ copy0.commits = [] ∧ (∀ x ∈ copy0.ports, x.n < 16) ∧ sender.twinOn = false ∧
      (twin 3).twinRole = 3 ∧ ((twin 3).onTwin fun t => { t with copyOut := some 5 }).twin.copyOut = some 5 ∧
      (twin 3).fab.commits = [] ∧ (twin 3).twin.copyOut = none ∧ (twin 3).twin.late = false ∧ sender.twin.up = false ∧
      ((twin 2).onTwin fun t => { t with frozen := true }).twin.frozen = true ∧ (twin 2).twin.frozen = false ∧
      (sender.twinOn && sender.twin.up && sender.twin.keyed) = false ∧ mirroredReg Reg.SYS_MODE_CTRL = true ∧
      (twin 3).get .TWIN_STAT_PEER ≠ 1 ∧
      (let c := linkAt ((twin 3).onTwin fun t => { t with up := false }) 20 6;
        c.portState 10 0 = 6 ∧ c.twin.up = false ∧ c.twinRole ≠ 2) ∧ takes (twin 3) core0 Reg.TWIN_CTRL = true ∧
      ((twin 2).onTwin fun t => { t with resync := true }).twin.resync = true ∧ (twin 2).twin.resync = false := by decide

/-- A ring's tile in a turn state, its upstream port in a lane state. -/
def ringed (state up down : Nat) : Chip :=
  puts (linkAt (linkAt ((keyed 4).onTile fun t => { t with trigAt := some 0 }) 0 up) 1 down)
    [(.ELDER_T_CFG_RING, 1), (.ELDER_T_STAT_STATE, state)]

/-- An Elder that holds a mandate of sender 1 and heard sender 2. -/
def elder (age : Nat) : Chip :=
  (puts tile [(.ELDER_T_CFG_ELDER, 1), (⟨Reg.ELDER_T_HOLDER, 31, 0⟩, 1), (.ELDER_T_PEER_SIDX, 2), (.ELDER_T_PEER_AGE, age),
    (.ELDER_T_PEER_PEER_SILENT, 1), (.ELDER_T_PEER_ELIGIBLE, 1)]).onTile fun t => { t with heard := [(1, 0)] }

theorem test_meets_RingsTurnAndMandatesMove_at_tiles :
    (ringed 0 1 6).isTile = true ∧ (ringed 0 1 6).flag .ELDER_T_CFG_RING = true ∧ (ringed 0 1 6).tile.up.isSome = true ∧
      (ringed 0 1 6).get .ELDER_T_STAT_STATE = 0 ∧ (ringed 0 1 6).linkUpAt (ringed 0 1 6).upPort = false ∧
      (ringed 0 1 6).tile.turnAt = none ∧ ((ringed 0 1 6).onTile fun t => { t with turnAt := some 0 }).tile.turnAt = some 0 ∧
      (ringed 0 1 6).age < 0 + ms 100 ∧ (ringed 0 6 6).linkUpAt (ringed 0 6 6).upPort = true ∧ (ringed 0 6 6).tile.turnAt = none ∧
      (ringed 1 1 6).tile.trigAt = some 0 ∧ (ringed 1 1 6).get .ELDER_T_STAT_STATE = 1 ∧
      (ringed 1 1 6).linkUpAt (ringed 1 1 6).downPort = true ∧ (ringed 1 1 1).linkUpAt (ringed 1 1 1).downPort = false ∧
      (elder 2).isTile = true ∧ (elder 2).flag .ELDER_T_CFG_ELDER = true ∧
      assoc (elder 2).tile.heard ((elder 2).nat Reg.ELDER_T_HOLDER % 64) = some 0 ∧
      (elder 2).get .ELDER_T_PEER_SIDX ≠ (elder 2).nat Reg.ELDER_T_HOLDER % 64 ∧ (elder 2).get .ELDER_T_PEER_AGE ≤ 2 ∧
      (elder 2).flag .ELDER_T_PEER_PEER_SILENT = true ∧ (elder 2).flag .ELDER_T_PEER_ELIGIBLE = true ∧
      ¬ (elder 3).get .ELDER_T_PEER_AGE ≤ 2 := by decide

/-- A mandate record of an Elder, this old. -/
def mandate (age : Nat) : Mandate := ⟨true, 0, 1, false, age, false⟩

theorem test_meets_RingsTurnAndMandatesMove_at_senders :
    let old := fun (a : Nat) => (twin 3).onTwin fun t => { t with mand := [mandate a, mandate 0, mandate 0] }
    ((twin 2).onTwin fun t => { t with yieldPorts := 1 }).twin.yieldPorts ≠ 0 ∧ (twin 2).twin.yieldPorts = 0 ∧
      (old 8).twinOn = true ∧ (old 8).twin.mand[0]? = some (mandate 8) ∧ (mandate 8).told = false ∧ (mandate 8).split = false ∧
      2 ≤ (old 8).eldersHeard ∧ (mandate 7).age < 8 ∧ (old 8).twinRole = 3 ∧ (old 8).twin.up = true ∧ (old 8).eldersHeard ≠ 0 ∧
      ((old 8).onTwin fun t => { t with mand := List.replicate 3 (mandate 8) }).eldersHeard = 0 ∧
      (let c := fun (tick : Nat) => puts (twin 3) [(.TWIN_REJOIN_PORTS, 1), (.TWIN_PORTS_NEAR, 1), (⟨Reg.TWIN_REJOIN_TICK_LO, 31, 0⟩, tick)];
        takes (c 16) core0 Reg.TWIN_CTRL = true ∧ (c 16).get .TWIN_REJOIN_PORTS ≠ 0 ∧
          portsLess ((c 16).get .TWIN_REJOIN_PORTS) ((c 16).get .TWIN_PORTS_NEAR) = 0 ∧
          (c 16).lastIndex + 16 ≤ (c 16).pair Reg.TWIN_REJOIN_TICK_LO Reg.TWIN_REJOIN_TICK_HI ∧
          (c 15).pair Reg.TWIN_REJOIN_TICK_LO Reg.TWIN_REJOIN_TICK_HI < (c 15).lastIndex + 16) ∧
      (twin 2).twinRole ≠ 3 ∧ 0 ≤ (twin 2).lastIndex ∧ (twin 2).fab.commits = [] ∧ (twin 3).twin.rejoin = none ∧
      ((twin 2).put .TWIN_PORTS_NEAR 1).near 0 = true ∧ (twin 2).ringed 0 = true ∧ (twin 2).twin.up = true ∧
      (let c := (twin 2).onTwin fun t => { t with mand := [mandate 0, mandate 0, mandate 0] };
        2 ≤ c.mandates ∧ c.twinRole ≠ 3 ∧ c.twinRole ≠ 4) ∧ (twin 3).mandates < 2 ∧ (twin 2).well.taken = [] := by decide

/-- A sender's Gatehouse with a slot selected. -/
def gate (n : Nat) : Chip := sender.put .KEYS_SEL_SLOT n

theorem test_meets_KeysPolicyAndTamper_keys :
    takes (gate 24) core0 Reg.KEYS_CTRL = true ∧ (gate 24).flag .KEYS_STAT_BUSY = false ∧ (gate 24).get .KEYS_SEL_SLOT = 24 ∧
      (tile.put .KEYS_SEL_SLOT 9).slotHere 9 = false ∧ (gate 24).slotHere 24 = true ∧ (gate 24).slotAllowed core0 24 = true ∧
      (gate 0).slotAllowed .chain 0 = false ∧ (gate 24).slotUsers 24 = 0 ∧
      ((gate 24).setSlot 24 { loadedSlot 1 1 0 none with users := 2 }).slotUsers 24 ≠ 0 ∧ (twin 2).ringed (8 - 8) = true ∧
      (gate 9).ringed (9 - 8) = false ∧ (gate 2).slotAllowed core0 2 = true ∧ ((gate 24).slot 24).pend = none ∧
      (((gate 24).setSlot 24 { loadedSlot 1 1 0 none with pend := some (1, 2) }).slot 24).pend = some (1, 2) ∧
      beNat (((gate 2).keyBuf 112).take 8) = (gate 2).fuses.serial ∧
      secOf (gate 2).bell.time ≤ beNat ((((gate 2).keyBuf 112).drop 8).take 8) := by decide

/-- The sender, or a tile, with tamper source 4 enabled in a power state. -/
def tampered (c : Chip) (st : PState) : Chip := (c.setNat Reg.GATE_TAMPER_EN 16).onPwr fun p => { p with state := st }

theorem test_meets_KeysPolicyAndTamper_tamper :
    takes sender core0 Reg.GATE_ATT_CTRL = true ∧ sender.flag .GATE_ATT_STAT_BUSY = false ∧ sender.flag .GATE_QUAR_ACTIVE = false ∧
      sender.fuses.lifecycle ≠ 2 ∧ (sender.put .GATE_QUAR_ACTIVE 1).flag .GATE_QUAR_ACTIVE = true ∧
      (sender.put .GATE_ATT_STAT_BUSY 1).flag .GATE_ATT_STAT_BUSY = true ∧ sender.fab.commits = [] ∧
      takes sender core0 Reg.GATE_POL_DATA = true ∧ takes sender core0 Reg.GATE_POL_COMMIT = true ∧ sender.fab.draining = 0 ∧
      (sender.onFab fun f => { f with draining := 1 }).fab.draining ≠ 0 ∧ takes sender core0 Reg.GATE_TAMPER_EN = true ∧
      sender.tamperOn 4 = false ∧ (tampered sender .off).pwr.state = .off ∧ (tampered sender .off).tamperOn 4 = true ∧
      (tampered sender .quarantine).tamperOn 4 = true ∧ (tampered sender .deep).pwr.state = .deep ∧
      (tampered tile .run).isTile = true ∧ (tampered tile .run).isSender = false ∧ (tampered tile .run).pwr.state = .run ∧
      (tampered tile .run).flag .GATE_QUAR_ACTIVE = false ∧ (Tamper.diode 1451 1000).met = true ∧ (Tamper.diode 1451 1000).src = 4 ∧
      (Instr.tamperEvent (.diode 1451 1000)).wf = true ∧ (Tamper.pin 0 3).met = false ∧ (tampered sender .waking).get .GATE_BOOT_STAGE < 4 ∧
      4 ≤ ((tampered tile .waking).put .GATE_BOOT_STAGE 4).get .GATE_BOOT_STAGE ∧ (tampered tile .run).fab.commits = [] := by decide

/-- A sender's Cavas engine with its download state and its activation state. -/
def cavas (dl act : Nat) : Chip :=
  puts ticked [(.PG_STATUS_ENABLED 0xc0, 1), (.UPDATE_DL_STAT_STATE, dl), (.UPDATE_ACT_STAT_STATE, act)]

/-- The same with a release for tick `t`. -/
def releasing (act t : Nat) (go decided fallback : Bool) : Chip :=
  (cavas 3 act).onUpd fun u => { u with rel := some ⟨t, 1, fallback, [], [], [], false, go, decided⟩ }

/-- Chunk 0 of a bundle of two chunks: its header's CHUNKS. -/
def bundled (dl act : Nat) : Chip :=
  (cavas dl act).onUpd fun u => { u with dirOk := true, chunks := [(0, List.replicate 0x14 0 ++ beBytes 4 2)] }

theorem test_meets_BundlesStageAndReleasesRun_staging :
    (cavas 0 0).isSender = true ∧ takes (cavas 0 0) core0 Reg.UPDATE_CHUNK_CTRL = true ∧
      (cavas 2 0).get .UPDATE_DL_STAT_STATE = 2 ∧ (cavas 1 0).relStaged = false ∧ (cavas 1 1).relStaged = true ∧
      (cavas 1 7).relStaged = false ∧ (bundled 1 0).upd.dirOk = true ∧ (bundled 1 0).bundleChunks ≤ 2 ∧
      ¬ (bundled 1 0).bundleChunks ≤ 1 ∧ (bundled 1 0).dirChunks ≤ 1 ∧ assoc (bundled 1 0).upd.chunks 1 = none ∧ (assoc (bundled 1 0).upd.chunks 0).isSome = true ∧ (cavas 0 0).upd.dirOk = false ∧
      assoc (cavas 0 0).upd.chunks 0 = none ∧ takes (cavas 3 0) core0 Reg.UPDATE_ACT_CTRL = true ∧ (cavas 3 6).act = 6 ∧
      (cavas 3 7).act = 7 ∧ (cavas 3 1).act ≠ 0 ∧ (cavas 3 1).act = 1 ∧ (cavas 3 1).fab.commits = [] ∧
      (cavas 3 1).upd.slots.length = 4 := by decide

theorem test_meets_BundlesStageAndReleasesRun_releases :
    (cavas 3 2).upd.rel = none ∧ (cavas 3 2).act = 2 ∧ (cavas 3 2).actTick < (cavas 3 2).lastIndex + 64 ∧
      (let c := (cavas 3 2).put ⟨Reg.UPDATE_ACT_TICK_LO, 31, 0⟩ 69;
        c.lastIndex + 64 ≤ c.actTick ∧ c.switchPending = false ∧ c.allSerials = []) ∧
      (let c := { (cavas 3 2).put .SYS_MODE_STAT_STATE 1 with switch := some ⟨1, 69, [], [], 0⟩ };
        c.switchPending = true ∧ (c.switch.any fun x => x.n == 69) = true) ∧
      (chained [device 7 64 .admitted]).allSerials = [7] ∧
      (releasing 4 13 true false false).upd.rel.isSome = true ∧ (releasing 4 13 true false false).act = 4 ∧
      13 ≤ (releasing 4 13 true false false).lastIndex + 8 ∧ (releasing 4 13 true false false).lastIndex + 4 < 13 ∧ 9 ≤ (releasing 4 9 true false false).lastIndex + 4 ∧
      ((releasing 4 13 true false false).onHalo fun h => { h with job := some job1 }).relBusy = true ∧ (releasing 3 13 true false false).act ≠ 4 ∧
      (releasing 4 14 true false false).lastIndex + 8 < 14 ∧ (releasing 4 13 true false false).relBusy = false ∧
      (releasing 5 5 true true false).upd.rel.any (·.decided) = true ∧ 5 ≤ (releasing 5 5 true true false).lastIndex ∧
      (releasing 5 5 true true false).fab.commits = [] ∧ (releasing 5 6 true true false).lastIndex < 6 := by decide

/-- A tile with an armed release for tick `t`. -/
def updating (t : Nat) (go staged : Bool) : Chip :=
  ((keyed 4).onBell fun b => { b with tick := some 21 }).onTile fun x => { x with rel := some ⟨1, t, go, staged, 9⟩ }

theorem test_meets_BundlesStageAndReleasesRun_later :
    (let c := (cavas 3 6).onUpd fun u => { u with missed := [(0, 64)], retryAt := 5, trialAt := some 0 };
        c.upd.missed ≠ [] ∧ c.upd.retryAt ≤ c.lastIndex ∧ c.upd.trialAt = some 0 ∧
          (c.put .UPDATE_CFG_TRIAL_MIN 1).get .UPDATE_CFG_TRIAL_MIN ≠ 0 ∧ c.upd.rel = none ∧ c.act = 6) ∧
      (cavas 3 0).upd.missed = [] ∧ (cavas 3 0).upd.trialAt = none ∧ (updating 21 true true).isSender = false ∧
      (updating 21 true true).tile.rel = some ⟨1, 21, true, true, 9⟩ ∧ 21 ≤ (updating 21 true true).lastIndex ∧
      (updating 22 true true).lastIndex < 22 ∧ (updating 21 true true).fab.commits = [] ∧
      5 + 16 ≤ (updating 5 false true).lastIndex ∧ (updating 6 false true).lastIndex < 6 + 16 := by decide

/-- The power sequencer in a state, on its way to another. -/
def powered (c : Chip) (st target : PState) : Chip := c.onPwr fun p => { p with state := st, target := target }

theorem test_meets_PowerStatesAndTemperature_power :
    takes sender core0 Reg.PWR_STATE_CTRL = true ∧ takes (powered tile .waking .run) core0 Reg.PWR_STATE_CTRL = true ∧
      sender.level ≠ 2 ∧ (sender.put .WEATHER_TEMP_LEVEL 2).level = 2 ∧ (powered sender .dim .dim).pwr.state = .dim ∧
      takes (powered sender .dim .dim) core0 Reg.PWR_STATE_CTRL = true ∧ (twin 3).mode = 4 ∧ (twin 3).twinRole = 3 ∧
      sender.mode ≠ 4 ∧ sender.switchPending = false ∧ sender.upd.rel = none ∧ ticked.ticking = true ∧
      (let n := (ticked.put ⟨Reg.PWR_STATE_TICK_LO, 31, 0⟩ 6).pair Reg.PWR_STATE_TICK_LO Reg.PWR_STATE_TICK_HI;
        (∀ m, ticked.bell.tick = some m → m < n) ∧ ticked.bell.time ≤ ticked.tickTime n) ∧
      (sender.onPwr fun p => { p with atTick := some (.dim, 5) }).pwr.atTick = some (.dim, 5) ∧ 5 ≤ ticked.lastIndex ∧
      sender.bell.tick = none ∧ sender.pwr.step = none ∧
      (sender.onPwr fun p => { p with step := some ⟨40, true, true, 0⟩ }).pwr.step = some ⟨40, true, true, 0⟩ ∧
      sender.pwr.held = false ∧ (sender.onPwr fun p => { p with held := true }).pwr.held = true ∧ sender.domOn 79 = true ∧
      bitAt sender.pwr.sram 79 = true ∧ bitAt (sender.onPwr fun p => { p with sram := 1 }).pwr.sram 79 = false ∧
      sender.fab.commits = [] := by
  refine ⟨?_, ?_, ?_, ?_, ?_, ?_, ?_, ?_, ?_, ?_, ?_, ?_, ⟨?_, ?_⟩, ?_, ?_, ?_, ?_, ?_, ?_, ?_, ?_, ?_, ?_, ?_⟩
  case refine_13 => intro m h; cases h; decide
  all_goals decide

theorem test_meets_PowerStatesAndTemperature_wakes :
    (let c := puts (powered sender .deep .deep) [(⟨Reg.PWR_WAKE_EN, 31, 0⟩, 0x11), (⟨Reg.PWR_WAKE_TIMER, 31, 0⟩, 1)];
        c.pwr.state = .deep ∧ bitAt (c.nat Reg.PWR_WAKE_EN) 4 = true ∧ bitAt (c.nat Reg.PWR_WAKE_EN) 3 = false ∧
          c.nat Reg.PWR_WAKE_TIMER ≠ 0 ∧ bitAt (c.nat Reg.PWR_WAKE_EN) 0 = true) ∧ sender.nat Reg.PWR_WAKE_TIMER = 0 ∧
      (tile.onPwr fun p => { p with deepAck := some 0 }).pwr.deepAck.isSome = true ∧ tile.pwr.deepAck = none ∧
      (let c := (gridded 3).onPwr fun p => { p with deepAck := some 0, deepTick := 4 };
        c.deepFree = false ∧ (c.onPwr fun p => { p with deepTick := 3 }).deepFree = true) ∧ (powered sender .deep .deep).isSender = true ∧
      (powered tile .deep .deep).isTile = true ∧ bitAt ((powered sender .deep .deep).nat Reg.PWR_WAKE_EN) 3 = false ∧
      bitAt (((powered sender .deep .deep).setNat Reg.PWR_WAKE_EN 2).nat Reg.PWR_WAKE_EN) 1 = true ∧
      (let c := ((sender.onPwr fun p => { p with deepWake := true, sram := 1 }).onGate fun g => { g with retained := [g.slots.headD emptySlot] });
        c.domOn 1 = true ∧ bitAt c.pwr.sram 1 = false ∧ c.pwr.deepWake = true ∧ c.gate.retained ≠ [] ∧
          c.flag .GATE_QUAR_ACTIVE = false ∧ c.fab.commits = []) ∧
      sender.domOn 9 = true ∧ State.reset.chip.domOn 9 = false ∧
      (sender.onWx fun w => { w with prev := some 0 }).wx.prev = some 0 ∧ 128 < ((129 : Int) - 0).natAbs ∧
      ¬ 128 < ((-128 : Int) - 0).natAbs ∧ sender.wx.readings.length < 8 ∧
      8 ≤ (sender.onWx fun w => { w with readings := List.replicate 8 400 }).wx.readings.length ∧ sender.orderlyC ≤ 2000 ∧
      (let c := (puts sender [(.WEATHER_TEMP_LEVEL, 2), (.WEATHER_STAT_PHASE, 1)]).onWx fun w =>
          { w with orderlyAt := some 0, coolAt := some 0 };
        c.wx.orderlyAt = some 0 ∧ c.wx.coolAt = some 0 ∧ c.level = 2 ∧ c.get .WEATHER_STAT_PHASE = 1 ∧
          c.flag .WEATHER_STAT_SENSOR = false) ∧ sender.pwr.state = .run ∧ (powered sender .offTrip .run).pwr.state = .offTrip ∧
      (sender.put .WEATHER_CFG_TRIP_HOLD 1).flag .WEATHER_CFG_TRIP_HOLD = true ∧ sender.flag .WEATHER_CFG_TRIP_HOLD = false ∧
      sender.wx.trips.length < 3 ∧ sender.fabricCause core0 Reg.WEATHER_PEAK false = 0 ∧
      sender.flag (.PG_STATUS_SRST_BUSY 4) = false := by decide

/-! ### Ill-formed commands, one for each bound of WellFormed -/

/-- Commands 1 to 40 that name what the part does not have. -/
def illFormed1 : List Instr :=
  [.internalResetRelease ⟨4, 0, true, 0, 0, true, none⟩, .internalResetRelease ⟨0, 8, true, 0, 0, true, none⟩,
    .internalResetRelease ⟨0, 0, true, 0, 32, true, none⟩, .roleStrapResample ⟨4, 0, true, 0, 0, true, none⟩,
    .roleStrapResample ⟨0, 8, true, 0, 0, true, none⟩, .roleStrapResample ⟨0, 0, true, 0, 32, true, none⟩,
    .pageEnable core0 4096, .pageDisable core0 4096, .drainComplete 4096, .pageSoftReset core0 4096,
    .softResetComplete 4096, .pageCommit core0 4096, .commitApply 4096, .pgEventClear core0 4096 0,
    .pgEventSet core0 4096 0, .pgStatusRead core0 4096, .readTimeout core0 (2 ^ 24), .srcCfgWrite core0 256 0,
    .msixUnmask true true [64] [], .interruptTake 4 true true, .handlerEnd 4, .gpioEdgeAccept 16 [],
    .ptpSyncReceive 2 0 frame64 0 0 0 0, .ptpAnnounceReceive 2 0 frame64 ⟨[], 0⟩ 0,
    .ptpTransparentForward 2 frame64 0 0 0, .beaconDue 16 0,
    .beaconReceive 16 0 (addr 0 64) ⟨0, 0, 0, ⟨60, 1, 0, 0, 0, true, 0⟩, 0, 0, 0, 0, 0, true⟩ ⟨[], 0, [], 0, none⟩,
    .beaconReceive 0 0 ⟨3, 0, 0, 64, 0⟩ ⟨0, 0, 0, ⟨60, 1, 0, 0, 0, true, 0⟩, 0, 0, 0, 0, 0, true⟩ ⟨[], 0, [], 0, none⟩,
    .toutArm core0 2 0, .toutPulse 2 0, .toutPulse 0 256, .pllLock 12, .pllUnlock 12, .signalDetect 12 0 0 0,
    .signalDetect 0 2 0 0, .cdrLock 12 0 0, .cdrLock 0 2 0, .blockLock 12 0 [] [], .blockLock 0 2 [] [],
    .markerLock 12 0 (markers 0 0) (markers 0 0) 0]

theorem test_ill_formed_1 : illFormed1.all (fun i => i.wf == false) = true := by decide

/-- Commands 41 to 80 that name what the part does not have. -/
def illFormed2 : List Instr :=
  [.markerLock 0 2 (markers 0 0) (markers 0 0) 0, .linkUp 12 0, .linkUp 0 2, .linkDown 12 0 .signal,
    .linkDown 0 2 .signal, .alignmentMarker 12 0 [] idleBlock 0 0, .alignmentMarker 0 4 [] idleBlock 0 0,
    .eyeMeasure 12 0 0 0 0, .eyeMeasure 0 4 0 0 0, .rxeqWrite core0 12 0 0, .rxeqWrite core0 0 4 0,
    .sscSet core0 12 0, .loopbackSet core0 12 0, .loopbackTimeout 12, .prbsGeneratorSet core0 12 0 0,
    .prbsGeneratorSet core0 0 4 0, .prbsCheckerEnable core0 12 0, .prbsCheckerEnable core0 0 4,
    .prbsCheckerLock 12 0 [], .prbsCheckerLock 0 4 [], .cellSchedule 16 0, .pixelDeadline 16,
    .regRd 16 (addr 0 64) (cmd 1 1 1) ⟨[], 0, [], 0, none⟩, .regWr 16 (addr 0 64) (cmd 1 1 1) ⟨[], 0, [], 0, none⟩,
    .bulkWr 16 (addr 0 64) (cmd 1 1 1) ⟨[], 0, [], 0, none⟩, .bulkRd 16 (addr 0 64) (cmd 1 1 1) ⟨[], 0, [], 0, none⟩,
    .action 16 (addr 0 64) (cmd 1 1 1) ⟨[], 0, [], 0, none⟩ true true,
    .telSub 16 (addr 0 64) (cmd 1 1 1) ⟨[], 0, [], 0, none⟩,
    .discover 16 (addr 0 64) (cmd 1 1 1) ⟨[], 0, [], 0, none⟩,
    .idReq 16 (addr 0 64) (cmd 1 1 1) ⟨[], 0, [], 0, none⟩,
    .keyx 16 (addr 0 64) (cmd 1 1 1) ⟨[], 0, [], 0, none⟩ true true true true 0 true,
    .assign 16 (addr 0 64) (cmd 1 1 1) ⟨[], 0, [], 0, none⟩,
    .admitTile 16 (addr 0 64) (cmd 1 1 1) ⟨[], 0, [], 0, none⟩,
    .rekey 16 (addr 0 64) (cmd 1 1 1) ⟨[], 0, [], 0, none⟩, .unmute 16 (addr 0 64) (cmd 1 1 1) ⟨[], 0, [], 0, none⟩,
    .tailOff 16 (addr 0 64) (cmd 1 1 1) ⟨[], 0, [], 0, none⟩,
    .groups 16 (addr 0 64) (cmd 1 1 1) ⟨[], 0, [], 0, none⟩,
    .modeArm 16 (addr 0 64) (cmd 1 1 1) ⟨[], 0, [], 0, none⟩,
    .modeGo 16 (addr 0 64) (cmd 1 1 1) ⟨[], 0, [], 0, none⟩,
    .modeAbort 16 (addr 0 64) (cmd 1 1 1) ⟨[], 0, [], 0, none⟩]

theorem test_ill_formed_2 : illFormed2.all (fun i => i.wf == false) = true := by decide

/-- Commands 81 to 120 that name what the part does not have. -/
def illFormed3 : List Instr :=
  [.bootCell 16 (addr 0 64) 0 0 [] ⟨[], 0, [], 0, none⟩,
    .pixelCell 16 (addr 0 64) ⟨5, 0, 4, true, true, 0⟩ [] ⟨[], 0, [], 0, none⟩, .rackDue 16,
    .rackReceive 16 (addr 0 64) [] ⟨[], 0, [], 0, none⟩, .slotTransmit 1280 0, .farPresenceSlot 16,
    .slotReceive 16 0 (addr 0 64) slot64 ⟨[], 0, [], 0, none⟩, .censusReceive 16 (addr 0 64) ⟨[], 0, [], 0, none⟩,
    .helloReceive 16 (addr 0 64) ⟨7, 1, 1, 1, 0, []⟩ 0 none ⟨[], 0, [], 0, none⟩,
    .helloReceive 0 (addr 0 64) ⟨7, 1, 1, 0, 0, []⟩ 0 none ⟨[], 0, [], 0, none⟩,
    .idPartReceive 16 (addr 0 64) ⟨7, 1, 1, 2, 0, []⟩ true true ⟨[], 0, [], 0, none⟩,
    .idPartReceive 0 (addr 0 64) ⟨7, 1, 1, 0, 0, []⟩ true true ⟨[], 0, [], 0, none⟩, .idReqTimeout 16 0,
    .keyxRespReceive 16 (addr 0 64) ⟨7, 1, 1, 3, 0, []⟩ true ⟨[], 0, [], 0, none⟩,
    .keyxRespReceive 0 (addr 0 64) ⟨7, 1, 1, 0, 0, []⟩ true ⟨[], 0, [], 0, none⟩,
    .refusedReceive 16 (addr 0 64) ⟨7, 1, 1, 4, 0, []⟩ ⟨[], 0, [], 0, none⟩,
    .refusedReceive 0 (addr 0 64) ⟨7, 1, 1, 0, 0, []⟩ ⟨[], 0, [], 0, none⟩, .chainListWdn core0 16 0,
    .mutedReceive 16 (addr 0 64) ⟨[], 0, [], 0, none⟩,
    .slotUnitForward 16 0 .idle (addr 0 64) ⟨[], 0, [], 0, none⟩ 0,
    .slotUnitForward 0 1280 .idle (addr 0 64) ⟨[], 0, [], 0, none⟩ 0, .unitEmpty 16 0, .noResponder 16,
    .lonelyTimeout 16, .discoveryRound 16, .discoveryTimeout 16, .retSwitch 16, .rekeySend (some 16), .ethLinkUp 2,
    .ethLinkDown 2, .arpReceive 3 0 0 true frame64, .arpReceive 0 (2 ^ 32) 0 true frame64,
    .arpReceive 0 0 (2 ^ 32) true frame64, .igmpQuery 2 none frame64,
    .videoPacket 2 frame64 .udp 0 0 0 0 ⟨200, false, false⟩ ⟨0, 0, false, 0, []⟩ 0, .streamLost 4 0, .streamLost 0 4,
    .pathLost 4 0 0, .pathLost 0 4 0, .pathLost 0 0 2]

theorem test_ill_formed_3 : illFormed3.all (fun i => i.wf == false) = true := by decide

/-- Commands 121 to 160 that name what the part does not have. -/
def illFormed4 : List Instr :=
  [.fillTimeout 4 0, .fillTimeout 0 4, .cramDataWrite core0 4 0, .cramDataRead core0 4, .grpReady 4,
    .fenceCancel core0 16, .pulseSample 480 0, .irefMeasure 65536 0, .pinFaultClear core0 4 0 0,
    .pinFaultClear core0 0 4 0, .csiFrameStart 2 0 0 0 0 0, .csiFrameStart 0 4 0 0 0 0,
    .csiLongPacket 2 0 0 0 0 true [] 0, .csiLongPacket 0 4 0 0 0 true [] 0, .csiFrameEnd 2 0 0 0 0 0,
    .csiFrameEnd 0 4 0 0 0 0, .csiFrameTimeout 8, .sensorApply core0 8, .granaryRead 16 0 0 .ok,
    .granaryRead 0 (2 ^ 40) 0 .ok, .granaryWrite 16 0 [] .ok, .granaryWrite 0 (2 ^ 40) [] .ok,
    .regionFill core0 (2 ^ 17), .regionClear core0 (2 ^ 17), .regionFillDone (2 ^ 17), .trainingDone 4 true 0 0 0,
    .trainingDone 0 true 65536 0 0, .trainingDone 0 true 0 65536 0, .trainingDone 0 true 0 0 65536,
    .retrainingPause 4, .rankRetire core0 4 0, .rankRetire core0 0 2, .arbDecision [] 4 [], .starve 16,
    .ringEnable core0 16384, .ringFlush core0 16384, .ringResume core0 16384, .ringDisable core0 16384,
    .sqDoorbell 16384 0, .sqDoorbell 0 65536]

theorem test_ill_formed_4 : illFormed4.all (fun i => i.wf == false) = true := by decide

/-- Commands 161 to 200 that name what the part does not have. -/
def illFormed5 : List Instr :=
  [.cqDoorbell 16384 0, .cqDoorbell 0 65536, .descriptorTake 16384, .barrier 16384, .tickFence 16384,
    .notifyHoldoff 16384 0, .bar4Read (2 ^ 40) 4 .ok, .bar4Read 0 0 .ok, .bar4Read 0 4097 .ok,
    .bar4Write (2 ^ 40) [some 0] .ok, .bar4Write 0 [] .ok, .bar4Write 0 (List.replicate 513 none) .ok,
    .pcieLinkUp 5 0, .pcieLinkUp 0 5, .mgmtRegRd 0 (2 ^ 32) 0 true, .mgmtRegWr 0 (2 ^ 32) [] true,
    .mgmtMemRd 0 (2 ^ 64) 0 true, .mgmtMemWr 0 (2 ^ 64) [] true, .mgmtDoorbell 0 (2 ^ 32) 0 true,
    .mFinish (2 ^ 64) true, .copyAck 0 512 0, .copyAck 0 0 65536, .mandateRecord (some (3, 0, 0)),
    .mandateRecord (some (0, 64, 0)), .presenceRecord 64 true true true, .elderSilent 3, .rejoinAtTick 65536 0,
    .writePublic core0 256, .keyImport core0 256 true, .openDebug core0 256 true, .pendingKeyWrite 32,
    .claim 16 (addr 0 64) (cmd 1 1 1) ⟨[], 0, [], 0, none⟩ true true,
    .releaseClaim 16 (addr 0 64) (cmd 1 1 1) ⟨[], 0, [], 0, none⟩ true true,
    .actArm 16 (addr 0 64) (cmd 1 1 1) ⟨[], 0, [], 0, none⟩, .actGo 16 (addr 0 64) (cmd 1 1 1) ⟨[], 0, [], 0, none⟩,
    .actAbort 16 (addr 0 64) (cmd 1 1 1) ⟨[], 0, [], 0, none⟩,
    .antiRollbackBurn 16 (addr 0 64) (cmd 1 1 1) ⟨[], 0, [], 0, none⟩,
    .chunkPut core0 8192 ⟨true, true, true, true, []⟩, .sramInitDone 80, .deepWake 5 0]

theorem test_ill_formed_5 : illFormed5.all (fun i => i.wf == false) = true := by decide

/-- Commands 201 to 227 that name what the part does not have. -/
def illFormed6 : List Instr :=
  [.tempReading (-32769) true, .tempReading 32768 true, .splitGrant 16 true,
    .delayRespReceive 2 frame64 0 true 0 0 0 0 0, .csiLinkActive 2 0, .csiLinkActive 0 16, .csiLinkStop 2 0 true,
    .csiLinkStop 0 16 true, .csiSkewCalibration 2 true, .ethHiBer 2 true, .registerWrite core0 0 [],
    .registerWrite core0 (2 ^ 24) [(0, true)], .registerWrite core0 0 [(0, true), (0, true)],
    .registerWrite .pcie (2 ^ 24 - 4) [(0, true), (0, true)], .counterReadClear core0 0 [],
    .counterReadClear core0 (2 ^ 24) [true], .counterReadClear core0 0 [true, true],
    .counterReadClear .pcie (2 ^ 24 - 4) [true, true], .counterLowRead core0 0 [],
    .counterLowRead core0 (2 ^ 24) [true], .counterLowRead core0 0 [true, true],
    .counterLowRead .pcie (2 ^ 24 - 4) [true, true], .refresh 4 true [], .refresh 0 true [1, 1, 1, 1, 1],
    .mHello (2 ^ 32) (leBytes 481 0) true, .mHello 0 (leBytes 480 0) true, .tamperEvent (.pin 2 4)]

theorem test_ill_formed_6 : illFormed6.all (fun i => i.wf == false) = true := by decide

/-! ### Values the spec works out -/

/-- Decode of the red lamp’s pixel (09_tile_pixel_engine, worked example): R 1,940 × 2^−12, G 0.5, B 1,025 × 2^−12. -/
theorem test_red_lamp_decode :
    (decodeCode (fun j => if j = 2999 then 0x3794 else 0x3795) 16 48000).1 = val16 0x3794 ∧
      (decodeCode (fun _ => 0x3800) 16 48000).1 = val16 0x3800 ∧
      (decodeCode (fun j => if j = 2999 then 0x3400 else 0x3404) 16 48000).1 = val16 0x3401 := by decide

/-- Its matrix, scale and dither give code 21,795 with no flag, in each of four frames. -/
theorem test_red_lamp_code :
    ([0, 1, 2, 3].map fun n =>
      lampCode (fun k => val16 (listAt [0x3b80, 0xac00, 0x2000] k 0)) (val16 0x1400) [val16 0x3794, val16 0x3800, val16 0x3401]
        (val32 0x3f4ccccd) (dither 2 13 6 n)) = [(21795, 0), (21795, 0), (21795, 0), (21795, 0)] ∧
      [dither 2 13 6 0, dither 2 13 6 1, dither 2 13 6 2, dither 2 13 6 3] = [(23, -5), (15, -5), (17, -5), (9, -5)] := by decide

/-- The grid of an indoor panel in Broadcast mode (10_lamplighter_drive): P_GCLK, N, T_row, W. -/
theorem test_indoor_grid :
    pGclk 120 1 = 2083301 ∧ segments 1 5 120 1 = 64 ∧ 2083301 / 64 = 32551 ∧ rowLen 2083301 64 32 = 1017 ∧
      windowOf 2083301 64 32 resetTiming = 961 := by decide

/-- The lamp of code 21,795 there: 38 segments of 320 GCLK, segments 0, 1 and 2 among them, and 26 of 319. -/
theorem test_indoor_lamp :
    onTime 21795 65536 61504 = 20454 ∧ [0, 1, 2, 3].map (onSeg 20454 64) = [320, 320, 320, 319] ∧
      ((List.range 64).filter fun s => onSeg 20454 64 s == 320).length = 38 ∧
      3 * 2083301 / 64 = 97654 ∧ 97654 + 6 * 1017 + blankOf resetTiming 32 = 103812 := by decide

/-- The grid of an outdoor panel in Plain mode, and a white lamp under its limit. -/
theorem test_outdoor_grid :
    pGclk 60 1 = 4166634 ∧ segments 0 5 60 1 = 32 ∧ rowLen 4166634 32 16 = 8137 ∧
      windowOf 4166634 32 16 resetTiming = 8081 ∧ onTime 65535 54998 258592 = 217011 ∧
      ((List.range 32).filter fun s => onSeg 217011 32 s == 6782).length = 19 := by decide

/-- The current limit of that panel at full white: LAMP_ILIM_EST 7,149, LIMK 54,998 but for the 10 nA steps of I_IREF. -/
theorem test_outdoor_limit :
    ((tile.onLamp fun l => { l with grid := some ⟨32, 130207, 8137, 8081, 4166634, 16, 0, 0, 0⟩, iref := 36364 }).onNim fun n =>
      { n with sum := 65535 * 2560 * (setting 210 0 + setting 175 0 + setting 140 0) }).estimate = (7149, 54997) := by decide

/-- T_line of 4,320 lines from 20 µs to 7,000 µs is 1,615 ns, and the raster ends at 6,996.8 µs (08_sender_scanout_and_slicing). -/
theorem test_raster :
    let p : Plan := { sender.planNow with w := 8192, h := 4320, vs := 20, ae := 7000 }
    p.tLine = 1615 ∧ p.ty 4319 = ns 6996800 := by decide

/-- A tile of 4,096 pixels at 12 bits takes 16 cells of 147 blocks and 2 tag blocks: 2,354. -/
theorem test_slice_blocks : totalBlocks (cellsOf 12 ⟨2899, 0x1507, 2688, 2240, 128, 32⟩) = 2354 := by decide

/-- Entry 2,899 of bank 1 as the map RAM holds it. -/
theorem test_map_entry :
    (sender.onScan fun x => { x with
      map := memPut [] 0x4b530 ([0x80001507, 0x08c00a80, 0x00200080, 0].flatMap (leBytes 4)) }).mapEntry 1 2899 =
        some ⟨2899, 0x1507, 2688, 2240, 128, 32⟩ := by decide

/-- A return superframe of 1,024 tiles and 64 answer units has 23,937 blocks (05_ronuno_chain_protocol). -/
theorem test_superframe : superframeLen 64 = 23937 := by decide

/-- The load of four layers of 3,840 × 2,160 at 60 Hz in group 0 reads 23 (07_loom_composition). -/
theorem test_loom_load :
    let c := puts (on ticked [0x50, 0x51, 0x52, 0x53, 0x54]) ([(.SCAN_CANVAS_W, 15360), (.SCAN_CANVAS_H, 2160)] ++
      (List.range 4).flatMap fun k => [(.LOOM_LYR_CFG_EN k, 1), (⟨Reg.LOOM_LYR_CROP_SIZE k, 31, 0⟩, 0x08700f00),
        (⟨Reg.LOOM_LYR_DST k, 31, 0⟩, 0xf00 * k)])
    c.showLoomLoad.nat Reg.LOOM_LOAD = 23 := by decide

/-- Four channels of 16 Gb x8 devices in two ranks, spare rank on: S is 16 GiB (12_granary_dram). -/
theorem test_granary_size :
    (puts sender [(.GRAN_MGR_CFG_CH_EN, 15), (.GRAN_CH_CFG_WIDTH 0, 1), (.GRAN_CH_CFG_RANKS 0, 1), (.GRAN_CH_CFG_DENSITY 0, 0)]).granS =
      16 * 2 ^ 30 := by decide

/-- A register write’s cell of 8 data bytes takes 8 blocks (13_well_queues_and_host). -/
theorem test_command_blocks :
    (Cell.command (addr 3 0) ⟨1, 1, 2, false, false, 0x2048, 0, List.replicate 8 0⟩).blocks = 8 := by decide

/-- The ill-formed are refused. -/
theorem test_ill_formed_refused : exec (.gpioEdgeAccept 16 [true]) (st sender) = .refused .outOfRange := by rfl

/-! ### The wire -/

/-- The marker of lane 1, SEQ 258, BIP8 0x0f (R87); it is a valid marker, inverted it is not, and a lane that sees it is upside down. -/
theorem test_marker :
    markerBlock 1 258 0x0f = ⟨2, [0xa5, 1, 1, 2, 0x0f, 0x5a, 0xfe, 0xf0]⟩ ∧ (markerBlock 1 258 0x0f).isMarker = true ∧
      (markerBlock 1 258 0x0f).inverted.isMarker = false := by decide

/-- What is scrambled is descrambled again from the same state, and differs on the way (R85). -/
theorem test_scrambler :
    let x := scrBlock 0x155 idleBlock
    x.2 ≠ idleBlock ∧ (desBlock 0x155 x.2).2 = idleBlock := by decide

/-- Ball rows A, Y, AA and BU, and the port rows of the lamp field in the order of k (R438). -/
theorem test_ball_rows :
    [0, 18, 19, 53].map ballRow = ["A", "Y", "AA", "BU"] ∧
      portRows.map ballRow = ["BU", "BP", "BM", "BK", "BH", "BF", "BD", "BB", "AY", "AV"] ∧ ballRow 33 = "AT" := by decide

end Sys2Proof.Tests
end

section
/-!
SUPPORT. Accesses through the fabric: a command as an effect on the part, what an event and a fabric error leave unchanged, what a
write does by its register's access code, and what a performed read changes.
-/

namespace Sys2Proof.Machine

/-! ### Commands as effects -/

/-- A command's outcome depends on its effect at the state's own part alone. -/
theorem State.effect_congr {s : State} {f g : Chip → Chip} (h : f s.chip = g s.chip) : s.effect f = s.effect g := by
  simp only [State.effect, Chip.after, h]

/-- A well-formed command answers the state after any effect that agrees with its own at the part. -/
theorem State.run_next {i : Instr} {f g : Chip → Chip} {s : State} (hwf : i.wf = true) (h : f s.chip = g s.chip) :
    s.run i f = .next (s.effect g) := by
  rw [State.run_wf i f s hwf, State.effect_congr h]

theorem exec_registerWrite (rq : Requester) (a : Nat) (ws : List (Word × Bool)) (s : State) :
    exec (.registerWrite rq a ws) s = s.run (.registerWrite rq a ws) fun c => c.writeRun rq a ws := rfl

theorem exec_counterReadClear (rq : Requester) (a : Nat) (be : List Bool) (s : State) :
    exec (.counterReadClear rq a be) s = s.run (.counterReadClear rq a be) fun c => c.readRun rq a be := rfl

theorem exec_counterLowRead (rq : Requester) (a : Nat) (be : List Bool) (s : State) :
    exec (.counterLowRead rq a be) s = s.run (.counterLowRead rq a be) fun c => c.readRun rq a be := rfl

theorem exec_timeLatchRead (rq : Requester) (s : State) :
    exec (.timeLatchRead rq) s = s.run (.timeLatchRead rq) fun c => c.readOut rq Reg.BELL_TIME_SUBNS := rfl

theorem exec_syncCapRead (rq : Requester) (s : State) :
    exec (.syncCapRead rq) s = s.run (.syncCapRead rq) fun c => c.readOut rq Reg.BELL_SYNC_CAP_NS := rfl

theorem exec_pgStatusRead (rq : Requester) (p : Nat) (s : State) :
    exec (.pgStatusRead rq p) s = s.run (.pgStatusRead rq p) fun c => c.readOut rq (Reg.PG_STATUS p) := rfl

theorem exec_readTimeout (rq : Requester) (a : Nat) (s : State) :
    exec (.readTimeout rq a) s = s.run (.readTimeout rq a) fun c => c.readTimeout rq a := rfl

/-- One doubleword of the register space is an access that any requester can make. -/
theorem accessFits_one (rq : Requester) {a : Nat} (h : a < 2 ^ 24) : accessFits rq a 1 = true := by
  simpa [accessFits] using h

/-- A PCIe request may be several doublewords long, as long as it stays in the register space. -/
theorem accessFits_pcie {a n : Nat} (hn : n ≠ 0) (h : a + 4 * n ≤ 2 ^ 24) : accessFits .pcie a n = true := by
  simp only [accessFits, Bool.and_eq_true, decide_eq_true_eq, beq_self_eq_true, Bool.or_true, and_true]
  omega

/-! ### Events and fabric errors -/

@[simp] theorem Chip.rd_emit (c : Chip) (o : Out) (a : Nat) : (c.emit o).rd a = c.rd a := rfl

/-- Storing a field leaves every register of another page. -/
theorem Chip.rd_put_page (c : Chip) (f : Fld) (n : Nat) {b : Nat} (h : b / 0x1000 ≠ f.reg / 0x1000) :
    (c.put f n).rd b = c.rd b := Chip.rd_put_ne c f n fun e => h (by rw [e])

/-- An event changes the flags and the count of its own page alone. -/
theorem Chip.rd_setEvent_page (c : Chip) (e : Ev) {b : Nat} (h : b / 0x1000 ≠ e.page) : (c.setEvent e).rd b = c.rd b := by
  simp only [Chip.setEvent, Chip.countF]
  rw [Chip.rd_put_page _ _ _ (by simp only [Reg.PG_EVENT_CNT]; omega), Chip.rd_wr_ne _ _ (by simp only [Reg.PG_EVENT]; omega)]

/-- A tile's event queue is kept beside the registers; its overflow shows in the return page. -/
theorem Chip.rd_forwardEvent_page (c : Chip) (e : Ev) {b : Nat} (h : b / 0x1000 ≠ 0x30) :
    (c.forwardEvent e).rd b = c.rd b := by
  simp only [Chip.forwardEvent]
  split
  · rfl
  split
  · rfl
  split
  · rfl
  · rw [Chip.rd_setEvent_page _ _ h, Chip.count, Chip.rd_countBy_ne _ _ (by rintro rfl; exact h rfl)]
    rfl

/-- An occurrence of an event changes registers of its page and of the return page alone. -/
theorem Chip.rd_raise_page (c : Chip) (e : Ev) {b : Nat} (h : b / 0x1000 ≠ e.page) (h30 : b / 0x1000 ≠ 0x30) :
    (c.raise e).rd b = c.rd b := by
  rw [Chip.raise, Chip.rd_forwardEvent_page _ _ h30, Chip.rd_setEvent_page _ _ h]

/-- A fabric error changes registers of the Crier's page and of the return page alone (R30, R130). -/
theorem Chip.rd_fabErr_page (c : Chip) (rq : Requester) (a : Nat) (w : Bool) (k : Nat) {b : Nat}
    (h : b / 0x1000 ≠ 2) (h30 : b / 0x1000 ≠ 0x30) : (c.fabErr rq a w k).rd b = c.rd b := by
  simp only [Chip.fabErr]
  rw [Chip.rd_raise_page _ _ h h30, Chip.countF, Chip.rd_put_page _ _ _ h]
  split
  · rw [Chip.rd_put_page _ _ _ h, Chip.rd_put_page _ _ _ h, Chip.rd_put_page _ _ _ h, Chip.rd_put_page _ _ _ h]
  · rfl

/-! ### The way to a register -/

/-- An access at an unaligned address is the fabric error UNALIGNED (R5). -/
theorem Chip.fabricCause_unaligned (c : Chip) (rq : Requester) {a : Nat} (w : Bool) (h : a % 4 ≠ 0) :
    c.fabricCause rq a w = 3 := by simp [Chip.fabricCause, h]

theorem Chip.regWriteAny_of_not_judged (c : Chip) (rq : Requester) {a : Nat} (v : Word) (h : judged a = false) :
    c.regWriteAny rq a v = c.regWrite rq a v noVerdict := by simp [Chip.regWriteAny, h]

/-- A read of less than a word, or at an unaligned address, reads 0 and is the fabric error UNALIGNED. -/
theorem Chip.readWhole_unaligned (c : Chip) (rq : Requester) {a : Nat} {whole : Bool} (h : whole = false ∨ a % 4 ≠ 0) :
    c.readWhole rq a whole = (c.fabErr rq a false 3).emit (.read a 0) := by
  cases whole with
  | false => rfl
  | true =>
    have ha : a % 4 ≠ 0 := h.resolve_left nofun
    simp [Chip.readWhole, Chip.readOut, Chip.regRead, c.fabricCause_unaligned rq false ha]

/-- A write of less than a word, or at an unaligned address, is discarded as the fabric error UNALIGNED. -/
theorem Chip.writeWhole_unaligned (c : Chip) (rq : Requester) {a : Nat} (v : Word) {whole : Bool}
    (h : whole = false ∨ a % 4 ≠ 0 ∧ judged a = false) : c.writeWhole rq a v whole = c.fabErr rq a true 3 := by
  cases whole with
  | false => rfl
  | true =>
    obtain ⟨ha, hj⟩ := h.resolve_left nofun
    have hc := c.fabricCause_unaligned rq true ha
    simp only [Chip.writeWhole, if_true, c.regWriteAny_of_not_judged rq v hj]
    rw [Chip.regWrite_error _ _ _ _ _ (by omega), hc]

/-- A read that reaches its register answers the register's word and makes what the read changes. -/
theorem Chip.readOut_reached (c : Chip) (rq : Requester) {a : Nat} (h : c.fabricCause rq a false = 0)
    (hs : c.flag (.PG_STATUS_SRST_BUSY (a / 0x1000)) = false ∨ srstAnswers (a % 0x1000) = true) :
    c.readOut rq a = (c.readEffect rq a).emit (.read a (c.regWord a)) := by
  have e : (c.flag (.PG_STATUS_SRST_BUSY (a / 0x1000)) && !srstAnswers (a % 0x1000)) = false := by
    rcases hs with hs | hs <;> simp [hs]
  simp [Chip.readOut, Chip.regRead, h, e]

/-- The doublewords of a write are that many accesses in ascending order of address (R41). -/
theorem Chip.writeRun_eq_foldl (c : Chip) (rq : Requester) (a k : Nat) (ws : List (Word × Bool)) :
    c.writeRun rq (a + 4 * k) ws =
      (ws.zipIdx k).foldl (fun c x => c.writeWhole rq (a + 4 * x.2) x.1.1 x.1.2) c := by
  induction ws generalizing c k with
  | nil => rfl
  | cons w ws ih => exact ih (c.writeWhole rq (a + 4 * k) w.1 w.2) (k + 1)

/-- The doublewords of a read are that many accesses in ascending order of address (R41). -/
theorem Chip.readRun_eq_foldl (c : Chip) (rq : Requester) (a k : Nat) (be : List Bool) :
    c.readRun rq (a + 4 * k) be = (be.zipIdx k).foldl (fun c x => c.readWhole rq (a + 4 * x.2) x.1) c := by
  induction be generalizing c k with
  | nil => rfl
  | cons b be ih => exact ih (c.readWhole rq (a + 4 * k) b) (k + 1)

/-- A whole write that is not judged and passes the checks on its way is performed at its page. -/
theorem exec_registerWrite_takes {s : State} {rq : Requester} {a : Nat} (v : Word) (ha : a < 2 ^ 24)
    (ht : Safety.takes s.chip rq a = true) (hj : judged a = false) :
    exec (.registerWrite rq a [(v, true)]) s = .next (s.effect fun c => c.pageWrite rq a v noVerdict) := by
  rw [exec_registerWrite]
  refine State.run_next (accessFits_one rq ha) ?_
  simp only [Chip.writeRun, Chip.writeWhole, if_true, Chip.regWriteAny_of_not_judged _ _ _ hj,
    Chip.regWrite_takes _ _ _ _ _ ht]

/-- COUNTER_READ_CLEAR of one doubleword is one read. -/
theorem exec_counterReadClear_one {s : State} {rq : Requester} {a : Nat} {whole : Bool} {g : Chip → Chip} (ha : a < 2 ^ 24)
    (h : s.chip.readWhole rq a whole = g s.chip) : exec (.counterReadClear rq a [whole]) s = .next (s.effect g) := by
  rw [exec_counterReadClear]
  exact State.run_next (accessFits_one rq ha) h

/-- COUNTER_LOW_READ of one doubleword is one read. -/
theorem exec_counterLowRead_one {s : State} {rq : Requester} {a : Nat} {whole : Bool} {g : Chip → Chip} (ha : a < 2 ^ 24)
    (h : s.chip.readWhole rq a whole = g s.chip) : exec (.counterLowRead rq a [whole]) s = .next (s.effect g) := by
  rw [exec_counterLowRead]
  exact State.run_next (accessFits_one rq ha) h

end Sys2Proof.Machine
end

section
/-!
SUPPORT. A write at its page, by the access code of its row (R7, R36), and a rejection (R31).
-/

namespace Sys2Proof.Machine

section PageWrite

variable {c : Chip} {rq : Requester} {a : Nat} {v : Word} {x : Verdict} {r : RegRow}

/-- The registers whose writes are judged are write-only. -/
theorem acc_of_judged (hj : judged a = true) (hr : rowOf a = some r) : r.acc = .wo := by
  have hrow : ∀ b ∈ [Reg.KEYS_CTRL, Reg.UPDATE_CHUNK_CTRL], (rowOf b).map (·.acc) = some .wo := by decide
  have ha : a ∈ [Reg.KEYS_CTRL, Reg.UPDATE_CHUNK_CTRL] := by simpa [judged] using hj
  simpa [hr] using hrow a ha

section AboveHeader

variable (h4 : 0x40 ≤ a % 0x1000) (hz : c.roleZero a = false) (hr : rowOf a = some r)

include h4 hz hr

/-- A read-only register ignores a write. -/
theorem Chip.pageWrite_ro (hacc : r.acc = .ro) : c.pageWrite rq a v x = c := by
  simp [Chip.pageWrite, h4.not_gt, hz, hr, hacc]

/-- Bits written 1 are cleared under the row's mask. -/
theorem Chip.pageWrite_w1c (hacc : r.acc = .w1c) :
    c.pageWrite rq a v x = (c.wr a (c.rd a &&& ~~~(v &&& r.wmask))).flagsRearm := by
  simp [Chip.pageWrite, h4.not_gt, hz, hr, hacc]

/-- A lockable register of an enabled page rejects a write. -/
theorem Chip.pageWrite_rwl_enabled (hacc : r.acc = .rwl) (hen : c.enabled (a / 0x1000) = true) :
    c.pageWrite rq a v x = c.reject a := by
  simp [Chip.pageWrite, h4.not_gt, hz, hr, hacc, hen]

/-- A write of a shadowed register is a write of its shadow. -/
theorem Chip.pageWrite_rws (hacc : r.acc = .rws) : c.pageWrite rq a v x = c.shadowWrite r a v := by
  simp [Chip.pageWrite, h4.not_gt, hz, hr, hacc]

end AboveHeader

/-- A write of a shadow is rejected while the page's commit is PENDING (R36). -/
theorem Chip.shadowWrite_pending (h : c.flag (.PG_COMMIT_PENDING (a / 0x1000)) = true) :
    c.shadowWrite r a v = c.reject a := by simp only [Chip.shadowWrite, h, if_true]

/-- A shadow that takes a write changes under the row's mask. -/
theorem Chip.shadowWrite_stores (hp : c.flag (.PG_COMMIT_PENDING (a / 0x1000)) = false) (hm : c.shadowMute a = false)
    (hb : shadowBad a v = false) (h75 : a / 0x1000 ≠ 0x75) (ht : a ≠ Reg.LAMP_FADE_TARGET) (hf : a ≠ Reg.LAMP_FADE_MS) :
    c.shadowWrite r a v = c.wrS a ((c.rdS a &&& ~~~r.wmask) ||| (layerShadow a v &&& r.wmask)) := by
  simp only [Chip.shadowWrite, hp, hm, hb, h75, ht, hf, Bool.false_eq_true, if_false, false_and, or_self,
    Chip.shadowStore]

end PageWrite

end Sys2Proof.Machine
end

section
/-!
SUPPORT. What a performed read changes (R6, R32, R58, R80): the values held for later reads, the window it moves, the count it clears.
-/

namespace Sys2Proof.Machine

/-! ### Pairs kept under a number -/

theorem assoc_cons {α : Type} (l : List (Nat × α)) (k b : Nat) (v : α) :
    assoc ((b, v) :: l) k = if b = k then some v else assoc l k := by
  by_cases h : b = k <;> simp [assoc, h]

/-- Taking away what is kept under a number leaves the others. -/
theorem assoc_filter_ne {α : Type} (l : List (Nat × α)) (k b : Nat) :
    assoc (l.filter fun e => e.1 != b) k = if k = b then none else assoc l k := by
  induction l with
  | nil => simp [assoc]
  | cons e l ih =>
    obtain ⟨i, w⟩ := e
    by_cases hi : i = b
    · have hb : ((i, w) :: l).filter (fun e => e.1 != b) = l.filter fun e => e.1 != b := by simp [hi]
      rw [hb, ih, assoc_cons, hi]
      split <;> simp_all [eq_comm]
    · have hb : ((i, w) :: l).filter (fun e => e.1 != b) = (i, w) :: l.filter fun e => e.1 != b := by simp [hi]
      rw [hb, assoc_cons, assoc_cons, ih]
      split <;> simp_all

theorem assoc_assocPut {α : Type} (l : List (Nat × α)) (k b : Nat) (v : α) :
    assoc (assocPut l b v) k = if k = b then some v else assoc l k := by
  rw [assocPut, assoc_cons, assoc_filter_ne]
  split <;> simp_all [eq_comm]

/-! ### Holding values -/

/-- The part with nothing held for the register at `b`. -/
def Chip.unheld (c : Chip) (b : Nat) : Chip := c.onFab fun f => { f with held64 := f.held64.filter fun e => e.1 != b }

/-- A register's value is held as it reads with nothing held for it; what is held for others stays. -/
theorem Chip.assoc_hold64 (c : Chip) (b k : Nat) :
    assoc (c.hold64 b).fab.held64 k = if k = b then some ((c.unheld b).regWord b) else assoc c.fab.held64 k :=
  assoc_assocPut ..

@[simp] theorem Chip.hold64_regs (c : Chip) (b : Nat) : (c.hold64 b).regs = c.regs := rfl

@[simp] theorem Chip.hold64_commits (c : Chip) (b : Nat) : (c.hold64 b).fab.commits = c.fab.commits := rfl

/-- A register that is computed at the read reads its computed word while nothing is held for it. -/
theorem Chip.regWord_live {c : Chip} {a n : Nat} {r : RegRow} (h4 : 0x40 ≤ a % 0x1000) (hr : rowOf a = some r)
    (hacc : r.acc ≠ .wo) (hh : assoc c.fab.held64 a = none) (hl : c.liveWord a = some n) : c.regWord a = word n := by
  have h : ¬ a % 0x1000 < 0x40 := by omega
  simp [Chip.regWord, h, hr, hacc, hh, hl]

/-! ### What a read changes -/

/-- AUTO_INC moves a window's address register, or nothing. -/
theorem Chip.autoInc_cases (c : Chip) (inc addr : Fld) :
    c.autoInc inc addr = c ∨ c.autoInc inc addr = c.put addr (c.get addr + 4) := by
  cases h : c.flag inc <;> simp [Chip.autoInc, h]

/-- A read of a window's data moves the window's address register, any other read nothing. -/
theorem Chip.windowRead_cases (c : Chip) (a : Nat) :
    c.windowRead a = c ∨ ∃ f n, f.reg ≠ a ∧ c.windowRead a = c.put f n := by
  have moves : ∀ inc addr : Fld, addr.reg ≠ a →
      c.autoInc inc addr = c ∨ ∃ f n, f.reg ≠ a ∧ c.autoInc inc addr = c.put f n := fun inc addr h =>
    (c.autoInc_cases inc addr).imp_right fun e => ⟨addr, _, h, e⟩
  simp only [Chip.windowRead]
  split
  next h =>
    refine moves _ _ ?_
    simp only [Bool.and_eq_true, beq_iff_eq, Reg.INGEST_CRAM_DATA] at h
    simp only [Reg.INGEST_CRAM_ADDR]
    omega
  split
  next h => exact moves _ _ (by subst h; decide)
  split
  next h => exact moves _ _ (by subst h; decide)
  split
  next h => exact moves _ _ (by subst h; decide)
  split
  next h =>
    simp only [Chip.polAdvance]
    split
    · exact .inr ⟨_, _, by subst h; decide, rfl⟩
    · exact .inl rfl
  · exact .inl rfl

theorem Chip.windowRead_fab (c : Chip) (a : Nat) : (c.windowRead a).fab = c.fab := by
  rcases c.windowRead_cases a with e | ⟨f, n, -, e⟩ <;> rw [e]; rfl

/-- A read moves no window that the register read is the address of. -/
theorem Chip.rd_windowRead_same (c : Chip) (a : Nat) : (c.windowRead a).rd a = c.rd a := by
  rcases c.windowRead_cases a with e | ⟨f, n, h, e⟩ <;> rw [e]
  exact Chip.rd_put_ne _ _ _ h.symm

/-- The clearing of a count changes registers and what the blocks keep, not the fabric's own part. -/
theorem Chip.countRead_fab (c : Chip) (a : Nat) : (c.countRead a).fab = c.fab := by
  simp only [Chip.countRead]
  repeat' split
  all_goals rfl

/-- A count reads 0 once a read has cleared it (R32). -/
theorem Chip.rd_countRead_count (c : Chip) {a : Nat} {r : RegRow} (hr : rowOf a = some r) (hk : r.kind = .count) :
    (c.countRead a).rd a = 0 := by
  simp [Chip.countRead, hr, hk, Chip.rd_setNat]

/-- The part with what a read of `a` holds for later reads, and with nothing more held for `a` itself if it holds nothing. -/
def Chip.latched (c : Chip) (a : Nat) : Chip :=
  if (latches a).isEmpty then c.unheld a else c.each (latches a) Chip.hold64

theorem Chip.latched_regs (c : Chip) (a : Nat) : (c.latched a).regs = c.regs := by
  simp only [Chip.latched]
  split
  · rfl
  · exact Chip.each_keeps Chip.regs Chip.hold64 Chip.hold64_regs _ c

theorem Chip.latched_commits (c : Chip) (a : Nat) : (c.latched a).fab.commits = c.fab.commits := by
  simp only [Chip.latched]
  split
  · rfl
  · exact Chip.each_keeps (fun d => d.fab.commits) Chip.hold64 Chip.hold64_commits _ c

/-- The part after a performed read, but for the count that the read clears: it has latched, its window has moved, and the
number the register's word needs is drawn. -/
def Chip.readMoves (c : Chip) (a : Nat) : Chip :=
  let d := (c.latched a).windowRead a
  if d.gran.migr.isSome && a == Reg.GRAN_MGR_STAT then d.redraw else d

theorem Chip.readMoves_fab (c : Chip) (a : Nat) : (c.readMoves a).fab = (c.latched a).fab := by
  rw [← Chip.windowRead_fab (c.latched a) a, Chip.readMoves]
  split <;> rfl

theorem Chip.rd_readMoves_same (c : Chip) (a : Nat) : (c.readMoves a).rd a = c.rd a := by
  have h : ((c.latched a).windowRead a).rd a = c.rd a := by
    rw [Chip.rd_windowRead_same, Chip.rd, Chip.latched_regs, ← Chip.rd]
  rw [← h, Chip.readMoves]
  split <;> rfl

/-- Every performed read latches and moves; but for the debug port it also clears the count it reads (R32). -/
theorem Chip.readEffect_eq (c : Chip) (rq : Requester) (a : Nat) :
    c.readEffect rq a = if rq = .debug then c.readMoves a else (c.readMoves a).countRead a := by
  have h : (let d := c.each (latches a) Chip.hold64; if (latches a).isEmpty then d.unheld a else d) = c.latched a := by
    simp only [Chip.latched]
    split
    next hl => rw [List.isEmpty_iff.1 hl, Chip.each_nil]
    next => rfl
  simp only [Chip.readMoves, ← h]
  rfl

/-- Of the fabric's part a performed read changes what it latches alone. -/
theorem Chip.readEffect_fab (c : Chip) (rq : Requester) (a : Nat) : (c.readEffect rq a).fab = (c.latched a).fab := by
  rw [Chip.readEffect_eq, ← Chip.readMoves_fab]
  split
  · rfl
  · exact Chip.countRead_fab ..

theorem Chip.readEffect_commits (c : Chip) (rq : Requester) (a : Nat) :
    (c.readEffect rq a).fab.commits = c.fab.commits := by
  rw [Chip.readEffect_fab, Chip.latched_commits]

/-- A read through the debug port leaves the register as it was. -/
theorem Chip.rd_readEffect_debug (c : Chip) (a : Nat) : (c.readEffect .debug a).rd a = c.rd a := by
  rw [Chip.readEffect_eq, if_pos rfl, Chip.rd_readMoves_same]

/-- A read by any other requester leaves a count at 0. -/
theorem Chip.rd_readEffect_count (c : Chip) {rq : Requester} {a : Nat} {r : RegRow} (hq : rq ≠ .debug)
    (hr : rowOf a = some r) (hk : r.kind = .count) : (c.readEffect rq a).rd a = 0 := by
  rw [Chip.readEffect_eq, if_neg hq, Chip.rd_countRead_count _ hr hk]

/-! ### What follows a read -/

theorem mem_out_sendVector {o : Out} {c : Chip} (v : Nat) (h : o ∈ c.out) : o ∈ (sendVector c v).out := by
  simp only [sendVector]
  split
  · exact h
  · exact List.mem_cons_of_mem _ h

theorem mem_out_notifyPeer {o : Out} {c : Chip} (v : Nat) (h : o ∈ c.out) : o ∈ (notifyPeer c v).out := by
  have keeps : ∀ due : Bool, o ∈ (if due then (c.emit (.mgmt 0x20 [v] [])).onMgmt fun m =>
      { m with notified := assocPut m.notified v c.age } else c).out
    | true => List.mem_cons_of_mem _ h
    | false => h
  exact keeps _

/-- What the part has sent stays on record after the Crier's work. -/
theorem Chip.mem_settle_out {o : Out} {c : Chip} (h : o ∈ c.out) : o ∈ c.settle.out := by
  simp only [Chip.settle]
  refine Chip.each_induct (fun d => o ∈ d.out) _ _ (fun d v => mem_out_notifyPeer v) _ ?_
  exact Chip.each_induct (fun d => o ∈ d.out) _ _ (fun d v => mem_out_sendVector v) _ h

/-! ### A performed read as a command -/

/-- After a read with no commit waiting the Crier alone acts. -/
theorem Chip.after_read (c : Chip) (rq : Requester) (a : Nat) (hc : c.fab.commits = []) :
    (c.after fun c => (c.readEffect rq a).emit (.read a (c.regWord a))) =
      ((c.readEffect rq a).emit (.read a (c.regWord a))).settle := by
  have h : ((c.readEffect rq a).emit (.read a (c.regWord a))).fab.commits = [] := (c.readEffect_commits rq a).trans hc
  exact Chip.after_none _ _ h

/-- A whole read that reaches its register with no commit waiting: the registers it leaves, what it latched, its answer. -/
theorem Chip.settled_read (c : Chip) (rq : Requester) (a : Nat) (hc : c.fab.commits = []) :
    let t := c.after fun c => (c.readEffect rq a).emit (.read a (c.regWord a))
    (∀ b, t.rd b = (c.readEffect rq a).rd b) ∧ t.fab.held64 = (c.latched a).fab.held64 ∧
      .read a (c.regWord a) ∈ t.out := by
  simp only [Chip.after_read c rq a hc, Chip.settle_rd, Chip.settle_fab_held64]
  exact ⟨fun b => rfl, congrArg Fabric.held64 (c.readEffect_fab rq a), Chip.mem_settle_out (List.mem_cons_self ..)⟩

/-- A read of the low word of a 64-bit count holds the high word as it stands (R6). -/
theorem Chip.latched_one (c : Chip) {a b : Nat} (h : latches a = [b]) : c.latched a = c.hold64 b := by
  simp [Chip.latched, h]

/-- A read of BELL_TIME_SUBNS holds the rest of the time (R58). -/
theorem Chip.latched_time (c : Chip) :
    c.latched Reg.BELL_TIME_SUBNS =
      ((c.hold64 Reg.BELL_TIME_NS).hold64 Reg.BELL_TIME_SEC_LO).hold64 Reg.BELL_TIME_SEC_HI := rfl

/-- A read of BELL_SYNC_CAP_NS holds the rest of the capture (R80). -/
theorem Chip.latched_capture (c : Chip) :
    c.latched Reg.BELL_SYNC_CAP_NS = (c.hold64 Reg.BELL_SYNC_CAP_SEC_LO).hold64 Reg.BELL_SYNC_CAP_SEC_HI := rfl

/-- The registers of the Bellringer's page that its role has are computed from what the Bellringer holds. -/
theorem Chip.liveWord_bell {c : Chip} {a : Nat} (hz : c.roleZero a = false) (hp : a / 0x1000 = 3) :
    c.liveWord a = c.bellWord a := by simp [Chip.liveWord, hz, hp]

/-- With nothing held for it, BELL_TIME_NS reads the nanoseconds of the time. -/
theorem Chip.regWord_timeNs (c : Chip) :
    (c.unheld Reg.BELL_TIME_NS).regWord Reg.BELL_TIME_NS = word (nsOf c.bell.time) := by
  obtain ⟨r, hr, hacc⟩ : ∃ r, rowOf Reg.BELL_TIME_NS = some r ∧ r.acc = .ro := Option.map_eq_some_iff.1 (by decide)
  have here : (Reg.BELL_TIME_NS == Reg.BELL_PTP_CFG ||
      decide (Reg.BELL_ASYM 4 ≤ Reg.BELL_TIME_NS ∧ Reg.BELL_TIME_NS ≤ Reg.BELL_ASYM 17)) = false := by decide
  have hz : (c.unheld Reg.BELL_TIME_NS).roleZero Reg.BELL_TIME_NS = false := by
    simp only [Chip.roleZero, here, Bool.and_false, Bool.or_false]
    cases (c.unheld Reg.BELL_TIME_NS).isSender <;> decide
  have hl : (c.unheld Reg.BELL_TIME_NS).liveWord Reg.BELL_TIME_NS = some (nsOf c.bell.time) :=
    Chip.liveWord_bell hz (by decide)
  exact Chip.regWord_live (by decide) hr (by simp [hacc]) ((assoc_filter_ne ..).trans (if_pos rfl)) hl

end Sys2Proof.Machine
end

section
/-!
SUPPORT. Rejections, and reads of the page header (R7, R31).
-/

namespace Sys2Proof.Machine

/-! ### Rejections -/

/-- A rejection sets WR_REJ of its page. -/
theorem Chip.flag_reject (c : Chip) (a : Nat) : (c.reject a).flag (.PG_STATUS_WR_REJ (a / 0x1000)) = true := by
  simp only [Chip.reject]
  split
  next h => exact h
  next =>
    rw [Chip.flag, Chip.get_put_other _ _ _ _ (.inr (.inl (show 0 < 16 by decide))),
      Chip.get_put_same _ _ _ (show 0 < 32 by decide)]
    rfl

/-- REJ_WORD keeps the first rejected word (R7). -/
theorem Chip.rejWord_reject (c : Chip) (a : Nat) :
    (c.reject a).get (.PG_STATUS_REJ_WORD (a / 0x1000)) =
      if c.flag (.PG_STATUS_WR_REJ (a / 0x1000)) then c.get (.PG_STATUS_REJ_WORD (a / 0x1000)) else a % 0x1000 / 4 := by
  simp only [Chip.reject]
  split
  next => rfl
  next =>
    rw [Chip.get_put_same _ _ _ (show 25 < 32 by decide)]
    exact Nat.mod_eq_of_lt (show a % 0x1000 / 4 < 2 ^ 10 by omega)

/-- A rejection changes PG_STATUS of its page alone. -/
theorem Chip.rd_reject_ne (c : Chip) {a b : Nat} (h : b ≠ Reg.PG_STATUS (a / 0x1000)) : (c.reject a).rd b = c.rd b := by
  simp only [Chip.reject]
  split
  · rfl
  · rw [Chip.rd_put_ne _ _ _ h, Chip.rd_put_ne _ _ _ h]

/-! ### Reads of the header -/

/-- What a read holds for later reads lies above the header. -/
theorem latches_above_header {a b : Nat} (h : b ∈ latches a) : 0x40 ≤ b % 0x1000 := by
  simp only [latches] at h
  split at h
  next => fin_cases h <;> decide
  split at h
  next => fin_cases h <;> decide
  split at h
  next => fin_cases h; decide
  split at h
  next hc =>
    simp only [Bool.and_eq_true, beq_iff_eq] at hc
    rw [List.mem_singleton.1 h]
    omega
  split at h
  next hc =>
    simp only [Bool.and_eq_true, decide_eq_true_eq, beq_iff_eq] at hc
    rw [List.mem_singleton.1 h]
    omega
  next => exact absurd h List.not_mem_nil

section Header

variable {a : Nat} (h : a % 0x1000 < 0x40)

include h

theorem rowOf_header : rowOf a = none := by
  simp only [rowOf, if_pos h]
  split <;> rfl

/-- No header register is the low word of a count or a time. -/
theorem latches_header : latches a = [] := by
  have h1 : a ≠ Reg.BELL_TIME_SUBNS := by rintro rfl; exact absurd h (by decide)
  have h2 : a ≠ Reg.BELL_SYNC_CAP_NS := by rintro rfl; exact absurd h (by decide)
  have h3 : a ≠ Reg.BELL_TICK_IDX_LO := by rintro rfl; exact absurd h (by decide)
  have h4 : (a % 0x1000 == 0x80) = false := by simp; omega
  have h5 : decide (0x80 ≤ a % 0x1000) = false := by simp; omega
  simp only [latches, if_neg h1, if_neg h2, if_neg h3, h4, h5, Bool.and_false, Bool.false_and, Bool.false_eq_true,
    if_false]

/-- No header register is the data of a memory window. -/
theorem Chip.windowRead_header (c : Chip) : c.windowRead a = c := by
  have h1 : (within (a / 0x1000) 0x42 0x45 && a == Reg.INGEST_CRAM_DATA (a / 0x1000 - 0x42)) = false := by
    simp only [Bool.and_eq_false_iff, beq_eq_false_iff_ne, Reg.INGEST_CRAM_DATA]
    omega
  have h2 : a ≠ Reg.LOOM_LUT_DATA := by rintro rfl; exact absurd h (by decide)
  have h3 : a ≠ Reg.SCAN_MAP_DATA := by rintro rfl; exact absurd h (by decide)
  have h4 : a ≠ Reg.CORR_MEM_DATA := by rintro rfl; exact absurd h (by decide)
  have h5 : a ≠ Reg.GATE_POL_DATA := by rintro rfl; exact absurd h (by decide)
  simp only [Chip.windowRead, h1, if_neg h2, if_neg h3, if_neg h4, if_neg h5, Bool.false_eq_true, if_false]

/-- A read of a header register moves nothing; what was held for it is held no longer. -/
theorem Chip.readMoves_header (c : Chip) : c.readMoves a = c.unheld a := by
  have hm : a ≠ Reg.GRAN_MGR_STAT := by rintro rfl; exact absurd h (by decide)
  simp [Chip.readMoves, Chip.latched, latches_header h, Chip.windowRead_header h, hm]

end Header

/-- Clearing on a read of PG_STATUS: WR_REJ and REJ_WORD (R31). -/
theorem Chip.countRead_status (c : Chip) (p : Nat) :
    c.countRead (Reg.PG_STATUS p) = (c.put (.PG_STATUS_WR_REJ p) 0).put (.PG_STATUS_REJ_WORD p) 0 := by
  have ho : Reg.PG_STATUS p % 0x1000 = 0x10 := by simp only [Reg.PG_STATUS]; omega
  have hpg : Reg.PG_STATUS p / 0x1000 = p := by simp only [Reg.PG_STATUS]; omega
  simp [Chip.countRead, rowOf_header (a := Reg.PG_STATUS p) (by omega), ho, hpg]

/-- With nothing held for a register, there is nothing to let go. -/
theorem Chip.unheld_of_none {c : Chip} {b : Nat} (h : assoc c.fab.held64 b = none) : c.unheld b = c := by
  have hf : c.fab.held64.filter (fun e => e.1 != b) = c.fab.held64 := by
    refine List.filter_eq_self.2 fun e he => ?_
    simpa [assoc] using List.find?_eq_none.1 (Option.map_eq_none_iff.1 h) e he
  simp [Chip.unheld, Chip.onFab, hf]

/-- A performed read of PG_STATUS: nothing is held for it any more, and but for the debug port WR_REJ and REJ_WORD are clear. -/
theorem Chip.readEffect_status (c : Chip) (rq : Requester) (p : Nat) :
    c.readEffect rq (Reg.PG_STATUS p) =
      let d := c.unheld (Reg.PG_STATUS p)
      if rq = .debug then d else (d.put (.PG_STATUS_WR_REJ p) 0).put (.PG_STATUS_REJ_WORD p) 0 := by
  rw [Chip.readEffect_eq, Chip.countRead_status, Chip.readMoves_header (by simp only [Reg.PG_STATUS]; omega)]

/-! ### Frames -/

/-- Between parts of one frame the values held for reads are the same. -/
theorem restSame_held64 {c d : Chip} (h : Safety.restSame c d) : d.fab.held64 = c.fab.held64 :=
  congrArg (fun d => d.fab.held64) h

/-- An effect on registers and on what is sent keeps the frame of a command. -/
theorem restSame_settle {c d : Chip} (r : List (Nat × Word)) (o : List Out) (h : d = { c with regs := r, out := o }) :
    Safety.restSame c d.settle := by
  obtain ⟨fab, out, mgmt, hs, hf, hm⟩ := d.settle_sameButSent
  subst h
  rw [Safety.restSame, hs, ← hf, ← hm]

/-- PG_STATUS_READ of a page that answers is one performed read, in a soft reset too (R31, R34). -/
theorem exec_pgStatusRead_reached {s : State} {rq : Requester} {p : Nat} (hp : p < 4096)
    (h : s.chip.fabricCause rq (Reg.PG_STATUS p) false = 0) :
    exec (.pgStatusRead rq p) s = .next (s.effect fun c =>
      (c.readEffect rq (Reg.PG_STATUS p)).emit (.read (Reg.PG_STATUS p) (c.regWord (Reg.PG_STATUS p)))) := by
  have ho : Reg.PG_STATUS p % 0x1000 = 0x10 := by simp only [Reg.PG_STATUS]; omega
  rw [exec_pgStatusRead]
  exact State.run_next (by simpa [Instr.wf] using hp) (s.chip.readOut_reached rq h (.inr (by rw [ho]; rfl)))

end Sys2Proof.Machine
end

section
/-!
PROOF. What a register access does (R5 to R8, R30 to R32, R36, R41, R43, R58, R80): the obligations O8, O10, O11 and O19.
-/

open Sys2Proof Sys2Proof.Machine Sys2Proof.Safety

namespace Sys2Proof.Proofs

/-- Settles O8: every access of less than a word or at an unaligned address ends as UNALIGNED, and a request of several
doublewords is folded one access at a time. -/
theorem accessesAreWholeAndAligned : Obligations.AccessesAreWholeAndAligned := by
  unfold Obligations.AccessesAreWholeAndAligned
  intro s rq a v ha refused
  have part : ∀ {whole : Bool}, whole = false ∨ a % 4 ≠ 0 → s.chip.readWhole rq a whole = refused s.chip :=
    fun h => s.chip.readWhole_unaligned rq h
  have discard : ∀ {whole : Bool}, whole = false ∨ a % 4 ≠ 0 ∧ judged a = false →
      exec (.registerWrite rq a [(v, whole)]) s = .next (s.effect fun c => c.fabErr rq a true 3) := fun h =>
    (exec_registerWrite ..).trans (State.run_next (accessFits_one rq ha) (s.chip.writeWhole_unaligned rq v h))
  refine ⟨discard (.inl rfl), exec_counterReadClear_one ha (part (.inl rfl)), exec_counterLowRead_one ha (part (.inl rfl)),
    fun hu => ⟨fun hj => discard (.inr ⟨hu, hj⟩), exec_counterReadClear_one ha (part (.inr hu)),
      exec_counterLowRead_one ha (part (.inr hu))⟩,
    fun k b h2 h30 => s.chip.rd_fabErr_page rq a true k h2 h30, fun ht hj => exec_registerWrite_takes v ha ht hj, ?_, ?_⟩
  · intro ws hne hfit
    rw [exec_registerWrite]
    exact State.run_next (accessFits_pcie (by simpa using hne) hfit) (s.chip.writeRun_eq_foldl .pcie a 0 ws)
  · intro be hne hfit
    rw [exec_counterReadClear]
    exact State.run_next (accessFits_pcie (by simpa using hne) hfit) (s.chip.readRun_eq_foldl .pcie a 0 be)

/-- Settles O10: a register with one of these access codes is not judged, so its write is performed at its page, where the row's
access code decides. -/
theorem writesFollowAccessCodes : Obligations.WritesFollowAccessCodes := by
  unfold Obligations.WritesFollowAccessCodes
  intro s rq a v r ha h4 ht hr hz
  have performed : ∀ {g : Chip → Chip}, r.acc ≠ .wo → s.chip.pageWrite rq a v noVerdict = g s.chip →
      exec (.registerWrite rq a [(v, true)]) s = .next (s.effect g) := fun hacc h => by
    have hj : judged a = false := Bool.eq_false_iff.2 fun hj => hacc (acc_of_judged hj hr)
    rw [exec_registerWrite_takes v ha ht hj, State.effect_congr h]
  refine ⟨fun hacc => performed (by simp [hacc]) (Chip.pageWrite_ro h4 hz hr hacc),
    fun hacc => performed (by simp [hacc]) (Chip.pageWrite_w1c h4 hz hr hacc),
    fun hacc hen => performed (by simp [hacc]) (Chip.pageWrite_rwl_enabled h4 hz hr hacc hen),
    fun hacc hp => performed (by simp [hacc]) ?_, fun hacc hp hm hb h75 htg hms => performed (by simp [hacc]) ?_⟩
  · exact (Chip.pageWrite_rws h4 hz hr hacc).trans (Chip.shadowWrite_pending hp)
  · exact (Chip.pageWrite_rws h4 hz hr hacc).trans (Chip.shadowWrite_stores hp hm hb h75 htg hms)

/-- What `RejectedWriteIsTold` says of a read of PG_STATUS holds in every state that holds no value for the register. -/
theorem pgStatusRead_tells {s : State} {rq : Requester} {p : Nat} (hp : p < 4096)
    (h : s.chip.fabricCause rq (Reg.PG_STATUS p) false = 0) (hc : s.chip.fab.commits = [])
    (hu : assoc s.chip.fab.held64 (Reg.PG_STATUS p) = none) :
    ∃ t, exec (.pgStatusRead rq p) s = .next t ∧ t.pending = s.pending ∧
      onlyRegs s.chip t.chip [Reg.PG_STATUS p] ∧
      t.chip.rd (Reg.PG_STATUS p) =
        if rq = .debug then s.chip.rd (Reg.PG_STATUS p)
        else withBits (withBits (s.chip.rd (Reg.PG_STATUS p)) 0 0 0) 25 16 0 := by
  refine ⟨_, exec_pgStatusRead_reached hp h, rfl, ?_⟩
  simp only [State.effect, Chip.after_read _ _ _ hc]
  simp only [Chip.readEffect_status, Chip.unheld_of_none hu, onlyRegs, Chip.settle_rd]
  by_cases hq : rq = .debug
  · simp only [if_pos hq]
    exact ⟨⟨fun b _ => rfl, restSame_settle s.chip.regs _ rfl⟩, rfl⟩
  · simp only [if_neg hq]
    refine ⟨⟨fun b hb => ?_, restSame_settle _ _ rfl⟩, ?_⟩
    · have hne : b ≠ Reg.PG_STATUS p := by simpa using hb
      rw [Chip.rd_emit, Chip.rd_put_ne _ _ _ hne, Chip.rd_put_ne _ _ _ hne]
    · simp [Chip.rd_put]

/-- A read of PG_STATUS lets go of a value held for it: the frame of the statement leaves room for none. -/
theorem unheld_of_pgStatusRead_frame {s t : State} {rq : Requester} {p : Nat} (hp : p < 4096)
    (h : s.chip.fabricCause rq (Reg.PG_STATUS p) false = 0) (hc : s.chip.fab.commits = [])
    (run : exec (.pgStatusRead rq p) s = .next t) (frame : restSame s.chip t.chip) :
    assoc s.chip.fab.held64 (Reg.PG_STATUS p) = none := by
  rw [exec_pgStatusRead_reached hp h] at run
  obtain rfl := Host.Outcome.next.inj run
  obtain ⟨-, held, -⟩ := s.chip.settled_read rq (Reg.PG_STATUS p) hc
  have kept : (s.chip.latched (Reg.PG_STATUS p)).fab.held64 = s.chip.fab.held64 :=
    held.symm.trans (restSame_held64 frame)
  rw [← kept, Chip.latched, latches_header (by simp only [Reg.PG_STATUS]; omega)]
  exact (assoc_filter_ne ..).trans (if_pos rfl)

/-- A tile with domain D7 on, so that page 0 answers, and a value held for a read of its PG_STATUS. No read holds a value for a
header register (`latches_above_header`): the state is not one a run from reset comes to, but the statement speaks of every state. -/
def heldStatus : State :=
  { State.reset with chip := (State.reset.chip.onPwr fun p => { p with dom := 2 ^ 7 }).onFab fun f =>
      { f with held64 := [(Reg.PG_STATUS 0, 0)] } }

/-- Refutes O11: a read of PG_STATUS lets go of a value held for it, which the statement's frame does not allow. In the state
`heldStatus` there is one. What the statement says of the rejection itself holds (`Chip.flag_reject`, `Chip.rejWord_reject`,
`Chip.rd_reject_ne`), and so does the rest of what it says of the read (`pgStatusRead_tells`). -/
theorem not_rejectedWriteIsTold : ¬ Obligations.RejectedWriteIsTold := by
  unfold Obligations.RejectedWriteIsTold
  rintro ⟨-, told⟩
  have reached : heldStatus.chip.fabricCause (.core 0) (Reg.PG_STATUS 0) false = 0 := by decide
  have idle : heldStatus.chip.fab.commits = [] := rfl
  have held : assoc heldStatus.chip.fab.held64 (Reg.PG_STATUS 0) = some 0 := rfl
  obtain ⟨t, run, -, ⟨-, frame⟩, -⟩ := told heldStatus (.core 0) 0 (by decide) reached idle
  have none := unheld_of_pgStatusRead_frame (by decide) reached idle run frame
  exact Option.some_ne_none 0 (held.symm.trans none)

/-- Settles O19: each command is one read that reaches its register, and what the read changes is the latching, the window's move
and the clearing of a count, of which no one undoes another. -/
theorem readsAndWhatTheyChange : Obligations.ReadsAndWhatTheyChange := by
  unfold Obligations.ReadsAndWhatTheyChange
  intro s rq a ha h0 hs answered
  have read : s.chip.readOut rq a = answered s.chip := s.chip.readOut_reached rq h0 (.inl hs)
  have clear : exec (.counterReadClear rq a [true]) s = .next (s.effect answered) := exec_counterReadClear_one ha read
  have low : exec (.counterLowRead rq a [true]) s = .next (s.effect answered) := exec_counterLowRead_one ha read
  have time : a = Reg.BELL_TIME_SUBNS → exec (.timeLatchRead rq) s = .next (s.effect answered) := fun e =>
    (exec_timeLatchRead ..).trans (State.run_next rfl (e ▸ read))
  have capture : a = Reg.BELL_SYNC_CAP_NS → exec (.syncCapRead rq) s = .next (s.effect answered) := fun e =>
    (exec_syncCapRead ..).trans (State.run_next rfl (e ▸ read))
  refine ⟨clear, low, ?_, time, capture, ?_, ?_, ?_, ?_⟩
  · rw [exec_readTimeout]
    refine State.run_next (by simpa [Instr.wf] using ha) ?_
    simp only [Chip.readTimeout, h0, if_true]
  · intro r hr hk hc
    obtain ⟨regs, -, told⟩ := s.chip.settled_read rq a hc
    refine ⟨fun hq => ⟨_, clear, rfl, ?_, told⟩, fun hq => ⟨_, clear, rfl, ?_, told⟩⟩
    · exact (regs a).trans (s.chip.rd_readEffect_count hq hr hk)
    · subst hq
      exact (regs a).trans (s.chip.rd_readEffect_debug a)
  · intro b hb _ hc before
    obtain ⟨-, held, -⟩ := s.chip.settled_read rq a hc
    refine ⟨_, low, rfl, ?_⟩
    rw [State.effect, held, s.chip.latched_one hb, Chip.assoc_hold64, if_pos rfl]
    rfl
  · rintro rfl hc
    obtain ⟨-, held, -⟩ := s.chip.settled_read rq Reg.BELL_TIME_SUBNS hc
    rw [Chip.latched_time] at held
    refine ⟨_, time rfl, ?_⟩
    simp [State.effect, answered, held, Chip.assoc_hold64, Chip.regWord_timeNs]
  · rintro rfl hc
    obtain ⟨-, held, -⟩ := s.chip.settled_read rq Reg.BELL_SYNC_CAP_NS hc
    rw [Chip.latched_capture] at held
    refine ⟨_, capture rfl, ?_⟩
    simp [State.effect, answered, held, Chip.assoc_hold64]

end Sys2Proof.Proofs
end

section
/-!
SUPPORT. Bits of combined words, the frames of an event and of passing time.
-/

namespace Sys2Proof.Machine

theorem bitsOf_and (v w : Word) (hi lo : Nat) : bitsOf (v &&& w) hi lo = bitsOf v hi lo &&& bitsOf w hi lo := by
  refine Nat.eq_of_testBit_eq fun i => ?_
  simp only [Nat.testBit_and, testBit_bitsOf, BitVec.getLsbD_and]
  cases decide (i < hi + 1 - lo) <;> simp

theorem bitsOf_or (v w : Word) (hi lo : Nat) : bitsOf (v ||| w) hi lo = bitsOf v hi lo ||| bitsOf w hi lo := by
  refine Nat.eq_of_testBit_eq fun i => ?_
  simp only [Nat.testBit_or, testBit_bitsOf, BitVec.getLsbD_or]
  cases decide (i < hi + 1 - lo) <;> simp

/-- A bit that a mask leaves in is the word's own. -/
theorem bitsOf_and_bit (v m : Word) (i : Nat) (h : bitsOf m i i = 1) : bitsOf (v &&& m) i i = bitsOf v i i := by
  have hv : bitsOf v i i < 2 := by simpa using bitsOf_lt v i i
  rw [bitsOf_and, h, Nat.and_one_is_mod, Nat.mod_eq_of_lt hv]

/-- A one-bit field that is not set reads 0. -/
theorem Chip.get_of_flag_false {c : Chip} {r i : Nat} (h : c.flag ⟨r, i, i⟩ = false) : bitsOf (c.rd r) i i = 0 := by
  have hv : bitsOf (c.rd r) i i < 2 := by simpa using bitsOf_lt (c.rd r) i i
  have h1 : bitsOf (c.rd r) i i ≠ 1 := by simpa [Chip.flag, Chip.get] using h
  omega

/-! ### Frames -/

theorem Chip.rd_setPair_ne (c : Chip) {lo hi b : Nat} (n : Nat) (h : b ≠ lo) (h' : b ≠ hi) :
    (c.setPair lo hi n).rd b = c.rd b := by simp [Chip.setPair, Chip.rd_setNat, h, h']

@[simp] theorem Chip.rd_setLane (c : Chip) (q k : Nat) (l : Lane) (b : Nat) : (c.setLane q k l).rd b = c.rd b := rfl

/-- An occurrence of an event changes nothing above the header but in the return page. -/
theorem Chip.rd_raise_above_header (c : Chip) (e : Ev) {b : Nat} (h4 : 0x40 ≤ b % 0x1000) (h30 : b / 0x1000 ≠ 0x30) :
    (c.raise e).rd b = c.rd b := by
  rw [Chip.raise, Chip.rd_forwardEvent_page _ _ h30]
  simp only [Chip.setEvent, Chip.countF]
  rw [Chip.rd_put_ne _ _ _ (by simp only [Reg.PG_EVENT_CNT]; omega), Chip.rd_wr_ne _ _ (by simp only [Reg.PG_EVENT]; omega)]

/-- An event is forwarded in the tile's queue and the return page: the fuses stay. -/
theorem Chip.forwardEvent_fuses (c : Chip) (e : Ev) : (c.forwardEvent e).fuses = c.fuses := by
  simp only [Chip.forwardEvent]
  repeat' split
  all_goals rfl

theorem Chip.raise_fuses (c : Chip) (e : Ev) : (c.raise e).fuses = c.fuses := Chip.forwardEvent_fuses _ e

/-- Passing time moves the part's age and its domain time alone. -/
theorem Chip.elapseAge_eq (c : Chip) (t : Nat) : ∃ age bell, c.elapseAge t = { c with age := age, bell := bell } := by
  simp only [Chip.elapseAge]
  split
  · exact ⟨_, _, rfl⟩
  · exact ⟨_, _, rfl⟩

@[simp] theorem Chip.elapseAge_regs (c : Chip) (t : Nat) : (c.elapseAge t).regs = c.regs := by
  obtain ⟨_, _, h⟩ := c.elapseAge_eq t
  rw [h]

@[simp] theorem Chip.elapseAge_quads (c : Chip) (t : Nat) : (c.elapseAge t).quads = c.quads := by
  obtain ⟨_, _, h⟩ := c.elapseAge_eq t
  rw [h]

@[simp] theorem Chip.elapseAge_tile (c : Chip) (t : Nat) : (c.elapseAge t).tile = c.tile := by
  obtain ⟨_, _, h⟩ := c.elapseAge_eq t
  rw [h]

@[simp] theorem Chip.elapseAge_pwr (c : Chip) (t : Nat) : (c.elapseAge t).pwr = c.pwr := by
  obtain ⟨_, _, h⟩ := c.elapseAge_eq t
  rw [h]

/-- Time that passes up to an age has reached it. -/
theorem Chip.le_age_elapseAge (c : Chip) (t : Nat) : t ≤ (c.elapseAge t).age := by
  simp only [Chip.elapseAge]
  split
  next h =>
    show t ≤ c.age + (t - c.age)
    omega
  next h => exact Nat.not_lt.1 h

end Sys2Proof.Machine
end

section
/-!
SUPPORT. How a part starts (R25, R26, R349, R378, R399): the release from reset, the boot ROM's first steps, a sender's slots, factory
operation, a tile's locator.
-/

namespace Sys2Proof.Machine

/-! ### The commands as effects -/

theorem exec_internalResetRelease (b : BootIn) (s : State) :
    exec (.internalResetRelease b) s = s.run (.internalResetRelease b) fun c => (c.elapse (us 100)).release b := rfl

theorem exec_roleStrapResample (b : BootIn) (s : State) :
    exec (.roleStrapResample b) s = s.run (.roleStrapResample b) fun c => (c.elapse (ms 1)).release b := rfl

theorem exec_senderFirmwareStart (okA okB formatOk : Bool) (f : Flash) (s : State) :
    exec (.senderFirmwareStart okA okB formatOk f) s = s.run (.senderFirmwareStart okA okB formatOk f) fun c =>
      c.senderBoot okA okB formatOk f := rfl

theorem exec_factoryDefaultStart (sdp : Option Sdp) (s : State) :
    exec (.factoryDefaultStart sdp) s = s.run (.factoryDefaultStart sdp) fun c => c.factoryStart sdp := rfl

theorem exec_locatorTimeout (s : State) :
    exec .locatorTimeout s = s.run .locatorTimeout fun c => (c.elapseAge (c.bell.noBeaconSince + ms 2000)).locatorOn := rfl

/-! ### Release from reset -/

/-- With a role of 1x the part stays in reset (R399). -/
theorem Chip.release_held {c : Chip} {b : BootIn} (hb : 2 ≤ b.role) : c.release b = c :=
  if_pos (by simp [hb])

/-- Released with a role of 0x before it has started, the part samples its straps and runs the boot ROM, unless its Quarantine latch
stands; a tile finds its descriptor (R399, R413). -/
theorem Chip.release_starts {c : Chip} {b : BootIn} (hb : b.role < 2)
    (h : c.pwr.state = .off ∨ (c.pwr.state = .waking ∧ c.pwr.dom = 1 ∧ c.pwr.step = none ∧ c.pwr.booted = false)) :
    c.release b =
      let x := (((c.put .SYS_ROLE_ROLE b.role).put .SYS_ROLE_GEO_SEL b.geo).onPwr fun p => { p with state := .waking }).showFuses
      let d := x.onBell fun y => { y with noBeaconSince := x.age }
      let blocked := { emptySlot with state := 3 }
      let e := if d.flag .GATE_QUAR_ACTIVE = true then
          ((d.setSlot 0 blocked).setSlot 1 blocked).onPwr fun p => { p with state := .quarantine }
        else d.bootSteps b
      (if b.role = 0 then e.ownDesc b.card else e).seqNext := by
  refine if_neg ?_
  rcases h with h | ⟨hw, hd, hs, hn⟩
  · simp [h, hb]
  · simp [hw, hd, hs, hn, hb]

/-! ### The boot ROM -/

/-- Step 1 of R349: what disagrees among the fuses is kept, shown and told. -/
def Chip.fusesChecked (c : Chip) (n : Nat) : Chip :=
  ({ c with fuses := { c.fuses with disagree := n } }.put .GATE_FUSE_DIS_COUNT (min n 65535)).when (n != 0) fun c =>
    c.raise .GATE_FUSE_DISAGREE

/-- A part in the field has its glitch detectors on. -/
def Chip.glitchesOn (c : Chip) : Chip :=
  if c.fuses.lifecycle = 1 then c.setNat Reg.GATE_TAMPER_EN (c.nat Reg.GATE_TAMPER_EN ||| 0x1c) else c

theorem Chip.fusesChecked_tamperStat (c : Chip) (n : Nat) :
    (c.fusesChecked n).rd Reg.GATE_TAMPER_STAT = c.rd Reg.GATE_TAMPER_STAT := by
  rw [Chip.fusesChecked]
  cases n != 0
  · exact Chip.rd_put_ne _ _ _ (by decide)
  · exact (Chip.rd_raise_above_header _ _ (by decide) (by decide)).trans (Chip.rd_put_ne _ _ _ (by decide))

theorem Chip.fusesChecked_tamperCnt (c : Chip) (n : Nat) : (c.fusesChecked n).fuses.tamperCnt = c.fuses.tamperCnt := by
  rw [Chip.fusesChecked]
  cases n != 0
  · rfl
  · exact (congrArg Fuses.tamperCnt (Chip.raise_fuses ..)).trans rfl

theorem Chip.glitchesOn_tamperStat (c : Chip) : c.glitchesOn.rd Reg.GATE_TAMPER_STAT = c.rd Reg.GATE_TAMPER_STAT := by
  rw [Chip.glitchesOn]
  split
  · exact Chip.rd_wr_ne _ _ (by decide)
  · rfl

theorem Chip.glitchesOn_fuses (c : Chip) : c.glitchesOn.fuses = c.fuses := by
  rw [Chip.glitchesOn]
  split <;> rfl

/-- The tamper sources active at step 2 that are enabled and not yet latched (R366). -/
def Chip.freshTamper (c : Chip) (active : Nat) : List Nat :=
  (List.range 5).filter fun k =>
    bitAt (active % 32 &&& c.nat Reg.GATE_TAMPER_EN) k && !bitAt (c.get .GATE_TAMPER_STAT_LATCHED) k

theorem Chip.freshTamper_zero (c : Chip) : c.freshTamper 0 = [] := by simp [Chip.freshTamper, bitAt]

/-- The boot ROM's first steps stop at a fuse field, a tamper latch, the tamper counter or the ROM test, in this order, and else
come to step 4 (R349). -/
theorem Chip.bootSteps_stops (c : Chip) (b : BootIn) : ∃ fuse latch counter rom passed : Chip,
    let d := (c.fusesChecked b.disagree).glitchesOn
    let e := d.each (d.freshTamper b.tamper) Chip.tamperLatch
    c.bootSteps b =
      if (!b.fuseOk) = true then fuse
      else if (e.get .GATE_TAMPER_STAT_LATCHED != 0) = true then latch
      else if 31 ≤ e.fuses.tamperCnt then counter
      else if (!b.romOk) = true then rom
      else (passed.put .GATE_BOOT_STAGE 4).put .GATE_BOOT_RESULT 0 := ⟨_, _, _, _, _, rfl⟩

/-- With its fuses right, no tamper source active or latched, the counter below 31 and its ROM right, the boot ROM comes to step 4
with result OK (R349). -/
theorem Chip.bootSteps_passes {c : Chip} {b : BootIn} (hf : b.fuseOk = true) (ht : b.tamper = 0) (hr : b.romOk = true)
    (hl : c.get .GATE_TAMPER_STAT_LATCHED = 0) (hc : c.fuses.tamperCnt < 31) :
    ∃ d : Chip, c.bootSteps b = (d.put .GATE_BOOT_STAGE 4).put .GATE_BOOT_RESULT 0 := by
  obtain ⟨_, _, _, _, d, h⟩ := c.bootSteps_stops b
  refine ⟨d, h.trans ?_⟩
  have hlatched : (c.fusesChecked b.disagree).glitchesOn.get .GATE_TAMPER_STAT_LATCHED = 0 := by
    rw [← hl]
    simp only [Chip.get, Chip.glitchesOn_tamperStat, Chip.fusesChecked_tamperStat]
  have hcnt : (c.fusesChecked b.disagree).glitchesOn.fuses.tamperCnt < 31 := by
    rw [Chip.glitchesOn_fuses, Chip.fusesChecked_tamperCnt]
    exact hc
  simp [hf, hr, ht, Chip.freshTamper_zero, hlatched, hcnt.not_ge]

/-- What the boot ROM shows once it has come to step 4. -/
theorem Chip.boot_shown (d : Chip) :
    ((d.put .GATE_BOOT_STAGE 4).put .GATE_BOOT_RESULT 0).get .GATE_BOOT_STAGE = 4 ∧
      ((d.put .GATE_BOOT_STAGE 4).put .GATE_BOOT_RESULT 0).get .GATE_BOOT_RESULT = 0 := by
  refine ⟨?_, Chip.get_put_same _ _ _ (by decide)⟩
  rw [Chip.get_put_other _ _ _ _ (.inr (.inl (by decide)))]
  exact Chip.get_put_same _ _ _ (by decide)

/-! ### A sender's slots -/

section Slots

variable {c : Chip} {okA okB : Bool}

/-- Slot A comes first (R378). -/
theorem Chip.chooseSlot_first (ha : (c.img 0).bootable = true) (hv : c.senderVerdict (c.img 0).bytes okA = 0) :
    (c.chooseSlot okA okB).2 = .ok 0 := by simp [Chip.chooseSlot, ha, hv]

/-- Slot B follows where slot A is not bootable. -/
theorem Chip.chooseSlot_second (ha : (c.img 0).bootable = false) (hb : (c.img 1).bootable = true)
    (hv : c.senderVerdict (c.img 1).bytes okB = 0) : (c.chooseSlot okA okB).2 = .ok 1 := by
  simp [Chip.chooseSlot, ha, hb, hv]

/-- With no bootable slot the result is NO_IMAGE (log entry 193). -/
theorem Chip.chooseSlot_none (ha : (c.img 0).bootable = false) (hb : (c.img 1).bootable = false) :
    (c.chooseSlot okA okB).2 = .error 2 := by simp [Chip.chooseSlot, ha, hb]

end Slots

section SenderBoot

variable {c : Chip} {okA okB formatOk : Bool} {f : Flash} (hs : c.isSender = true) (hr : c.romDone = true)

include hs hr

/-- From the slot chosen the sender measures its image, takes its configuration and runs (R349 steps 5 to 7). -/
theorem Chip.senderBoot_starts {k : Nat} (hk : ((c.readFlash f).chooseSlot okA okB).2 = .ok k) :
    c.senderBoot okA okB formatOk f =
      let x := ((c.readFlash f).chooseSlot okA okB).1
      let y := ((((x.extend 1 ((c.readFlash f).img k).bytes).put .GATE_BOOT_SLOT k).onUpd fun u =>
        { u with runB := k == 1 }).takeConfig formatOk).updShow.pageEnable 0x75
      if y.pwr.deepWake && y.bootDone.flag (.PG_CTRL_ENABLE 0x74) then y.bootDone.put (.PG_STATUS_ENABLED 0x74) 1
      else y.bootDone := by
  refine (if_neg (by simp [hs, hr])).trans ?_
  simp only [hk]

/-- Without a slot to start from the start ends in Quarantine (R378). -/
theorem Chip.senderBoot_quarantines {v : Nat} (hv : ((c.readFlash f).chooseSlot okA okB).2 = .error v) :
    c.senderBoot okA okB formatOk f = ((c.readFlash f).chooseSlot okA okB).1.bootQuarantine 5 v 4 := by
  refine (if_neg (by simp [hs, hr])).trans ?_
  simp only [hv]

end SenderBoot

/-! ### Factory operation and the locator -/

/-- A booted sender without stored configuration begins factory operation (R25). -/
theorem Chip.factoryStart_begins {c : Chip} (hs : c.isSender = true) (hf : c.store.factory = true)
    (hb : c.pwr.booted = true) (hr : c.flag .SYS_ROLE_FACTORY = false) : c.factoryStart none = c.factoryBegin := by
  simp [Chip.factoryStart, hs, hf, hb, hr]

/-- In factory operation an announced stream is joined (R25). -/
theorem Chip.factoryStart_joins {c : Chip} (hs : c.isSender = true) (hf : c.store.factory = true)
    (hb : c.pwr.booted = true) (hr : c.flag .SYS_ROLE_FACTORY = true) (x : Sdp) : c.factoryStart (some x) = c.factoryJoin x := by
  simp [Chip.factoryStart, hs, hf, hb, hr]

/-- A tile that runs without its locator shows it (R26). -/
theorem Chip.locatorOn_shows {c : Chip} (ht : c.isTile = true) (hl : c.tile.locator = false)
    (hp : c.pwr.state = .run ∨ c.pwr.state = .waking) :
    c.locatorOn =
      let d := (c.onTile fun t => { t with locator := true }).setLamp 3
      (d.gridStart d.bell.time).raise .SYS_LOCATOR := by
  refine if_neg ?_
  rcases hp with hp | hp <;> simp [ht, hl, hp]

end Sys2Proof.Machine
end

section
/-!
SUPPORT. The coordinated mode switch (R22 to R24): the write of SYS_MODE_CTRL, what a decision does once it is due, and who takes the
mode at its tick.
-/

namespace Sys2Proof.Machine

/-! ### The commands as effects -/

theorem exec_modeSwitchArm (rq : Requester) (s : State) :
    exec (.modeSwitchArm rq) s = s.run (.modeSwitchArm rq) fun c => c.regWrite rq Reg.SYS_MODE_CTRL 1 noVerdict := rfl

theorem exec_modeSwitchCancel (rq : Requester) (arm : Bool) (s : State) :
    exec (.modeSwitchCancel rq arm) s = s.run (.modeSwitchCancel rq arm) fun c =>
      c.regWrite rq Reg.SYS_MODE_CTRL (if arm then 3 else 2) noVerdict := rfl

theorem exec_modeAck (s : State) : exec .modeAck s = s.run .modeAck Chip.modeAckHead := rfl

theorem exec_modeDecision (s : State) : exec .modeDecision s = s.run .modeDecision Chip.modeDecide := rfl

theorem exec_modeSwitch (s : State) : exec .modeSwitch s = s.run .modeSwitch Chip.modeAtTick := rfl

/-! ### SYS_MODE_CTRL -/

section ModeCtrl

variable {c : Chip} {rq : Requester} (hs : c.isSender = true) (ht : Safety.takes c rq Reg.SYS_MODE_CTRL = true)

include hs ht

/-- A write of SYS_MODE_CTRL at a sender arms or cancels (R23). -/
theorem Chip.regWrite_modeCtrl (v : Word) (x : Verdict) :
    c.regWrite rq Reg.SYS_MODE_CTRL v x = c.modeCtrl v.toNat := by
  obtain ⟨r, hr, hacc⟩ : ∃ r, rowOf Reg.SYS_MODE_CTRL = some r ∧ r.acc = .wo := Option.map_eq_some_iff.1 (by decide)
  have hz : c.roleZero Reg.SYS_MODE_CTRL = false := c.roleZero_other _ (by decide)
  have hc : classOf (Reg.SYS_MODE_CTRL / 0x1000) = some (.sys, 0) := by decide
  rw [c.regWrite_wo rq _ v x r ht hr (by decide) hz hacc hc]
  simp [Chip.blockHook, Chip.sysHook, c.isTile_of_isSender hs]

/-- ARM alone arms. -/
theorem Chip.regWrite_modeArm (x : Verdict) : c.regWrite rq Reg.SYS_MODE_CTRL 1 x = c.modeArm := by
  rw [Chip.regWrite_modeCtrl hs ht, Chip.modeCtrl, hs]
  rfl

/-- CANCEL cancels, with ARM in the same write too (R24). -/
theorem Chip.regWrite_modeCancel (arm : Bool) (x : Verdict) :
    c.regWrite rq Reg.SYS_MODE_CTRL (if arm then 3 else 2) x = c.modeCancel := by
  rw [Chip.regWrite_modeCtrl hs ht, Chip.modeCtrl, hs]
  cases arm <;> rfl

end ModeCtrl

/-! ### Acknowledgement, decision and tick -/

/-- A MODE_ACK record at the head of the burst queue is taken and counts (R23). -/
theorem Chip.modeAckHead_of_pop {c d : Chip} {port wdn idx mode : Nat}
    (h : c.popRecord isModeAck = some (d, port, wdn, .modeAck idx mode)) : c.modeAckHead = d.modeAck port wdn idx mode := by
  simp [Chip.modeAckHead, h]

/-- A decision that is due and not yet made: a READY switch with two ticks left goes on, any other is given up (R23). -/
theorem Chip.modeDecide_due {c : Chip} {x : Switch} (hx : c.switch = some x) (hp : c.switchPending = true)
    (hs : c.isSender = true) (hb : c.standby = false) (hn : x.n ≤ c.lastIndex + 4) (h3 : c.get .SYS_MODE_STAT_STATE ≠ 3) :
    c.modeDecide =
      if c.get .SYS_MODE_STAT_STATE = 2 ∧ c.lastIndex + 2 ≤ x.n then (c.switchState 3 0).modeGo x c.lastIndex
      else c.modeAbort 7 := by
  simp [Chip.modeDecide, hx, hp, hs, hb, h3, hn.not_gt]

/-- What falls due at the last executed tick is taken, and the tick's work follows where nothing else waits for it (R23). -/
theorem Chip.modeAtTick_due {c d : Chip} (hd : c.modeDue = true) (h : c.modeSwitch = d) :
    c.modeAtTick = if d.tickDue then d else d.tickClose := by
  subst h
  exact if_pos hd

/-- A sender's switch that is due has reached its tick. -/
theorem Chip.le_lastIndex_of_modeDue {c : Chip} {x : Switch} (hs : c.isSender = true) (hx : c.switch = some x)
    (hd : c.modeDue = true) : x.n ≤ c.lastIndex := by
  cases ht : c.bell.tick <;> simp_all [Chip.modeDue, Chip.lastIndex]

/-- A sender that has decided takes the mode once the tick is executed. -/
theorem Chip.modeSwitch_decided {c : Chip} {x : Switch} (hs : c.isSender = true) (hx : c.switch = some x)
    (h3 : c.get .SYS_MODE_STAT_STATE = 3) (hn : x.n ≤ c.lastIndex) :
    c.modeSwitch = ((c.switchState 4 0).setMode x.mode).raise .SYS_MODE_DONE := by
  simp [Chip.modeSwitch, hs, hx, h3, hn]

/-- An armed tile takes the mode with a go cell at that very tick, and else reports a miss. -/
theorem Chip.modeSwitch_armed {c : Chip} {i : Nat} {a : TileArm} (hs : c.isSender = false) (ht : c.bell.tick = some i)
    (ha : c.tile.arm = some a) (hn : a.n ≤ i) :
    c.modeSwitch =
      let d := c.onTile fun t => { t with arm := none }
      if a.go = true ∧ a.n = i then d.setMode a.mode else d.onTile fun t => { t with modeMiss := true } := by
  have hi : c.lastIndex = i := by simp [Chip.lastIndex, ht]
  simp [Chip.modeSwitch, hs, ha, ht, hi, hn.not_gt]

end Sys2Proof.Machine
end

section
/-!
SUPPORT. Loopbacks and test patterns of a quad (R101 to R103): writes of SERDES_LB and SERDES_Lk_PRBS, the loopback timer, a lane's
checker.
-/

namespace Sys2Proof.Machine

/-! ### The commands as effects -/

theorem exec_loopbackSet (rq : Requester) (q : Nat) (v : Word) (s : State) :
    exec (.loopbackSet rq q v) s = s.run (.loopbackSet rq q v) fun c => c.regWrite rq (Reg.SERDES_LB q) v noVerdict := rfl

theorem exec_loopbackTimeout (q : Nat) (s : State) :
    exec (.loopbackTimeout q) s = s.run (.loopbackTimeout q) fun c => (c.lbElapse q).lbExpire q := rfl

theorem exec_prbsGeneratorSet (rq : Requester) (q k : Nat) (v : Word) (s : State) :
    exec (.prbsGeneratorSet rq q k v) s = s.run (.prbsGeneratorSet rq q k v) fun c =>
      c.regWrite rq (Reg.SERDES_L_PRBS q k) v noVerdict := rfl

theorem exec_prbsCheckerEnable (rq : Requester) (q k : Nat) (s : State) :
    exec (.prbsCheckerEnable rq q k) s = s.run (.prbsCheckerEnable rq q k) fun c =>
      c.regWrite rq (Reg.SERDES_L_PRBS q k) (c.rd (Reg.SERDES_L_PRBS q k) ||| 0x800) noVerdict := rfl

theorem exec_prbsCheckerLock (q k : Nat) (bits : List Bool) (s : State) :
    exec (.prbsCheckerLock q k bits) s = s.run (.prbsCheckerLock q k bits) fun c => c.prbsBitsIn q k bits := rfl

theorem exec_laneMLink (up : Bool) (s : State) :
    exec (.laneMLink up) s = s.run (.laneMLink up) fun c => c.laneM up := rfl

/-! ### The way to a quad's registers -/

theorem classOf_serdes {q : Nat} (hq : q < 12) : classOf (0x10 + q) = some (.serdes, q) :=
  (by decide : ∀ q < 12, classOf (0x10 + q) = some (.serdes, q)) q hq

theorem rowOf_serdesLb {q : Nat} (hq : q < 12) :
    rowOf (Reg.SERDES_LB q) = some ⟨0x04c, 1, 0x0, .rw, 0x00000000, 0xffff00ff, .plain⟩ :=
  (by decide : ∀ q < 12, rowOf (Reg.SERDES_LB q) = some ⟨0x04c, 1, 0x0, .rw, 0x00000000, 0xffff00ff, .plain⟩) q hq

theorem rowOf_serdesPrbs {q k : Nat} (hq : q < 12) (hk : k < 4) :
    rowOf (Reg.SERDES_L_PRBS q k) = some ⟨0x090, 4, 0x40, .rw, 0x00000000, 0x00000f0f, .plain⟩ :=
  (by decide : ∀ q < 12, ∀ k < 4,
    rowOf (Reg.SERDES_L_PRBS q k) = some ⟨0x090, 4, 0x40, .rw, 0x00000000, 0x00000f0f, .plain⟩) q hq k hk

/-- A write of a plain register of a quad that reaches its page is the quad's to judge. -/
theorem Chip.regWrite_serdes {c : Chip} {rq : Requester} {a q : Nat} {r : RegRow} (hq : q < 12)
    (hp : a / 0x1000 = 0x10 + q) (ht : Safety.takes c rq a = true) (hr : rowOf a = some r) (hacc : r.acc = .rw)
    (v : Word) (x : Verdict) : c.regWrite rq a v x = c.serdesHook (c.regStore r a v) a (v &&& r.wmask) := by
  have h4 : ¬ a % 0x1000 < 0x40 := fun h => by simp [rowOf_header h] at hr
  have hz : c.roleZero a = false := c.roleZero_other a (by simp [hp]; omega)
  exact c.regWrite_rw rq a v x r ht hr h4 hz hacc (hp ▸ classOf_serdes hq)

theorem Chip.serdesHook_lb (c st : Chip) (q : Nat) (v : Word) :
    c.serdesHook st (Reg.SERDES_LB q) v = c.lbWrite q v := by
  have hi : pageIdx (Reg.SERDES_LB q) 0x10 = q := by simp only [pageIdx, Reg.SERDES_LB]; omega
  simp [Chip.serdesHook, hi]

theorem Chip.serdesHook_prbs (c st : Chip) {q k : Nat} (hk : k < 4) (v : Word) :
    c.serdesHook st (Reg.SERDES_L_PRBS q k) v = c.prbsWrite q k v := by
  have hi : pageIdx (Reg.SERDES_L_PRBS q k) 0x10 = q := by simp only [pageIdx, Reg.SERDES_L_PRBS]; omega
  have hx : idxIn (Reg.SERDES_L_PRBS q k) (Reg.SERDES_L_PRBS q 0) 4 0x40 = some k := by
    simp only [idxIn, Reg.SERDES_L_PRBS]
    rw [if_neg (by omega)]
    congr 1
    omega
  have h1 : Reg.SERDES_L_PRBS q k ≠ Reg.SERDES_QCFG q := by simp only [Reg.SERDES_L_PRBS, Reg.SERDES_QCFG]; omega
  have h2 : Reg.SERDES_L_PRBS q k ≠ Reg.SERDES_SSC q := by simp only [Reg.SERDES_L_PRBS, Reg.SERDES_SSC]; omega
  have h3 : Reg.SERDES_L_PRBS q k ≠ Reg.SERDES_MON q := by simp only [Reg.SERDES_L_PRBS, Reg.SERDES_MON]; omega
  have h4 : Reg.SERDES_L_PRBS q k ≠ Reg.SERDES_LB q := by simp only [Reg.SERDES_L_PRBS, Reg.SERDES_LB]; omega
  simp only [Chip.serdesHook, hi, hx, h1, h2, h3, h4, if_false, decide_false, Bool.false_and, Bool.false_eq_true]

/-- A write of SERDES_LB that reaches its quad (R102). -/
theorem Chip.regWrite_lb {c : Chip} {rq : Requester} {q : Nat} (hq : q < 12)
    (ht : Safety.takes c rq (Reg.SERDES_LB q) = true) (v : Word) (x : Verdict) :
    c.regWrite rq (Reg.SERDES_LB q) v x = c.lbWrite q (v &&& 0xffff00ff) := by
  rw [Chip.regWrite_serdes hq (by simp only [Reg.SERDES_LB]; omega) ht (rowOf_serdesLb hq) rfl, Chip.serdesHook_lb]

/-- A write of SERDES_Lk_PRBS that reaches its quad (R102, R103). -/
theorem Chip.regWrite_prbs {c : Chip} {rq : Requester} {q k : Nat} (hq : q < 12) (hk : k < 4)
    (ht : Safety.takes c rq (Reg.SERDES_L_PRBS q k) = true) (v : Word) (x : Verdict) :
    c.regWrite rq (Reg.SERDES_L_PRBS q k) v x = c.prbsWrite q k (v &&& 0xf0f) := by
  rw [Chip.regWrite_serdes hq (by simp only [Reg.SERDES_L_PRBS]; omega) ht (rowOf_serdesPrbs hq hk) rfl,
    Chip.serdesHook_prbs _ _ hk]

/-! ### Loopbacks -/

/-- Outside Service mode no loopback is set (R102). -/
theorem Chip.lbWrite_rejects {c : Chip} {q : Nat} {v : Word} (hv : (lbMask q v).toNat % 256 ≠ 0) (hm : c.mode ≠ 5) :
    c.lbWrite q v = c.reject (Reg.SERDES_LB q) := by simp [Chip.lbWrite, hv, hm]

/-- In Service mode a write with a timeout is stored on every lane (R102). -/
theorem Chip.lbWrite_stores {c : Chip} {q : Nat} {v : Word} (hm : c.mode = 5) (ht : bitsOf (lbMask q v) 31 16 ≠ 0) :
    c.lbWrite q v = ((c.wr (Reg.SERDES_LB q) (lbMask q v)).testApply q (c.testLanes q)).lbTimer q true := by
  simp [Chip.lbWrite, hm, ht]

/-- A running timer expires: time passes to its end, and the quad's tests end (R102). -/
theorem Chip.lbExpire_at {c : Chip} {q a : Nat} (h : (c.quad q).lbAt = some a) :
    (c.lbElapse q).lbExpire q = (c.elapseAge (a + ms (c.get (.SERDES_LB_TIMEOUT q)))).testsEnd q := by
  simp only [Chip.lbElapse, h]
  generalize ht : a + ms (c.get (.SERDES_LB_TIMEOUT q)) = t
  have hq : ((c.elapseAge t).quad q).lbAt = some a := by simpa [Chip.quad] using h
  have hg : (c.elapseAge t).get (.SERDES_LB_TIMEOUT q) = c.get (.SERDES_LB_TIMEOUT q) := by simp [Chip.get, Chip.rd]
  simp [Chip.lbExpire, hq, hg, ht, c.le_age_elapseAge t]

/-! ### Generators and checkers -/

section Prbs

variable {c : Chip} {q k : Nat} {v : Word} (hk : testable q k = true)

include hk

/-- Outside Service mode no generator is switched on (R102). -/
theorem Chip.prbsWrite_rejects (hg : bitsOf v 3 3 = 1) (hm : c.mode ≠ 5) :
    c.prbsWrite q k v = c.reject (Reg.SERDES_L_PRBS q k) := by simp [Chip.prbsWrite, hk, hg, hm]

/-- A write with generator and checker off is stored, and the checker's lock is gone. -/
theorem Chip.prbsWrite_off (hg : bitsOf v 3 3 = 0) (hc : bitsOf v 11 11 = 0) :
    c.prbsWrite q k v =
      ((c.wr (Reg.SERDES_L_PRBS q k) (withBits v 16 16 0)).testApply q (c.testLanes q)).lbTimer q false := by
  simp [Chip.prbsWrite, hk, hg, hc]

/-- A generator that is switched on in Service mode starts its pattern (R103). -/
theorem Chip.prbsWrite_generates (hg : bitsOf v 3 3 = 1) (hc : bitsOf v 11 11 = 0) (hm : c.mode = 5)
    (hu : c.upstreamLane q k = false) (hoff : c.flag (.SERDES_L_PRBS_GEN_EN q k) = false) :
    c.prbsWrite q k v =
      (((c.wr (Reg.SERDES_L_PRBS q k) (withBits v 16 16 0)).generatorStart q k).testApply q (c.testLanes q)).lbTimer q
        false := by
  simp [Chip.prbsWrite, hk, hg, hc, hm, hu, hoff]

/-- A checker that is switched on starts from 0 (R103). -/
theorem Chip.prbsWrite_checks (hg : bitsOf v 3 3 = 0) (hc : bitsOf v 11 11 = 1)
    (hoff : c.flag (.SERDES_L_PRBS_CHK_EN q k) = false) :
    c.prbsWrite q k v =
      (((c.wr (Reg.SERDES_L_PRBS q k) (withBits v 16 16 (c.get (.SERDES_L_PRBS_CHK_LOCK q k)))).checkerStart q k).testApply q
        (c.testLanes q)).lbTimer q false := by
  simp [Chip.prbsWrite, hk, hg, hc, hoff]

end Prbs

/-- Of the registers above the header, but for its count, a checker changes the one that shows its lock. -/
theorem Chip.rd_checkBits (c : Chip) (q k : Nat) (bits : List Bool) {b : Nat} (h4 : 0x40 ≤ b % 0x1000)
    (h30 : b / 0x1000 ≠ 0x30) (hlo : b ≠ Reg.SERDES_L_PRBS_ERR_LO q k) (hhi : b ≠ Reg.SERDES_L_PRBS_ERR_HI q k) :
    (c.checkBits q k bits).rd b = c.rd b ∨
      ∃ n, (c.checkBits q k bits).rd b = (c.put (.SERDES_L_PRBS_CHK_LOCK q k) n).rd b := by
  have hw : ∀ (d : Chip) (e : Ev) (first : Bool), (d.when first fun d => d.raise e).rd b = d.rd b := fun d e first => by
    cases first
    · rfl
    · exact d.rd_raise_above_header e h4 h30
  simp only [Chip.checkBits]
  split
  · rw [hw, Chip.rd_setLane, Chip.rd_setPair_ne _ _ hlo hhi]
    exact .inr ⟨_, rfl⟩
  · exact .inl rfl

/-- A checker leaves the lane's loopback. -/
theorem Chip.lbCode_checkBits (c : Chip) {q : Nat} (hq : q < 12) (k : Nat) (bits : List Bool) :
    (c.checkBits q k bits).lbCode q k = c.lbCode q k := by
  have h : (c.checkBits q k bits).rd (Reg.SERDES_LB q) = c.rd (Reg.SERDES_LB q) := by
    rcases c.rd_checkBits q k bits (b := Reg.SERDES_LB q) (by simp only [Reg.SERDES_LB]; omega)
      (by simp only [Reg.SERDES_LB]; omega) (by simp only [Reg.SERDES_LB, Reg.SERDES_L_PRBS_ERR_LO]; omega)
      (by simp only [Reg.SERDES_LB, Reg.SERDES_L_PRBS_ERR_HI]; omega) with e | ⟨n, e⟩
    · exact e
    · exact e.trans (Chip.rd_put_ne _ _ _ (by simp only [Reg.SERDES_LB, Reg.SERDES_L_PRBS]; omega))
  simp only [Chip.lbCode, Chip.nat, h]

/-- A checker leaves the lane's generator. -/
theorem Chip.flag_genEn_checkBits (c : Chip) {q k : Nat} (hq : q < 12) (hk : k < 4) (bits : List Bool) :
    (c.checkBits q k bits).flag (.SERDES_L_PRBS_GEN_EN q k) = c.flag (.SERDES_L_PRBS_GEN_EN q k) := by
  simp only [Chip.flag, Chip.get]
  rcases c.rd_checkBits q k bits (b := Reg.SERDES_L_PRBS q k) (by simp only [Reg.SERDES_L_PRBS]; omega)
    (by simp only [Reg.SERDES_L_PRBS]; omega) (by simp) (by simp) with e | ⟨n, e⟩
  · rw [e]
  · rw [e]
    exact congrArg (· == 1) (c.get_put_other (.SERDES_L_PRBS_CHK_LOCK q k) (.SERDES_L_PRBS_GEN_EN q k) n
      (.inr (.inl (show 3 < 16 by decide))))

/-- Bits on a lane whose generator is off and that no near-end loopback holds: the checker takes them, and a far-end loopback sends
them on (R101, R103). -/
theorem Chip.prbsBitsIn_received {c : Chip} {q k : Nat} {bits : List Bool} (hq : q < 12) (hk : k < 4)
    (ht : testable q k = true) (hg : c.flag (.SERDES_L_PRBS_GEN_EN q k) = false)
    (hl : c.lbCode q k = 0 ∨ c.lbCode q k = 3) :
    c.prbsBitsIn q k bits =
      if c.lbCode q k = 3 then (c.checkBits q k bits).emit (.looped q k bits) else c.checkBits q k bits := by
  have hr : c.received q k bits = bits := by simp [Chip.received, hl]
  have off : ∀ d : Chip, d.regs = (c.checkBits q k bits).regs → d.generate q k bits.length = d := fun d h => by
    have hd : d.flag (.SERDES_L_PRBS_GEN_EN q k) = false := by
      rw [← hg, ← c.flag_genEn_checkBits hq hk bits]
      simp only [Chip.flag, Chip.get, Chip.rd, h]
    simp [Chip.generate, hd]
  rw [Chip.prbsBitsIn, if_pos ht, hr, Chip.farLoop, Chip.lbCode_checkBits c hq]
  split
  · exact off _ rfl
  · exact off _ rfl

/-- A checker that is switched off takes nothing. -/
theorem Chip.checkBits_off {c : Chip} {q k : Nat} (bits : List Bool) (hoff : c.flag (.SERDES_L_PRBS_CHK_EN q k) = false) :
    c.checkBits q k bits = c := by simp [Chip.checkBits, hoff]

/-- A checker that is switched on follows the bits, counts what differs from its lock on, and tells the first (R103). -/
theorem Chip.checkBits_on {c : Chip} {q k : Nat} (bits : List Bool) (hon : c.flag (.SERDES_L_PRBS_CHK_EN q k) = true) :
    c.checkBits q k bits =
      let l := c.lane q k
      let x := prbsCheck (c.get (.SERDES_L_PRBS_CHK_PAT q k)) (l.chk, l.run, 0) bits
      let e := c.put (.SERDES_L_PRBS_CHK_LOCK q k) (if 64 ≤ x.2.1 then 1 else 0)
      let lo := Reg.SERDES_L_PRBS_ERR_LO q k
      let hi := Reg.SERDES_L_PRBS_ERR_HI q k
      let d := (e.setPair lo hi (min (e.pair lo hi + x.2.2) (2 ^ 64 - 1))).setLane q k
        { l with chk := x.1, run := x.2.1, prbsSeen := l.prbsSeen || decide (0 < x.2.2) }
      if 0 < x.2.2 ∧ l.prbsSeen = false then d.raise (.SERDES_PRBS_ERR q) else d := by
  simp only [Chip.checkBits, hon, if_true]
  cases (c.lane q k).prbsSeen <;> simp [Chip.when]

/-! ### Lane M -/

/-- Lane M wakes a sender in Deep that asks for it (R405). -/
theorem Chip.laneM_wakes {c : Chip} (hd : c.pwr.state = .deep) (hs : c.isSender = true)
    (hw : bitAt (c.nat Reg.PWR_WAKE_EN) 2 = true) :
    c.laneM true =
      ((c.setNat Reg.PWR_WAKE_CAUSE 4).startCause 5).onPwr fun p =>
        { p with state := .waking, target := .dim, deepWake := true, dom := 1, step := none } := by
  simp [Chip.laneM, Chip.wakeBy, Chip.wake, hd, hs, hw]

/-- Outside Deep a sender shows lane M's link, up only while the channel is enabled (R324). -/
theorem Chip.laneM_shows {c : Chip} {up : Bool} (hd : c.pwr.state ≠ .deep) (hs : c.isSender = true)
    (h : up = false ∨ (c.enabled 0x1a = true ∧ c.flag .WELL_MGMT_CFG_EN = true)) :
    c.laneM up = c.put .WELL_MGMT_STAT_LINK (if up then 1 else 0) := by
  rcases h with rfl | ⟨hen, hcfg⟩
  · simp [Chip.laneM, hd, hs]
  · simp [Chip.laneM, hd, hs, hen, hcfg]

end Sys2Proof.Machine
end

section
/-!
PROOF. How a part starts, how the mode changes, and what runs in Service mode alone (R22 to R26, R101 to R103, R349, R399): the
obligations O33, O34 and O37.
-/

open Sys2Proof Sys2Proof.Machine Sys2Proof.Safety

namespace Sys2Proof.Proofs

/-- Settles O33: the straps and the state before decide what a release does, its inputs how far the boot ROM comes, and the slots
what a sender starts from. -/
theorem startsFromReset : Obligations.StartsFromReset := by
  unfold Obligations.StartsFromReset
  intro s b hrole hgeo htamper
  have hwf : decide (b.role < 4 ∧ b.geo < 8 ∧ b.tamper < 32) = true := decide_eq_true ⟨hrole, hgeo, htamper⟩
  refine ⟨fun hb => ?_, fun hfresh hb => ?_, fun hf ht hr hl hc => ?_, fun okA okB formatOk f hs hr => ?_,
    fun hs hf hb => ?_, fun ht hl hp => ?_⟩
  · exact ⟨(exec_internalResetRelease b s).trans (State.run_next hwf (Chip.release_held hb)),
      (exec_roleStrapResample b s).trans (State.run_next hwf (Chip.release_held hb))⟩
  · exact ⟨(exec_internalResetRelease b s).trans (State.run_next hwf (Chip.release_starts hb hfresh)),
      (exec_roleStrapResample b s).trans (State.run_next hwf (Chip.release_starts hb hfresh))⟩
  · obtain ⟨d, h⟩ := Chip.bootSteps_passes hf ht hr hl hc
    rw [h]
    exact d.boot_shown
  · have run : ∀ {g : Chip → Chip}, s.chip.senderBoot okA okB formatOk f = g s.chip →
        exec (.senderFirmwareStart okA okB formatOk f) s = .next (s.effect g) := fun h =>
      (exec_senderFirmwareStart ..).trans (State.run_next rfl h)
    refine ⟨Chip.chooseSlot_first, Chip.chooseSlot_second, Chip.chooseSlot_none,
      fun k hk => run (Chip.senderBoot_starts hs hr hk), fun v hv => run (Chip.senderBoot_quarantines hs hr hv)⟩
  · exact ⟨fun hr => (exec_factoryDefaultStart ..).trans (State.run_next rfl (Chip.factoryStart_begins hs hf hb hr)),
      fun hr x => (exec_factoryDefaultStart ..).trans (State.run_next rfl (Chip.factoryStart_joins hs hf hb hr x))⟩
  · refine (exec_locatorTimeout s).trans (State.run_next rfl (Chip.locatorOn_shows ?_ ?_ ?_))
    · simpa [Chip.isTile, Chip.get, Chip.rd] using ht
    · simpa using hl
    · simpa using hp

/-- Settles O34: a write of SYS_MODE_CTRL is ARM or CANCEL, and at the ticks of the switch its state at the sender, or the tile's
arm, decides. -/
theorem modesSwitchAtOneTick : Obligations.ModesSwitchAtOneTick := by
  unfold Obligations.ModesSwitchAtOneTick
  intro s rq m n
  refine ⟨fun hs ht => ⟨fun hk => ?_, fun hk => ?_, fun arm => ?_⟩, fun d port wdn idx mode hp => ?_,
    fun x port wdn hx hp => ?_, fun x hx hp hs hb hn => ⟨fun h2 hl => ?_, fun h => ?_⟩, fun x hs hx h3 hd => ?_,
    fun i a _ hs ht ha hn => ?_⟩
  · rw [exec_modeSwitchArm]
    refine State.run_next rfl ((Chip.regWrite_modeArm hs ht _).trans ?_)
    exact if_pos hk
  · rw [exec_modeSwitchArm]
    refine State.run_next rfl ((Chip.regWrite_modeArm hs ht _).trans ?_)
    exact if_neg (not_not.2 hk)
  · have run : ∀ {g : Chip → Chip}, s.chip.modeCancel = g s.chip →
        exec (.modeSwitchCancel rq arm) s = .next (s.effect g) := fun h =>
      (exec_modeSwitchCancel ..).trans (State.run_next rfl ((Chip.regWrite_modeCancel hs ht arm _).trans h))
    refine ⟨fun hp h3 => run ?_, fun hp h3 => run ?_, fun hp => run ?_⟩
    · simp [Chip.modeCancel, hp, h3]
    · simp [Chip.modeCancel, hp, h3]
    · simp [Chip.modeCancel, hp]
  · exact (exec_modeAck s).trans (State.run_next rfl (Chip.modeAckHead_of_pop hp))
  · simp [Chip.modeAck, hp, hx]
  · refine (exec_modeDecision s).trans (State.run_next rfl ?_)
    exact (Chip.modeDecide_due hx hp hs hb hn (by omega)).trans (if_pos ⟨h2, hl⟩)
  · refine (exec_modeDecision s).trans (State.run_next rfl ?_)
    exact (Chip.modeDecide_due hx hp hs hb hn (by omega)).trans (if_neg (by omega))
  · refine (exec_modeSwitch s).trans (State.run_next rfl ?_)
    exact Chip.modeAtTick_due hd (Chip.modeSwitch_decided hs hx h3 (Chip.le_lastIndex_of_modeDue hs hx hd))
  · have hd : s.chip.modeDue = true := by simp [Chip.modeDue, ht, hs, ha, hn]
    exact (exec_modeSwitch s).trans (State.run_next rfl (Chip.modeAtTick_due hd (Chip.modeSwitch_armed hs ht ha hn)))

/-- Settles O37: a write that reaches SERDES_LB or SERDES_Lk_PRBS is judged by its quad, where mode, generator and checker decide; the
bits of a lane pass its checker and its loopback. -/
theorem loopbacksOnlyInService : Obligations.LoopbacksOnlyInService := by
  unfold Obligations.LoopbacksOnlyInService
  intro s rq q k hq hk
  have hqk : decide (q < 12 ∧ k < 4) = true := decide_eq_true ⟨hq, hk⟩
  have lane : 4 * q + k < 42 → testable q k = true := decide_eq_true
  refine ⟨fun v ht => ?_, fun a ha => ?_, fun v ht h42 => ?_, fun ht h42 hg hc => ?_, fun bits h42 hg => ?_,
    fun hd hs hw => ?_, fun hd hs up hup => ?_⟩
  · have run : ∀ {g : Chip → Chip}, s.chip.lbWrite q (v &&& 0xffff00ff) = g s.chip →
        exec (.loopbackSet rq q v) s = .next (s.effect g) := fun h =>
      (exec_loopbackSet ..).trans (State.run_next (decide_eq_true hq) ((Chip.regWrite_lb hq ht v _).trans h))
    intro w
    exact ⟨fun hw hm => run (Chip.lbWrite_rejects hw hm), fun hm hw => run (Chip.lbWrite_stores hm hw)⟩
  · exact (exec_loopbackTimeout q s).trans (State.run_next (decide_eq_true hq) (Chip.lbExpire_at ha))
  · have run : ∀ {g : Chip → Chip}, s.chip.prbsWrite q k (v &&& 0xf0f) = g s.chip →
        exec (.prbsGeneratorSet rq q k v) s = .next (s.effect g) := fun h =>
      (exec_prbsGeneratorSet ..).trans (State.run_next hqk ((Chip.regWrite_prbs hq hk ht v _).trans h))
    rw [← bitsOf_and_bit v 0xf0f 3 rfl, ← bitsOf_and_bit v 0xf0f 11 rfl]
    exact ⟨fun hg hm => run (Chip.prbsWrite_rejects (lane h42) hg hm),
      fun hg hc => run (Chip.prbsWrite_off (lane h42) hg hc),
      fun hg hc hm hu hoff => run (Chip.prbsWrite_generates (lane h42) hg hc hm hu hoff)⟩
  · have h3 : bitsOf ((s.chip.rd (Reg.SERDES_L_PRBS q k) ||| 0x800) &&& 0xf0f) 3 3 = 0 := by
      rw [bitsOf_and_bit _ _ _ rfl, bitsOf_or, Chip.get_of_flag_false hg]
      rfl
    have h11 : bitsOf ((s.chip.rd (Reg.SERDES_L_PRBS q k) ||| 0x800) &&& 0xf0f) 11 11 = 1 := by
      rw [bitsOf_and_bit _ _ _ rfl, bitsOf_or, Chip.get_of_flag_false hc]
      rfl
    refine (exec_prbsCheckerEnable ..).trans (State.run_next hqk ?_)
    exact (Chip.regWrite_prbs hq hk ht _ _).trans (Chip.prbsWrite_checks (lane h42) h3 h11 hc)
  · have run : ∀ {g : Chip → Chip}, s.chip.prbsBitsIn q k bits = g s.chip →
        exec (.prbsCheckerLock q k bits) s = .next (s.effect g) := fun h =>
      (exec_prbsCheckerLock ..).trans (State.run_next hqk h)
    refine ⟨fun hon hl => run ?_, fun hoff hl => run ?_⟩
    · rw [Chip.prbsBitsIn_received hq hk (lane h42) hg (.inl hl), hl, if_neg (by decide)]
      exact Chip.checkBits_on bits hon
    · rw [Chip.prbsBitsIn_received hq hk (lane h42) hg (.inr hl), if_pos hl, Chip.checkBits_off bits hoff]
  · exact (exec_laneMLink true s).trans (State.run_next rfl (Chip.laneM_wakes hd hs hw))
  · exact (exec_laneMLink up s).trans (State.run_next rfl (Chip.laneM_shows hd hs hup))

end Sys2Proof.Proofs
end

section
/-!
SUPPORT. The Crier's record of MSI-X after a command (R52): what is held is one of the vectors recorded as pending.
-/

namespace Sys2Proof.Machine

open Safety

/-- Putting vectors in their places by R48 adds none. -/
theorem mem_insertVector {c : Chip} {v w : Nat} {l : List Nat} (h : w ∈ insertVector c v l) : w = v ∨ w ∈ l := by
  induction l with
  | nil => exact .inl (List.mem_singleton.1 h)
  | cons u r ih =>
    have later : w ∈ u :: insertVector c v r → w = v ∨ w ∈ u :: r := fun k => by
      rcases List.mem_cons.1 k with rfl | k
      · exact .inr (List.mem_cons_self ..)
      · exact (ih k).imp_right (List.mem_cons_of_mem _)
    simp only [insertVector] at h
    split at h
    · split at h
      · exact List.mem_cons.1 h
      · exact later h
    · exact later h

/-- The vectors in the order of R48 are the vectors given. -/
theorem mem_orderedVectors {c : Chip} {w : Nat} {l : List Nat} (h : w ∈ l.foldr (insertVector c) []) : w ∈ l := by
  induction l with
  | nil => exact h
  | cons v r ih =>
    rcases mem_insertVector h with rfl | k
    · exact List.mem_cons_self ..
    · exact List.mem_cons_of_mem _ (ih k)

/-- A vector held after one was sent or held was held before, or is that one. -/
theorem mem_vecHeld_sendVector {c : Chip} {v w : Nat} (h : w ∈ (sendVector c v).fab.vecHeld) : w = v ∨ w ∈ c.fab.vecHeld := by
  simp only [sendVector] at h
  split at h
  · exact (List.mem_cons.1 h).imp_right fun k => (List.mem_filter.1 k).1
  · exact .inr (List.mem_filter.1 h).1

/-- Telling the peer leaves the fabric's own part. -/
theorem notifyPeer_fab (c : Chip) (v : Nat) : (notifyPeer c v).fab = c.fab := by
  have same : ∀ due : Bool, (if due then (c.emit (.mgmt 0x20 [v] [])).onMgmt fun m =>
      { m with notified := assocPut m.notified v c.age } else c).fab = c.fab
    | true => rfl
    | false => rfl
  exact same _

/-- Vectors held after a list of them was sent or held were held before, or are of the list. -/
theorem mem_vecHeld_each_sendVector {l : List Nat} {c : Chip} {w : Nat} (h : w ∈ (c.each l sendVector).fab.vecHeld) :
    w ∈ l ∨ w ∈ c.fab.vecHeld := by
  induction l generalizing c with
  | nil => exact .inr h
  | cons v r ih =>
    rcases ih (c := sendVector c v) h with k | k
    · exact .inl (List.mem_cons_of_mem _ k)
    · rcases mem_vecHeld_sendVector k with rfl | k
      · exact .inl (List.mem_cons_self ..)
      · exact .inr k

/-- After a command every held message is for a vector with a pending source (R52). -/
theorem Chip.mem_settle_vecHeld {c : Chip} {w : Nat} (h : w ∈ c.settle.fab.vecHeld) : w ∈ pendingVectors c := by
  simp only [Chip.settle] at h
  rw [Chip.each_keeps (fun d => d.fab.vecHeld) notifyPeer fun d v => congrArg Fabric.vecHeld (notifyPeer_fab d v)] at h
  rcases mem_vecHeld_each_sendVector h with k | k
  · exact (List.mem_filter.1 (mem_orderedVectors k)).1
  · exact List.contains_iff_mem.1 (List.mem_filter.1 k).2

/-- After any effect the Crier's record agrees with the sources. -/
theorem msixOk_settle (c : Chip) : msixOk c.settle = true := by
  simp only [msixOk, Chip.settle_vecSeen, Chip.settle_pendingVectors, beq_self_eq_true, Bool.true_and, List.all_eq_true]
  exact fun w h => List.contains_iff_mem.2 (Chip.mem_settle_vecHeld h)

/-- A well-formed command is carried out: its effect on the part, and the queue as it was. -/
theorem exec_wf {i : Instr} (s : State) (h : i.wf = true) : ∃ f, exec i s = .next (s.effect f) := by
  obtain ⟨f, e⟩ := exec_run i s
  exact ⟨f, e.trans (State.run_wf i f s h)⟩

/-- Every header register resets to 0 (R31). -/
theorem regReset_header {a : Nat} (h : a % 0x1000 < 0x40) : regReset a = 0 := by simp only [regReset, rowOf_header h]

/-- What an answering command leaves: its effect with what follows every command, and the queue as it was. -/
theorem exec_next {i : Instr} {s t : State} (h : exec i s = .next t) : ∃ f, t = s.effect f := by
  obtain ⟨f, e⟩ := exec_run i s
  rw [e, State.run] at h
  split at h
  · exact ⟨f, (Host.Outcome.next.inj h).symm⟩
  · exact nomatch h

end Sys2Proof.Machine
end

section
/-!
PROOF. What follows every command, and what every step and the reset keep (R46, R52, R398): the obligations O3, O5, O6 and O7.
-/

open Sys2Proof Sys2Proof.Machine Sys2Proof.Safety

namespace Sys2Proof.Proofs

/-- Settles O3: with no commit waiting the Crier's work is all that follows, and it changes its own record and what is sent. -/
theorem afterCommand : Obligations.AfterCommand := by
  unfold Obligations.AfterCommand
  intro s f
  refine ⟨rfl, s.chip.after_none f, fun c => ?_⟩
  obtain ⟨fab, out, mgmt, hs, hf, hm⟩ := c.settle_sameButSent
  refine ⟨fab, out, mgmt, hs, ?_, hm⟩
  have seen : fab.vecSeen = pendingVectors c := by rw [← c.settle_vecSeen, hs]
  rw [hf, seen]

/-- Settles O5: a step with nothing waiting changes nothing; any other ends in the Crier's work, which makes its record what the
sources say, whatever the command did. -/
theorem stepKeepsSafe : Obligations.StepKeepsSafe := by
  unfold Obligations.StepKeepsSafe
  intro s hq hm
  cases hp : s.pending with
  | nil =>
    have idle : step s = .next s := by simp only [step, hp]
    refine ⟨⟨s, idle⟩, fun t ht => ?_⟩
    obtain rfl := Host.Outcome.next.inj (idle.symm.trans ht)
    exact ⟨hq, hm⟩
  | cons i rest =>
    have run : step s = exec i { s with pending := rest } := by simp only [step, hp]
    have hwf : i.wf = true ∧ rest.all Instr.wf = true := by simpa [queueOk, hp] using hq
    obtain ⟨f, e⟩ := exec_wf { s with pending := rest } hwf.1
    refine ⟨⟨_, run.trans e⟩, fun t ht => ?_⟩
    obtain ⟨g, rfl⟩ := exec_next (run.symm.trans ht)
    exact ⟨hwf.2, msixOk_settle _⟩

/-- Settles O6: nothing waits and nothing is pending after reset, and every store is empty. -/
theorem resetSafe : Obligations.ResetSafe := by
  unfold Obligations.ResetSafe
  exact ⟨rfl, rfl, rfl⟩

/-- Settles O7: after reset every store is empty, so that every read answers what an unlisted key reads as. -/
theorem resetValues : Obligations.ResetValues := by
  unfold Obligations.ResetValues
  refine ⟨fun a => ⟨rfl, rfl⟩, fun a => rfl, rfl, rfl, rfl, rfl, rfl, fun p => ?_⟩
  have status : State.reset.chip.rd (Reg.PG_STATUS p) = 0 := regReset_header (by simp only [Reg.PG_STATUS]; omega)
  simp only [Chip.enabled, Chip.flag, Chip.get, status]
  rfl

end Sys2Proof.Proofs
end

section
/-!
SUPPORT. A write of a header register by its offset (R31, R45), and what an occurrence of an event and the clearing of flags leave.
-/

namespace Sys2Proof.Machine

open Safety

/-! ### The commands as effects -/

theorem exec_pgEventClear (rq : Requester) (p : Nat) (v : Word) (s : State) :
    exec (.pgEventClear rq p v) s = s.run (.pgEventClear rq p v) fun c => c.regWrite rq (Reg.PG_EVENT p) v noVerdict := rfl

theorem exec_pgEventSet (rq : Requester) (p : Nat) (v : Word) (s : State) :
    exec (.pgEventSet rq p v) s = s.run (.pgEventSet rq p v) fun c => c.regWrite rq (Reg.PG_EVENT_SET p) v noVerdict := rfl

/-- A command whose effect leaves no commit waiting answers a state that differs from the effect by the Crier's work alone. -/
theorem exec_answers {i : Instr} {s : State} {f : Chip → Chip} (h : exec i s = .next (s.effect f))
    (hc : (f s.chip).fab.commits = []) :
    ∃ t, exec i s = .next t ∧ t.pending = s.pending ∧ t.chip = (f s.chip).settle :=
  ⟨_, h, rfl, s.chip.after_none f hc⟩

/-! ### Header registers -/

section Header

variable {c : Chip} {rq : Requester} {p : Nat} {x : Verdict}

/-- The page of a header register and its offset. -/
theorem header_place {o : Nat} (h : o < 0x1000) : (0x1000 * p + o) / 0x1000 = p ∧ (0x1000 * p + o) % 0x1000 = o := by omega

/-- A header register that takes a write is written by its offset. -/
theorem Chip.regWrite_header {o : Nat} (v : Word) (ho : o < 0x40) (h : takes c rq (0x1000 * p + o) = true) :
    c.regWrite rq (0x1000 * p + o) v x = c.headerWrite rq (0x1000 * p + o) v := by
  rw [Chip.regWrite_takes _ _ _ _ _ h, Chip.pageWrite, if_pos (by omega)]

theorem Chip.regWrite_event (v : Word) (h : takes c rq (Reg.PG_EVENT p) = true) :
    c.regWrite rq (Reg.PG_EVENT p) v x = c.eventClear p v := by
  obtain ⟨hp, ho⟩ := header_place (p := p) (show 0x14 < 0x1000 by decide)
  rw [Chip.regWrite_header v (by decide) h]
  simp [Chip.headerWrite, hp, ho]

theorem Chip.regWrite_eventEn (v : Word) (h : takes c rq (Reg.PG_EVENT_EN p) = true) :
    c.regWrite rq (Reg.PG_EVENT_EN p) v x = c.wr (Reg.PG_EVENT_EN p) (v &&& pageEvents p) := by
  obtain ⟨hp, ho⟩ := header_place (p := p) (show 0x18 < 0x1000 by decide)
  rw [Chip.regWrite_header v (by decide) h]
  simp [Chip.headerWrite, hp, ho]

theorem Chip.regWrite_eventSet (v : Word) (h : takes c rq (Reg.PG_EVENT_SET p) = true) :
    c.regWrite rq (Reg.PG_EVENT_SET p) v x = c.eventSet p v := by
  obtain ⟨hp, ho⟩ := header_place (p := p) (show 0x1c < 0x1000 by decide)
  rw [Chip.regWrite_header v (by decide) h]
  simp [Chip.headerWrite, hp, ho]

/-- No header register's write is judged. -/
theorem judged_header {a : Nat} (h : a % 0x1000 < 0x40) : judged a = false := by
  simp only [judged, Bool.or_eq_false_iff, beq_eq_false_iff_ne]
  exact ⟨by rintro rfl; exact absurd h (by decide), by rintro rfl; exact absurd h (by decide)⟩

end Header

/-! ### The clearing of flags -/

section Clear

variable (c : Chip) (p : Nat) (v : Word)

/-- A clear changes registers alone. -/
theorem Chip.eventClear_eq : ∃ regs, c.eventClear p v = { c with regs := regs } := by
  simp only [Chip.eventClear]
  split
  · exact ⟨_, rfl⟩
  · exact ⟨_, rfl⟩

/-- Of the registers a clear changes the flags, and the count of fabric errors with FAB_ERR (R30). -/
theorem Chip.rd_eventClear {a : Nat} (h : a ≠ Reg.CRIER_FAB_ERR_INFO) :
    (c.eventClear p v).rd a = if a = Reg.PG_EVENT p then c.rd (Reg.PG_EVENT p) &&& ~~~v else c.rd a := by
  rw [← Chip.rd_wr c (Reg.PG_EVENT p) a]
  simp only [Chip.eventClear]
  split
  · exact Chip.rd_put_ne _ _ _ h
  · rfl

end Clear

/-! ### An occurrence -/

theorem bitAt_eq_testBit (m j : Nat) : bitAt m j = m.testBit j := by
  rw [Nat.testBit_eq_decide_div_mod_eq, bitAt]
  rfl

/-- A number of one bit has that bit alone. -/
theorem bitAt_two_pow (i j : Nat) : bitAt (2 ^ i) j = decide (i = j) := by rw [bitAt_eq_testBit, Nat.testBit_two_pow]

theorem bitAt_and (m n j : Nat) : bitAt (m &&& n) j = (bitAt m j && bitAt n j) := by
  simp only [bitAt_eq_testBit, Nat.testBit_and]

/-- PG_EVENT_SET with one assigned bit is one occurrence of its event. -/
theorem Chip.eventSet_one (c : Chip) {p b : Nat} (hb : b < 32) (ha : bitAt (pageEvents p).toNat b = true) :
    c.eventSet p (BitVec.ofNat 32 (2 ^ b)) = c.raise ⟨p, b⟩ := by
  have hlt : 2 ^ b < 2 ^ 32 := Nat.pow_lt_pow_right (by decide) hb
  have hbits : ∀ j, bitAt (BitVec.ofNat 32 (2 ^ b) &&& pageEvents p).toNat j = (j == b) := fun j => by
    rw [BitVec.toNat_and, BitVec.toNat_ofNat, Nat.mod_eq_of_lt hlt, bitAt_and, bitAt_two_pow]
    by_cases h : b = j
    · subst h; simp [ha]
    · simp [h, Ne.symm h]
  have hone : (List.range 32).filter (fun j => bitAt (BitVec.ofNat 32 (2 ^ b) &&& pageEvents p).toNat j) = [b] := by
    simp only [hbits]
    rw [List.filter_beq, List.count_eq_one_of_mem List.nodup_range (List.mem_range.2 hb), List.replicate_one]
  rw [Chip.eventSet, hone]
  rfl

section Occurrence

variable (c : Chip) (e : Ev)

/-- An event sets its flag and leaves the page's others. -/
theorem Chip.rd_setEvent_flags :
    (c.setEvent e).rd (Reg.PG_EVENT e.page) = c.rd (Reg.PG_EVENT e.page) ||| BitVec.ofNat 32 (2 ^ e.bit) := by
  simp only [Chip.setEvent, Chip.countF]
  rw [Chip.rd_put_ne _ _ _ (by simp only [Reg.PG_EVENT, Reg.PG_EVENT_CNT]; omega), Chip.rd_wr_same]

/-- An event's flag reads 1 once it has occurred (R45). -/
theorem Chip.setEvent_sets (hb : e.bit < 32) : ((c.setEvent e).rd (Reg.PG_EVENT e.page)).getLsbD e.bit = true := by
  rw [Chip.rd_setEvent_flags, BitVec.getLsbD_or, BitVec.getLsbD_ofNat]
  simp [hb, Nat.testBit_two_pow_self]

/-- An event clears no flag. -/
theorem Chip.setEvent_keeps {p b : Nat} (h : (c.rd (Reg.PG_EVENT p)).getLsbD b = true) :
    ((c.setEvent e).rd (Reg.PG_EVENT p)).getLsbD b = true := by
  by_cases hp : p = e.page
  · subst hp
    simp [Chip.rd_setEvent_flags, BitVec.getLsbD_or, h]
  · rw [Chip.rd_setEvent_page _ _ (by simp only [Reg.PG_EVENT]; omega)]
    exact h

/-- Forwarding an event clears no flag: at most it adds that of the queue's overflow. -/
theorem Chip.forwardEvent_keeps {p b : Nat} (h : (c.rd (Reg.PG_EVENT p)).getLsbD b = true) :
    ((c.forwardEvent e).rd (Reg.PG_EVENT p)).getLsbD b = true := by
  simp only [Chip.forwardEvent]
  split
  · exact h
  split
  · exact h
  split
  · exact h
  · refine Chip.setEvent_keeps _ _ ?_
    rw [Chip.count, Chip.rd_countBy_ne _ _ (by simp only [Reg.PG_EVENT, Reg.RET_EVQ_OVF]; omega)]
    exact h

/-- An event counts one in PG_EVENT_CNT, up to its highest value. -/
theorem Chip.get_setEvent_count :
    (c.setEvent e).get (.PG_EVENT_CNT_COUNT e.page) = min (c.get (.PG_EVENT_CNT_COUNT e.page) + 1) 65535 := by
  have before : ∀ v, (c.wr (Reg.PG_EVENT e.page) v).get (.PG_EVENT_CNT_COUNT e.page) = c.get (.PG_EVENT_CNT_COUNT e.page) :=
    fun v => Chip.get_wr_ne _ _ _ (by simp only [Reg.PG_EVENT, Reg.PG_EVENT_CNT]; omega)
  simp only [Chip.setEvent, Chip.countF, before]
  rw [Chip.get_put_same _ _ _ (show 15 < 32 by decide)]
  simp only [satInc]
  split <;> omega

/-- A register above the header does not change with an event. -/
theorem Chip.get_setEvent_above {f : Fld} (h : 0x40 ≤ f.reg % 0x1000) : (c.setEvent e).get f = c.get f := by
  simp only [Chip.get, Chip.setEvent, Chip.countF]
  rw [Chip.rd_put_ne _ _ _ (by simp only [Reg.PG_EVENT_CNT]; omega), Chip.rd_wr_ne _ _ (by simp only [Reg.PG_EVENT]; omega)]

/-- A tile that holds slot units keeps an event for its sender, or marks its queue as overflowed (R130). -/
theorem Chip.forwardEvent_queues (ht : c.isTile = true) (hu : c.get .RET_UNITS_COUNT ≠ 0) :
    (c.forwardEvent e).tile.evqOvf = true ∨ ∃ n, (e.page, e.bit, n) ∈ (c.forwardEvent e).tile.evq := by
  have holds : (!c.isTile || c.get .RET_UNITS_COUNT == 0) = false := by simp [ht, hu]
  simp only [Chip.forwardEvent, holds, Bool.false_eq_true, if_false]
  split
  next hq =>
    obtain ⟨y, hy, hk⟩ := List.any_eq_true.1 hq
    simp only [Bool.and_eq_true, beq_iff_eq] at hk
    refine .inr ⟨satInc 16 y.2.2, List.mem_map.2 ⟨y, hy, ?_⟩⟩
    simp [hk]
  split
  · exact .inr ⟨1, List.mem_append_right _ (List.mem_singleton.2 rfl)⟩
  · exact .inl rfl

end Occurrence

end Sys2Proof.Machine
end

section
/-!
PROOF. Events and what makes a page pending (R45, R46): the obligations O17 and O18.
-/

open Sys2Proof Sys2Proof.Machine Sys2Proof.Safety

namespace Sys2Proof.Proofs

/-- Settles O17: the write of one assigned bit is one occurrence, which sets the flag and counts before it is forwarded. -/
theorem eventOccurrence : Obligations.EventOccurrence := by
  unfold Obligations.EventOccurrence
  intro s rq p b hp hb ha ht
  refine ⟨?_, ?_, fun h30 => ?_, fun hr hu => ?_⟩
  · refine (exec_pgEventSet ..).trans (State.run_next (decide_eq_true hp) ?_)
    exact (Chip.regWrite_eventSet _ ht).trans (s.chip.eventSet_one hb ha)
  · exact Chip.forwardEvent_keeps _ _ (s.chip.setEvent_sets ⟨p, b⟩ hb)
  · rw [← s.chip.get_setEvent_count ⟨p, b⟩]
    simp only [Chip.get, Chip.raise]
    rw [Chip.rd_forwardEvent_page _ _ (by simp only [Reg.PG_EVENT_CNT]; omega)]
  · refine Chip.forwardEvent_queues _ ⟨p, b⟩ ?_ ?_
    · simpa only [Chip.isTile, s.chip.get_setEvent_above ⟨p, b⟩ (f := .SYS_ROLE_ROLE) (by decide)] using hr
    · rwa [s.chip.get_setEvent_above ⟨p, b⟩ (by decide)]

/-- A page is a Crier source by its events (R46). -/
theorem srcPending_page (c : Chip) {p : Nat} (hp : p < 0xe0 ∨ p = 0xf0) : srcPending c p = pagePending c p := by
  have h : (decide (p < 0xe0) || p == 0xf0) = true := by simpa using hp
  simp only [srcPending, h, if_true]

/-- Without an enabled flag set a page is not pending. -/
theorem pagePending_idle {c : Chip} {p : Nat} (h : c.rd (Reg.PG_EVENT p) &&& c.rd (Reg.PG_EVENT_EN p) = 0) :
    pagePending c p = false := by simp [pagePending, h]

/-- Settles O18: a page's pending state is its flags and enables, and the two writes change a header register of the page and, of
the rest, what the Crier's own work changes. -/
theorem pagePendingFollowsEvents : Obligations.PagePendingFollowsEvents := by
  unfold Obligations.PagePendingFollowsEvents
  intro s rq p hp
  have hsmall : p < 4096 := by omega
  refine ⟨fun hr => ?_, fun hc ht v => ?_, fun hc ht => ?_⟩
  · simp [srcPending_page _ hp, pagePending, hr]
  · have run : exec (.pgEventClear rq p v) s = .next (s.effect fun c => c.eventClear p v) :=
      (exec_pgEventClear ..).trans (State.run_next (decide_eq_true hsmall) (Chip.regWrite_event v ht))
    obtain ⟨regs, hregs⟩ := s.chip.eventClear_eq p v
    obtain ⟨t, h, hq, e⟩ := exec_answers run (by rw [hregs]; exact hc)
    have hev : Reg.PG_EVENT p ≠ Reg.CRIER_FAB_ERR_INFO := by simp only [Reg.PG_EVENT, Reg.CRIER_FAB_ERR_INFO]; omega
    have hen : Reg.PG_EVENT_EN p ≠ Reg.CRIER_FAB_ERR_INFO := by simp only [Reg.PG_EVENT_EN, Reg.CRIER_FAB_ERR_INFO]; omega
    have flags : t.chip.rd (Reg.PG_EVENT p) = s.chip.rd (Reg.PG_EVENT p) &&& ~~~v := by
      rw [e, Chip.settle_rd, Chip.rd_eventClear _ _ _ hev, if_pos rfl]
    have others : ∀ a, a ≠ Reg.PG_EVENT p → a ≠ Reg.CRIER_FAB_ERR_INFO → t.chip.rd a = s.chip.rd a := fun a ha hi => by
      rw [e, Chip.settle_rd, Chip.rd_eventClear _ _ _ hi, if_neg ha]
    refine ⟨t, h, hq, ?_, flags, others, fun hz => ?_⟩
    · rw [e]
      exact restSame_settle regs s.chip.out hregs
    · rw [srcPending_page _ hp]
      refine pagePending_idle ?_
      have enables := others _ (show Reg.PG_EVENT_EN p ≠ Reg.PG_EVENT p by simp only [Reg.PG_EVENT_EN, Reg.PG_EVENT]; omega) hen
      rw [flags, enables, ← hz, BitVec.and_assoc, BitVec.and_assoc, BitVec.and_comm (~~~v)]
  · have ha : Reg.PG_EVENT_EN p < 2 ^ 24 := by simp only [Reg.PG_EVENT_EN]; omega
    have hj : judged (Reg.PG_EVENT_EN p) = false := judged_header (by simp only [Reg.PG_EVENT_EN]; omega)
    have run : exec (.registerWrite rq (Reg.PG_EVENT_EN p) [(0, true)]) s =
        .next (s.effect fun c => c.wr (Reg.PG_EVENT_EN p) 0) := by
      rw [exec_registerWrite_takes 0 ha ht hj]
      refine congrArg _ (State.effect_congr ?_)
      rw [← Chip.regWrite_takes _ _ _ _ _ ht, Chip.regWrite_eventEn _ ht]
      simp
    obtain ⟨t, h, hq, e⟩ := exec_answers run hc
    refine ⟨t, h, hq, ⟨fun a hne => ?_, ?_⟩, ?_⟩
    · rw [e, Chip.settle_rd]
      exact Chip.rd_wr_ne _ _ (by simpa using hne)
    · rw [e]
      exact restSame_settle _ s.chip.out rfl
    · rw [e, srcPending_page _ hp]
      refine pagePending_idle ?_
      simp

end Sys2Proof.Proofs
end

section
/-!
SUPPORT. The Crier's own registers (R47, R53), the Reeve cores (R48 to R50) and the GPIO pins (R55, R56).
-/

namespace Sys2Proof.Machine

open Safety

/-! ### The commands as effects -/

theorem exec_srcCfgWrite (rq : Requester) (n : Nat) (v : Word) (s : State) :
    exec (.srcCfgWrite rq n v) s = s.run (.srcCfgWrite rq n v) fun c =>
      c.regWrite rq (Reg.CRIER_SRC_CFG n) v noVerdict := rfl

theorem exec_sgiSet (rq : Requester) (v : Word) (s : State) :
    exec (.sgiSet rq v) s = s.run (.sgiSet rq v) fun c => c.regWrite rq Reg.CRIER_SGI v noVerdict := rfl

theorem exec_interruptTake (n : Nat) (masked asleep : Bool) (s : State) :
    exec (.interruptTake n masked asleep) s = s.run (.interruptTake n masked asleep) fun c =>
      c.interruptTake n masked asleep := rfl

theorem exec_handlerEnd (n : Nat) (s : State) :
    exec (.handlerEnd n) s = s.run (.handlerEnd n) fun c => c.handlerEnd n := rfl

theorem exec_gpioEdgeAccept (pin : Nat) (samples : List Bool) (s : State) :
    exec (.gpioEdgeAccept pin samples) s = s.run (.gpioEdgeAccept pin samples) fun c =>
      c.each samples fun c b => c.gpioSample pin b := rfl

/-! ### Routing and software sources -/

/-- A bit that is cleared reads 0. -/
theorem bitAt_setBitAt_false (v n : Nat) : bitAt (setBitAt v n false) n = false := by
  cases h : bitAt v n with
  | false => simp [setBitAt, h]
  | true =>
    have odd : v / 2 ^ n % 2 = 1 := by simpa [bitAt] using h
    have less : (v - 2 ^ n) / 2 ^ n = v / 2 ^ n - 1 := by simpa using Nat.sub_mul_div v (2 ^ n) 1
    have hset : setBitAt v n false = v - 2 ^ n := by simp [setBitAt, h]
    rw [hset, bitAt, less, beq_eq_false_iff_ne]
    omega

/-- Rows that end before an offset do not hold it. -/
theorem rowAt_append_past {rows rest : List RegRow} {o : Nat}
    (h : ∀ r ∈ rows, r.off < o ∧ r.off + r.cnt * r.stride ≤ o) : rowAt (rows ++ rest) o = rowAt rest o := by
  refine (List.find?_append ..).trans ?_
  rw [List.find?_eq_none.2, Option.none_or, rowAt]
  intro r hr
  obtain ⟨before, ends⟩ := h r hr
  split
  next => simp [before.ne']
  next hs =>
    have past : r.cnt ≤ (o - r.off) / r.stride := (Nat.le_div_iff_mul_le (Nat.pos_of_ne_zero hs)).2 (by omega)
    simp [past.not_gt]

/-- The row of the routing registers. -/
def srcCfgRow : RegRow := ⟨0x400, 256, 0x4, .rw, 0x00000000, 0x8f3f030f, .plain⟩

theorem rowOf_srcCfg {n : Nat} (hn : n < 256) : rowOf (Reg.CRIER_SRC_CFG n) = some srcCfgRow := by
  have hp : Reg.CRIER_SRC_CFG n / 0x1000 = 2 := by simp only [Reg.CRIER_SRC_CFG]; omega
  have ho : Reg.CRIER_SRC_CFG n % 0x1000 = 0x400 + 4 * n := by simp only [Reg.CRIER_SRC_CFG]; omega
  have hc : classOf 2 = some (.crier, 0) := by decide
  have before : ∀ r ∈ rows_crier.dropLast, r.off < 0x400 ∧ r.off + r.cnt * r.stride ≤ 0x400 := by decide
  have split : rows_crier = rows_crier.dropLast ++ [srcCfgRow] := rfl
  have past : rowAt rows_crier (0x400 + 4 * n) = rowAt [srcCfgRow] (0x400 + 4 * n) := by
    rw [split]
    exact rowAt_append_past fun r hr => ⟨by have := before r hr; omega, by have := before r hr; omega⟩
  simp only [rowOf, hp, ho, hc, classRows]
  rw [if_neg (by omega), past]
  simp [rowAt, srcCfgRow, hn]

section Routing

variable {c : Chip} {rq : Requester} {n : Nat} {x : Verdict}

theorem Chip.crierHook_srcCfg (st : Chip) (v : Word) (hn : n < 256) :
    c.crierHook st rq (Reg.CRIER_SRC_CFG n) v = c.srcCfgWrite rq n v := by
  have hi : idxIn (Reg.CRIER_SRC_CFG n) (Reg.CRIER_SRC_CFG 0) 256 4 = some n := by
    simp only [idxIn, Reg.CRIER_SRC_CFG]
    rw [if_neg (by omega)]
    congr 1
    omega
  have h1 : Reg.CRIER_SRC_CFG n ≠ Reg.CRIER_FAB_HOLD := by simp only [Reg.CRIER_SRC_CFG, Reg.CRIER_FAB_HOLD]; omega
  have h2 : Reg.CRIER_SRC_CFG n ≠ Reg.CRIER_SGI := by simp only [Reg.CRIER_SRC_CFG, Reg.CRIER_SGI]; omega
  have h3 : Reg.CRIER_SRC_CFG n ≠ Reg.CRIER_MSIX_EOI := by simp only [Reg.CRIER_SRC_CFG, Reg.CRIER_MSIX_EOI]; omega
  simp only [Chip.crierHook, hi, h1, h2, h3, if_false]

/-- A routing register that takes a write stores the assigned bits, as its requester may (R53). -/
theorem Chip.regWrite_srcCfg (v : Word) (hn : n < 256) (h : takes c rq (Reg.CRIER_SRC_CFG n) = true) :
    c.regWrite rq (Reg.CRIER_SRC_CFG n) v x = c.srcCfgWrite rq n (v &&& srcCfgRow.wmask) := by
  have hp : Reg.CRIER_SRC_CFG n / 0x1000 = 2 := by simp only [Reg.CRIER_SRC_CFG]; omega
  have ho : ¬ Reg.CRIER_SRC_CFG n % 0x1000 < 0x40 := by simp only [Reg.CRIER_SRC_CFG]; omega
  have hz : c.roleZero (Reg.CRIER_SRC_CFG n) = false := c.roleZero_other _ (by simp [hp])
  have hc : classOf (Reg.CRIER_SRC_CFG n / 0x1000) = some (.crier, 0) := by rw [hp]; decide
  rw [c.regWrite_rw rq _ v x _ h (rowOf_srcCfg hn) ho hz rfl hc]
  exact Chip.crierHook_srcCfg _ _ hn

/-- A write of CRIER_SGI makes the software sources of its bits pending (R47). -/
theorem Chip.regWrite_sgi (v : Word) (h : takes c rq Reg.CRIER_SGI = true) :
    c.regWrite rq Reg.CRIER_SGI v x = c.sgiWrite (bitsOf v 7 0) := by
  obtain ⟨r, hr, hacc⟩ : ∃ r, rowOf Reg.CRIER_SGI = some r ∧ r.acc = .wo := Option.map_eq_some_iff.1 (by decide)
  have hc : classOf (Reg.CRIER_SGI / 0x1000) = some (.crier, 0) := by decide
  exact c.regWrite_wo rq _ v x r h hr (by decide) (c.roleZero_other _ (by decide)) hacc hc

/-- One bit of CRIER_SGI is one software source. -/
theorem Chip.sgiWrite_one {k : Nat} (hk : k < 8) :
    c.sgiWrite (bitsOf (BitVec.ofNat 32 (2 ^ k)) 7 0) = c.onFab fun f => { f with sgi := setBitAt f.sgi k true } := by
  have bits : ∀ j < 8, ∀ k < 8, bitAt (bitsOf (BitVec.ofNat 32 (2 ^ k)) 7 0) j = (j == k) := by decide
  have one : (List.range 8).filter (fun j => bitAt (bitsOf (BitVec.ofNat 32 (2 ^ k)) 7 0) j) = [k] := by
    rw [List.filter_congr fun j hj => bits j (List.mem_range.1 hj) k hk, List.filter_beq,
      List.count_eq_one_of_mem List.nodup_range (List.mem_range.2 hk), List.replicate_one]
  have only : ∀ s : Nat, (List.range 8).foldl (fun s j =>
      if bitAt (bitsOf (BitVec.ofNat 32 (2 ^ k)) 7 0) j then setBitAt s j true else s) s = setBitAt s k true := fun s => by
    rw [← List.foldl_filter, one]
    rfl
  simp only [Chip.sgiWrite, only]

/-- The software sources after a write of `w` to a source's routing register: clearing EN of a software source ends it. -/
def sgiRouted (n : Nat) (w : Word) (sgi : Nat) : Nat :=
  if 0xf8 ≤ n ∧ bitsOf w 31 31 = 0 then setBitAt sgi (n - 0xf8) false else sgi

/-- What a routing register takes of a word: CORE_EN is for the Reeve cores to write (R53). -/
def srcCfgWord (rq : Requester) (old v : Word) : Word :=
  match rq with
  | .core _ => v
  | _ => withBits v 3 0 (bitsOf old 3 0)

theorem srcCfgWord_other {old v : Word} (h : ∀ k, rq ≠ .core k) :
    srcCfgWord rq old v = withBits v 3 0 (bitsOf old 3 0) := by
  cases rq with
  | core k => exact absurd rfl (h k)
  | _ => rfl

/-- EN is every requester's to write. -/
theorem bitsOf_srcCfgWord (old v : Word) : bitsOf (srcCfgWord rq old v) 31 31 = bitsOf v 31 31 := by
  have other := bitsOf_withBits_other v 3 0 (bitsOf old 3 0) 31 31 (.inr (by decide))
  cases rq with
  | core k => rfl
  | _ => exact other

/-- A source that its routing register ends is pending no longer. -/
theorem Chip.sgiRouted_eq (d : Chip) (w : Word) :
    (if 0xf8 ≤ n ∧ bitsOf w 31 31 = 0 then d.onFab fun f => { f with sgi := setBitAt f.sgi (n - 0xf8) false } else d) =
      d.onFab fun f => { f with sgi := sgiRouted n w f.sgi } := by
  simp only [sgiRouted]
  split <;> rfl

/-- A write of a routing register changes it and, where it ends a software source, the pending ones. -/
theorem Chip.srcCfgWrite_eq (v : Word) :
    let w := srcCfgWord rq (c.rd (Reg.CRIER_SRC_CFG n)) v
    c.srcCfgWrite rq n v = (c.wr (Reg.CRIER_SRC_CFG n) w).onFab fun f => { f with sgi := sgiRouted n w f.sgi } := by
  cases rq <;> exact Chip.sgiRouted_eq _ _

theorem sgiRouted_below {w : Word} {sgi : Nat} (h : n < 0xf8) : sgiRouted n w sgi = sgi := if_neg (by omega)

theorem sgiRouted_ended {w : Word} {sgi : Nat} (h : 0xf8 ≤ n) (hw : bitsOf w 31 31 = 0) :
    bitAt (sgiRouted n w sgi) (n - 0xf8) = false := by
  rw [sgiRouted, if_pos ⟨h, hw⟩]
  exact bitAt_setBitAt_false _ _

/-- A bit that is not set reads 0. -/
theorem bitsOf_of_getLsbD_false {v : Word} {i : Nat} (h : v.getLsbD i = false) : bitsOf v i i = 0 := by
  refine Nat.eq_of_testBit_eq fun j => ?_
  rw [testBit_bitsOf, Nat.zero_testBit]
  by_cases hj : j = 0
  · subst hj; simpa using h
  · simp [hj]

end Routing

/-! ### Reeve cores -/

section Cores

variable {c : Chip} {n k : Nat}

/-- A core with no pending source takes nothing. -/
theorem Chip.coreTake_none (h : bestSource c (c.coreSources n) = none) : c.coreTake n = c := by simp only [Chip.coreTake, h]

/-- A core that may takes its best source: it wakes, and the source is on top of what it runs (R49). -/
theorem Chip.coreTake_takes (h : bestSource c (c.coreSources n) = some k) (hm : (c.core n).masked = false)
    (hp : c.preempts { c.core n with asleep := false } k = true) :
    c.coreTake n = (c.setCore n { c.core n with
      asleep := false, stack := (k, c.get (.CRIER_SRC_CFG_PRIO k)) :: (c.core n).stack }).ackSource k := by
  have may : (!(c.core n).masked && c.preempts { c.core n with asleep := false } k) = true := by rw [hp, hm]; rfl
  simp only [Chip.coreTake, h]
  exact if_pos may

/-- A core that may not take its best source wakes alone (R50). -/
theorem Chip.coreTake_wakes (h : bestSource c (c.coreSources n) = some k)
    (hm : (c.core n).masked = true ∨ c.preempts { c.core n with asleep := false } k = false) :
    c.coreTake n = c.setCore n { c.core n with asleep := false } := by
  have mayNot : ¬ (!(c.core n).masked && c.preempts { c.core n with asleep := false } k) = true := by
    rcases hm with hm | hm <;> simp [hm]
  simp only [Chip.coreTake, h]
  exact if_neg mayNot

/-- Taking a source below the software sources acknowledges nothing, taking a software source ends it. -/
theorem Chip.ackSource_eq (d : Chip) :
    d.ackSource k = if k < 0xf8 then d else d.onFab fun f => { f with sgi := setBitAt f.sgi (k - 0xf8) false } := by
  by_cases hk : k < 0xf8
  · rw [Chip.ackSource, if_neg (by omega), if_pos hk]
  · rw [Chip.ackSource, if_pos (by omega), if_neg hk]

end Cores

/-! ### GPIO pins -/

section Gpio

variable {c : Chip} {pin : Nat} {high : Bool} (hd : c.domOn 78 = true)

include hd

/-- A sample at the accepted level starts the run of new ones anew (R55). -/
theorem Chip.gpioSample_same (h : bitAt c.fab.gpio pin = high) :
    c.gpioSample pin high = c.onFab fun f => { f with gpioRun := listPut f.gpioRun pin 0 } := by
  simp [Chip.gpioSample, hd, h]

/-- The FILT-th sample in a row at the new level is accepted (R55). -/
theorem Chip.gpioSample_accepts (h : bitAt c.fab.gpio pin ≠ high)
    (hr : c.get (.CRIER_GPIO_CFG_FILT pin) ≤ listAt c.fab.gpioRun pin 0 + 1) :
    c.gpioSample pin high = c.gpioAccept pin high := by
  have hmax : max 1 (c.get (.CRIER_GPIO_CFG_FILT pin)) ≤ listAt c.fab.gpioRun pin 0 + 1 := by omega
  simp only [Chip.gpioSample, hd, h, hmax, Bool.true_eq_false, if_false, if_true]

/-- A sample at the new level before it lengthens the run (R55). -/
theorem Chip.gpioSample_lengthens (h : bitAt c.fab.gpio pin ≠ high)
    (hr : listAt c.fab.gpioRun pin 0 + 1 < c.get (.CRIER_GPIO_CFG_FILT pin)) :
    c.gpioSample pin high = c.onFab fun f => { f with gpioRun := listPut f.gpioRun pin (listAt c.fab.gpioRun pin 0 + 1) } := by
  have hmax : ¬ max 1 (c.get (.CRIER_GPIO_CFG_FILT pin)) ≤ listAt c.fab.gpioRun pin 0 + 1 := by omega
  simp only [Chip.gpioSample, hd, h, hmax, Bool.true_eq_false, if_false]

end Gpio

/-- An accepted level is the pin's, and an edge of the selected polarity is latched (R56). -/
theorem Chip.gpioAccept_eq (c : Chip) (pin : Nat) (high : Bool) :
    let d := c.onFab fun f => { f with gpio := setBitAt f.gpio pin high, gpioRun := listPut f.gpioRun pin 0 }
    c.gpioAccept pin high =
      if c.get (.CRIER_GPIO_CFG_TRIG pin) = (if high then 2 else 3) then
        d.setNat Reg.CRIER_GPIO_EDGE (setBitAt (d.nat Reg.CRIER_GPIO_EDGE) pin true)
      else d := rfl

end Sys2Proof.Machine
end

section
/-!
PROOF. Routing, the Reeve cores and the GPIO pins (R47 to R50, R53, R55, R56): the obligations O21 and O23.
-/

open Sys2Proof Sys2Proof.Machine Sys2Proof.Safety

namespace Sys2Proof.Proofs

/-- Settles O21: the write reaches the Crier's hook, which stores the word as its requester may and ends a software source whose EN
it clears. -/
theorem crierRoutingAndSoftwareSources : Obligations.CrierRoutingAndSoftwareSources := by
  unfold Obligations.CrierRoutingAndSoftwareSources
  intro s rq n v r hn hr
  obtain rfl := Option.some.inj ((rowOf_srcCfg hn).symm.trans hr)
  refine ⟨fun ht hc => ?_, fun k hk ht => ?_⟩
  · have run : exec (.srcCfgWrite rq n v) s = .next (s.effect fun c => c.srcCfgWrite rq n (v &&& srcCfgRow.wmask)) :=
      (exec_srcCfgWrite ..).trans (State.run_next (decide_eq_true hn) (Chip.regWrite_srcCfg v hn ht))
    simp only [Chip.srcCfgWrite_eq] at run
    obtain ⟨t, h, hq, e⟩ := exec_answers run hc
    have sgi : t.chip.fab.sgi =
        sgiRouted n (srcCfgWord rq (s.chip.rd (Reg.CRIER_SRC_CFG n)) (v &&& srcCfgRow.wmask)) s.chip.fab.sgi := by
      rw [e, Chip.settle_fab_sgi]
      rfl
    have stored : t.chip.rd (Reg.CRIER_SRC_CFG n) =
        srcCfgWord rq (s.chip.rd (Reg.CRIER_SRC_CFG n)) (v &&& srcCfgRow.wmask) := by
      rw [e, Chip.settle_rd]
      exact Chip.rd_wr_same ..
    refine ⟨t, h, hq, ?_, fun hlt => sgi.trans (sgiRouted_below hlt), ?_, fun ho => stored.trans (srcCfgWord_other ho),
      fun a ha => ?_, fun hf hen => ?_⟩
    · rw [sgi, e]
      exact restSame_settle _ s.chip.out rfl
    · rintro k rfl
      exact stored
    · rw [e, Chip.settle_rd]
      exact Chip.rd_wr_ne _ _ ha
    · rw [sgi]
      refine sgiRouted_ended hf ?_
      rw [bitsOf_srcCfgWord, bitsOf_and_bit _ _ _ rfl, bitsOf_of_getLsbD_false hen]
  · refine (exec_sgiSet ..).trans (State.run_next rfl ?_)
    exact (Chip.regWrite_sgi _ ht).trans (Chip.sgiWrite_one hk)

/-- Settles O23: the best source, the core's mask and what it runs decide what a core takes; the accepted level, the run of samples
and FILT what a sample does. -/
theorem coresTakeAndReturn : Obligations.CoresTakeAndReturn := by
  unfold Obligations.CoresTakeAndReturn
  intro s n m a hn set
  have take : ∀ {g : Chip → Chip}, (set s.chip).coreTake n = g s.chip →
      exec (.interruptTake n m a) s = .next (s.effect g) := fun h =>
    (exec_interruptTake ..).trans (State.run_next (decide_eq_true hn) h)
  have ends : ∀ {g : Chip → Chip}, s.chip.handlerEnd n = g s.chip → exec (.handlerEnd n) s = .next (s.effect g) := fun h =>
    (exec_handlerEnd ..).trans (State.run_next (decide_eq_true hn) h)
  refine ⟨fun hb => take (Chip.coreTake_none hb), fun k hb => ?_, fun x l hx => ends ?_, fun hx => ends ?_,
    fun pin high hpin hd => ?_⟩
  · intro woken
    refine ⟨fun hm hp => take ?_, fun hm => take (Chip.coreTake_wakes hb hm)⟩
    exact (Chip.coreTake_takes hb hm hp).trans (Chip.ackSource_eq _)
  · simp only [Chip.handlerEnd, hx]
  · simp only [Chip.handlerEnd, hx]
  · intro restart level filt run
    have sample : ∀ {g : Chip → Chip}, s.chip.gpioSample pin high = g s.chip →
        exec (.gpioEdgeAccept pin [high]) s = .next (s.effect g) := fun h =>
      (exec_gpioEdgeAccept ..).trans (State.run_next (decide_eq_true hpin) h)
    refine ⟨fun h => sample (Chip.gpioSample_same hd h), fun h => ⟨fun hr ht => sample ?_, fun hr ht => sample ?_,
      fun hr => sample (Chip.gpioSample_lengthens hd h hr)⟩, fun l => ?_⟩
    · rw [Chip.gpioSample_accepts hd h hr, Chip.gpioAccept_eq, if_pos ht]
      rfl
    · rw [Chip.gpioSample_accepts hd h hr, Chip.gpioAccept_eq, if_neg ht]
      rfl
    · exact (exec_gpioEdgeAccept ..).trans (State.run_next (decide_eq_true hpin) rfl)

end Sys2Proof.Proofs
end

section
/-!
SUPPORT. Page control, commits and the fabric hold (R33 to R39): the writes of PG_CTRL, PG_COMMIT and CRIER_FAB_HOLD, and what a
commit of a page that no chapter checks applies.
-/

namespace Sys2Proof.Machine

open Safety

/-! ### The commands as effects -/

theorem exec_pageEnable (rq : Requester) (p : Nat) (s : State) :
    exec (.pageEnable rq p) s = s.run (.pageEnable rq p) fun c => c.regWrite rq (Reg.PG_CTRL p) 1 noVerdict := rfl

theorem exec_pageDisable (rq : Requester) (p : Nat) (s : State) :
    exec (.pageDisable rq p) s = s.run (.pageDisable rq p) fun c => c.regWrite rq (Reg.PG_CTRL p) 0 noVerdict := rfl

theorem exec_pageSoftReset (rq : Requester) (p : Nat) (s : State) :
    exec (.pageSoftReset rq p) s = s.run (.pageSoftReset rq p) fun c => c.regWrite rq (Reg.PG_CTRL p) 2 noVerdict := rfl

theorem exec_drainComplete (p : Nat) (s : State) :
    exec (.drainComplete p) s = s.run (.drainComplete p) fun c => c.pageDrainDone p := rfl

theorem exec_softResetComplete (p : Nat) (s : State) :
    exec (.softResetComplete p) s = s.run (.softResetComplete p) fun c =>
      if c.flag (.PG_STATUS_SRST_BUSY p) then (c.elapse (us 2)).softResetDone p else c := rfl

theorem exec_pageCommit (rq : Requester) (p : Nat) (s : State) :
    exec (.pageCommit rq p) s = s.run (.pageCommit rq p) fun c => c.regWrite rq (Reg.PG_COMMIT p) 1 noVerdict := rfl

theorem exec_commitApply (p : Nat) (s : State) :
    exec (.commitApply p) s = s.run (.commitApply p) fun c => c.applyDue (c.pageDue p) := rfl

theorem exec_fabHold (rq : Requester) (atTick : Bool) (s : State) :
    exec (.fabHold rq atTick) s = s.run (.fabHold rq atTick) fun c =>
      c.regWrite rq Reg.CRIER_FAB_HOLD (holdWord true atTick) noVerdict := rfl

theorem exec_fabRelease (rq : Requester) (atTick : Bool) (s : State) :
    exec (.fabRelease rq atTick) s = s.run (.fabRelease rq atTick) fun c =>
      c.regWrite rq Reg.CRIER_FAB_HOLD (holdWord false atTick) noVerdict := rfl

theorem exec_fabReleaseApply (s : State) :
    exec .fabReleaseApply s = s.run .fabReleaseApply fun c => c.applyDue c.releaseDue := rfl

/-! ### Pages and flags apart -/

theorem within_false {p lo hi : Nat} (h : p < lo ∨ hi < p) : within p lo hi = false := by
  simp only [within, Bool.and_eq_false_iff, decide_eq_false_iff_not]
  omega

theorem within_iff {p lo hi : Nat} : within p lo hi = true ↔ lo ≤ p ∧ p ≤ hi := by
  simp only [within, Bool.and_eq_true, decide_eq_true_eq]

/-- Storing a field leaves every flag of another register. -/
theorem Chip.flag_put_ne (c : Chip) (f g : Fld) (n : Nat) (h : g.reg ≠ f.reg) : (c.put f n).flag g = c.flag g := by
  simp only [Chip.flag, Chip.get_put_other _ _ _ _ (.inl h)]

theorem Chip.enabled_put_ne (c : Chip) (f : Fld) (n p : Nat) (h : f.reg ≠ Reg.PG_STATUS p) :
    (c.put f n).enabled p = c.enabled p := Chip.flag_put_ne _ _ _ _ h.symm

/-! ### PG_CTRL -/

section Control

variable {c : Chip} {rq : Requester} {p : Nat} {x : Verdict}

theorem Chip.regWrite_ctrl (v : Word) (h : takes c rq (Reg.PG_CTRL p) = true) :
    c.regWrite rq (Reg.PG_CTRL p) v x = c.ctrlWrite rq p v := by
  obtain ⟨hp, ho⟩ := header_place (p := p) (show 0x08 < 0x1000 by decide)
  rw [Chip.regWrite_header v (by decide) h]
  simp [Chip.headerWrite, hp, ho]

/-- ENABLE = 1 starts a block whose domains are on and that does not run (R33, R390). -/
theorem Chip.pageEnable_starts (hd : (pageDomains p).all c.domOn = true) (he : c.enabled p = false) :
    c.pageEnable p = ((c.put (.PG_CTRL_ENABLE p) 1).pageStart p).domSync := by
  have idle : (c.put (.PG_CTRL_ENABLE p) 1).enabled p = false :=
    (Chip.enabled_put_ne _ _ _ _ (by simp only [Reg.PG_CTRL, Reg.PG_STATUS]; omega)).trans he
  have on : (pageDomains p).all (c.put (.PG_CTRL_ENABLE p) 1).domOn = true := hd
  simp [Chip.pageEnable, idle, on]

/-- ENABLE = 1 asks for the domains that are off first (R390). -/
theorem Chip.pageEnable_asks (hd : (pageDomains p).all c.domOn = false) :
    c.pageEnable p = (c.put (.PG_CTRL_ENABLE p) 1).domSync := by
  have off : (pageDomains p).all (c.put (.PG_CTRL_ENABLE p) 1).domOn = false := hd
  simp [Chip.pageEnable, off]

/-- ENABLE = 0 stops a running block (R33). -/
theorem Chip.pageDisable_stops (he : c.enabled p = true) :
    c.pageDisable p = (c.put (.PG_CTRL_ENABLE p) 0).pageStop p := by
  have runs : (c.put (.PG_CTRL_ENABLE p) 0).enabled p = true :=
    (Chip.enabled_put_ne _ _ _ _ (by simp only [Reg.PG_CTRL, Reg.PG_STATUS]; omega)).trans he
  simp [Chip.pageDisable, runs]

theorem Chip.ctrlWrite_enable : c.ctrlWrite rq p 1 = c.pageEnable p := rfl

theorem Chip.ctrlWrite_softReset :
    c.ctrlWrite rq p 2 = (if p = 2 ∧ c.flag .CRIER_FAB_HOLD_HOLD = true then c.fabRelease none else c).softReset p := rfl

theorem Chip.ctrlWrite_zero :
    c.ctrlWrite rq p 0 =
      if !c.flag (.PG_CTRL_ENABLE p) then c
      else if c.keepsOn rq p then c.reject (Reg.PG_CTRL p)
      else c.pageDisable p := rfl

/-- ENABLE = 0 stops a page that may be stopped. -/
theorem Chip.ctrlWrite_disable (he : c.flag (.PG_CTRL_ENABLE p) = true) (hk : c.keepsOn rq p = false) :
    c.ctrlWrite rq p 0 = c.pageDisable p := by
  rw [Chip.ctrlWrite_zero]
  simp [he, hk]

/-- ENABLE = 0 of a page that must stay on is rejected. -/
theorem Chip.ctrlWrite_keepsOn (he : c.flag (.PG_CTRL_ENABLE p) = true) (hk : c.keepsOn rq p = true) :
    c.ctrlWrite rq p 0 = c.reject (Reg.PG_CTRL p) := by
  rw [Chip.ctrlWrite_zero]
  simp [he, hk]

/-- A drained block's ENABLED reads 0 (R33). -/
theorem Chip.enabled_pageDrained : (c.pageDrained p).enabled p = false := by
  have off : (c.put (.PG_STATUS_ENABLED p) 0).enabled p = false := by
    rw [Chip.enabled, Chip.flag, Chip.get_put_same _ _ _ (show 1 < 32 by decide)]
    rfl
  simp only [Chip.pageDrained]
  split
  next h =>
    obtain ⟨lo, hi⟩ := within_iff.1 h
    exact (Chip.enabled_put_ne _ _ _ _ (by simp only [Reg.PG_STATUS, Reg.GRAN_CH_STAT]; omega)).trans off
  split
  · exact off
  · exact off

end Control

/-! ### PG_COMMIT -/

section Commit

variable {c : Chip} {rq : Requester} {p : Nat} {x : Verdict}

theorem Chip.regWrite_commit (h : takes c rq (Reg.PG_COMMIT p) = true) :
    c.regWrite rq (Reg.PG_COMMIT p) 1 x = c.commitWrite p := by
  obtain ⟨hp, ho⟩ := header_place (p := p) (show 0x0c < 0x1000 by decide)
  rw [Chip.regWrite_header 1 (by decide) h]
  simp only [Chip.headerWrite, hp, ho]
  rfl

/-- The part once a page's commit has joined those that wait (R35). -/
def Chip.joined (c : Chip) (p : Nat) : Chip :=
  (c.put (.PG_COMMIT_PENDING p) 1).onFab fun f =>
    { f with commits := f.commits ++ [⟨p, c.age, c.flag .CRIER_FAB_HOLD_HOLD, none⟩] }

/-- A COMMIT while one is PENDING is ignored (R36). -/
theorem Chip.commitWrite_pending (h : c.flag (.PG_COMMIT_PENDING p) = true) : c.commitWrite p = c := by
  simp [Chip.commitWrite, h]

/-- A COMMIT whose shadows pass the check made at the write joins those that wait (R35, R179). -/
theorem Chip.commitWrite_joins (h : c.flag (.PG_COMMIT_PENDING p) = false) (h75 : p ≠ 0x75)
    (hk : checkedAtWrite p = true → c.commitCause p = 0) : c.commitWrite p = (c.joined p).applyUntimed := by
  have passes : (if checkedAtWrite p then c.commitCause p else 0) = 0 := by
    split
    · exact hk ‹_›
    · rfl
  simp [Chip.commitWrite, h, h75, passes, Chip.joined]

/-- A COMMIT that the check made at the write refuses (R179). -/
theorem Chip.commitWrite_refuses (h : c.flag (.PG_COMMIT_PENDING p) = false) (h75 : p ≠ 0x75)
    (hw : checkedAtWrite p = true) (hk : c.commitCause p ≠ 0) : c.commitWrite p = c.refuseCommit p (c.commitCause p) := by
  simp [Chip.commitWrite, h, h75, hw, hk]

/-- What is due at an open tick is done with the tick's work. -/
theorem Chip.tickClose_open (h : c.bell.open_ = true) :
    c.tickClose = (c.modeSwitch.applyTick.tickWork c.lastIndex).onBell fun b => { b with open_ := false } := by
  simp [Chip.tickClose, h]

/-- A held commit is not due (R39). -/
theorem Chip.commitDue_held {y : Commit} (h : y.held = true) : c.commitDue y = false := by
  simp only [Chip.commitDue]
  split
  · rfl
  · simp [h]

end Commit

/-! ### A commit that applies at once -/

section AtOnce

variable {c : Chip} {p : Nat}

/-- A page whose settings no chapter checks at a commit: the Bellringer, the pixel engine, the correction memory, a quad. -/
def uncheckedPage (p : Nat) : Prop := p = 3 ∨ p = 0xa0 ∨ p = 0xa1 ∨ (0x10 ≤ p ∧ p ≤ 0x1b)

/-- Whether frame ticks are generated depends on the Bellringer, the domains and registers above the header. -/
theorem Chip.ticking_congr {d : Chip} (h : ∀ a, 0x40 ≤ a % 0x1000 → d.rd a = c.rd a) (hb : d.bell = c.bell)
    (hp : d.pwr = c.pwr) : d.ticking = c.ticking := by
  simp (disch := decide) only [Chip.ticking, Chip.tickSource, Chip.syncTicks, Chip.domOn, Chip.servo, Chip.flag,
    Chip.rateNum, Chip.rateDen, Chip.epoch, Chip.timeOf, Chip.isTile, Chip.nat, Chip.get, hb, hp, h]
  rfl

/-- A commit that neither waits for a tick nor is held applies alone. -/
theorem Chip.applyUntimed_one {y : Commit} (h : c.fab.commits = [y]) (hh : y.held = false) (hr : y.released = none)
    (he : c.enabled y.page = false ∨ c.ticking = false) : c.applyUntimed = c.applyPages [y.page] none := by
  have now : (!y.held && y.released.isNone && (!c.enabled y.page || !c.ticking)) = true := by
    rcases he with he | he <;> simp [hh, hr, he]
  simp [Chip.applyUntimed, h, now]

/-- Outside Loom's layers one page's commit is no group's (R184). -/
theorem Chip.applyPages_one (h : within p 0x51 0x60 = false) : c.applyPages [p] none = c.applyPage [p] none p := by
  have alone : c.groupRefused [p] none = [] := by
    simp only [Chip.groupRefused, Chip.causesIn]
    split
    · rfl
    · simp [h]
  simp [Chip.applyPages, insertNat, alone]

/-- A store with the entries of another put in where `own` holds reads as the other there, and as itself elsewhere. -/
theorem spGet_overlay {α : Type} [DecidableEq α] (d : Nat → α) (own : Nat → Bool) (m l : List (Nat × α)) (b : Nat) :
    spGet d (spSetAll d (spKeep (fun a => !own a) m) (spKeep own l)) b = if own b then spGet d l b else spGet d m b := by
  have absent : (spKeep own l).any (fun q => q.1 == b) = false → spGet d (spKeep own l) b = d b := fun h => by
    have other : ∀ q ∈ spKeep own l, q.1 ≠ b := by simpa using h
    simpa using spGet_append_of_not_mem d (spKeep own l) [] b other
  rw [spGet_spSetAll, spGet_spKeep d (fun a => !own a)]
  cases hb : own b with
  | true =>
    have entry := spGet_spKeep d own l b
    rw [hb] at entry
    cases ha : (spKeep own l).any fun q => q.1 == b with
    | true => exact entry
    | false => exact (absent ha).symm.trans entry
  | false =>
    have none : (spKeep own l).any (fun q => q.1 == b) = false := by
      refine List.any_eq_false.2 fun q hq e => ?_
      obtain rfl := beq_iff_eq.1 e
      exact absurd ((mem_spKeep _ _ _).1 hq).2 (by simp [hb])
    rw [none]
    rfl

/-- Every shadow of the page is in force, and every other register as it was (R35). -/
theorem Chip.rd_applyShadows (c : Chip) (p a : Nat) :
    (c.applyShadows p).rd a = if a / 0x1000 = p ∧ isRws a = true then c.rdS a else c.rd a := by
  have same : ∀ a, (a / 0x1000 != p || !isRws a) = !(a / 0x1000 == p && isRws a) := fun a => by simp [bne]
  simp only [Chip.rd, Chip.rdS, Chip.applyShadows, same, spGet_overlay, Bool.and_eq_true, beq_iff_eq]

section Unchecked

variable (h : uncheckedPage p)

include h

theorem within_layers_unchecked : within p 0x51 0x60 = false := by
  simp only [uncheckedPage] at h
  exact within_false (by omega)

theorem Chip.commitCause_unchecked (c : Chip) : c.commitCause p = 0 := by
  simp only [uncheckedPage] at h
  have h1 : within p 0x42 0x45 = false := within_false (by omega)
  have h2 : within p 0xa2 0xa5 = false := within_false (by omega)
  have h3 : p ≠ 0x50 ∧ p ≠ 0x68 ∧ p ≠ 0xa6 := by omega
  simp [Chip.commitCause, h1, h2, h3, within_layers_unchecked h]

theorem Chip.keepTiming_unchecked (c d : Chip) (due : List Nat) : c.keepTiming due p d = d := by
  simp only [uncheckedPage] at h
  have h1 : within p 0x20 0x2f = false := within_false (by omega)
  have h2 : p ≠ 0x30 := by omega
  simp [Chip.keepTiming, h1, h2]

/-- What follows from the page's applied settings is at most what its lanes' drivers send. -/
theorem Chip.pageApplied_unchecked (c b : Chip) (n : Option Nat) : ∃ out, c.pageApplied b p n = { c with out := out } := by
  have hl := within_layers_unchecked h
  simp only [uncheckedPage] at h
  have h1 : within p 0x42 0x45 = false := within_false (by omega)
  have h2 : within p 0xa2 0xa5 = false := within_false (by omega)
  have h3 : within p 0x20 0x2f = false := within_false (by omega)
  have h4 : p ≠ 0x68 ∧ p ≠ 0xa6 ∧ p ≠ 0x30 := by omega
  simp only [Chip.pageApplied, hl, h1, h2, h3, h4, Bool.false_eq_true, if_false, decide_false, Bool.and_false]
  split
  · refine Chip.each_induct (fun d => ∃ out, d = { c with out := out }) _ _ ?_ c ⟨c.out, rfl⟩
    rintro _ k ⟨out, rfl⟩
    exact ⟨_, rfl⟩
  · exact ⟨c.out, rfl⟩

theorem Chip.commitGone_unchecked (c : Chip) :
    c.commitGone p = (c.put (.PG_COMMIT_PENDING p) 0).onFab fun f =>
      { f with commits := f.commits.filter fun y => y.page != p } := by
  simp [Chip.commitGone, within_layers_unchecked h]

end Unchecked

/-- The part once a page's commit has applied at once: the shadows in force, none waiting, APPLIED_TICK recorded (R37). -/
def Chip.appliedAtOnce (c : Chip) (p : Nat) : Chip :=
  (((c.joined p).applyShadows p).commitGone p).put (.PG_COMMIT_APPLIED_TICK p) (c.lastIndex % 65536)

/-- A COMMIT of an unchecked page applies at once where it need not wait for a tick (R37). -/
theorem Chip.commitWrite_atOnce (h : uncheckedPage p) (hp : c.flag (.PG_COMMIT_PENDING p) = false) (hc : c.fab.commits = [])
    (hh : c.flag .CRIER_FAB_HOLD_HOLD = false) (he : c.enabled p = false ∨ c.ticking = false) :
    ∃ out, c.commitWrite p = { c.appliedAtOnce p with out := out } := by
  have h75 : p ≠ 0x75 := by simp only [uncheckedPage] at h; omega
  have waits : (c.joined p).fab.commits = [⟨p, c.age, false, none⟩] := by simp [Chip.joined, hc, hh]
  have free : (c.joined p).enabled p = false ∨ (c.joined p).ticking = false := by
    refine he.imp (fun h => ?_) fun h => ?_
    · exact (Chip.enabled_put_ne _ _ _ _ (by simp only [Reg.PG_COMMIT, Reg.PG_STATUS]; omega)).trans h
    · have same : (c.joined p).ticking = c.ticking :=
        Chip.ticking_congr (fun a ha => Chip.rd_put_ne _ _ _ (by simp only [Reg.PG_COMMIT]; omega)) rfl rfl
      exact same.trans h
  obtain ⟨out, e⟩ := Chip.pageApplied_unchecked h (c.appliedAtOnce p) (c.joined p) none
  refine ⟨out, e ▸ ?_⟩
  rw [Chip.commitWrite_joins hp h75 fun _ => Chip.commitCause_unchecked h c, Chip.applyUntimed_one waits rfl rfl free,
    Chip.applyPages_one (within_layers_unchecked h)]
  simp only [Chip.applyPage, Chip.commitCause_unchecked h, Chip.keepTiming_unchecked h]
  rfl

/-- Of the rest of the part a commit that applies at once leaves everything but registers. -/
theorem Chip.appliedAtOnce_frame (h : uncheckedPage p) (hc : c.fab.commits = []) :
    c.appliedAtOnce p = { c with regs := (c.appliedAtOnce p).regs } := by
  have gone : ((c.joined p).fab.commits.filter fun y => y.page != p) = c.fab.commits := by simp [Chip.joined, hc]
  have fab : (c.appliedAtOnce p).fab = c.fab := by
    show _ = { c.fab with commits := c.fab.commits }
    rw [← gone, Chip.appliedAtOnce, Chip.commitGone_unchecked h]
    rfl
  have rest : c.appliedAtOnce p = { c with regs := (c.appliedAtOnce p).regs, fab := (c.appliedAtOnce p).fab } := by
    rw [Chip.appliedAtOnce, Chip.commitGone_unchecked h]
    rfl
  exact rest.trans (by rw [fab])

/-- The registers after a commit that applied at once, but for PG_COMMIT of the page. -/
theorem Chip.rd_appliedAtOnce (h : uncheckedPage p) {a : Nat} (ha : a ≠ Reg.PG_COMMIT p) :
    (c.appliedAtOnce p).rd a = if a / 0x1000 = p ∧ isRws a = true then c.rdS a else c.rd a := by
  have before : (c.joined p).rd a = c.rd a := Chip.rd_put_ne _ _ _ ha
  rw [Chip.appliedAtOnce, Chip.rd_put_ne _ _ _ ha, Chip.commitGone_unchecked h, ← before]
  exact (Chip.rd_put_ne _ _ _ ha).trans (Chip.rd_applyShadows _ _ _)

/-- After a commit that applied at once none is PENDING. -/
theorem Chip.pending_appliedAtOnce (h : uncheckedPage p) : (c.appliedAtOnce p).flag (.PG_COMMIT_PENDING p) = false := by
  rw [Chip.appliedAtOnce, Chip.flag, Chip.get_put_other _ _ _ _ (.inr (.inl (show 0 < 16 by decide))),
    Chip.commitGone_unchecked h]
  exact congrArg (· == 1) (Chip.get_put_same _ _ _ (show 0 < 32 by decide))

/-- APPLIED_TICK names the last tick executed (R37). -/
theorem Chip.appliedTick_appliedAtOnce : (c.appliedAtOnce p).get (.PG_COMMIT_APPLIED_TICK p) = c.lastIndex % 65536 :=
  (Chip.get_put_same _ _ _ (show 31 < 32 by decide)).trans (Nat.mod_mod ..)


end AtOnce

/-! ### CRIER_FAB_HOLD -/

section Hold

variable {c : Chip} {rq : Requester} {x : Verdict}

theorem Chip.regWrite_fabHold (v : Word) (h : takes c rq Reg.CRIER_FAB_HOLD = true) :
    c.regWrite rq Reg.CRIER_FAB_HOLD v x = c.fabHoldWrite (v &&& 3) := by
  obtain ⟨r, hr, hacc, hm⟩ : ∃ r, rowOf Reg.CRIER_FAB_HOLD = some r ∧ r.acc = .rw ∧ r.wmask = 3 := ⟨_, by rfl, rfl, rfl⟩
  have hc : classOf (Reg.CRIER_FAB_HOLD / 0x1000) = some (.crier, 0) := by decide
  rw [c.regWrite_rw rq _ v x r h hr (by decide) (c.roleZero_other _ (by decide)) hacc hc, hm]
  rfl

/-- A write of HOLD = 1, or with no hold on, stores its bits alone (R39). -/
theorem Chip.fabHoldWrite_stores {v : Word} (h : v.getLsbD 0 = true ∨ c.flag .CRIER_FAB_HOLD_HOLD = false) :
    c.fabHoldWrite v = c.wr Reg.CRIER_FAB_HOLD (v &&& 3) := by
  rcases h with h | h <;> simp [Chip.fabHoldWrite, h]

/-- The named tick is not changed by a write of HOLD. -/
theorem Chip.relTickReg_wr_hold (w : Word) : (c.wr Reg.CRIER_FAB_HOLD w).relTickReg = c.relTickReg := by
  simp only [Chip.relTickReg, Chip.pair, Chip.nat]
  rw [Chip.rd_wr_ne _ _ (by decide), Chip.rd_wr_ne _ _ (by decide)]

/-- A write of HOLD = 0 while the hold is on releases what is held, for the next tick or the named one (R39). -/
theorem Chip.fabHoldWrite_releases {v : Word} (h0 : v.getLsbD 0 = false) (h : c.flag .CRIER_FAB_HOLD_HOLD = true) :
    c.fabHoldWrite v =
      (c.wr Reg.CRIER_FAB_HOLD (v &&& 3)).fabRelease (if v.getLsbD 1 then some c.relTickReg else none) := by
  rw [← c.relTickReg_wr_hold (v &&& 3)]
  refine if_pos ?_
  rw [h, h0]
  rfl

end Hold

end Sys2Proof.Machine
end

section
/-!
PROOF. Pages that start and stop, commits and the fabric hold (R33 to R39, R390 to R395): the obligations O12, O14, O15 and O16.
-/

open Sys2Proof Sys2Proof.Machine Sys2Proof.Safety

namespace Sys2Proof.Proofs

/-- Settles O12: each command is one write of PG_CTRL, or the end of a drain or of a soft reset whose conditions hold. -/
theorem pagesStartStopAndDrain : Obligations.PagesStartStopAndDrain := by
  unfold Obligations.PagesStartStopAndDrain
  intro s rq p hp
  have hwf : decide (p < 4096) = true := decide_eq_true hp
  refine ⟨fun ht => ⟨fun hd he => ?_, fun hd => ?_, fun he hk hr => ?_, fun he hk => ?_, ?_⟩, fun he hc hd => ⟨?_, ?_⟩,
    fun hb => ?_⟩
  · refine (exec_pageEnable ..).trans (State.run_next hwf ((Chip.regWrite_ctrl 1 ht).trans ?_))
    exact Chip.ctrlWrite_enable.trans (Chip.pageEnable_starts hd he)
  · refine (exec_pageEnable ..).trans (State.run_next hwf ((Chip.regWrite_ctrl 1 ht).trans ?_))
    exact Chip.ctrlWrite_enable.trans (Chip.pageEnable_asks hd)
  · refine (exec_pageDisable ..).trans (State.run_next hwf ((Chip.regWrite_ctrl 0 ht).trans ?_))
    exact (Chip.ctrlWrite_disable he hk).trans (Chip.pageDisable_stops hr)
  · exact (exec_pageDisable ..).trans (State.run_next hwf ((Chip.regWrite_ctrl 0 ht).trans (Chip.ctrlWrite_keepsOn he hk)))
  · exact (exec_pageSoftReset ..).trans (State.run_next hwf ((Chip.regWrite_ctrl 2 ht).trans Chip.ctrlWrite_softReset))
  · exact (exec_drainComplete ..).trans (State.run_next hwf (if_pos (by simp [he, hc, hd])))
  · exact Chip.enabled_pageDrained
  · exact (exec_softResetComplete ..).trans (State.run_next hwf (if_pos hb))

/-- Settles O14: PENDING and the check made at the write decide what a COMMIT does, and the commit that falls due closes its tick. -/
theorem commitWaits : Obligations.CommitWaits := by
  unfold Obligations.CommitWaits
  intro s rq p hp
  have hwf : decide (p < 4096) = true := decide_eq_true hp
  refine ⟨fun ht => ?_, fun hd ho => ?_⟩
  · have run : ∀ {g : Chip → Chip}, s.chip.commitWrite p = g s.chip → exec (.pageCommit rq p) s = .next (s.effect g) :=
      fun h => (exec_pageCommit ..).trans (State.run_next hwf ((Chip.regWrite_commit ht).trans h))
    exact ⟨fun h => run (Chip.commitWrite_pending h), fun h h75 hk => run (Chip.commitWrite_joins h h75 hk),
      fun h h75 hw hk => run (Chip.commitWrite_refuses h h75 hw hk)⟩
  · exact (exec_commitApply ..).trans (State.run_next hwf ((if_pos hd).trans (Chip.tickClose_open ho)))

/-- Settles O15: the commit applies in the write itself, so that none waits when the Crier's work follows. -/
theorem commitAppliesAtOnceWhenDisabled : Obligations.CommitAppliesAtOnceWhenDisabled := by
  unfold Obligations.CommitAppliesAtOnceWhenDisabled
  intro s rq p h ht hp hc hh he
  have hwf : decide (p < 4096) = true := decide_eq_true (by omega)
  obtain ⟨out, write⟩ := Chip.commitWrite_atOnce h hp hc hh he
  have run : exec (.pageCommit rq p) s = .next (s.effect fun c => { c.appliedAtOnce p with out := out }) :=
    (exec_pageCommit ..).trans (State.run_next hwf ((Chip.regWrite_commit ht).trans write))
  have frame := Chip.appliedAtOnce_frame h hc
  obtain ⟨t, e, hq, ht⟩ := exec_answers run (by rw [frame]; exact hc)
  have rd : ∀ a, t.chip.rd a = (s.chip.appliedAtOnce p).rd a := fun a => by
    rw [ht, Chip.settle_rd]
    rfl
  have get : ∀ f, t.chip.get f = (s.chip.appliedAtOnce p).get f := fun f => by simp only [Chip.get, rd]
  refine ⟨t, e, hq, ?_, fun a ha hw => ?_, ?_, (get _).trans Chip.appliedTick_appliedAtOnce, fun a ha hne => ?_⟩
  · rw [ht]
    exact restSame_settle (s.chip.appliedAtOnce p).regs out (by rw [frame])
  · have above : a ≠ Reg.PG_COMMIT p := by
      rintro rfl
      rw [isRws, rowOf_header (by simp only [Reg.PG_COMMIT]; omega)] at hw
      exact nomatch hw
    rw [rd, Chip.rd_appliedAtOnce h above, if_pos ⟨ha, hw⟩]
  · rw [Chip.flag, get]
    exact Chip.pending_appliedAtOnce h
  · rw [rd, Chip.rd_appliedAtOnce h hne, if_neg]
    rintro ⟨hp, hw⟩
    rcases ha with ha | ha
    · exact ha hp
    · exact absurd hw (by simp [ha])

/-- Settles O16: HOLD before the write and the word's bits decide what a write of CRIER_FAB_HOLD does. -/
theorem fabricHoldGroupsCommits : Obligations.FabricHoldGroupsCommits := by
  unfold Obligations.FabricHoldGroupsCommits
  intro s rq atTick
  refine ⟨fun ht => ⟨?_, fun hh => ?_, fun hh => ?_⟩, fun hd => ?_, fun x hx => Chip.commitDue_held hx⟩
  · refine (exec_fabHold ..).trans (State.run_next rfl ((Chip.regWrite_fabHold _ ht).trans ?_))
    cases atTick <;> exact Chip.fabHoldWrite_stores (.inl rfl)
  · refine (exec_fabRelease ..).trans (State.run_next rfl ((Chip.regWrite_fabHold _ ht).trans ?_))
    cases atTick <;> exact Chip.fabHoldWrite_stores (.inr hh)
  · refine (exec_fabRelease ..).trans (State.run_next rfl ((Chip.regWrite_fabHold _ ht).trans ?_))
    cases atTick <;> exact Chip.fabHoldWrite_releases rfl hh
  · exact (exec_fabReleaseApply s).trans (State.run_next rfl (if_pos hd))

end Sys2Proof.Proofs
end

section
/-!
SUPPORT. A soft reset of a page (R34, R447): what it clears, and what is shown again from what stays.
-/

namespace Sys2Proof.Machine

open Safety

/-! ### What is cleared -/

/-- The part with a page's registers, shadows and commits cleared, and SRST_BUSY and SRST set (R34). -/
def Chip.pageCleared (c : Chip) (p : Nat) : Chip :=
  let c := { c with regs := spKeep (softKept p) c.regs, shadow := spKeep (fun a => a / 0x1000 != p) c.shadow }
  let c := (c.put (.PG_COMMIT_PENDING p) 0).onFab fun f => { f with commits := f.commits.filter fun x => x.page != p }
  (c.put (.PG_STATUS_SRST_BUSY p) 1).put (.PG_CTRL_SRST p) 1

/-- The part with what stays of a page's block shown again: the front buffer and the slice, curves asked for anew, the fused
address, an open picture failed, the Cavas engine's and the mode switch's state. -/
def Chip.shownAgain (c : Chip) (p front sl wtf st : Nat) (open_ : Bool) : Chip :=
  let c := if p = 0xa0 then (c.put .NIMBUS_STAT_FRONT front).setSlice sl else c
  let c := c.when (c.isSender && p == 0x68 && c.get .SCAN_CODE_WTF != wtf) Chip.calCurves
  let c := if within p 0x40 0x41 then c.showMac (p - 0x40) else c
  let c := if open_ then c.sliceFail 7 else c
  let c := if p = 0xc0 then c.updShow else c
  if p = 0 then (if st = 3 then c.put .SYS_MODE_STAT_STATE 3 else c).sysReset st else c

/-- The part with a page's block stopped and reset, before its registers are. -/
def Chip.blockStopped (c : Chip) (p : Nat) : Chip := (if c.enabled p then c.pageStop p else c).blockReset p

/-- A soft reset stops and resets the block, clears the page, and shows again what stays. -/
theorem Chip.softReset_eq (c : Chip) (p : Nat) :
    c.softReset p = ((c.blockStopped p).pageCleared p).shownAgain p (c.get .NIMBUS_STAT_FRONT) c.slice
      (c.get .SCAN_CODE_WTF) (c.get .SYS_MODE_STAT_STATE) (within p 0xa0 0xa1 && c.nim.open_ && decide (c.slice < 4)) := rfl

section Cleared

variable (c : Chip) {p a : Nat}

/-- Every register of the page that the reset does not keep is at its reset value, but for PG_CTRL and PG_STATUS (R34). -/
theorem Chip.rd_pageCleared (hk : softKept p a = false) (hc : a ≠ Reg.PG_CTRL p) (hs : a ≠ Reg.PG_STATUS p) :
    (c.pageCleared p).rd a = regReset a := by
  have hm : a ≠ Reg.PG_COMMIT p := by
    rintro rfl
    have ho : Reg.PG_COMMIT p % 0x1000 = 0xc := by simp only [Reg.PG_COMMIT]; omega
    simp [softKept, ho] at hk
  rw [Chip.pageCleared, Chip.rd_put_ne _ _ _ hc, Chip.rd_put_ne _ _ _ hs]
  refine (Chip.rd_put_ne _ _ _ hm).trans ((spGet_spKeep ..).trans ?_)
  rw [hk]
  rfl

/-- Every shadow of the page is at its reset value (R34). -/
theorem Chip.rdS_pageCleared (ha : a / 0x1000 = p) : (c.pageCleared p).rdS a = regReset a := by
  refine (spGet_spKeep ..).trans ?_
  simp [ha]

theorem Chip.srstBusy_pageCleared : (c.pageCleared p).flag (.PG_STATUS_SRST_BUSY p) = true := by
  rw [Chip.pageCleared, Chip.flag_put_ne _ _ _ _ (by simp only [Reg.PG_CTRL, Reg.PG_STATUS]; omega)]
  exact congrArg (· == 1) (Chip.get_put_same _ _ _ (show 2 < 32 by decide))

/-- No commit of the page waits any more (R34). -/
theorem Chip.commits_pageCleared {y : Commit} (h : y ∈ (c.pageCleared p).fab.commits) : y.page ≠ p := by
  simpa using (List.mem_filter.1 h).2

end Cleared

/-! ### What is shown again -/

/-- The registers that are shown again after a soft reset. -/
def shownRegs : List Nat :=
  [Reg.SYS_MODE_STAT, Reg.NIMBUS_STAT, Reg.UPDATE_DL_STAT, Reg.UPDATE_CFG_GEN, Reg.UPDATE_ACT_STAT, Reg.UPDATE_T_IMAGE,
    Reg.ETH_MAC_LO 0, Reg.ETH_MAC_HI 0, Reg.ETH_MAC_LO 1, Reg.ETH_MAC_HI 1]

/-- Two parts that agree on every register not shown again, on the shadows, the fabric's part and the mode switch. -/
def sameButShown (c d : Chip) : Prop :=
  (∀ a, a ∉ shownRegs → d.rd a = c.rd a) ∧ d.shadow = c.shadow ∧ d.fab = c.fab ∧ d.switch = c.switch

theorem sameButShown.refl (c : Chip) : sameButShown c c := ⟨fun _ _ => rfl, rfl, rfl, rfl⟩

theorem sameButShown.switch {c d : Chip} (h : sameButShown c d) : d.switch = c.switch := by
  obtain ⟨-, -, -, hw⟩ := h
  exact hw

theorem sameButShown.trans {c d e : Chip} (h : sameButShown c d) (k : sameButShown d e) : sameButShown c e := by
  obtain ⟨hr, hs, hf, hw⟩ := h
  obtain ⟨kr, ks, kf, kw⟩ := k
  exact ⟨fun a ha => (kr a ha).trans (hr a ha), ks.trans hs, kf.trans hf, kw.trans hw⟩

theorem sameButShown_ite {c d e : Chip} {q : Prop} [Decidable q] (h : q → sameButShown c d) (k : ¬q → sameButShown c e) :
    sameButShown c (if q then d else e) := by
  split
  · exact h ‹_›
  · exact k ‹_›

theorem sameButShown_wr (c : Chip) {a : Nat} (v : Word) (h : a ∈ shownRegs) : sameButShown c (c.wr a v) :=
  ⟨fun b hb => Chip.rd_wr_ne _ _ (by rintro rfl; exact hb h), rfl, rfl, rfl⟩

theorem sameButShown_put (c : Chip) {f : Fld} (n : Nat) (h : f.reg ∈ shownRegs) : sameButShown c (c.put f n) :=
  sameButShown_wr c _ h

theorem sameButShown_setNat (c : Chip) {a : Nat} (n : Nat) (h : a ∈ shownRegs) : sameButShown c (c.setNat a n) :=
  sameButShown_wr c _ h

theorem sameButShown_onUpd (c : Chip) (f : Upd → Upd) : sameButShown c (c.onUpd f) := ⟨fun _ _ => rfl, rfl, rfl, rfl⟩

theorem sameButShown_showHeld (c : Chip) : sameButShown c c.showHeld :=
  sameButShown_put c (f := .UPDATE_DL_STAT_HELD) _ (by decide)

/-- A command to a tile waits in the Well and at its port alone. -/
theorem sameButShown_sendFw (c : Chip) (n amode dest op addr arg : Nat) (data : List Byte) :
    sameButShown c (c.sendFw n amode dest op addr arg data) := ⟨fun _ _ => rfl, rfl, rfl, rfl⟩

theorem sameButShown_calAsk (c : Chip) (n : Nat) (d : Dev) (l : CalLoad) : sameButShown c (c.calAsk n d l) := by
  have kept : ∀ f, sameButShown c (c.onHalo f) := fun f => ⟨fun _ _ => rfl, rfl, rfl, rfl⟩
  exact (kept _).trans ((sameButShown_sendFw ..).trans (sameButShown_sendFw ..))

/-- Asking every tile for its curves changes no register. -/
theorem sameButShown_calCurves (c : Chip) : sameButShown c c.calCurves :=
  Chip.each_induct (sameButShown c) _ _ (fun d _ h =>
    Chip.each_induct (sameButShown c) _ _ (fun _ _ k => k.trans (sameButShown_calAsk ..)) d h) c (.refl c)

theorem sameButShown_showMac (c : Chip) {n : Nat} (h : n < 2) : sameButShown c (c.showMac n) := by
  have both : ∀ n < 2, Reg.ETH_MAC_LO n ∈ shownRegs ∧ Reg.ETH_MAC_HI n ∈ shownRegs := by decide
  exact (sameButShown_setNat c _ (both n h).1).trans (sameButShown_setNat _ _ (both n h).2)

/-- What the Cavas engine shows: its image at a tile; download, configuration and trial at a sender. -/
theorem sameButShown_updShow (c : Chip) : sameButShown c c.updShow := by
  simp only [Chip.updShow]
  refine sameButShown_ite (fun _ => ?_) fun _ => ?_
  · exact sameButShown_ite (fun _ => sameButShown_wr c _ (by decide)) fun _ => .refl c
  · have shown : ∀ dl gen u, sameButShown c
        (((c.showHeld.put .UPDATE_DL_STAT_STATE dl).setNat Reg.UPDATE_CFG_GEN gen).onUpd u) := fun dl gen u =>
      (((sameButShown_showHeld c).trans (sameButShown_put _ (f := .UPDATE_DL_STAT_STATE) dl (by decide))).trans
        (sameButShown_setNat _ (a := Reg.UPDATE_CFG_GEN) gen (by decide))).trans (sameButShown_onUpd _ u)
    refine sameButShown_ite (fun _ => ?_) fun _ => shown _ _ _
    exact (shown _ _ _).trans (sameButShown_put _ (f := .UPDATE_ACT_STAT_STATE) 6 (by decide))

/-- With no switch under way there is none to give up. -/
theorem Chip.sysReset_none {c : Chip} (h : c.switch = none) (st : Nat) : c.sysReset st = c := by simp only [Chip.sysReset, h]

/-- With no switch of mode to give up and no picture that fails, what is shown again changes the registers named alone. -/
theorem Chip.shownAgain_sameButShown (c : Chip) (p front sl wtf st : Nat) (hs : p = 0 → c.switch = none) :
    sameButShown c (c.shownAgain p front sl wtf st false) := by
  have front : sameButShown c (if p = 0xa0 then (c.put .NIMBUS_STAT_FRONT front).setSlice sl else c) :=
    sameButShown_ite (fun _ => (sameButShown_put c (f := .NIMBUS_STAT_FRONT) _ (by decide)).trans
      (sameButShown_put _ (f := .NIMBUS_STAT_SLICE) _ (by decide))) fun _ => .refl c
  have curves : ∀ (d : Chip) (b : Bool), sameButShown c d → sameButShown c (d.when b Chip.calCurves) := fun d b h => by
    cases b
    · exact h
    · exact h.trans (sameButShown_calCurves d)
  have mac : ∀ d, sameButShown c d → sameButShown c (if within p 0x40 0x41 then d.showMac (p - 0x40) else d) := fun d h =>
    sameButShown_ite (fun hp => h.trans (sameButShown_showMac d
      (by have := within_iff.1 hp; omega))) fun _ => h
  have upd : ∀ d, sameButShown c d → sameButShown c (if p = 0xc0 then d.updShow else d) := fun d h =>
    sameButShown_ite (fun _ => h.trans (sameButShown_updShow d)) fun _ => h
  have sys : ∀ d, sameButShown c d → sameButShown c
      (if p = 0 then (if st = 3 then d.put .SYS_MODE_STAT_STATE 3 else d).sysReset st else d) := fun d h => by
    refine sameButShown_ite (fun hp => ?_) fun _ => h
    have shown : sameButShown c (if st = 3 then d.put .SYS_MODE_STAT_STATE 3 else d) :=
      h.trans (sameButShown_ite (fun _ => sameButShown_put d (f := .SYS_MODE_STAT_STATE) _ (by decide)) fun _ => .refl d)
    rw [Chip.sysReset_none (shown.switch.trans (hs hp))]
    exact shown
  exact sys _ (upd _ (mac _ (curves _ _ front)))

/-- A picture that fails with the engine's reset shows its slice as FAILED. -/
theorem Chip.slice_sliceFail (c : Chip) (k : Nat) : (c.sliceFail k).slice = 4 :=
  Chip.get_put_same c .NIMBUS_STAT_SLICE 4 (by decide)

/-- An open picture of the pixel engine fails with the engine's reset. -/
theorem Chip.slice_shownAgain (c : Chip) {p : Nat} (front sl wtf st : Nat) (h : within p 0xa0 0xa1 = true) :
    (c.shownAgain p front sl wtf st true).slice = 4 := by
  obtain ⟨lo, hi⟩ := within_iff.1 h
  have h0 : p ≠ 0 := by omega
  have hc : p ≠ 0xc0 := by omega
  simp only [Chip.shownAgain, h0, hc, if_false, if_true]
  exact Chip.slice_sliceFail _ _

theorem Chip.rd_showMac (c : Chip) (n : Nat) : (c.showMac n).rd (Reg.ETH_MAC_LO n) = BitVec.ofNat 32 (c.fuses.mac + n) := by
  rw [Chip.showMac, Chip.rd_setNat, if_neg (by simp only [Reg.ETH_MAC_LO, Reg.ETH_MAC_HI]; omega), Chip.rd_setNat, if_pos rfl]

/-- An Ethernet page shows its fused address again. -/
theorem Chip.rd_shownAgain_mac (c : Chip) {n : Nat} (front sl wtf st : Nat) (hn : n < 2) :
    (c.shownAgain (0x40 + n) front sl wtf st false).rd (Reg.ETH_MAC_LO n) = BitVec.ofNat 32 (c.fuses.mac + n) := by
  have eth : within (0x40 + n) 0x40 0x41 = true := within_iff.2 (by omega)
  have ha : 0x40 + n ≠ 0xa0 := by omega
  have hc : 0x40 + n ≠ 0xc0 := by omega
  have h0 : 0x40 + n ≠ 0 := by omega
  have h68 : (0x40 + n == 0x68) = false := by simp; omega
  simp only [Chip.shownAgain, eth, ha, hc, h0, h68, Bool.and_false, Bool.false_and, Chip.when_false, Bool.false_eq_true,
    if_false, if_true, Nat.add_sub_cancel_left]
  exact c.rd_showMac n

/-! ### The block -/

/-- The SYS page has no block of its own. -/
theorem Chip.blockStopped_sys (c : Chip) : c.blockStopped 0 = c := by
  simp [Chip.blockStopped, Chip.pageStop, Chip.blockReset, within]

/-- Stopping an Ethernet port leaves the fuses. -/
theorem Chip.blockStopped_eth_fuses (c : Chip) {n : Nat} (hn : n < 2) : (c.blockStopped (0x40 + n)).fuses = c.fuses := by
  have down : (c.ethGoesDown n).fuses = c.fuses := by
    simp only [Chip.ethGoesDown]
    split
    · exact Chip.raise_fuses _ _
    · rfl
  have stop : (c.pageStop (0x40 + n)).fuses = c.fuses := by
    have : c.pageStop (0x40 + n) = c.ethGoesDown n := by
      interval_cases n <;> simp [Chip.pageStop, within]
    rw [this, down]
  have reset : ∀ d : Chip, d.blockReset (0x40 + n) = d := fun d => by
    interval_cases n <;> simp [Chip.blockReset, within]
  rw [Chip.blockStopped, reset]
  split
  · exact stop
  · rfl

end Sys2Proof.Machine
end

section
/-!
PROOF. A soft reset of a page (R34, R447): the obligation O13.
-/

open Sys2Proof Sys2Proof.Machine Sys2Proof.Safety

namespace Sys2Proof.Proofs

/-- Fused registers are kept: a register that the reset does not keep and that is no status word shown again is not shown again. -/
theorem not_shownRegs {p a : Nat} (hp : a / 0x1000 = p) (hk : softKept p a = false)
    (h : a ∉ [Reg.SYS_MODE_STAT, Reg.NIMBUS_STAT, Reg.UPDATE_DL_STAT, Reg.UPDATE_CFG_GEN, Reg.UPDATE_ACT_STAT,
      Reg.UPDATE_T_IMAGE]) : a ∉ shownRegs := by
  have fused : ∀ b ∈ [Reg.ETH_MAC_LO 0, Reg.ETH_MAC_HI 0, Reg.ETH_MAC_LO 1, Reg.ETH_MAC_HI 1],
      softKept (b / 0x1000) b = true := by decide
  intro hs
  rcases List.mem_append.1 (show a ∈ [Reg.SYS_MODE_STAT, Reg.NIMBUS_STAT, Reg.UPDATE_DL_STAT, Reg.UPDATE_CFG_GEN,
    Reg.UPDATE_ACT_STAT, Reg.UPDATE_T_IMAGE] ++ [Reg.ETH_MAC_LO 0, Reg.ETH_MAC_HI 0, Reg.ETH_MAC_LO 1, Reg.ETH_MAC_HI 1]
    from hs) with hs | hs
  · exact h hs
  · subst hp
    exact absurd (fused a hs) (by simp [hk])

/-- Settles O13: what is cleared reads its reset value, and what is shown again after it touches the registers named alone. -/
theorem softResetRestores : Obligations.SoftResetRestores := by
  unfold Obligations.SoftResetRestores
  intro c p hp d opened
  have whole := c.softReset_eq p
  refine ⟨fun ho hw => ?_, fun ho => ?_, fun n hn e => ?_⟩
  · have none : p = 0 → ((c.blockStopped p).pageCleared p).switch = none := by
      rintro rfl
      rw [Chip.blockStopped_sys]
      exact hw rfl
    obtain ⟨regs, shadow, fab, -⟩ := ((c.blockStopped p).pageCleared p).shownAgain_sameButShown p (c.get .NIMBUS_STAT_FRONT)
      c.slice (c.get .SCAN_CODE_WTF) (c.get .SYS_MODE_STAT_STATE) none
    rw [← show (within p 0xa0 0xa1 && c.nim.open_ && decide (c.slice < 4)) = false from ho, ← whole] at regs shadow fab
    refine ⟨fun a ha hk hc hs hn => ?_, fun a ha => ?_, ?_, fun y hy => ?_⟩
    · exact (regs a (not_shownRegs ha hk hn)).trans (Chip.rd_pageCleared _ hk hc hs)
    · exact (congrArg (spGet regReset · a) shadow).trans (Chip.rdS_pageCleared _ ha)
    · have status : Reg.PG_STATUS p ∉ shownRegs := fun h => by
        have above : ∀ b ∈ shownRegs, 0x40 ≤ b % 0x1000 := by decide
        have := above _ h
        simp only [Reg.PG_STATUS] at this
        omega
      have kept : d.flag (.PG_STATUS_SRST_BUSY p) = ((c.blockStopped p).pageCleared p).flag (.PG_STATUS_SRST_BUSY p) := by
        simp only [Chip.flag, Chip.get]
        rw [regs _ status]
      exact kept.trans (Chip.srstBusy_pageCleared _)
    · rw [fab] at hy
      exact Chip.commits_pageCleared _ hy
  · have engine : within p 0xa0 0xa1 = true := by
      rw [Bool.and_eq_true, Bool.and_eq_true] at ho
      obtain ⟨⟨engine, -⟩, -⟩ := ho
      exact engine
    rw [show d = _ from whole, show (within p 0xa0 0xa1 && c.nim.open_ && decide (c.slice < 4)) = true from ho]
    exact Chip.slice_shownAgain _ _ _ _ _ engine
  · subst e
    have other : (within (0x40 + n) 0xa0 0xa1 && c.nim.open_ && decide (c.slice < 4)) = false := by
      have away : within (0x40 + n) 0xa0 0xa1 = false := within_false (by omega)
      rw [away]
      rfl
    rw [show d = _ from whole, other, Chip.rd_shownAgain_mac _ _ _ _ _ hn, ← c.blockStopped_eth_fuses hn]
    rfl

end Sys2Proof.Proofs
end

section
/-!
PROOF. Commands that a tile carries out (R44, R115, R406): the obligation O41.
-/

open Sys2Proof Sys2Proof.Machine Sys2Proof.Safety

namespace Sys2Proof.Proofs

/-- A tile in Dim with every power domain on, so that a write of PWR_STATE_CTRL from its chain reaches the register. -/
def dimTile : Chip := chipReset.onPwr fun p => { p with state := .dim, target := .dim, dom := 2 ^ 80 - 1 }

/-- A REG_WR of one word with TOKEN 5 that asks the tile for Deep. -/
def deepWrite : Cmd := ⟨1, 5, 2, false, false, Reg.PWR_STATE_CTRL, 0, [4, 0, 0, 0]⟩

/-- The write reaches its register and is taken: a wait before Deep begins (R406). -/
theorem deepWrite_taken :
    dimTile.fabricCause .chain deepWrite.addr true = 0 ∧ (dimTile.regWrIn deepWrite).1.pwr.deepAck = some 0 := by decide

/-- A REG_WR that asks for Deep leaves its TOKEN for R406, beside what its register does with the word. -/
theorem deepTok_deepWrite : (dimTile.regWrIn deepWrite).1.pwr.deepTok = some deepWrite.token := by decide

/-- The register write alone knows of no TOKEN. -/
theorem deepTok_regWriteAny :
    (dimTile.regWriteAny .chain deepWrite.addr (BitVec.ofNat 32 (leNat deepWrite.data))).pwr.deepTok = none := by decide

/-- Refutes O41: of a REG_WR of one word the statement says that it does what the register write does and nothing more. At the tile
`dimTile` the write `deepWrite` asks for Deep and is taken (`deepWrite_taken`), and the part also keeps its TOKEN, whose acknowledged
completion ends the wait before Deep. -/
theorem not_tilesCarryOutCommands : ¬ Obligations.TilesCarryOutCommands := by
  unfold Obligations.TilesCarryOutCommands
  intro claim
  obtain ⟨-, -, -, -, told⟩ := claim State.reset 0 ⟨0, 0, 0, 0, 0⟩ deepWrite ⟨[], 0, [], 0, none⟩ (by decide)
  obtain ⟨-, write, -⟩ := told dimTile
  have same := congrArg (fun y => y.1.pwr.deepTok) (write rfl)
  exact Option.some_ne_none deepWrite.token (deepTok_deepWrite.symm.trans (same.trans deepTok_regWriteAny))

end Sys2Proof.Proofs
end

section
/-!
SUPPORT. The Bellringer's commands as effects on the part, the writes that reach its page, and the tick grid (R67 to R71).
-/

namespace Sys2Proof.Machine

open Safety

/-! ### The commands as effects -/

theorem exec_tickEnable (rq : Requester) (en : Bool) (s : State) :
    exec (.tickEnable rq en) s = s.run (.tickEnable rq en) fun c =>
      c.regWrite rq Reg.BELL_TICK_CTRL (if en then 1 else 0) noVerdict := rfl

theorem exec_frameTick (s : State) : exec .frameTick s = s.run .frameTick Chip.frameTick := rfl

theorem exec_bandTick (k : Nat) (s : State) : exec (.bandTick k) s = s.run (.bandTick k) fun c => c.bandTick k := rfl

theorem exec_timeSet (rq : Requester) (s : State) :
    exec (.timeSet rq) s = s.run (.timeSet rq) fun c => c.regWrite rq Reg.BELL_STEP_CTRL 2 noVerdict := rfl

theorem exec_forceStep (rq : Requester) (s : State) :
    exec (.forceStep rq) s = s.run (.forceStep rq) fun c => c.regWrite rq Reg.BELL_STEP_CTRL 1 noVerdict := rfl

theorem exec_stepApply (s : State) : exec .stepApply s = s.run .stepApply Chip.stepApply := rfl

theorem exec_freeRunStart (s : State) : exec .freeRunStart s = s.run .freeRunStart Chip.freeRun := rfl

theorem exec_toutArm (rq : Requester) (pin : Nat) (v : Word) (s : State) :
    exec (.toutArm rq pin v) s = s.run (.toutArm rq pin v) fun c => c.regWrite rq (Reg.BELL_TOUT_CFG pin) v noVerdict := rfl

theorem exec_toutPulse (pin k : Nat) (s : State) :
    exec (.toutPulse pin k) s = s.run (.toutPulse pin k) fun c => c.givePulse pin k := rfl

theorem exec_syncInEdge (falling : Bool) (dt : Nat) (s : State) :
    exec (.syncInEdge falling dt) s = s.run (.syncInEdge falling dt) fun c => c.syncEdge falling dt := rfl

/-! ### Writes that reach the page -/

section Writes

variable {c : Chip} {rq : Requester} {a : Nat} {x : Verdict}

/-- Below the asymmetries the page has every register but BELL_PTP_CFG in both roles. -/
theorem Chip.roleZero_bell (c : Chip) (hp : a / 0x1000 = 3) (ho : a % 0x1000 < 0x100) (hc : a ≠ Reg.BELL_PTP_CFG) :
    c.roleZero a = false := by
  have asym : ¬ (Reg.BELL_ASYM 4 ≤ a ∧ a ≤ Reg.BELL_ASYM 17) := by simp only [Reg.BELL_ASYM]; omega
  simp [Chip.roleZero, roleHas, hp, hc, asym]

/-- A plain register of the page is stored, and the page's hook has the last word. -/
theorem Chip.regWrite_bell (v : Word) {r : RegRow} (h : takes c rq a = true) (hp : a / 0x1000 = 3)
    (ho : 0x40 ≤ a % 0x1000 ∧ a % 0x1000 < 0x100) (hn : a ≠ Reg.BELL_PTP_CFG) (hr : rowOf a = some r) (hacc : r.acc = .rw) :
    c.regWrite rq a v x = c.bellHook (c.regStore r a v) a (v &&& r.wmask) := by
  obtain ⟨above, below⟩ := ho
  have page : classOf (a / 0x1000) = some (.bell, 0) := by rw [hp]; decide
  exact c.regWrite_rw rq a v x r h hr above.not_gt (c.roleZero_bell hp below hn) hacc page

/-- A write of BELL_STEP_CTRL does what its bits name (R66, R67). -/
theorem Chip.regWrite_stepCtrl (v : Word) (h : takes c rq Reg.BELL_STEP_CTRL = true) :
    c.regWrite rq Reg.BELL_STEP_CTRL v x =
      (c.when (bitsOf v 1 1 == 1) Chip.loadSet).when (bitsOf v 0 0 == 1) Chip.forceStep := by
  obtain ⟨r, hr, hacc⟩ : ∃ r, rowOf Reg.BELL_STEP_CTRL = some r ∧ r.acc = .wo := Option.map_eq_some_iff.1 (by decide)
  have hz : c.roleZero Reg.BELL_STEP_CTRL = false := c.roleZero_bell (by decide) (by decide) (by decide)
  have page : classOf (Reg.BELL_STEP_CTRL / 0x1000) = some (.bell, 0) := by decide
  exact c.regWrite_wo rq _ v x r h hr (by decide) hz hacc page

/-- A write of BELL_TICK_CTRL at a sender is judged by R71. -/
theorem Chip.regWrite_tickCtrl (en : Bool) (h : takes c rq Reg.BELL_TICK_CTRL = true) :
    c.regWrite rq Reg.BELL_TICK_CTRL (if en then 1 else 0) x = c.tickCtrl (if en then 1 else 0) := by
  obtain ⟨r, hr, hrow⟩ : ∃ r, rowOf Reg.BELL_TICK_CTRL = some r ∧ (r.acc, r.wmask) = (.rw, 1) :=
    Option.map_eq_some_iff.1 (by decide)
  obtain ⟨hacc, hmask⟩ := Prod.mk.inj hrow
  rw [Chip.regWrite_bell _ h (by decide) (by decide) (by decide) hr hacc, hmask]
  cases en <;> rfl

/-- A write of BELL_TOUTn_CFG is stored, and arms its pin (R78). -/
theorem Chip.regWrite_toutCfg {pin : Nat} {r : RegRow} (v : Word) (hpin : pin < 2)
    (h : takes c rq (Reg.BELL_TOUT_CFG pin) = true) (hr : rowOf (Reg.BELL_TOUT_CFG pin) = some r) :
    c.regWrite rq (Reg.BELL_TOUT_CFG pin) v x = (c.regStore r (Reg.BELL_TOUT_CFG pin) v).armTout pin := by
  have plain : ∀ k < 2, (rowOf (Reg.BELL_TOUT_CFG k)).map (·.acc) = some .rw := by decide
  have hacc : r.acc = .rw := by simpa [hr] using plain pin hpin
  rw [Chip.regWrite_bell v h (by simp only [Reg.BELL_TOUT_CFG]; omega) (by simp only [Reg.BELL_TOUT_CFG]; omega)
    (by simp only [Reg.BELL_TOUT_CFG, Reg.BELL_PTP_CFG]; omega) hr hacc]
  interval_cases pin <;> rfl

end Writes

/-! ### The rate, the epoch and TICK_EN (R71) -/

section Grid

variable {c : Chip} {a : Nat}

/-- The rate and epoch registers are plain registers of the page. -/
theorem rateRegs_plain (ha : a ∈ rateRegs) :
    a / 0x1000 = 3 ∧ (0x40 ≤ a % 0x1000 ∧ a % 0x1000 < 0x100) ∧ a ≠ Reg.BELL_PTP_CFG ∧ judged a = false ∧ a < 2 ^ 24 ∧
      ∃ r, rowOf a = some r ∧ r.acc = .rw := by
  have place : ∀ b ∈ rateRegs, b / 0x1000 = 3 ∧ (0x40 ≤ b % 0x1000 ∧ b % 0x1000 < 0x100) ∧ b ≠ Reg.BELL_PTP_CFG ∧
      judged b = false ∧ b < 2 ^ 24 := by decide
  have plain : ∀ b ∈ rateRegs, (rowOf b).map (·.acc) = some .rw := by decide
  obtain ⟨page, off, notPtp, open_, inSpace⟩ := place a ha
  exact ⟨page, off, notPtp, open_, inSpace, Option.map_eq_some_iff.1 (plain a ha)⟩

theorem rateRegs_notCtrl (ha : a ∈ rateRegs) : a ≠ Reg.BELL_STEP_CTRL ∧ a ≠ Reg.BELL_TICK_CTRL := by
  have apart : ∀ b ∈ rateRegs, b ≠ Reg.BELL_STEP_CTRL ∧ b ≠ Reg.BELL_TICK_CTRL := by decide
  exact apart a ha

/-- Of the rate and epoch registers EPOCH_NS alone counts nanoseconds. -/
theorem rateRegs_ns (ha : a ∈ rateRegs) (h : a ≠ Reg.BELL_EPOCH_NS) : nsRegs.contains a = false := by
  have others : ∀ b ∈ rateRegs, b ≠ Reg.BELL_EPOCH_NS → nsRegs.contains b = false := by decide
  exact others a ha h

variable (hs : c.isSender = true) (ha : a ∈ rateRegs)

include hs ha

/-- With ticks on, a write of the rate or the epoch is rejected (R71). -/
theorem Chip.bellHook_rate_ticking (st : Chip) (v : Word) (he : c.flag .BELL_TICK_CTRL_TICK_EN = true) :
    c.bellHook st a v = c.reject a := by
  obtain ⟨h1, h2⟩ := rateRegs_notCtrl ha
  have rate : rateRegs.contains a = true := by simpa using ha
  simp only [Chip.bellHook, if_neg h1, if_neg h2, rate, c.isTile_of_isSender hs, he, Bool.and_false, Bool.and_true,
    Bool.false_eq_true, if_false, if_true]

/-- With ticks off, a write of the rate or the epoch begins a new grid (R71). -/
theorem Chip.bellHook_rate_idle (st : Chip) (v : Word) (he : c.flag .BELL_TICK_CTRL_TICK_EN = false)
    (hv : a ≠ Reg.BELL_EPOCH_NS ∨ v.toNat ≤ 999999999) : c.bellHook st a v = st.newGrid := by
  obtain ⟨h1, h2⟩ := rateRegs_notCtrl ha
  have rate : rateRegs.contains a = true := by simpa using ha
  have fits : (nsRegs.contains a && decide (999999999 < v.toNat)) = false := by
    rcases hv with hv | hv
    · rw [rateRegs_ns ha hv, Bool.false_and]
    · rw [decide_eq_false hv.not_gt, Bool.and_false]
  simp only [Chip.bellHook, if_neg h1, if_neg h2, rate, fits, c.isTile_of_isSender hs, he, Bool.and_false,
    Bool.false_eq_true, if_false, if_true]

omit ha

theorem Chip.tickCtrl_one : c.tickCtrl 1 =
    if rateOk c.rateNum c.rateDen then c.put .BELL_TICK_CTRL_TICK_EN 1 else c.reject Reg.BELL_TICK_CTRL := by
  rw [Chip.tickCtrl, c.isTile_of_isSender hs]
  rfl

theorem Chip.tickCtrl_zero : c.tickCtrl 0 =
    if c.ticksNeeded then c.reject Reg.BELL_TICK_CTRL else c.put .BELL_TICK_CTRL_TICK_EN 0 := by
  rw [Chip.tickCtrl, c.isTile_of_isSender hs]
  rfl

end Grid

/-- Ticks are needed while a mode switch, a release or an activation is pending (R71). -/
theorem Chip.ticksNeeded_of {c : Chip}
    (h : (c.switch.isSome = true ∧ 1 ≤ c.get .SYS_MODE_STAT_STATE ∧ c.get .SYS_MODE_STAT_STATE ≤ 3) ∨
      (∃ x ∈ c.fab.commits, x.released.isSome = true) ∨ c.upd.rel.isSome = true) : c.ticksNeeded = true := by
  rcases h with ⟨h0, h1, h3⟩ | ⟨x, hx, hr⟩ | h
  · simp [Chip.ticksNeeded, Chip.switchPending, h0, h1, h3]
  · have released : c.fab.commits.any (·.released.isSome) = true := List.any_eq_true.2 ⟨x, hx, hr⟩
    simp [Chip.ticksNeeded, released]
  · simp [Chip.ticksNeeded, h]

/-! ### The tick grid (R67, R68) -/

/-- Rounding half up does not fall below a whole number that the quotient reaches. -/
theorem le_roundDiv {a b y : Nat} (hb : 0 < b) (h : y * b ≤ a) : y ≤ roundDiv a b :=
  (Nat.le_div_iff_mul_le (by omega)).2 (by nlinarith)

/-- Rounding half up stays below a number that exceeds the quotient by one. -/
theorem roundDiv_lt {a b y : Nat} (hb : 0 < b) (h : a + b ≤ y * b) : roundDiv a b < y :=
  (Nat.div_lt_iff_lt_mul (by omega)).2 (by nlinarith)

/-- A tick period times the rate's numerator, in sub-nanoseconds. -/
def Chip.periodUnits (c : Chip) : Nat := c.rateDen * 1000000000 * 65536

theorem Chip.tickTime_eq (c : Chip) (k : Nat) : c.tickTime k = c.epoch + roundDiv (k * c.periodUnits) c.rateNum := by
  simp only [Chip.tickTime, gridTime, Chip.periodUnits, Nat.mul_assoc]

section Ticks

variable {c : Chip} {t k : Nat} (hr : rateOk c.rateNum c.rateDen = true)

include hr

/-- A valid rate is positive, and its tick period is at least a sub-nanosecond. -/
theorem Chip.rateNum_le_periodUnits : 0 < c.rateNum ∧ c.rateNum ≤ c.periodUnits := by
  simp only [rateOk, Bool.and_eq_true, decide_eq_true_eq] at hr
  obtain ⟨⟨⟨pos, -⟩, -⟩, most⟩ := hr
  exact ⟨pos, by simp only [Chip.periodUnits]; omega⟩

/-- A tick at or after a time on the unrounded grid is not before it on the grid. -/
theorem Chip.le_tickTime (h : (t - c.epoch) * c.rateNum ≤ k * c.periodUnits) : t ≤ c.tickTime k := by
  obtain ⟨pos, -⟩ := Chip.rateNum_le_periodUnits hr
  have := le_roundDiv pos h
  rw [Chip.tickTime_eq]
  omega

/-- A tick whose successor is not after a time on the unrounded grid is before it on the grid. -/
theorem Chip.tickTime_lt (h : (k + 1) * c.periodUnits ≤ (t - c.epoch) * c.rateNum) : c.tickTime k < t := by
  obtain ⟨pos, most⟩ := Chip.rateNum_le_periodUnits hr
  have := roundDiv_lt (a := k * c.periodUnits) (y := t - c.epoch) pos (by nlinarith)
  rw [Chip.tickTime_eq]
  omega

/-- The index chosen for a time is the first whose instant is not before it (R67, R68). -/
theorem Chip.indexAt_first : t ≤ c.tickTime (c.indexAt t) ∧ ∀ k < c.indexAt t, c.tickTime k < t := by
  obtain ⟨pos, most⟩ := Chip.rateNum_le_periodUnits hr
  set g := (t - c.epoch) * c.rateNum / c.periodUnits
  have past : ∀ k < g, c.tickTime k < t := fun k hk => Chip.tickTime_lt hr <|
    calc (k + 1) * c.periodUnits ≤ g * c.periodUnits := Nat.mul_le_mul_right _ hk
      _ ≤ (t - c.epoch) * c.rateNum := Nat.div_mul_le_self ..
  have next : t ≤ c.tickTime (g + 1) := Chip.le_tickTime hr <|
    (Nat.div_lt_iff_lt_mul (by omega)).1 (Nat.lt_succ_self g) |>.le
  have chosen : c.indexAt t = if t ≤ c.tickTime (g - 1) then g - 1 else if t ≤ c.tickTime g then g
      else if t ≤ c.tickTime (g + 1) then g + 1 else g + 2 := rfl
  rw [chosen]
  split_ifs with h1 h2
  · have first : g - 1 = 0 := by
      by_contra hne
      exact absurd (past (g - 1) (by omega)) h1.not_gt
    exact ⟨h1, fun k hk => by omega⟩
  · exact ⟨h2, past⟩
  · refine ⟨next, fun k hk => ?_⟩
    rcases Nat.lt_succ_iff_lt_or_eq.1 hk with hk | rfl
    · exact past k hk
    · exact Nat.not_le.1 h2

end Ticks

/-- An index executed on the grid in force is not executed again (R68). -/
theorem Chip.lt_nextTick {c : Chip} {m : Nat} (h : c.bell.gridTick = some m) : m < c.nextTick := by
  simp only [Chip.nextTick, h]
  omega

end Sys2Proof.Machine
end

section
/-!
PROOF. The tick grid (R67 to R71): the obligations O24 and O25.
-/

open Sys2Proof Sys2Proof.Machine Sys2Proof.Safety

namespace Sys2Proof.Proofs

/-- Settles O24: the rate and epoch registers are plain registers whose writes TICK_EN decides, and a write of TICK_EN is decided by
the rate and by what waits for a tick. -/
theorem tickRateRegistersAreGuarded : Obligations.TickRateRegistersAreGuarded := by
  unfold Obligations.TickRateRegistersAreGuarded
  intro s rq hs
  refine ⟨fun a ha v ht => ?_, fun ht => ?_⟩
  · obtain ⟨page, off, notPtp, open_, inSpace, r, hr, hacc⟩ := rateRegs_plain ha
    have written : s.chip.pageWrite rq a v noVerdict = s.chip.bellHook (s.chip.regStore r a v) a (v &&& r.wmask) := by
      rw [← Chip.regWrite_takes _ _ _ _ _ ht]
      exact Chip.regWrite_bell v ht page off notPtp hr hacc
    have run : ∀ {g : Chip → Chip}, s.chip.bellHook (s.chip.regStore r a v) a (v &&& r.wmask) = g s.chip →
        exec (.registerWrite rq a [(v, true)]) s = .next (s.effect g) := fun h => by
      rw [exec_registerWrite_takes v inSpace ht open_, State.effect_congr (written.trans h)]
    have masked : (v &&& r.wmask).toNat ≤ v.toNat := by
      rw [BitVec.toNat_and]
      exact Nat.and_le_left
    exact ⟨fun he => run (Chip.bellHook_rate_ticking hs ha _ _ he),
      fun he hv => ⟨r, hr, run (Chip.bellHook_rate_idle hs ha _ _ he (hv.imp_right masked.trans))⟩⟩
  · have run : ∀ {g : Chip → Chip} {en : Bool}, s.chip.tickCtrl (if en then 1 else 0) = g s.chip →
        exec (.tickEnable rq en) s = .next (s.effect g) := fun h =>
      (exec_tickEnable ..).trans (State.run_next rfl ((Chip.regWrite_tickCtrl _ ht).trans h))
    have on := Chip.tickCtrl_one hs
    have off := Chip.tickCtrl_zero hs
    exact ⟨fun h => run (on.trans (if_pos h)), fun h => run (on.trans (if_neg (by simp [h]))),
      fun h => run (off.trans (if_pos (Chip.ticksNeeded_of h))), fun h => run (off.trans (if_neg (by simp [h])))⟩

/-- Settles O25: the index chosen is the first that is not past, from the epoch on as before it, and the next tick lies beyond the
last one of the grid in force. -/
theorem nextTickOfTheGrid : Obligations.NextTickOfTheGrid := by
  unfold Obligations.NextTickOfTheGrid
  exact fun _ hr => ⟨fun _ _ => Chip.indexAt_first hr, fun _ => Chip.lt_nextTick⟩

end Sys2Proof.Proofs
end

section
/-!
SUPPORT. Ticks, steps of time and the pins (R66 to R68, R76 to R80), case by case.
-/

namespace Sys2Proof.Machine

/-! ### Passing time -/

/-- Time that passes to a domain time moves the part's age and its time alone. -/
theorem Chip.elapseTo_eq (c : Chip) (t : Nat) : ∃ age bell, c.elapseTo t = { c with age := age, bell := bell } := by
  simp only [Chip.elapseTo]
  split
  · exact ⟨_, _, rfl⟩
  · exact ⟨_, _, rfl⟩

@[simp] theorem Chip.elapseTo_regs (c : Chip) (t : Nat) : (c.elapseTo t).regs = c.regs := by
  obtain ⟨_, _, h⟩ := c.elapseTo_eq t
  rw [h]

@[simp] theorem Chip.get_elapseTo (c : Chip) (t : Nat) (f : Fld) : (c.elapseTo t).get f = c.get f := by
  simp only [Chip.get, Chip.rd, Chip.elapseTo_regs]

/-! ### Ticks -/

/-- Ticks of the grid: what the tick before left open is closed, and the next one is executed at its instant (R68, R70). -/
theorem Chip.frameTick_grid {c : Chip} (h : c.tickSource = true) (hs : c.syncTicks = false) :
    c.frameTick =
      let d := c.tickClose.overdue
      (d.elapseTo (d.tickTime d.nextTick)).tickNow d.nextTick := by
  simp only [Chip.frameTick, h, hs, Bool.not_false, Bool.and_true, if_true]

theorem Chip.frameTick_none {c : Chip} (h : c.tickSource = false) : c.frameTick = c := by
  simp only [Chip.frameTick, h, Bool.false_and, Bool.false_eq_true, if_false]

/-- A band tick inside the tick period is reached at its instant (R76). -/
theorem Chip.bandTick_inside {c : Chip} {k : Nat} (hb : c.banding = true) (hs : c.tickSource = true)
    (ht : c.bell.tick.isSome = true) (hk : 0 < k ∧ k < c.bands) :
    c.bandTick k = (c.when (c.isTile && c.nim.band == k) Chip.bandSwapping).elapseTo (c.bandTime c.lastIndex k) := by
  obtain ⟨pos, inside⟩ := hk
  simp only [Chip.bandTick, hb, hs, ht, decide_eq_true pos, decide_eq_true inside, Bool.and_self, if_true]

/-! ### Steps of time -/

section Steps

variable {c : Chip}

theorem Chip.loadSet_settable (h : c.servo = 0 ∨ c.servo = 4) :
    c.loadSet = (c.jumpTo c.setValue).put .BELL_STATUS_STATE 4 := if_pos h

theorem Chip.loadSet_running (h0 : c.servo ≠ 0) (h4 : c.servo ≠ 4) : c.loadSet = c := if_neg (not_or.2 ⟨h0, h4⟩)

/-- A refused jump is accepted at once where no tick is generated, and else at the step point (R67). -/
theorem Chip.forceStep_refusing (h0 : c.servo ≠ 0) (hr : c.flag .BELL_STATUS_REFUSING = true) :
    c.forceStep = if c.ticking then c.wantStep else c.doStep := by
  simp only [Chip.forceStep, hr, decide_eq_true h0, Bool.and_self, if_true]

theorem Chip.forceStep_idle (h : c.servo = 0 ∨ c.flag .BELL_STATUS_REFUSING = false) : c.forceStep = c := by
  have idle : (decide (c.servo ≠ 0) && c.flag .BELL_STATUS_REFUSING) = false := by
    rcases h with h | h <;> simp [h]
  simp only [Chip.forceStep, idle, Bool.false_eq_true, if_false]

/-- A step of time at its point; a tile makes its decision before it crosses its instant (R67, R225). -/
def Chip.crossStep (c : Chip) : Chip :=
  (c.when c.isTile fun c => c.stepOver c.bell.time ((c.bell.time : Int) - c.bell.offset).toNat).doStep

theorem Chip.crossStep_sender (h : c.isTile = false) : c.crossStep = c.doStep := by
  rw [Chip.crossStep, h, Chip.when_false]

theorem Chip.crossStep_tile (h : c.isTile = true) :
    c.crossStep = (c.stepOver c.bell.time ((c.bell.time : Int) - c.bell.offset).toNat).doStep := by
  rw [Chip.crossStep, h, Chip.when_true]

theorem Chip.stepApply_eq (c : Chip) :
    c.stepApply =
      if c.bell.stepPending && (c.bell.tick != c.bell.stepArmedTick || !c.ticking) then
        (if c.ticking then c.elapseTo (c.bell.tickTime + us 1) else c).crossStep
      else c := rfl

/-- Where no tick is generated a wanted step is made at once (R67). -/
theorem Chip.stepApply_atOnce (hp : c.bell.stepPending = true) (ht : c.ticking = false) : c.stepApply = c.crossStep := by
  simp [Chip.stepApply_eq, hp, ht]

/-- A wanted step is made 1 µs after the next executed tick (R67). -/
theorem Chip.stepApply_afterTick (hp : c.bell.stepPending = true) (ht : c.ticking = true)
    (hn : c.bell.tick ≠ c.bell.stepArmedTick) : c.stepApply = (c.elapseTo (c.bell.tickTime + us 1)).crossStep := by
  simp [Chip.stepApply_eq, hp, ht, hn]

/-- A sender that has no time 3 s after ENABLE starts its own (R66). -/
theorem Chip.freeRun_starts (hs : c.isSender = true) (he : c.enabled 3 = true) (h0 : c.servo = 0)
    (hsrc : c.timeSource = 0 ∨ c.timeSource = 3) :
    c.freeRun =
      let d := c.elapseAge (c.bell.enAt + ms 3000)
      (d.jumpTo d.setValue).put .BELL_STATUS_STATE 4 := by
  have free : (c.timeSource == 0 || c.timeSource == 3) = true := by simpa using hsrc
  simp only [Chip.freeRun, hs, he, h0, free, beq_self_eq_true, Bool.and_self, if_true]
  rfl

end Steps

/-! ### The pins (R78 to R80) -/

section Pins

variable {c : Chip} {pin : Nat}

/-- A one-shot is armed for a start that is not past, and else missed (R78). -/
theorem Chip.armTout_oneShot (h : c.toutMode pin = 1) :
    c.armTout pin =
      if c.toutStart pin < c.bell.time then
        (c.onBell fun b => { b with tout := listPut b.tout pin none }).raise (toutMissed pin)
      else c.onBell fun b => { b with tout := listPut b.tout pin (some ⟨1, c.toutStart pin, 0⟩) } := by
  simp only [Chip.armTout, h, decide_eq_true_eq]
  rfl

/-- The width of a pin's pulse is set by registers alone. -/
theorem Chip.toutWidth_elapseTo (c : Chip) (pin t : Nat) : (c.elapseTo t).toutWidth pin = c.toutWidth pin := by
  obtain ⟨_, _, h⟩ := c.elapseTo_eq t
  rw [h]
  rfl

/-- An armed one-shot gives its pulse at its start and is spent (R78). -/
theorem Chip.givePulse_oneShot {start k : Nat} (h : listAt c.bell.tout pin none = some ⟨1, start, 0⟩) :
    c.givePulse pin k =
      let d := c.elapseTo start
      (d.emit (.pulse pin start (d.toutWidth pin) (d.flag (.BELL_TOUT_CFG_POL pin)))).onBell fun b =>
        { b with tout := listPut b.tout pin none } := by
  simp only [Chip.givePulse, h, Chip.toutInstant, Chip.toutWidth_elapseTo, Chip.flag, Chip.get_elapseTo]
  rfl

/-- A tile out of LOCKED whose SYNC_IN is in mode 2 takes its ticks from the edges (R80). -/
theorem Chip.syncTicks_tile (ht : c.isTile = true) (hd : c.domOn 8 = true) (hm : c.get .BELL_SYNC_CFG_MODE = 2)
    (hs : c.servo ≠ 2) : c.syncTicks = true := by
  simp [Chip.syncTicks, ht, hd, hm, hs]

section Edges

variable {falling : Bool} {dt : Nat} (hd : (c.elapse dt).domOn 8 = true)
  (he : ((c.elapse dt).get .BELL_SYNC_CFG_EDGE == 1) = falling)

include hd he

/-- An edge of the selected polarity is captured in mode 1, and in mode 2 at a sender (R80). -/
theorem Chip.syncEdge_captures (hm : (c.elapse dt).get .BELL_SYNC_CFG_MODE = 1 ∨
      ((c.elapse dt).get .BELL_SYNC_CFG_MODE = 2 ∧ (c.elapse dt).isSender = true)) :
    c.syncEdge falling dt =
      ((c.elapse dt).onBell fun b => { b with syncCap := b.time / 65536 * 65536 }).raise .BELL_SYNC_EDGE := by
  simp only [Chip.syncEdge, hd, he, hm, beq_self_eq_true, Bool.and_self, Bool.not_true, Bool.false_eq_true, if_false, if_true]

variable (hm : (c.elapse dt).get .BELL_SYNC_CFG_MODE = 2) (ht : (c.elapse dt).isTile = true) (hs : (c.elapse dt).servo ≠ 2)

include hm ht hs

/-- At a tile that takes its ticks from SYNC_IN the first edge makes the next tick 100 ns later (R80). -/
theorem Chip.syncEdge_ticks (hl : (c.elapse dt).bell.syncLast = none) :
    c.syncEdge falling dt =
      let e := (c.elapse dt).onBell fun b => { b with syncLast := some (c.elapse dt).age }
      let f := e.tickClose.overdue.elapse (ns 100)
      f.tickNow (f.lastIndex + 1) := by
  have ticks := Chip.syncTicks_tile ht hd hm hs
  simp [Chip.syncEdge, hd, he, hm, hl, ticks, Chip.isSender_of_isTile _ ht]

/-- An edge within 3.75 ms of the last accepted one is not taken (R80). -/
theorem Chip.syncEdge_early {a : Nat} (hl : (c.elapse dt).bell.syncLast = some a) (ha : (c.elapse dt).age < a + us 3750) :
    c.syncEdge falling dt = c.elapse dt := by
  have ticks := Chip.syncTicks_tile ht hd hm hs
  simp [Chip.syncEdge, hd, he, hm, hl, ha, ticks, Chip.isSender_of_isTile _ ht]

end Edges

end Pins

end Sys2Proof.Machine
end

section
/-!
PROOF. Ticks, time and the pins (R66 to R68, R76 to R80): the obligations O26, O27 and O30.
-/

open Sys2Proof Sys2Proof.Machine Sys2Proof.Safety

namespace Sys2Proof.Proofs

/-- Settles O26: where the grid makes the ticks the next one is executed at its instant, and a band tick inside the period is reached
at its own. -/
theorem frameAndBandTicks : Obligations.FrameAndBandTicks := by
  unfold Obligations.FrameAndBandTicks
  intro s
  refine ⟨fun h hs => ?_, fun h => ?_, fun k hb hs ht h0 hk => ?_, fun n => rfl⟩
  · exact (exec_frameTick s).trans (State.run_next rfl (Chip.frameTick_grid h hs))
  · exact (exec_frameTick s).trans (State.run_next rfl (Chip.frameTick_none h))
  · exact (exec_bandTick k s).trans (State.run_next rfl (Chip.bandTick_inside hb hs ht ⟨h0, hk⟩))

/-- Settles O27: each write of BELL_STEP_CTRL is one of its two bits, and a wanted step is made at once or after the next tick. -/
theorem timeIsSetAndStepped : Obligations.TimeIsSetAndStepped := by
  unfold Obligations.TimeIsSetAndStepped
  intro s rq
  have step : ∀ {g : Chip → Chip}, s.chip.stepApply = g s.chip → exec .stepApply s = .next (s.effect g) := fun h =>
    (exec_stepApply s).trans (State.run_next rfl h)
  refine ⟨fun b => rfl, fun ht => ?_, fun hp hs => ?_, fun hp hi => ?_, fun hs he h0 hsrc => ?_⟩
  · have set : ∀ {g : Chip → Chip}, s.chip.loadSet = g s.chip → exec (.timeSet rq) s = .next (s.effect g) := fun h =>
      (exec_timeSet ..).trans (State.run_next rfl ((Chip.regWrite_stepCtrl 2 ht).trans h))
    have force : ∀ {g : Chip → Chip}, s.chip.forceStep = g s.chip → exec (.forceStep rq) s = .next (s.effect g) := fun h =>
      (exec_forceStep ..).trans (State.run_next rfl ((Chip.regWrite_stepCtrl 1 ht).trans h))
    refine ⟨fun h => set (Chip.loadSet_settable h), fun h0 h4 => set (Chip.loadSet_running h0 h4),
      fun h0 hr => ⟨fun ht => force ?_, fun ht => force ?_⟩, fun h => force (Chip.forceStep_idle h)⟩
    · exact (Chip.forceStep_refusing h0 hr).trans (if_neg (by simp [ht]))
    · exact (Chip.forceStep_refusing h0 hr).trans (if_pos ht)
  · have sender : ∀ t, (s.chip.elapseTo t).isTile = false := fun t => by
      simpa [Chip.isTile] using s.chip.isTile_of_isSender hs
    exact ⟨fun ht => step ((Chip.stepApply_atOnce hp ht).trans (Chip.crossStep_sender (s.chip.isTile_of_isSender hs))),
      fun ht hn => step ((Chip.stepApply_afterTick hp ht hn).trans (Chip.crossStep_sender (sender _)))⟩
  · have tile : ∀ t, (s.chip.elapseTo t).isTile = true := fun t => by simpa [Chip.isTile] using hi
    exact ⟨fun ht => step ((Chip.stepApply_atOnce hp ht).trans (Chip.crossStep_tile hi)),
      fun ht hn => step ((Chip.stepApply_afterTick hp ht hn).trans (Chip.crossStep_tile (tile _)))⟩
  · exact (exec_freeRunStart s).trans (State.run_next rfl (Chip.freeRun_starts hs he h0 hsrc))

/-- Settles O30: a write of BELL_TOUTn_CFG arms its pin, an armed one-shot gives its pulse, and the mode decides what an edge of the
selected polarity does. -/
theorem tickOutputsAndSyncInput : Obligations.TickOutputsAndSyncInput := by
  unfold Obligations.TickOutputsAndSyncInput
  intro s rq pin v r hpin
  refine ⟨fun hr ht => ?_, Chip.armTout_oneShot, fun start k h hk => ?_, ?_⟩
  · exact (exec_toutArm ..).trans (State.run_next (decide_eq_true hpin) (Chip.regWrite_toutCfg v hpin ht hr))
  · exact (exec_toutPulse ..).trans (State.run_next (decide_eq_true ⟨hpin, hk⟩) (Chip.givePulse_oneShot h))
  · intro falling dt d hd he
    have edge : ∀ {g : Chip → Chip}, s.chip.syncEdge falling dt = g s.chip →
        exec (.syncInEdge falling dt) s = .next (s.effect g) := fun h =>
      (exec_syncInEdge ..).trans (State.run_next rfl h)
    exact ⟨fun hm => edge (Chip.syncEdge_captures hd he hm), fun hm ht hs hl => edge (Chip.syncEdge_ticks hd he hm ht hs hl),
      fun hm ht hs ⟨_, hl, ha⟩ => edge (Chip.syncEdge_early hd he hm ht hs hl ha)⟩

end Sys2Proof.Proofs
end

section
/-!
SUPPORT. Time sources (R60 to R66): frames that a port takes, the messages of PTP, a lost source, a beacon that falls due.
-/

namespace Sys2Proof.Machine

/-! ### The commands as effects -/

theorem exec_ptpSyncReceive (port dt : Nat) (f : EthFrame) (origin : Nat) (corr interval : Int) (domain : Nat) (s : State) :
    exec (.ptpSyncReceive port dt f origin corr interval domain) s =
      s.run (.ptpSyncReceive port dt f origin corr interval domain) fun c =>
        (c.elapse dt).ethIn port f fun c => c.syncIn port origin corr interval domain := rfl

theorem exec_ptpAnnounceReceive (port dt : Nat) (f : EthFrame) (a : Announce) (domain : Nat) (s : State) :
    exec (.ptpAnnounceReceive port dt f a domain) s = s.run (.ptpAnnounceReceive port dt f a domain) fun c =>
      (c.elapse dt).ethIn port f fun c => c.announceIn port a domain := rfl

theorem exec_delayRespReceive (port : Nat) (f : EthFrame) (domain : Nat) (p2p : Bool) (t1 t2 t3 t4 : Nat) (corr : Int)
    (s : State) :
    exec (.delayRespReceive port f domain p2p t1 t2 t3 t4 corr) s =
      s.run (.delayRespReceive port f domain p2p t1 t2 t3 t4 corr) fun c =>
        c.ethIn port f fun c => c.delayIn port domain p2p t1 t2 t3 t4 corr := rfl

theorem exec_ptpTransparentForward (port : Nat) (f : EthFrame) (kind residence : Nat) (corr : Int) (s : State) :
    exec (.ptpTransparentForward port f kind residence corr) s =
      s.run (.ptpTransparentForward port f kind residence corr) fun c =>
        c.when (f.fcs && c.ethFits port f) fun c => c.transparent port kind residence corr := rfl

theorem exec_sourceLost (announce : Bool) (s : State) :
    exec (.sourceLost announce) s = s.run (.sourceLost announce) fun c => c.sourceLost announce := rfl

theorem exec_beaconDue (port dt : Nat) (s : State) :
    exec (.beaconDue port dt) s = s.run (.beaconDue port dt) fun c =>
      let c := c.elapse dt
      if c.isSender && c.enabled 3 then c.beaconDue port else c := rfl

/-- A sound frame within the subset is taken at a port that is up (R144). -/
theorem Chip.ethIn_takes {c : Chip} {n : Nat} {f : EthFrame} (k : Chip → Chip) (hup : c.ethUp n = true) (hf : f.fcs = true)
    (hfit : (c.ethFec n f).ethFits n f = true) : c.ethIn n f k = k (c.ethFec n f) := by
  simp only [Chip.ethIn, hup, hf, hfit, Bool.not_true, Bool.false_eq_true, if_false, if_true]

/-! ### The messages of PTP -/

section Ptp

variable {c : Chip} {port domain : Nat}

section Taken

variable {corr interval : Int} (hp : c.ptpOn port = true)

include hp

/-- A Sync outside the subset is counted and discarded (R60). -/
theorem Chip.syncIn_outside {origin : Nat} (hf : (c.ethGood port).ptpFits domain interval (-7) = false) :
    c.syncIn port origin corr interval domain = (c.ethGood port).count (Reg.ETH_PTP_DISC port) := by
  simp only [Chip.syncIn, hp, hf, Chip.ptpDiscard, Bool.not_true, Bool.not_false, Bool.false_eq_true, if_false, if_true]

/-- A Sync of the port that is followed is a measurement, and delay requests follow it (R60, R65). -/
theorem Chip.syncIn_measures {origin : Nat} (hf : (c.ethGood port).ptpFits domain interval (-7) = true)
    (he : (c.ethGood port).enabled 3 = true) (hs : (c.ethGood port).timeSource ≠ 3)
    (hpar : (c.ethGood port).bell.parent.map (·.1) = some port) :
    c.syncIn port origin corr interval domain =
      let g := (c.ethGood port).onBell fun b => { b with syncAt := (c.ethGood port).age, syncLog := interval }
      (g.measure (g.bell.time - (origin + corr + g.nat Reg.BELL_PATH_DLY * 256 + g.asym port))).askDelays port := by
  simp only [Chip.syncIn, hp, hf, he, hs, hpar, Bool.not_true, Bool.false_eq_true, ne_eq, not_true_eq_false, or_self, if_false,
    reduceCtorEq]

/-- The first Announce of a port is kept, and the parent is chosen anew (R60). -/
theorem Chip.announceIn_first {a : Announce} (hn : listAt (c.ethGood port).bell.ptp port none = none)
    (hf : (c.ethGood port).ptpFits domain a.logInterval (-3) = true) :
    c.announceIn port a domain =
      ((c.ethGood port).onBell fun b =>
        { b with ptp := listPut b.ptp port (some a), annAt := listPut b.annAt port (c.ethGood port).age }).chooseParent := by
  simp only [Chip.announceIn, hp, hf, hn, Bool.not_true, Bool.false_eq_true, if_false, if_true]

/-- An answer to a delay request of the port that is followed gives the mean path delay (R60). -/
theorem Chip.delayIn_answers {p2p : Bool} {t1 t2 t3 t4 : Nat}
    (hd : domain = min ((c.ethGood port).get .BELL_PTP_CFG_DOMAIN) 127) (h2 : p2p = (c.ethGood port).flag .BELL_PTP_CFG_P2P)
    (ha : listAt (c.ethGood port).bell.asked port false = true)
    (hpar : (c.ethGood port).bell.parent.map (·.1) = some port) :
    c.delayIn port domain p2p t1 t2 t3 t4 corr =
      let n := min (max ((((t2 : Int) - t1) + ((t4 : Int) - t3) - corr) / 2) 0 / 256).toNat 0xffffffff
      ((c.ethGood port).onBell fun b =>
        { b with asked := listPut b.asked port false, linkDly := listPut b.linkDly port n }).setNat Reg.BELL_PATH_DLY n := by
  simp only [Chip.delayIn, hp, ← hd, ← h2, ha, hpar, Chip.onBell_bell, bne_self_eq_false, Bool.or_self, Bool.not_true,
    Bool.and_false, Bool.false_eq_true, if_false, if_true]

end Taken

/-- A PTP message goes out of the other port with its residence added, a Sync in peer-to-peer operation with its link's delay too
(R61). -/
theorem Chip.transparent_forwards {kind residence : Nat} {corr : Int} (hs : c.isSender = true)
    (htc : c.flag .BELL_PTP_CFG_TC_EN = true) (hd : c.domOn 8 = true) (hup : c.ethUp port = true)
    (hup' : c.ethUp (1 - port) = true) (hk : kind < 4) :
    c.transparent port kind residence corr =
      let link := if kind = 0 ∧ c.flag .BELL_PTP_CFG_P2P = true then listAt c.bell.linkDly port 0 * 256 else 0
      ((if kind = 0 then c else c.ethGood port).count (Reg.ETH_TC_FWD port)).ethSend (1 - port) 4
        [kind, wrapTo 64 (corr + (residence + link : Nat))] := by
  have counted : c.when (decide (1 ≤ kind) && decide (kind < 4)) (fun c => c.ethGood port) =
      if kind = 0 then c else c.ethGood port := by
    rcases Nat.eq_zero_or_pos kind with rfl | pos
    · rfl
    · have some : 1 ≤ kind := pos
      simp [hk, some, pos.ne']
  simp only [Chip.transparent, hs, htc, hd, hup, hup', counted, if_pos hk, Bool.and_self, if_true]

end Ptp

/-! ### A lost source (R66) -/

section Lost

variable {c : Chip}

theorem Chip.sourceGone_eq (c : Chip) : c.sourceGone =
    if c.servo = 1 ∨ c.servo = 2 then ((c.put .BELL_STATUS_STATE 3).clearRun).raise .BELL_HOLDOVER else c := rfl

theorem Chip.sourceLost_tile (ht : c.isTile = true) (announce : Bool) :
    c.sourceLost announce = (c.elapseAge (c.bell.noBeaconSince + us 500)).sourceGone := if_pos ht

/-- A sender that misses its Syncs. -/
theorem Chip.sourceLost_sync (ht : c.isTile = false) (hp : c.bell.parent.isSome = true) :
    c.sourceLost false = (c.elapseAge (c.bell.syncAt + 3 * logTime c.bell.syncLog)).sourceGone := by
  obtain ⟨x, hx⟩ := Option.isSome_iff_exists.1 hp
  simp only [Chip.sourceLost, ht, hx, Bool.false_eq_true, if_false]

/-- A sender whose announce receipt timeout has expired. -/
theorem Chip.sourceLost_announce {p t : Nat} {a : List Nat} (ht : c.isTile = false) (hp : c.bell.parent = some (p, a))
    (hx : c.annExpiry p = some t) : c.sourceLost true = ((c.elapseAge t).sourceGone).annExpire := by
  simp only [Chip.sourceLost, ht, hp, hx, Option.getD_some, Bool.false_eq_true, if_false, if_true]

end Lost

/-! ### A beacon falls due (R62, R112) -/

/-- The beacon that a port sends now. -/
def Chip.beaconNow (c : Chip) (n : Nat) : Beacon :=
  { origin := c.bell.time, corr := 0, bseq := (c.port n).bseq
    params := { c.params with
      spread := if c.flag (.SERDES_SSC_EN (n / 2)) then min (c.get (.SERDES_SSC_DEPTH (n / 2))) 10 else 0 }
    mode := c.mode, retStart := (c.retShown n).1, ansSlots := (c.retShown n).2.1, census := c.census n
    switch := (c.retShown n).2.2, tagged := (c.port n).session.isSome }

/-- On an enabled port on which the sender is near the beacon joins the queue. -/
theorem Chip.beaconDue_queues {c : Chip} {n : Nat} (he : c.enabled (0x20 + n) = true) (hn : c.near n = true)
    (hs : c.sends n = true) :
    c.beaconDue n = c.onPort n fun p =>
      { p with beacons := p.beacons ++ [.beacon (c.beaconNow n)], bseq := (p.bseq + 1) % 65536 } := by
  simp only [Chip.beaconDue, he, hn, hs, Bool.and_self, if_true]
  rfl

end Sys2Proof.Machine
end

section
/-!
PROOF. What gives the servo its measurements (R60 to R66): the obligation O28.
-/

open Sys2Proof Sys2Proof.Machine Sys2Proof.Safety

namespace Sys2Proof.Proofs

/-- Settles O28: a sound frame within the subset reaches its message's own meaning at the part as it stands then. -/
theorem timeSourcesAreMeasured : Obligations.TimeSourcesAreMeasured := by
  unfold Obligations.TimeSourcesAreMeasured
  intro s port dt f hport hf come good d e
  have hwf : decide (port < 2) = true := decide_eq_true hport
  refine ⟨fun hup hfit hp => ⟨?_, ?_⟩, ?_, ?_, ⟨?_, ?_, ?_⟩, ?_⟩
  · intro origin corr interval domain
    have run : ∀ {g : Chip → Chip}, d.syncIn port origin corr interval domain = g s.chip →
        exec (.ptpSyncReceive port dt f origin corr interval domain) s = .next (s.effect g) := fun h =>
      (exec_ptpSyncReceive ..).trans (State.run_next hwf ((Chip.ethIn_takes _ hup hf hfit).trans h))
    exact ⟨fun hsub he hs hpar => run (Chip.syncIn_measures hp hsub he hs hpar), fun hsub => run (Chip.syncIn_outside hp hsub)⟩
  · intro hn a domain hsub
    exact (exec_ptpAnnounceReceive ..).trans (State.run_next hwf
      ((Chip.ethIn_takes _ hup hf hfit).trans (Chip.announceIn_first hp hn hsub)))
  · intro hup hfit hp g domain p2p t1 t2 t3 t4 corr hd h2 ha hpar
    exact (exec_delayRespReceive ..).trans (State.run_next hwf
      ((Chip.ethIn_takes _ hup hf hfit).trans (Chip.delayIn_answers hp hd h2 ha hpar)))
  · intro hs htc hd hup hup' hfit kind residence corr hk
    refine (exec_ptpTransparentForward ..).trans (State.run_next hwf ?_)
    rw [hf, hfit]
    exact Chip.transparent_forwards hs htc hd hup hup' hk
  · exact fun ht announce => (exec_sourceLost ..).trans (State.run_next rfl (Chip.sourceLost_tile ht announce))
  · exact fun ht hpar => (exec_sourceLost ..).trans (State.run_next rfl (Chip.sourceLost_sync ht hpar))
  · exact fun p a t ht hpar hx => (exec_sourceLost ..).trans (State.run_next rfl
      ((Chip.sourceLost_announce ht hpar hx).trans (by rw [Chip.sourceGone_eq])))
  · intro n hn g hs he hen hnear hsends
    refine ⟨g.beaconNow n, rfl, rfl, rfl, rfl, (exec_beaconDue ..).trans (State.run_next (decide_eq_true hn) ?_)⟩
    refine (if_pos ?_).trans (Chip.beaconDue_queues hen hnear hsends)
    rw [Bool.and_eq_true]
    exact ⟨hs, he⟩

end Sys2Proof.Proofs
end

section
/-!
SUPPORT. Cells on their way out of a sender's port (R74, R111, R114, R123, R131, R330): which one leaves at a cell boundary, the
deadline, RACKs, a far sender's presence, key epochs.
-/

namespace Sys2Proof.Machine

/-! ### The commands as effects -/

theorem exec_cellSchedule (port dt : Nat) (s : State) :
    exec (.cellSchedule port dt) s = s.run (.cellSchedule port dt) fun c =>
      if c.isSender then (c.elapse dt).schedule port else c := rfl

theorem exec_pixelDeadline (port : Nat) (s : State) :
    exec (.pixelDeadline port) s = s.run (.pixelDeadline port) fun c => if c.isSender then c.pixelDeadline port else c := rfl

theorem exec_rackDue (port : Nat) (s : State) :
    exec (.rackDue port) s = s.run (.rackDue port) fun c => if c.isSender then c.rackDue port else c := rfl

theorem exec_farPresenceSlot (port : Nat) (s : State) :
    exec (.farPresenceSlot port) s = s.run (.farPresenceSlot port) fun c =>
      if c.isSender then c.presenceSlot port else c := rfl

theorem exec_rekeySend (port : Nat) (s : State) :
    exec (.rekeySend (some port)) s = s.run (.rekeySend (some port)) fun c => if c.isSender then c.rekey port else c := rfl

theorem exec_keyEpochBoundary (s : State) :
    exec .keyEpochBoundary s = s.run .keyEpochBoundary fun c =>
      if c.isTile then c.tileEpoch else (c.each (List.range 16) Chip.keyEpoch).twinEpoch := rfl

/-! ### The cell that leaves (R111) -/

/-- The part at a cell boundary of a port: pixel cells past their deadline are dropped. -/
def Chip.atBoundary (c : Chip) (n : Nat) : Chip := c.when (c.pastDeadline n) fun c => c.atDeadline n

/-- A command fits in what its budget leaves, or the port owes no pixel cells (R111). -/
def Chip.cmdFits (c : Chip) (n : Nat) (x : Hdr × Cmd × Option (Nat × Nat)) : Prop :=
  (c.port n).pixDone = true ∨ (c.port n).cmdSpent + (Cell.command x.1 x.2.1).blocks ≤ c.get (.CHAIN_CMD_BUDGET_BLOCKS n)

/-- A boot cell fits in what its budget leaves, or the port owes no pixel cells (R111). -/
def Chip.bootFits (c : Chip) (n : Nat) (x : Cell) : Prop :=
  (c.port n).pixDone = true ∨ (c.port n).bootSpent + x.blocks ≤ c.get .UPDATE_BOOT_BUDGET_BLOCKS

/-- The budgets of a port are in force while it owes pixel cells. -/
theorem Chip.withinBudget_iff (c : Chip) (n : Nat) (p : Prop) [Decidable p] :
    (!c.budgeted n || decide p) = true ↔ (c.port n).pixDone = true ∨ p := by
  simp [Chip.budgeted]

/-- A command that does not fit stays in its queue. -/
theorem Chip.cmdHead_withheld {c : Chip} {n : Nat} (h : ∀ x ∈ (c.port n).cmds.head?, ¬ c.cmdFits n x) :
    (c.port n).cmds.head?.filter (fun x => !c.budgeted n ||
      decide ((c.port n).cmdSpent + (Cell.command x.1 x.2.1).blocks ≤ c.get (.CHAIN_CMD_BUDGET_BLOCKS n))) = none :=
  Option.filter_eq_none_iff.2 fun x hx => mt (c.withinBudget_iff n _).1 (h x hx)

/-- A boot cell that does not fit stays in its queue. -/
theorem Chip.bootHead_withheld {c : Chip} {n : Nat} (h : ∀ x ∈ (c.port n).boots.head?, ¬ c.bootFits n x) :
    (c.port n).boots.head?.filter (fun x => !c.budgeted n ||
      decide ((c.port n).bootSpent + x.blocks ≤ c.get .UPDATE_BOOT_BUDGET_BLOCKS)) = none :=
  Option.filter_eq_none_iff.2 fun x hx => mt (c.withinBudget_iff n _).1 (h x hx)

theorem Chip.onPort_congr {c : Chip} {n : Nat} {f g : Port → Port} (h : f (c.port n) = g (c.port n)) :
    c.onPort n f = c.onPort n g := by
  simp only [Chip.onPort, h]

section Schedule

variable {c d : Chip} {n : Nat} (hd : c.atBoundary n = d)

include hd

/-- A port that does not transmit sends nothing. -/
theorem Chip.schedule_silent (hs : d.sends n = false) : c.schedule n = d := by
  rw [Chip.atBoundary] at hd
  simp only [Chip.schedule, hd, hs, Bool.not_false, if_true]

variable (hs : d.sends n = true)

include hs

/-- A port that is not enabled sends idle blocks. -/
theorem Chip.schedule_disabled (he : d.enabled (0x20 + n) = false) : c.schedule n = d.sendCell n .idle := by
  rw [Chip.atBoundary] at hd
  simp only [Chip.schedule, hd, hs, he, Bool.not_true, Bool.not_false, Bool.false_eq_true, if_false, if_true]

variable (he : d.enabled (0x20 + n) = true)

include he

/-- A waiting beacon leaves first, stamped with the time. -/
theorem Chip.schedule_beacon {b : Beacon} {r : List Cell} (hb : (d.port n).beacons = .beacon b :: r) :
    c.schedule n = (d.onPort n fun p => { p with beacons := r }).sendCell n (.beacon { b with origin := d.bell.time }) := by
  rw [Chip.atBoundary] at hd
  simp only [Chip.schedule, hd, hs, he, hb, Bool.not_true, Bool.false_eq_true, if_false]

variable (hb : (d.port n).beacons = [])

include hb

/-- Then a RACK leaves. -/
theorem Chip.schedule_rack {x : Cell} {r : List Cell} (hr : (d.port n).racks = x :: r) :
    c.schedule n = (d.onPort n fun p => { p with racks := r }).sendCell n x := by
  rw [Chip.atBoundary] at hd
  simp only [Chip.schedule, hd, hs, he, hb, hr, Bool.not_true, Bool.false_eq_true, if_false]

variable (hr : (d.port n).racks = [])

include hr

/-- Then a command whose budget allows it leaves. -/
theorem Chip.schedule_command {x : Hdr × Cmd × Option (Nat × Nat)} {r : List (Hdr × Cmd × Option (Nat × Nat))}
    (hc : (d.port n).cmds = x :: r) (hf : d.cmdFits n x) :
    c.schedule n = (d.onPort n fun p =>
      { p with cmds := r, cmdSpent := p.cmdSpent + (Cell.command x.1 x.2.1).blocks }).commandLeaves n x.1 x.2.1 x.2.2 := by
  have fits := (d.withinBudget_iff n _).2 hf
  rw [Chip.atBoundary] at hd
  simp only [Chip.schedule, hd, hs, he, hb, hr, hc, fits, List.head?_cons, Option.filter_some, Bool.not_true,
    Bool.false_eq_true, if_false, if_true]
  rw [Chip.onPort_congr]
  rw [hc, List.tail_cons]

variable (hc : ∀ x ∈ (d.port n).cmds.head?, ¬ d.cmdFits n x)

include hc

/-- Then a boot cell whose budget allows it leaves. -/
theorem Chip.schedule_boot {x : Cell} {r : List Cell} (hx : (d.port n).boots = x :: r) (hf : d.bootFits n x) :
    c.schedule n = (d.onPort n fun p => { p with boots := r, bootSpent := p.bootSpent + x.blocks }).sendCell n
      (x.withKe (d.portKe n)) := by
  have fits := (d.withinBudget_iff n _).2 hf
  rw [Chip.atBoundary] at hd
  simp only [Chip.schedule, hd, hs, he, hb, hr, Chip.cmdHead_withheld hc, hx, fits, List.head?_cons, Option.filter_some,
    Bool.not_true, Bool.false_eq_true, if_false, if_true]
  rw [Chip.onPort_congr]
  rw [hx, List.tail_cons]

variable (hx : ∀ x ∈ (d.port n).boots.head?, ¬ d.bootFits n x)

include hx

/-- Then a pixel cell leaves. -/
theorem Chip.schedule_pixel {x : Cell} {r : List Cell} (hp : (d.port n).pixels = x :: r) :
    c.schedule n = d.pixelLeaves n x r := by
  rw [Chip.atBoundary] at hd
  simp only [Chip.schedule, hd, hs, he, hb, hr, Chip.cmdHead_withheld hc, Chip.bootHead_withheld hx, hp, Bool.not_true,
    Bool.false_eq_true, if_false]

/-- With nothing that may leave the port sends an idle cell. -/
theorem Chip.schedule_idle (hp : (d.port n).pixels = []) : c.schedule n = d.sendCell n .idle := by
  rw [Chip.atBoundary] at hd
  simp only [Chip.schedule, hd, hs, he, hb, hr, Chip.cmdHead_withheld hc, Chip.bootHead_withheld hx, hp, Bool.not_true,
    Bool.false_eq_true, if_false]

end Schedule

/-! ### Deadline, RACK and presence -/

section Port

variable {c : Chip} {n : Nat}

/-- At the deadline of a frame the pixel cells left are dropped, and counted if there were any (R74). -/
theorem Chip.pixelDeadline_drops (ht : c.bell.tick.isSome = true) :
    c.pixelDeadline n =
      let d := c.elapseTo (c.deadline n)
      (d.onPort n fun p => { p with pixels := [], pixDone := true }).dropPixels n (d.port n).pixels.length := if_pos ht

theorem Chip.dropPixels_none {k : Nat} (h : k = 0) : c.dropPixels n k = c := if_pos h

theorem Chip.dropPixels_some {k : Nat} (h : k ≠ 0) :
    c.dropPixels n k = (c.countBy (Reg.CHAIN_DEADLINE_MISS n) k).raise (.CHAIN_DEADLINE_MISS n) := if_neg h

/-- Time reaches the instant of a port's RACK: 10 µs after the last block of its superframe (R131). -/
def Chip.atRack (c : Chip) (n : Nat) : Chip :=
  c.elapseRet (c.retInstant (c.retNow n).1 (c.rateCode (n / 2)) (superframeLen (c.retNow n).2 - 1) + us 10)

/-- A RACK of the units received joins the queue of a port that is not discovering (R131). -/
theorem Chip.rackDue_queues (he : (c.atRack n).enabled (0x20 + n) = true) (h30 : (c.atRack n).enabled 0x30 = true)
    (hn : (c.atRack n).near n = true) (hs : (c.atRack n).sends n = true) (h2 : (c.atRack n).chainState n ≠ 2) :
    c.rackDue n = (c.atRack n).onPort n fun p =>
      { p with
        racks := p.racks ++ [.rack (c.atRack n).lastIndex p.units], units := [], quiet := if p.fresh then 0 else p.quiet + 1
        silent := p.silent + 1, fresh := false } := by
  have serving : ∀ f, (((c.atRack n).onPort n f).chainState n == 2) = false := fun f => beq_false_of_ne h2
  rw [Chip.atRack] at *
  simp only [Chip.rackDue, he, h30, hn, hs, serving, Bool.and_self, Bool.false_and, if_true, Chip.when_false]

/-- The slot of a far sender's presence (R331). -/
def Chip.presence (c : Chip) : Slot :=
  { wdn := c.sidx, rseq := 0, shown := 0, status := 0, offset := 0, seqU := 0, b1 := 0, b2 := 0, seqD := 0, a1 := 0
    a2 := 0
    recs := [.presence (c.get .TWIN_STAT_PEER == 1) (c.flag .TWIN_STAT_ELIGIBLE) c.healthFlags
      ((c.twin.copy.map fun cp => cp.period % 2 ^ 32).getD 0)] }

/-- A far sender tells a ring's port that it is there (R330). -/
theorem Chip.presenceSlot_sends (ht : c.twinOn = true) (hr : c.ringed n = true) (hn : c.near n = false)
    (hl : c.linkUpAt n = true) (hs : c.sends n = true) : c.presenceSlot n = c.sendCell n (.slot 1024 c.presence) := by
  simp only [Chip.presenceSlot, ht, hr, hn, hl, hs, Bool.not_false, Bool.and_self, if_true, Chip.presence]
  cases c.twin.copy <;> rfl

/-! ### Key epochs (R123, R358) -/

/-- REKEY takes a fresh key for the next epoch and sends it, at least 64 ticks before the boundary. -/
theorem Chip.rekey_sends {k : Session} (hk : (c.port n).session = some k) (hn : k.next = false)
    (he : k.epoch = c.lastIndex / 2 ^ 20) (h64 : c.lastIndex + 64 ≤ (k.epoch + 1) * 2 ^ 20) :
    c.rekey n =
      let x := c.slot (8 + n)
      let d := (c.redraw.setSlot (8 + n) { x with next := some (Config.kdf 3 [c.randomNow, x.key, k.epoch + 1]) }).onPort n
        fun p => { p with session := some { k with next := true }, rekeySent := c.lastIndex }
      d.sendFw n 3 0 0x45 0 0 (beBytes 4 (k.epoch + 1) ++ beBytes 32 c.randomNow) := by
  have inTime : ¬ (k.next = true ∨ k.epoch ≠ k.epoch ∨ (k.epoch + 1) * 2 ^ 20 < c.lastIndex + 64) :=
    not_or.2 ⟨by simp [hn], not_or.2 ⟨not_not.2 rfl, h64.not_gt⟩⟩
  simp only [Chip.rekey, hk, ← he, if_neg inTime]

/-- At the boundary the sender tags under the key that REKEY gave. -/
theorem Chip.keyEpoch_turns {k : Session} (hk : (c.port n).session = some k) (hn : k.next = true)
    (he : k.epoch < c.lastIndex / 2 ^ 20) :
    c.keyEpoch n =
      let x := c.slot (8 + n)
      let e := c.lastIndex / 2 ^ 20
      ((c.setSlot (8 + n) { x with key := x.next.getD x.key, next := none, epoch := e }).onPort n fun p =>
        { p with session := some ⟨e, false, false⟩ }).raise .KEYS_REKEYED := by
  simp only [Chip.keyEpoch, hk, hn, he, and_self, if_true]

end Port

end Sys2Proof.Machine
end

section
/-!
PROOF. Which cell leaves a sender's port, and when (R74, R111, R114, R123, R131, R330, R358): the obligation O38.
-/

open Sys2Proof Sys2Proof.Machine Sys2Proof.Safety

namespace Sys2Proof.Proofs

/-- Settles O38: at a cell boundary the ranks are asked in their order, and each of the port's other commands is one case of its
effect. -/
theorem cellsLeaveByRank : Obligations.CellsLeaveByRank := by
  unfold Obligations.CellsLeaveByRank
  intro s n dt hn hs now g p
  have hwf : decide (n < 16) = true := decide_eq_true hn
  have boundary : (s.chip.elapse dt).atBoundary n = g := rfl
  have leaves : ∀ {f : Chip → Chip}, (s.chip.elapse dt).schedule n = f s.chip →
      exec (.cellSchedule n dt) s = .next (s.effect f) := fun h =>
    (exec_cellSchedule ..).trans (State.run_next hwf ((if_pos hs).trans h))
  refine ⟨fun h => leaves (Chip.schedule_silent boundary h), fun h he => leaves (Chip.schedule_disabled boundary h he),
    fun h he => ⟨fun b r hb => leaves (Chip.schedule_beacon boundary h he hb), fun hb =>
      ⟨fun x r hr => leaves (Chip.schedule_rack boundary h he hb hr), fun hr => ⟨fun x r hc hf => ?_, fun hc =>
        ⟨fun x r hx hf => ?_, fun hx => ⟨fun x r hp => ?_, fun hp => ?_⟩⟩⟩⟩⟩, fun ht => ⟨fun hk => ?_, fun hk => ?_⟩,
    fun he h30 hnear hsends h2 => ?_, fun ht hr hnear hl hsends => ⟨s.chip.presence, rfl, ?_⟩,
    fun k hk hnext hep h64 => ?_, fun ht => ?_, fun c k hk hnext hep => Chip.keyEpoch_turns hk hnext hep⟩
  · exact leaves (Chip.schedule_command boundary h he hb hr hc hf)
  · exact leaves (Chip.schedule_boot boundary h he hb hr hc hx hf)
  · exact leaves (Chip.schedule_pixel boundary h he hb hr hc hx hp)
  · exact leaves (Chip.schedule_idle boundary h he hb hr hc hx hp)
  · refine (exec_pixelDeadline ..).trans (State.run_next hwf ((if_pos hs).trans ?_))
    exact (Chip.pixelDeadline_drops ht).trans (Chip.dropPixels_some hk)
  · refine (exec_pixelDeadline ..).trans (State.run_next hwf ((if_pos hs).trans ?_))
    exact (Chip.pixelDeadline_drops ht).trans (Chip.dropPixels_none hk)
  · exact (exec_rackDue ..).trans (State.run_next hwf
      ((if_pos hs).trans (Chip.rackDue_queues he h30 hnear hsends h2)))
  · exact (exec_farPresenceSlot ..).trans (State.run_next hwf
      ((if_pos hs).trans (Chip.presenceSlot_sends ht hr hnear hl hsends)))
  · refine (exec_rekeySend ..).trans (State.run_next ?_ ((if_pos hs).trans (Chip.rekey_sends hk hnext hep h64)))
    simpa [Instr.wf] using hn
  · exact (exec_keyEpochBoundary s).trans (State.run_next rfl (if_neg (by simp [ht])))

end Sys2Proof.Proofs
end

section
/-!
SUPPORT. How a port comes up and goes down (R83, R86, R89, R91, R97 to R99): each step of its lanes, case by case.
-/

namespace Sys2Proof.Machine

/-! ### The commands as effects -/

theorem exec_pllLock (q : Nat) (s : State) : exec (.pllLock q) s = s.run (.pllLock q) fun c => c.pllLock q := rfl

theorem exec_pllUnlock (q : Nat) (s : State) : exec (.pllUnlock q) s = s.run (.pllUnlock q) fun c => c.pllUnlock q := rfl

theorem exec_signalDetect (q h rate spread : Nat) (s : State) :
    exec (.signalDetect q h rate spread) s = s.run (.signalDetect q h rate spread) fun c =>
      (c.idleEnd q h).signalAt q h rate spread := rfl

theorem exec_cdrLock (q h : Nat) (ppm : Int) (s : State) :
    exec (.cdrLock q h ppm) s = s.run (.cdrLock q h ppm) fun c => c.cdrLocked q h ppm := rfl

theorem exec_blockLock (q h : Nat) (l0 l1 : List Nat) (s : State) :
    exec (.blockLock q h l0 l1) s = s.run (.blockLock q h l0 l1) fun c => c.blockLocked q h l0 l1 := rfl

theorem exec_markerLock (q h : Nat) (a b : Block × Block) (skew : Int) (s : State) :
    exec (.markerLock q h a b skew) s = s.run (.markerLock q h a b skew) fun c => c.markerLocked q h a b skew := rfl

theorem exec_linkUp (q h : Nat) (s : State) : exec (.linkUp q h) s = s.run (.linkUp q h) fun c => c.portComesUp q h := rfl

theorem exec_linkDown (q h : Nat) (w : Loss) (s : State) :
    exec (.linkDown q h w) s = s.run (.linkDown q h w) fun c => c.lineLost q h w := rfl

/-! ### What the steps leave -/

theorem Chip.isTile_congr {c d : Chip} (h : d.rd Reg.SYS_ROLE = c.rd Reg.SYS_ROLE) : d.isTile = c.isTile := by
  simp only [Chip.isTile, Chip.get, h]

/-- The state of a port is what the status registers of its two lanes show. -/
theorem Chip.portState_congr {c d : Chip} {q h : Nat} (h0 : d.rd (Reg.SERDES_L_STAT q (2 * h)) = c.rd (Reg.SERDES_L_STAT q (2 * h)))
    (h1 : d.rd (Reg.SERDES_L_STAT q (2 * h + 1)) = c.rd (Reg.SERDES_L_STAT q (2 * h + 1))) :
    d.portState q h = c.portState q h := by
  have lane0 : d.laneState q (2 * h) = c.laneState q (2 * h) := by simp only [Chip.laneState, Chip.get, h0]
  have lane1 : d.laneState q (2 * h + 1) = c.laneState q (2 * h + 1) := by simp only [Chip.laneState, Chip.get, h1]
  rw [Chip.portState, Chip.portState, lane0, lane1]

/-- Of the registers a new state of a port changes those that show it. -/
theorem Chip.rd_setPortState (c : Chip) {q h b : Nat} (n : Nat) (h0 : b ≠ Reg.SERDES_L_STAT q (2 * h))
    (h1 : b ≠ Reg.SERDES_L_STAT q (2 * h + 1)) : (c.setPortState q h n).rd b = c.rd b :=
  (Chip.rd_put_ne _ _ _ h1).trans (Chip.rd_put_ne _ _ _ h0)

/-- Of the registers an adapting equaliser changes its own (R97). -/
theorem Chip.rd_adaptLane (c : Chip) {q k b : Nat} (h : b ≠ Reg.SERDES_L_RXEQ q k) : (c.adaptLane q k).rd b = c.rd b := by
  simp only [Chip.adaptLane]
  split
  · exact (Chip.rd_setNat ..).trans (if_neg h)
  · rfl

/-- Of the registers the frequency seen changes the quad's status. -/
theorem Chip.rd_freqSeen (c : Chip) {q h b : Nat} (ppm : Int) (hb : b ≠ Reg.SERDES_QSTAT q) :
    (c.freqSeen q h ppm).rd b = c.rd b := by
  simp only [Chip.freqSeen]
  split
  · exact Chip.rd_put_ne _ _ _ hb
  · rfl

theorem Chip.isTile_freqSeen (c : Chip) (q h : Nat) (ppm : Int) : (c.freqSeen q h ppm).isTile = c.isTile :=
  Chip.isTile_congr (c.rd_freqSeen ppm (by simp only [Reg.SYS_ROLE, Reg.SERDES_QSTAT]; omega))

/-- A sender shows no frequency. -/
theorem Chip.freqSeen_sender {c : Chip} {q h : Nat} {ppm : Int} (ht : c.isTile = false) : c.freqSeen q h ppm = c := by
  simp [Chip.freqSeen, ht]

/-- A tile shows the frequency of the port whose clock it takes, and of any port while it takes none (R104). -/
theorem Chip.freqSeen_tile {c : Chip} {q h : Nat} {ppm : Int} (ht : c.isTile = true) :
    c.freqSeen q h ppm =
      if c.tile.clk = none ∨ c.tile.clk = some h then c.put (.SERDES_QSTAT_FREQ_PPM q) (wrapTo 16 ppm) else c := by
  simp [Chip.freqSeen, ht]

/-! ### From DOWN to ALIGN -/

section BringUp

variable {c : Chip} {q h : Nat}

/-- A millisecond of electrical idle ends before the signal counts (R363). -/
theorem Chip.idleEnd_some {a : Nat} (hi : (c.txOf q h).idleAt = some a) :
    c.idleEnd q h = (c.elapseAge (a + ms 1)).idleOver q h := by simp only [Chip.idleEnd, hi]

theorem Chip.idleEnd_none (hi : (c.txOf q h).idleAt = none) : c.idleEnd q h = c := by simp only [Chip.idleEnd, hi]

section Signal

variable {rate spread : Nat} (hr : ronunoPort q h = true) (hs : c.portState q h = 1) (h3 : rate < 3)

include hr hs h3

/-- A sender takes a signal at its own rate alone (R91). -/
theorem Chip.signalAt_sender (ht : c.isTile = false) :
    c.signalAt q h rate spread = if rate = c.rateCode q then c.setPortState q h 2 else c := by
  simp [Chip.signalAt, hr, hs, h3, ht]

/-- A tile without an upstream takes the rate and the spread that it detects (R83, R91). -/
theorem Chip.signalAt_free (ht : c.isTile = true) (hu : c.tile.up = none) :
    c.signalAt q h rate spread =
      ((c.put (.SERDES_QCFG_RATE q) rate).setNat (Reg.SERDES_SSC q)
        (if spread = 0 then 0 else 256 + min spread 10)).setPortState q h 2 := by
  simp [Chip.signalAt, hr, hs, h3, ht, hu]

/-- A tile with an upstream keeps to the rate of that port (R83). -/
theorem Chip.signalAt_bound (ht : c.isTile = true) (hu : c.tile.up.isSome = true) :
    c.signalAt q h rate spread = if rate = c.rateCode q then c.setPortState q h 2 else c := by
  obtain ⟨port, hport⟩ := Option.isSome_iff_exists.1 hu
  by_cases hrate : rate = c.rateCode q
  · simp [Chip.signalAt, hr, hs, ht, hport, ← hrate, h3]
  · simp [Chip.signalAt, ht, hport, hrate]

end Signal

section Cdr

variable {ppm : Int} (hr : ronunoPort q h = true) (hs : c.portState q h = 2)

include hr hs

/-- At a sender CDR that locks leads to BLOCK (R98). -/
theorem Chip.cdrLocked_sender (ht : c.isTile = false) :
    c.cdrLocked q h ppm = (c.setPortState q h 3).adaptPort q h := by
  simp [Chip.cdrLocked, hr, hs, Chip.freqSeen_sender ht, ht]

/-- At a tile the window decides (R91). -/
theorem Chip.cdrLocked_tile (ht : c.isTile = true) :
    c.cdrLocked q h ppm =
      if freqOut ppm then ((c.freqSeen q h ppm).setPortState q h 1).raise (.SERDES_FREQ_OOR q)
      else ((c.freqSeen q h ppm).setPortState q h 3).adaptPort q h := by
  simp [Chip.cdrLocked, hr, hs, Chip.isTile_freqSeen, ht]

end Cdr

theorem freqOut_iff {ppm : Int} : freqOut ppm = true ↔ ppm < -5150 ∨ 150 < ppm := by simp [freqOut]

/-- Sixty-four valid headers in a row on both lanes lead from BLOCK to ALIGN (R98). -/
theorem Chip.blockLocked_block {l0 l1 : List Nat} (hs : c.portState q h = 3) :
    c.blockLocked q h l0 l1 = if blockLock l0 = true ∧ blockLock l1 = true then c.setPortState q h 4 else c := by
  simp [Chip.blockLocked, hs]

/-! ### Markers -/

section Markers

variable {a b : Block × Block} {skew : Int} (hs : c.portState q h = 4)

include hs

/-- Without two markers on each lane a port stays in ALIGN as it is (R89). -/
theorem Chip.markerLocked_none (hl : laneLock a.1 a.2 = none ∨ laneLock b.1 b.2 = none) :
    c.markerLocked q h a b skew = c := by
  rcases hl with hl | hl <;> simp [Chip.markerLocked, hs, hl]

/-- Markers of different LANE fix order and polarity; a skew within 16 ns stands on the earlier lane, and one above leaves the port in
ALIGN with SKEW 0x3FF (R89). -/
theorem Chip.markerLocked_some {x y : Nat × Bool} (hx : laneLock a.1 a.2 = some x) (hy : laneLock b.1 b.2 = some y)
    (hne : x.1 ≠ y.1) :
    c.markerLocked q h a b skew =
      let d := (((c.put (.SERDES_L_STAT_RX_INV q (2 * h)) x.2.toNat).put (.SERDES_L_STAT_RX_INV q (2 * h + 1))
        y.2.toNat).put (.SERDES_L_STAT_LANE_ID q (2 * h)) x.1).put (.SERDES_L_STAT_LANE_ID q (2 * h + 1)) y.1
      if skewMax (d.rateCode q) < skew.natAbs then
        (d.put (.SERDES_L_STAT_SKEW q (2 * h)) 0x3ff).put (.SERDES_L_STAT_SKEW q (2 * h + 1)) 0x3ff
      else
        ((d.put (.SERDES_L_STAT_SKEW q (2 * h)) (-skew).toNat).put (.SERDES_L_STAT_SKEW q (2 * h + 1))
          skew.toNat).setPortState q h 5 := by
  have early : (if skew < 0 then skew.natAbs else 0) = (-skew).toNat := by split <;> omega
  have late : (if 0 < skew then skew.natAbs else 0) = skew.toNat := by split <;> omega
  simp only [Chip.markerLocked, hs, if_true, hx, hy, if_neg hne, early, late]

end Markers

/-! ### UP and down -/

/-- A port in ADAPT with its adaptation at its end: UP, with LINK_UP (R98). -/
def Chip.madeUp (c : Chip) (q h : Nat) : Chip := ((c.setPortState q h 6).adaptPort q h).raise (.SERDES_LINK_UP q)

/-- A port that comes UP keeps its part's role. -/
theorem Chip.isTile_madeUp (c : Chip) (q h : Nat) : (c.madeUp q h).isTile = c.isTile := by
  refine Chip.isTile_congr ?_
  rw [Chip.madeUp, Chip.rd_raise_page _ _ (by simp only [Reg.SYS_ROLE]; omega) (by decide), Chip.adaptPort,
    Chip.rd_adaptLane _ (by simp only [Reg.SYS_ROLE, Reg.SERDES_L_RXEQ]; omega),
    Chip.rd_adaptLane _ (by simp only [Reg.SYS_ROLE, Reg.SERDES_L_RXEQ]; omega)]
  exact c.rd_setPortState _ (by simp only [Reg.SYS_ROLE, Reg.SERDES_L_STAT]; omega)
    (by simp only [Reg.SYS_ROLE, Reg.SERDES_L_STAT]; omega)

section Up

variable (hr : ronunoPort q h = true) (hs : c.portState q h = 5)

include hr hs

/-- A sender's port that comes UP takes its clock, and discovery begins on an enabled chain port (R94, R134). -/
theorem Chip.portComesUp_sender (ht : c.isTile = false) :
    c.portComesUp q h =
      let d := (c.madeUp q h).portClock q h
      (if q < 8 ∧ d.enabled (0x20 + (2 * q + h)) = true ∧ d.chainState (2 * q + h) = 0 ∧ d.serves (2 * q + h) = true then
        d.startDiscovery (2 * q + h)
      else d).hopDelay := by
  have sender : ¬ (c.madeUp q h).isTile = true := by simp [Chip.isTile_madeUp, ht]
  refine (if_pos hs).trans (congrArg Chip.hopDelay (((if_pos ⟨hr, hs⟩).trans (if_neg sender)).trans ?_))
  exact if_congr (by simp [Chip.madeUp, and_assoc]) rfl rfl

/-- At a tile the first port that comes UP gives clock and upstream, and the transmitters start (R11, R91). -/
theorem Chip.portComesUp_tile (ht : c.isTile = true) :
    c.portComesUp q h =
      let d := (((c.madeUp q h).clockUp h).chooseUp h false).upstreamBack
      (if d.tile.trigAt = none then (d.txStart 0 0).txStart 0 1 else d).hopDelay := by
  have tile : (c.madeUp q h).isTile = true := (c.isTile_madeUp q h).trans ht
  refine (if_pos hs).trans (congrArg Chip.hopDelay (((if_pos ⟨hr, hs⟩).trans (if_pos tile)).trans ?_))
  exact if_congr Option.isNone_iff_eq_none rfl rfl

end Up

/-- A port that leaves UP returns to DETECT with LINK_DOWN, and what follows from its loss follows (R99). -/
theorem Chip.portDown_up (hr : ronunoPort q h = true) (hs : c.portState q h = 6) :
    c.portDown q h =
      (((((c.setPortState q h 1).rxClear q h).put (.SERDES_L_STAT_HI_BER q (2 * h)) 0).put
        (.SERDES_L_STAT_HI_BER q (2 * h + 1)) 0).raise (.SERDES_LINK_DOWN q)).portLost q h := by
  simp [Chip.portDown, hr, hs]

/-- A criterion that does not hold takes no port down. -/
theorem Chip.lineLost_none {w : Loss} (hw : c.lossHolds q h w = false) : c.lineLost q h w = c := by
  simp [Chip.lineLost, hw]

/-- A criterion other than the frequency takes its port down at once (R99). -/
theorem Chip.lineLost_held {w : Loss} (hw : c.lossHolds q h w = true) (hf : ∀ ppm, w ≠ .frequency ppm) :
    c.lineLost q h w = c.portDown q h := by
  cases w with
  | frequency ppm => exact absurd rfl (hf ppm)
  | _ => exact if_pos hw

/-- A frequency outside the window for 10 µs raises FREQ_OOR and takes a port down that is UP (R91, R99). -/
theorem Chip.lineLost_frequency {ppm : Int} (hw : c.lossHolds q h (.frequency ppm) = true) (hs : c.portState q h = 6) :
    c.lineLost q h (.frequency ppm) =
      (((c.elapse (us 10)).put (.SERDES_QSTAT_FREQ_PPM q) (wrapTo 16 ppm)).raise (.SERDES_FREQ_OOR q)).portDown q h := by
  have htile : c.isTile = true ∧ (c.tile.clk = none ∨ c.tile.clk = some h) := by
    simp only [Chip.lossHolds, Bool.and_eq_true, Bool.or_eq_true, Option.isNone_iff_eq_none, beq_iff_eq] at hw
    exact hw.1
  obtain ⟨ht, hclk⟩ := htile
  have seen : (c.elapse (us 10)).freqSeen q h ppm =
      (c.elapse (us 10)).put (.SERDES_QSTAT_FREQ_PPM q) (wrapTo 16 ppm) :=
    (Chip.freqSeen_tile (c := c.elapse (us 10)) ht).trans (if_pos hclk)
  have up : ((c.elapse (us 10)).put (.SERDES_QSTAT_FREQ_PPM q) (wrapTo 16 ppm)).portState q h = 6 := by
    rw [← hs]
    exact Chip.portState_congr (Chip.rd_put_ne _ _ _ (by simp only [Reg.SERDES_L_STAT, Reg.SERDES_QSTAT]; omega))
      (Chip.rd_put_ne _ _ _ (by simp only [Reg.SERDES_L_STAT, Reg.SERDES_QSTAT]; omega))
  simp [Chip.lineLost, hw, seen, up]

end BringUp

end Sys2Proof.Machine
end

section
/-!
PROOF. A port's way from DOWN to UP and back to DETECT (R83, R86, R89, R91, R97 to R99): the obligation O35.
-/

open Sys2Proof Sys2Proof.Machine Sys2Proof.Safety

namespace Sys2Proof.Proofs

/-- Settles O35: in each state of a port the command that belongs to it is one case of the lane layer's step. -/
theorem lanesComeUpInOrder : Obligations.LanesComeUpInOrder := by
  unfold Obligations.LanesComeUpInOrder
  intro s q h hq hh
  have hquad : decide (q < 12) = true := decide_eq_true hq
  have hport : decide (q < 12 ∧ h < 2) = true := decide_eq_true ⟨hq, hh⟩
  refine ⟨fun he => ?_, fun hl => ?_, fun a rate spread hi => ?_, fun hr hs hi rate spread h3 => ?_, fun hr hs ppm => ?_,
    fun hs l0 l1 => ?_, fun hs a b skew => ?_, fun hr hs => ?_, fun hr hs w => ?_⟩
  · exact (exec_pllLock q s).trans (State.run_next hquad (if_pos he))
  · exact (exec_pllUnlock q s).trans (State.run_next hquad (if_pos hl))
  · exact (exec_signalDetect ..).trans
      (State.run_next hport (congrArg (Chip.signalAt · q h rate spread) (Chip.idleEnd_some hi)))
  · have run : ∀ {g : Chip → Chip}, s.chip.signalAt q h rate spread = g s.chip →
        exec (.signalDetect q h rate spread) s = .next (s.effect g) := fun e =>
      (exec_signalDetect ..).trans
        (State.run_next hport ((congrArg (Chip.signalAt · q h rate spread) (Chip.idleEnd_none hi)).trans e))
    exact ⟨fun ht hrate => run ((Chip.signalAt_sender hr hs h3 ht).trans (if_pos hrate)),
      fun ht hrate => run ((Chip.signalAt_sender hr hs h3 ht).trans (if_neg hrate)),
      fun ht hu => run (Chip.signalAt_free hr hs h3 ht hu), fun ht hu => run (Chip.signalAt_bound hr hs h3 ht hu)⟩
  · have run : ∀ {g : Chip → Chip}, s.chip.cdrLocked q h ppm = g s.chip →
        exec (.cdrLock q h ppm) s = .next (s.effect g) := fun e => (exec_cdrLock ..).trans (State.run_next hport e)
    refine ⟨fun ht => run (Chip.cdrLocked_sender hr hs ht), fun ht => ⟨fun hlo hhi => run ?_, fun hout => run ?_⟩⟩
    · have inside : ¬ freqOut ppm = true := fun hout => by have := freqOut_iff.1 hout; omega
      rw [Chip.cdrLocked_tile hr hs ht, if_neg inside, Chip.freqSeen_tile ht]
    · rw [Chip.cdrLocked_tile hr hs ht, if_pos (freqOut_iff.2 hout), Chip.freqSeen_tile ht]
  · exact (exec_blockLock ..).trans (State.run_next hport (Chip.blockLocked_block hs))
  · have run : ∀ {g : Chip → Chip}, s.chip.markerLocked q h a b skew = g s.chip →
        exec (.markerLock q h a b skew) s = .next (s.effect g) := fun e => (exec_markerLock ..).trans (State.run_next hport e)
    exact ⟨fun x y hx hy hne => run (Chip.markerLocked_some hs hx hy hne), fun hl => run (Chip.markerLocked_none hs hl)⟩
  · have run : ∀ {g : Chip → Chip}, s.chip.portComesUp q h = g s.chip →
        exec (.linkUp q h) s = .next (s.effect g) := fun e => (exec_linkUp ..).trans (State.run_next hport e)
    exact ⟨fun ht => run (Chip.portComesUp_sender hr hs ht), fun ht => run (Chip.portComesUp_tile hr hs ht)⟩
  · have run : ∀ {g : Chip → Chip}, s.chip.lineLost q h w = g s.chip →
        exec (.linkDown q h w) s = .next (s.effect g) := fun e => (exec_linkDown ..).trans (State.run_next hport e)
    refine ⟨fun hw hf => run ((Chip.lineLost_held hw hf).trans (Chip.portDown_up hr hs)), fun ppm hf hw => run ?_,
      fun hw => run (Chip.lineLost_none hw)⟩
    subst hf
    exact Chip.lineLost_frequency hw hs

end Sys2Proof.Proofs
end

section
/-!
SUPPORT. What a lane tells while it runs (R85 to R89, R93, R95, R97, R99): its marker periods, its eye, and the registers of its quad.
-/

namespace Sys2Proof.Machine

/-! ### The commands as effects -/

theorem exec_alignmentMarker (q k : Nat) (l : List Block) (m : Block) (gap dt : Nat) (s : State) :
    exec (.alignmentMarker q k l m gap dt) s = s.run (.alignmentMarker q k l m gap dt) fun c =>
      (c.elapse dt).marker q k l m gap := rfl

theorem exec_eyeMeasure (q k w hgt : Nat) (ppm : Int) (s : State) :
    exec (.eyeMeasure q k w hgt ppm) s = s.run (.eyeMeasure q k w hgt ppm) fun c => c.eyeMeasured q k w hgt ppm := rfl

theorem exec_rxeqWrite (rq : Requester) (q k : Nat) (v : Word) (s : State) :
    exec (.rxeqWrite rq q k v) s = s.run (.rxeqWrite rq q k v) fun c =>
      c.regWrite rq (Reg.SERDES_L_RXEQ q k) v noVerdict := rfl

theorem exec_sscSet (rq : Requester) (q : Nat) (v : Word) (s : State) :
    exec (.sscSet rq q v) s = s.run (.sscSet rq q v) fun c => c.regWrite rq (Reg.SERDES_SSC q) v noVerdict := rfl

theorem exec_monitorSourceSet (rq : Requester) (v : Word) (s : State) :
    exec (.monitorSourceSet rq v) s = s.run (.monitorSourceSet rq v) fun c =>
      c.regWrite rq (Reg.SERDES_MON 10) v noVerdict := rfl

/-! ### A marker period -/

section Period

variable {c : Chip} {q k : Nat} {l : List Block} {m : Block}

/-- The block in the marker slot, upright. -/
def Chip.slotMark (c : Chip) (q k : Nat) (m : Block) : Block := listAt (c.upright q k [m]) 0 m

theorem Chip.all_isMarker_upright : (c.upright q k [m]).all Block.isMarker = (c.slotMark q k m).isMarker := by
  simp only [Chip.slotMark, Chip.upright]
  split <;> simp [listAt]

/-- The counts of a marker period: its invalid headers, and with a valid marker the bits in which BIP8 differs (R88, R99). -/
def Chip.periodCounted (c : Chip) (q k : Nat) (l : List Block) (mark : Block) : Chip :=
  (c.countBy (Reg.SERDES_L_HDR_ERR q k) (l.countP fun b => !b.valid)).when mark.isMarker fun c =>
    (c.countBy (Reg.SERDES_L_BIP_ERR q k) (ones8 (bip8 l ^^^ mark.bip))).setSeq q (k / 2) mark.seq

/-- A lane that receives counts its marker period, and then HI_BER and the port's rebuilt stream follow. -/
theorem Chip.markerIn_fst (hr : ronuno q k = true) (h2 : 2 ≤ c.laneState q k) (h7 : c.laneState q k ≠ 7) :
    ∃ (x : Lane) (joined : List Block), (c.markerIn q k l m).1 =
      (((c.periodCounted q k (c.upright q k l) (c.slotMark q k m)).setLane q k x).hiBerPeriod q k
        ((c.upright q k l).countP fun b => !b.valid)).rebuild q k joined := by
  rw [Chip.markerIn, if_pos ⟨hr, h2, h7⟩, Chip.all_isMarker_upright]
  exact ⟨_, _, rfl⟩

@[simp] theorem Chip.rd_rebuild (c : Chip) (q k : Nat) (l : List Block) (b : Nat) : (c.rebuild q k l).rd b = c.rd b := by
  simp only [Chip.rebuild]
  split_ifs <;> rfl

/-- HI_BER changes nothing above the header but the lane's status. -/
theorem Chip.rd_hiBerPeriod (c : Chip) {q k b : Nat} (bad : Nat) (h4 : 0x40 ≤ b % 0x1000) (h30 : b / 0x1000 ≠ 0x30)
    (hb : b ≠ Reg.SERDES_L_STAT q k) : (c.hiBerPeriod q k bad).rd b = c.rd b := by
  simp only [Chip.hiBerPeriod]
  split
  · split
    · exact Chip.rd_put_ne _ _ _ hb
    · exact (Chip.rd_raise_above_header _ _ h4 h30).trans (Chip.rd_put_ne _ _ _ hb)
  · exact Chip.rd_put_ne _ _ _ hb

/-- A period of more than 32 invalid headers sets HI_BER, and any other clears it (R99). -/
theorem Chip.flag_hiBerPeriod (c : Chip) (bad : Nat) (hq : q < 12) (hk : k < 4) :
    (c.hiBerPeriod q k bad).flag (.SERDES_L_STAT_HI_BER q k) = decide (32 < bad) := by
  have stored : ∀ n, (c.put (.SERDES_L_STAT_HI_BER q k) n).get (.SERDES_L_STAT_HI_BER q k) = n % 2 := fun n =>
    Chip.get_put_same _ _ _ (show 13 < 32 by decide)
  have raised : ∀ (d : Chip) (e : Ev), (d.raise e).get (.SERDES_L_STAT_HI_BER q k) = d.get (.SERDES_L_STAT_HI_BER q k) :=
    fun d e => congrArg (bitsOf · 13 13) (d.rd_raise_above_header e (by simp only [Reg.SERDES_L_STAT]; omega)
      (by simp only [Reg.SERDES_L_STAT]; omega))
  simp only [Chip.hiBerPeriod]
  split
  next hbad => split <;> simp [Chip.flag, raised, stored, hbad]
  next hbad => simp [Chip.flag, stored, hbad]

theorem Chip.nat_congr {c d : Chip} {a : Nat} (h : d.rd a = c.rd a) : d.nat a = c.nat a := congrArg BitVec.toNat h

/-- The invalid headers of a period are added to their count (R99). -/
theorem Chip.hdrErr_periodCounted (c : Chip) (q k : Nat) (l : List Block) (mark : Block) :
    (c.periodCounted q k l mark).nat (Reg.SERDES_L_HDR_ERR q k) =
      min (c.nat (Reg.SERDES_L_HDR_ERR q k) + l.countP fun b => !b.valid) 0xffffffff := by
  rw [← Chip.nat_countBy_same, Chip.periodCounted]
  cases mark.isMarker
  · rfl
  · exact Chip.nat_congr (Chip.rd_countBy_ne _ _ (by simp only [Reg.SERDES_L_HDR_ERR, Reg.SERDES_L_BIP_ERR]; omega))

/-- Only a valid marker adds to the count of BIP8 (R88). -/
theorem Chip.bipErr_periodCounted (c : Chip) (q k : Nat) (l : List Block) (mark : Block) :
    (c.periodCounted q k l mark).nat (Reg.SERDES_L_BIP_ERR q k) =
      if mark.isMarker then min (c.nat (Reg.SERDES_L_BIP_ERR q k) + ones8 (bip8 l ^^^ mark.bip)) 0xffffffff
      else c.nat (Reg.SERDES_L_BIP_ERR q k) := by
  have before : (c.countBy (Reg.SERDES_L_HDR_ERR q k) (l.countP fun b => !b.valid)).nat (Reg.SERDES_L_BIP_ERR q k) =
      c.nat (Reg.SERDES_L_BIP_ERR q k) :=
    Chip.nat_congr (Chip.rd_countBy_ne _ _ (by simp only [Reg.SERDES_L_HDR_ERR, Reg.SERDES_L_BIP_ERR]; omega))
  rw [Chip.periodCounted]
  cases mark.isMarker
  · exact before
  · exact (Chip.nat_countBy_same ..).trans (by rw [before]; rfl)

/-- A register above the header, but the lane's status, is after a marker period what the counts make of it. -/
theorem Chip.rd_markerIn (hr : ronuno q k = true) (h2 : 2 ≤ c.laneState q k) (h7 : c.laneState q k ≠ 7) {b : Nat}
    (h4 : 0x40 ≤ b % 0x1000) (h30 : b / 0x1000 ≠ 0x30) (hb : b ≠ Reg.SERDES_L_STAT q k) :
    (c.markerIn q k l m).1.rd b = (c.periodCounted q k (c.upright q k l) (c.slotMark q k m)).rd b := by
  obtain ⟨x, joined, h⟩ := Chip.markerIn_fst (l := l) (m := m) hr h2 h7
  rw [h, Chip.rd_rebuild, Chip.rd_hiBerPeriod _ _ h4 h30 hb, Chip.rd_setLane]

/-- After a marker period HI_BER tells whether more than 32 of its headers were invalid (R99). -/
theorem Chip.hiBer_markerIn (hr : ronuno q k = true) (h2 : 2 ≤ c.laneState q k) (h7 : c.laneState q k ≠ 7) (hq : q < 12)
    (hk : k < 4) :
    (c.markerIn q k l m).1.flag (.SERDES_L_STAT_HI_BER q k) =
      decide (32 < (c.upright q k l).countP fun b => !b.valid) := by
  obtain ⟨x, joined, h⟩ := Chip.markerIn_fst (l := l) (m := m) hr h2 h7
  rw [← Chip.flag_hiBerPeriod _ _ hq hk, h, Chip.flag, Chip.get, Chip.rd_rebuild, ← Chip.get, ← Chip.flag]

section Marker

variable {gap : Nat}

/-- A loss criterion that a period reaches takes the port down (R99). -/
theorem Chip.marker_lost (hx : (c.markerIn q k l m).2 = true) :
    c.marker q k l m gap = (c.markerIn q k l m).1.portDown q (k / 2) := if_pos hx

/-- Without a valid marker a period has no more than its counts. -/
theorem Chip.marker_invalid (hx : (c.markerIn q k l m).2 = false) (hm : (c.slotMark q k m).isMarker = false) :
    c.marker q k l m gap = (c.markerIn q k l m).1 :=
  (if_neg (ne_true_of_eq_false hx)).trans (if_neg (ne_true_of_eq_false hm))

/-- A valid marker is passed on, and stamped on the first lane of a port that is UP (R90, R132). -/
theorem Chip.marker_valid (hx : (c.markerIn q k l m).2 = false) (hm : (c.slotMark q k m).isMarker = true) :
    c.marker q k l m gap =
      let d := (c.markerIn q k l m).1.passMarker q k (c.slotMark q k m).seq
      if d.laneState q k = 6 ∧ k % 2 = 0 then d.stampMarker q (k / 2) (c.slotMark q k m).seq gap else d :=
  (if_neg (ne_true_of_eq_false hx)).trans (if_pos hm)

end Marker

end Period

/-! ### The eye -/

section Eye

variable {c : Chip} {q k w hgt : Nat} {ppm : Int}

@[simp] theorem Chip.adaptLane_quads (c : Chip) (q k : Nat) : (c.adaptLane q k).quads = c.quads := by
  simp only [Chip.adaptLane]
  split <;> rfl

@[simp] theorem Chip.freqSeen_quads (c : Chip) (q h : Nat) (ppm : Int) : (c.freqSeen q h ppm).quads = c.quads := by
  simp only [Chip.freqSeen]
  split <;> rfl

/-- A measurement is shown: what the equaliser has found, at a port's first lane the frequency, and the eye (R97, R104). -/
def Chip.eyeShown (c : Chip) (q k w hgt : Nat) (ppm : Int) : Chip :=
  let d := c.adaptLane q k
  (((if k % 2 = 0 then d.freqSeen q (k / 2) ppm else d).put (.SERDES_L_EYE_VALID q k) 1).put
    (.SERDES_L_EYE_WIDTH q k) w).put (.SERDES_L_EYE_HEIGHT q k) hgt

/-- What is shown leaves the run of low measurements. -/
theorem Chip.lane_eyeShown (c : Chip) (q k w hgt : Nat) (ppm : Int) (i : Nat) :
    (c.eyeShown q k w hgt ppm).lane q i = c.lane q i := by
  have quads : (c.eyeShown q k w hgt ppm).quads = c.quads := by
    rw [← Chip.adaptLane_quads c q k, Chip.eyeShown]
    split
    · exact Chip.freqSeen_quads ..
    · rfl
  simp only [Chip.lane, Chip.quad, quads]

/-- What is shown leaves the thresholds of the eye. -/
theorem Chip.rd_eyeMin_eyeShown (c : Chip) (q k w hgt : Nat) (ppm : Int) :
    (c.eyeShown q k w hgt ppm).rd (Reg.SERDES_EYE_MIN q) = c.rd (Reg.SERDES_EYE_MIN q) := by
  have hput : ∀ (d : Chip) (hi lo n : Nat),
      (d.put ⟨Reg.SERDES_L_EYE q k, hi, lo⟩ n).rd (Reg.SERDES_EYE_MIN q) = d.rd (Reg.SERDES_EYE_MIN q) := fun d _ _ _ =>
    Chip.rd_put_ne _ _ _ (by simp only [Reg.SERDES_EYE_MIN, Reg.SERDES_L_EYE]; omega)
  rw [← c.rd_adaptLane (q := q) (k := k) (by simp only [Reg.SERDES_EYE_MIN, Reg.SERDES_L_RXEQ]; omega), Chip.eyeShown,
    hput, hput, hput]
  split
  · exact Chip.rd_freqSeen _ _ (by simp only [Reg.SERDES_EYE_MIN, Reg.SERDES_QSTAT]; omega)
  · rfl

/-- A measurement below a threshold (R97). -/
def Chip.eyeLow (c : Chip) (q w hgt : Nat) : Bool :=
  decide (w < c.get (.SERDES_EYE_MIN_WIDTH q)) || decide (hgt < c.get (.SERDES_EYE_MIN_HEIGHT q))

theorem Chip.eyeLow_iff :
    c.eyeLow q w hgt = true ↔ w < c.get (.SERDES_EYE_MIN_WIDTH q) ∨ hgt < c.get (.SERDES_EYE_MIN_HEIGHT q) := by
  simp [Chip.eyeLow]

theorem Chip.eyeLow_eyeShown : (c.eyeShown q k w hgt ppm).eyeLow q w hgt = c.eyeLow q w hgt := by
  have threshold (hi lo : Nat) : (c.eyeShown q k w hgt ppm).get ⟨Reg.SERDES_EYE_MIN q, hi, lo⟩ =
      c.get ⟨Reg.SERDES_EYE_MIN q, hi, lo⟩ := congrArg (bitsOf · hi lo) (c.rd_eyeMin_eyeShown ..)
  rw [Chip.eyeLow, Chip.eyeLow, threshold, threshold]

section Measured

variable (h6 : c.laneState q k = 6)

include h6

/-- The eye of a lane that is UP is shown, and the runs of low and of good measurements follow (R97). -/
theorem Chip.eyeMeasured_up :
    c.eyeMeasured q k w hgt ppm =
      let e := c.eyeShown q k w hgt ppm
      let l := c.lane q k
      if c.eyeLow q w hgt then
        if 2 ≤ l.low + 1 ∧ l.told = false then
          (e.setLane q k { l with low := l.low + 1, good := 0, told := true }).raise (.SERDES_EYE_LOW q)
        else e.setLane q k { l with low := l.low + 1, good := 0 }
      else
        e.setLane q k (if 2 ≤ l.good + 1 then { l with low := 0, good := l.good + 1, told := false }
          else { l with low := 0, good := l.good + 1 }) := by
  rw [← Chip.lane_eyeShown c q k w hgt ppm k, ← Chip.eyeLow_eyeShown (k := k) (ppm := ppm)]
  exact if_pos h6

/-- A good measurement ends the run of low ones; the second in a row lets EYE_LOW be told anew. -/
theorem Chip.eyeMeasured_good (hlow : c.eyeLow q w hgt = false) :
    let l := c.lane q k
    c.eyeMeasured q k w hgt ppm = (c.eyeShown q k w hgt ppm).setLane q k
      { l with low := 0, good := l.good + 1, told := decide (l.good = 0) && l.told } := by
  rw [Chip.eyeMeasured_up h6]
  by_cases hgood : (c.lane q k).good = 0 <;> simp [hlow, hgood, Nat.one_le_iff_ne_zero]

variable (hlow : c.eyeLow q w hgt = true)

include hlow

/-- The second low measurement in a row raises EYE_LOW once. -/
theorem Chip.eyeMeasured_tells (h1 : 1 ≤ (c.lane q k).low) (ht : (c.lane q k).told = false) :
    let l := c.lane q k
    c.eyeMeasured q k w hgt ppm = ((c.eyeShown q k w hgt ppm).setLane q k
      { l with low := l.low + 1, good := 0, told := true }).raise (.SERDES_EYE_LOW q) := by
  simp [Chip.eyeMeasured_up h6, hlow, h1, ht]

/-- The first low measurement in a row, and any after EYE_LOW was told, only counts. -/
theorem Chip.eyeMeasured_counts (h : (c.lane q k).low = 0 ∨ (c.lane q k).told = true) :
    let l := c.lane q k
    c.eyeMeasured q k w hgt ppm = (c.eyeShown q k w hgt ppm).setLane q k { l with low := l.low + 1, good := 0 } := by
  rw [Chip.eyeMeasured_up h6]
  rcases h with h | h <;> simp [hlow, h]

end Measured

end Eye

/-! ### Registers of a quad -/

section Registers

variable {c : Chip} {rq : Requester} {q k : Nat} {x : Verdict}

theorem rowOf_serdesRxeq (hq : q < 12) (hk : k < 4) :
    rowOf (Reg.SERDES_L_RXEQ q k) = some ⟨0x084, 4, 0x40, .rw, 0x00000000, 0xcfffffff, .plain⟩ :=
  (by decide : ∀ q < 12, ∀ k < 4,
    rowOf (Reg.SERDES_L_RXEQ q k) = some ⟨0x084, 4, 0x40, .rw, 0x00000000, 0xcfffffff, .plain⟩) q hq k hk

theorem rowOf_serdesSsc (hq : q < 12) :
    rowOf (Reg.SERDES_SSC q) = some ⟨0x044, 1, 0x0, .rwl, 0x00000000, 0x0000010f, .plain⟩ :=
  (by decide : ∀ q < 12,
    rowOf (Reg.SERDES_SSC q) = some ⟨0x044, 1, 0x0, .rwl, 0x00000000, 0x0000010f, .plain⟩) q hq

theorem rowOf_serdesMon :
    rowOf (Reg.SERDES_MON 10) = some ⟨0x050, 1, 0x0, .rw, 0x00000000, 0x8000010f, .plain⟩ := by decide

theorem Chip.serdesHook_rxeq (st : Chip) (hk : k < 4) (v : Word) :
    c.serdesHook st (Reg.SERDES_L_RXEQ q k) v = c.rxeqSet q k v := by
  have hi : pageIdx (Reg.SERDES_L_RXEQ q k) 0x10 = q := by simp only [pageIdx, Reg.SERDES_L_RXEQ]; omega
  have hprbs : idxIn (Reg.SERDES_L_RXEQ q k) (Reg.SERDES_L_PRBS q 0) 4 0x40 = none := by
    simp only [idxIn, Reg.SERDES_L_RXEQ, Reg.SERDES_L_PRBS]
    exact if_pos (by omega)
  have hrxeq : idxIn (Reg.SERDES_L_RXEQ q k) (Reg.SERDES_L_RXEQ q 0) 4 0x40 = some k := by
    simp only [idxIn, Reg.SERDES_L_RXEQ]
    rw [if_neg (by omega)]
    congr 1
    omega
  have h1 : Reg.SERDES_L_RXEQ q k ≠ Reg.SERDES_QCFG q := by simp only [Reg.SERDES_L_RXEQ, Reg.SERDES_QCFG]; omega
  have h2 : Reg.SERDES_L_RXEQ q k ≠ Reg.SERDES_SSC q := by simp only [Reg.SERDES_L_RXEQ, Reg.SERDES_SSC]; omega
  have h3 : Reg.SERDES_L_RXEQ q k ≠ Reg.SERDES_MON q := by simp only [Reg.SERDES_L_RXEQ, Reg.SERDES_MON]; omega
  have h4 : Reg.SERDES_L_RXEQ q k ≠ Reg.SERDES_LB q := by simp only [Reg.SERDES_L_RXEQ, Reg.SERDES_LB]; omega
  simp only [Chip.serdesHook, hi, hprbs, hrxeq, h1, h2, h3, h4, if_false, decide_false, Bool.false_and, Bool.false_eq_true]

theorem Chip.serdesHook_ssc (st : Chip) (v : Word) :
    c.serdesHook st (Reg.SERDES_SSC q) v = if c.isTile then c else st := by
  have hi : pageIdx (Reg.SERDES_SSC q) 0x10 = q := by simp only [pageIdx, Reg.SERDES_SSC]; omega
  have h1 : Reg.SERDES_SSC q ≠ Reg.SERDES_QCFG q := by simp only [Reg.SERDES_SSC, Reg.SERDES_QCFG]; omega
  simp only [Chip.serdesHook, hi, if_neg h1, if_true]

theorem Chip.serdesHook_mon (st : Chip) (v : Word) : c.serdesHook st (Reg.SERDES_MON 10) v = st := rfl

/-- The spread's register lies in its quad's page, above the header, and is there in both roles. -/
theorem Chip.serdesSsc_place (c : Chip) (hq : q < 12) :
    Reg.SERDES_SSC q / 0x1000 = 0x10 + q ∧ 0x40 ≤ Reg.SERDES_SSC q % 0x1000 ∧ c.roleZero (Reg.SERDES_SSC q) = false := by
  have page : Reg.SERDES_SSC q / 0x1000 = 0x10 + q := by simp only [Reg.SERDES_SSC]; omega
  exact ⟨page, by simp only [Reg.SERDES_SSC]; omega, c.roleZero_other _ (by simp [page]; omega)⟩

/-- Only MODE LOAD takes the equaliser's values (R97). -/
theorem Chip.regWrite_rxeq (hq : q < 12) (hk : k < 4) (ht : Safety.takes c rq (Reg.SERDES_L_RXEQ q k) = true) (v : Word) :
    c.regWrite rq (Reg.SERDES_L_RXEQ q k) v x =
      c.wr (Reg.SERDES_L_RXEQ q k)
        (if bitsOf v 31 30 = 2 then v &&& 0xcfffffff
         else withBits (c.rd (Reg.SERDES_L_RXEQ q k)) 31 30 (bitsOf v 31 30)) := by
  have mode : bitsOf (v &&& 0xcfffffff) 31 30 = bitsOf v 31 30 := by
    rw [bitsOf_and]
    exact (Nat.and_two_pow_sub_one_eq_mod _ 2).trans (Nat.mod_eq_of_lt (bitsOf_lt v 31 30))
  rw [Chip.regWrite_serdes hq (by simp only [Reg.SERDES_L_RXEQ]; omega) ht (rowOf_serdesRxeq hq hk) rfl,
    Chip.serdesHook_rxeq _ hk, Chip.rxeqSet, mode, BitVec.and_assoc, BitVec.and_self, apply_ite (c.wr _)]

/-- The spread of an enabled quad is locked (R93). -/
theorem Chip.regWrite_ssc_enabled (hq : q < 12) (ht : Safety.takes c rq (Reg.SERDES_SSC q) = true) (v : Word)
    (he : c.enabled (0x10 + q) = true) : c.regWrite rq (Reg.SERDES_SSC q) v x = c.reject (Reg.SERDES_SSC q) := by
  obtain ⟨page, above, present⟩ := c.serdesSsc_place hq
  rw [Chip.regWrite_takes _ _ _ _ _ ht]
  exact Chip.pageWrite_rwl_enabled above present (rowOf_serdesSsc hq) rfl (page ▸ he)

/-- A sender's disabled quad takes its spread (R93). -/
theorem Chip.regWrite_ssc_disabled (hq : q < 12) (ht : Safety.takes c rq (Reg.SERDES_SSC q) = true) (v : Word)
    (he : c.enabled (0x10 + q) = false) (hs : c.isTile = false) :
    c.regWrite rq (Reg.SERDES_SSC q) v x =
      c.wr (Reg.SERDES_SSC q) ((c.rd (Reg.SERDES_SSC q) &&& ~~~0x10f) ||| (v &&& 0x10f)) := by
  obtain ⟨page, -, present⟩ := c.serdesSsc_place hq
  have stored (st : Chip) (w : Word) : c.pageHook st rq (Reg.SERDES_SSC q) w x = st := by
    simp only [Chip.pageHook, page, classOf_serdes hq]
    exact (Chip.serdesHook_ssc st w).trans (by simp [hs])
  rw [Chip.regWrite_takes _ _ _ _ _ ht]
  simp [Chip.pageWrite, present, rowOf_serdesSsc hq, page, he, stored, Chip.regStore]

/-- The monitor's source is a plain register of Q10 (R95). -/
theorem Chip.regWrite_mon (ht : Safety.takes c rq (Reg.SERDES_MON 10) = true) (v : Word) :
    c.regWrite rq (Reg.SERDES_MON 10) v x =
      c.wr (Reg.SERDES_MON 10) ((c.rd (Reg.SERDES_MON 10) &&& ~~~0x8000010f) ||| (v &&& 0x8000010f)) := by
  rw [Chip.regWrite_serdes (q := 10) (by decide) (by decide) ht rowOf_serdesMon rfl, Chip.serdesHook_mon, Chip.regStore]

end Registers

end Sys2Proof.Machine
end

section
/-!
PROOF. What a lane's marker periods, its eye and its registers tell (R85 to R89, R93, R95, R97, R99): the obligation O36.
-/

open Sys2Proof Sys2Proof.Machine Sys2Proof.Safety

namespace Sys2Proof.Proofs

/-- Settles O36: a marker period is its counts and then what its marker and the loss criteria bring, a measurement of the eye one of
three cases, and each write the quad's to judge. -/
theorem lanesAreWatched : Obligations.LanesAreWatched := by
  unfold Obligations.LanesAreWatched
  intro s rq q k hq hk
  have hlane : decide (q < 12 ∧ k < 4) = true := decide_eq_true ⟨hq, hk⟩
  refine ⟨fun c l m hr h2 h7 => ?_, fun l m gap dt => ?_, fun w hgt ppm h6 => ?_, fun v ht => ?_, fun v ht => ?_,
    fun v ht => ?_⟩
  · have kept {b : Nat} (h4 : 0x40 ≤ b % 0x1000) (h30 : b / 0x1000 ≠ 0x30) (hb : b ≠ Reg.SERDES_L_STAT q k) :=
      Chip.nat_congr (Chip.rd_markerIn (l := l) (m := m) hr h2 h7 h4 h30 hb)
    refine ⟨(kept ?_ ?_ ?_).trans (Chip.hdrErr_periodCounted ..), (kept ?_ ?_ ?_).trans (Chip.bipErr_periodCounted ..),
      Chip.hiBer_markerIn hr h2 h7 hq hk⟩ <;>
      simp only [Reg.SERDES_L_HDR_ERR, Reg.SERDES_L_BIP_ERR, Reg.SERDES_L_STAT] <;> omega
  · have run : ∀ {g : Chip → Chip}, (s.chip.elapse dt).marker q k l m gap = g s.chip →
        exec (.alignmentMarker q k l m gap dt) s = .next (s.effect g) := fun e =>
      (exec_alignmentMarker ..).trans (State.run_next hlane e)
    exact ⟨fun hx => run (Chip.marker_lost hx), fun hx hm => run (Chip.marker_invalid hx hm),
      fun hx hm => run (Chip.marker_valid hx hm)⟩
  · have run : ∀ {g : Chip → Chip}, s.chip.eyeMeasured q k w hgt ppm = g s.chip →
        exec (.eyeMeasure q k w hgt ppm) s = .next (s.effect g) := fun e => (exec_eyeMeasure ..).trans (State.run_next hlane e)
    intro e l low
    exact ⟨fun hlow => run (Chip.eyeMeasured_good h6 (Bool.eq_false_iff.2 (mt Chip.eyeLow_iff.1 hlow))),
      fun hlow h1 ht => run (Chip.eyeMeasured_tells h6 (Chip.eyeLow_iff.2 hlow) h1 ht),
      fun hlow h => run (Chip.eyeMeasured_counts h6 (Chip.eyeLow_iff.2 hlow) h)⟩
  · exact (exec_rxeqWrite ..).trans (State.run_next hlane (Chip.regWrite_rxeq hq hk ht v))
  · have run : ∀ {g : Chip → Chip}, s.chip.regWrite rq (Reg.SERDES_SSC q) v noVerdict = g s.chip →
        exec (.sscSet rq q v) s = .next (s.effect g) := fun e =>
      (exec_sscSet ..).trans (State.run_next (decide_eq_true hq) e)
    exact ⟨fun he => run (Chip.regWrite_ssc_enabled hq ht v he),
      fun he hs => run (Chip.regWrite_ssc_disabled hq ht v he hs)⟩
  · exact (exec_monitorSourceSet ..).trans (State.run_next rfl (Chip.regWrite_mon ht v))

end Sys2Proof.Proofs
end

section
/-!
SUPPORT. What the checks of R107 make of a cell that comes with no stray block before it, and what a cell that passes through a
tile leaves as it was (R108).
-/

namespace Sys2Proof.Machine

open Safety

/-! ### The checks of a cell (R107) -/

section Checks

variable {c : Chip} {port : Nat} {x : Cell} {h : Hdr} {rx : Rx} (hp : rx.pre = [])

include hp

/-- Under a wrong header CRC the start block is no cell, and the blocks after it belong to none. -/
theorem Chip.checkCell_badHeader (hc : rx.cut = none) (hh : rx.hcrc ≠ x.hcrc h) : c.checkCell port x h rx =
    ((c.count (Reg.CHAIN_HCRC_ERR port)).countBy (Reg.CHAIN_ORPHAN port) (x.blocks - 1), false) := by
  simp [Chip.checkCell, hp, hc, hh]

variable (hh : rx.hcrc = x.hcrc h)

include hh

/-- A cell of the other direction is an orphan. -/
theorem Chip.checkCell_wrongWay (hw : c.wrongWay port x = true) :
    c.checkCell port x h rx = (c.count (Reg.CHAIN_ORPHAN port), false) := by
  simp [Chip.checkCell, hp, hh, hw]

variable (hw : c.wrongWay port x = false)

include hw

/-- A cell cut short lacks data blocks when the block that cuts it comes. -/
theorem Chip.checkCell_cut {k : Nat} {b : Block} (hc : rx.cut = some (k, b)) :
    c.checkCell port x h rx = ((Chip.stray port (c, 1) b).1, false) := by
  simp [Chip.checkCell, hp, hh, hw, hc]

/-- A whole cell with a wrong content CRC is counted. -/
theorem Chip.checkCell_badContent (hc : rx.cut = none) (hx : x.hasData = true) (hr : rx.crc ≠ x.crc h rx.tag) :
    c.checkCell port x h rx = (c.count (Reg.CHAIN_CRC_ERR port), false) := by
  simp [Chip.checkCell, hp, hh, hw, hc, hx, hr]

end Checks

/-- A whole cell with both its CRCs right and no stray block before it is sound. -/
theorem soundRx_of {x : Cell} {h : Hdr} {rx : Rx} (hp : rx.pre = []) (hc : rx.cut = none) (hh : rx.hcrc = x.hcrc h)
    (hr : rx.crc = x.crc h rx.tag) : soundRx x h rx = true := by
  simp [soundRx, Rx.holds, hp, hc, hh, hr]

/-! ### Directions (R107) -/

section Direction

variable {c : Chip} {port : Nat} {x : Cell}

/-- A return cell comes the right way to a sender's port. -/
theorem Chip.wrongWay_sender (ht : c.isTile = false) (hx : x.returns = true) : c.wrongWay port x = false := by
  simp [Chip.wrongWay, ht, hx]

/-- A return cell comes the right way to a port that is not a tile's upstream one. -/
theorem Chip.wrongWay_return (hx : x.returns = true) (hu : c.tile.up ≠ some port) : c.wrongWay port x = false := by
  cases hup : c.tile.up with
  | none => simp [Chip.wrongWay, hx, hup]
  | some p =>
    have other : port ≠ p := fun e => hu (e ▸ hup)
    simp [Chip.wrongWay, hx, hup, other]

/-- Off a ring no forward cell comes from downstream. -/
theorem Chip.wrongWay_downstream (ht : c.isTile = true) (hr : c.flag .ELDER_T_CFG_RING = false) (hp : port < 2)
    (hu : c.tile.up = some (1 - port)) (hx : x.returns = false) : c.wrongWay port x = true := by
  have other : port ≠ 1 - port := by omega
  simp [Chip.wrongWay, ht, hr, hu, hx, other]

end Direction

/-! ### A cell passes through a tile (R108) -/

section Pass

variable (c : Chip) (port : Nat) (x : Cell) (h : Hdr) (rx : Rx)

/-- What does not depend on the lanes and on what was sent is as before the cell went on. -/
theorem Chip.passDown_keeps {α : Type} (f : Chip → α) (hf : ∀ q o, f { c with quads := q, out := o } = f c) :
    f (c.passDown port x h rx) = f c := by
  obtain ⟨q, o, e⟩ := c.passDown_sameButWire port x h rx
  rw [e, hf]

@[simp] theorem Chip.passDown_tile : (c.passDown port x h rx).tile = c.tile :=
  c.passDown_keeps port x h rx Chip.tile fun _ _ => rfl

@[simp] theorem Chip.passDown_fuses : (c.passDown port x h rx).fuses = c.fuses :=
  c.passDown_keeps port x h rx Chip.fuses fun _ _ => rfl

@[simp] theorem Chip.passDown_isTile : (c.passDown port x h rx).isTile = c.isTile :=
  c.passDown_keeps port x h rx Chip.isTile fun _ _ => rfl

@[simp] theorem Chip.passDown_flag (g : Fld) : (c.passDown port x h rx).flag g = c.flag g :=
  c.passDown_keeps port x h rx (fun d => d.flag g) fun _ _ => rfl

@[simp] theorem Chip.passDown_slot (n : Nat) : (c.passDown port x h rx).slot n = c.slot n :=
  c.passDown_keeps port x h rx (fun d => d.slot n) fun _ _ => rfl

@[simp] theorem Chip.passDown_namesMe (g : Hdr) : (c.passDown port x h rx).namesMe g = c.namesMe g :=
  c.passDown_keeps port x h rx (fun d => d.namesMe g) fun _ _ => rfl

@[simp] theorem Chip.passDown_tagOk (y : Cell) (g : Hdr) (r : Rx) : (c.passDown port x h rx).tagOk y g r = c.tagOk y g r :=
  c.passDown_keeps port x h rx (fun d => d.tagOk y g r) fun _ _ => rfl

@[simp] theorem Chip.passDown_upPort : (c.passDown port x h rx).upPort = c.upPort := by simp [Chip.upPort]

end Pass

/-! ### A forward cell at a tile (R107, R109) -/

section Receive

variable {c : Chip} {port : Nat} {x : Cell} {h : Hdr} {rx : Rx}

/-- A forward cell at one of a tile's two ports is the tile's to judge. -/
theorem Chip.forwardCell_tile (ht : c.isTile = true) (hp : port < 2) (f : Chip → Chip) : c.forwardCell port x h rx f = f c := by
  simp [Chip.forwardCell, ht, hp]

/-- A tile does not act on a cell that fails its checks. -/
theorem Chip.receive_failed {d : Chip} (hk : c.checkCell port x h rx = (d, false)) : c.receive port x h rx = (d, false) := by
  simp [Chip.receive, hk]

/-- A sound forward cell of the upstream port is the tile's to act on once it has gone on. -/
theorem Chip.receive_passDown (hs : soundRx x h rx = true) (ht : c.isTile = true) (hu : c.tile.up = some port)
    (hx : x.returns = false) : (c.passDown port x h rx).receive port x h rx = (c.passDown port x h rx, true) :=
  Chip.receive_sound _ port x h rx hs ((c.passDown_isTile port x h rx).trans ht) (by rw [Chip.passDown_tile, hu]) hx

end Receive

end Sys2Proof.Machine
end

section
/-!
SUPPORT. Tagged commands at a tile that are refused, not for it or done before (R107 to R109, R113, R115 to R117), and the keys
that the tile gives up (R123).
-/

namespace Sys2Proof.Machine

open Safety

/-! ### The commands as effects -/

theorem exec_oldKeyExpiry (s : State) :
    exec .oldKeyExpiry s = s.run .oldKeyExpiry fun c => if c.isTile then c.dropOldKey else c := rfl

/-- A tile without a session verifies no tag. -/
theorem Chip.session_of_tagOk {c : Chip} {x : Cell} {h : Hdr} {rx : Rx} (hg : c.tagOk x h rx = true) :
    c.tile.session.isNone = false := by
  cases hk : c.tile.session with
  | none => simp [Chip.tagOk, Chip.tileKey, hk] at hg
  | some k => rfl

/-! ### A command that fails its checks (R107) -/

section Command

variable {c : Chip} {port : Nat} {h : Hdr} {x : Cmd} {rx : Rx} {amodes : List Nat} {run : Chip → Chip × Ans}
variable (ht : c.isTile = true) (hp : port < 2)

include ht hp

theorem Chip.tileCmd_tile : c.tileCmd port h x rx amodes run = c.tagged port h x rx amodes run :=
  Chip.forwardCell_tile ht hp _

/-- A command that fails its checks goes on, and has no effect but what the checks count. -/
theorem Chip.tileCmd_failed {d : Chip}
    (hk : (c.passDown port (.command h x) h rx).checkCell port (.command h x) h rx = (d, false)) :
    c.tileCmd port h x rx amodes run = d := by
  simp [Chip.tileCmd_tile ht hp, Chip.tagged, Chip.receive_failed hk]

/-! ### A sound command (R109, R113, R115 to R117) -/

variable (hu : c.tile.up = some port) (hs : soundRx (.command h x) h rx = true)

include hu hs

/-- A sound command that does not name the tile only goes on (R109). -/
theorem Chip.tileCmd_unnamed (hn : c.namesMe h = false) :
    c.tileCmd port h x rx amodes run = c.passDown port (.command h x) h rx := by
  simp [Chip.tileCmd_tile ht hp, Chip.tagged, Chip.receive_passDown hs ht hu rfl, hn]

variable (hn : c.namesMe h = true)

include hn

/-- A command without a tag is a tag failure (R116). -/
theorem Chip.tileCmd_untagged (ha : x.unauth = true) :
    c.tileCmd port h x rx amodes run = (c.passDown port (.command h x) h rx).tagErr := by
  simp [Chip.tileCmd_tile ht hp, Chip.tagged, Chip.receive_passDown hs ht hu rfl, hn, ha]

variable (ha : x.unauth = false)

include ha

/-- A wrong tag is a tag failure (R113). -/
theorem Chip.tileCmd_badTag (hk : c.tile.session.isSome = true) (hg : c.tagOk (.command h x) h rx = false) :
    c.tileCmd port h x rx amodes run = (c.passDown port (.command h x) h rx).tagErr := by
  have keyed : c.tile.session ≠ none := Option.isSome_iff_ne_none.1 hk
  simp [Chip.tileCmd_tile ht hp, Chip.tagged, Chip.receive_passDown hs ht hu rfl, hn, ha, keyed, hg]

variable (hg : c.tagOk (.command h x) h rx = true)

include hg

/-- A CTR that is not beyond the last is a replay (R114). -/
theorem Chip.tileCmd_replayed (hx : x.ctr ≤ c.tile.ctrMax) : c.tileCmd port h x rx amodes run =
    (c.passDown port (.command h x) h rx).count (Reg.CHAIN_REPLAY_REJ c.upPort) := by
  simp [Chip.tileCmd_tile ht hp, Chip.tagged, Chip.receive_passDown hs ht hu rfl, hn, ha, Chip.session_of_tagOk hg, hg, hx]

variable (hx : c.tile.ctrMax < x.ctr)

include hx

/-- A command whose TOKEN is kept is answered again with DUP, and not carried out (R117). -/
theorem Chip.tileCmd_kept {k : Rec} (hk : assoc c.tile.kept x.token = some k) : c.tileCmd port h x rx amodes run =
    ((begun c port h x rx).onTile fun t => { t with dupSeen := true }).queueRec k.withDup := by
  simp [Chip.tileCmd_tile ht hp, Chip.tagged, Chip.receive_passDown hs ht hu rfl, hn, ha, Chip.session_of_tagOk hg, hg,
    hx.not_ge, hk, begun]

variable (hk : assoc c.tile.kept x.token = none)

include hk

/-- An unknown OP completes FAILED with cause UNKNOWN_OP, and is not kept (R115). -/
theorem Chip.tileCmd_unknownOp (ho : knownOps.contains x.op = false) : c.tileCmd port h x rx amodes run =
    (begun c port h x rx).queueRec (.completion x.token 1 1 false []) := by
  have unknown : x.op ∉ knownOps := by simpa using ho
  simp [Chip.tileCmd_tile ht hp, Chip.tagged, Chip.receive_passDown hs ht hu rfl, hn, ha, Chip.session_of_tagOk hg, hg,
    hx.not_ge, hk, unknown, begun]

/-- An AMODE outside the OP's column completes FAILED with cause TARGET, and is not kept (R115). -/
theorem Chip.tileCmd_wrongTarget (ho : knownOps.contains x.op = true) (hm : amodes.contains h.amode = false) :
    c.tileCmd port h x rx amodes run = (begun c port h x rx).queueRec (.completion x.token 1 12 false []) := by
  have known : x.op ∈ knownOps := by simpa using ho
  have outside : h.amode ∉ amodes := by simpa using hm
  simp [Chip.tileCmd_tile ht hp, Chip.tagged, Chip.receive_passDown hs ht hu rfl, hn, ha, Chip.session_of_tagOk hg, hg,
    hx.not_ge, hk, known, outside, begun]

end Command

/-! ### Keys that the tile gives up (R123) -/

section Keys

variable {c : Chip} {k : Session} (hk : c.tile.session = some k)

include hk

/-- Sixteen ticks after the boundary the old key is dropped. -/
theorem Chip.dropOldKey_drops (ho : k.old = true) (hi : k.epoch * 2 ^ 20 + 16 ≤ c.lastIndex) : c.dropOldKey =
    (c.setSlot 8 { c.slot 8 with next := none }).onTile fun t => { t with session := some { k with old := false } } := by
  simp only [Chip.dropOldKey, hk]
  exact if_pos ⟨ho, hi⟩

/-- At the boundary the tile goes over to the key that REKEY gave, and keeps the old one. -/
theorem Chip.tileEpoch_turns (hn : k.next = true) (he : k.epoch < c.lastIndex / 2 ^ 20) : c.tileEpoch =
    let x := c.slot 8
    let e := c.lastIndex / 2 ^ 20
    ((c.setSlot 8 { x with key := x.next.getD x.key, next := some x.key, epoch := e }).onTile fun t =>
      { t with session := some ⟨e, false, true⟩ }).raise .KEYS_REKEYED := by
  simp only [Chip.tileEpoch, hk]
  exact if_pos ⟨hn, he⟩

end Keys

end Sys2Proof.Machine
end

section
/-!
PROOF. What a tile refuses, counts and repeats, and the keys it gives up (R107 to R109, R113, R115 to R117, R123): the obligation
O42.
-/

open Sys2Proof Sys2Proof.Machine Sys2Proof.Safety

namespace Sys2Proof.Proofs

/-- Settles O42: a command falls at the first check that fails, and each check is one case of the tile's meaning of it. -/
theorem tagsGuardCommands : Obligations.TagsGuardCommands := by
  unfold Obligations.TagsGuardCommands
  constructor
  · intro c port h x rx amodes run ht hp hpre y d
    have tile : d.isTile = true := (c.passDown_isTile ..).trans ht
    have facing {k : Nat} (hu : c.tile.up = some k) : d.tile.up = some k := (congrArg Tile.up (c.passDown_tile ..)).trans hu
    refine ⟨fun hc hh => Chip.tileCmd_failed ht hp (Chip.checkCell_badHeader hpre hc hh), fun hh hr hu => ?_, fun hh hu => ?_,
      fun hs hu => ⟨Chip.tileCmd_unnamed ht hp hu hs, fun hn => ⟨Chip.tileCmd_untagged ht hp hu hs hn,
        Chip.tileCmd_badTag ht hp hu hs hn, fun ha hg => ⟨Chip.tileCmd_replayed ht hp hu hs hn ha hg, fun hx =>
          ⟨fun k => Chip.tileCmd_kept ht hp hu hs hn ha hg hx, fun hk =>
            ⟨Chip.tileCmd_unknownOp ht hp hu hs hn ha hg hx hk, Chip.tileCmd_wrongTarget ht hp hu hs hn ha hg hx hk⟩⟩⟩⟩⟩⟩
    · have down : d.wrongWay port y = true :=
        Chip.wrongWay_downstream tile ((c.passDown_flag ..).trans hr) hp (facing hu) rfl
      exact Chip.tileCmd_failed ht hp (Chip.checkCell_wrongWay hpre hh down)
    · have way : d.wrongWay port y = false := d.wrongWay_forward port y tile (facing hu) rfl
      exact ⟨fun n b hc => Chip.tileCmd_failed ht hp (Chip.checkCell_cut hpre hh way hc),
        fun hc hr => Chip.tileCmd_failed ht hp (Chip.checkCell_badContent hpre hh way hc rfl hr)⟩
  · intro s k ht hk
    exact ⟨fun ho hi => (exec_oldKeyExpiry s).trans (State.run_next rfl ((if_pos ht).trans (Chip.dropOldKey_drops hk ho hi))),
      fun hn he => (exec_keyEpochBoundary s).trans (State.run_next rfl ((if_pos ht).trans (Chip.tileEpoch_turns hk hn he)))⟩

end Sys2Proof.Proofs
end

section
/-!
SUPPORT. What tiles answer to a sender's discovery, and its rounds (R107, R134 to R137, R355 to R357): the checks of a return cell,
HELLO, ID_PART, KEYX_RESP and REFUSED, requests without an answer, the list's WDN, lonely ports.
-/

namespace Sys2Proof.Machine

open Safety

/-! ### The commands as effects -/

theorem exec_helloReceive (n : Nat) (h : Hdr) (a : Answer) (orient : Nat) (card : Option CalRec) (rx : Rx) (s : State) :
    exec (.helloReceive n h a orient card rx) s = s.run (.helloReceive n h a orient card rx) fun c =>
      c.returnIn n (.answer 0 a) h rx fun c => c.helloIn n a orient card := rfl

theorem exec_idPartReceive (n : Nat) (h : Hdr) (a : Answer) (cert sig : Bool) (rx : Rx) (s : State) :
    exec (.idPartReceive n h a cert sig rx) s = s.run (.idPartReceive n h a cert sig rx) fun c =>
      c.returnIn n (.answer 0 a) h rx fun c => c.idPart n a.serial a.part a.body cert sig := rfl

theorem exec_idReqTimeout (n serial : Nat) (s : State) :
    exec (.idReqTimeout n serial) s = s.run (.idReqTimeout n serial) fun c =>
      if c.isSender && c.asked n serial then c.idUnanswered n serial else c := rfl

theorem exec_keyxRespReceive (n : Nat) (h : Hdr) (a : Answer) (ok : Bool) (rx : Rx) (s : State) :
    exec (.keyxRespReceive n h a ok rx) s = s.run (.keyxRespReceive n h a ok rx) fun c =>
      c.returnIn n (.answer 0 a) h rx fun c => (c.keyxResp n a.serial ok).calWaiting := rfl

theorem exec_refusedReceive (n : Nat) (h : Hdr) (a : Answer) (rx : Rx) (s : State) :
    exec (.refusedReceive n h a rx) s = s.run (.refusedReceive n h a rx) fun c =>
      c.returnIn n (.answer 0 a) h rx fun c => c.refusedAns n a.serial (leNat (a.body.take 1)) := rfl

theorem exec_chainListWdn (rq : Requester) (n : Nat) (v : Word) (s : State) :
    exec (.chainListWdn rq n v) s = s.run (.chainListWdn rq n v) fun c =>
      (c.regWrite rq (Reg.CHAIN_LIST_WDN n) v noVerdict).calWaiting := rfl

theorem exec_lonelyTimeout (n : Nat) (s : State) :
    exec (.lonelyTimeout n) s = s.run (.lonelyTimeout n) fun c => if c.isSender then c.lonely n else c := rfl

theorem exec_discoveryRound (n : Nat) (s : State) :
    exec (.discoveryRound n) s = s.run (.discoveryRound n) fun c => if c.isSender then c.discRound n else c := rfl

theorem exec_discoveryTimeout (n : Nat) (s : State) :
    exec (.discoveryTimeout n) s = s.run (.discoveryTimeout n) fun c => if c.isSender then c.discTimeout n else c := rfl

/-! ### A return cell at a sender's port (R107) -/

theorem Chip.examines_of {c : Chip} {n : Nat} (he : c.enabled (0x20 + n) = true) (h30 : c.enabled 0x30 = true) :
    c.examines n = true := by simp [Chip.examines, he, h30]

/-- A sound return cell at a port that examines return cells is acted on. -/
theorem Chip.returnIn_sound {c : Chip} {n : Nat} {x : Cell} {h : Hdr} {rx : Rx} (f : Chip → Chip) (ht : c.isTile = false)
    (he : c.examines n = true) (hs : soundRx x h rx = true) (hx : x.returns = true) : c.returnIn n x h rx f = f c := by
  simp [Chip.returnIn, ht, he, Chip.checkCell_sound c n x h rx hs (Chip.wrongWay_sender ht hx)]

/-- The record found for a serial is that serial's. -/
theorem Chip.serial_of_devOf {c : Chip} {n serial : Nat} {d : Dev} (hd : c.devOf n serial = some d) : d.serial = serial := by
  simpa using List.find?_some hd

/-! ### HELLO (R134, R135) -/

/-- A HELLO of a new serial makes it FOUND and asks for its identity. -/
theorem Chip.hello_new {c : Chip} {n serial : Nat} (hd : c.devOf n serial = none) (depth : Nat) (desc : List Byte)
    (hash orient : Nat) :
    c.hello n serial depth desc hash orient =
      let d := ((c.putDev n { newDev serial with
        depth := depth, desc := desc, hash := hash * 2 ^ 256, orient := orient }).onPort n fun p =>
          { p with fresh := true, silent := 0 }).raise (.CHAIN_FOUND n)
      (d.when (d.miswired n orient) fun d => d.raise .SYS_MISWIRED).sendIdReq n serial := by
  simp [Chip.hello, hd, newDev]

/-! ### A device that has answered before -/

section Known

variable {c : Chip} {n serial : Nat} {d : Dev} (hd : c.devOf n serial = some d)

/-- A device once a part of its identity is held. -/
def Dev.withPart (d : Dev) (part : Nat) (body : List Byte) : Dev := { d with parts := assocPut d.parts part body }

/-- The certificate is good: its signature and form, and it is of a tile with the serial (R355). -/
def Dev.certified (d : Dev) (cert : Bool) (serial : Nat) : Prop :=
  cert = true ∧ idCertOk d.identity 1 = true ∧ beField d.identity 8 8 = serial

theorem Dev.certified_iff (d : Dev) (cert : Bool) (serial : Nat) :
    (!cert || !idCertOk d.identity 1 || beField d.identity 8 8 != serial) = false ↔ d.certified cert serial := by
  simp [Dev.certified, and_assoc]

include hd

/-! ### ID_PART (R135, R355) -/

section IdPart

variable (hv : d.st = .verifying) {part : Nat} (hp : part < 4) {body : List Byte} (cert sig : Bool)

include hv hp

/-- With fewer than four parts the part is held. -/
theorem Chip.idPart_waits (h4 : (d.withPart part body).parts.length < 4) :
    c.idPart n serial part body cert sig = c.putDev n (d.withPart part body) := by
  simp only [Dev.withPart] at *
  simp [Chip.idPart, hd, hv, hp.not_ge, h4]

variable (h4 : 4 ≤ (d.withPart part body).parts.length) (hl : c.fuses.lifecycle ≠ 2)

include h4 hl

/-- With all four parts certificate and signature are judged. -/
theorem Chip.idPart_judges :
    c.idPart n serial part body cert sig =
      let e := d.withPart part body
      if !cert || !idCertOk e.identity 1 || beField e.identity 8 8 != serial then c.makeStranger n e 2
      else if !sig then c.makeStranger n e 3
      else ((c.putDev n { e with st := .keying }).sendFw n 1 (c.devPos n e) 0x42 0 0 (c.keyxData n e.nonce)).redraw := by
  simp only [Chip.idPart, hd]
  exact (if_neg (not_or.2 ⟨not_not.2 hv, hp.not_ge⟩)).trans (if_neg (not_or.2 ⟨h4.not_gt, hl⟩))

/-- A bad certificate, or one that is not of a tile with the serial, lists the tile as a stranger. -/
theorem Chip.idPart_badCert (hg : ¬ (d.withPart part body).certified cert serial) :
    c.idPart n serial part body cert sig = c.makeStranger n (d.withPart part body) 2 :=
  (Chip.idPart_judges hd hv hp cert sig h4 hl).trans (if_pos (Bool.eq_true_of_not_eq_false (mt (Dev.certified_iff ..).1 hg)))

variable (hg : (d.withPart part body).certified cert serial)

include hg

/-- A bad signature lists the tile as a stranger. -/
theorem Chip.idPart_badSig : c.idPart n serial part body cert false = c.makeStranger n (d.withPart part body) 3 := by
  have fine := (Dev.certified_iff ..).2 hg
  simp only [Chip.idPart_judges hd hv hp cert false h4 hl, fine, Bool.not_false, Bool.false_eq_true, if_false, if_true]

/-- A tile whose identity holds is sent KEYX. -/
theorem Chip.idPart_keys :
    c.idPart n serial part body cert true =
      let e := d.withPart part body
      ((c.putDev n { e with st := .keying }).sendFw n 1 (c.devPos n e) 0x42 0 0 (c.keyxData n e.nonce)).redraw := by
  have fine := (Dev.certified_iff ..).2 hg
  simp only [Chip.idPart_judges hd hv hp cert true h4 hl, fine, Bool.not_true, Bool.false_eq_true, if_false]

end IdPart

/-! ### Requests without an answer (R135) -/

/-- A device in VERIFYING or KEYING has been asked and has not answered. -/
theorem Chip.asked_of (hs : d.st = .verifying ∨ d.st = .keying) : c.asked n serial = true := by
  rcases hs with hs | hs <;> simp [Chip.asked, hd, hs]

/-- Before the eighth unanswered request the device is asked again. -/
theorem Chip.idUnanswered_again (h7 : d.idReqs < 7) :
    c.idUnanswered n serial = (c.putDev n { d with idReqs := d.idReqs + 1 }).sendIdReq n serial := by
  have few : ¬ 8 ≤ d.idReqs + 1 := by omega
  simp only [Chip.idUnanswered, hd, if_neg few]

/-- At the eighth unanswered request the device is listed. -/
theorem Chip.idUnanswered_lists (h7 : 7 ≤ d.idReqs) :
    c.idUnanswered n serial = c.makeStranger n { d with idReqs := d.idReqs + 1 } 4 := by
  have many : 8 ≤ d.idReqs + 1 := by omega
  simp only [Chip.idUnanswered, hd, if_pos many]

/-! ### KEYX_RESP and REFUSED (R135, R136, R356, R357) -/

section Keying

variable (hk : d.st = .keying)

include hk

/-- A valid KEYX_RESP of a tile whose WDN is known assigns it. -/
theorem Chip.keyxResp_assigns {w : Nat} (hw : c.wdnFor n d = some w) : c.keyxResp n serial true = c.assignDev n d w := by
  simp [Chip.keyxResp, hd, hk, hw]

/-- A valid KEYX_RESP of a tile whose WDN is not known lists it as unassigned. -/
theorem Chip.keyxResp_unassigned (hw : c.wdnFor n d = none) :
    c.keyxResp n serial true =
      ((c.putDev n { d with st := .unassigned, first := 0, count := 0, listedAt := c.age }).listAdd n
        ⟨serial, 3, d.depth, 0⟩).raise (.CHAIN_UNASSIGNED n) := by
  simp [Chip.keyxResp, hd, hk, hw, Chip.makeUnassigned, Chip.serial_of_devOf hd]

/-- A KEYX_RESP that does not verify counts as no answer. -/
theorem Chip.keyxResp_fails : c.keyxResp n serial false = c.idUnanswered n serial := by simp [Chip.keyxResp, hd, hk]

/-- REFUSED with cause 1 makes the tile foreign. -/
theorem Chip.refusedAns_foreign {cause : Nat} (h1 : cause = 1) :
    c.refusedAns n serial cause = ((c.putDev n { d with st := .foreign, listedAt := c.age }).listAdd n
      ⟨serial, 1, d.depth, 5⟩).raise (.CHAIN_FOREIGN n) := by simp [Chip.refusedAns, hd, hk, h1]

/-- REFUSED with another cause counts as no answer. -/
theorem Chip.refusedAns_other {cause : Nat} (h1 : cause ≠ 1) :
    c.refusedAns n serial cause = (c.putDev n { d with st := .found }).idUnanswered n serial := by
  simp [Chip.refusedAns, hd, hk, h1]

end Keying

end Known

/-! ### CHAIN_LIST_WDN (R136) -/

section ListWdn

variable {c : Chip} {rq : Requester} {n : Nat} (hn : n < 16)

include hn

theorem classOf_chain : classOf (0x20 + n) = some (.chain, n) :=
  (by decide : ∀ n < 16, classOf (0x20 + n) = some (.chain, n)) n hn

theorem rowOf_chainListWdn :
    rowOf (Reg.CHAIN_LIST_WDN n) = some ⟨0x0d0, 1, 0x0, .wo, 0x00000000, 0x8000ffff, .plain⟩ :=
  (by decide : ∀ n < 16, rowOf (Reg.CHAIN_LIST_WDN n) = some ⟨0x0d0, 1, 0x0, .wo, 0x00000000, 0x8000ffff, .plain⟩) n hn

/-- A write of a sender's CHAIN_LIST_WDN that reaches its page. -/
theorem Chip.regWrite_listWdn (ht : takes c rq (Reg.CHAIN_LIST_WDN n) = true) (hr : c.isTile = false) (v : Word) (x : Verdict) :
    c.regWrite rq (Reg.CHAIN_LIST_WDN n) v x = c.listWdn n v := by
  have page : Reg.CHAIN_LIST_WDN n / 0x1000 = 0x20 + n := by simp only [Reg.CHAIN_LIST_WDN]; omega
  have body : ¬ Reg.CHAIN_LIST_WDN n % 0x1000 < 0x40 := by simp only [Reg.CHAIN_LIST_WDN]; omega
  have held : c.roleZero (Reg.CHAIN_LIST_WDN n) = false := c.roleZero_other _ (by simp [page]; omega)
  have port : pageIdx (Reg.CHAIN_LIST_WDN n) 0x20 = n := by simp only [pageIdx, page]; omega
  rw [Chip.regWrite_wo c rq _ v x _ ht (rowOf_chainListWdn hn) body held rfl (page ▸ classOf_chain hn)]
  simp [Chip.blockHook, Chip.chainHook, port, hr]

omit hn

/-- The tile of a listed serial, if its record is there, is assigned a WDN. -/
def Chip.assignListed (c : Chip) (n serial wdn : Nat) : Chip :=
  match c.devOf n serial with
  | none => c
  | some x => c.assignDev n x wdn

variable {v : Word} {e : ListEntry} (hr : c.isTile = false) (ha : bitsOf v 31 31 = 1)
  (he : (c.port n).list[c.get (.CHAIN_LIST_IDX_IDX n)]? = some e)

include hr ha he

/-- A free WDN that is not reserved, for an unassigned entry, is stored and assigned. -/
theorem Chip.listWdn_assigns (hk : e.kind = 3) (hw : 0x40 ≤ bitsOf v 15 0)
    (hf : (c.store.wdns.any fun x => x.2 == bitsOf v 15 0 && x.1 != e.serial) = false) :
    c.listWdn n v = (((c.onStore fun t => { t with wdns := assocPut t.wdns e.serial (bitsOf v 15 0) }).writeCfg
      c.sections).listDel n e.serial).assignListed n e.serial (bitsOf v 15 0) := by
  have fits : ¬ (e.kind ≠ 3 ∨ bitsOf v 15 0 < 0x40 ∨
      (c.store.wdns.any fun x => x.2 == bitsOf v 15 0 && x.1 != e.serial) = true) := by simp [hk, hf]; omega
  simp only [Chip.listWdn, hr, ha, he, if_neg fits]
  rfl

/-- A reserved WDN, or one for an entry that is not unassigned, is rejected. -/
theorem Chip.listWdn_rejects (hk : e.kind ≠ 3 ∨ bitsOf v 15 0 < 0x40) :
    c.listWdn n v = c.reject (Reg.CHAIN_LIST_WDN n) := by
  simp only [Chip.listWdn, hr, ha, he]
  exact if_pos (hk.imp_right .inl)

end ListWdn

/-! ### Ports without an answer, and rounds (R134) -/

section Rounds

variable {c : Chip} {n : Nat}

/-- A port that is not UP a second after ENABLE is LONELY. -/
theorem Chip.lonely_down (he : c.enabled (0x20 + n) = true) (h0 : c.chainState n = 0) (hl : c.linkUpAt n = false)
    (hd : c.flag (.CHAIN_CFG_DISC_EN n) = true) :
    c.lonely n = (c.put (.CHAIN_STATE_STATE n) 1).raise (.CHAIN_LONELY n) := by
  simp [Chip.lonely, he, h0, hl, hd]

/-- A LONELY port that is UP discovers. -/
theorem Chip.lonely_up (he : c.enabled (0x20 + n) = true) (h1 : c.chainState n = 1) (hl : c.linkUpAt n = true) :
    c.lonely n = c.startDiscovery n := by
  simp [Chip.lonely, he, h1, hl]

/-- A serving port whose period is over discovers. -/
theorem Chip.discRound_due (he : c.enabled (0x20 + n) = true) (h3 : c.chainState n = 3)
    (hp : c.get (.CHAIN_DISC_PERIOD n) ≠ 0) :
    c.discRound n = (c.onPort n fun p => { p with discAt := c.age }).discover n := by
  simp [Chip.discRound, he, h3, hp]

/-- A discovering port that hears nothing for sixteen superframes is LONELY. -/
theorem Chip.discTimeout_silent (h2 : c.chainState n = 2) (hs : 16 ≤ (c.port n).silent) :
    c.discTimeout n = (c.put (.CHAIN_STATE_STATE n) 1).raise (.CHAIN_LONELY n) := if_pos ⟨h2, hs⟩

end Rounds

end Sys2Proof.Machine
end

section
/-!
PROOF. How a sender finds and admits tiles (R107, R134 to R137, R355 to R357): the obligation O39.
-/

open Sys2Proof Sys2Proof.Machine Sys2Proof.Safety

namespace Sys2Proof.Proofs

/-- Settles O39: an answer that is heard is one case of what its device was asked, and the timeouts and the list's WDN are each one
case of the port's own work. -/
theorem tilesAreFoundAndAdmitted : Obligations.TilesAreFoundAndAdmitted := by
  unfold Obligations.TilesAreFoundAndAdmitted
  intro s n h a rx hn hs heard
  have ht := s.chip.isTile_of_isSender hs
  have port : decide (n < 16) = true := decide_eq_true hn
  have kind {k : Nat} (hk : a.kind = k) : decide (n < 16 ∧ a.kind = k) = true := decide_eq_true ⟨hn, hk⟩
  have answered {f : Chip → Chip} : heard → s.chip.returnIn n (.answer 0 a) h rx f = f s.chip := by
    rintro ⟨he, h30, hx⟩
    exact Chip.returnIn_sound f ht (Chip.examines_of he h30) hx rfl
  refine ⟨fun hh hk hd orient card => ?_, fun c serial depth desc hash orient hd => Chip.hello_new hd depth desc hash orient,
    fun d hd => ⟨fun hh hk hv hp cert sig => ?_, fun hst => ?_, fun hh hst => ⟨fun hk => ?_, fun hk => ?_⟩⟩,
    fun rq v e ht' ha he hr => ?_, fun he => ⟨fun h0 hl hd => ?_, fun h1 hl => ?_, fun h3 hp => ?_⟩, fun h2 hq => ?_⟩
  · exact (exec_helloReceive ..).trans (State.run_next (kind hk) (answered hh))
  · intro parts e good
    have judged {g : Chip → Chip} (hg : s.chip.idPart n a.serial a.part a.body cert sig = g s.chip) :
        exec (.idPartReceive n h a cert sig rx) s = .next (s.effect g) :=
      (exec_idPartReceive ..).trans (State.run_next (kind hk) ((answered hh).trans hg))
    refine ⟨fun h4 => judged (Chip.idPart_waits hd hv hp cert sig h4), fun h4 hl =>
      ⟨fun hg => judged (Chip.idPart_badCert hd hv hp cert sig h4 hl hg), fun hg hsig => ?_, fun hg hsig => ?_⟩⟩
    · subst hsig
      exact judged (Chip.idPart_badSig hd hv hp cert h4 hl hg)
    · subst hsig
      exact judged (Chip.idPart_keys hd hv hp cert h4 hl hg)
  · have asked : (s.chip.isSender && s.chip.asked n a.serial) = true := by rw [hs, Chip.asked_of hd hst]; rfl
    exact ⟨fun h7 => (exec_idReqTimeout ..).trans (State.run_next port ((if_pos asked).trans (Chip.idUnanswered_again hd h7))),
      fun h7 => (exec_idReqTimeout ..).trans (State.run_next port ((if_pos asked).trans (Chip.idUnanswered_lists hd h7)))⟩
  · have told {ok : Bool} {g : Chip → Chip} (hg : s.chip.keyxResp n a.serial ok = g s.chip) :
        exec (.keyxRespReceive n h a ok rx) s = .next (s.effect fun c => (g c).calWaiting) :=
      (exec_keyxRespReceive ..).trans (State.run_next (kind hk) ((answered hh).trans (congrArg Chip.calWaiting hg)))
    exact ⟨fun w hw => told (Chip.keyxResp_assigns hd hst hw), fun hw => told (Chip.keyxResp_unassigned hd hst hw),
      told (Chip.keyxResp_fails hd hst)⟩
  · have told {g : Chip → Chip} (hg : s.chip.refusedAns n a.serial (leNat (a.body.take 1)) = g s.chip) :
        exec (.refusedReceive n h a rx) s = .next (s.effect g) :=
      (exec_refusedReceive ..).trans (State.run_next (kind hk) ((answered hh).trans hg))
    exact ⟨fun h1 => told (Chip.refusedAns_foreign hd hst h1), fun h1 => told (Chip.refusedAns_other hd hst h1)⟩
  · have written {g : Chip → Chip} (hg : s.chip.listWdn n v = g s.chip) :
        exec (.chainListWdn rq n v) s = .next (s.effect fun c => (g c).calWaiting) :=
      (exec_chainListWdn ..).trans
        (State.run_next port (congrArg Chip.calWaiting ((Chip.regWrite_listWdn hn ht' hr v _).trans hg)))
    exact ⟨fun hk hw hf => written (Chip.listWdn_assigns hr ha he hk hw hf),
      fun hk => written (Chip.listWdn_rejects hr ha he hk)⟩
  · exact (exec_lonelyTimeout ..).trans (State.run_next port ((if_pos hs).trans (Chip.lonely_down he h0 hl hd)))
  · exact (exec_lonelyTimeout ..).trans (State.run_next port ((if_pos hs).trans (Chip.lonely_up he h1 hl)))
  · exact (exec_discoveryRound ..).trans (State.run_next port ((if_pos hs).trans (Chip.discRound_due he h3 hp)))
  · exact (exec_discoveryTimeout ..).trans (State.run_next port ((if_pos hs).trans (Chip.discTimeout_silent h2 hq)))

end Sys2Proof.Proofs
end

section
/-!
SUPPORT. What a sender does with slots, with the records in them, and with what does not come (R107, R128, R129, R131, R135, R139,
R140, R316, R317, R335, R340).
-/

namespace Sys2Proof.Machine

open Safety

/-! ### The commands as effects -/

theorem exec_slotReceive (n unit : Nat) (h : Hdr) (x : Slot) (rx : Rx) (s : State) :
    exec (.slotReceive n unit h x rx) s = s.run (.slotReceive n unit h x rx) fun c => c.slotCell n unit h x rx := rfl

theorem exec_censusReceive (n : Nat) (h : Hdr) (rx : Rx) (s : State) :
    exec (.censusReceive n h rx) s = s.run (.censusReceive n h rx) fun c =>
      c.returnIn n (.census h.dest) h rx fun c => (c.censusIn n h.dest).ringChanged := rfl

theorem exec_completionRecord (s : State) :
    exec .completionRecord s = s.run .completionRecord Chip.completionHead := rfl

theorem exec_eventRecord (s : State) : exec .eventRecord s = s.run .eventRecord Chip.eventHead := rfl

theorem exec_telemetryRecord (s : State) : exec .telemetryRecord s = s.run .telemetryRecord Chip.telemetryHead := rfl

theorem exec_dropsRecord (s : State) : exec .dropsRecord s = s.run .dropsRecord Chip.dropsHead := rfl

theorem exec_bootRecord (s : State) : exec .bootRecord s = s.run .bootRecord Chip.bootHead := rfl

theorem exec_muteReport (s : State) : exec .muteReport s = s.run .muteReport Chip.muteHead := rfl

theorem exec_mandateRecord (m : Option (Nat × Nat × Nat)) (s : State) :
    exec (.mandateRecord m) s = s.run (.mandateRecord m) fun c => if c.isSender then c.mandateRecord m else c := rfl

theorem exec_mutedReceive (n : Nat) (h : Hdr) (rx : Rx) (s : State) :
    exec (.mutedReceive n h rx) s = s.run (.mutedReceive n h rx) fun c =>
      c.returnIn n (.muted h.dest) h rx fun c => c.mutedIn n h.dest := rfl

theorem exec_unitEmpty (n wdn : Nat) (s : State) :
    exec (.unitEmpty n wdn) s = s.run (.unitEmpty n wdn) fun c =>
      if c.isSender then (c.unitEmpty n wdn).ringChanged else c := rfl

theorem exec_noResponder (n : Nat) (s : State) :
    exec (.noResponder n) s = s.run (.noResponder n) fun c => if c.isSender then c.noAnswers n else c := rfl

/-! ### A slot (R107, R129, R131) -/

/-- A slot's bytes before its tag (R129). -/
theorem Slot.length_bytes (x : Slot) : x.bytes.length = 112 := by simp [Slot.bytes, beBytes]

/-- A slot is a start block and 17 data blocks (R105). -/
theorem Cell.blocks_slot (unit : Nat) (x : Slot) : (Cell.slot unit x).blocks = 18 := by
  have data : (Cell.slot unit x).len = x.bytes.length / 8 + 2 + 1 := rfl
  rw [Cell.blocks, data, Slot.length_bytes]

section SlotIn

variable {c : Chip} {n unit : Nat} {h : Hdr} {x : Slot} {rx : Rx} {pre : Chip → Chip}
variable (he : c.examines n = true) (hm : ((c.port n).drift.any fun d => d.wdn == x.wdn && d.muted) = false)

include he hm

/-- A slot that fails its checks has no effect but what they count. -/
theorem Chip.slotIn_failed {d : Chip} (hk : c.checkCell n (.slot unit x) h rx = (d, false)) : c.slotIn n unit h x rx pre = d := by
  simp only [Chip.slotIn, he, hm, hk]
  rfl

variable (hk : c.checkCell n (.slot unit x) h rx = (c, true))

include hk

/-- A sound slot with a wrong tag is counted and told. -/
theorem Chip.slotIn_badTag (hg : c.portTagOk n (.slot unit x) h rx = false) :
    c.slotIn n unit h x rx pre = (c.count (Reg.CHAIN_TAG_ERR n)).raise (.CHAIN_TAG_FAIL n) := by
  simp only [Chip.slotIn, he, hm, hk, hg]
  rfl

/-- A sound slot of a known tile is taken. -/
theorem Chip.slotIn_taken (hg : c.portTagOk n (.slot unit x) h rx = true) {d : Dev} (hd : (pre c).devWdn n x.wdn = some d) :
    c.slotIn n unit h x rx pre = (pre c).slotFrom n unit d x := by
  simp only [Chip.slotIn, he, hm, hk, hg, hd]
  rfl

end SlotIn

/-- At a sender a slot is taken for itself and for its twin. -/
theorem Chip.slotCell_sender {c : Chip} (ht : c.isTile = false) (n unit : Nat) (h : Hdr) (x : Slot) (rx : Rx) :
    c.slotCell n unit h x rx = (c.slotIn n unit h x rx fun c => c.twinSlot n unit x).segmentOut n := by
  simp [Chip.slotCell, ht]

/-! ### The record at the head of the burst queue (R316) -/

section Records

variable {c d : Chip} {n wdn : Nat} {r : Rec} (hr : (c.popRecord fun _ => true) = some (d, n, wdn, r))

include hr

/-- The record at the head, whatever its kind, is what a command for its kind takes. -/
theorem Chip.popRecord_kind {p : Rec → Bool} (hp : p r = true) : c.popRecord p = some (d, n, wdn, r) := by
  cases hq : c.well.queue with
  | nil => simp [Chip.popRecord, hq] at hr
  | cons a q =>
    simp only [Chip.popRecord, hq, if_true, Option.some.injEq, Prod.mk.injEq] at hr ⊢
    obtain ⟨hd, hn, hw, he⟩ := hr
    simp [he, hp, hd, hn, hw]

/-- The record leaves the queue. -/
theorem Chip.popRecord_rest : d = (c.onWell fun w => { w with queue := w.queue.drop 1 }).showBurst := by
  cases hq : c.well.queue with
  | nil => simp [Chip.popRecord, hq] at hr
  | cons a q =>
    simp only [Chip.popRecord, hq, if_true, Option.some.injEq, Prod.mk.injEq] at hr
    rw [← hr.1, Chip.onWell, Chip.onWell, hq, List.drop_one, List.tail_cons]

omit hr

variable {token status cause : Nat} {dup : Bool} {data : List Byte}

/-- A completion of a ring's command, or of none that waits, ends there. -/
theorem Chip.completionHead_ring (hr : (c.popRecord fun _ => true) = some (d, n, wdn, .completion token status cause dup data))
    (hx : (d.completionIn n wdn token status cause dup data).2 = none) :
    c.completionHead = (d.completionIn n wdn token status cause dup data).1 := by
  simp only [Chip.completionHead, Chip.popRecord_kind hr (p := isCompletion) rfl, hx]

/-- A completion of the sender's own command is its firmware's to act on. -/
theorem Chip.completionHead_firmware {f : InFlight}
    (hr : (c.popRecord fun _ => true) = some (d, n, wdn, .completion token status cause dup data))
    (hx : (d.completionIn n wdn token status cause dup data).2 = some f) :
    c.completionHead = (((d.completionIn n wdn token status cause dup data).1.fwAnswer n wdn f status data).relAnswer n wdn f
      status).calWaiting := by
  simp only [Chip.completionHead, Chip.popRecord_kind hr (p := isCompletion) rfl, hx]

/-- A pair takes the events of its tile. -/
def Chip.takesEvents (c : Chip) (w : Nat) : Bool :=
  match c.pairAt w with
  | some p => bitAt p.rflags 1
  | none => false

theorem Chip.eventHead_shows {page bits occ : Nat} (hr : (c.popRecord fun _ => true) = some (d, n, wdn, .event page bits occ)) :
    c.eventHead = d.each ((d.pairsOf wdn).filter d.takesEvents) fun d w => d.putEvent w page bits occ := by
  simp only [Chip.eventHead, Chip.popRecord_kind hr (p := isEvent) rfl]
  rfl

theorem Chip.telemetryHead_shows {sub : Nat} {sample : List Byte}
    (hr : (c.popRecord fun _ => true) = some (d, n, wdn, .telemetry sub sample)) :
    c.telemetryHead = d.each (d.pairsOf wdn) fun d w => d.putTelemetry w sub sample := by
  simp only [Chip.telemetryHead, Chip.popRecord_kind hr (p := isTelemetry) rfl]

theorem Chip.dropsHead_shows {k : Nat} (hr : (c.popRecord fun _ => true) = some (d, n, wdn, .drops k)) :
    c.dropsHead = d.each (d.pairsOf wdn) fun d w => (d.onPair w fun p => { p with dropTel := p.dropTel + k }).putDrops w := by
  simp only [Chip.dropsHead, Chip.popRecord_kind hr (p := isDrops) rfl]

theorem Chip.bootHead_shows {image first last st : Nat}
    (hr : (c.popRecord fun _ => true) = some (d, n, wdn, .boot image first last st)) :
    c.bootHead = (d.bootRec n wdn image first last st).calWaiting := by
  simp only [Chip.bootHead, Chip.popRecord_kind hr (p := isBoot) rfl]

theorem Chip.muteHead_shows {muted unit : Nat} {off : Int} {clean : Bool}
    (hr : (c.popRecord fun _ => true) = some (d, n, wdn, .muteReport muted unit off clean)) :
    c.muteHead = d.muteReportIn n wdn muted clean := by
  simp only [Chip.muteHead, Chip.popRecord_kind hr (p := isMuteReport) rfl]

theorem Chip.mandateHead_shows {holder epoch k : Nat}
    (hr : (c.popRecord fun _ => true) = some (d, n, wdn, .mandate holder epoch)) (hk : d.elderOf wdn = some k) :
    c.mandateHead = d.mandateIn k holder epoch := by
  simp only [Chip.mandateHead, Chip.popRecord_kind hr (p := isMandate) rfl, hk]

end Records

/-! ### Muted and lost tiles (R135) -/

section Known

variable {c : Chip} {n wdn : Nat} {d : Dev} (hd : c.devWdn n wdn = some d)

include hd

/-- MUTED suspends an admitted tile on an enabled page. -/
theorem Chip.mutedIn_suspends (hs : d.st = .admitted) (he : c.enabled (0x20 + n) = true) :
    c.mutedIn n wdn = c.putDev n { d with st := .suspended, unmuting := false } := by
  simp only [Chip.mutedIn, hd]
  exact if_pos ⟨hs, he⟩

theorem Chip.mutedIn_other (hs : d.st ≠ .admitted) : c.mutedIn n wdn = c := by
  simp only [Chip.mutedIn, hd]
  exact if_neg fun e => hs e.1

/-- An empty unit of an admitted tile is counted and told, and the tile is lost at the limit. -/
theorem Chip.unitEmpty_counts (hs : d.st = .admitted) (he : c.enabled (0x20 + n) = true) :
    c.unitEmpty n wdn =
      let x := { d with missed := d.missed + 1 }
      let e := ((c.putDev n x).count (Reg.CHAIN_SLOT_MISS n)).raise (.CHAIN_SLOT_MISS n)
      if max (e.get (.CHAIN_LOSS_CNT_COUNT n)) 1 ≤ x.missed then e.loseDev n x else e := by
  simp only [Chip.unitEmpty, hd]
  exact if_neg (not_or.2 ⟨not_not.2 hs, by simp [he]⟩)

end Known

theorem Chip.enabled_of_examines {c : Chip} {n : Nat} (he : c.examines n = true) : c.enabled (0x20 + n) = true :=
  (Bool.and_eq_true_iff.1 he).1

end Sys2Proof.Machine
end

section
/-!
PROOF. What slots and records of tiles do at a sender (R107, R128, R129, R131, R135, R139, R140, R316, R335, R340): the obligation
O40.
-/

open Sys2Proof Sys2Proof.Machine Sys2Proof.Safety

namespace Sys2Proof.Proofs

/-- Settles O40: a slot falls at the first check that fails, a record acts by its kind, and what does not come is counted. -/
theorem slotsAndRecordsOfTiles : Obligations.SlotsAndRecordsOfTiles := by
  unfold Obligations.SlotsAndRecordsOfTiles
  intro s n hn hs
  have ht := s.chip.isTile_of_isSender hs
  have port : decide (n < 16) = true := decide_eq_true hn
  refine ⟨?_, fun unit h x rx _ _ => ?_, fun h rx he hx => ?_, fun d port wdn r hr => ?_, fun m h3 h64 => ?_,
    fun wdn d hd he h rx hw hx => ?_, fun wdn d hd hst he => ?_, ?_⟩
  · intro unit h x rx c pre he ht hm hp y
    have way : c.wrongWay n y = false := Chip.wrongWay_sender ht rfl
    refine ⟨fun hh hc => ?_, fun hh hc => ⟨fun hr => ?_, fun hr => ?_⟩, fun k b hh hc => ?_⟩
    · have e := Chip.checkCell_badHeader (c := c) (port := n) hp hc hh
      rw [Cell.blocks_slot] at e
      exact Chip.slotIn_failed he hm e
    · exact Chip.slotIn_failed he hm (Chip.checkCell_badContent hp hh way hc rfl hr)
    · have sound := c.checkCell_sound n y h rx (soundRx_of hp hc hh hr) way
      exact ⟨Chip.slotIn_badTag he hm sound, fun d hg hd => Chip.slotIn_taken he hm sound hg hd⟩
    · exact Chip.slotIn_failed he hm (Chip.checkCell_cut hp hh way hc)
  · exact (exec_slotReceive ..).trans (State.run_next port (Chip.slotCell_sender ht ..))
  · exact (exec_censusReceive ..).trans (State.run_next port (Chip.returnIn_sound _ ht he hx rfl))
  · refine ⟨Chip.popRecord_rest hr, fun token status cause dup data e => ?_, fun page bits occ e => ?_, fun sub sample e => ?_,
      fun k e => ?_, fun image first last st e => ?_, fun muted run total clean e => ?_, fun holder epoch k e hk => ?_⟩ <;>
      subst e
    · exact ⟨fun hx => (exec_completionRecord s).trans (State.run_next rfl (Chip.completionHead_ring hr hx)),
        fun f hx => (exec_completionRecord s).trans (State.run_next rfl (Chip.completionHead_firmware hr hx))⟩
    · exact (exec_eventRecord s).trans (State.run_next rfl (Chip.eventHead_shows hr))
    · exact (exec_telemetryRecord s).trans (State.run_next rfl (Chip.telemetryHead_shows hr))
    · exact (exec_dropsRecord s).trans (State.run_next rfl (Chip.dropsHead_shows hr))
    · exact (exec_bootRecord s).trans (State.run_next rfl (Chip.bootHead_shows hr))
    · exact (exec_muteReport s).trans (State.run_next rfl (Chip.muteHead_shows hr))
    · exact (exec_mandateRecord ..).trans (State.run_next rfl ((if_pos hs).trans (Chip.mandateHead_shows hr hk)))
  · exact (exec_mandateRecord ..).trans (State.run_next (by simp [Instr.wf, h3, h64]) (if_pos hs))
  · subst hw
    have heard : s.chip.returnIn n (.muted h.dest) h rx (fun c => c.mutedIn n h.dest) = s.chip.mutedIn n h.dest :=
      Chip.returnIn_sound _ ht he hx rfl
    exact ⟨fun hst => (exec_mutedReceive ..).trans
        (State.run_next port (heard.trans (Chip.mutedIn_suspends hd hst (Chip.enabled_of_examines he)))),
      fun hst => (exec_mutedReceive ..).trans (State.run_next port (heard.trans (Chip.mutedIn_other hd hst)))⟩
  · exact (exec_unitEmpty ..).trans
      (State.run_next port ((if_pos hs).trans (congrArg Chip.ringChanged (Chip.unitEmpty_counts hd hst he))))
  · exact (exec_noResponder ..).trans (State.run_next port (if_pos hs))

end Sys2Proof.Proofs
end

section
/-!
SUPPORT. A tile that identifies itself, is keyed, loads its image and starts (R116, R118, R133, R266, R305, R349, R354 to R357, R448).
-/

namespace Sys2Proof.Machine

open Safety

/-! ### The commands as effects -/

theorem exec_discover (port : Nat) (h : Hdr) (x : Cmd) (rx : Rx) (s : State) :
    exec (.discover port h x rx) s = s.run (.discover port h x rx) fun c =>
      c.tileOpen port h x rx 3 Chip.discoverIn := rfl

theorem exec_idReq (port : Nat) (h : Hdr) (x : Cmd) (rx : Rx) (s : State) :
    exec (.idReq port h x rx) s = s.run (.idReq port h x rx) fun c =>
      c.tileOpen port h x rx 1 fun c => c.idReqIn h x.data := rfl

theorem exec_keyx (port : Nat) (h : Hdr) (x : Cmd) (rx : Rx) (cert sig owner wrap : Bool) (epoch : Nat) (next : Bool) (s : State) :
    exec (.keyx port h x rx cert sig owner wrap epoch next) s =
      s.run (.keyx port h x rx cert sig owner wrap epoch next) fun c =>
        c.tileOpen port h x rx 1 fun c => c.keyxIn h x.data cert sig owner wrap epoch next := rfl

theorem exec_answerTransmit (busy : Bool) (s : State) :
    exec (.answerTransmit busy) s = s.run (.answerTransmit busy) fun c => if c.isTile then c.sendAnswer busy else c := rfl

theorem exec_bootCell (port : Nat) (h : Hdr) (id off : Nat) (data : List Byte) (rx : Rx) (s : State) :
    exec (.bootCell port h id off data rx) s = s.run (.bootCell port h id off data rx) fun c =>
      c.forwardCell port (.boot h id off data) h rx fun c => c.bootIn port h id off data rx := rfl

theorem exec_imageVerifyDone (sig : Bool) (s : State) :
    exec (.imageVerifyDone sig) s = s.run (.imageVerifyDone sig) fun c => if c.isTile then c.imageVerified sig else c := rfl

theorem exec_firmwareStart (iref : Nat) (s : State) :
    exec (.firmwareStart iref) s = s.run (.firmwareStart iref) fun c => if c.isTile then c.tileBoot iref else c := rfl

theorem exec_telemetrySample (s : State) :
    exec .telemetrySample s = s.run .telemetrySample fun c => if c.isTile then c.telSample else c := rfl

theorem exec_trimMeasure (l : List (Nat × Nat)) (s : State) :
    exec (.trimMeasure l) s = s.run (.trimMeasure l) fun c => c.trimMeasure l := rfl

/-! ### Answers that wait (R133) -/

@[simp] theorem Chip.answers_answerWith (c : Chip) (kind part : Nat) (body : List Byte) :
    (c.answerWith kind part body).tile.answers = c.tile.answers ++ [c.answerOf kind part body] := rfl

section Transmit

variable {c : Chip} {a : Answer} {r : List Answer} (ha : c.tile.answers = a :: r) (h0 : c.servo ≠ 0)

/-- Time reaches the unit drawn for the next answer (R133). -/
def Chip.atAnswer (c : Chip) : Chip := c.elapseSlot (windowBlock (1024 + c.answerUnit))

include ha h0

/-- An answer whose unit is taken is deferred and counted. -/
theorem Chip.sendAnswer_defers :
    c.sendAnswer true = c.atAnswer.redraw.count (Reg.CHAIN_ANS_DEFER c.atAnswer.upPort) := by
  simp only [Chip.sendAnswer, if_neg h0, ha, if_true, Chip.atAnswer]

/-- An answer whose unit is free goes out in it. -/
theorem Chip.sendAnswer_sends : c.sendAnswer false =
    ((c.atAnswer.onTile fun t => { t with answers := r }).sendUp (.answer c.atAnswer.answerUnit a)).redraw := by
  simp only [Chip.sendAnswer, if_neg h0, ha, Bool.false_eq_true, if_false, Chip.atAnswer]

end Transmit

/-! ### ID_REQ (R355) -/

section Identity

variable {c : Chip} (hq : c.flag .GATE_QUAR_ACTIVE = false) (hl : c.fuses.lifecycle ≠ 2)

include hq hl

/-- The identity key is not blocked (R351, R369). -/
theorem Chip.identity_open : ¬ (c.flag .GATE_QUAR_ACTIVE || c.fuses.lifecycle == 2) = true := by simp [hq, hl]

/-- ID_REQ draws a nonce, and four parts of one body wait as answers. -/
theorem Chip.idReqIn_parts (h : Hdr) (challenge : List Byte) : ∃ b : List Byte,
    c.idReqIn h challenge = (c.redraw.onTile fun t => { t with nonce := c.randomNow % 2 ^ 384 }).each [0, 1, 2, 3]
      fun c k => c.answerWith 2 k ((b.drop (112 * k)).take 112) :=
  ⟨_, if_neg (Chip.identity_open hq hl)⟩

/-! ### KEYX (R354, R356, R357) -/

variable {h : Hdr} {data : List Byte} {cert sig owner wrap : Bool} {epoch : Nat} {next : Bool}

/-- KEYX under a bad certificate is refused with cause CERT. -/
theorem Chip.keyxIn_badCert (hc : cert = false ∨ idCertOk data 0 = false) :
    c.keyxIn h data cert sig owner wrap epoch next = c.answerWith 4 0 (beBytes 1 2) := by
  have bad : (!cert || !idCertOk data 0) = true := by simpa using hc
  exact (if_neg (Chip.identity_open hq hl)).trans (if_pos bad)

variable (hc : cert = true) (ho : idCertOk data 0 = true)

include hc ho

/-- KEYX with a nonce that is not the last one given is refused with cause NONCE. -/
theorem Chip.keyxIn_stale (hn : beField data 0x2a8 48 ≠ c.tile.nonce) :
    c.keyxIn h data cert sig owner wrap epoch next = c.answerWith 4 0 (beBytes 1 4) := by
  have good : ¬ (!cert || !idCertOk data 0) = true := by simp [hc, ho]
  exact (if_neg (Chip.identity_open hq hl)).trans ((if_neg good).trans (if_pos hn))

variable (hn : beField data 0x2a8 48 = c.tile.nonce)

include hn

/-- KEYX with a bad signature is refused with cause SIGNATURE. -/
theorem Chip.keyxIn_badSig (hs : sig = false) :
    c.keyxIn h data cert sig owner wrap epoch next = c.answerWith 4 0 (beBytes 1 3) := by
  have good : ¬ (!cert || !idCertOk data 0) = true := by simp [hc, ho]
  exact (if_neg (Chip.identity_open hq hl)).trans ((if_neg good).trans ((if_neg (not_not.2 hn)).trans (if_pos (by simp [hs]))))

variable (hs : sig = true)

include hs

/-- With certificate, nonce and signature right the claim is judged, then the wrapped keys. -/
theorem Chip.keyxIn_signed (h : Hdr) (owner wrap : Bool) (epoch : Nat) (next : Bool) : ∃ body, c.keyxIn h data cert sig owner wrap epoch next =
    if !c.claimCheck data || (c.fuses.claimed && !owner) then c.answerWith 4 0 (beBytes 1 1)
    else if !wrap then c.answerWith 4 0 (beBytes 1 5)
    else
      let key := Config.kdf 4 [beNat data, (c.slot 0).key]
      let e := c.setSlot 8 (loadedSlot 2 key epoch (if next then some (Config.kdf 5 [beNat data, (c.slot 0).key]) else none))
      ((e.onTile fun t => { t with session := some ⟨epoch, next, false⟩, ctrMax := 0 }).setTileState 2).answerWith 3 0
        body := by
  have good : ¬ (!cert || !idCertOk data 0) = true := by simp [hc, ho]
  exact ⟨_, (if_neg (Chip.identity_open hq hl)).trans
    ((if_neg good).trans ((if_neg (not_not.2 hn)).trans (if_neg (by simp [hs]))))⟩

/-- KEYX to a tile claimed elsewhere is refused with cause CLAIMED_ELSEWHERE. -/
theorem Chip.keyxIn_claimed (hm : ¬ (c.claimCheck data = true ∧ (c.fuses.claimed = true → owner = true))) :
    c.keyxIn h data cert sig owner wrap epoch next = c.answerWith 4 0 (beBytes 1 1) := by
  obtain ⟨_, e⟩ := Chip.keyxIn_signed hq hl hc ho hn hs h owner wrap epoch next
  exact e.trans (if_pos (by simpa [Classical.not_imp, or_iff_not_imp_left] using hm))

variable (hm : c.claimCheck data = true ∧ (c.fuses.claimed = true → owner = true))

include hm

/-- KEYX whose keys do not unwrap is refused with cause WRAP. -/
theorem Chip.keyxIn_badWrap (hw : wrap = false) :
    c.keyxIn h data cert sig owner wrap epoch next = c.answerWith 4 0 (beBytes 1 5) := by
  obtain ⟨_, e⟩ := Chip.keyxIn_signed hq hl hc ho hn hs h owner wrap epoch next
  exact e.trans ((if_neg (by simpa using hm)).trans (if_pos (by simp [hw])))

/-- A right KEYX gives the tile its session, and KEYX_RESP waits. -/
theorem Chip.keyxIn_keys (hw : wrap = true) : ∃ body,
    c.keyxIn h data cert sig owner wrap epoch next =
      let key := Config.kdf 4 [beNat data, (c.slot 0).key]
      let e := c.setSlot 8 (loadedSlot 2 key epoch (if next then some (Config.kdf 5 [beNat data, (c.slot 0).key]) else none))
      ((e.onTile fun t => { t with session := some ⟨epoch, next, false⟩, ctrMax := 0 }).setTileState 2).answerWith 3 0
        body := by
  obtain ⟨body, e⟩ := Chip.keyxIn_signed hq hl hc ho hn hs h owner wrap epoch next
  exact ⟨body, e.trans ((if_neg (by simpa using hm)).trans (if_neg (by simp [hw])))⟩

end Identity

/-! ### Images (R118, R448) -/

section Images

variable {c : Chip}

/-- A sound boot cell that names the tile by position, group or chain, of an image the tile waits for and holds nothing of, is
kept. -/
theorem Chip.bootIn_keeps {port id off : Nat} {h : Hdr} {data : List Byte} {rx : Rx} {staged : Bool} (ht : c.isTile = true)
    (hs : soundRx (.boot h id off data) h rx = true) (hu : c.tile.up = some port) (hn : c.namesMe h = true) (ha : h.amode ≠ 0)
    (hw : c.wantsImage id = some staged) (hi : c.tile.image = none) :
    c.bootIn port h id off data rx = ((c.passDown port (.boot h id off data) h rx).onTile fun t =>
      { t with image := some ((newImage id staged).take off data), bootTold := false }).showStage := by
  have wants : (c.passDown port (.boot h id off data) h rx).wantsImage id = some staged :=
    (c.passDown_keeps port _ h rx (fun d => d.wantsImage id) fun _ _ => rfl).trans hw
  have fresh : (newImage id staged).state = 0 := rfl
  simp [Chip.bootIn, Chip.receive_passDown hs ht hu rfl, hn, ha, wants, hi, fresh]

section Verified

variable {i : Image} {sig : Bool} (ht : c.isTile = true) (hi : c.tile.image = some i) (hw : i.whole = true) (h0 : i.state = 0)

include ht hi hw h0

/-- A whole image is judged once: one for a release is staged, one for the boot ROM is measured or fails. -/
theorem Chip.imageVerified_judges : c.imageVerified sig =
    let v := c.verdict i sig
    let hash := Config.sha384 (memBytes i.data 0 (i.length.getD 0))
    if i.staged then (c.onTile fun t => { t with image := some { i with state := v }, bootTold := false }).stagedNow (v == 2)
    else if v = 1 then (c.extend 1 (beBytes 48 hash)).onTile fun t => { t with firmware := some hash }
    else
      ((c.put .GATE_BOOT_STAGE 5).put .GATE_BOOT_RESULT (if v = 4 then 4 else if v = 3 then 3 else 2)).onTile fun t =>
        { t with image := some { i with state := v }, bootTold := false } := by
  simp only [Chip.imageVerified, hi]
  exact if_neg (by simp [ht, hw, h0])

/-- A boot image that holds is measured, and its firmware waits to start. -/
theorem Chip.imageVerified_measures (hs : i.staged = false) (hv : c.verdict i sig = 1) : c.imageVerified sig =
    let hash := Config.sha384 (memBytes i.data 0 (i.length.getD 0))
    (c.extend 1 (beBytes 48 hash)).onTile fun t => { t with firmware := some hash } :=
  (Chip.imageVerified_judges ht hi hw h0).trans ((if_neg (by simp [hs])).trans (if_pos hv))

/-- A boot image that does not hold fails with its result. -/
theorem Chip.imageVerified_fails (hs : i.staged = false) (hv : c.verdict i sig ≠ 1) : c.imageVerified sig =
    let v := c.verdict i sig
    ((c.put .GATE_BOOT_STAGE 5).put .GATE_BOOT_RESULT (if v = 4 then 4 else if v = 3 then 3 else 2)).onTile fun t =>
      { t with image := some { i with state := v }, bootTold := false } :=
  (Chip.imageVerified_judges ht hi hw h0).trans ((if_neg (by simp [hs])).trans (if_neg hv))

/-- An image for a release is staged. -/
theorem Chip.imageVerified_stages (hs : i.staged = true) : c.imageVerified sig =
    let v := c.verdict i sig
    (c.onTile fun t => { t with image := some { i with state := v }, bootTold := false }).stagedNow (v == 2) :=
  (Chip.imageVerified_judges ht hi hw h0).trans (if_pos hs)

end Verified

/-- Firmware that is verified starts in Waking (R221, R349). -/
theorem Chip.tileBoot_starts {iref : Nat} (ht : c.isTile = true) (hr : c.tile.running = false)
    (hf : c.tile.firmware.isSome = true) (hw : c.pwr.state = .waking) (hb : c.pwr.booted = false) : c.tileBoot iref =
      ((((((c.onTile fun t =>
        { t with running := true, image := t.image.map fun i => { i with state := 1 }, bootTold := false }).corrInit).pageEnable
          0xa1).pageEnable 0xa0).firmwareLamps iref).updShow).bootDone := by
  have verified : c.tile.firmware ≠ none := Option.isSome_iff_ne_none.1 hf
  exact if_neg (by simp [ht, hr, verified, hw, hb])

end Images

/-! ### Subscriptions and trims (R266, R305) -/

section Samples

variable {c : Chip}

/-- A subscription whose period runs is not sampled. -/
theorem Chip.telSample_waits (hs : ∀ y ∈ c.tile.subs, y.left ≠ 0) : c.telSample = c := by
  have none_due : c.tile.subs.filter (fun x => x.left == 0) = [] := List.filter_eq_nil_iff.2 fun y hy => by simpa using hs y hy
  simp only [Chip.telSample, none_due, Chip.each_nil]

/-- A subscription whose period is over is sampled, and counts its period anew. -/
theorem Chip.telSample_due {y : TelSub} (hs : c.tile.subs = [y]) (h0 : y.left = 0) : c.telSample =
    let r := c.telWords y.addr y.words
    (r.1.onTile fun t =>
      { t with subs := t.subs.map fun z => if z.id = y.id then { z with left := z.period } else z }).telQueue y.id r.2 := by
  have due : c.tile.subs.filter (fun x => x.left == 0) = [y] := by simp [hs, h0]
  simp only [Chip.telSample, due, Chip.each_cons, Chip.each_nil]

/-- The readings of used column ports stay with the Lamplighter. -/
theorem Chip.trimMeasure_keeps (ht : c.isTile = true) (he : c.enabled 0xa6 = true) (l : List (Nat × Nat)) :
    c.trimMeasure l = c.onLamp fun y => { y with meas := l.filter fun m => decide (m.1 < 480) && c.portUsed m.1 } :=
  if_pos (by rw [ht, he]; rfl)

end Samples

/-! ### An untagged command that the tile acts on (R115, R116) -/

section Open

variable {port amode : Nat} {h : Hdr} {x : Cmd} {rx : Rx}

/-- The port of a command that the tile acts on is one the part has. -/
theorem port_of_openCommand {c : Chip} (ho : openCommand c port h x rx amode = true) : decide (port < 16) = true := by
  simp only [openCommand, Bool.and_eq_true, decide_eq_true_eq] at ho ⊢
  obtain ⟨⟨⟨⟨⟨⟨⟨⟨-, h2⟩, -⟩, -⟩, -⟩, -⟩, -⟩, -⟩, -⟩ := ho
  omega

/-- The outcome of an untagged command that the tile acts on, from its meaning once the cell went on. -/
theorem Chip.tileOpen_eq {c d : Chip} {run : Chip → Chip} (ho : openCommand c port h x rx amode = true)
    (hd : run (c.passDown port (.command h x) h rx) = d) : c.tileOpen port h x rx amode run = d :=
  (Chip.tileOpen_open _ _ _ _ _ _ _ ho).trans hd

end Open

@[simp] theorem Chip.passDown_claimCheck (c : Chip) (port : Nat) (x : Cell) (h : Hdr) (rx : Rx) (data : List Byte) :
    (c.passDown port x h rx).claimCheck data = c.claimCheck data :=
  c.passDown_keeps port x h rx (fun d => d.claimCheck data) fun _ _ => rfl

end Sys2Proof.Machine
end

section
/-!
PROOF. How a tile identifies itself, is keyed, loads its image and starts (R116, R118, R133, R266, R305, R349, R354 to R357, R448):
the obligation O43.
-/

open Sys2Proof Sys2Proof.Machine Sys2Proof.Safety

namespace Sys2Proof.Proofs

/-- KEYX at a tile that acts on it: refused with the first cause that holds, or answered with a session. -/
theorem keyx_answered {s : State} {port : Nat} {h : Hdr} {x : Cmd} {rx : Rx} (ho : openCommand s.chip port h x rx 1 = true)
    (cert sig owner wrap : Bool) (epoch : Nat) (next : Bool) {g : Chip → Chip}
    (hg : (s.chip.passDown port (.command h x) h rx).keyxIn h x.data cert sig owner wrap epoch next = g s.chip) :
    exec (.keyx port h x rx cert sig owner wrap epoch next) s = .next (s.effect g) :=
  (exec_keyx ..).trans (State.run_next (port_of_openCommand ho) (Chip.tileOpen_eq ho hg))

/-- Settles O43: each command is one case of the tile's meaning of it, after its cell went on. -/
theorem tilesIdentifyThemselvesAndStart : Obligations.TilesIdentifyThemselvesAndStart := by
  unfold Obligations.TilesIdentifyThemselvesAndStart
  constructor
  · intro s port h x rx d
    refine ⟨fun ho => ?_, fun ho => ⟨?_, fun hq hl cert sig owner wrap next epoch => ?_⟩, fun ht => ⟨fun a r ha h0 => ?_,
      fun id off data staged hp hx hu hn ha hw hi => ?_, fun i sig hi hw h0 => ?_, fun iref hr hf hw hb => ?_, fun hl => ?_,
      fun y hy h0 => ?_, fun l he => ?_⟩⟩
    · exact (exec_discover ..).trans (State.run_next (port_of_openCommand ho) (Chip.tileOpen_eq ho rfl))
    · exact (exec_idReq ..).trans (State.run_next (port_of_openCommand ho) (Chip.tileOpen_eq ho rfl))
    · intro fresh mine told
      have hq' : (d s.chip).flag .GATE_QUAR_ACTIVE = false := (Chip.passDown_flag ..).trans hq
      have hl' : (d s.chip).fuses.lifecycle ≠ 2 := by rwa [Chip.passDown_fuses]
      have nonce : (d s.chip).tile.nonce = s.chip.tile.nonce := congrArg Tile.nonce (Chip.passDown_tile ..)
      have claim : ((d s.chip).claimCheck x.data = true ∧ ((d s.chip).fuses.claimed = true → owner = true)) ↔ mine := by
        rw [Chip.passDown_claimCheck, Chip.passDown_fuses]
      refine ⟨fun hc => keyx_answered ho _ _ _ _ _ _ (Chip.keyxIn_badCert hq' hl' hc), fun hc hi => ⟨fun hf => ?_,
        fun hf hs => ?_, fun hf hs hm => ?_, fun hf hs hm hw => ?_, fun hf hs hm hw => ?_⟩⟩
      · exact keyx_answered ho _ _ _ _ _ _ (Chip.keyxIn_stale hq' hl' hc hi (nonce ▸ hf))
      · exact keyx_answered ho _ _ _ _ _ _ (Chip.keyxIn_badSig hq' hl' hc hi (hf.trans nonce.symm) hs)
      · exact keyx_answered ho _ _ _ _ _ _ (Chip.keyxIn_claimed hq' hl' hc hi (hf.trans nonce.symm) hs (mt claim.1 hm))
      · exact keyx_answered ho _ _ _ _ _ _ (Chip.keyxIn_badWrap hq' hl' hc hi (hf.trans nonce.symm) hs (claim.2 hm) hw)
      · obtain ⟨body, e⟩ := Chip.keyxIn_keys (h := h) (epoch := epoch) (next := next) hq' hl' hc hi (hf.trans nonce.symm) hs
          (claim.2 hm) hw
        rw [Chip.passDown_slot] at e
        exact ⟨body, keyx_answered ho _ _ _ _ _ _ e⟩
    · exact ⟨(exec_answerTransmit ..).trans (State.run_next rfl ((if_pos ht).trans (Chip.sendAnswer_defers ha h0))),
        (exec_answerTransmit ..).trans (State.run_next rfl ((if_pos ht).trans (Chip.sendAnswer_sends ha h0)))⟩
    · exact (exec_bootCell ..).trans (State.run_next (decide_eq_true (hp.trans (by decide)))
        ((Chip.forwardCell_tile ht hp _).trans (Chip.bootIn_keeps ht hx hu hn ha hw hi)))
    · have verified {g : Chip → Chip} (hg : s.chip.imageVerified sig = g s.chip) :
          exec (.imageVerifyDone sig) s = .next (s.effect g) :=
        (exec_imageVerifyDone ..).trans (State.run_next rfl ((if_pos ht).trans hg))
      exact ⟨fun hs hv => verified (Chip.imageVerified_measures ht hi hw h0 hs hv),
        fun hs hv => verified (Chip.imageVerified_fails ht hi hw h0 hs hv),
        fun hs => verified (Chip.imageVerified_stages ht hi hw h0 hs)⟩
    · exact (exec_firmwareStart ..).trans
        (State.run_next rfl ((if_pos ht).trans (Chip.tileBoot_starts ht hr hf hw hb)))
    · exact (exec_telemetrySample s).trans (State.run_next rfl ((if_pos ht).trans (Chip.telSample_waits hl)))
    · exact (exec_telemetrySample s).trans (State.run_next rfl ((if_pos ht).trans (Chip.telSample_due hy h0)))
    · exact (exec_trimMeasure ..).trans (State.run_next rfl (Chip.trimMeasure_keeps ht he l))
  · intro c h challenge hq hl
    obtain ⟨b, e⟩ := Chip.idReqIn_parts hq hl h challenge
    rw [e]
    refine ⟨rfl, rfl, ?_⟩
    simp only [Chip.each_cons, Chip.each_nil, Chip.answers_answerWith, List.append_assoc, List.cons_append, List.nil_append]
    exact ⟨_, _, _, _, rfl, ⟨rfl, rfl, rfl, rfl⟩, rfl, rfl, rfl, rfl⟩

end Sys2Proof.Proofs
end

section
/-!
SUPPORT. A slice at a tile: its cells, its tag, the decision and the swap (R119, R205, R206, R213, R214, R222 to R225, R242).
-/

namespace Sys2Proof.Machine

open Safety

/-! ### The commands as effects -/

theorem exec_pixelCell (port : Nat) (h : Hdr) (p : PixHdr) (data : List Byte) (rx : Rx) (s : State) :
    exec (.pixelCell port h p data rx) s = s.run (.pixelCell port h p data rx) fun c =>
      c.forwardCell port (.pixel h p data) h rx fun c => c.pixelIn port h p data rx := rfl

theorem exec_sliceTagResult (s : State) :
    exec .sliceTagResult s = s.run .sliceTagResult fun c => if c.isTile then c.sliceTag else c := rfl

theorem exec_swapDecision (s : State) :
    exec .swapDecision s = s.run .swapDecision fun c => if c.isTile then c.decision else c := rfl

theorem exec_swap (s : State) :
    exec .swap s = s.run .swap fun c => if c.isTile then c.swapping Chip.swapNow else c := rfl

/-! ### Events of a tile -/

@[simp] theorem Chip.raise_nim (c : Chip) (e : Ev) : (c.raise e).nim = c.nim := by
  simp only [Chip.raise, Chip.forwardEvent]
  repeat' split
  all_goals rfl

@[simp] theorem Chip.locator_raise (c : Chip) (e : Ev) : (c.raise e).tile.locator = c.tile.locator := by
  simp only [Chip.raise, Chip.forwardEvent]
  repeat' split
  all_goals rfl

/-! ### Pixel cells (R205, R223) -/

/-- A pixel cell for the tile goes on, and is taken as the slice stands. -/
theorem Chip.pixelIn_for {c : Chip} {port : Nat} {h : Hdr} {p : PixHdr} {data : List Byte} {rx : Rx}
    (hp : pixelFor c port h p data rx = true) :
    c.forwardCell port (.pixel h p data) h rx (fun c => c.pixelIn port h p data rx) =
      (c.passDown port (.pixel h p data) h rx).pixelCell h p data rx.tag := by
  simp only [pixelFor, Bool.and_eq_true, decide_eq_true_eq, beq_iff_eq] at hp
  obtain ⟨⟨⟨⟨⟨⟨ht, h2⟩, hs⟩, hu⟩, hn⟩, ha⟩, h4⟩ := hp
  simp [Chip.forwardCell_tile ht h2, Chip.pixelIn, Chip.receive_passDown hs ht hu rfl, hn, ha, h4]

/-- The port of a pixel cell for the tile is one the part has. -/
theorem port_of_pixelFor {c : Chip} {port : Nat} {h : Hdr} {p : PixHdr} {data : List Byte} {rx : Rx}
    (hp : pixelFor c port h p data rx = true) : decide (port < 16) = true := by
  simp only [pixelFor, Bool.and_eq_true, decide_eq_true_eq] at hp ⊢
  obtain ⟨⟨⟨⟨⟨⟨-, h2⟩, -⟩, -⟩, -⟩, -⟩, -⟩ := hp
  omega

section Cells

variable {b c : Chip} {h : Hdr} {p : PixHdr} {data tag : List Byte} (hc : b.decideDue = c) (ho : c.nim.open_ = true)
  (hf : p.frame = c.nim.period % 65536) (ha : c.tile.admitTick ≤ c.nim.period) (he : c.enabled 0xa0 = true)

include hc ho hf ha he

/-- A cell of the frame whose period is open is taken by the slice's state. -/
theorem Chip.pixelCell_open : b.pixelCell h p data tag =
    if c.slice = 5 then (c.count Reg.NIMBUS_AFTER_CNT).raise .NIMBUS_AFTER
    else if c.slice = 4 then c
    else if c.slice = 2 ∨ c.slice = 3 then c.sliceFail 3
    else if c.cellCause p = 0 then
      let d := (c.sliceTake h p data tag).onNim fun n => { n with code := p.code }
      let e := d.correctAll (bitsOfCode p.code) p.off (unpackPixels (bitsOfCode p.code) p.npix (c.decipher h p data))
      (e.put .NIMBUS_RX_PIXELS (p.off + p.npix)).setSlice (if p.last then 2 else 1)
    else c.sliceFail (c.cellCause p) := by
  have shown : ¬ (!c.nim.open_ || p.frame != c.nim.period % 65536 || decide (c.nim.period < c.tile.admitTick) ||
      !c.enabled 0xa0) = true := by simp [ho, hf, ha, he]
  simp only [Chip.pixelCell, hc, if_neg shown]
  split
  · rfl
  · split
    · rfl
    · split
      · rfl
      · cases hk : c.cellCause p with
        | zero => rfl
        | succ k => rfl

/-- After the decision a cell is counted. -/
theorem Chip.pixelCell_closed (h5 : c.slice = 5) :
    b.pixelCell h p data tag = (c.count Reg.NIMBUS_AFTER_CNT).raise .NIMBUS_AFTER :=
  (Chip.pixelCell_open hc ho hf ha he).trans (if_pos h5)

/-- A slice that has failed takes no more. -/
theorem Chip.pixelCell_failed (h4 : c.slice = 4) : b.pixelCell h p data tag = c := by
  simp [Chip.pixelCell_open hc ho hf ha he, h4]

/-- A cell of a slice already complete fails it. -/
theorem Chip.pixelCell_complete (h23 : c.slice = 2 ∨ c.slice = 3) : b.pixelCell h p data tag = c.sliceFail 3 := by
  rcases h23 with h | h <;> simp [Chip.pixelCell_open hc ho hf ha he, h]

/-- A cell with something wrong fails a slice that is being received. -/
theorem Chip.pixelCell_wrong (h01 : c.slice = 0 ∨ c.slice = 1) (hk : c.cellCause p ≠ 0) :
    b.pixelCell h p data tag = c.sliceFail (c.cellCause p) := by
  rcases h01 with h | h <;> simp [Chip.pixelCell_open hc ho hf ha he, h, hk]

/-- A right cell of a slice that is being received is corrected into the back buffer. -/
theorem Chip.pixelCell_corrects (h01 : c.slice = 0 ∨ c.slice = 1) (hk : c.cellCause p = 0) :
    b.pixelCell h p data tag =
      let d := (c.sliceTake h p data tag).onNim fun n => { n with code := p.code }
      let e := d.correctAll (bitsOfCode p.code) p.off (unpackPixels (bitsOfCode p.code) p.npix (c.decipher h p data))
      (e.put .NIMBUS_RX_PIXELS (p.off + p.npix)).setSlice (if p.last then 2 else 1) := by
  rcases h01 with h | h <;> simp [Chip.pixelCell_open hc ho hf ha he, h, hk]

end Cells

/-! ### The slice's tag (R206) -/

section Tag

variable {c : Chip} (h2 : c.decideDue.slice = 2)

include h2

/-- The tag verifies a complete slice. -/
theorem Chip.sliceTag_verifies (hg : c.decideDue.sliceTagOk = true) :
    c.sliceTag = (c.decideDue.setSlice 3).onNim fun n => { n with readyAt := c.decideDue.bell.time } := by
  simp [Chip.sliceTag, h2, hg]

/-- A wrong tag fails a complete slice. -/
theorem Chip.sliceTag_fails (hg : c.decideDue.sliceTagOk = false) : c.sliceTag =
    let d := c.decideDue.sliceFail 5
    (d.count (Reg.CHAIN_TAG_ERR d.upPort)).raise .NIMBUS_GMAC_FAIL := by
  simp only [Chip.sliceTag, h2, hg, ne_eq, not_true_eq_false, if_false, Bool.false_eq_true]
  rfl

end Tag

/-! ### The decision (R222, R224) -/

section Decision

variable {c : Chip}

/-- Time reaches the decision instant, where the grid gives one. -/
def Chip.atDecision (c : Chip) : Chip := if c.gridAhead then c.elapseTo c.decideInstant else c

theorem Chip.decision_decides (h : c.gridAhead = true ∨ c.syncTicks = true) : c.decision = c.atDecision.decideSwap := by
  cases hg : c.gridAhead with
  | true => simp [Chip.decision, Chip.atDecision, hg]
  | false =>
    have sync : c.syncTicks = true := h.resolve_left (by simp [hg])
    simp [Chip.decision, Chip.atDecision, hg, sync]

/-- A slice is closed without a swap: what is counted, and the tile holds its frame. -/
def Chip.shutAs (c d : Chip) : Chip :=
  ((d.setSlice 5).onNim fun n => { n with decided := true }).onTile fun t =>
    { t with held := true, gmacFail := t.gmacFail || (c.slice == 4 && c.nim.cause == 5) }

variable (ho : c.nim.open_ = true)

include ho

/-- A slice verified in time arms the swap and its current limit. -/
theorem Chip.decideSwap_arms (h3 : c.slice = 3) (ht : c.inTime = true) : c.decideSwap =
    (((((c.put .NIMBUS_STAT_ARMED 1).put .LAMP_ILIM_EST_MA c.estimate.1).onNim fun n =>
      { n with limk := c.estimate.2 }).setSlice 5).onNim fun n => { n with decided := true }) := by
  simp [Chip.decideSwap, ho, h3, ht]
  rfl

/-- Any other slice is closed. -/
theorem Chip.decideSwap_shuts (h5 : c.slice ≠ 5) (ha : (c.slice == 3 && c.inTime) = false) :
    c.decideSwap = c.shutAs c.closeSlice := by
  simp [Chip.decideSwap, ho, h5, ha, Chip.shutAs]

end Decision

/-- A slice of which nothing came is empty. -/
theorem Chip.closeSlice_empty {c : Chip} (h : c.slice = 0) : c.closeSlice = c.count Reg.NIMBUS_EMPTY_CNT := by
  simp only [Chip.closeSlice, h]

/-- A failed slice is invalid, with its cause. -/
theorem Chip.closeSlice_failed {c : Chip} (h : c.slice = 4) : c.closeSlice =
    (((c.count Reg.NIMBUS_INVALID_CNT).raise .NIMBUS_INVALID).put .NIMBUS_LAST_FAIL_FRAME c.nim.period).put
      .NIMBUS_LAST_FAIL_CAUSE c.nim.cause := by
  simp only [Chip.closeSlice, h, Chip.raise_nim, Chip.count_nim]

/-- A slice not verified in time is late. -/
theorem Chip.closeSlice_late {c : Chip} (h : c.slice = 1 ∨ c.slice = 2 ∨ c.slice = 3) : c.closeSlice =
    (((c.count Reg.NIMBUS_LATE_CNT).raise .NIMBUS_LATE).put .NIMBUS_LAST_FAIL_FRAME c.nim.period).put
      .NIMBUS_LAST_FAIL_CAUSE 6 := by
  rcases h with h | h | h <;> simp only [Chip.closeSlice, h, Chip.raise_nim, Chip.count_nim]

/-! ### The swap (R222, R224) -/

section Swap

variable {c : Chip}

/-- Without the locator pattern a swap is all that happens at its instant (R26). -/
theorem Chip.swapping_shown {f : Chip → Chip} (hl : (f c).tile.locator = false) : c.swapping f = f c := by
  simp [Chip.swapping, Chip.locatorOff, hl]

@[simp] theorem Chip.holdSlot_tile (c : Chip) : c.holdSlot.tile = c.tile := by
  simp only [Chip.holdSlot]
  repeat' split
  all_goals rfl

theorem Chip.locator_swapHeld (c : Chip) : c.swapHeld.tile.locator = c.tile.locator := by
  simp only [Chip.swapHeld]
  split
  · exact Chip.locator_raise _ _
  · rfl

theorem Chip.locator_swapArmed (c : Chip) : c.swapArmed.tile.locator = c.tile.locator := by
  have told (d : Chip) (b : Bool) : (d.when b fun d => d.raise .LAMP_ILIM_ACT).tile.locator = d.tile.locator := by
    cases b <;> simp
  simp only [Chip.swapArmed, Chip.onNim_tile, Chip.onTile_tile, told, Chip.put_tile, Chip.count_tile, Chip.holdSlot_tile]

/-- Time reaches the swap instant, after the decision. -/
def Chip.atSwap (c : Chip) : Chip := c.decision.elapseTo c.swapInstant

/-- What the decision left is taken up. -/
def Chip.disarmed (c : Chip) : Chip := (c.put .NIMBUS_STAT_ARMED 0).onNim fun n => { n with decided := false }

theorem Chip.enabled_disarmed (c : Chip) : c.disarmed.enabled 0xa0 = c.enabled 0xa0 :=
  congrArg (· == 1) (c.get_put_other .NIMBUS_STAT_ARMED (.PG_STATUS_ENABLED 0xa0) 0 (.inl (by decide)))

/-- On the grid the swap is carried out at its instant. -/
theorem Chip.swapNow_grid (hg : c.gridAhead = true) (hb : c.nim.band ≠ 0 ∨ c.nextTick = c.nim.period + 1) :
    c.swapNow = c.atSwap.swap := by
  by_cases h0 : c.nim.band = 0
  · have next : c.nextTick = c.nim.period + 1 := hb.resolve_left (not_not.2 h0)
    simp [Chip.swapNow, h0, hg, next, Chip.atSwap]
  · simp [Chip.swapNow, Chip.bandSwap, h0, hg, Chip.atSwap]

variable (hd : c.nim.decided = true)

include hd

/-- A swap that is not armed holds the frame. -/
theorem Chip.swap_holds (ha : c.flag .NIMBUS_STAT_ARMED = false) : c.swap = c.disarmed.swapHeld := by
  simp [Chip.swap, hd, ha, Chip.disarmed]

/-- An armed swap exchanges the buffers. -/
theorem Chip.swap_exchanges (ha : c.flag .NIMBUS_STAT_ARMED = true) (he : c.enabled 0xa0 = true) :
    c.swap = c.disarmed.swapArmed := by
  have enabled := (Chip.enabled_disarmed c).trans he
  simp only [Chip.disarmed] at enabled
  simp [Chip.swap, hd, ha, enabled, Chip.disarmed]

end Swap

/-! ### The code of a lamp (R213) -/

/-- A value that is not 65,536 or more has a floor below it. -/
theorem dyFloor_lt_of_not_dyLe {v : Dy} (h : dyLe (dyInt 65536) v = false) : dyFloor v < 65536 := by
  obtain ⟨m, e⟩ := v
  simp only [dyLe, dyAdd, dyNeg, dyInt, ge_iff_le, decide_eq_false_iff_not, not_le] at h
  by_cases he : 0 ≤ e
  · simp only [min_eq_right he] at h
    simp only [dyFloor, if_pos he]
    simp at h
    omega
  · have hm : min e 0 = e := by omega
    simp only [hm] at h
    simp only [dyFloor, if_neg he]
    refine Int.ediv_lt_of_lt_mul (by positivity) ?_
    simp at h
    omega

/-- A lamp's code is one of 16 bits. -/
theorem lampCode_le (m : Nat → Dy) (ofs scale d : Dy) (x : List Dy) : (lampCode m ofs x scale d).1 ≤ 65535 := by
  simp only [lampCode]
  split
  · exact Nat.zero_le _
  · split
    · exact Nat.le_refl _
    · next h =>
      have low := dyFloor_lt_of_not_dyLe (Bool.eq_false_iff.2 h)
      simp only
      omega

end Sys2Proof.Machine
end

section
/-!
PROOF. How a tile shows a slice, or holds its frame (R119, R205, R206, R213, R214, R222 to R225, R242): the obligation O44.
-/

open Sys2Proof Sys2Proof.Machine Sys2Proof.Safety

namespace Sys2Proof.Proofs

/-- Settles O44: cell, tag, decision and swap are each one case of the slice's state at their instant. -/
theorem slicesAreShownOrHeld : Obligations.SlicesAreShownOrHeld := by
  unfold Obligations.SlicesAreShownOrHeld
  refine ⟨?_, fun s ht => ⟨fun h2 => ?_, fun hi => ?_, fun hg hb => ?_⟩, lampCode_le⟩
  · intro s port h p data rx g c k hp ho hf ha he
    have taken {f : Chip → Chip} (hf : (s.chip.passDown port (.pixel h p data) h rx).pixelCell h p data rx.tag = f s.chip) :
        exec (.pixelCell port h p data rx) s = .next (s.effect f) :=
      (exec_pixelCell ..).trans (State.run_next (port_of_pixelFor hp) ((Chip.pixelIn_for hp).trans hf))
    exact ⟨fun h5 => taken (Chip.pixelCell_closed rfl ho hf ha he h5),
      fun h4 => taken (Chip.pixelCell_failed rfl ho hf ha he h4),
      fun h23 => taken (Chip.pixelCell_complete rfl ho hf ha he h23),
      fun h01 => ⟨fun hk => taken (Chip.pixelCell_wrong rfl ho hf ha he h01 hk),
        fun hk => taken (Chip.pixelCell_corrects rfl ho hf ha he h01 hk)⟩⟩
  · exact ⟨fun hk => (exec_sliceTagResult s).trans (State.run_next rfl ((if_pos ht).trans (Chip.sliceTag_verifies h2 hk))),
      fun hk => (exec_sliceTagResult s).trans (State.run_next rfl ((if_pos ht).trans (Chip.sliceTag_fails h2 hk)))⟩
  · intro g shut ho
    have decided {f : Chip → Chip} (hf : s.chip.atDecision.decideSwap = f s.chip) :
        exec .swapDecision s = .next (s.effect f) :=
      (exec_swapDecision s).trans (State.run_next rfl ((if_pos ht).trans ((Chip.decision_decides hi).trans hf)))
    have shuts {f : Chip → Chip} (h5 : (g s.chip).slice ≠ 5) (ha : ((g s.chip).slice == 3 && (g s.chip).inTime) = false)
        (hf : (g s.chip).shutAs (g s.chip).closeSlice = f s.chip) : exec .swapDecision s = .next (s.effect f) :=
      decided ((Chip.decideSwap_shuts ho h5 ha).trans hf)
    refine ⟨fun h3 hin => decided (Chip.decideSwap_arms ho h3 hin),
      fun h0 => shuts ?_ ?_ (congrArg (Chip.shutAs _) (Chip.closeSlice_empty h0)),
      fun h4 => shuts ?_ ?_ (congrArg (Chip.shutAs _) (Chip.closeSlice_failed h4)),
      fun h => shuts ?_ ?_ (congrArg (Chip.shutAs _) (Chip.closeSlice_late ?_))⟩
    · simp [h0]
    · simp [h0]
    · simp [h4]
    · simp [h4]
    · rcases h with h | h | ⟨h, -⟩ <;> simp [h]
    · rcases h with h | h | ⟨h, hin⟩
      · simp [h]
      · simp [h]
      · simp [h, hin]
    · exact h.imp_right (Or.imp_right And.left)
  · intro g f hd hl
    have swapped {k : Chip → Chip} (hk : (g s.chip).swap = k s.chip) (hs : (k s.chip).tile.locator = false) :
        exec .swap s = .next (s.effect k) := by
      have now : s.chip.swapNow = k s.chip := (Chip.swapNow_grid hg hb).trans hk
      exact (exec_swap s).trans (State.run_next rfl ((if_pos ht).trans ((Chip.swapping_shown (now ▸ hs)).trans now)))
    exact ⟨fun ha => swapped (Chip.swap_holds hd ha) ((Chip.locator_swapHeld _).trans hl),
      fun ha he => swapped (Chip.swap_exchanges hd ha he) ((Chip.locator_swapArmed _).trans hl)⟩

end Sys2Proof.Proofs
end

section
/-!
SUPPORT. A tile's return slots, the RACKs that answer them, its census and the neighbours it measures (R107, R125, R128 to R131,
R139).
-/

namespace Sys2Proof.Machine

open Safety

/-! ### The commands as effects -/

theorem exec_slotTransmit (unit clobber : Nat) (s : State) :
    exec (.slotTransmit unit clobber) s = s.run (.slotTransmit unit clobber) fun c =>
      if c.isTile then c.slotSend unit clobber else c := rfl

theorem exec_rackReceive (port : Nat) (h : Hdr) (units : List Nat) (rx : Rx) (s : State) :
    exec (.rackReceive port h units rx) s = s.run (.rackReceive port h units rx) fun c =>
      c.forwardCell port (.rack c.lastIndex units) h rx fun c => c.rackCell port h units rx := rfl

theorem exec_rackMiss (s : State) : exec .rackMiss s = s.run .rackMiss fun c => if c.isTile then c.rackMiss else c := rfl

theorem exec_census (d : Option (Hdr × Rx)) (s : State) :
    exec (.census d) s = s.run (.census d) fun c => c.censusBlock d := rfl

theorem exec_slotUnitForward (port unit : Nat) (x : Cell) (h : Hdr) (rx : Rx) (off : Int) (s : State) :
    exec (.slotUnitForward port unit x h rx off) s = s.run (.slotUnitForward port unit x h rx off) fun c =>
      c.unitPasses port unit x h rx off := rfl

/-! ### The tile's units (R125) -/

/-- Off a ring a tile owns the units that ASSIGN gave it. -/
theorem Chip.owns_iff {c : Chip} {u : Nat} (hr : c.flag .ELDER_T_CFG_RING = false) :
    c.owns u = true ↔ c.get .RET_UNITS_COUNT ≠ 0 ∧ c.get .RET_UNITS_FIRST ≤ u ∧
      u < c.get .RET_UNITS_FIRST + c.get .RET_UNITS_COUNT := by
  simp [Chip.owns, hr]

/-! ### A slot (R125, R129 to R131) -/

/-- A slot of a unit as the part stands, with its records. -/
def Chip.slotOf (c : Chip) (u : Nat) (l : List Rec) : Slot :=
  let t := c.tile
  let down := if c.flag (.CHAIN_STATE_TAIL c.upPort) then (0, 0, 0) else t.stampD
  { wdn := c.get .SYS_DOMAIN_WDN, rseq := (assoc t.rseq u).getD 0, shown := c.get .NIMBUS_STAT_FRAME_SHOWN
    status := c.slotStatus, offset := c.nat Reg.BELL_OFFSET
    seqU := t.stampU.1, b1 := t.stampU.2.1, b2 := t.stampU.2.2
    seqD := down.1, a1 := down.2.1, a2 := down.2.2, recs := l }

/-- Time reaches a slot's unit (R125). -/
def Chip.atSlot (c : Chip) (u : Nat) : Chip := c.elapseSlot (windowBlock u)

/-- A unit that is not the tile's is left alone. -/
theorem Chip.slotSend_foreign {c : Chip} {u : Nat} (clobber : Nat) (ho : c.owns u = false) : c.slotSend u clobber = c := by
  simp [Chip.slotSend, ho]

/-- A slot that has not been acknowledged is repeated, and the last unit clears what the status told. -/
theorem Chip.slotSend_repeats {c : Chip} {u : Nat} {l : List Rec} (ho : c.owns u = true) (h30 : c.enabled 0x30 = true)
    (hq : c.flag .GATE_QUAR_ACTIVE = false) (h0 : c.servo ≠ 0) (hr : (c.atSlot u).flag .ELDER_T_CFG_RING = false)
    (hl : assoc (c.atSlot u).tile.sent u = some l) :
    c.slotSend u 0 =
      let d := (c.atSlot u).sendUp (.slot u ((c.atSlot u).slotOf u l))
      if u + 1 = c.get .RET_UNITS_FIRST + c.get .RET_UNITS_COUNT then d.onTile fun t =>
        { t with held := false, gmacFail := false, modeMiss := false, evqOvf := false, dupSeen := false }
      else d := by
  have sends : ¬ (!c.owns u || !c.enabled 0x30 || c.flag .GATE_QUAR_ACTIVE || c.servo == 0) = true := by simp [ho, h30, hq, h0]
  simp only [Chip.slotSend, if_neg sends]
  change assoc (c.elapseSlot (windowBlock u)).tile.sent u = some l at hl
  change (c.elapseSlot (windowBlock u)).flag .ELDER_T_CFG_RING = false at hr
  simp only [Chip.when, bne_self_eq_false, Bool.false_eq_true, if_false, hr, hl, Bool.false_and, Bool.false_or, beq_iff_eq,
    if_true]
  rfl

/-- The records that go out and those that stay are the records in order. -/
theorem fitRecs_append (room : Nat) (l : List Rec) : (fitRecs room l).1 ++ (fitRecs room l).2 = l := by
  induction l generalizing room with
  | nil => rfl
  | cons r rs ih =>
    simp only [fitRecs]
    split
    · exact congrArg (r :: ·) (ih _)
    · rfl

/-- The records that go out fit the field. -/
theorem fitRecs_fits (room : Nat) (l : List Rec) : ((fitRecs room l).1.map Rec.size).sum ≤ room := by
  induction l generalizing room with
  | nil => exact Nat.zero_le _
  | cons r rs ih =>
    simp only [fitRecs]
    split
    · next h =>
      have rest := ih (room - r.size)
      simp only [List.map_cons, List.sum_cons]
      omega
    · exact Nat.zero_le _

/-! ### RACK (R131) -/

section Rack

variable {c : Chip} {port : Nat} {h : Hdr} {units : List Nat} {rx : Rx} (ht : c.isTile = true)
  (hs : soundRx (.rack c.lastIndex units) h rx = true) (hu : c.tile.up = some port) (hk : c.tile.session.isSome = true)

include ht hs hu hk

/-- A RACK with a right tag goes on and moves the units it names. -/
theorem Chip.rackCell_taken (hg : c.tagOk (.rack c.lastIndex units) h rx = true) :
    c.rackCell port h units rx = (c.passDown port (.rack c.lastIndex units) h rx).rackIn units := by
  have keyed : c.tile.session ≠ none := Option.isSome_iff_ne_none.1 hk
  simp [Chip.rackCell, Chip.receive_passDown hs ht hu rfl, keyed, hg]

/-- A RACK with a wrong tag goes on and is a tag failure. -/
theorem Chip.rackCell_badTag (hg : c.tagOk (.rack c.lastIndex units) h rx = false) :
    c.rackCell port h units rx = (c.passDown port (.rack c.lastIndex units) h rx).tagErr := by
  have keyed : c.tile.session ≠ none := Option.isSome_iff_ne_none.1 hk
  simp [Chip.rackCell, Chip.receive_passDown hs ht hu rfl, keyed, hg]

end Rack

/-! ### Census (R128) -/

section Census

variable {c : Chip}

/-- A cell from downstream does not come on the upstream port. -/
theorem Chip.up_ne_downPort (c : Chip) : c.tile.up ≠ some c.downPort := by
  intro e
  have self : c.upPort = c.downPort := by rw [Chip.upPort, e, Option.getD_some]
  unfold Chip.downPort at self
  omega

variable (ht : c.isTile = true) (h30 : c.enabled 0x30 = true) (h0 : c.servo ≠ 0)

include ht h30 h0

theorem Chip.censusBlock_alone : c.censusBlock none = c.superframe.censusStep none := by
  simp [Chip.censusBlock, ht, h30, h0]

/-- A sound CENSUS cell from downstream is counted on. -/
theorem Chip.censusBlock_heard {h : Hdr} {rx : Rx} (hs : soundRx (.census h.dest) h rx = true) :
    c.censusBlock (some (h, rx)) = c.superframe.censusStep (some h.dest) := by
  have sound := c.superframe.checkCell_sound c.superframe.downPort _ h rx hs
    (Chip.wrongWay_return rfl c.superframe.up_ne_downPort)
  simp [Chip.censusBlock, ht, h30, h0, sound]

end Census

/-- Another tile than the tail sends a count one higher. -/
theorem Chip.censusStep_counts {c : Chip} {k : Nat} (hk : 0 < k)
    (ht : (c.elapseSlot 0).flag (.CHAIN_STATE_TAIL (c.elapseSlot 0).upPort) = false) :
    c.censusStep (some k) =
      let e := c.elapseSlot 0
      ((e.put (.CHAIN_POS_DEPTH e.upPort) (k + 1)).showPos).sendUp (.census (k + 1)) := by
  simp [Chip.censusStep, ht, Option.filter_some, hk.ne']

/-! ### Measured neighbours (R139) -/

/-- The start block of another owner's unit that comes from downstream is measured and goes on. -/
theorem Chip.unitForward_measures {c : Chip} {port unit : Nat} {x : Cell} {h : Hdr} {rx : Rx} {off : Int}
    (hu : c.tile.up = some (1 - port)) (hx : x.type = 0x78) (hh : rx.hcrc = x.hcrc h) (ho : c.owns unit = false) :
    c.unitForward port unit x h rx off =
      let was := c.tile.drift.any fun d => d.wdn == h.dest && d.muted
      let y := driftMeasure c.tile.drift h.dest unit off
      ((c.onTile fun t => { t with drift := y.1 }).edge y.2 was off).returnCell port unit x h rx :=
  if_pos (by simp [hu, hx, hh, ho])

/-- A start block beyond two blocks lengthens the run, and the third mutes. -/
theorem driftStep_beyond (d : Drift) {off : Int} (h : off < -2 ∨ 2 < off) :
    (driftStep d off).run = d.run + 1 ∧ (2 ≤ d.run → (driftStep d off).muted = true) := by
  refine ⟨if_pos h, fun hr => ?_⟩
  simp [driftStep, h, hr]

/-- A start block within two blocks ends the run. -/
theorem driftStep_within (d : Drift) {off : Int} (h1 : -2 ≤ off) (h2 : off ≤ 2) :
    (driftStep d off).run = 0 ∧ (driftStep d off).muted = d.muted := by
  have within : ¬ (off < -2 ∨ 2 < off) := by omega
  simp [driftStep, within]

end Sys2Proof.Machine
end

section
/-!
PROOF. O45: the return slots of a tile.
-/

open Sys2Proof Sys2Proof.Machine Sys2Proof.Safety

namespace Sys2Proof.Proofs

/-- Settles O45: each command is one case of what the tile does at its instant; the pure clauses are about the fitting of
records, the census and the measured offsets. -/
theorem returnSlotsOfATile : Obligations.ReturnSlotsOfATile := by
  unfold Obligations.ReturnSlotsOfATile
  refine ⟨fun c u hr => Chip.owns_iff hr, ?_, fun room l => ⟨fitRecs_append room l, fitRecs_fits room l⟩, ?_, ?_,
    fun c k hk => ?_, fun d off => ⟨driftStep_beyond d, driftStep_within d⟩⟩
  · intro s unit clobber l hn ht g c
    have sent {clobber : Nat} {f : Chip → Chip} (hf : s.chip.slotSend unit clobber = f s.chip) :
        exec (.slotTransmit unit clobber) s = .next (s.effect f) :=
      (exec_slotTransmit ..).trans (State.run_next (decide_eq_true hn) ((if_pos ht).trans hf))
    exact ⟨fun ho h30 hq h0 hr hl => ⟨(s.chip.atSlot unit).slotOf unit l, rfl, rfl, rfl,
      sent (Chip.slotSend_repeats ho h30 hq h0 hr hl)⟩, fun ho => sent (Chip.slotSend_foreign clobber ho)⟩
  · intro s port h units rx hp ht x hs hu hk
    have received {g : Chip → Chip} (hg : s.chip.rackCell port h units rx = g s.chip) :
        exec (.rackReceive port h units rx) s = .next (s.effect g) :=
      (exec_rackReceive ..).trans
        (State.run_next (decide_eq_true (hp.trans (by decide))) ((Chip.forwardCell_tile ht hp _).trans hg))
    exact ⟨fun hg => received (Chip.rackCell_taken ht hs hu hk hg), fun hg => received (Chip.rackCell_badTag ht hs hu hk hg)⟩
  · intro s ht
    refine ⟨fun hc => ?_, fun h30 h0 => ⟨?_, fun h rx hs => ?_⟩, fun port unit x h rx off hp hn => ⟨?_, fun hu hx hh ho => ?_⟩⟩
    · exact (exec_rackMiss s).trans (State.run_next rfl ((if_pos ht).trans (if_neg hc)))
    · exact (exec_census ..).trans (State.run_next rfl (Chip.censusBlock_alone ht h30 h0))
    · exact (exec_census ..).trans (State.run_next rfl (Chip.censusBlock_heard ht h30 h0 hs))
    · exact (exec_slotUnitForward ..).trans
        (State.run_next (decide_eq_true ⟨hp.trans (by decide), hn⟩) ((if_pos ht).trans (if_pos hp)))
    · exact Chip.unitForward_measures hu hx hh ho
  · intro e ht
    exact Chip.censusStep_counts hk ht

end Sys2Proof.Proofs
end

section
/-!
SUPPORT. Ethernet ports at a sender (R144 to R146, R163, R324): what a port takes and counts, how it comes up and goes down, ARP, and
the IGMP messages.
-/

namespace Sys2Proof.Machine

/-! ### The commands as effects -/

theorem exec_ethLinkUp (n : Nat) (s : State) : exec (.ethLinkUp n) s = s.run (.ethLinkUp n) fun c => c.ethComesUp n := rfl

theorem exec_ethLinkDown (n : Nat) (s : State) :
    exec (.ethLinkDown n) s = s.run (.ethLinkDown n) fun c => c.ethGoesDown n := rfl

theorem exec_ethHiBer (n : Nat) (on : Bool) (s : State) :
    exec (.ethHiBer n on) s = s.run (.ethHiBer n on) fun c => c.hiBer n on := rfl

theorem exec_arpReceive (n sender target : Nat) (request : Bool) (f : EthFrame) (s : State) :
    exec (.arpReceive n sender target request f) s = s.run (.arpReceive n sender target request f) fun c =>
      if n = 2 then (if f.fcs then c.arpLaneM sender target request else c)
      else c.ethIn n f fun c => c.arpIn n sender target request := rfl

theorem exec_igmpQuery (n : Nat) (group : Option Nat) (f : EthFrame) (s : State) :
    exec (.igmpQuery n group f) s = s.run (.igmpQuery n group f) fun c =>
      c.ethIn n f fun c => (c.ethGood n).joinAll n group := rfl

theorem exec_igmpJoin (s : State) : exec .igmpJoin s = s.run .igmpJoin Chip.igmpJoin := rfl

theorem exec_igmpRepeat (s : State) : exec .igmpRepeat s = s.run .igmpRepeat Chip.igmpRepeat := rfl

/-! ### Frames at a port (R144, R163) -/

section Frames

variable {c : Chip} {n : Nat} {f : EthFrame} (k : Chip → Chip)

/-- A port that is down takes no frame. -/
theorem Chip.ethIn_down (hup : c.ethUp n = false) : c.ethIn n f k = c := by
  simp only [Chip.ethIn, hup, Bool.not_false, if_true]

/-- A frame with a bad FCS is counted. -/
theorem Chip.ethIn_badFcs (hup : c.ethUp n = true) (hf : f.fcs = false) :
    c.ethIn n f k = (c.ethFec n f).count (Reg.ETH_RX_FCS n) := by
  simp only [Chip.ethIn, hup, hf, Bool.not_true, Bool.not_false, Bool.false_eq_true, if_false, if_true]

/-- A frame outside the subset is counted. -/
theorem Chip.ethIn_outside (hup : c.ethUp n = true) (hf : f.fcs = true) (hfit : (c.ethFec n f).ethFits n f = false) :
    c.ethIn n f k = (c.ethFec n f).count (Reg.ETH_RX_OTHER n) := by
  simp only [Chip.ethIn, hup, hf, hfit, Bool.not_true, Bool.false_eq_true, if_false]

end Frames

/-! ### The state of a link (R144, R163) -/

section Link

variable {c : Chip} {n : Nat}

theorem Chip.ethHere_of (hs : c.isSender = true) (h40 : c.enabled (0x40 + n) = true) (h18 : c.enabled (0x18 + n) = true) :
    c.ethHere n = true := by
  simp only [Chip.ethHere, hs, h40, h18, Bool.and_self]

/-- A port that comes up shows its locks, raises LINK_UP, announces its address and joins its groups. -/
theorem Chip.ethComesUp_shows (hh : c.ethHere n = true) (hl : c.flag (.ETH_STAT_LINK n) = false) :
    c.ethComesUp n =
      let d := ((c.put (.ETH_STAT_LINK n) 1).put (.ETH_STAT_FEC_LOCK n) (c.get (.ETH_CFG_FEC_EN n))).put (.ETH_STAT_AM_LOCK n) 1
      (((d.put (.ETH_STAT_LANE_LOCK n) 0xF).raise (.ETH_LINK_UP n)).gratuitousArp n).joinAll n none :=
  if_pos (by simp only [hh, hl, Bool.not_false, Bool.and_self])

/-- A port that goes down shows nothing and raises LINK_DOWN. -/
theorem Chip.ethGoesDown_shows (hs : c.isSender = true) (hl : c.flag (.ETH_STAT_LINK n) = true) :
    c.ethGoesDown n = (c.setNat (Reg.ETH_STAT n) 0).raise (.ETH_LINK_DOWN n) :=
  if_pos (by simp only [hs, hl, Bool.and_self])

/-- The bit error ratio becomes high: HI_BER is shown and raised. -/
theorem Chip.hiBer_begins (hh : c.ethHere n = true) (hb : c.flag (.ETH_STAT_HI_BER n) = false) :
    c.hiBer n true = (c.put (.ETH_STAT_HI_BER n) 1).raise (.ETH_HI_BER n) :=
  if_pos (by simp [hh, hb])

/-- The bit error ratio is high no longer. -/
theorem Chip.hiBer_ends (hh : c.ethHere n = true) (hb : c.flag (.ETH_STAT_HI_BER n) = true) :
    c.hiBer n false = c.put (.ETH_STAT_HI_BER n) 0 :=
  if_pos (by simp [hh, hb])

theorem Chip.hiBer_same {on : Bool} (hb : c.flag (.ETH_STAT_HI_BER n) = on) : c.hiBer n on = c :=
  if_neg (by simp only [hb, bne_self_eq_false, Bool.and_false, Bool.false_eq_true, not_false_eq_true])

end Link

/-! ### ARP (R145, R324) -/

section Arp

variable {c : Chip} {n sender target : Nat}

/-- A packet of another station that names this port's address is good; a request is answered. -/
theorem Chip.arpIn_named (h0 : c.nat (Reg.ETH_IP n) ≠ 0) (hs : sender ≠ c.nat (Reg.ETH_IP n))
    (ht : target = c.nat (Reg.ETH_IP n)) (request : Bool) :
    c.arpIn n sender target request = if request then (c.ethGood n).ethSend n 5 [target, sender] else c.ethGood n := by
  simp only [Chip.arpIn, ← ht, ht ▸ h0, ht ▸ hs, ne_eq, not_false_eq_true, and_false, and_self, true_and, or_true, if_true,
    if_false]

/-- A station that claims this port's address: ADDR_CONFLICT is raised, and its request for the address is answered all the same. -/
theorem Chip.arpIn_claimed (h0 : c.nat (Reg.ETH_IP n) ≠ 0) (hs : sender = c.nat (Reg.ETH_IP n)) (request : Bool) :
    c.arpIn n sender target request =
      if target = c.nat (Reg.ETH_IP n) ∧ request = true then
        ((c.ethGood n).raise (.ETH_ADDR_CONFLICT n)).ethSend n 5 [c.nat (Reg.ETH_IP n), sender]
      else (c.ethGood n).raise (.ETH_ADDR_CONFLICT n) := by
  simp only [Chip.arpIn, hs, h0, ne_eq, not_false_eq_true, true_and, true_or, if_true]

/-- Any other ARP packet is outside the subset. -/
theorem Chip.arpIn_foreign (h : c.nat (Reg.ETH_IP n) = 0 ∨ (sender ≠ c.nat (Reg.ETH_IP n) ∧ target ≠ c.nat (Reg.ETH_IP n)))
    (request : Bool) : c.arpIn n sender target request = c.count (Reg.ETH_RX_OTHER n) :=
  if_neg (by omega)

/-- Lane M answers a request for the management address. -/
theorem Chip.arpLaneM_answers (hs : c.isSender = true) (he : c.flag .WELL_MGMT_CFG_EN = true)
    (hl : c.flag .WELL_MGMT_STAT_LINK = true) (h0 : target ≠ 0) (ht : target = c.nat Reg.WELL_MGMT_IP) :
    c.arpLaneM sender target true = c.emit (.eth 2 5 [target, sender] none) := by
  simp [Chip.arpLaneM, hs, he, hl, ← ht, h0]

end Arp

/-! ### IGMP (R146) -/

section Groups

variable {c : Chip} {g : Igmp}

/-- A port that is up and has an address sends the message. -/
theorem Chip.sendIgmp_sends (hup : c.ethUp g.port = true) (h0 : c.nat (Reg.ETH_IP g.port) ≠ 0) :
    c.sendIgmp g =
      let v2 := c.flag (.ETH_CFG_IGMP_V2 g.port)
      c.ethSend g.port (if g.join then 1 else 2) [if v2 then 2 else 3, g.group, if v2 then 0 else g.src] :=
  if_pos (by simp [hup, h0])

/-- Sending a message leaves the age of the part. -/
theorem Chip.sendIgmp_age (c : Chip) (g : Igmp) : (c.sendIgmp g).age = c.age := by
  simp only [Chip.sendIgmp]
  split <;> rfl

/-- The next message due is sent; a join will be repeated. -/
theorem Chip.igmpJoin_sends {r : List Igmp} (hj : c.ing.joins = g :: r) :
    c.igmpJoin = (c.sendIgmp g).onIng fun i =>
      { i with joins := r, repeats := if g.join then i.repeats ++ [(g, c.age)] else i.repeats } := by
  simp only [Chip.igmpJoin, hj, Chip.sendIgmp_age]

/-- A second after the oldest join it is repeated, if its group is still used. -/
theorem Chip.igmpRepeat_due {x : Igmp × Nat} {r : List (Igmp × Nat)} (hr : c.ing.repeats = x :: r) :
    c.igmpRepeat = ((c.elapseAge (x.2 + ms 1000)).when ((c.elapseAge (x.2 + ms 1000)).groupUsed x.1.port x.1.group)
      fun c => c.sendIgmp x.1).onIng fun i => { i with repeats := r } := by
  simp only [Chip.igmpRepeat, hr]

section Repeat

variable {at_ : Nat} {r : List (Igmp × Nat)} (hr : c.ing.repeats = (g, at_) :: r)

include hr

theorem Chip.igmpRepeat_used (hu : (c.elapseAge (at_ + ms 1000)).groupUsed g.port g.group = true) :
    c.igmpRepeat = ((c.elapseAge (at_ + ms 1000)).sendIgmp g).onIng fun i => { i with repeats := r } := by
  rw [Chip.igmpRepeat_due hr, hu, Chip.when_true]

theorem Chip.igmpRepeat_unused (hu : (c.elapseAge (at_ + ms 1000)).groupUsed g.port g.group = false) :
    c.igmpRepeat = (c.elapseAge (at_ + ms 1000)).onIng fun i => { i with repeats := r } := by
  rw [Chip.igmpRepeat_due hr, hu, Chip.when_false]

end Repeat

end Groups

end Sys2Proof.Machine
end

section
/-!
PROOF. O46: Ethernet ports come up and go down, answer ARP and join groups.
-/

open Sys2Proof Sys2Proof.Machine Sys2Proof.Safety

namespace Sys2Proof.Proofs

/-- Settles O46: each command is one case of what its port does at the part; a frame at a port that is up passes the checks of every
frame first. -/
theorem ethernetPortsAndGroups : Obligations.EthernetPortsAndGroups := by
  unfold Obligations.EthernetPortsAndGroups
  intro s n sender target request on group f hn hsender htarget hs
  have port : decide (n < 2) = true := decide_eq_true hn
  have arp {request : Bool} {g : Chip → Chip} (h : (s.chip.ethIn n f fun c => c.arpIn n sender target request) = g s.chip) :
      exec (.arpReceive n sender target request f) s = .next (s.effect g) :=
    (exec_arpReceive ..).trans (State.run_next (decide_eq_true ⟨hn.trans (by decide), hsender, htarget⟩)
      ((if_neg (Nat.ne_of_lt hn)).trans h))
  have query {g : Chip → Chip} (h : (s.chip.ethIn n f fun c => (c.ethGood n).joinAll n group) = g s.chip) :
      exec (.igmpQuery n group f) s = .next (s.effect g) :=
    (exec_igmpQuery ..).trans (State.run_next port h)
  refine ⟨fun h40 h18 hl => ?_, fun hl => ?_, fun h40 h18 => ?_, fun hup => arp (Chip.ethIn_down _ hup), fun hup => ?_, ?_,
    fun g at_ => ⟨fun r hj hup h0 => ?_, fun r hr => ?_⟩⟩
  · exact (exec_ethLinkUp ..).trans (State.run_next port (Chip.ethComesUp_shows (Chip.ethHere_of hs h40 h18) hl))
  · exact (exec_ethLinkDown ..).trans (State.run_next port (Chip.ethGoesDown_shows hs hl))
  · have ber {on : Bool} {g : Chip → Chip} (h : s.chip.hiBer n on = g s.chip) :
        exec (.ethHiBer n on) s = .next (s.effect g) := (exec_ethHiBer ..).trans (State.run_next port h)
    have here := Chip.ethHere_of hs h40 h18
    exact ⟨fun hb => ber (Chip.hiBer_begins here hb), fun hb => ber (Chip.hiBer_ends here hb),
      fun hb => ber (Chip.hiBer_same hb)⟩
  · refine ⟨fun hf => ⟨arp (Chip.ethIn_badFcs _ hup hf), query (Chip.ethIn_badFcs _ hup hf)⟩,
      fun hf hfit => ⟨arp (Chip.ethIn_outside _ hup hf hfit), query (Chip.ethIn_outside _ hup hf hfit)⟩, fun hf hfit => ?_⟩
    have taken (k : Chip → Chip) : s.chip.ethIn n f k = k (s.chip.ethFec n f) := Chip.ethIn_takes k hup hf hfit
    refine ⟨query (taken _), fun h0 => ⟨fun hsn ht => ⟨?_, ?_⟩, fun hsn ht => ?_, fun hsn hor => ?_⟩, fun h => ?_⟩
    · exact arp ((taken _).trans (Chip.arpIn_named h0 hsn ht true))
    · exact arp ((taken _).trans (Chip.arpIn_named h0 hsn ht false))
    · refine arp ((taken _).trans ((Chip.arpIn_claimed h0 hsn true).trans ((if_pos ⟨ht, rfl⟩).trans ?_)))
      rw [ht]
    · refine arp ((taken _).trans ((Chip.arpIn_claimed h0 hsn request).trans (if_neg fun both => ?_)))
      exact hor.elim (· both.1) fun no => Bool.false_ne_true (no.symm.trans both.2)
    · exact arp ((taken _).trans (Chip.arpIn_foreign h request))
  · intro he hl h0 ht hf
    refine (exec_arpReceive ..).trans (State.run_next (decide_eq_true ⟨by decide, hsender, htarget⟩) ?_)
    exact (if_pos hf).trans (Chip.arpLaneM_answers hs he hl h0 ht)
  · refine (exec_igmpJoin s).trans (State.run_next rfl ((Chip.igmpJoin_sends hj).trans ?_))
    rw [Chip.sendIgmp_sends hup h0]
  · intro e
    have again {g : Chip → Chip} (h : s.chip.igmpRepeat = g s.chip) : exec .igmpRepeat s = .next (s.effect g) :=
      (exec_igmpRepeat s).trans (State.run_next rfl h)
    exact ⟨fun hu => again (Chip.igmpRepeat_used hr hu), fun hu => again (Chip.igmpRepeat_unused hr hu)⟩

end Sys2Proof.Proofs
end

section
/-!
SUPPORT. Streams at the ingest pipes (R144, R147 to R149, R154, R155, R157 to R159): packets and the contexts that take them, frames and
their buffers, lost streams and paths, the fill colour, and the coefficient RAM.
-/

namespace Sys2Proof.Machine

open Safety

/-! ### The commands as effects -/

theorem exec_videoPacket (n : Nat) (f : EthFrame) (net : NetKind) (dst src udp pt : Nat) (form : PayForm) (q : Pkt) (dt : Nat)
    (s : State) :
    exec (.videoPacket n f net dst src udp pt form q dt) s = s.run (.videoPacket n f net dst src udp pt form q dt) fun c =>
      (c.elapse dt).ethIn n f fun c =>
        if net = .udp then c.videoIn n dst src udp pt form q else c.count (Reg.ETH_RX_OTHER n) := rfl

theorem exec_streamLost (p k : Nat) (s : State) :
    exec (.streamLost p k) s = s.run (.streamLost p k) fun c => c.streamLost p k := rfl

theorem exec_pathLost (p k n : Nat) (s : State) :
    exec (.pathLost p k n) s = s.run (.pathLost p k n) fun c => c.pathLost p k n := rfl

theorem exec_fillTimeout (p k : Nat) (s : State) :
    exec (.fillTimeout p k) s = s.run (.fillTimeout p k) fun c => (c.holdElapse p k).fillOn p k := rfl

theorem exec_cramDataWrite (rq : Requester) (p : Nat) (v : Word) (s : State) :
    exec (.cramDataWrite rq p v) s = s.run (.cramDataWrite rq p v) fun c =>
      c.regWrite rq (Reg.INGEST_CRAM_DATA p) v noVerdict := rfl

theorem exec_cramDataRead (rq : Requester) (p : Nat) (s : State) :
    exec (.cramDataRead rq p) s = s.run (.cramDataRead rq p) fun c => c.readOut rq (Reg.INGEST_CRAM_DATA p) := rfl

/-! ### What an event and a write of the Granary leave -/

/-- An event changes registers and the tile's queue alone. -/
theorem Chip.raise_eq (c : Chip) (e : Ev) : ∃ regs tile, c.raise e = { c with regs := regs, tile := tile } := by
  simp only [Chip.raise, Chip.forwardEvent]
  repeat' split
  all_goals exact ⟨_, _, rfl⟩

@[simp] theorem Chip.raise_ing (c : Chip) (e : Ev) : (c.raise e).ing = c.ing := by
  obtain ⟨_, _, h⟩ := c.raise_eq e
  rw [h]

/-- An event's flag reads 1 once it has occurred, whether or not it is forwarded (R45). -/
theorem Chip.raise_sets (c : Chip) {e : Ev} (hb : e.bit < 32) : bitAt ((c.raise e).nat (Reg.PG_EVENT e.page)) e.bit = true := by
  rw [bitAt_eq_testBit]
  exact Chip.forwardEvent_keeps _ _ (c.setEvent_sets e hb)

/-- Two parts that differ in the Granary, in what was sent, in the tile's queue and in registers outside the ingest pages. -/
def sameButStored (c d : Chip) : Prop :=
  (∃ regs tile gran out, d = { c with regs := regs, tile := tile, gran := gran, out := out }) ∧
    ∀ a, 0x42 ≤ a / 0x1000 → a / 0x1000 ≤ 0x45 → d.rd a = c.rd a

theorem sameButStored.refl (c : Chip) : sameButStored c c := ⟨⟨c.regs, c.tile, c.gran, c.out, rfl⟩, fun _ _ _ => rfl⟩

theorem sameButStored.trans {c d e : Chip} (h : sameButStored c d) (k : sameButStored d e) : sameButStored c e := by
  obtain ⟨⟨_, _, _, _, rfl⟩, hr⟩ := h
  obtain ⟨⟨r, t, g, o, rfl⟩, kr⟩ := k
  exact ⟨⟨r, t, g, o, rfl⟩, fun a h1 h2 => (kr a h1 h2).trans (hr a h1 h2)⟩

/-- A write beyond TOP is counted and raised in the Granary's page (R277). -/
theorem Chip.oor_sameButStored (c : Chip) (a n : Nat) : sameButStored c (c.oor a n) := by
  simp only [Chip.oor]
  split
  · obtain ⟨r, t, h⟩ := (c.count Reg.GRAN_MGR_OOR).raise_eq .GRANMGR_OUT_OF_RANGE
    refine ⟨⟨r, t, c.gran, c.out, h⟩, fun b h1 h2 => ?_⟩
    rw [Chip.rd_raise_page _ _ (by dsimp only; omega) (by omega), Chip.count,
      Chip.rd_countBy_ne _ _ (by rintro rfl; exact absurd h2 (by decide))]
  · exact .refl c

/-- A write in a mirror window goes to the standby (R336). -/
theorem Chip.mirror_sameButStored (c : Chip) (a : Nat) (bs : List Byte) : sameButStored c (c.mirror a bs) := by
  simp only [Chip.mirror]
  split
  · refine ⟨⟨_, c.tile, c.gran, _, rfl⟩, fun b _ h2 => ?_⟩
    rw [Chip.rd_countBy_ne _ _ (by rintro rfl; exact absurd h2 (by decide)), Chip.rd_emit]
  · exact .refl c

/-- A write of the Granary leaves what the ingest pipes hold and show. -/
theorem Chip.gWrite_sameButStored (c : Chip) (a : Nat) (bs : List Byte) : sameButStored c (c.gWrite a bs) := by
  simp only [Chip.gWrite]
  split
  · refine ((c.oor_sameButStored a bs.length).trans ?_).trans (Chip.mirror_sameButStored _ _ _)
    exact ⟨⟨_, _, _, _, rfl⟩, fun _ _ _ => rfl⟩
  · exact .refl c

/-! ### Contexts -/

theorem listAt_listPut_same {α : Type} (l : List α) (n : Nat) (v d : α) :
    listAt (listPut l n v) n d = v ∨ listAt (listPut l n v) n d = d ∧ listAt l n d = d := by
  induction l generalizing n with
  | nil => exact .inr ⟨rfl, rfl⟩
  | cons x r ih =>
    cases n with
    | zero => exact .inl rfl
    | succ n => exact ih n

/-- A context that is changed is what the change makes of it; one that the part does not have stays empty. -/
theorem Chip.ctx_onCtx (c : Chip) (p k : Nat) (f : Ctx → Ctx) :
    (c.onCtx p k f).ctx p k = f (c.ctx p k) ∨ (c.onCtx p k f).ctx p k = ctxEmpty ∧ c.ctx p k = ctxEmpty :=
  listAt_listPut_same c.ing.ctxs (4 * p + k) (f (c.ctx p k)) ctxEmpty

/-- What a change leaves of a context, it leaves. -/
theorem Chip.ctx_onCtx_keeps {α : Type} (c : Chip) (p k : Nat) {f : Ctx → Ctx} (g : Ctx → α) (hf : ∀ x, g (f x) = g x) :
    g ((c.onCtx p k f).ctx p k) = g (c.ctx p k) := by
  rcases c.ctx_onCtx p k f with h | ⟨h, h'⟩
  · rw [h, hf]
  · rw [h, h']

/-- The contexts follow the ingest pipes' own part alone. -/
theorem Chip.ctx_congr {c d : Chip} (h : d.ing = c.ing) (p k : Nat) : d.ctx p k = c.ctx p k := by
  simp only [Chip.ctx, h]

/-! ### A video packet (R144, R146, R147, R157) -/

section Packets

variable {c : Chip} {n dst src udp pt : Nat} {form : PayForm} {q : Pkt}

/-- The contexts that a packet is for (R146). -/
def Chip.takers (c : Chip) (n dst src udp pt : Nat) : List (Nat × Nat) :=
  ctxNames.filter fun m => c.ctxTakes m.1 m.2 n dst src udp pt

/-- A packet for no context is outside the subset. -/
theorem Chip.videoIn_unmatched (h : c.takers n dst src udp pt = []) :
    c.videoIn n dst src udp pt form q = c.count (Reg.ETH_RX_OTHER n) :=
  if_pos (List.isEmpty_iff.2 h)

/-- A packet goes to every context it is for that takes its form, with the domain time of its arrival. -/
theorem Chip.videoIn_delivers (h : c.takers n dst src udp pt ≠ []) :
    c.videoIn n dst src udp pt form q =
      ((c.takers n dst src udp pt).filter fun m => (c.ctxSet false m.1 m.2).takesForm form q.segs.length).foldl
        (fun d m => d.packetIn m.1 m.2 n { q with at_ := c.bell.time }) (c.ethGood n) :=
  if_neg (by rwa [List.isEmpty_iff])

/-- Codewords are counted with FEC_EN alone (R163). -/
theorem Chip.ethFec_off {f : EthFrame} (h : c.flag (.ETH_CFG_FEC_EN n) = false) : c.ethFec n f = c := by
  simp only [Chip.ethFec, h, Chip.when_false]

/-- With FEC_EN codewords are counted, and an uncorrectable one raises FEC_UNCORR (R163). -/
theorem Chip.ethFec_on {f : EthFrame} (h : c.flag (.ETH_CFG_FEC_EN n) = true) :
    c.ethFec n f =
      let d := (c.countBy (Reg.ETH_FEC_CORR n) f.corr).countBy (Reg.ETH_FEC_UNCORR n) f.uncorr
      if f.uncorr = 0 then d else d.raise (.ETH_FEC_UNCORR n) := by
  simp only [Chip.ethFec, h, Chip.when_true]
  rcases Nat.eq_zero_or_pos f.uncorr with h0 | pos
  · simp [h0]
  · simp [pos, pos.ne']

end Packets

/-! ### A late packet (R148) -/

section Late

variable {c : Chip} {p k port : Nat} {q : Pkt}

/-- A context notes a packet of a path: where its window begins, the highest number, and when it came. -/
def Ctx.notes (x : Ctx) (port b s age : Nat) : Ctx :=
  { x with
    base := some b
    hi0 := if port = 0 then some (max (x.hi0.getD s) s) else x.hi0
    hi1 := if port = 0 then x.hi1 else some (max (x.hi1.getD s) s)
    at0 := if port = 0 then some age else x.at0
    at1 := if port = 0 then x.at1 else some age
    seen := x.seen.filter fun e => decide (age - e.2 ≤ us 500) }

/-- What every packet of a context does: it is counted, its path is live, and the context notes it. -/
def Chip.packetNoted (c : Chip) (p k port b s : Nat) : Chip :=
  ((c.count (Reg.INGEST_CTX_PKT_RX p k)).put (if port = 0 then .INGEST_CTX_STAT_LIVE0 p k else .INGEST_CTX_STAT_LIVE1 p k)
    1).onCtx p k fun x => x.notes port b s c.age

/-- On an unmerged stream a packet that precedes the window is late, and has no other effect. -/
theorem Chip.packetIn_late (hl : unwrapSeq ((c.ctx p k).base.getD q.seq) q.seq < (c.ctx p k).base.getD q.seq)
    (hm : (c.ctxSet false p k).srcSel ≠ 2) :
    c.packetIn p k port q =
      (c.packetNoted p k port ((c.ctx p k).base.getD q.seq) (unwrapSeq ((c.ctx p k).base.getD q.seq) q.seq)).count
        (Reg.INGEST_CTX_PKT_LATE p k) := by
  have unmerged : ((c.ctxSet false p k).srcSel == 2) = false := beq_false_of_ne hm
  simp only [Chip.packetIn, unmerged, Bool.false_and, Bool.false_eq_true, if_false]
  exact if_pos hl

/-- Noting a packet counts one in PKT_RX and in no other register but the context's state. -/
theorem Chip.rd_packetNoted (c : Chip) {a : Nat} (b s : Nat) (ha : a ≠ Reg.INGEST_CTX_STAT p k) :
    (c.packetNoted p k port b s).rd a = (c.count (Reg.INGEST_CTX_PKT_RX p k)).rd a :=
  Chip.rd_put_ne _ _ _ (by split <;> exact ha)

section Unmerged

variable (hl : unwrapSeq ((c.ctx p k).base.getD q.seq) q.seq < (c.ctx p k).base.getD q.seq)
  (hm : (c.ctxSet false p k).srcSel ≠ 2)

include hl hm

theorem Chip.pktLate_packetIn_late : (c.packetIn p k port q).nat (Reg.INGEST_CTX_PKT_LATE p k) =
    min (c.nat (Reg.INGEST_CTX_PKT_LATE p k) + 1) 0xffffffff := by
  have stat : Reg.INGEST_CTX_PKT_LATE p k ≠ Reg.INGEST_CTX_STAT p k := by
    simp only [Reg.INGEST_CTX_PKT_LATE, Reg.INGEST_CTX_STAT]; omega
  have other : Reg.INGEST_CTX_PKT_LATE p k ≠ Reg.INGEST_CTX_PKT_RX p k := by
    simp only [Reg.INGEST_CTX_PKT_LATE, Reg.INGEST_CTX_PKT_RX]; omega
  rw [Chip.packetIn_late hl hm, Chip.count, Chip.nat_countBy_same,
    Chip.nat_congr ((Chip.rd_packetNoted _ _ _ stat).trans (Chip.rd_countBy_ne c 1 other))]

theorem Chip.pktRx_packetIn_late : (c.packetIn p k port q).nat (Reg.INGEST_CTX_PKT_RX p k) =
    min (c.nat (Reg.INGEST_CTX_PKT_RX p k) + 1) 0xffffffff := by
  have stat : Reg.INGEST_CTX_PKT_RX p k ≠ Reg.INGEST_CTX_STAT p k := by
    simp only [Reg.INGEST_CTX_PKT_RX, Reg.INGEST_CTX_STAT]; omega
  have other : Reg.INGEST_CTX_PKT_RX p k ≠ Reg.INGEST_CTX_PKT_LATE p k := by
    simp only [Reg.INGEST_CTX_PKT_LATE, Reg.INGEST_CTX_PKT_RX]; omega
  rw [Chip.packetIn_late hl hm, ← Chip.nat_countBy_same]
  exact Chip.nat_congr ((Chip.rd_countBy_ne _ 1 other).trans (Chip.rd_packetNoted _ _ _ stat))

/-- What a context keeps when it notes a packet, a late one leaves. -/
theorem Chip.ctx_packetIn_late {α : Type} (g : Ctx → α) (hg : ∀ x b s age, g (x.notes port b s age) = g x) :
    g ((c.packetIn p k port q).ctx p k) = g (c.ctx p k) := by
  rw [Chip.packetIn_late hl hm]
  exact Chip.ctx_onCtx_keeps _ p k g fun x => hg x _ _ _

end Unmerged

end Late

/-! ### The end of a frame (R148, R157, R159) -/

section Ends

variable {c : Chip} {p k : Nat} {f : InFrame}

/-- The last lines of a frame are written. -/
def Chip.lastLines (c : Chip) (p k : Nat) (f : InFrame) : Chip :=
  (c.onCtx p k fun x => { x with frame := some { f with settled := (c.ctxSet false p k).inH } }).writeReady p k

/-- A context receives no frame any more, and keeps what `g` makes of the frame's buffer. -/
def Chip.closeFrame (c : Chip) (p k : Nat) (f : InFrame) (g : Option FBuf → Option FBuf) : Chip :=
  c.onCtx p k fun x =>
    { x with frame := none, lastRtp := some f.rtp, bufs := listPut x.bufs f.buf (g (listAt x.bufs f.buf none)) }

theorem Chip.frame_closeFrame (c : Chip) (p k : Nat) (f : InFrame) (g : Option FBuf → Option FBuf) :
    ((c.closeFrame p k f g).ctx p k).frame = none :=
  (c.ctx_onCtx p k _).elim (congrArg Ctx.frame) fun ⟨h, _⟩ => congrArg Ctx.frame h

/-- The buffer of a frame that is not kept holds none. -/
theorem Chip.buf_closeFrame (c : Chip) (p k : Nat) (f : InFrame) (hb : f.buf < 4) :
    listAt ((c.closeFrame p k f fun _ => none).ctx p k).bufs f.buf none = none := by
  have emptied : listAt (listPut (c.ctx p k).bufs f.buf none) f.buf none = none :=
    (listAt_listPut_same _ _ _ _).elim id And.left
  rcases c.ctx_onCtx p k _ with h | ⟨h, -⟩
  · exact (congrArg (fun x : Ctx => listAt x.bufs f.buf none) h).trans emptied
  · exact (congrArg (fun x : Ctx => listAt x.bufs f.buf none) h).trans
      ((by decide : ∀ b < 4, listAt ctxEmpty.bufs b none = none) f.buf hb)

variable (hf : (c.ctx p k).frame = some f)

include hf

/-- A frame that lost more packets than LOSS_MAX is bad and not kept. -/
theorem Chip.endFrame_bad (h0 : (c.ctxSet false p k).lossMax ≠ 0) (hl : (c.ctxSet false p k).lossMax < f.lost) :
    c.endFrame p k = (((c.lastLines p k f).closeFrame p k f fun _ => none).count (Reg.INGEST_CTX_FRAME_BAD p k)).raise
      (.INGEST_FRAME_BAD p) := by
  simp only [Chip.endFrame, hf]
  exact if_pos ⟨h0, hl⟩

/-- Another frame is complete, and its context runs. -/
theorem Chip.endFrame_complete (h : (c.ctxSet false p k).lossMax = 0 ∨ f.lost ≤ (c.ctxSet false p k).lossMax) :
    c.endFrame p k =
      let d := ((c.lastLines p k f).closeFrame p k f fun b => b.map fun v => { v with complete := true, ended := true }).put
        (.INGEST_CTX_STAT_NEWEST p k) f.buf
      if d.ctxState p k = 2 then d else (d.setCtxState p k 2).raise (.INGEST_STREAM_UP p) := by
  simp only [Chip.endFrame, hf]
  exact if_neg (by omega)

/-- The context of a frame that ends receives none. -/
theorem Chip.frame_endFrame : ((c.endFrame p k).ctx p k).frame = none := by
  by_cases h : (c.ctxSet false p k).lossMax ≠ 0 ∧ (c.ctxSet false p k).lossMax < f.lost
  · obtain ⟨h0, hl⟩ := h
    rw [Chip.endFrame_bad hf h0 hl, Chip.ctx_congr (Chip.raise_ing _ _)]
    exact Chip.frame_closeFrame (c.lastLines p k f) p k f fun _ => none
  · rw [Chip.endFrame_complete hf (by omega)]
    dsimp only
    split
    · exact Chip.frame_closeFrame _ p k f _
    · rw [Chip.ctx_congr (Chip.raise_ing _ _)]
      exact Chip.frame_closeFrame _ p k f _

/-- The buffer of a bad frame is empty. -/
theorem Chip.buf_endFrame_bad (h0 : (c.ctxSet false p k).lossMax ≠ 0) (hl : (c.ctxSet false p k).lossMax < f.lost)
    (hb : f.buf < 4) : listAt ((c.endFrame p k).ctx p k).bufs f.buf none = none := by
  rw [Chip.endFrame_bad hf h0 hl, Chip.ctx_congr (Chip.raise_ing _ _)]
  exact Chip.buf_closeFrame _ p k f hb

end Ends

/-- A context's state as it was set. -/
theorem Chip.ctxState_setCtxState (c : Chip) (p k : Nat) {n : Nat} (hn : n < 8) : (c.setCtxState p k n).ctxState p k = n :=
  (Chip.get_put_same c _ n (show 31 < 32 by decide)).trans (Nat.mod_eq_of_lt hn)

/-- An event leaves the fields of the ingest pages above their headers. -/
theorem Chip.get_raise_ctxStat (c : Chip) (e : Ev) {p k hi lo : Nat} (hp : p < 4) (hk : k < 4) :
    (c.raise e).get ⟨Reg.INGEST_CTX_STAT p k, hi, lo⟩ = c.get ⟨Reg.INGEST_CTX_STAT p k, hi, lo⟩ := by
  simp only [Chip.get]
  rw [Chip.rd_raise_above_header _ _ (by simp only [Reg.INGEST_CTX_STAT]; omega) (by simp only [Reg.INGEST_CTX_STAT]; omega)]

/-- The context of a frame that is complete is RUNNING. -/
theorem Chip.ctxState_endFrame {c : Chip} {p k : Nat} {f : InFrame} (hp : p < 4) (hk : k < 4)
    (hf : (c.ctx p k).frame = some f) (h : (c.ctxSet false p k).lossMax = 0 ∨ f.lost ≤ (c.ctxSet false p k).lossMax) :
    (c.endFrame p k).ctxState p k = 2 := by
  rw [Chip.endFrame_complete hf h]
  dsimp only
  split
  next running => exact running
  next => exact (Chip.get_raise_ctxStat _ _ hp hk).trans (Chip.ctxState_setCtxState _ p k (by decide))

/-! ### Buffers (R158) -/

/-- Among more numbers than a list has elements one is not in it. -/
theorem exists_find_notMem {l : List Nat} {n : Nat} (h : l.length < n) :
    ∃ b, (List.range n).find? (fun b => !l.contains b) = some b ∧ b ∉ l := by
  cases hb : (List.range n).find? (fun b => !l.contains b) with
  | some b => exact ⟨b, rfl, by simpa using List.find?_some hb⟩
  | none =>
    have all : List.range n ⊆ l := fun b hm => by simpa using List.find?_eq_none.1 hb b hm
    have := (List.subperm_of_subset List.nodup_range all).length_le
    rw [List.length_range] at this
    omega

/-- The buffers that a new frame leaves alone: latched, newest complete, next to be latched, receiving. -/
def Chip.busyBufs (c : Chip) (p k : Nat) : List Nat :=
  (c.ctx p k).latched.toList ++ ((newest ((c.ctx p k).bufsWhere (·.complete))).map (·.1)).toList ++
    ((c.latchChoice p k (c.tickTime c.nextTick)).map (·.1)).toList ++ ((c.ctx p k).frame.map (·.buf)).toList

theorem Chip.freeBuf_lt (c : Chip) (p k : Nat) : c.freeBuf p k < 4 := by
  simp only [Chip.freeBuf]
  cases hb : (List.range 4).find? _ with
  | none => decide
  | some b => exact List.mem_range.1 (List.mem_of_find?_eq_some hb)

/-- While no frame is received a buffer is free. -/
theorem Chip.freeBuf_notMem {c : Chip} {p k : Nat} (hf : (c.ctx p k).frame = none) : c.freeBuf p k ∉ c.busyBufs p k := by
  have few : (c.busyBufs p k).length < 4 := by
    have h1 (o : Option Nat) : o.toList.length ≤ 1 := by cases o <;> simp
    have a := h1 (c.ctx p k).latched
    have b := h1 ((newest ((c.ctx p k).bufsWhere (·.complete))).map (·.1))
    have d := h1 ((c.latchChoice p k (c.tickTime c.nextTick)).map (·.1))
    simp only [Chip.busyBufs, hf, List.length_append, Option.map_none, Option.toList_none, List.length_nil]
    omega
  obtain ⟨b, hb, hn⟩ := exists_find_notMem few
  have found : c.freeBuf p k = b := (congrArg (Option.getD · 0) hb).trans rfl
  rwa [found]

theorem Chip.freeBuf_ne_latched {c : Chip} {p k : Nat} (hf : (c.ctx p k).frame = none) :
    some (c.freeBuf p k) ≠ (c.ctx p k).latched := fun he =>
  Chip.freeBuf_notMem hf (by simp [Chip.busyBufs, ← he])

theorem Chip.freeBuf_ne_newest {c : Chip} {p k : Nat} (hf : (c.ctx p k).frame = none) {v : Nat × FBuf}
    (hv : newest ((c.ctx p k).bufsWhere (·.complete)) = some v) : c.freeBuf p k ≠ v.1 := fun he =>
  Chip.freeBuf_notMem hf (by simp [Chip.busyBufs, hv, he])

/-! ### Lost streams and paths (R148, R149, R159) -/

section Lost

variable {c : Chip} {p k : Nat}

/-- A part with its context's time reached, and the paths silent. -/
def Chip.silentAt (c : Chip) (p k last : Nat) : Chip :=
  ((c.elapseAge (last + ms 100)).pathSilent p k 0).pathSilent p k 1

theorem Chip.streamLost_none (h : (c.ctx p k).lastAt = none) : c.streamLost p k = c := by
  simp only [Chip.streamLost, h]

/-- 100 ms after its last packet a stream that ran holds its picture. -/
theorem Chip.streamLost_running {last : Nat} (h : (c.ctx p k).lastAt = some last)
    (h2 : (c.silentAt p k last).ctxState p k = 2) :
    c.streamLost p k =
      (((c.silentAt p k last).setCtxState p k 3).onCtx p k fun x => { x with holdAt := (c.silentAt p k last).age }).raise
        (.INGEST_STREAM_LOST p) := by
  simp only [Chip.streamLost, h]
  exact if_pos h2

theorem Chip.streamLost_other {last : Nat} (h : (c.ctx p k).lastAt = some last)
    (h2 : (c.silentAt p k last).ctxState p k ≠ 2) : c.streamLost p k = c.silentAt p k last := by
  simp only [Chip.streamLost, h]
  exact if_neg h2

/-- A live path of two merged ones that is silent is lost. -/
theorem Chip.pathSilent_first (hm : (c.ctxSet false p k).srcSel = 2) (hl : c.flag (.INGEST_CTX_STAT_LIVE0 p k) = true) :
    c.pathSilent p k 0 = ((c.put (.INGEST_CTX_STAT_LIVE0 p k) 0).onCtx p k fun x => { x with hi0 := none }).raise
      (.INGEST_PATH_LOST p) := by
  simp only [Chip.pathSilent, if_true, hl, hm, beq_self_eq_true, Chip.when_true]

theorem Chip.pathSilent_second (hm : (c.ctxSet false p k).srcSel = 2) (hl : c.flag (.INGEST_CTX_STAT_LIVE1 p k) = true) :
    c.pathSilent p k 1 = ((c.put (.INGEST_CTX_STAT_LIVE1 p k) 0).onCtx p k fun x => { x with hi1 := none }).raise
      (.INGEST_PATH_LOST p) := by
  simp only [Chip.pathSilent, Nat.one_ne_zero, if_false, hl, hm, beq_self_eq_true, if_true, Chip.when_true]

/-- 100 ms after the last packet of a path of two merged ones it is silent. -/
theorem Chip.pathLost_merged {n last : Nat} (hm : (c.ctxSet false p k).srcSel = 2)
    (h : (if n = 0 then (c.ctx p k).at0 else (c.ctx p k).at1) = some last) :
    c.pathLost p k n = (c.elapseAge (last + ms 100)).pathSilent p k n := by
  simp only [Chip.pathLost, h, hm, if_true]

end Lost

/-! ### The fill colour (R159) -/

section Fill

variable {c : Chip} {p k : Nat}

/-- A context that does not hold, or holds without end, waits for no time. -/
theorem Chip.holdElapse_idle (h : c.ctxState p k ≠ 3 ∨ c.get (.INGEST_CTX_HOLD_MS p k) = 0) : c.holdElapse p k = c :=
  if_neg fun ⟨h3, h0⟩ => h.elim (· h3) h0

theorem Chip.fillOn_idle (h : c.ctxState p k ≠ 3 ∨ c.get (.INGEST_CTX_HOLD_MS p k) = 0) : c.fillOn p k = c :=
  if_neg fun ⟨h3, h0⟩ => h.elim (· h3) h0

/-- A context whose hold is over latches a free buffer, written in the Granary, and shows FILL. -/
theorem Chip.fillOn_holding (h3 : c.ctxState p k = 3) (h0 : c.get (.INGEST_CTX_HOLD_MS p k) ≠ 0) :
    ∃ (d : Chip) (f : Ctx → Ctx) (rtp : Nat), sameButStored c d ∧ c.fillOn p k =
      (((d.onCtx p k f).latchBuf p k (c.freeBuf p k) rtp).setCtxState p k 4).raise (.INGEST_FILL_ON p) := by
  refine ⟨_, _, _, ?_, if_pos ⟨h3, h0⟩⟩
  exact Chip.each_induct (sameButStored c) _ _ (fun d _ h => h.trans (d.gWrite_sameButStored _ _)) c (.refl c)

/-- Of the part outside the ingest pipes the fill changes what a write of the Granary changes. -/
theorem Chip.fillOn_frame (h3 : c.ctxState p k = 3) (h0 : c.get (.INGEST_CTX_HOLD_MS p k) ≠ 0) :
    ∃ regs tile gran out ing, c.fillOn p k = { c with regs := regs, tile := tile, gran := gran, out := out, ing := ing } := by
  obtain ⟨_, f, rtp, ⟨⟨_, _, _, _, rfl⟩, -⟩, e⟩ := Chip.fillOn_holding h3 h0
  obtain ⟨_, _, raised⟩ := Chip.raise_eq _ (Ev.INGEST_FILL_ON p)
  exact ⟨_, _, _, _, _, e.trans raised⟩

/-- The fill is shown as FILL with its buffer latched, and raised. -/
theorem Chip.fillOn_shows (hp : p < 4) (hk : k < 4) (h3 : c.ctxState p k = 3) (h0 : c.get (.INGEST_CTX_HOLD_MS p k) ≠ 0) :
    (c.fillOn p k).ctxState p k = 4 ∧ bitAt ((c.fillOn p k).nat (Reg.PG_EVENT (0x42 + p))) 7 = true ∧
      (c.fillOn p k).get (.INGEST_CTX_STAT_LATCHED p k) = c.freeBuf p k := by
  obtain ⟨d, f, rtp, -, e⟩ := Chip.fillOn_holding h3 h0
  rw [e]
  refine ⟨?_, Chip.raise_sets _ (by decide : 7 < 32), ?_⟩
  · exact (Chip.get_raise_ctxStat _ _ hp hk).trans (Chip.ctxState_setCtxState _ p k (by decide))
  · rw [Chip.get_raise_ctxStat _ _ hp hk, Chip.setCtxState, Chip.get_put_other _ _ _ _ (.inr (.inl (show 5 < 29 by decide))),
      Chip.latchBuf, Chip.setNat,
      Chip.get_wr_ne _ _ _ (by simp only [Reg.INGEST_CTX_STAT, Reg.INGEST_CTX_TS]; omega),
      Chip.get_put_same _ _ _ (show 5 < 32 by decide)]
    exact Nat.mod_eq_of_lt (c.freeBuf_lt p k)

end Fill

/-! ### The coefficient RAM (R154, R155) -/

section Cram

variable {c : Chip} {rq : Requester} {p : Nat} (hp : p < 4)

include hp

theorem classOf_ingest : classOf (0x42 + p) = some (.ingest, p) :=
  (by decide : ∀ p < 4, classOf (0x42 + p) = some (.ingest, p)) p hp

theorem rowOf_cramData : rowOf (Reg.INGEST_CRAM_DATA p) = some ⟨0x048, 1, 0x0, .rw, 0x00000000, 0xffffffff, .plain⟩ :=
  (by decide : ∀ p < 4,
    rowOf (Reg.INGEST_CRAM_DATA p) = some ⟨0x048, 1, 0x0, .rw, 0x00000000, 0xffffffff, .plain⟩) p hp

/-- The window's data register lies in its pipe's page, above the header, and is there in both roles. -/
theorem Chip.cramData_place (c : Chip) : Reg.INGEST_CRAM_DATA p / 0x1000 = 0x42 + p ∧
    0x40 ≤ Reg.INGEST_CRAM_DATA p % 0x1000 ∧ c.roleZero (Reg.INGEST_CRAM_DATA p) = false := by
  have page : Reg.INGEST_CRAM_DATA p / 0x1000 = 0x42 + p := by simp only [Reg.INGEST_CRAM_DATA]; omega
  exact ⟨page, by simp only [Reg.INGEST_CRAM_DATA]; omega, c.roleZero_other _ (by simp [page]; omega)⟩

/-- A write of INGEST_CRAM_DATA that reaches its page goes to the coefficient RAM. -/
theorem Chip.regWrite_cramData (ht : takes c rq (Reg.INGEST_CRAM_DATA p) = true) (v : Word) (x : Verdict) :
    c.regWrite rq (Reg.INGEST_CRAM_DATA p) v x = c.cramWrite p v.toNat := by
  obtain ⟨page, above, present⟩ := c.cramData_place hp
  have pipe : pageIdx (Reg.INGEST_CRAM_DATA p) 0x42 = p := by simp only [pageIdx, page]; omega
  have whole : v &&& 0xffffffff = v := BitVec.and_allOnes
  rw [c.regWrite_rw rq _ v x _ ht (rowOf_cramData hp) (Nat.not_lt.2 above) present rfl (page ▸ classOf_ingest hp)]
  simp only [Chip.blockHook, Chip.ingestHook, pipe, if_true, whole]

/-- A read of INGEST_CRAM_DATA that reaches its register answers the word at the window's address and moves it on. -/
theorem Chip.readOut_cramData (hr : reads c rq (Reg.INGEST_CRAM_DATA p) = true) :
    c.readOut rq (Reg.INGEST_CRAM_DATA p) = windowGives (Reg.INGEST_CRAM_DATA p) (.INGEST_CRAM_ADDR_AUTO_INC p)
      (.INGEST_CRAM_ADDR_ADDR p) (c.cramWord (c.get (.INGEST_CRAM_ADDR_ADDR p) / 4 * 4)) c := by
  obtain ⟨page, above, present⟩ := c.cramData_place hp
  have latchless : latches (Reg.INGEST_CRAM_DATA p) = [] :=
    (by decide : ∀ p < 4, latches (Reg.INGEST_CRAM_DATA p) = []) p hp
  have inside : within (0x42 + p) 0x42 0x45 = true := within_iff.2 ⟨by omega, by omega⟩
  have pipe : 0x42 + p - 0x42 = p := by omega
  have plain : Reg.INGEST_CRAM_DATA p ≠ Reg.SCAN_FILL_MIN ∧ Reg.INGEST_CRAM_DATA p ≠ Reg.WEATHER_PEAK ∧
      Reg.INGEST_CRAM_DATA p ≠ Reg.WELL_MGMT_STAT ∧ Reg.INGEST_CRAM_DATA p ≠ Reg.GRAN_MGR_STAT := by
    simp only [Reg.INGEST_CRAM_DATA, Reg.SCAN_FILL_MIN, Reg.WEATHER_PEAK, Reg.WELL_MGMT_STAT, Reg.GRAN_MGR_STAT]
    omega
  have live : c.liveWord (Reg.INGEST_CRAM_DATA p) = some (c.cramWord (c.get (.INGEST_CRAM_ADDR_ADDR p) / 4 * 4)) := by
    obtain ⟨-, -, -, manager⟩ := plain
    have outside {lo hi : Nat} (h : hi < 0x42 ∨ 0x45 < lo) : within (0x42 + p) lo hi = false := within_false (by omega)
    have later {m : Nat} (h : m < 0x42) : 0x42 + p ≠ m := by omega
    have pixels : within (0x42 + p) 0x42 0xa1 = true := within_iff.2 ⟨by omega, by omega⟩
    have gran : c.granWord (Reg.INGEST_CRAM_DATA p) = none := if_neg (by simp [manager])
    have scalers : (Reg.INGEST_CRAM_DATA p == Reg.INGEST_USE_SCL p) = false :=
      beq_false_of_ne (by simp only [Reg.INGEST_CRAM_DATA, Reg.INGEST_USE_SCL]; omega)
    have luts : (Reg.INGEST_CRAM_DATA p == Reg.INGEST_USE_LUT p) = false :=
      beq_false_of_ne (by simp only [Reg.INGEST_CRAM_DATA, Reg.INGEST_USE_LUT]; omega)
    rw [Chip.liveWord, present, page]
    simp [later, outside, pixels, gran, Chip.pixelWord, page, inside, pipe, scalers, luts]
  refine (c.readOut_live rq _ _ _ hr latchless above (rowOf_cramData hp) (by decide) rfl plain live).trans ?_
  simp only [windowGives, Chip.windowRead, page, inside, pipe, beq_self_eq_true, Bool.and_self, if_true]

omit hp

/-- A write into a slot in use is rejected; the address moves on. -/
theorem Chip.cramWrite_busy {v : Nat} (hb : c.cramBusy (c.get (.INGEST_CRAM_ADDR_ADDR p) / 4 * 4) = true) :
    c.cramWrite p v = (c.reject (Reg.INGEST_CRAM_DATA p)).autoInc (.INGEST_CRAM_ADDR_AUTO_INC p) (.INGEST_CRAM_ADDR_ADDR p) := by
  simp only [Chip.cramWrite, hb, if_true]

/-- A word of a scaler set that is not in use is stored; the address moves on. -/
theorem Chip.cramWrite_scaler {v : Word} (hb : c.cramBusy (c.get (.INGEST_CRAM_ADDR_ADDR p) / 4 * 4) = false)
    (ha : c.get (.INGEST_CRAM_ADDR_ADDR p) / 4 * 4 < 0x8000) :
    c.cramWrite p v.toNat =
      (c.onIng fun g => { g with cram := memPut g.cram (c.get (.INGEST_CRAM_ADDR_ADDR p) / 4 * 4) (leBytes 4 v.toNat) }).autoInc
        (.INGEST_CRAM_ADDR_AUTO_INC p) (.INGEST_CRAM_ADDR_ADDR p) := by
  have mask : cramMask (c.get (.INGEST_CRAM_ADDR_ADDR p) / 4 * 4) = 0xffffffff := if_pos ha
  have whole : v.toNat % (0xffffffff + 1) = v.toNat := Nat.mod_eq_of_lt v.isLt
  simp only [Chip.cramWrite, hb, mask, whole, Bool.false_eq_true, if_false]
  rfl

end Cram

end Sys2Proof.Machine
end

section
/-!
PROOF. O47: packets reach their contexts, and streams, paths and holds end.
-/

open Sys2Proof Sys2Proof.Machine Sys2Proof.Safety

namespace Sys2Proof.Proofs

/-- Settles O47: a frame passes the checks of every frame before its packet reaches contexts; each other command is one case of what
its context or window does at the part; the pure clauses are about a late packet, the end of a frame and the free buffer. -/
theorem streamsAreReceivedAndLost : Obligations.StreamsAreReceivedAndLost := by
  unfold Obligations.StreamsAreReceivedAndLost
  intro s n dt hn
  refine ⟨?_, fun c f => ⟨Chip.ethFec_off, Chip.ethFec_on⟩, fun p k hp hk => ?_⟩
  · intro f net dst src udp pt form q hup fec takers fit
    have received {net : NetKind} {g : Chip → Chip} (h : ((s.chip.elapse dt).ethIn n f fun c =>
        if net = .udp then c.videoIn n dst src udp pt form q else c.count (Reg.ETH_RX_OTHER n)) = g s.chip) :
        exec (.videoPacket n f net dst src udp pt form q dt) s = .next (s.effect g) :=
      (exec_videoPacket ..).trans (State.run_next (decide_eq_true hn) h)
    refine ⟨fun hf => received (Chip.ethIn_badFcs _ hup hf), fun hf hout => received ?_,
      fun hf hfit ht => received ((Chip.ethIn_takes _ hup hf hfit).trans (Chip.videoIn_delivers ht))⟩
    cases hfit : (fec s.chip).ethFits n f with
    | false => exact Chip.ethIn_outside _ hup hf hfit
    | true =>
      refine (Chip.ethIn_takes _ hup hf hfit).trans ?_
      by_cases hu : net = .udp
      · have unmatched := (hout.resolve_left (by simp [hfit])).resolve_left (not_not.2 hu)
        exact (if_pos hu).trans (Chip.videoIn_unmatched unmatched)
      · exact if_neg hu
  · have context : decide (p < 4 ∧ k < 4) = true := decide_eq_true ⟨hp, hk⟩
    have lost {g : Chip → Chip} (h : s.chip.streamLost p k = g s.chip) : exec (.streamLost p k) s = .next (s.effect g) :=
      (exec_streamLost ..).trans (State.run_next context h)
    refine ⟨fun last hl => ⟨fun h2 => lost (Chip.streamLost_running hl h2), fun h2 => lost (Chip.streamLost_other hl h2)⟩,
      fun hl => lost (Chip.streamLost_none hl), ?_, ?_, fun h => ?_, fun rq v ht _ => ?_, fun rq hr => ?_, fun c =>
      ⟨fun q hl hm => ⟨Chip.pktLate_packetIn_late hl hm, Chip.pktRx_packetIn_late hl hm,
          Chip.ctx_packetIn_late hl hm Ctx.frame fun _ _ _ _ => rfl, Chip.ctx_packetIn_late hl hm Ctx.held fun _ _ _ _ => rfl⟩,
        fun f hf => ⟨Chip.frame_endFrame hf, Chip.buf_endFrame_bad hf, Chip.ctxState_endFrame hp hk hf⟩,
        c.freeBuf_lt p k, fun hf => ⟨Chip.freeBuf_ne_latched hf, fun v hv => Chip.freeBuf_ne_newest hf hv⟩⟩⟩
    · intro last hm e hm'
      have path {i : Nat} (hi : i < 2) {g : Chip → Chip} (h : s.chip.pathLost p k i = g s.chip) :
          exec (.pathLost p k i) s = .next (s.effect g) :=
        (exec_pathLost ..).trans (State.run_next (decide_eq_true ⟨hp, hk, hi⟩) h)
      exact ⟨fun h0 hl => path (by decide) ((Chip.pathLost_merged (n := 0) hm h0).trans (Chip.pathSilent_first hm' hl)),
        fun h1 hl => path (by decide) ((Chip.pathLost_merged (n := 1) hm h1).trans (Chip.pathSilent_second hm' hl))⟩
    · intro e h3 h0 hc
      have run : exec (.fillTimeout p k) s = .next (s.effect fun c => (c.holdElapse p k).fillOn p k) :=
        (exec_fillTimeout ..).trans (State.run_next context rfl)
      obtain ⟨_, _, _, _, _, frame⟩ := Chip.fillOn_frame h3 h0
      obtain ⟨hstate, hevent, hlatched⟩ := Chip.fillOn_shows hp hk h3 h0
      obtain ⟨t, ht, hq, settled⟩ := exec_answers run ((congrArg (·.fab.commits) frame).trans hc)
      have keeps {α : Type} (g : Chip → α) (hg : ∀ c, g c.settle = g c) (hf : g (e.fillOn p k) = g e) : g t.chip = g e :=
        ((congrArg g settled).trans (hg _)).trans hf
      refine ⟨t, ht, hq, keeps _ Chip.settle_ports (by rw [frame]), keeps _ Chip.settle_well (by rw [frame]),
        keeps _ Chip.settle_loom (by rw [frame]), keeps _ Chip.settle_scan (by rw [frame]),
        keeps _ Chip.settle_age (by rw [frame]), ?_, ?_, ?_⟩
      · rw [settled, Chip.ctxState, Chip.settle_get]
        exact hstate
      · rw [settled, Chip.nat, Chip.settle_rd]
        exact hevent
      · rw [settled, Chip.settle_get]
        exact hlatched
    · refine (exec_fillTimeout ..).trans (State.run_next context ?_)
      rw [Chip.holdElapse_idle h, Chip.fillOn_idle h]
    · intro a
      have written {g : Chip → Chip} (h : s.chip.cramWrite p v.toNat = g s.chip) :
          exec (.cramDataWrite rq p v) s = .next (s.effect g) :=
        (exec_cramDataWrite ..).trans (State.run_next (decide_eq_true hp) ((Chip.regWrite_cramData hp ht v _).trans h))
      exact ⟨fun hb => written (Chip.cramWrite_busy hb), fun hb ha => written (Chip.cramWrite_scaler hb ha)⟩
    · exact (exec_cramDataRead ..).trans (State.run_next (decide_eq_true hp) (Chip.readOut_cramData hp hr))

end Sys2Proof.Proofs
end

section
/-!
SUPPORT. Loom's fetch groups, fences and flip groups (R177, R181, R183, R184), and the windows of the LUT RAM, the map and the
correction memory (R175, R176, R191, R194, R195, R217, R219).
-/

namespace Sys2Proof.Machine

open Safety

/-! ### The commands as effects -/

theorem exec_grpPwrWrite (rq : Requester) (v : Word) (s : State) :
    exec (.grpPwrWrite rq v) s = s.run (.grpPwrWrite rq v) fun c => c.regWrite rq Reg.LOOM_GRP_PWR v noVerdict := rfl

theorem exec_grpReady (g : Nat) (s : State) :
    exec (.grpReady g) s = s.run (.grpReady g) fun c => c.grpReadyNow g := rfl

theorem exec_lutDataWrite (rq : Requester) (v : Word) (s : State) :
    exec (.lutDataWrite rq v) s = s.run (.lutDataWrite rq v) fun c => c.regWrite rq Reg.LOOM_LUT_DATA v noVerdict := rfl

theorem exec_lutDataRead (rq : Requester) (s : State) :
    exec (.lutDataRead rq) s = s.run (.lutDataRead rq) fun c => c.readOut rq Reg.LOOM_LUT_DATA := rfl

theorem exec_fenceInc (rq : Requester) (v : Word) (s : State) :
    exec (.fenceInc rq v) s = s.run (.fenceInc rq v) fun c => c.regWrite rq Reg.LOOM_FENCE_INC v noVerdict := rfl

theorem exec_fenceTimeout (s : State) :
    exec .fenceTimeout s = s.run .fenceTimeout fun c => c.applyDue (!c.fencesOver.isEmpty) := rfl

theorem exec_fenceCancel (rq : Requester) (i : Nat) (s : State) :
    exec (.fenceCancel rq i) s = s.run (.fenceCancel rq i) fun c =>
      c.regWrite rq (Reg.LOOM_LYR_FENCE_CANCEL i) 1 noVerdict := rfl

theorem exec_flipGroupWrite (rq : Requester) (v : Word) (s : State) :
    exec (.flipGroupWrite rq v) s = s.run (.flipGroupWrite rq v) fun c =>
      c.regWrite rq Reg.LOOM_FLIP_GROUP v noVerdict := rfl

theorem exec_mapDataWrite (rq : Requester) (v : Word) (s : State) :
    exec (.mapDataWrite rq v) s = s.run (.mapDataWrite rq v) fun c => c.regWrite rq Reg.SCAN_MAP_DATA v noVerdict := rfl

theorem exec_mapDataRead (rq : Requester) (s : State) :
    exec (.mapDataRead rq) s = s.run (.mapDataRead rq) fun c => c.readOut rq Reg.SCAN_MAP_DATA := rfl

theorem exec_fillMinRead (rq : Requester) (s : State) :
    exec (.fillMinRead rq) s = s.run (.fillMinRead rq) fun c => c.readOut rq Reg.SCAN_FILL_MIN := rfl

theorem exec_corrMemDataWrite (rq : Requester) (v : Word) (s : State) :
    exec (.corrMemDataWrite rq v) s = s.run (.corrMemDataWrite rq v) fun c =>
      c.regWrite rq Reg.CORR_MEM_DATA v noVerdict := rfl

theorem exec_corrMemDataRead (rq : Requester) (s : State) :
    exec (.corrMemDataRead rq) s = s.run (.corrMemDataRead rq) fun c => c.readOut rq Reg.CORR_MEM_DATA := rfl

/-! ### Fetch groups (R177) -/

/-- A number put together of four bits is below 16 and has each of them. -/
theorem bitAt_fourBits (f : Nat → Bool) {g : Nat} (hg : g < 4) :
    (List.range 4).foldl (fun a g => setBitAt a g (f g)) 0 < 16 ∧
      bitAt ((List.range 4).foldl (fun a g => setBitAt a g (f g)) 0) g = f g := by
  have bits : ∀ b0 b1 b2 b3 : Bool,
      let n := setBitAt (setBitAt (setBitAt (setBitAt 0 0 b0) 1 b1) 2 b2) 3 b3
      n < 16 ∧ bitAt n 0 = b0 ∧ bitAt n 1 = b1 ∧ bitAt n 2 = b2 ∧ bitAt n 3 = b3 := by decide
  obtain ⟨below, h0, h1, h2, h3⟩ := bits (f 0) (f 1) (f 2) (f 3)
  refine ⟨below, ?_⟩
  match g, hg with
  | 0, _ => exact h0
  | 1, _ => exact h1
  | 2, _ => exact h2
  | 3, _ => exact h3

section Groups

variable {c : Chip} {g v : Nat}

/-- A powered group that is not ready becomes so. -/
theorem Chip.grpReadyNow_powered (hp : bitAt (c.get .LOOM_GRP_PWR_ON) g = true) (hr : c.grpReady g = false) :
    c.grpReadyNow g =
      (c.put .LOOM_STAT_GRP_RDY (setBitAt (c.get .LOOM_STAT_GRP_RDY) g true)).raise .LOOM_GRP_READY :=
  if_pos (by simp [hp, hr])

/-- A group without power does not become ready. -/
theorem Chip.grpReadyNow_off (hp : bitAt (c.get .LOOM_GRP_PWR_ON) g = false) : c.grpReadyNow g = c := if_neg (by simp [hp])

/-- A write of LOOM_GRP_PWR would power off a group with an applied enabled layer. -/
def Chip.grpStuck (c : Chip) (v g : Nat) : Bool :=
  bitAt (c.get .LOOM_GRP_PWR_ON) g && !bitAt v g && (List.range 4).any fun k => (c.layerSet false (4 * g + k)).en

/-- LOOM_GRP_PWR after a write: the bits written, and those of the groups that are not powered off. -/
def Chip.grpOn (c : Chip) (v : Nat) : Nat := (List.range 4).foldl (fun a g => setBitAt a g (bitAt v g || c.grpStuck v g)) 0

theorem Chip.grpPower_eq (c : Chip) (v : Nat) : ∃ rdy, c.grpPower v =
    ((c.when ((List.range 4).any (c.grpStuck v)) fun c => c.reject Reg.LOOM_GRP_PWR).put .LOOM_GRP_PWR_ON (c.grpOn v)).put
      .LOOM_STAT_GRP_RDY rdy := ⟨_, rfl⟩

theorem Chip.grpStuck_of_layer {i : Nat} (hi : i / 4 = g) (hen : (c.layerSet false i).en = true)
    (hp : bitAt (c.get .LOOM_GRP_PWR_ON) g = true) (hv : bitAt v g = false) : c.grpStuck v g = true := by
  have busy : ((List.range 4).any fun k => (c.layerSet false (4 * g + k)).en) = true :=
    List.any_eq_true.2 ⟨i % 4, List.mem_range.2 (Nat.mod_lt _ (by decide)), by rwa [← hi, Nat.div_add_mod]⟩
  simp [Chip.grpStuck, hp, hv, busy]

/-- The attempt to power off a group with an applied enabled layer sets WR_REJ, and the group keeps its power. -/
theorem Chip.grpPower_stuck (hg : g < 4) (hs : c.grpStuck v g = true) :
    (c.grpPower v).flag (.PG_STATUS_WR_REJ 0x50) = true ∧ bitAt ((c.grpPower v).get .LOOM_GRP_PWR_ON) g = true := by
  have rejects : (List.range 4).any (c.grpStuck v) = true := List.any_eq_true.2 ⟨g, List.mem_range.2 hg, hs⟩
  obtain ⟨rdy, e⟩ := c.grpPower_eq v
  obtain ⟨below, on⟩ := bitAt_fourBits (fun g => bitAt v g || c.grpStuck v g) hg
  rw [e, rejects, Chip.when_true]
  constructor
  · rw [Chip.flag_put_ne _ _ _ _ (by decide), Chip.flag_put_ne _ _ _ _ (by decide)]
    exact c.flag_reject Reg.LOOM_GRP_PWR
  · rw [Chip.get_put_other _ _ _ _ (.inl (by decide)), Chip.get_put_same _ _ _ (by decide),
      Nat.mod_eq_of_lt (show c.grpOn v < 2 ^ (3 + 1 - 0) from below)]
    exact on.trans (by rw [hs, Bool.or_true])

end Groups

/-! ### Writes that reach Loom, SCAN and CORR -/

/-- A field that a mask leaves in whole is the word's own. -/
theorem bitsOf_and_whole (v m : Word) (hi lo : Nat) (h : bitsOf m hi lo = 2 ^ (hi + 1 - lo) - 1) :
    bitsOf (v &&& m) hi lo = bitsOf v hi lo := by
  rw [bitsOf_and, h, Nat.and_two_pow_sub_one_eq_mod, Nat.mod_eq_of_lt (bitsOf_lt v hi lo)]

section Writes

variable {c : Chip} {rq : Requester} {x : Verdict} (v : Word)

theorem Chip.regWrite_grpPwr (ht : takes c rq Reg.LOOM_GRP_PWR = true) :
    c.regWrite rq Reg.LOOM_GRP_PWR v x = (c.grpPower (bitsOf v 3 0)).domSync := by
  have row : rowOf Reg.LOOM_GRP_PWR = some ⟨0x058, 1, 0x0, .rw, 0x00000000, 0x0000000f, .plain⟩ := by decide
  have page : classOf (Reg.LOOM_GRP_PWR / 0x1000) = some (.loom, 0) := by decide
  rw [c.regWrite_rw rq _ v x _ ht row (by decide) (c.roleZero_other _ (by decide)) rfl page,
    ← bitsOf_and_whole v 0x0000000f 3 0 (by decide)]
  rfl

theorem Chip.regWrite_flipGroup (ht : takes c rq Reg.LOOM_FLIP_GROUP = true) :
    c.regWrite rq Reg.LOOM_FLIP_GROUP v x = c.flipGroup (bitsOf v 15 0) := by
  have row : rowOf Reg.LOOM_FLIP_GROUP = some ⟨0x064, 1, 0x0, .rw, 0x00000000, 0x0000ffff, .plain⟩ := by decide
  have page : classOf (Reg.LOOM_FLIP_GROUP / 0x1000) = some (.loom, 0) := by decide
  rw [c.regWrite_rw rq _ v x _ ht row (by decide) (c.roleZero_other _ (by decide)) rfl page,
    ← bitsOf_and_whole v 0x0000ffff 15 0 (by decide)]
  rfl

theorem Chip.regWrite_fenceInc (ht : takes c rq Reg.LOOM_FENCE_INC = true) :
    c.regWrite rq Reg.LOOM_FENCE_INC v x =
      c.fenceSet (bitsOf v 3 0) ((c.nat (Reg.LOOM_FENCE (bitsOf v 3 0)) + 1) % 2 ^ 32) := by
  have row : rowOf Reg.LOOM_FENCE_INC = some ⟨0x074, 1, 0x0, .wo, 0x00000000, 0x0000000f, .plain⟩ := by decide
  have page : classOf (Reg.LOOM_FENCE_INC / 0x1000) = some (.loom, 0) := by decide
  exact c.regWrite_wo rq _ v x _ ht row (by decide) (c.roleZero_other _ (by decide)) rfl page

/-- A word written to the data register of a window goes whole to the page's block. -/
theorem Chip.regWrite_window {a i : Nat} {r : RegRow} {k : PClass} (ht : takes c rq a = true) (row : rowOf a = some r)
    (hacc : r.acc = .rw) (whole : r.wmask = 0xffffffff) (above : ¬ a % 0x1000 < 0x40) (present : c.roleZero a = false)
    (page : classOf (a / 0x1000) = some (k, i)) : ∃ st, c.regWrite rq a v x = Chip.blockHook k c st rq a v x := by
  have kept : v &&& r.wmask = v := whole ▸ BitVec.and_allOnes
  exact ⟨_, (c.regWrite_rw rq _ v x r ht row above present hacc page).trans (by rw [kept])⟩

theorem Chip.regWrite_lutData (ht : takes c rq Reg.LOOM_LUT_DATA = true) :
    c.regWrite rq Reg.LOOM_LUT_DATA v x = c.lutWrite v.toNat := by
  have row : rowOf Reg.LOOM_LUT_DATA = some ⟨0x06c, 1, 0x0, .rw, 0x00000000, 0xffffffff, .plain⟩ := by decide
  have page : classOf (Reg.LOOM_LUT_DATA / 0x1000) = some (.loom, 0) := by decide
  obtain ⟨_, e⟩ := Chip.regWrite_window (x := x) v ht row rfl rfl (by decide) (c.roleZero_other _ (by decide)) page
  exact e

theorem Chip.regWrite_mapData (ht : takes c rq Reg.SCAN_MAP_DATA = true) :
    c.regWrite rq Reg.SCAN_MAP_DATA v x = c.mapWrite v := by
  have row : rowOf Reg.SCAN_MAP_DATA = some ⟨0x058, 1, 0x0, .rw, 0x00000000, 0xffffffff, .plain⟩ := by decide
  have page : classOf (Reg.SCAN_MAP_DATA / 0x1000) = some (.scan, 0) := by decide
  obtain ⟨_, e⟩ := Chip.regWrite_window (x := x) v ht row rfl rfl (by decide) (c.roleZero_other _ (by decide)) page
  exact e

theorem Chip.regWrite_corrMemData (ht : takes c rq Reg.CORR_MEM_DATA = true) :
    c.regWrite rq Reg.CORR_MEM_DATA v x = c.corrMemWrite v.toNat := by
  have row : rowOf Reg.CORR_MEM_DATA = some ⟨0x064, 1, 0x0, .rw, 0x00000000, 0xffffffff, .plain⟩ := by decide
  have page : classOf (Reg.CORR_MEM_DATA / 0x1000) = some (.corr, 0) := by decide
  obtain ⟨_, e⟩ := Chip.regWrite_window (x := x) v ht row rfl rfl (by decide) (c.roleZero_other _ (by decide)) page
  exact e

/-- CANCEL written 1 withdraws a layer's commit if it is held (R183). -/
theorem Chip.regWrite_fenceCancel {i : Nat} (hi : i < 16) (ht : takes c rq (Reg.LOOM_LYR_FENCE_CANCEL i) = true) :
    c.regWrite rq (Reg.LOOM_LYR_FENCE_CANCEL i) 1 x =
      if (assoc c.loom.held i).isSome = true then c.dropCommit i else c := by
  have place : ∀ i < 16,
      rowOf (Reg.LOOM_LYR_FENCE_CANCEL i) = some ⟨0x068, 1, 0x0, .wo, 0x00000000, 0x00000001, .plain⟩ ∧
        classOf (Reg.LOOM_LYR_FENCE_CANCEL i / 0x1000) = some (.layer, i) ∧
        ¬ Reg.LOOM_LYR_FENCE_CANCEL i % 0x1000 < 0x40 := by decide
  obtain ⟨row, layer, above⟩ := place i hi
  have page : Reg.LOOM_LYR_FENCE_CANCEL i / 0x1000 = 0x51 + i := by simp only [Reg.LOOM_LYR_FENCE_CANCEL]; omega
  have present : c.roleZero (Reg.LOOM_LYR_FENCE_CANCEL i) = false := c.roleZero_other _ (by simp [page]; omega)
  have named : pageIdx (Reg.LOOM_LYR_FENCE_CANCEL i) 0x51 = i := by simp only [pageIdx, page]; omega
  have one : bitsOf 1 0 0 = 1 := by decide
  rw [c.regWrite_wo rq _ 1 x _ ht row above present rfl layer]
  simp only [Chip.blockHook, Chip.layerHook, named, one, true_and, if_true]

end Writes

/-! ### Fences and flip groups (R181, R183, R184) -/

/-- What is over its time is dealt with as the tick closes, unless the tick is closed. -/
theorem Chip.applyDue_eq (c : Chip) (due : Bool) :
    c.applyDue due = if (!due || !c.bell.open_) = true then c else c.tickClose := by
  cases due
  · rfl
  · cases h : c.bell.open_ <;> simp [Chip.applyDue, Chip.tickClose, h]

section FlipGroup

variable {c : Chip}

/-- A member of the flip group has a commit pending. -/
def Chip.flipBusy (c : Chip) : Prop :=
  ∃ i, i < 16 ∧ c.flipMember i = true ∧ c.flag (.PG_COMMIT_PENDING (layerPage i)) = true

theorem Chip.flipBusy_iff :
    ((List.range 16).any fun i => c.flipMember i && c.flag (.PG_COMMIT_PENDING (layerPage i))) = true ↔ c.flipBusy := by
  simp only [List.any_eq_true, List.mem_range, Bool.and_eq_true, Chip.flipBusy]

theorem Chip.flipGroup_busy (h : c.flipBusy) (v : Nat) : c.flipGroup v = c.reject Reg.LOOM_FLIP_GROUP :=
  if_pos (Chip.flipBusy_iff.2 h)

theorem Chip.flipGroup_free (h : ¬ c.flipBusy) (v : Nat) : c.flipGroup v = c.put .LOOM_FLIP_GROUP_MEMBERS v :=
  if_neg (mt Chip.flipBusy_iff.1 h)

end FlipGroup

/-! ### Words written through a window -/

section Lut

variable {c : Chip} {v : Nat}

/-- From 0x6_0000 upward a word is ignored; the address moves on. -/
theorem Chip.lutWrite_beyond (ha : 0x60000 ≤ c.get .LOOM_LUT_ADDR_ADDR / 4 * 4) :
    c.lutWrite v = c.autoInc .LOOM_LUT_ADDR_AUTO_INC .LOOM_LUT_ADDR_ADDR := by
  simp only [Chip.lutWrite, if_pos ha]

/-- A word of a slot in use is rejected; the address moves on (R176). -/
theorem Chip.lutWrite_busy (ha : c.get .LOOM_LUT_ADDR_ADDR / 4 * 4 < 0x60000)
    (hu : bitAt c.lutUse (c.get .LOOM_LUT_ADDR_ADDR / 4 * 4 / 0x6000) = true) :
    c.lutWrite v = (c.reject Reg.LOOM_LUT_DATA).autoInc .LOOM_LUT_ADDR_AUTO_INC .LOOM_LUT_ADDR_ADDR := by
  simp only [Chip.lutWrite, if_neg ha.not_ge, if_pos hu]

/-- A word of a slot that is not in use is stored. -/
theorem Chip.lutWrite_stores (ha : c.get .LOOM_LUT_ADDR_ADDR / 4 * 4 < 0x60000)
    (hu : bitAt c.lutUse (c.get .LOOM_LUT_ADDR_ADDR / 4 * 4 / 0x6000) = false) :
    c.lutWrite v = (c.onLoom fun l => { l with
      lut := memPut l.lut (c.get .LOOM_LUT_ADDR_ADDR / 4 * 4) (leBytes 4 v) }).autoInc
        .LOOM_LUT_ADDR_AUTO_INC .LOOM_LUT_ADDR_ADDR := by
  simp only [Chip.lutWrite, if_neg ha.not_ge, hu, Bool.false_eq_true, if_false]

end Lut

section Map

variable {c : Chip} {v : Word}

/-- The map window lies in the bank in force, or in the one that a pending commit selects (R195). -/
def Chip.mapBusy (c : Chip) : Prop :=
  c.get .SCAN_MAP_ADDR_ADDR / 4 * 4 / 0x40000 = c.get .SCAN_MAP_CFG_BANK ∨
    c.flag (.PG_COMMIT_PENDING 0x68) = true ∧ c.get .SCAN_MAP_ADDR_ADDR / 4 * 4 / 0x40000 = c.getS .SCAN_MAP_CFG_BANK

theorem Chip.mapBusy_iff : (c.get .SCAN_MAP_ADDR_ADDR / 4 * 4 / 0x40000 == c.get .SCAN_MAP_CFG_BANK ||
    (c.flag (.PG_COMMIT_PENDING 0x68) && c.get .SCAN_MAP_ADDR_ADDR / 4 * 4 / 0x40000 == c.getS .SCAN_MAP_CFG_BANK)) = true ↔
      c.mapBusy := by
  simp only [Bool.or_eq_true, Bool.and_eq_true, beq_iff_eq, Chip.mapBusy]

/-- A word of a bank in use is rejected; the address moves on (R195). -/
theorem Chip.mapWrite_busy (h : c.mapBusy) :
    c.mapWrite v = (c.reject Reg.SCAN_MAP_DATA).autoInc .SCAN_MAP_ADDR_AUTO_INC .SCAN_MAP_ADDR_ADDR :=
  congrArg (Chip.autoInc · _ _) (if_pos (Chip.mapBusy_iff.2 h))

/-- The bits that exist of a word of another bank are stored (R194). -/
theorem Chip.mapWrite_stores (h : ¬ c.mapBusy) :
    c.mapWrite v = (c.onScan fun x => { x with
      map := memPut x.map (c.get .SCAN_MAP_ADDR_ADDR / 4 * 4)
        (leBytes 4 (v &&& BitVec.ofNat 32 (mapMask (c.get .SCAN_MAP_ADDR_ADDR / 4 * 4))).toNat) }).autoInc
          .SCAN_MAP_ADDR_AUTO_INC .SCAN_MAP_ADDR_ADDR :=
  congrArg (Chip.autoInc · _ _) (if_neg (mt Chip.mapBusy_iff.1 h))

end Map

section Correction

variable {c : Chip} {v : Nat}

/-- A word that is not finite is rejected and counted (R219). -/
theorem Chip.corrMemWrite_nonfinite (hf : finiteHalves (leBytes 4 v) = false) :
    c.corrMemWrite v = (c.reject Reg.CORR_MEM_DATA).loadRej.autoInc .CORR_MEM_ADDR_AUTO_INC .CORR_MEM_ADDR_ADDR := by
  simp only [Chip.corrMemWrite, hf, Bool.not_false, if_true]

/-- A finite word outside every window is rejected. -/
theorem Chip.corrMemWrite_outside (hf : finiteHalves (leBytes 4 v) = true)
    (hw : corrWindow (c.get .CORR_MEM_ADDR_ADDR / 4 * 4) 4 = none) :
    c.corrMemWrite v = (c.reject Reg.CORR_MEM_DATA).autoInc .CORR_MEM_ADDR_AUTO_INC .CORR_MEM_ADDR_ADDR := by
  simp only [Chip.corrMemWrite, hf, hw, Bool.not_true, Bool.false_eq_true, if_false]

/-- A finite word of a Nimbus buffer or of a locked bank is rejected (R219, R220). -/
theorem Chip.corrMemWrite_locked {k : Nat} (hf : finiteHalves (leBytes 4 v) = true)
    (hw : corrWindow (c.get .CORR_MEM_ADDR_ADDR / 4 * 4) 4 = some k) (hl : 4 ≤ k ∨ c.windowLocked k = true) :
    c.corrMemWrite v = (c.reject Reg.CORR_MEM_DATA).autoInc .CORR_MEM_ADDR_AUTO_INC .CORR_MEM_ADDR_ADDR := by
  have locked : (decide (4 ≤ k) || c.windowLocked k) = true := by simpa using hl
  simp only [Chip.corrMemWrite, hf, hw, locked, Bool.not_true, Bool.false_eq_true, if_false, if_true]

/-- A finite word of a bank that is not locked is stored. -/
theorem Chip.corrMemWrite_stores {k : Nat} (hf : finiteHalves (leBytes 4 v) = true)
    (hw : corrWindow (c.get .CORR_MEM_ADDR_ADDR / 4 * 4) 4 = some k) (hk : k < 4) (hl : c.windowLocked k = false) :
    c.corrMemWrite v = (c.onNim fun n => { n with
      mem := memPut n.mem (c.get .CORR_MEM_ADDR_ADDR / 4 * 4) (leBytes 4 v) }).autoInc
        .CORR_MEM_ADDR_AUTO_INC .CORR_MEM_ADDR_ADDR := by
  have open_ : (decide (4 ≤ k) || c.windowLocked k) = false := by simp [hk, hl]
  simp only [Chip.corrMemWrite, hf, hw, open_, Bool.not_true, Bool.false_eq_true, if_false]

end Correction

/-! ### Reads of the windows and of the lowest fills -/

section Reads

variable {c : Chip} {rq : Requester} {a : Nat}

/-- Between the Ethernet pages and the Lamplighter's a computed register outside the Granary is one of pixelWord. -/
theorem Chip.liveWord_pixel (hp : 0x42 ≤ a / 0x1000 ∧ a / 0x1000 ≤ 0xa1) (hz : c.roleZero a = false)
    (hg : a ≠ Reg.GRAN_MGR_STAT) : c.liveWord a = c.pixelWord a := by
  have outside {lo hi : Nat} (h : hi < 0x42 ∨ 0xa1 < lo) : within (a / 0x1000) lo hi = false := within_false (by omega)
  have inside : within (a / 0x1000) 0x42 0xa1 = true := within_iff.2 hp
  have gran : c.granWord a = none := if_neg (by simp [hg])
  have later {m : Nat} (h : m < 0x42) : a / 0x1000 ≠ m := by omega
  rw [Chip.liveWord, hz]
  simp [later, outside, inside, gran]

theorem Chip.readOut_lutData (hr : reads c rq Reg.LOOM_LUT_DATA = true) :
    c.readOut rq Reg.LOOM_LUT_DATA = windowGives Reg.LOOM_LUT_DATA .LOOM_LUT_ADDR_AUTO_INC .LOOM_LUT_ADDR_ADDR
      (c.lutWord (c.get .LOOM_LUT_ADDR_ADDR / 4 * 4)) c := by
  have row : rowOf Reg.LOOM_LUT_DATA = some ⟨0x06c, 1, 0x0, .rw, 0x00000000, 0xffffffff, .plain⟩ := by decide
  have live : c.liveWord Reg.LOOM_LUT_DATA = some (c.lutWord (c.get .LOOM_LUT_ADDR_ADDR / 4 * 4)) :=
    Chip.liveWord_pixel (by decide) (c.roleZero_other _ (by decide)) (by decide)
  exact c.readOut_live rq _ _ _ hr (by decide) (by decide) row (by decide) (by decide) (by decide) live

theorem Chip.readOut_mapData (hr : reads c rq Reg.SCAN_MAP_DATA = true) :
    c.readOut rq Reg.SCAN_MAP_DATA = windowGives Reg.SCAN_MAP_DATA .SCAN_MAP_ADDR_AUTO_INC .SCAN_MAP_ADDR_ADDR
      (memLe c.scan.map (c.get .SCAN_MAP_ADDR_ADDR / 4 * 4) 4) c := by
  have row : rowOf Reg.SCAN_MAP_DATA = some ⟨0x058, 1, 0x0, .rw, 0x00000000, 0xffffffff, .plain⟩ := by decide
  have live : c.liveWord Reg.SCAN_MAP_DATA = some (memLe c.scan.map (c.get .SCAN_MAP_ADDR_ADDR / 4 * 4) 4) :=
    Chip.liveWord_pixel (by decide) (c.roleZero_other _ (by decide)) (by decide)
  exact c.readOut_live rq _ _ _ hr (by decide) (by decide) row (by decide) (by decide) (by decide) live

theorem Chip.readOut_corrMemData (hr : reads c rq Reg.CORR_MEM_DATA = true) :
    c.readOut rq Reg.CORR_MEM_DATA = windowGives Reg.CORR_MEM_DATA .CORR_MEM_ADDR_AUTO_INC .CORR_MEM_ADDR_ADDR
      (memLe c.nim.mem (c.get .CORR_MEM_ADDR_ADDR / 4 * 4) 4) c := by
  have row : rowOf Reg.CORR_MEM_DATA = some ⟨0x064, 1, 0x0, .rw, 0x00000000, 0xffffffff, .plain⟩ := by decide
  have live : c.liveWord Reg.CORR_MEM_DATA = some (memLe c.nim.mem (c.get .CORR_MEM_ADDR_ADDR / 4 * 4) 4) :=
    Chip.liveWord_pixel (by decide) (c.roleZero_other _ (by decide)) (by decide)
  exact c.readOut_live rq _ _ _ hr (by decide) (by decide) row (by decide) (by decide) (by decide) live

/-- A plain register for which nothing is held reads as it stands. -/
theorem Chip.regWord_stored {r : RegRow} (h4 : 0x40 ≤ a % 0x1000) (hr : rowOf a = some r)
    (hacc : r.acc ≠ .wo ∧ r.acc ≠ .rws) (hh : assoc c.fab.held64 a = none) (hl : c.liveWord a = none) : c.regWord a = c.rd a := by
  have above : ¬ a % 0x1000 < 0x40 := Nat.not_lt.2 h4
  simp [Chip.regWord, above, hr, hacc, hh, hl]

/-- A read of SCAN_FILL_MIN answers the lowest fills, and but for the debug port all four start anew (R191). -/
theorem Chip.readOut_fillMin (hr : reads c rq Reg.SCAN_FILL_MIN = true) :
    c.readOut rq Reg.SCAN_FILL_MIN =
      (if rq = .debug then c.unheld Reg.SCAN_FILL_MIN
        else (c.unheld Reg.SCAN_FILL_MIN).onScan fun x => { x with rearm := 15 }).emit
          (.read Reg.SCAN_FILL_MIN (c.rd Reg.SCAN_FILL_MIN)) := by
  simp only [reads, Bool.and_eq_true, beq_iff_eq, Bool.not_eq_true', Option.isNone_iff_eq_none] at hr
  obtain ⟨⟨passes, answers⟩, unheld⟩ := hr
  have row : rowOf Reg.SCAN_FILL_MIN = some ⟨0x070, 1, 0x0, .ro, 0x00000000, 0x00000000, .plain⟩ := by decide
  have live : c.liveWord Reg.SCAN_FILL_MIN = none :=
    Chip.liveWord_pixel (by decide) (c.roleZero_other _ (by decide)) (by decide)
  have moves : c.readMoves Reg.SCAN_FILL_MIN = c.unheld Reg.SCAN_FILL_MIN := if_neg (by simp)
  have rearms (d : Chip) : d.countRead Reg.SCAN_FILL_MIN = d.onScan fun x => { x with rearm := 15 } := rfl
  rw [c.readOut_reached rq passes (.inl answers), Chip.readEffect_eq, moves, rearms,
    Chip.regWord_stored (by decide) row (by decide) unheld live]

end Reads

end Sys2Proof.Machine
end

section
/-!
SUPPORT. A line of scanout (R190 to R193, R197 to R203): what it does, in its order, and what it leaves as it was.
-/

namespace Sys2Proof.Machine

theorem exec_scanLine (under : Option Nat) (fills : List (Nat × Nat)) (s : State) :
    exec (.scanLine under fills) s = s.run (.scanLine under fills) fun c => c.scanLine under fills := rfl

/-! ### What a line's work leaves -/

/-- Two parts that differ in registers, in the tile's queue, in the chain ports and in scanout's own part alone. -/
def sameButScanned (c d : Chip) : Prop :=
  ∃ regs tile ports scan, d = { c with regs := regs, tile := tile, ports := ports, scan := scan }

theorem sameButScanned.refl (c : Chip) : sameButScanned c c := ⟨c.regs, c.tile, c.ports, c.scan, rfl⟩

theorem sameButScanned.trans {c d e : Chip} (h : sameButScanned c d) (k : sameButScanned d e) : sameButScanned c e := by
  obtain ⟨_, _, _, _, rfl⟩ := h
  obtain ⟨r, t, p, s, rfl⟩ := k
  exact ⟨r, t, p, s, rfl⟩

/-- Two such parts whose raster stands at the same line, with the same count of underruns. -/
def sameRaster (c d : Chip) : Prop :=
  sameButScanned c d ∧ d.scan.line = c.scan.line ∧ d.scan.run = c.scan.run ∧
    d.rd Reg.SCAN_UNDERRUN_CNT = c.rd Reg.SCAN_UNDERRUN_CNT

theorem sameRaster.refl (c : Chip) : sameRaster c c := ⟨.refl c, rfl, rfl, rfl⟩

theorem sameRaster.trans {c d e : Chip} (h : sameRaster c d) (k : sameRaster d e) : sameRaster c e := by
  obtain ⟨hs, hl, hr, hu⟩ := h
  obtain ⟨ks, kl, kr, ku⟩ := k
  exact ⟨hs.trans ks, kl.trans hl, kr.trans hr, ku.trans hu⟩

theorem sameRaster_ite {c d e : Chip} {q : Prop} [Decidable q] (h : sameRaster c d) (k : sameRaster c e) :
    sameRaster c (if q then d else e) := by
  split
  · exact h
  · exact k

theorem sameRaster_each {α : Type} (f : Chip → α → Chip) (hf : ∀ c x, sameRaster c (f c x)) (l : List α) (c : Chip) :
    sameRaster c (c.each l f) :=
  Chip.each_induct (sameRaster c) f l (fun d x h => h.trans (hf d x)) c (.refl c)

section Updates

variable (c : Chip)

theorem sameRaster_setNat {a : Nat} (n : Nat) (h : a ≠ Reg.SCAN_UNDERRUN_CNT) : sameRaster c (c.setNat a n) :=
  ⟨⟨_, c.tile, c.ports, c.scan, rfl⟩, rfl, rfl, Chip.rd_wr_ne _ _ h.symm⟩

theorem sameRaster_put {f : Fld} (n : Nat) (h : f.reg ≠ Reg.SCAN_UNDERRUN_CNT) : sameRaster c (c.put f n) :=
  ⟨⟨_, c.tile, c.ports, c.scan, rfl⟩, rfl, rfl, Chip.rd_put_ne _ _ _ h.symm⟩

theorem sameRaster_raise (e : Ev) : sameRaster c (c.raise e) := by
  obtain ⟨regs, tile, h⟩ := c.raise_eq e
  refine ⟨⟨regs, tile, c.ports, c.scan, h⟩, ?_, ?_, Chip.rd_raise_above_header _ _ (by decide) (by decide)⟩
  · rw [h]
  · rw [h]

theorem sameRaster_onPort (n : Nat) (f : Port → Port) : sameRaster c (c.onPort n f) :=
  ⟨⟨c.regs, c.tile, _, c.scan, rfl⟩, rfl, rfl, rfl⟩

theorem sameRaster_onScan {f : Scan → Scan} (h : (f c.scan).line = c.scan.line ∧ (f c.scan).run = c.scan.run) :
    sameRaster c (c.onScan f) :=
  ⟨⟨c.regs, c.tile, c.ports, _, rfl⟩, h.1, h.2, rfl⟩

end Updates

/-! ### The work of a line, part by part -/

/-- The lowest fills leave the raster and the underruns (R191). -/
theorem Chip.fillSeen_sameRaster (c : Chip) (g kib : Nat) : sameRaster c (c.fillSeen g kib) := by
  have lowered (n : Nat) : sameRaster c (c.put ⟨Reg.SCAN_FILL_MIN, 8 * g + 7, 8 * g⟩ n) :=
    sameRaster_put _ _ (show Reg.SCAN_FILL_MIN ≠ Reg.SCAN_UNDERRUN_CNT by decide)
  exact (sameRaster_ite ((lowered _).trans (sameRaster_onScan _ ⟨rfl, rfl⟩)) (lowered _)).trans
    (sameRaster_ite ((sameRaster_onScan _ ⟨rfl, rfl⟩).trans (sameRaster_raise _ _)) (.refl _))

/-- An underrun is counted; what else it shows and tells leaves the raster and the count (R192). -/
theorem Chip.underrun_sameRaster (c : Chip) (y x : Nat) :
    sameRaster (c.count Reg.SCAN_UNDERRUN_CNT) (c.underrun y x) :=
  sameRaster_ite (.refl _) ((((sameRaster_put _ _ (by decide)).trans (sameRaster_put _ _ (by decide))).trans
    (sameRaster_put _ _ (by decide))).trans ((sameRaster_onScan _ ⟨rfl, rfl⟩).trans (sameRaster_raise _ _)))

/-- A CRC rectangle leaves the raster and the underruns (R203). -/
theorem Chip.crcLine_sameRaster (c : Chip) (y : Nat) (px : List (List Nat)) (r : Nat) : sameRaster c (c.crcLine y px r) := by
  have value : Reg.SCAN_CRC_VAL r ≠ Reg.SCAN_UNDERRUN_CNT := by simp only [Reg.SCAN_CRC_VAL, Reg.SCAN_UNDERRUN_CNT]; omega
  exact sameRaster_ite (.refl _) ((sameRaster_onScan _ ⟨rfl, rfl⟩).trans (sameRaster_ite (.refl _)
    (((sameRaster_setNat _ _ value).trans (sameRaster_put _ _ (by decide))).trans
      (sameRaster_ite ((sameRaster_setNat _ _ (by decide)).trans (sameRaster_raise _ _)) (.refl _)))))

theorem Chip.dropPixels_sameRaster (c : Chip) (n k : Nat) : sameRaster c (c.dropPixels n k) := by
  have missed : Reg.CHAIN_DEADLINE_MISS n ≠ Reg.SCAN_UNDERRUN_CNT := by
    simp only [Reg.CHAIN_DEADLINE_MISS, Reg.SCAN_UNDERRUN_CNT]; omega
  exact sameRaster_ite (.refl _) ((sameRaster_setNat _ _ missed).trans (sameRaster_raise _ _))

/-- A slice that takes a line's pixels leaves the raster and the underruns (R199). -/
theorem Chip.sliceLine_sameRaster (c : Chip) (y : Nat) (px : List (List Nat)) (s : Slicing) :
    sameRaster c (c.sliceLine y px s) := by
  have queued (d : Chip) (n : Nat) (l : List Cell) : sameRaster d (d.queueCells n l) :=
    sameRaster_ite (d.dropPixels_sameRaster n l.length) (sameRaster_onPort _ _ _)
  exact sameRaster_ite (sameRaster_onScan _ ⟨rfl, rfl⟩)
    ((sameRaster_onScan _ ⟨rfl, rfl⟩).trans (sameRaster_ite (queued _ _ _) (.refl _)))

/-! ### A line (R188 to R203) -/

/-- The line suffers an underrun if its data are missing from a pixel on. -/
def Chip.starved (c : Chip) (y w : Nat) (under : Option Nat) : Chip :=
  match under with
  | some u => if u < w then c.underrun y u else c
  | none => c

/-- A Swift layer's missing line is counted, and told once a frame (R193). -/
def Chip.lateCounted (c : Chip) (late : Bool) : Chip :=
  let d := c.when late fun c => c.count Reg.SCAN_SWIFT_LATE
  d.when (late && !d.scan.swiftTold) fun c => (c.onScan fun s => { s with swiftTold := true }).raise .SCAN_SWIFT_LATE

/-- The raster moves on from line y of h; the slices in the making are taken up. -/
def Chip.rasterMoved (c : Chip) (y h : Nat) : Chip :=
  c.onScan fun s => { s with slices := [], line := y + 1, run := decide (y + 1 < h) }

/-- The pixels of line y, w pixels wide: from the one from which data are missing the background alone (R192). -/
def Chip.linePixels (d : Chip) (y w : Nat) (under : Option Nat) : List (List Nat) :=
  (List.range w).map fun x =>
    match under with
    | some u => if u ≤ x then d.postLut d.background else d.canvasPixel x y
    | none => d.canvasPixel x y

/-- The lowest fills seen during the line are recorded, in order (R191). -/
def Chip.filled (c : Chip) (fills : List (Nat × Nat)) : Chip := c.each fills fun c f => c.fillSeen (f.1 % 4) f.2

/-- A missing Swift line and the CRC rectangles of line y are told (R193, R203). -/
def Chip.lineTold (c : Chip) (late : Bool) (y : Nat) (px : List (List Nat)) : Chip :=
  (c.lateCounted late).each (List.range 16) fun c r => c.crcLine y px r

/-- The part before line y is cut into slices, and the line's pixels; `c` is the part at the line's instant. -/
def Chip.lineComposed (c : Chip) (y w : Nat) (under : Option Nat) (fills : List (Nat × Nat)) : Chip × List (List Nat) :=
  let d := (c.filled fills).lineFrom
  (((c.filled fills).starved y w under).lineTold (d.swiftLate y) y (d.linePixels y w under), d.linePixels y w under)

theorem Chip.filled_sameRaster (c : Chip) (fills : List (Nat × Nat)) : sameRaster c (c.filled fills) :=
  sameRaster_each (fun c (f : Nat × Nat) => c.fillSeen (f.1 % 4) f.2) (fun d f => d.fillSeen_sameRaster (f.1 % 4) f.2) fills c

theorem Chip.starved_sameButScanned (c : Chip) (y w : Nat) (under : Option Nat) : sameButScanned c (c.starved y w under) := by
  cases under with
  | none => exact .refl c
  | some u =>
    simp only [Chip.starved]
    split
    · exact sameButScanned.trans ⟨_, c.tile, c.ports, c.scan, rfl⟩ (c.underrun_sameRaster y u).1
    · exact .refl c

theorem Chip.nat_starved (c : Chip) (y : Nat) {w u : Nat} (hu : u < w) :
    (c.starved y w (some u)).nat Reg.SCAN_UNDERRUN_CNT = min (c.nat Reg.SCAN_UNDERRUN_CNT + 1) 0xffffffff := by
  obtain ⟨-, -, -, counted⟩ := c.underrun_sameRaster y u
  simp only [Chip.starved, if_pos hu]
  exact (Chip.nat_congr counted).trans (Chip.nat_countBy_same ..)

theorem Chip.lateCounted_sameRaster (c : Chip) (late : Bool) : sameRaster c (c.lateCounted late) :=
  (sameRaster_ite (sameRaster_setNat _ _ (by decide)) (.refl _)).trans
    (sameRaster_ite ((sameRaster_onScan _ ⟨rfl, rfl⟩).trans (sameRaster_raise _ _)) (.refl _))

theorem Chip.lineTold_sameRaster (c : Chip) (late : Bool) (y : Nat) (px : List (List Nat)) :
    sameRaster c (c.lineTold late y px) :=
  (c.lateCounted_sameRaster late).trans (sameRaster_each _ (fun d r => d.crcLine_sameRaster y px r) _ _)

/-- Up to its slicing a line changes what any line changes, and counts an underrun inside it. -/
theorem Chip.lineComposed_frame (c : Chip) (y w : Nat) (under : Option Nat) (fills : List (Nat × Nat)) :
    let b := (c.lineComposed y w under fills).1
    sameButScanned c b ∧ ∀ u, under = some u → u < w →
      b.nat Reg.SCAN_UNDERRUN_CNT = min (c.nat Reg.SCAN_UNDERRUN_CNT + 1) 0xffffffff := by
  obtain ⟨filled, -, -, before⟩ := c.filled_sameRaster fills
  obtain ⟨told, -, -, after⟩ := Chip.lineTold_sameRaster ((c.filled fills).starved y w under)
    ((c.filled fills).lineFrom.swiftLate y) y ((c.filled fills).lineFrom.linePixels y w under)
  refine ⟨(filled.trans (Chip.starved_sameButScanned _ y w under)).trans told, fun u hu hw => ?_⟩
  subst hu
  rw [← Chip.nat_congr before]
  exact (Chip.nat_congr after).trans (Chip.nat_starved _ y hw)

section Line

variable {c : Chip} {under : Option Nat} {fills : List (Nat × Nat)}

/-- No line is scanned while scanout does not run. -/
theorem Chip.scanLine_stopped (hr : c.scan.run = false) : c.scanLine under fills = c := if_pos (by simp [hr])

variable (hr : c.scan.run = true) (he : c.enabled 0x68 = true) (hl : c.scan.line < c.atTick.planNow.h)

include hr he hl

theorem Chip.scanLine_runs :
    let p := c.atTick.planNow
    let b := (c.elapseTo (c.bell.tickTime + p.ty c.scan.line)).lineComposed c.scan.line p.w under fills
    c.scanLine under fills =
      (b.1.rasterMoved c.scan.line p.h).each b.1.scan.slices fun d s => d.sliceLine c.scan.line b.2 s := by
  refine (if_neg (by simp [hr, he, hl])).trans ?_
  cases under with
  | none => rfl
  | some u => rfl

/-- A line moves the raster on by one line, ends scanout's run with the last, and counts an underrun inside the line. -/
theorem Chip.scanLine_moves :
    let p := c.atTick.planNow
    let g := c.elapseTo (c.bell.tickTime + p.ty c.scan.line)
    let t := c.scanLine under fills
    sameButScanned g t ∧ t.scan.line = c.scan.line + 1 ∧ t.scan.run = decide (c.scan.line + 1 < p.h) ∧
      ∀ u, under = some u → u < p.w →
        t.nat Reg.SCAN_UNDERRUN_CNT = min (g.nat Reg.SCAN_UNDERRUN_CNT + 1) 0xffffffff := by
  intro p g t
  let b := g.lineComposed c.scan.line p.w under fills
  have sliced : sameRaster (b.1.rasterMoved c.scan.line p.h) t := by
    rw [show t = _ from Chip.scanLine_runs hr he hl]
    exact sameRaster_each _ (fun d s => d.sliceLine_sameRaster c.scan.line b.2 s) _ _
  obtain ⟨composed, counted⟩ := g.lineComposed_frame c.scan.line p.w under fills
  obtain ⟨same, line, run, uncounted⟩ := sliced
  have moved : sameButScanned b.1 (b.1.rasterMoved c.scan.line p.h) := ⟨b.1.regs, b.1.tile, b.1.ports, _, rfl⟩
  exact ⟨(composed.trans moved).trans same, line, run, fun u hu hw => (Chip.nat_congr uncounted).trans (counted u hu hw)⟩

end Line

end Sys2Proof.Machine
end

section
/-!
PROOF. O48: Loom's powers, tables and fences, and scanout's lines.
-/

open Sys2Proof Sys2Proof.Machine Sys2Proof.Safety

namespace Sys2Proof.Proofs

/-- A line that is scanned answers the part at the line's instant with the raster moved on and an underrun counted. -/
theorem scanLine_answers {s : State} {under : Option Nat} {fills : List (Nat × Nat)} (hr : s.chip.scan.run = true)
    (he : s.chip.enabled 0x68 = true) (hl : s.chip.scan.line < s.chip.atTick.planNow.h)
    (hc : (s.chip.elapseTo (s.chip.bell.tickTime + s.chip.atTick.planNow.ty s.chip.scan.line)).fab.commits = []) :
    let p := s.chip.atTick.planNow
    let g := s.chip.elapseTo (s.chip.bell.tickTime + p.ty s.chip.scan.line)
    ∃ t, exec (.scanLine under fills) s = .next t ∧ t.pending = s.pending ∧
      t.chip.gran = g.gran ∧ t.chip.ing = g.ing ∧ t.chip.loom = g.loom ∧ t.chip.well = g.well ∧
      t.chip.scan.line = s.chip.scan.line + 1 ∧ t.chip.scan.run = decide (s.chip.scan.line + 1 < p.h) ∧
      t.chip.age = g.age ∧ t.chip.bell = g.bell ∧
      ∀ u, under = some u → u < p.w →
        t.chip.nat Reg.SCAN_UNDERRUN_CNT = min (g.nat Reg.SCAN_UNDERRUN_CNT + 1) 0xffffffff := by
  intro p g
  obtain ⟨⟨_, _, _, _, frame⟩, line, run, counted⟩ := Chip.scanLine_moves (under := under) (fills := fills) hr he hl
  have runs : exec (.scanLine under fills) s = .next (s.effect fun c => c.scanLine under fills) :=
    (exec_scanLine under fills s).trans (State.run_next rfl rfl)
  obtain ⟨t, ht, hq, settled⟩ := exec_answers runs ((congrArg (·.fab.commits) frame).trans hc)
  have keeps {α : Type} (f : Chip → α) (hs : ∀ c, f c.settle = f c) (hf : f (s.chip.scanLine under fills) = f g) :
      f t.chip = f g :=
    ((congrArg f settled).trans (hs _)).trans hf
  refine ⟨t, ht, hq, keeps _ Chip.settle_gran (by rw [frame]), keeps _ Chip.settle_ing (by rw [frame]),
    keeps _ Chip.settle_loom (by rw [frame]), keeps _ Chip.settle_well (by rw [frame]), ?_, ?_,
    keeps _ Chip.settle_age (by rw [frame]), keeps _ Chip.settle_bell (by rw [frame]), fun u hu hw => ?_⟩
  · rw [settled, Chip.settle_scan]
    exact line
  · rw [settled, Chip.settle_scan]
    exact run
  · rw [settled, Chip.nat, Chip.settle_rd]
    exact counted u hu hw

/-- Settles O48: each command is one case of what its register's block, or the line, does at the part. -/
theorem loomAndScanoutAreDriven : Obligations.LoomAndScanoutAreDriven := by
  unfold Obligations.LoomAndScanoutAreDriven
  intro s rq v
  refine ⟨fun _ => ⟨fun g hg => ?_, fun ht => ?_, fun ht => ?_, fun ht => ?_, fun i hi ht => ?_, fun ht => ?_, fun ht => ?_⟩,
    fun _ ht => ?_, fun hr => ?_, fun hr => ?_, fun hr => ?_, fun hr => ?_, ?_, fun under fills => ⟨fun hr => ?_, ?_⟩⟩
  · have ready {f : Chip → Chip} (h : s.chip.grpReadyNow g = f s.chip) : exec (.grpReady g) s = .next (s.effect f) :=
      (exec_grpReady ..).trans (State.run_next (decide_eq_true hg) h)
    exact ⟨fun hp hn => ready (Chip.grpReadyNow_powered hp hn), fun hp => ready (Chip.grpReadyNow_off hp),
      fun i hi hen hp hv => Chip.grpPower_stuck hg (Chip.grpStuck_of_layer hi hen hp hv)⟩
  · exact (exec_grpPwrWrite ..).trans (State.run_next rfl (Chip.regWrite_grpPwr v ht))
  · intro a on
    have written {f : Chip → Chip} (h : s.chip.lutWrite v.toNat = f s.chip) : exec (.lutDataWrite rq v) s = .next (s.effect f) :=
      (exec_lutDataWrite ..).trans (State.run_next rfl ((Chip.regWrite_lutData v ht).trans h))
    exact ⟨fun ha => written (Chip.lutWrite_beyond ha), fun ha hu => written (Chip.lutWrite_busy ha hu),
      fun ha hu => written (Chip.lutWrite_stores ha hu)⟩
  · exact (exec_fenceInc ..).trans (State.run_next rfl (Chip.regWrite_fenceInc v ht))
  · have cancelled {f : Chip → Chip} (h : (if (assoc s.chip.loom.held i).isSome = true then s.chip.dropCommit i else s.chip) =
        f s.chip) : exec (.fenceCancel rq i) s = .next (s.effect f) :=
      (exec_fenceCancel ..).trans (State.run_next (decide_eq_true hi) ((Chip.regWrite_fenceCancel hi ht).trans h))
    exact ⟨fun held => cancelled (if_pos held), fun free => cancelled (if_neg (by simp [free]))⟩
  · have grouped {f : Chip → Chip} (h : s.chip.flipGroup (bitsOf v 15 0) = f s.chip) :
        exec (.flipGroupWrite rq v) s = .next (s.effect f) :=
      (exec_flipGroupWrite ..).trans (State.run_next rfl ((Chip.regWrite_flipGroup v ht).trans h))
    exact ⟨fun busy => grouped (Chip.flipGroup_busy busy _), fun free => grouped (Chip.flipGroup_free free _)⟩
  · intro a on busy
    have written {f : Chip → Chip} (h : s.chip.mapWrite v = f s.chip) : exec (.mapDataWrite rq v) s = .next (s.effect f) :=
      (exec_mapDataWrite ..).trans (State.run_next rfl ((Chip.regWrite_mapData v ht).trans h))
    exact ⟨fun h => written (Chip.mapWrite_busy h), fun h => written (Chip.mapWrite_stores h)⟩
  · intro a on
    have written {f : Chip → Chip} (h : s.chip.corrMemWrite v.toNat = f s.chip) :
        exec (.corrMemDataWrite rq v) s = .next (s.effect f) :=
      (exec_corrMemDataWrite ..).trans (State.run_next rfl ((Chip.regWrite_corrMemData v ht).trans h))
    exact ⟨fun hf => written (Chip.corrMemWrite_nonfinite hf), fun hf => ⟨fun hw => written (Chip.corrMemWrite_outside hf hw),
      fun k hw => ⟨fun hl => written (Chip.corrMemWrite_locked hf hw hl),
        fun hk hl => written (Chip.corrMemWrite_stores hf hw hk hl)⟩⟩⟩
  · exact (exec_lutDataRead ..).trans (State.run_next rfl (Chip.readOut_lutData hr))
  · exact (exec_mapDataRead ..).trans (State.run_next rfl (Chip.readOut_mapData hr))
  · exact (exec_corrMemDataRead ..).trans (State.run_next rfl (Chip.readOut_corrMemData hr))
  · exact (exec_fillMinRead ..).trans (State.run_next rfl (Chip.readOut_fillMin hr))
  · refine (exec_fenceTimeout s).trans (State.run_next rfl ((Chip.applyDue_eq ..).trans ?_))
    rw [Bool.not_not]
  · exact (exec_scanLine ..).trans (State.run_next rfl (Chip.scanLine_stopped hr))
  · exact fun hr he hl hc => scanLine_answers hr he hl hc

end Sys2Proof.Proofs
end

section
/-!
SUPPORT. From code to pulse (R238): the reversal of a segment's bits, the shares of the segments, and their bound.
-/

namespace Sys2Proof.Machine

/-! ### The reversal of bits -/

/-- One more bit reversed is the lowest of the result. -/
theorem bitrev_succ (m s : Nat) : bitrev (m + 1) s = 2 * bitrev m s + s / 2 ^ m % 2 := by
  simp [bitrev, List.range_succ]

theorem bitrev_lt (m s : Nat) : bitrev m s < 2 ^ m := by
  induction m with
  | zero => simp [bitrev]
  | succ m ih =>
    rw [bitrev_succ, pow_succ]
    omega

/-- Bit i of the reversed number is bit m − 1 − i of the number. -/
theorem testBit_bitrev {m i : Nat} (s : Nat) (hi : i < m) : (bitrev m s).testBit i = s.testBit (m - 1 - i) := by
  induction m generalizing i with
  | zero => exact absurd hi (Nat.not_lt_zero i)
  | succ m ih =>
    rw [bitrev_succ]
    cases i with
    | zero =>
      have low : (2 * bitrev m s + s / 2 ^ m % 2) % 2 = s / 2 ^ m % 2 := by omega
      simp [low, Nat.testBit_eq_decide_div_mod_eq]
    | succ i =>
      have high : (2 * bitrev m s + s / 2 ^ m % 2) / 2 = bitrev m s := by omega
      rw [Nat.testBit_succ, high, ih (Nat.lt_of_succ_lt_succ hi)]
      congr 1
      omega

/-- Reversing twice gives the number back. -/
theorem bitrev_bitrev {m s : Nat} (hs : s < 2 ^ m) : bitrev m (bitrev m s) = s := by
  refine Nat.eq_of_testBit_eq fun i => ?_
  by_cases hi : i < m
  · rw [testBit_bitrev _ hi, testBit_bitrev _ (by omega)]
    congr 1
    omega
  · have beyond : 2 ^ m ≤ 2 ^ i := Nat.pow_le_pow_right (by decide) (Nat.not_lt.1 hi)
    rw [Nat.testBit_lt_two_pow ((bitrev_lt _ _).trans_le beyond), Nat.testBit_lt_two_pow (hs.trans_le beyond)]

/-! ### The shares of the segments -/

/-- Of as many shares as there are numbers below n, those below the remainder taking one more, the whole is made up. -/
theorem sum_shares (on : Nat) {n : Nat} (hn : 0 < n) :
    ∑ s ∈ Finset.range n, (on / n + if s < on % n then 1 else 0) = on := by
  have below : (Finset.range n).filter (· < on % n) = Finset.range (on % n) := by
    ext s
    have := Nat.mod_lt on hn
    simp only [Finset.mem_filter, Finset.mem_range]
    omega
  rw [Finset.sum_add_distrib, ← Finset.card_filter, below, Finset.card_range, Finset.sum_const, Finset.card_range,
    smul_eq_mul, Nat.div_add_mod]

/-- In whatever order the bit reversal deals the remainder, the segments share ON. -/
theorem sum_onSeg (on m : Nat) : ((List.range (2 ^ m)).map fun s => onSeg on (2 ^ m) s).sum = on := by
  calc ((List.range (2 ^ m)).map fun s => onSeg on (2 ^ m) s).sum
      = ∑ s ∈ Finset.range (2 ^ m), (on / 2 ^ m + if bitrev m s < on % 2 ^ m then 1 else 0) := by
        simp only [onSeg, Nat.log2_two_pow]
        rfl
    _ = ∑ s ∈ Finset.range (2 ^ m), (on / 2 ^ m + if s < on % 2 ^ m then 1 else 0) :=
        Finset.sum_nbij' (bitrev m) (bitrev m) (fun s _ => Finset.mem_range.2 (bitrev_lt m s))
          (fun s _ => Finset.mem_range.2 (bitrev_lt m s)) (fun s hs => bitrev_bitrev (Finset.mem_range.1 hs))
          (fun s hs => bitrev_bitrev (Finset.mem_range.1 hs)) (fun s _ => rfl)
    _ = on := sum_shares on (Nat.two_pow_pos m)

/-- No segment carries more than the on window, if ON fits into all of them. -/
theorem onSeg_le {on n w : Nat} (h : on ≤ n * w) (s : Nat) : onSeg on n s ≤ w := by
  have whole : on / n ≤ w := Nat.div_le_of_le_mul h
  simp only [onSeg]
  split
  next extra =>
    have short : on / n ≠ w := by
      rintro rfl
      have := Nat.div_add_mod on n
      omega
    omega
  next => exact whole

/-- A code of 16 bits at a limit factor of at most 1 leaves ON within the time a frame has. -/
theorem onTime_le {code limk : Nat} (hc : code < 65536) (hl : limk ≤ 65536) (g : Nat) : onTime code limk g ≤ g := by
  have full : code * limk * g ≤ 65535 * 65536 * g :=
    Nat.mul_le_mul_right g (Nat.mul_le_mul (Nat.le_of_lt_succ hc) hl)
  simp only [onTime]
  omega

/-! ### The code and the on-time of a lamp -/

theorem leNat_lt (l : List Byte) : leNat l < 256 ^ l.length := by
  induction l with
  | nil => exact Nat.one_pos
  | cons b l ih =>
    have := b.isLt
    simp only [leNat, List.length_cons, pow_succ]
    omega

theorem Chip.frontCode_lt (c : Chip) (p r : Nat) : c.frontCode p r < 65536 := by
  have two : ∀ a, (memBytes c.nim.mem a 2).length = 2 := fun a => by simp [memBytes]
  have := leNat_lt (memBytes c.nim.mem (c.frontBase + 6 * (c.lampAt p r).1 + 2 * (c.lampAt p r).2) 2)
  rwa [two] at this

section LampOn

variable {c : Chip} {p r : Nat}

/-- A masked lamp is never on (R238). -/
theorem Chip.lampOn_masked (h : c.lampMasked p r = true) (g : Grid) (s : Nat) : c.lampOn g s r p = 0 := if_pos h

/-- A lamp that is not masked has its segment's share of the ON of its code, outside the locator pattern. -/
theorem Chip.lampOn_lit (h : c.lampMasked p r = false) (hl : c.tile.locator = false) (g : Grid) (s : Nat) :
    c.lampOn g s r p = onSeg (onTime (c.frontCode p r) (c.get .LAMP_ILIM_STAT_LIMK) (g.n * g.w)) g.n s := by
  simp [Chip.lampOn, h, hl]

theorem Chip.lampMasked_of_fault
    (h : c.flag (maskFld p r) = true ∨ c.flag (pinFld p) = true ∨ c.flag (pinFld (480 + r)) = true) :
    c.lampMasked p r = true := by
  rcases h with h | h | h <;> simp [Chip.lampMasked, Chip.rowFault, h]

theorem Chip.lampMasked_sound (hm : c.flag (maskFld p r) = false) (hp : c.flag (pinFld p) = false)
    (hr : c.flag (pinFld (480 + r)) = false) (ho : c.lamp.opens.contains (r, p) = false) : c.lampMasked p r = false := by
  simp only [Chip.lampMasked, Chip.rowFault, hm, hp, hr, ho, Bool.or_self]

end LampOn

end Sys2Proof.Machine
end

section
/-!
PROOF. O49: the segments of a frame share a lamp's on-time.
-/

open Sys2Proof Sys2Proof.Machine Sys2Proof.Safety

namespace Sys2Proof.Proofs

/-- Settles O49: the bit reversal permutes the segments, so that as many as the remainder counts take one more; ON fits into the
on windows of all of them. -/
theorem segmentsSplitTheOnTime : Obligations.SegmentsSplitTheOnTime := by
  unfold Obligations.SegmentsSplitTheOnTime
  intro c g m p r _ hn hl hk on
  refine ⟨fun masked => Chip.lampOn_masked (Chip.lampMasked_of_fault masked) g, fun hm hp hr ho => ?_⟩
  have lit (s : Nat) : c.lampOn g s r p = onSeg on g.n s :=
    Chip.lampOn_lit (Chip.lampMasked_sound hm hp hr ho) hl g s
  simp only [lit]
  refine ⟨?_, fun s _ => ⟨onSeg_le (onTime_le (c.frontCode_lt p r) hk _) s, bitrev m s, ?_, ?_, ?_⟩⟩
  · rw [hn]
    exact sum_onSeg on m
  · exact hn ▸ bitrev_lt m s
  · exact fun i hi => testBit_bitrev s hi
  · rw [onSeg, hn, Nat.log2_two_pow]

end Sys2Proof.Proofs
end

section
/-!
SUPPORT. The Lamplighter's registers, faults, reference current, pin tests and sweeps (R233, R243 to R248), and a new descriptor.
-/

namespace Sys2Proof.Machine

open Safety

/-! ### The commands as effects -/

theorem exec_irefMeasure (cur dt : Nat) (s : State) :
    exec (.irefMeasure cur dt) s = s.run (.irefMeasure cur dt) fun c => c.irefIn cur dt := rfl

theorem exec_sweepStart (rq : Requester) (s : State) :
    exec (.sweepStart rq) s = s.run (.sweepStart rq) fun c => c.regWrite rq Reg.LAMP_SWEEP_CTRL 1 noVerdict := rfl

theorem exec_sweepDue (s : State) : exec .sweepDue s = s.run .sweepDue Chip.sweepDue := rfl

theorem exec_faultListClear (rq : Requester) (s : State) :
    exec (.faultListClear rq) s = s.run (.faultListClear rq) fun c =>
      c.regWrite rq Reg.LAMP_FAULT_IDX 0x80000000 noVerdict := rfl

theorem exec_pinFaultClear (rq : Requester) (g k : Nat) (v : Word) (s : State) :
    exec (.pinFaultClear rq g k v) s = s.run (.pinFaultClear rq g k v) fun c =>
      c.regWrite rq (Reg.LAMP_PINFLT g k) v noVerdict := rfl

theorem exec_descriptorChange (cfg card : Option (List Byte)) (s : State) :
    exec (.descriptorChange cfg card) s = s.run (.descriptorChange cfg card) fun c => c.descriptorChange cfg card := rfl

/-! ### Writes that reach the Lamplighter -/

section Writes

variable {c : Chip} {rq : Requester} {x : Verdict}

/-- START begins a sweep, unless a test runs (R246, R248). -/
theorem Chip.regWrite_sweepCtrl (ht : takes c rq Reg.LAMP_SWEEP_CTRL = true) (he : c.enabled 0xa6 = true) :
    c.regWrite rq Reg.LAMP_SWEEP_CTRL 1 x = if c.testing = false then c.sweepStart else c := by
  have row : rowOf Reg.LAMP_SWEEP_CTRL = some ⟨0x078, 1, 0x0, .wo, 0x00000000, 0x00000001, .plain⟩ := by decide
  have page : classOf (Reg.LAMP_SWEEP_CTRL / 0x1000) = some (.lamp, 0) := by decide
  have one : bitsOf 1 0 0 = 1 := by decide
  rw [c.regWrite_wo rq _ 1 x _ ht row (by decide) (c.roleZero_other _ (by decide)) rfl page]
  simp only [Chip.blockHook, Chip.lampHook, one, he, true_and, if_true]

/-- CLEAR empties the fault list (R247). -/
theorem Chip.regWrite_faultIdx (ht : takes c rq Reg.LAMP_FAULT_IDX = true) :
    c.regWrite rq Reg.LAMP_FAULT_IDX 0x80000000 x =
      (c.onLamp fun l => { l with faults := [] }).put .LAMP_FAULT_IDX_IDX 0 := by
  have row : rowOf Reg.LAMP_FAULT_IDX = some ⟨0x080, 1, 0x0, .rw, 0x00000000, 0x8000003f, .plain⟩ := by decide
  have page : classOf (Reg.LAMP_FAULT_IDX / 0x1000) = some (.lamp, 0) := by decide
  have kept : (0x80000000 : Word) &&& 0x8000003f = 0x80000000 := by decide
  have clear : (bitsOf 0x80000000 31 31 == 1) = true := by decide
  have entry : bitsOf 0x80000000 5 0 = 0 := by decide
  have other : Reg.LAMP_FAULT_IDX ≠ Reg.LAMP_SWEEP_CTRL := by decide
  rw [c.regWrite_rw rq _ _ x _ ht row (by decide) (c.roleZero_other _ (by decide)) rfl page]
  simp only [Chip.blockHook, Chip.lampHook, kept, clear, entry, if_neg other, if_true, Chip.when_true]

theorem rowOf_pinFault {g k : Nat} (hg : g < 4) (hk : k < 4) :
    rowOf (Reg.LAMP_PINFLT g k) = some ⟨0x050, 4, 0x4, .rw, 0x00000000, 0xffffffff, .plain⟩ :=
  (by decide : ∀ g < 4, ∀ k < 4,
    rowOf (Reg.LAMP_PINFLT g k) = some ⟨0x050, 4, 0x4, .rw, 0x00000000, 0xffffffff, .plain⟩) g hg k hk

theorem classOf_lampGrp {g : Nat} (hg : g < 4) : classOf (0xa2 + g) = some (.lampGrp, g) :=
  (by decide : ∀ g < 4, classOf (0xa2 + g) = some (.lampGrp, g)) g hg

theorem Chip.lampGrpHook_pinFault (c st : Chip) (g : Nat) {k : Nat} (hk : k < 4) (v : Word) :
    c.lampGrpHook st (Reg.LAMP_PINFLT g k) v = c.pinFaultWrite g k v.toNat := by
  have group : pageIdx (Reg.LAMP_PINFLT g k) 0xa2 = g := by simp only [pageIdx, Reg.LAMP_PINFLT]; omega
  have index : idxIn (Reg.LAMP_PINFLT g k) (Reg.LAMP_PINFLT g 0) 4 4 = some k := by
    simp only [idxIn, Reg.LAMP_PINFLT]
    exact (if_neg (by omega)).trans (congrArg some (by omega))
  unfold Chip.lampGrpHook
  simp only [group]
  rw [index]

/-- A write of LAMP_PINFLT clears the bits written 0 (R244). -/
theorem Chip.regWrite_pinFault {g k : Nat} (hg : g < 4) (hk : k < 4) (ht : takes c rq (Reg.LAMP_PINFLT g k) = true)
    (v : Word) : c.regWrite rq (Reg.LAMP_PINFLT g k) v x = c.pinFaultWrite g k v.toNat := by
  have page : Reg.LAMP_PINFLT g k / 0x1000 = 0xa2 + g := by simp only [Reg.LAMP_PINFLT]; omega
  have above : ¬ Reg.LAMP_PINFLT g k % 0x1000 < 0x40 := by simp only [Reg.LAMP_PINFLT]; omega
  have present : c.roleZero (Reg.LAMP_PINFLT g k) = false := c.roleZero_other _ (by simp [page]; omega)
  obtain ⟨st, e⟩ := Chip.regWrite_window (x := x) v ht (rowOf_pinFault hg hk) rfl rfl above present
    (page ▸ classOf_lampGrp hg)
  exact e.trans (c.lampGrpHook_pinFault st g hk v)

end Writes

/-! ### A confirmed fault (R247) -/

@[simp] theorem Chip.raise_lamp (c : Chip) (e : Ev) : (c.raise e).lamp = c.lamp := by
  obtain ⟨_, _, h⟩ := c.raise_eq e
  rw [h]

/-- A confirmed fault is counted and enters the list; a full list takes no entry and is told. -/
def Chip.faultListed (c : Chip) (kind port row : Nat) : Chip :=
  if (c.count Reg.LAMP_FAULT_CNT).lamp.faults.length < 64 then
    (c.count Reg.LAMP_FAULT_CNT).onLamp fun l => { l with faults := l.faults ++ [(kind, port, row)] }
  else (c.count Reg.LAMP_FAULT_CNT).raise .LAMP_LIST_OVF

section Fault

variable (c : Chip) (kind port row : Nat)

/-- Every fault but that of the reference current is told on its group's page. -/
theorem Chip.lampFault_told : c.lampFault kind port row =
    if kind = 5 then c.faultListed kind port row
    else (c.faultListed kind port row).raise (.LAMPG_FAULT (port / 128)) := rfl

theorem Chip.faultListed_eq : ∃ regs tile faults,
    c.faultListed kind port row = { c with regs := regs, tile := tile, lamp := { c.lamp with faults := faults } } := by
  simp only [Chip.faultListed]
  split
  · exact ⟨_, _, _, rfl⟩
  · obtain ⟨_, _, h⟩ := (c.count Reg.LAMP_FAULT_CNT).raise_eq .LAMP_LIST_OVF
    exact ⟨_, _, _, h⟩

/-- A confirmed fault changes registers, the tile's queue and the fault list alone. -/
theorem Chip.lampFault_eq : ∃ regs tile faults,
    c.lampFault kind port row = { c with regs := regs, tile := tile, lamp := { c.lamp with faults := faults } } := by
  obtain ⟨_, _, faults, listed⟩ := c.faultListed_eq kind port row
  rw [Chip.lampFault_told]
  split
  · exact ⟨_, _, faults, listed⟩
  · obtain ⟨_, _, raised⟩ := (c.faultListed kind port row).raise_eq (.LAMPG_FAULT (port / 128))
    exact ⟨_, _, faults, raised.trans (by rw [listed])⟩

/-- A confirmed fault changes no register above the header but the count of faults, and none outside the return page. -/
theorem Chip.rd_lampFault {b : Nat} (h4 : 0x40 ≤ b % 0x1000) (h30 : b / 0x1000 ≠ 0x30) (hb : b ≠ Reg.LAMP_FAULT_CNT) :
    (c.lampFault kind port row).rd b = c.rd b := by
  have counted : (c.count Reg.LAMP_FAULT_CNT).rd b = c.rd b := Chip.rd_countBy_ne _ _ hb
  have listed : (c.faultListed kind port row).rd b = c.rd b := by
    simp only [Chip.faultListed]
    split
    · exact counted
    · exact (Chip.rd_raise_above_header _ _ h4 h30).trans counted
  rw [Chip.lampFault_told]
  split
  · exact listed
  · exact (Chip.rd_raise_above_header _ _ h4 h30).trans listed

end Fault

/-! ### The reference current (R233) -/

section Iref

variable {c : Chip} {i : Nat}

theorem Chip.lampState_put (c : Chip) {f : Fld} (n : Nat) (h : f.reg ≠ Reg.LAMP_STAT) : (c.put f n).lampState = c.lampState :=
  Chip.get_put_other _ _ _ _ (.inl h.symm)

@[simp] theorem Chip.get_onLamp (c : Chip) (f : Lamp → Lamp) (g : Fld) : (c.onLamp f).get g = c.get g := rfl

/-- A reference current in range is used. -/
theorem Chip.irefMeasure_used (lo : 3600 ≤ i) (hi : i ≤ 44000) :
    c.irefMeasure i =
      let d := (c.put .LAMP_IREF_CURRENT i).put .LAMP_IREF_VALID 1
      (d.onLamp fun l => { l with
        iref := i, irefOk := if d.lampState = 4 then some (l.irefOk.getD d.age) else none }).showCurrents := by
  have state : ((c.put .LAMP_IREF_CURRENT i).put .LAMP_IREF_VALID 1).lampState = (c.put .LAMP_IREF_CURRENT i).lampState :=
    Chip.lampState_put _ _ (by decide)
  simp only [Chip.irefMeasure, lo, hi, and_self, if_true, state, Chip.put_age]

/-- The part that has measured a reference current out of range. -/
def Chip.irefRefused (c : Chip) (i : Nat) : Chip :=
  ((c.put .LAMP_IREF_CURRENT i).put .LAMP_IREF_VALID 0).onLamp fun l => { l with irefOk := none }

/-- The part that stops its sinks for it, before the fault is told. -/
def Chip.irefStopped (c : Chip) (i : Nat) : Chip := ((c.irefRefused i).setLamp 4).put .LAMP_IREF_FAULT 1

/-- A measurement changes LAMP_IREF alone. -/
theorem Chip.get_irefRefused (c : Chip) (i : Nat) {f : Fld} (h : f.reg ≠ Reg.LAMP_IREF) : (c.irefRefused i).get f = c.get f := by
  rw [Chip.irefRefused, Chip.get_onLamp, Chip.get_put_other _ _ _ _ (.inl h), Chip.get_put_other _ _ _ _ (.inl h)]

/-- A reference current out of range stops the sinks and is a fault, unless it already is. -/
theorem Chip.irefMeasure_faulty (hi : i < 3600 ∨ 44000 < i) (h4 : c.lampState ≠ 4) (he : c.enabled 0xa6 = true) :
    c.irefMeasure i = ((c.irefStopped i).lampFault 5 0 0).raise .LAMP_IREF_FAULT := by
  have out : ¬ (3600 ≤ i ∧ i ≤ 44000) := by omega
  have state : (c.irefRefused i).lampState ≠ 4 := by rwa [Chip.lampState, Chip.get_irefRefused _ _ (by decide)]
  have on : (c.irefRefused i).enabled 0xa6 ≠ false := by
    rw [Chip.enabled, Chip.flag, Chip.get_irefRefused _ _ (by decide)]
    simpa [Chip.enabled, Chip.flag] using he
  have e : c.irefMeasure i =
      if (c.irefRefused i).lampState = 4 ∨ (c.irefRefused i).enabled 0xa6 = false then c.irefRefused i
      else ((c.irefStopped i).lampFault 5 0 0).raise .LAMP_IREF_FAULT := by
    unfold Chip.irefMeasure
    exact if_neg out
  rw [e, if_neg (not_or.2 ⟨state, on⟩)]

/-- What LAMP_STAT and LAMP_IREF show of the stop. -/
theorem Chip.irefStopped_shows (hi : i < 65536) :
    (c.irefStopped i).lampState = 4 ∧ (c.irefStopped i).get .LAMP_IREF_CURRENT = i ∧
      (c.irefStopped i).flag .LAMP_IREF_VALID = false ∧ (c.irefStopped i).flag .LAMP_IREF_FAULT = true := by
  have measured (f : Fld) (h : f.reg ≠ Reg.LAMP_STAT) (hh : f.hi < 30 ∨ 30 < f.lo) : (c.irefStopped i).get f =
      ((c.put .LAMP_IREF_CURRENT i).put .LAMP_IREF_VALID 0).get f := by
    rw [Chip.irefStopped, Chip.get_put_other _ _ _ _ (.inr hh), Chip.setLamp, Chip.get_put_other _ _ _ _ (.inl h),
      Chip.irefRefused, Chip.get_onLamp]
  refine ⟨?_, ?_, ?_, ?_⟩
  · rw [Chip.irefStopped, Chip.lampState_put _ _ (by decide), Chip.lampState, Chip.setLamp, Chip.get_put_same _ _ _ (by decide)]
    rfl
  · rw [measured _ (by decide) (by decide), Chip.get_put_other _ _ _ _ (.inr (by decide)),
      Chip.get_put_same _ _ _ (by decide)]
    exact Nat.mod_eq_of_lt hi
  · rw [Chip.flag, measured _ (by decide) (by decide), Chip.get_put_same _ _ _ (by decide)]
    rfl
  · rw [Chip.flag, Chip.irefStopped, Chip.get_put_same _ _ _ (by decide)]
    rfl

/-- An IREF fault leaves what the stop shows, changes nothing of the blocks but the fault list, and is raised. -/
theorem Chip.irefFault_tells (d : Chip) :
    let t := (d.lampFault 5 0 0).raise .LAMP_IREF_FAULT
    (∃ regs tile faults, t = { d with regs := regs, tile := tile, lamp := { d.lamp with faults := faults } }) ∧
      (∀ f : Fld, f.reg = Reg.LAMP_STAT ∨ f.reg = Reg.LAMP_IREF → t.get f = d.get f) ∧
      bitAt (t.nat (Reg.PG_EVENT 0xa6)) 8 = true := by
  intro t
  refine ⟨?_, fun f hf => ?_, Chip.raise_sets _ (show Ev.LAMP_IREF_FAULT.bit < 32 by decide)⟩
  · obtain ⟨_, _, faults, h⟩ := d.lampFault_eq 5 0 0
    obtain ⟨regs, tile, k⟩ := (d.lampFault 5 0 0).raise_eq .LAMP_IREF_FAULT
    exact ⟨regs, tile, faults, k.trans (by rw [h])⟩
  · have place : 0x40 ≤ f.reg % 0x1000 ∧ f.reg / 0x1000 ≠ 0x30 ∧ f.reg ≠ Reg.LAMP_FAULT_CNT := by
      rcases hf with hf | hf <;> rw [hf] <;> decide
    obtain ⟨above, outside, other⟩ := place
    rw [Chip.get, Chip.rd_raise_above_header _ _ above outside, Chip.rd_lampFault _ _ _ _ above outside other, ← Chip.get]

/-- With an IREF fault no lamp shows anything. -/
theorem Chip.lampShows_irefFault (h : c.lampState = 4) : c.lampShows = false := by simp [Chip.lampShows, h]

end Iref

/-! ### Pin tests and sweeps (R245, R246, R248) -/

section Tests

variable {c : Chip} {n : Nat}

theorem Chip.pinTest_none (hp : c.lamp.ocPairs = []) (ho : c.lamp.sweepOn = false) (short : Bool) : c.pinTest short = c := by
  simp only [Chip.pinTest, hp, ho, Bool.not_false, if_true]

/-- A slot of a sweep tests its next pair. -/
theorem Chip.pinTest_sweep {r : List Nat} (hp : c.lamp.ocPairs = []) (ho : c.lamp.sweepOn = true) (hs : c.lamp.sweep = n :: r)
    (short : Bool) : c.pinTest short =
      ((c.when short fun c => (c.pinShort n).put .LAMP_SWEEP_STAT_FOUND 1).onLamp fun l => { l with sweep := r }).sweepEnd := by
  simp only [Chip.pinTest, hp, ho, hs, Bool.not_true, Bool.false_eq_true, if_false]

/-- A slot of a group's pin test tests its next pair. -/
theorem Chip.pinTest_group {g m : Nat} {r : List Nat} {rest : List (Nat × List Nat)}
    (hp : c.lamp.ocPairs = (g, n :: m :: r) :: rest) (short : Bool) : c.pinTest short =
      ((c.when short fun c => c.pinShort n).onLamp fun l => { l with ocPairs := (g, m :: r) :: rest }).showSweep := by
  simp only [Chip.pinTest, hp, List.isEmpty_cons, Bool.false_eq_true, if_false]

@[simp] theorem Chip.elapseAge_lamp (c : Chip) (t : Nat) : (c.elapseAge t).lamp = c.lamp := by
  obtain ⟨_, _, h⟩ := c.elapseAge_eq t
  rw [h]

/-- With SWEEP_MIN = 0 no sweep falls due. -/
theorem Chip.sweepDue_never (h0 : c.get .LAMP_FAULT_CFG_SWEEP_MIN = 0) : c.sweepDue = c := by
  simp [Chip.sweepDue, h0]

/-- SWEEP_MIN minutes after the last sweep the next one starts, unless a test runs. -/
theorem Chip.sweepDue_reached (hi : c.isTile = true) (he : c.enabled 0xa6 = true) (hr : c.pwr.target = .run)
    (h0 : c.get .LAMP_FAULT_CFG_SWEEP_MIN ≠ 0) :
    c.sweepDue =
      let d := c.elapseAge (c.lamp.sweepAt + ms (c.get .LAMP_FAULT_CFG_SWEEP_MIN * 60000))
      if c.testing = true then d else d.sweepStart := by
  simp [Chip.sweepDue, hi, he, hr, h0, Chip.testing]

end Tests

/-! ### A descriptor of the sender's (R18, R248) -/

section Descriptor

variable {c : Chip} {b : List Byte} {card : Option (List Byte)}

/-- The part with the sender's descriptor in force, the first one measured. -/
def Chip.descLoaded (c : Chip) (b : List Byte) : Chip := (if listAt c.gate.m 2 0 = 0 then c.extend 2 b else c).setDesc b 2

/-- A valid descriptor comes into force, and the Lamplighter starts anew with it if it differs. -/
theorem Chip.descriptorChange_valid (hi : c.isTile = true) (hb : descOk b = true) :
    c.descriptorChange (some b) card =
      if (c.descLoaded b).pdesc = c.pdesc then c.descLoaded b else (c.descLoaded b).lampRewire.domSync := by
  have loaded : (c.when (listAt c.gate.m 2 0 == 0) fun c => c.extend 2 b).setDesc b 2 = c.descLoaded b := by
    simp only [Chip.descLoaded, Chip.when, beq_iff_eq]
  simp only [Chip.descriptorChange, hi, hb, loaded, Bool.not_true, Bool.false_eq_true, if_false, if_true]

theorem Chip.descriptorChange_invalid (hi : c.isTile = true) (hb : descOk b = false) :
    c.descriptorChange (some b) card = c := by
  simp [Chip.descriptorChange, hi, hb]

end Descriptor

end Sys2Proof.Machine
end

section
/-!
SUPPORT. Row slots, the grid's end and lamp samples (R230, R231, R235, R237, R240, R243, R244).
-/

namespace Sys2Proof.Machine

/-! ### The commands as effects -/

theorem exec_rowSlot (bad : List Nat) (micro : List (Nat × Nat)) (short : Bool) (s : State) :
    exec (.rowSlot bad micro short) s = s.run (.rowSlot bad micro short) fun c =>
      if c.isTile then c.rowSlot bad micro short else c := rfl

theorem exec_gridEnd (s : State) :
    exec .gridEnd s = s.run .gridEnd fun c =>
      if c.isTile && (c.enabled 0xa6 || c.tile.locator) then c.gridEnd else c := rfl

theorem exec_pulseSample (p mv : Nat) (s : State) :
    exec (.pulseSample p mv) s = s.run (.pulseSample p mv) fun c => if c.isTile then c.pulseSample p mv else c := rfl

/-! ### What the checks of a slot leave -/

/-- Two parts that differ in registers, in the tile's queue and in the Lamplighter's own part alone, with the same slot due. -/
def sameSlotDue (c d : Chip) : Prop :=
  ∃ regs tile lamp, d = { c with regs := regs, tile := tile, lamp := lamp } ∧
    lamp.seg = c.lamp.seg ∧ lamp.row = c.lamp.row

theorem sameSlotDue.refl (c : Chip) : sameSlotDue c c := ⟨c.regs, c.tile, c.lamp, rfl, rfl, rfl⟩

theorem sameSlotDue.trans {c d e : Chip} (h : sameSlotDue c d) (k : sameSlotDue d e) : sameSlotDue c e := by
  obtain ⟨_, _, _, rfl, hs, hr⟩ := h
  obtain ⟨r, t, l, rfl, ks, kr⟩ := k
  exact ⟨r, t, l, rfl, ks.trans hs, kr.trans hr⟩

theorem sameSlotDue_ite {c d e : Chip} {q : Prop} [Decidable q] (h : sameSlotDue c d) (k : sameSlotDue c e) :
    sameSlotDue c (if q then d else e) := by
  split
  · exact h
  · exact k

theorem sameSlotDue_each {α : Type} {f : Chip → α → Chip} (hf : ∀ c x, sameSlotDue c (f c x)) (l : List α) (c : Chip) :
    sameSlotDue c (c.each l f) :=
  Chip.each_induct (sameSlotDue c) f l (fun d x h => h.trans (hf d x)) c (.refl c)

section Updates

variable (c : Chip)

theorem sameSlotDue_put (f : Fld) (n : Nat) : sameSlotDue c (c.put f n) := ⟨_, c.tile, c.lamp, rfl, rfl, rfl⟩

theorem sameSlotDue_onLamp {f : Lamp → Lamp} (hs : (f c.lamp).seg = c.lamp.seg) (hr : (f c.lamp).row = c.lamp.row) :
    sameSlotDue c (c.onLamp f) := ⟨c.regs, c.tile, _, rfl, hs, hr⟩

theorem sameSlotDue_raise (e : Ev) : sameSlotDue c (c.raise e) := by
  obtain ⟨regs, tile, h⟩ := c.raise_eq e
  exact ⟨regs, tile, c.lamp, h, rfl, rfl⟩

theorem sameSlotDue_lampFault (kind port row : Nat) : sameSlotDue c (c.lampFault kind port row) := by
  obtain ⟨regs, tile, _, h⟩ := c.lampFault_eq kind port row
  exact ⟨regs, tile, _, h, rfl, rfl⟩

/-- LAMP_SWEEP_STAT.RUNNING follows a change of the tests. -/
theorem sameSlotDue_showSweep {f : Lamp → Lamp} (hs : (f c.lamp).seg = c.lamp.seg) (hr : (f c.lamp).row = c.lamp.row) :
    sameSlotDue c (c.onLamp f).showSweep := (sameSlotDue_onLamp c hs hr).trans (sameSlotDue_put _ _ _)

theorem sameSlotDue_confirmRow (r : Nat) : sameSlotDue c (c.confirmRow r) :=
  sameSlotDue_ite (.refl c)
    (((sameSlotDue_put c _ _).trans (sameSlotDue_lampFault _ _ _ _)).trans (sameSlotDue_raise _ _))

theorem sameSlotDue_readRows (bad : List Nat) : sameSlotDue c (c.readRows bad) := by
  have confirms (d : Chip) (x : Nat × Nat) : sameSlotDue d (d.confirmRow x.1) := sameSlotDue_confirmRow d x.1
  simp only [Chip.readRows]
  exact (sameSlotDue_onLamp c rfl rfl).trans (sameSlotDue_each confirms _ _)

theorem sameSlotDue_overcurrent (g : Nat) : sameSlotDue c (c.overcurrent g) :=
  ((sameSlotDue_lampFault c _ _ _).trans (sameSlotDue_raise _ _)).trans (sameSlotDue_showSweep _ rfl rfl)

theorem sameSlotDue_groupMeasure (w : Nat) (on : List (Nat × Nat)) (g micro : Nat) :
    sameSlotDue c (c.groupMeasure w on g micro) :=
  sameSlotDue_ite (sameSlotDue_ite (sameSlotDue_overcurrent c g) (sameSlotDue_onLamp c rfl rfl)) (sameSlotDue_onLamp c rfl rfl)

theorem sameSlotDue_pinShort (n : Nat) : sameSlotDue c (c.pinShort n) :=
  (((sameSlotDue_put c _ _).trans (sameSlotDue_put _ _ _)).trans (sameSlotDue_lampFault _ _ _ _)).trans (sameSlotDue_raise _ _)

theorem sameSlotDue_sweepEnd : sameSlotDue c c.sweepEnd :=
  sameSlotDue_ite ((sameSlotDue_showSweep c rfl rfl).trans (sameSlotDue_raise _ _)) (.refl c)

theorem sameSlotDue_pinTest (short : Bool) : sameSlotDue c (c.pinTest short) := by
  simp only [Chip.pinTest]
  split
  · exact (sameSlotDue_ite (sameSlotDue_pinShort c _) (.refl c)).trans (sameSlotDue_showSweep _ rfl rfl)
  · exact sameSlotDue_showSweep c rfl rfl
  · refine sameSlotDue_ite (.refl c) ?_
    split
    · exact ((sameSlotDue_ite ((sameSlotDue_pinShort c _).trans (sameSlotDue_put _ _ _)) (.refl c)).trans
        (sameSlotDue_onLamp _ rfl rfl)).trans (sameSlotDue_sweepEnd _)
    · exact sameSlotDue_sweepEnd c

end Updates

/-! ### A row slot of the grid (R237, R240) -/

section Slot

variable (c : Chip) (g : Grid)

/-- The instant at which the slot that is due ends, or is cut by the anchor of the next grid. -/
def Chip.slotStop : Nat :=
  match c.lamp.next with
  | some h => min h.anchor (slotEnd g c.lamp.seg c.lamp.row)
  | none => slotEnd g c.lamp.seg c.lamp.row

/-- What the slot that is due drives. -/
def Chip.slotDue : SlotDrive :=
  c.slotDrive g c.lamp.seg c.lamp.row (c.pulsesNow g) ((c.slotStop g - slotStart g c.lamp.seg c.lamp.row) / ns 4)

/-- The part at the end of the slot, with what it drove on record, before the checks at its end. -/
def Chip.slotDriven : Chip := (c.elapseTo (c.slotStop g)).when (decide (2 ≤ c.lampState)) fun d => d.emit (.lamp (c.slotDue g))

theorem Chip.slotDriven_eq : ∃ age bell out, c.slotDriven g = { c with age := age, bell := bell, out := out } ∧
    age = (c.elapseTo (c.slotStop g)).age ∧ bell = (c.elapseTo (c.slotStop g)).bell := by
  obtain ⟨age, bell, h⟩ := c.elapseTo_eq (c.slotStop g)
  simp only [Chip.slotDriven, Chip.when, h]
  split
  · exact ⟨age, bell, _, rfl, rfl, rfl⟩
  · exact ⟨age, bell, c.out, rfl, rfl, rfl⟩

theorem Chip.mem_slotDriven_out (h : 2 ≤ c.lampState) : .lamp (c.slotDue g) ∈ (c.slotDriven g).out := by
  rw [Chip.slotDriven, decide_eq_true h, Chip.when_true]
  exact List.mem_cons_self

variable (bad : List Nat) (micro : List (Nat × Nat)) (short : Bool)

/-- After a slot's drive the checks at its end, if it is not cut, and the next slot is due. -/
theorem Chip.gridSlot_eq :
    ∃ d on, sameSlotDue (c.slotDriven g) d ∧ c.gridSlot g bad micro short = d.nextSlot g on := by
  have e : c.gridSlot g bad micro short =
      if c.slotStop g < slotEnd g c.lamp.seg c.lamp.row then (c.slotDriven g).nextSlot g []
      else ((((c.slotDriven g).when (g.scan != 1 && decide (2 ≤ (c.slotDriven g).lampState)) fun d => d.readRows bad).each micro
        fun d m => d.groupMeasure g.w (c.slotDue g).on (m.1 % 4) m.2).pinTest short).nextSlot g (c.slotDue g).on := rfl
  rw [e]
  split
  · exact ⟨_, _, .refl _, rfl⟩
  · exact ⟨_, _, ((sameSlotDue_ite (sameSlotDue_readRows _ bad) (.refl _)).trans
      (sameSlotDue_each (fun d m => sameSlotDue_groupMeasure d _ _ _ _) _ _)).trans (sameSlotDue_pinTest _ short), rfl⟩

/-- A slot leaves the other blocks, lets time pass to its end, and moves on row by row and segment by segment. -/
theorem Chip.gridSlot_moves :
    let t := c.gridSlot g bad micro short
    (t.nim = c.nim ∧ t.ports = c.ports ∧ t.gate = c.gate ∧ t.pwr = c.pwr) ∧
      t.lamp.last = (c.lamp.seg, c.lamp.row) ∧
      (t.lamp.seg, t.lamp.row) =
        (if c.lamp.row + 1 < g.scan then (c.lamp.seg, c.lamp.row + 1) else (c.lamp.seg + 1, 0)) ∧
      t.age = (c.elapseTo (c.slotStop g)).age ∧ t.bell = (c.elapseTo (c.slotStop g)).bell ∧
      t.out = (c.slotDriven g).out := by
  obtain ⟨d, on, ⟨regs, tile, lamp, hd, seg, row⟩, e⟩ := c.gridSlot_eq g bad micro short
  obtain ⟨age, bell, out, driven, hage, hbell⟩ := c.slotDriven_eq g
  rw [driven] at hd seg row
  have segment : lamp.seg = c.lamp.seg := seg
  have line : lamp.row = c.lamp.row := row
  simp only [e, hd, driven, Chip.nextSlot, Chip.onLamp, segment, line, hage, hbell, and_self, true_and, and_true]
  split <;> rfl

end Slot

section Drive

variable {c : Chip} {g : Grid} {s r stop : Nat} {on : List (Nat × Nat)}

/-- Without PRECHG.EN no switch closes (R231). -/
theorem Chip.slotDrive_precharge_off (h : c.flag .LAMP_PRECHG_EN = false) : (c.slotDrive g s r on stop).precharge = none := by
  simp [Chip.slotDrive, h]

/-- A faulty row stays inactive (R244). -/
theorem Chip.slotDrive_rowFault (h : c.rowFault r = true) : (c.slotDrive g s r on stop).active = none := by
  simp [Chip.slotDrive, Chip.rowDriven, h]

/-- Without power in group 3 no ROWD pin is driven (R230). -/
theorem Chip.rowdPins_unpowered (h : c.domOn 76 = false) (active : Option Nat) : ∀ y ∈ c.rowdPins active, y = none := by
  simp [Chip.rowdPins, h]

/-- A sink that is on turns off with the slot at the latest (R237). -/
theorem Chip.slotDrive_on_fits {y : Nat × Nat} (h : y ∈ (c.slotDrive g s r on stop).on) :
    (c.slotDrive g s r on stop).window + y.2 ≤ max (c.slotDrive g s r on stop).stop (c.slotDrive g s r on stop).window := by
  obtain ⟨x, -, cut⟩ := List.mem_map.1 (List.mem_of_mem_filter h)
  have short : y.2 ≤ stop - c.blank g := by
    rw [← cut]
    exact Nat.min_le_right ..
  show c.blank g + y.2 ≤ max stop (c.blank g)
  omega

end Drive

section RowSlot

variable {c : Chip} (bad : List Nat) (micro : List (Nat × Nat)) (short : Bool)

/-- A slot of the power-up sweep takes 1 µs (R246). -/
theorem Chip.rowSlot_sweep (he : c.enabled 0xa6 = true) (hs : c.lamp.sweepOn = true) (hw : c.lamp.waitTick = true) :
    c.rowSlot bad micro short = (c.elapse (us 1)).pinTest short := by
  simp [Chip.rowSlot, he, hs, hw]

/-- The power-up sweep does not run. -/
theorem Chip.sweepOver (hs : c.lamp.sweepOn = false ∨ c.lamp.waitTick = false) :
    (c.lamp.sweepOn && c.lamp.waitTick) = false := Bool.and_eq_false_iff.2 hs

section Scanning

variable (he : c.enabled 0xa6 = true) (hs : c.lamp.sweepOn = false ∨ c.lamp.waitTick = false)

include he hs

/-- Without a grid nothing is driven. -/
theorem Chip.rowSlot_idle (hg : c.gridNow.lamp.grid = none) : c.rowSlot bad micro short = c.gridNow := by
  simp only [Chip.rowSlot, he, Chip.sweepOver hs, hg, Bool.not_true, Bool.false_and, Bool.false_eq_true, if_false]

/-- A grid without slots left waits for its end. -/
theorem Chip.rowSlot_over {g : Grid} (hg : c.gridNow.lamp.grid = some g) (hn : g.n ≤ c.gridNow.lamp.seg) :
    c.rowSlot bad micro short = c.gridNow := by
  simp only [Chip.rowSlot, he, Chip.sweepOver hs, hg, hn, Bool.not_true, Bool.false_and, Bool.false_eq_true, if_false, if_true]

/-- Else the next slot of the grid runs. -/
theorem Chip.rowSlot_runs {g : Grid} (hg : c.gridNow.lamp.grid = some g) (hn : c.gridNow.lamp.seg < g.n) :
    c.rowSlot bad micro short = c.gridNow.gridSlot g bad micro short := by
  simp only [Chip.rowSlot, he, Chip.sweepOver hs, hg, Nat.not_le.2 hn, Bool.not_true, Bool.false_and, Bool.false_eq_true, if_false]

end Scanning

end RowSlot

/-! ### The grid's end (R240) -/

section GridEnd

variable {c : Chip}

/-- A grid begins with its first slot. -/
theorem Chip.beginGrid_lamp (c : Chip) (g : Grid) :
    (c.beginGrid g).lamp.grid = some g ∧ (c.beginGrid g).lamp.seg = 0 ∧ (c.beginGrid g).lamp.row = 0 := by
  have e : (c.beginGrid g).lamp = { c.lampFrameEnd.lamp with grid := some g, next := none, held := none, seg := 0, row := 0 } := by
    simp only [Chip.beginGrid, Chip.showGrid, Chip.when]
    split
    · exact Chip.raise_lamp _ _
    · rfl
  rw [e]
  exact ⟨rfl, rfl, rfl⟩

/-- At its end the grid in progress is followed by one that begins. -/
theorem Chip.gridEnd_begins (c : Chip) : ∃ d g, c.gridEnd = Chip.beginGrid d g := by
  simp only [Chip.gridEnd, Chip.gridStart]
  split <;> exact ⟨_, _, rfl⟩

theorem Chip.gridEnd_first : c.gridEnd.lamp.seg = 0 ∧ c.gridEnd.lamp.row = 0 := by
  obtain ⟨d, g, e⟩ := c.gridEnd_begins
  rw [e]
  exact (d.beginGrid_lamp g).2

/-- The grid that a tick has anchored begins at its anchor. -/
theorem Chip.gridEnd_anchored {h : Grid} (hn : c.lamp.next = some h) : c.gridEnd.lamp.grid = some h := by
  simp only [Chip.gridEnd, hn]
  exact (Chip.beginGrid_lamp _ h).1

/-- Else the next grid is anchored where the one in progress ends. -/
theorem Chip.gridEnd_own {g : Grid} (hn : c.lamp.next = none) (hg : c.lamp.grid = some g) :
    ∃ g', c.gridEnd.lamp.grid = some g' ∧ g'.anchor = g.anchor + ns (4 * (g.p + 32)) := by
  simp only [Chip.gridEnd, hn, hg]
  exact ⟨_, (Chip.beginGrid_lamp _ _).1, rfl⟩

end GridEnd

/-! ### Lamp samples (R243) -/

section Sample

variable {c : Chip} {g : Grid} {p mv : Nat}

/-- Column `p` has a pulse of 32 GCLK or more in the last slot that is not sampled yet. -/
def Chip.pulsed (c : Chip) (p : Nat) : Prop := ∃ n, 32 ≤ n ∧ (p, n) ∈ c.lamp.lastOn

/-- The pulse is sampled: the lowest voltage, the pulses left to sample and the lamps sampled in the frame follow. -/
def Chip.sampleTaken (c : Chip) (p r mv : Nat) : Chip :=
  (c.noteVmin p r mv).onLamp fun l => { l with
    lastOn := l.lastOn.filter fun x => x.1 != p, sampled := (r, p) :: l.sampled.filter (· != (r, p)) }

/-- The failing runs of the other lamps. -/
def Chip.otherRuns (c : Chip) (p r : Nat) : List (Nat × Nat × Nat) := c.lamp.runs.filter fun x => x.1 != 32 * p + r

theorem Chip.pulsed_iff :
    (c.lamp.lastOn.find? fun x => x.1 == p && decide (32 ≤ x.2)).isSome = true ↔ c.pulsed p := by
  simp only [List.find?_isSome, Bool.and_eq_true, beq_iff_eq, decide_eq_true_eq, Prod.exists, Chip.pulsed]
  constructor
  · rintro ⟨_, n, mem, rfl, long⟩
    exact ⟨n, long, mem⟩
  · rintro ⟨n, long, mem⟩
    exact ⟨p, n, mem, rfl, long⟩

/-- No pulse, no sample. -/
theorem Chip.pulseSample_none (hd : ¬ c.pulsed p) : c.pulseSample p mv = c := by
  have none : (c.lamp.lastOn.find? fun x => x.1 == p && decide (32 ≤ x.2)) = none := by
    rw [← Option.not_isSome_iff_eq_none]
    exact mt Chip.pulsed_iff.1 hd
  unfold Chip.pulseSample
  rw [none]
  cases c.lamp.grid <;> rfl

section Driven

variable (hg : c.lamp.grid = some g) (hd : c.pulsed p)

include hg hd

/-- A good sample forgets the lamp's failing run. -/
theorem Chip.pulseSample_good (hk : (c.sampleTaken p c.lamp.last.2 mv).sampleKind mv = 0) :
    c.pulseSample p mv = (c.sampleTaken p c.lamp.last.2 mv).onLamp fun l => { l with
      runs := (c.sampleTaken p c.lamp.last.2 mv).otherRuns p c.lamp.last.2 } := by
  obtain ⟨_, found⟩ := Option.isSome_iff_exists.1 (Chip.pulsed_iff.2 hd)
  simp only [Chip.pulseSample, hg, found]
  exact if_pos hk

/-- A failing sample that continues the lamp's run confirms the fault once the run is as long as min(4, N), and else makes the run
longer. -/
theorem Chip.pulseSample_fails {n : Nat} (hk : (c.sampleTaken p c.lamp.last.2 mv).sampleKind mv ≠ 0)
    (hn : ((c.sampleTaken p c.lamp.last.2 mv).lamp.runs.find? fun x => x.1 == 32 * p + c.lamp.last.2) =
      some (32 * p + c.lamp.last.2, (c.sampleTaken p c.lamp.last.2 mv).sampleKind mv, n)) :
    c.pulseSample p mv =
      let d := c.sampleTaken p c.lamp.last.2 mv
      let rest := d.otherRuns p c.lamp.last.2
      if min 4 g.n ≤ n + 1 then (d.onLamp fun l => { l with runs := rest }).lampFails (d.sampleKind mv - 1) p c.lamp.last.2
      else d.onLamp fun l => { l with runs := (32 * p + c.lamp.last.2, d.sampleKind mv, n + 1) :: rest } := by
  obtain ⟨_, found⟩ := Option.isSome_iff_exists.1 (Chip.pulsed_iff.2 hd)
  simp only [Chip.sampleTaken] at hk hn
  simp only [Chip.pulseSample, hg, found, if_neg hk, hn, if_true, Chip.sampleTaken, Chip.otherRuns]

end Driven

/-- A lamp found shorted is confirmed at once. -/
theorem Chip.lampFails_short (c : Chip) (p r : Nat) : c.lampFails 1 p r = c.confirmLamp 1 p r := if_neg (by simp)

/-- So is one found open where rows do not count. -/
theorem Chip.lampFails_open (h : c.rowOpenEighths = 0) (p r : Nat) : c.lampFails 0 p r = c.confirmLamp 0 p r :=
  if_neg (by simp [h])

/-- Where they do, one found open waits for the frame's end (R244). -/
theorem Chip.lampFails_held (h : c.rowOpenEighths ≠ 0) (p r : Nat) :
    c.lampFails 0 p r = c.onLamp fun l => { l with opens := (r, p) :: l.opens } := if_pos ⟨rfl, h⟩

end Sample

end Sys2Proof.Machine
end

section
/-!
PROOF. O50: the Lamplighter's row slots, samples, measurements, sweeps and lists.
-/

open Sys2Proof Sys2Proof.Machine Sys2Proof.Safety

namespace Sys2Proof.Proofs

/-- A row slot moves the part on and drives its row as R230, R231 and R237 have it. -/
theorem gridSlot_runs (c : Chip) (g : Grid) (bad : List Nat) (micro : List (Nat × Nat)) (short : Bool) :
    let d := c.slotDue g
    let t := c.gridSlot g bad micro short
    t.nim = c.nim ∧ t.ports = c.ports ∧ t.gate = c.gate ∧ t.pwr = c.pwr ∧ t.lamp.last = (c.lamp.seg, c.lamp.row) ∧
      (t.lamp.seg, t.lamp.row) =
        (if c.lamp.row + 1 < g.scan then (c.lamp.seg, c.lamp.row + 1) else (c.lamp.seg + 1, 0)) ∧
      t.age = (c.elapseTo (c.slotStop g)).age ∧ t.bell = (c.elapseTo (c.slotStop g)).bell ∧
      (2 ≤ c.lampState → Out.lamp d ∈ t.out) ∧ (c.flag .LAMP_PRECHG_EN = false → d.precharge = none) ∧
      (c.rowFault c.lamp.row = true → d.active = none) ∧
      (c.domOn 76 = false → ∀ y ∈ d.idle ++ d.rows, y = none) ∧
      ∀ y ∈ d.on, d.window + y.2 ≤ max d.stop d.window := by
  intro d t
  obtain ⟨⟨nim, ports, gate, pwr⟩, last, next, age, bell, out⟩ := c.gridSlot_moves g bad micro short
  refine ⟨nim, ports, gate, pwr, last, next, age, bell, fun h => ?_, Chip.slotDrive_precharge_off, Chip.slotDrive_rowFault,
    fun h y hy => ?_, fun y => Chip.slotDrive_on_fits⟩
  · exact out ▸ c.mem_slotDriven_out g h
  · rcases List.mem_append.1 hy with hy | hy <;> exact Chip.rowdPins_unpowered h _ y hy

section Commands

variable {s : State} (hi : s.chip.isTile = true) (he : s.chip.enabled 0xa6 = true)

include hi

/-- At a tile these commands are what the Lamplighter does. -/
theorem exec_rowSlot_tile {bad : List Nat} {micro : List (Nat × Nat)} {short : Bool} {f : Chip → Chip}
    (h : s.chip.rowSlot bad micro short = f s.chip) : exec (.rowSlot bad micro short) s = .next (s.effect f) :=
  (exec_rowSlot ..).trans (State.run_next rfl ((if_pos hi).trans h))

theorem exec_pulseSample_tile {p mv : Nat} {f : Chip → Chip} (hp : p < 480) (h : s.chip.pulseSample p mv = f s.chip) :
    exec (.pulseSample p mv) s = .next (s.effect f) :=
  (exec_pulseSample ..).trans (State.run_next (decide_eq_true hp) ((if_pos hi).trans h))

/-- A valid descriptor of the sender's comes into force. -/
theorem exec_descriptorChange_valid {b : List Byte} {card : Option (List Byte)} {f : Chip → Chip} (hb : descOk b = true)
    (h : (if (s.chip.descLoaded b).pdesc = s.chip.pdesc then s.chip.descLoaded b
      else (s.chip.descLoaded b).lampRewire.domSync) = f s.chip) :
    exec (.descriptorChange (some b) card) s = .next (s.effect f) :=
  (exec_descriptorChange ..).trans (State.run_next rfl ((Chip.descriptorChange_valid hi hb).trans h))

include he

theorem exec_gridEnd_tile : exec .gridEnd s = .next (s.effect Chip.gridEnd) :=
  (exec_gridEnd s).trans (State.run_next rfl (if_pos (by simp [hi, he])))

theorem exec_irefMeasure_tile {cur dt : Nat} {f : Chip → Chip} (hc : cur < 65536)
    (h : (s.chip.elapse dt).irefMeasure cur = f s.chip) : exec (.irefMeasure cur dt) s = .next (s.effect f) :=
  (exec_irefMeasure ..).trans (State.run_next (decide_eq_true hc) ((if_pos (by simp [hi, he])).trans h))

/-- A reference current out of range stops every sink and is told as a fault (R233). -/
theorem irefMeasure_faults {cur dt : Nat} (hc : cur < 65536) (hr : cur < 3600 ∨ 44000 < cur) (h4 : s.chip.lampState ≠ 4)
    (hk : s.chip.fab.commits = []) :
    ∃ t, exec (.irefMeasure cur dt) s = .next t ∧ t.pending = s.pending ∧ t.chip.nim = s.chip.nim ∧
      t.chip.lamp.runs = s.chip.lamp.runs ∧ t.chip.pwr = s.chip.pwr ∧ t.chip.lampState = 4 ∧
      t.chip.get .LAMP_IREF_CURRENT = cur ∧ t.chip.flag .LAMP_IREF_VALID = false ∧
      t.chip.flag .LAMP_IREF_FAULT = true ∧ t.chip.lampShows = false ∧
      bitAt (t.chip.nat (Reg.PG_EVENT 0xa6)) 8 = true := by
  let stopped := (s.chip.elapse dt).irefStopped cur
  obtain ⟨⟨regs, tile, faults, frame⟩, shown, told⟩ := stopped.irefFault_tells
  obtain ⟨state, current, valid, fault⟩ := (s.chip.elapse dt).irefStopped_shows hc
  have runs : exec (.irefMeasure cur dt) s =
      .next (s.effect fun c => (((c.elapse dt).irefStopped cur).lampFault 5 0 0).raise .LAMP_IREF_FAULT) :=
    exec_irefMeasure_tile hi he hc (Chip.irefMeasure_faulty hr h4 he)
  obtain ⟨t, ht, hq, settled⟩ := exec_answers runs ((congrArg (·.fab.commits) frame).trans hk)
  have get (f : Fld) (hf : f.reg = Reg.LAMP_STAT ∨ f.reg = Reg.LAMP_IREF) : t.chip.get f = stopped.get f := by
    rw [settled, Chip.settle_get]
    exact shown f hf
  have dark : t.chip.lampState = 4 := (get _ (.inl rfl)).trans state
  refine ⟨t, ht, hq, ?_, ?_, ?_, dark, (get _ (.inr rfl)).trans current, ?_, ?_, Chip.lampShows_irefFault dark, ?_⟩
  · rw [settled, Chip.settle_nim]
    exact congrArg (·.nim) frame
  · rw [settled, Chip.settle_lamp]
    exact congrArg (·.lamp.runs) frame
  · rw [settled, Chip.settle_pwr]
    exact congrArg (·.pwr) frame
  · rw [Chip.flag, get _ (.inr rfl)]
    exact valid
  · rw [Chip.flag, get _ (.inr rfl)]
    exact fault
  · rw [settled, Chip.nat, Chip.settle_rd]
    exact told

end Commands

/-- Settles O50: each command is one case of what the Lamplighter does at the part; a slot's checks leave the slot that is
due. -/
theorem lamplighterRunsItsGrid : Obligations.LamplighterRunsItsGrid := by
  unfold Obligations.LamplighterRunsItsGrid
  intro s hi he
  refine ⟨fun bad micro short => ⟨fun hs hw => ?_, fun hs => ⟨fun hg => ?_, fun g hg => ⟨fun hn => ?_, fun hn => ?_⟩⟩⟩,
    gridSlot_runs, ⟨exec_gridEnd_tile hi he, Chip.gridEnd_first.1, Chip.gridEnd_first.2, fun h => Chip.gridEnd_anchored,
      fun g => Chip.gridEnd_own⟩, fun p mv g hp hg => ?_,
    fun c p r => ⟨c.lampFails_short p r, fun h => Chip.lampFails_open h p r, fun h => Chip.lampFails_held h p r⟩,
    fun cur dt hc => ⟨fun lo up => exec_irefMeasure_tile hi he hc (Chip.irefMeasure_used lo up), irefMeasure_faults hi he hc⟩,
    fun c => ⟨fun hp ho n r hs => ⟨Chip.pinTest_sweep hp ho hs false, Chip.pinTest_sweep hp ho hs true⟩,
      fun hp ho => Chip.pinTest_none hp ho,
      fun g n m r rest hp => ⟨Chip.pinTest_group hp false, Chip.pinTest_group hp true⟩⟩, ?_,
    fun rq ht => ?_, fun rq g k v hg hk ht => ?_, fun b card => ?_⟩
  · exact exec_rowSlot_tile hi (Chip.rowSlot_sweep bad micro short he hs hw)
  · exact exec_rowSlot_tile hi (Chip.rowSlot_idle bad micro short he hs hg)
  · exact exec_rowSlot_tile hi (Chip.rowSlot_over bad micro short he hs hg hn)
  · exact exec_rowSlot_tile hi (Chip.rowSlot_runs bad micro short he hs hg hn)
  · refine ⟨fun hd => exec_pulseSample_tile hi hp (Chip.pulseSample_none hd), fun hd => ?_⟩
    refine ⟨fun hk => exec_pulseSample_tile hi hp (Chip.pulseSample_good hg hd hk), fun n hk hn => ?_⟩
    have failing := Chip.pulseSample_fails hg hd hk hn
    exact ⟨fun long => exec_pulseSample_tile hi hp (failing.trans (if_pos long)),
      fun brief => exec_pulseSample_tile hi hp (failing.trans (if_neg (Nat.not_le.2 brief)))⟩
  · have due {f : Chip → Chip} (h : s.chip.sweepDue = f s.chip) : exec .sweepDue s = .next (s.effect f) :=
      (exec_sweepDue s).trans (State.run_next rfl h)
    refine ⟨fun rq ht => ?_, fun hr h0 idle => due ?_, fun hr h0 busy => due ?_, fun h0 => due (Chip.sweepDue_never h0)⟩
    · have written {f : Chip → Chip} (h : (if s.chip.testing = false then s.chip.sweepStart else s.chip) = f s.chip) :
          exec (.sweepStart rq) s = .next (s.effect f) :=
        (exec_sweepStart ..).trans (State.run_next rfl ((Chip.regWrite_sweepCtrl ht he).trans h))
      exact ⟨fun idle => written (if_pos idle), fun busy => written (if_neg (by simp [busy]))⟩
    · exact (Chip.sweepDue_reached hi he hr h0).trans (if_neg (by simp [idle]))
    · exact (Chip.sweepDue_reached hi he hr h0).trans (if_pos busy)
  · exact (exec_faultListClear ..).trans (State.run_next rfl (Chip.regWrite_faultIdx ht))
  · exact (exec_pinFaultClear ..).trans
      (State.run_next (decide_eq_true ⟨hg, hk⟩) (Chip.regWrite_pinFault hg hk ht v))
  · refine ⟨fun hb hn => exec_descriptorChange_valid hi hb (if_neg hn),
      fun hb hs => exec_descriptorChange_valid hi hb (if_pos hs), fun hb => ?_⟩
    exact (exec_descriptorChange ..).trans (State.run_next rfl (Chip.descriptorChange_invalid hi hb))

end Sys2Proof.Proofs
end

section
/-!
SUPPORT. The frame watchdog of the CSI-2 ports (R251 to R253), the parameter sets of a sensor (R256), the lanes (R272).
-/

namespace Sys2Proof.Machine

open Safety

/-! ### The commands as effects -/

theorem exec_csiFrameStart (p vc ext ecc num dt : Nat) (s : State) :
    exec (.csiFrameStart p vc ext ecc num dt) s = s.run (.csiFrameStart p vc ext ecc num dt) fun c =>
      ((c.elapse dt).csiPacket p vc ext ecc fun c => c.csiStart (4 * p + vc) num).domSync := rfl

theorem exec_csiLongPacket (p vc ext ecc type : Nat) (crc : Bool) (codes : List Nat) (dt : Nat) (s : State) :
    exec (.csiLongPacket p vc ext ecc type crc codes dt) s = s.run (.csiLongPacket p vc ext ecc type crc codes dt) fun c =>
      (c.elapse dt).csiPacket p vc ext ecc fun c => c.csiLong p vc type crc codes := rfl

theorem exec_csiFrameEnd (p vc ext ecc num dt : Nat) (s : State) :
    exec (.csiFrameEnd p vc ext ecc num dt) s = s.run (.csiFrameEnd p vc ext ecc num dt) fun c =>
      ((c.elapse dt).csiPacket p vc ext ecc fun c => c.csiEnd (4 * p + vc) num).domSync := rfl

theorem exec_csiFrameTimeout (v : Nat) (s : State) :
    exec (.csiFrameTimeout v) s = s.run (.csiFrameTimeout v) fun c => ((c.csiElapse v).csiTimeout v).domSync := rfl

theorem exec_sensorApply (rq : Requester) (v : Nat) (s : State) :
    exec (.sensorApply rq v) s = s.run (.sensorApply rq v) fun c => c.regWrite rq (Reg.HALO_S_APPLY v) 1 noVerdict := rfl

theorem exec_csiLinkActive (p stop : Nat) (s : State) :
    exec (.csiLinkActive p stop) s = s.run (.csiLinkActive p stop) fun c =>
      c.csiLanes p true stop fun c => c.raise (.CSI_LINK_ACTIVE p) := rfl

theorem exec_csiLinkStop (p stop : Nat) (act : Bool) (s : State) :
    exec (.csiLinkStop p stop act) s = s.run (.csiLinkStop p stop act) fun c =>
      c.csiLanes p act stop fun c => c.raise (.CSI_LINK_STOP p) := rfl

theorem exec_csiSkewCalibration (p : Nat) (ok : Bool) (s : State) :
    exec (.csiSkewCalibration p ok) s = s.run (.csiSkewCalibration p ok) fun c => c.skewCal p ok := rfl

/-! ### Packets (R251, R252) -/

section Packets

variable {c : Chip} {p vc : Nat} (he : c.enabled (0x49 + p) = true) (f : Chip → Chip)

include he

/-- A packet whose header cannot be corrected is counted and told, and goes no further. -/
theorem Chip.csiPacket_uncorrectable (ext : Nat) {ecc : Nat} (h : 2 ≤ ecc) :
    c.csiPacket p vc ext ecc f = (c.count (Reg.CSI_ECC_ERR p)).raise (.CSI_ECC_ERR p) := by
  have h0 : ecc ≠ 0 := by omega
  have h1 : ecc ≠ 1 := by omega
  simp [Chip.csiPacket, Chip.csiHeader, he, h0, h1]

/-- A packet with a virtual channel extension is dropped. -/
theorem Chip.csiPacket_extended {ext : Nat} (h : ext ≠ 0) :
    c.csiPacket p vc ext 0 f = c.count (Reg.CSI_FRAME_DROP p) := by
  simp [Chip.csiPacket, Chip.csiHeader, Chip.csiOutside, he, h]

theorem Chip.csiPacket_extended_corrected {ext : Nat} (h : ext ≠ 0) :
    c.csiPacket p vc ext 1 f = (c.count (Reg.CSI_ECC_CORR p)).count (Reg.CSI_FRAME_DROP p) := by
  simp [Chip.csiPacket, Chip.csiHeader, Chip.csiOutside, he, h]

/-- A good packet of a received channel goes on. -/
theorem Chip.csiPacket_received (hv : c.vcOn (4 * p + vc) = true) : c.csiPacket p vc 0 0 f = f c := by
  simp [Chip.csiPacket, Chip.csiHeader, he, hv]

end Packets

/-! ### Frames (R253, R256) -/

/-- A frame begins with the pending parameter set, if there is one. -/
def Chip.frameOpened (c : Chip) (v num : Nat) : Chip :=
  (c.onSensor v fun x => { x with
    working := x.pending.getD x.working, pending := none
    frame := some ⟨num, c.age, c.bell.tick, c.enabled 0x48, [], 0⟩ }).put (.HALO_S_STAT_PENDING v) 0

section Frames

variable {c : Chip} {v : Nat}

/-- A change of a sensor depends on what the change makes of it alone. -/
theorem Chip.onSensor_congr {f g : Sensor → Sensor} (h : f (c.sensor v) = g (c.sensor v)) :
    c.onSensor v f = c.onSensor v g := by
  simp only [Chip.onSensor, h]

theorem Chip.csiStart_idle (hf : (c.sensor v).frame = none) (num : Nat) : c.csiStart v num = c.frameOpened v num := by
  simp only [Chip.csiStart, hf, Option.isSome_none, Chip.when_false]
  rfl

theorem Chip.csiEnd_idle (hf : (c.sensor v).frame = none) (num : Nat) : c.csiEnd v num = c := by
  simp only [Chip.csiEnd, hf]

theorem Chip.csiTimeout_idle (hf : (c.sensor v).frame = none) : (c.csiElapse v).csiTimeout v = c := by
  simp only [Chip.csiElapse, Chip.csiTimeout, hf]

variable {f : CsiFrame} (hf : (c.sensor v).frame = some f)

include hf

/-- A frame start drops the frame that is still open. -/
theorem Chip.csiStart_open (num : Nat) : c.csiStart v num = (c.csiDrop v 6).frameOpened v num := by
  simp only [Chip.csiStart, hf, Option.isSome_some, Chip.when_true]
  rfl

/-- A line as configured joins its frame. -/
theorem Chip.csiLine_joins {codes : List Nat} (hw : codes.length = c.get (.CSI_VC_SIZE_WIDTH (v / 4) (v % 4)))
    (hh : f.lines.length < c.get (.CSI_VC_SIZE_HEIGHT (v / 4) (v % 4))) :
    c.csiLine v true codes = c.onSensor v fun x => { x with frame := some { f with lines := codes :: f.lines } } := by
  simp only [Chip.csiLine, Bool.not_true, Chip.when_false]
  refine Chip.onSensor_congr ?_
  simp only [hf, hw, hh, Option.map_some, if_true]

/-- What a frame end makes of the open frame, in the order of its causes. -/
theorem Chip.csiEnd_open {h : Nat} {size : Bool} (num : Nat) (hh : c.get (.CSI_VC_SIZE_HEIGHT (v / 4) (v % 4)) = h)
    (hs : (sizeOk h && sizeOk (c.get (.CSI_VC_SIZE_WIDTH (v / 4) (v % 4)))) = size) : c.csiEnd v num =
    if size = false then c.csiDrop v 7
    else if c.csiLate v f = true then c.csiDrop v 1
    else if f.cause ≠ 0 then c.csiDrop v f.cause
    else if f.lines.length ≠ h then c.csiDrop v 2
    else if f.num ≠ num then c.csiDrop v 5
    else c.csiAccept v f := by
  simp only [Chip.csiEnd, hf, hh, ← hs, ← Bool.not_and, Bool.not_eq_true']

/-- A frame that is still open when its time is past is dropped. -/
theorem Chip.csiTimeout_late {t : Nat} (ht : c.csiTmo v = some t) :
    (c.csiElapse v).csiTimeout v = (c.elapseAge (f.at_ + t + 1)).csiDrop v 1 := by
  have reached := c.le_age_elapseAge (f.at_ + t + 1)
  obtain ⟨age, bell, e⟩ := c.elapseAge_eq (f.at_ + t + 1)
  have still : ((c.elapseAge (f.at_ + t + 1)).sensor v).frame = some f := by rw [e]; exact hf
  have limit : (c.elapseAge (f.at_ + t + 1)).csiTmo v = some t := by rw [e]; exact ht
  have late : (c.elapseAge (f.at_ + t + 1)).csiLate v f = true := by
    simp only [Chip.csiLate, limit, decide_eq_true_eq]
    omega
  simp only [Chip.csiElapse, hf, ht, Chip.csiTimeout, still, late, if_true]

end Frames

/-! ### A dropped frame (R150, R253) -/

theorem listPut_eq_set {α : Type} (l : List α) (n : Nat) (v : α) : listPut l n v = l.set n v := by
  induction l generalizing n with
  | nil => rfl
  | cons x r ih =>
    cases n with
    | zero => rfl
    | succ n => exact congrArg (x :: ·) (ih n)

theorem listAt_listPut_ne {α : Type} (l : List α) {n m : Nat} (v d : α) (h : m ≠ n) :
    listAt (listPut l n v) m d = listAt l m d := by
  simp only [listAt, listPut_eq_set, List.getD_eq_getElem?_getD, List.getElem?_set_ne h.symm]

@[simp] theorem Chip.raise_halo (c : Chip) (e : Ev) : (c.raise e).halo = c.halo := by
  obtain ⟨_, _, h⟩ := c.raise_eq e
  rw [h]

/-- What Halo's watchdog discards leaves Halo. -/
@[simp] theorem Chip.liveBad_halo (c : Chip) (v : Nat) : (c.liveBad v).halo = c.halo := by
  refine Chip.each_keeps (·.halo) _ (fun d m => ?_) ctxNames c
  dsimp only
  split
  · simp
  · rfl

theorem Chip.each_keeps_mem {α β : Type} (g : Chip → β) (f : Chip → α → Chip) (l : List α)
    (hf : ∀ x ∈ l, ∀ c, g (f c x) = g c) (c : Chip) : g (c.each l f) = g c :=
  List.foldlRecOn l f (motive := fun d => g d = g c) rfl fun d hd x hx => (hf x hx d).trans hd

theorem mem_ctxNames_lt {m : Nat × Nat} (h : m ∈ ctxNames) : m.1 < 4 ∧ m.2 < 4 := by
  obtain ⟨n, hn, rfl⟩ := List.mem_map.1 h
  have := List.mem_range.1 hn
  omega

/-- What Halo's watchdog discards is counted in the ingest pages. -/
theorem Chip.rd_liveBad (c : Chip) (v : Nat) {a : Nat} (h : a / 0x1000 < 0x42 ∨ 0x45 < a / 0x1000)
    (h30 : a / 0x1000 ≠ 0x30) : (c.liveBad v).rd a = c.rd a := by
  refine Chip.each_keeps_mem (·.rd a) _ ctxNames (fun m hm d => ?_) c
  obtain ⟨hp, hk⟩ := mem_ctxNames_lt hm
  dsimp only
  split
  · rw [Chip.rd_raise_page _ _ (by dsimp only; omega) h30, Chip.count,
      Chip.rd_countBy_ne _ _ (by simp only [Reg.INGEST_CTX_FRAME_BAD]; omega)]
  · rfl

section Dropped

variable (c : Chip) (v k : Nat)

theorem Chip.csiDrop_halo : (c.csiDrop v k).halo = (c.onSensor v fun s => { s with frame := none }).halo := by
  simp only [Chip.csiDrop, Chip.liveBad_halo, Chip.when]
  split <;> simp [Chip.onSensor, Chip.sensor]

theorem Chip.frame_csiDrop : ((c.csiDrop v k).sensor v).frame = none := by
  rw [Chip.sensor, Chip.csiDrop_halo]
  rcases listAt_listPut_same c.halo.sensors v { c.sensor v with frame := none } sensorReset with h | ⟨h, _⟩
  · exact congrArg Sensor.frame h
  · exact congrArg Sensor.frame h

theorem Chip.sensor_csiDrop_ne {w : Nat} (h : w ≠ v) : (c.csiDrop v k).sensor w = c.sensor w := by
  rw [Chip.sensor, Chip.csiDrop_halo]
  exact listAt_listPut_ne _ _ _ h

/-- Of its own page a drop changes the count and the cause alone, beside the header. -/
theorem Chip.rd_csiDrop {a : Nat} (h4 : 0x40 ≤ a % 0x1000) (hp : 0x49 ≤ a / 0x1000) :
    (c.csiDrop v k).rd a = ((c.count (Reg.CSI_FRAME_DROP (v / 4))).put (.CSI_VC_STAT_CAUSE (v / 4) (v % 4)) k).rd a := by
  have discarded (d : Chip) (b : Bool) : (d.when b fun c => c.count Reg.HALO_ACC_DISCARD).rd a = d.rd a := by
    cases b with
    | false => rfl
    | true => exact Chip.rd_countBy_ne _ _ (by rintro rfl; exact absurd hp (by decide))
  simp only [Chip.csiDrop]
  rw [Chip.rd_liveBad _ _ (by omega) (by omega), discarded]
  exact Chip.rd_raise_above_header _ _ h4 (by omega)

theorem Chip.cause_csiDrop (hk : k < 16) : (c.csiDrop v k).get (.CSI_VC_STAT_CAUSE (v / 4) (v % 4)) = k := by
  have shown := c.rd_csiDrop v k (a := Reg.CSI_VC_STAT (v / 4) (v % 4)) (by simp only [Reg.CSI_VC_STAT]; omega)
    (by simp only [Reg.CSI_VC_STAT]; omega)
  rw [Chip.get, shown]
  exact (Chip.get_put_same _ _ k (show 31 < 32 by decide)).trans (Nat.mod_eq_of_lt hk)

theorem Chip.count_csiDrop : (c.csiDrop v k).nat (Reg.CSI_FRAME_DROP (v / 4)) =
    min (c.nat (Reg.CSI_FRAME_DROP (v / 4)) + 1) 0xffffffff := by
  have counted := c.rd_csiDrop v k (a := Reg.CSI_FRAME_DROP (v / 4)) (by simp only [Reg.CSI_FRAME_DROP]; omega)
    (by simp only [Reg.CSI_FRAME_DROP]; omega)
  rw [Chip.nat, counted, Chip.rd_put_ne _ _ _ (by simp only [Reg.CSI_FRAME_DROP, Reg.CSI_VC_STAT]; omega)]
  exact c.nat_countBy_same _ 1

end Dropped

/-! ### A write of HALO_Sv_APPLY (R256) -/

theorem Chip.haloHook_apply (c st : Chip) {v : Nat} (hv : v < 8) :
    c.haloHook st (Reg.HALO_S_APPLY v) 1 = c.sensorApply v := by
  have other : ∀ v < 8, Reg.HALO_S_APPLY v ≠ Reg.HALO_ACC_CTRL ∧ Reg.HALO_S_APPLY v ≠ Reg.HALO_JOB_CTRL ∧
      Reg.HALO_S_APPLY v ≠ Reg.HALO_PUSH_CTRL ∧ accRegs.contains (Reg.HALO_S_APPLY v) = false ∧
      ¬ (Reg.HALO_S_APPLY v = Reg.HALO_LIM_DIAG ∨ Reg.HALO_S_APPLY v = Reg.HALO_LIM_MISC) ∧
      idxIn (Reg.HALO_S_APPLY v) (Reg.HALO_S_APPLY 0) 8 0x20 = some v := by decide
  obtain ⟨acc, job, push, setting, limit, index⟩ := other v hv
  have one : bitsOf 1 0 0 = 1 := by decide
  unfold Chip.haloHook
  rw [if_neg acc, if_neg job, if_neg push, setting, if_neg (by simp), if_neg fun h => limit h.1, index]
  exact if_pos one

/-- APPLY makes the staging set pending. -/
theorem Chip.regWrite_sApply {c : Chip} {rq : Requester} {v : Nat} {x : Verdict} (hv : v < 8)
    (ht : takes c rq (Reg.HALO_S_APPLY v) = true) : c.regWrite rq (Reg.HALO_S_APPLY v) 1 x = c.sensorApply v := by
  have place : ∀ v < 8, rowOf (Reg.HALO_S_APPLY v) = some ⟨0x114, 8, 0x20, .wo, 0x00000000, 0x00000001, .plain⟩ ∧
      Reg.HALO_S_APPLY v / 0x1000 = 0x48 ∧ ¬ Reg.HALO_S_APPLY v % 0x1000 < 0x40 := by decide
  obtain ⟨row, page, above⟩ := place v hv
  have class_ : classOf (Reg.HALO_S_APPLY v / 0x1000) = some (.halo, 0) := page ▸ by decide
  have present : c.roleZero (Reg.HALO_S_APPLY v) = false := c.roleZero_other _ (page ▸ by decide)
  exact (c.regWrite_wo rq _ 1 x _ ht row above present rfl class_).trans (c.haloHook_apply c hv)

end Sys2Proof.Machine
end

section
/-!
PROOF. O51: camera packets make frames, and the watchdog lets only whole frames through.
-/

open Sys2Proof Sys2Proof.Machine Sys2Proof.Safety

namespace Sys2Proof.Proofs

section Packets

variable {s : State} {p vc dt num : Nat} {f : Chip → Chip} (hp : p < 2) (hvc : vc < 4)

include hp hvc

theorem exec_csiFrameStart_part {ext ecc : Nat}
    (h : ((s.chip.elapse dt).csiPacket p vc ext ecc fun c => c.csiStart (4 * p + vc) num).domSync = f s.chip) :
    exec (.csiFrameStart p vc ext ecc num dt) s = .next (s.effect f) :=
  (exec_csiFrameStart ..).trans (State.run_next (decide_eq_true ⟨hp, hvc⟩) h)

theorem exec_csiFrameEnd_part {ext ecc : Nat}
    (h : ((s.chip.elapse dt).csiPacket p vc ext ecc fun c => c.csiEnd (4 * p + vc) num).domSync = f s.chip) :
    exec (.csiFrameEnd p vc ext ecc num dt) s = .next (s.effect f) :=
  (exec_csiFrameEnd ..).trans (State.run_next (decide_eq_true ⟨hp, hvc⟩) h)

theorem exec_csiLongPacket_part {ext ecc type : Nat} {crc : Bool} {codes : List Nat}
    (h : ((s.chip.elapse dt).csiPacket p vc ext ecc fun c => c.csiLong p vc type crc codes) = f s.chip) :
    exec (.csiLongPacket p vc ext ecc type crc codes dt) s = .next (s.effect f) :=
  (exec_csiLongPacket ..).trans (State.run_next (decide_eq_true ⟨hp, hvc⟩) h)

end Packets

/-- Settles O51: each packet's command is one case of the watchdog's at the part, and a drop changes its own sensor, cause and
count alone. -/
theorem cameraFramesAreWatched : Obligations.CameraFramesAreWatched := by
  unfold Obligations.CameraFramesAreWatched
  intro s p vc dt num type crc codes hp hvc v d
  have port : v / 4 = p := by omega
  have channel : v % 4 = vc := by omega
  have lt : v < 8 := by omega
  refine ⟨fun on => ?_, fun f t hf ht => ?_, fun hf => ?_, fun rq ht => ?_, fun c k hk _ => ?_⟩
  · have on' : d.enabled (0x49 + p) = true := on
    refine ⟨fun ext ecc bad => ⟨?_, ?_, ?_⟩, fun ext hx => ⟨?_, ?_⟩, fun received => ?_, fun stop hs => ⟨?_, ?_⟩, ?_, ?_⟩
    · exact exec_csiFrameStart_part hp hvc (congrArg Chip.domSync (Chip.csiPacket_uncorrectable on' _ ext bad))
    · exact exec_csiFrameEnd_part hp hvc (congrArg Chip.domSync (Chip.csiPacket_uncorrectable on' _ ext bad))
    · exact exec_csiLongPacket_part hp hvc (Chip.csiPacket_uncorrectable on' _ ext bad)
    · exact exec_csiLongPacket_part hp hvc (Chip.csiPacket_extended on' _ hx)
    · exact exec_csiLongPacket_part hp hvc (Chip.csiPacket_extended_corrected on' _ hx)
    · have goes (f : Chip → Chip) : d.csiPacket p vc 0 0 f = f d := Chip.csiPacket_received on' f received
      have starts {e : Chip} (h : d.csiStart v num = e) :
          (d.csiPacket p vc 0 0 fun c => c.csiStart v num).domSync = e.domSync := congrArg Chip.domSync ((goes _).trans h)
      have ends {e : Chip} (h : d.csiEnd v num = e) :
          (d.csiPacket p vc 0 0 fun c => c.csiEnd v num).domSync = e.domSync := congrArg Chip.domSync ((goes _).trans h)
      refine ⟨fun hf => ?_, fun f hf => ?_, fun f hf => ⟨fun hty hcrc hw hh => ?_, ?_⟩, fun hf => ?_⟩
      · exact exec_csiFrameStart_part hp hvc (starts (Chip.csiStart_idle hf num))
      · exact exec_csiFrameStart_part hp hvc (starts (Chip.csiStart_open hf num))
      · subst crc
        rw [← port, ← channel] at hw hh
        exact exec_csiLongPacket_part hp hvc ((goes _).trans ((if_pos hty).trans (Chip.csiLine_joins hf hw hh)))
      · intro h size drop
        have closes := Chip.csiEnd_open hf num (h := h) (size := size) (by rw [port, channel]; rfl)
          (by rw [port, channel]; rfl)
        have dropped {k : Nat} (e : d.csiEnd v num = d.csiDrop v k) : drop k := exec_csiFrameEnd_part hp hvc (ends e)
        refine ⟨fun hz => dropped ?_, fun hz hl => dropped ?_, fun hz hl hc => dropped ?_, fun hz hl hc hn => dropped ?_,
          fun hz hl hc hn hu => dropped ?_, fun hz hl hc hn hu => ?_⟩
        · simp [closes, hz]
        · simp [closes, hz, hl]
        · simp [closes, hz, hl, hc]
        · simp [closes, hz, hl, hc, hn]
        · simp [closes, hz, hl, hc, hn, hu]
        · have accepted : d.csiEnd v num = d.csiAccept v f := by simp [closes, hz, hl, hc, hn, hu]
          exact exec_csiFrameEnd_part hp hvc (ends accepted)
      · exact exec_csiFrameEnd_part hp hvc (ends (Chip.csiEnd_idle hf num))
    · exact (exec_csiLinkActive ..).trans (State.run_next (decide_eq_true ⟨hp, hs⟩) (if_pos on))
    · exact (exec_csiLinkStop ..).trans (State.run_next (decide_eq_true ⟨hp, hs⟩) (if_pos on))
    · exact (exec_csiSkewCalibration ..).trans (State.run_next (decide_eq_true hp) (by simp [Chip.skewCal, on]))
    · exact (exec_csiSkewCalibration ..).trans (State.run_next (decide_eq_true hp) (by simp [Chip.skewCal, on]))
  · exact (exec_csiFrameTimeout ..).trans
      (State.run_next (decide_eq_true lt) (congrArg Chip.domSync (Chip.csiTimeout_late hf ht)))
  · exact (exec_csiFrameTimeout ..).trans
      (State.run_next (decide_eq_true lt) (congrArg Chip.domSync (Chip.csiTimeout_idle hf)))
  · exact (exec_sensorApply ..).trans (State.run_next (decide_eq_true lt) (Chip.regWrite_sApply lt ht))
  · have cause := c.cause_csiDrop v k hk
    have counted := c.count_csiDrop v k
    rw [port, channel] at cause
    rw [port] at counted
    exact ⟨c.frame_csiDrop v k, cause, counted, fun w hw => c.sensor_csiDrop_ne v k hw⟩

end Sys2Proof.Proofs
end

section
/-!
SUPPORT. Accumulation runs (R259), calibration jobs (R260, R261), pushes (R262, R263) and panel cards (R270).
-/

namespace Sys2Proof.Machine

open Safety

/-! ### The commands as effects -/

theorem exec_accStart (rq : Requester) (s : State) :
    exec (.accStart rq) s = s.run (.accStart rq) fun c => c.regWrite rq Reg.HALO_ACC_CTRL 1 noVerdict := rfl

theorem exec_accAbort (rq : Requester) (s : State) :
    exec (.accAbort rq) s = s.run (.accAbort rq) fun c => c.regWrite rq Reg.HALO_ACC_CTRL 2 noVerdict := rfl

theorem exec_accZeroed (s : State) : exec .accZeroed s = s.run .accZeroed fun c => c.accZeroed.domSync := rfl

theorem exec_accNoFrames (s : State) :
    exec .accNoFrames s = s.run .accNoFrames fun c => c.framesElapse.accNoFrames.domSync := rfl

theorem exec_jobStart (rq : Requester) (s : State) :
    exec (.jobStart rq) s = s.run (.jobStart rq) fun c => c.regWrite rq Reg.HALO_JOB_CTRL 1 noVerdict := rfl

theorem exec_jobAbort (rq : Requester) (s : State) :
    exec (.jobAbort rq) s = s.run (.jobAbort rq) fun c => c.regWrite rq Reg.HALO_JOB_CTRL 2 noVerdict := rfl

theorem exec_jobComputeDone (fail : Nat) (sets : List (Nat × List Byte × List Nat)) (s : State) :
    exec (.jobComputeDone fail sets) s = s.run (.jobComputeDone fail sets) fun c => (c.jobComputed fail sets).domSync := rfl

theorem exec_pushStart (rq : Requester) (all : Bool) (s : State) :
    exec (.pushStart rq all) s = s.run (.pushStart rq all) fun c =>
      c.regWrite rq Reg.HALO_PUSH_CTRL (if all then 5 else 1) noVerdict := rfl

theorem exec_pushAbort (rq : Requester) (s : State) :
    exec (.pushAbort rq) s = s.run (.pushAbort rq) fun c => c.regWrite rq Reg.HALO_PUSH_CTRL 2 noVerdict := rfl

theorem exec_pushDecision (s : State) : exec .pushDecision s = s.run .pushDecision fun c => c.pushDecision.domSync := rfl

theorem exec_pushConfirm (s : State) : exec .pushConfirm s = s.run .pushConfirm fun c => c.pushConfirmation.domSync := rfl

theorem exec_cardWriteDone (i : Nat) (ok : Bool) (s : State) :
    exec (.cardWriteDone i ok) s = s.run (.cardWriteDone i ok) fun c => (c.cardWriteDone i ok).domSync := rfl

/-! ### The control registers -/

section Controls

variable {c : Chip} {rq : Requester} {x : Verdict} (v : Word)

theorem Chip.regWrite_accCtrl (ht : takes c rq Reg.HALO_ACC_CTRL = true) : c.regWrite rq Reg.HALO_ACC_CTRL v x =
    if bitsOf v 1 1 = 1 then c.accAbort 7 else if bitsOf v 0 0 = 1 then c.accStart false else c := by
  have row : rowOf Reg.HALO_ACC_CTRL = some ⟨0x060, 1, 0x0, .wo, 0x00000000, 0x00000003, .plain⟩ := by decide
  have page : classOf (Reg.HALO_ACC_CTRL / 0x1000) = some (.halo, 0) := by decide
  exact c.regWrite_wo rq _ v x _ ht row (by decide) (c.roleZero_other _ (by decide)) rfl page

theorem Chip.regWrite_jobCtrl (ht : takes c rq Reg.HALO_JOB_CTRL = true) : c.regWrite rq Reg.HALO_JOB_CTRL v x =
    if bitsOf v 1 1 = 1 then c.jobAbort else if bitsOf v 0 0 = 1 then c.jobStart else c := by
  have row : rowOf Reg.HALO_JOB_CTRL = some ⟨0x090, 1, 0x0, .wo, 0x00000000, 0x00000003, .plain⟩ := by decide
  have page : classOf (Reg.HALO_JOB_CTRL / 0x1000) = some (.halo, 0) := by decide
  exact c.regWrite_wo rq _ v x _ ht row (by decide) (c.roleZero_other _ (by decide)) rfl page

theorem Chip.regWrite_pushCtrl (ht : takes c rq Reg.HALO_PUSH_CTRL = true) :
    c.regWrite rq Reg.HALO_PUSH_CTRL v x = c.pushCtrl v := by
  have row : rowOf Reg.HALO_PUSH_CTRL = some ⟨0x0b4, 1, 0x0, .wo, 0x00000000, 0x00000007, .plain⟩ := by decide
  have page : classOf (Reg.HALO_PUSH_CTRL / 0x1000) = some (.halo, 0) := by decide
  exact c.regWrite_wo rq _ v x _ ht row (by decide) (c.roleZero_other _ (by decide)) rfl page

/-- START with or without ALL_OR_NONE runs the list of the page's registers. -/
theorem Chip.pushCtrl_start (c : Chip) (all : Bool) : c.pushCtrl (if all then 5 else 1) =
    (c.pushStart (c.nat Reg.HALO_PUSH_LIST_LO / 64 * 64 + 2 ^ 32 * c.get .HALO_PUSH_LIST_HI_ADDR)
      (c.get .HALO_PUSH_COUNT_COUNT) (c.pair Reg.HALO_PUSH_TICK_LO Reg.HALO_PUSH_TICK_HI) all false).1 := by
  cases all <;> rfl

end Controls

/-! ### What a write of the Granary and an event leave -/

@[simp] theorem Chip.gWrite_halo (c : Chip) (a : Nat) (bs : List Byte) : (c.gWrite a bs).halo = c.halo := by
  obtain ⟨⟨_, _, _, _, h⟩, _⟩ := c.gWrite_sameButStored a bs
  rw [h]

@[simp] theorem Chip.gWrite_age (c : Chip) (a : Nat) (bs : List Byte) : (c.gWrite a bs).age = c.age := by
  obtain ⟨⟨_, _, _, _, h⟩, _⟩ := c.gWrite_sameButStored a bs
  rw [h]

/-- A write of the Granary is counted in the pages of the Granary and of the twin link, and told in the Granary's. -/
theorem Chip.rd_gWrite (c : Chip) (a : Nat) (bs : List Byte) {b : Nat} (h74 : b / 0x1000 ≠ 0x74) (h90 : b / 0x1000 ≠ 0x90)
    (h30 : b / 0x1000 ≠ 0x30) : (c.gWrite a bs).rd b = c.rd b := by
  have told : (c.oor a bs.length).rd b = c.rd b := by
    unfold Chip.oor
    split
    · rw [Chip.rd_raise_page _ _ h74 h30]
      exact Chip.rd_countBy_ne _ _ (by rintro rfl; exact h74 rfl)
    · rfl
  have sent (d : Chip) (l : List Byte) : (d.mirror a l).rd b = d.rd b := by
    unfold Chip.mirror
    split
    · exact Chip.rd_countBy_ne _ _ (by rintro rfl; exact h90 rfl)
    · rfl
  unfold Chip.gWrite
  split
  · exact (sent _ _).trans told
  · rfl

/-! ### Runs (R259) -/

/-- The run's counts are cleared, and the zeroing of its array begins. -/
def Chip.runStarted (c : Chip) : Chip :=
  ((c.each [Reg.HALO_ACC_DONE, Reg.HALO_ACC_SAT, Reg.HALO_ACC_SAT_FRAME, Reg.HALO_ACC_DISCARD] fun c a => c.setNat a 0).put
    .HALO_ACC_STAT_CAUSE 0).onHalo fun h =>
      { h with zeroing := true, frameAt := c.age, startTick := c.pair Reg.HALO_ACC_START_LO Reg.HALO_ACC_START_HI }

/-- The run is armed once its array and bitmap hold zeros. -/
def Chip.runArmed (c : Chip) : Chip :=
  let e := (c.elapseAge (c.halo.frameAt + 4096 * c.accBytes)).gWrite c.accBase (List.replicate c.accBytes 0)
  (e.onHalo fun h => { h with zeroing := false, frameAt := e.age }).put .HALO_ACC_STAT_STATE 1

section Runs

variable {c : Chip}

theorem Chip.accStart_busy (h : c.accBusy = true ∨ c.halo.job.isSome = true) :
    c.accStart false = c.put .HALO_ACC_STAT_CAUSE 5 := if_pos (by simpa using h)

theorem Chip.accAbort_busy (h : c.accBusy = true) (cause : Nat) : c.accAbort cause =
    ((((c.onHalo fun h => { h with zeroing := false }).put .HALO_ACC_STAT_STATE 4).put .HALO_ACC_STAT_CAUSE cause).raise
      .HALO_RUN_ABORT).jobFail 6 := if_pos h

theorem Chip.accAbort_idle (h : c.accBusy = false) (cause : Nat) : c.accAbort cause = c := if_neg (by simp [h])

section Start

variable (hb : c.accBusy = false) (hj : c.halo.job = none)

include hb hj

theorem Chip.accStart_refused (h : c.accCause ≠ 0) : c.accStart false = c.put .HALO_ACC_STAT_CAUSE c.accCause := by
  refine (if_neg (by simp [hb, hj])).trans ?_
  cases hk : c.accCause with
  | zero => exact absurd hk h
  | succ k => rfl

/-- The start tick is captured as it stands when the counts are cleared. -/
theorem Chip.accStart_begins (h : c.accCause = 0) : c.accStart false = c.runStarted := by
  refine (if_neg (by simp [hb, hj])).trans ?_
  have tick : (c.each [Reg.HALO_ACC_DONE, Reg.HALO_ACC_SAT, Reg.HALO_ACC_SAT_FRAME, Reg.HALO_ACC_DISCARD] fun c a =>
      c.setNat a 0).pair Reg.HALO_ACC_START_LO Reg.HALO_ACC_START_HI =
        c.pair Reg.HALO_ACC_START_LO Reg.HALO_ACC_START_HI := by
    simp [Chip.pair, Chip.nat, Chip.rd_setNat]
  simp only [h, tick]
  rfl

end Start

section Zeroed

/-- Passing time leaves the run's settings. -/
theorem Chip.accBytes_elapseAge (c : Chip) (t : Nat) : (c.elapseAge t).accBytes = c.accBytes := by
  obtain ⟨_, _, e⟩ := c.elapseAge_eq t
  rw [e]
  rfl

theorem Chip.accBase_elapseAge (c : Chip) (t : Nat) : (c.elapseAge t).accBase = c.accBase := by
  obtain ⟨_, _, e⟩ := c.elapseAge_eq t
  rw [e]
  rfl

theorem Chip.zeroElapse_accArm (hz : c.halo.zeroing = true) : c.zeroElapse.accArm = c.runArmed := by
  have reached : c.zeroElapse = c.elapseAge (c.halo.frameAt + 4096 * c.accBytes) := if_pos hz
  have zeroing : (c.elapseAge (c.halo.frameAt + 4096 * c.accBytes)).halo.zeroing = true := by
    obtain ⟨_, _, e⟩ := c.elapseAge_eq (c.halo.frameAt + 4096 * c.accBytes)
    rw [e]
    exact hz
  simp only [reached, Chip.accArm, zeroing, if_true, Chip.accBytes_elapseAge, Chip.accBase_elapseAge, Chip.runArmed,
    Chip.gWrite_age]

theorem Chip.accState_runArmed (c : Chip) : c.runArmed.accState = 1 := Chip.get_put_same _ _ 1 (show 2 < 32 by decide)

theorem Chip.enabled_runArmed (c : Chip) : c.runArmed.enabled 0x48 = c.enabled 0x48 := by
  have kept : c.runArmed.rd (Reg.PG_STATUS 0x48) = c.rd (Reg.PG_STATUS 0x48) := by
    unfold Chip.runArmed
    refine (Chip.rd_put_ne _ _ _ (by decide)).trans ((Chip.rd_gWrite _ _ _ (by decide) (by decide) (by decide)).trans ?_)
    simp only [Chip.rd, Chip.elapseAge_regs]
  simp only [Chip.enabled, Chip.flag, Chip.get, kept]

variable (hz : c.halo.zeroing = true)

include hz

theorem Chip.accZeroed_arms (he : c.enabled 0x48 = true) : c.accZeroed = c.runArmed := by
  simp [Chip.accZeroed, Chip.zeroElapse_accArm hz, Chip.enabled_runArmed, he]

theorem Chip.accZeroed_ends (he : c.enabled 0x48 = false) : c.accZeroed = c.runArmed.accAbort 8 := by
  simp [Chip.accZeroed, Chip.zeroElapse_accArm hz, Chip.accState_runArmed, Chip.enabled_runArmed, he]

end Zeroed

/-- A second without an accepted frame ends the run. -/
theorem Chip.accNoFrames_ends (h : c.accState = 1 ∨ c.accState = 2) (hz : c.halo.zeroing = false) :
    c.framesElapse.accNoFrames = (c.elapseAge (c.halo.frameAt + ms 1000)).accAbort 6 := by
  have reached := c.le_age_elapseAge (c.halo.frameAt + ms 1000)
  have second : ms 1000 = 65536000000000 := by decide
  obtain ⟨age, bell, e⟩ := c.elapseAge_eq (c.halo.frameAt + ms 1000)
  have elapsed : c.framesElapse = c.elapseAge (c.halo.frameAt + ms 1000) := if_pos h
  rw [elapsed]
  rw [e] at reached ⊢
  exact if_pos ⟨h, hz, by dsimp only at reached ⊢; omega⟩

theorem Chip.accNoFrames_idle (h1 : c.accState ≠ 1) (h2 : c.accState ≠ 2) : c.framesElapse.accNoFrames = c := by
  have still : c.framesElapse = c := if_neg (by simp [h1, h2])
  rw [still]
  exact if_neg (by simp [h1, h2])

end Runs

/-! ### Jobs (R260, R261) -/

/-- The job's computation has written the list: the job pushes it. -/
def Chip.jobPushes (d : Chip) (j : Job) : Chip :=
  let r := (d.setJob 4).pushStart j.out j.tiles.length (d.pair Reg.HALO_JOB_TICK_LO Reg.HALO_JOB_TICK_HI) false true
  if r.2 then r.1 else r.1.jobFail 7

section Jobs

variable {c : Chip} {j : Job}

theorem Chip.jobStart_busy (h : (c.halo.job.isSome || c.accBusy || c.halo.push.isSome) = true) :
    c.jobStart = c.put .HALO_JOB_STAT_CAUSE 9 := if_pos h

section Start

/-- A START that finds something wrong fails with the cause. -/
def Chip.jobRefused (c : Chip) (k : Nat) : Chip := ((c.setJob 7).put .HALO_JOB_STAT_CAUSE k).raise .HALO_JOB_FAIL

/-- The address of the job's record. -/
def Chip.jobAt (c : Chip) : Nat := c.nat Reg.HALO_JOB_LO / 256 * 256 + 2 ^ 32 * c.get .HALO_JOB_HI_ADDR

variable (idle : (c.halo.job.isSome || c.accBusy || c.halo.push.isSome) = false)

include idle

theorem Chip.jobStart_disabled (he : c.enabled 0x48 = false) : c.jobStart = c.jobRefused 10 :=
  (if_neg (by simp [idle])).trans (if_pos he)

variable (he : c.enabled 0x48 = true)

include he

theorem Chip.jobStart_mode (hm : c.mode ≠ 5) : c.jobStart = c.jobRefused 2 :=
  (if_neg (by simp [idle])).trans ((if_neg (by simp [he])).trans (if_pos hm))

variable (hm : c.mode = 5)

include hm

theorem Chip.jobStart_format (hr : c.readJob c.jobAt = none) : c.jobStart = c.jobRefused 1 := by
  refine (if_neg (by simp [idle])).trans ((if_neg (by simp [he])).trans ((if_neg (by simp [hm])).trans ?_))
  rw [Chip.jobAt] at hr
  rw [hr]
  rfl

theorem Chip.jobStart_begins (hr : c.readJob c.jobAt = some j) : c.jobStart =
    (((c.setJob 1).put .HALO_JOB_STAT_CAUSE 0).onHalo fun h => { h with job := some j }).jobAsk := by
  refine (if_neg (by simp [idle])).trans ((if_neg (by simp [he])).trans ((if_neg (by simp [hm])).trans ?_))
  rw [Chip.jobAt] at hr
  rw [hr]

end Start

theorem Chip.jobAbort_none (hj : c.halo.job = none) : c.jobAbort = c := by simp only [Chip.jobAbort, hj]

/-- A job that is measuring ends with its run. -/
theorem Chip.jobAbort_measuring (hj : c.halo.job = some j) (hp : c.halo.push = none) :
    c.jobAbort = (c.jobFail 8).accAbort 7 := by
  simp only [Chip.jobAbort, hj, hp, Option.any_none, Chip.when_false]

theorem Chip.jobComputed_fails (hj : c.halo.job = some j) {fail : Nat} (hf : fail = 3 ∨ fail = 4)
    (hs : c.get .HALO_JOB_STAT_STATE < 4) (sets : List (Nat × List Byte × List Nat)) :
    c.jobComputed fail sets = c.jobFail fail := by
  simp only [Chip.jobComputed, hj, if_pos hf, if_pos hs]

theorem Chip.jobComputed_lists (hj : c.halo.job = some j) (hs : c.get .HALO_JOB_STAT_STATE = 3)
    (sets : List (Nat × List Byte × List Nat)) : c.jobComputed 0 sets =
      (c.each (List.range j.tiles.length) fun d i => d.jobEntry j i (listAt sets i (0, [], [])).1
        (listAt sets i (0, [], [])).2.1 (listAt sets i (0, [], [])).2.2).jobPushes j := by
  have good : ¬ ((0 : Nat) = 3 ∨ (0 : Nat) = 4) := by decide
  simp only [Chip.jobComputed, hj, if_neg good, hs, ne_eq, not_true_eq_false, if_false, Chip.jobPushes]

end Jobs

/-! ### The start and the end of a push (R262, R263) -/

/-- A push begins with the entries of its list as they read. -/
def Chip.pushBegun (c : Chip) (base cnt t : Nat) (all : Bool) : Chip :=
  (((c.put .HALO_PUSH_STAT_CAUSE 0).put .HALO_PUSH_STAT_STATE 1).put .HALO_PUSH_STAT_SWITCHED 0).onHalo fun h =>
    { h with push := some ⟨t, all, base, (List.range (min cnt 4096)).map (c.readEntry base), false, false⟩ }

section PushStart

variable {c : Chip} {base cnt t : Nat} {all : Bool}

theorem Chip.pushStart_busy (h : (c.halo.push.isSome || !c.halo.cards.isEmpty || c.halo.job.isSome) = true) :
    (c.pushStart base cnt t all false).1 = c.put .HALO_PUSH_STAT_CAUSE 2 := by
  unfold Chip.pushStart
  rw [Bool.not_false, Bool.and_true, if_pos h]

variable (idle : (c.halo.push.isSome || !c.halo.cards.isEmpty || c.halo.job.isSome) = false)

include idle

theorem Chip.pushStart_empty (h0 : cnt = 0) : (c.pushStart base cnt t all false).1 =
    (((c.put .HALO_PUSH_STAT_CAUSE 0).put .HALO_PUSH_STAT_STATE 5).put .HALO_PUSH_STAT_SWITCHED 0).raise .HALO_PUSH_DONE := by
  unfold Chip.pushStart
  rw [Bool.not_false, Bool.and_true, if_neg (by simp [idle]), if_pos h0]

variable (h0 : cnt ≠ 0)

include h0

theorem Chip.pushStart_late (ht : t < c.lastIndex + 64) :
    (c.pushStart base cnt t all false).1 = c.put .HALO_PUSH_STAT_CAUSE 1 := by
  unfold Chip.pushStart
  rw [Bool.not_false, Bool.and_true, if_neg (by simp [idle]), if_neg h0, if_pos ht]

variable (ht : c.lastIndex + 64 ≤ t)

include ht

theorem Chip.pushStart_begins : (c.pushStart base cnt t all false).1 =
    if c.enabled 0x48 = true then
      ((List.range (min cnt 4096)).map (c.readEntry base)).foldl Chip.pushLoad (c.pushBegun base cnt t all)
    else (c.pushBegun base cnt t all).pushEnd 6 := by
  have on : (c.pushBegun base cnt t all).enabled 0x48 = c.enabled 0x48 := by
    refine (Chip.enabled_put_ne _ _ _ _ (by decide)).trans ?_
    exact (Chip.enabled_put_ne _ _ _ _ (by decide)).trans (Chip.enabled_put_ne _ _ _ _ (by decide))
  rw [← on]
  unfold Chip.pushStart
  rw [Bool.not_false, Bool.and_true, if_neg (by simp [idle]), if_neg h0, if_neg (Nat.not_lt.2 ht)]
  exact apply_ite Prod.fst _ _ _

end PushStart

/-! ### Entries (R263) -/

section Entries

variable (c : Chip) (e : PushEntry)

/-- An entry as it takes another's place in a list. -/
def PushEntry.replaces (e : PushEntry) (l : List PushEntry) : List PushEntry := l.map fun x => if x.idx = e.idx then e else x

theorem Chip.pushEntries_putEntry' : (c.putEntry' e).pushEntries = e.replaces c.pushEntries := by
  unfold Chip.putEntry'
  split
  next h => simp only [Chip.pushEntries, h]; rfl
  next p h => simp only [Chip.pushEntries, Chip.gWrite_halo, Chip.onPush, Chip.onHalo_halo, h, Option.map_some]; rfl

@[simp] theorem Chip.cards_putEntry' : (c.putEntry' e).halo.cards = c.halo.cards := by
  unfold Chip.putEntry'
  split
  · rfl
  · rw [Chip.gWrite_halo]
    rfl

theorem Chip.pushEntries_congr {c d : Chip} (h : d.halo = c.halo) : d.pushEntries = c.pushEntries := by
  simp only [Chip.pushEntries, h]

theorem Chip.pushEntries_entryEnds (status cause bad : Nat) : (c.entryEnds e status cause bad).pushEntries =
    { e with status := status, cause := cause, bad := bad }.replaces c.pushEntries := by
  rw [← Chip.pushEntries_putEntry']
  unfold Chip.entryEnds
  dsimp only
  split
  · exact Chip.pushEntries_congr (Chip.raise_halo _ _)
  · rfl

variable {c e}

/-- An entry that ends keeps its flags, as the other entries do. -/
theorem Chip.flags_entryEnds {status cause bad : Nat} (he : bitAt e.flags 0 = false)
    (h : ∀ x ∈ c.pushEntries, bitAt x.flags 0 = false) :
    ∀ x ∈ (c.entryEnds e status cause bad).pushEntries, bitAt x.flags 0 = false := by
  intro x hx
  rw [Chip.pushEntries_entryEnds] at hx
  obtain ⟨y, hy, rfl⟩ := List.mem_map.1 hx
  split
  · exact he
  · exact h y hy

theorem PushEntry.loaded_eq (h : e.status = 0 → e.waits = 0) : e.loaded = (e.status == 0) := by
  unfold PushEntry.loaded
  cases hs : e.status == 0 with
  | false => rfl
  | true => simp [h (beq_iff_eq.1 hs)]

end Entries

section PushEnds

variable {c : Chip} {p : Push}

theorem Chip.pushStop_none (hp : c.halo.push = none) (cause : Nat) : c.pushStop cause = c := by
  simp only [Chip.pushStop, hp]

variable (hp : c.halo.push = some p)

include hp

theorem Chip.pushEntries_of : c.pushEntries = p.entries := by simp only [Chip.pushEntries, hp]

theorem Chip.pushStop_decided (hd : p.decided = true) (cause : Nat) : c.pushStop cause = c := by
  simp only [Chip.pushStop, hp, hd, if_true]

/-- Nothing follows for a job whose push it is not. -/
theorem Chip.pushDecision_own (hj : p.job = false) : c.pushDecision = c.pushDecide := by
  simp only [Chip.pushDecision, hp, hj, Bool.false_and, Chip.when_false]

theorem Chip.pushConfirmation_own (hj : p.job = false) : c.pushConfirmation = c.pushConfirm := by
  simp only [Chip.pushConfirmation, hp, hj, Bool.false_and, Chip.when_false]

/-! ### Before the decision (R263) -/

section Open

variable (hd : p.decided = false)

include hd

/-- The entries not yet decided become ABORTED. -/
theorem Chip.pushAbort_open (cause : Nat) : c.pushAbort cause =
    ((((p.entries.filter fun e => e.status == 0).foldl (fun d e => d.entryEnds e 5 0 0) c).pushEnd 6).put
      .HALO_PUSH_STAT_CAUSE cause).raise .HALO_PUSH_ABORT := by
  simp only [Chip.pushAbort, hp, hd, Bool.false_eq_true, if_false]
  rfl

theorem Chip.pushStop_open (hj : p.job = false) (cause : Nat) : c.pushStop cause = c.pushAbort cause := by
  simp only [Chip.pushStop, hp, hd, hj, Bool.false_eq_true, if_false, Chip.when_false]

theorem Chip.pushDecide_early (ht : c.lastIndex + 8 < p.t) : c.pushDecide = c := by
  simp only [Chip.pushDecide, hp, hd, ht, decide_true, Bool.or_true, if_true]

/-- The decision is past, and the release state of the loaded entries' tiles is asked for. -/
def Chip.tilesAsked (c : Chip) (p : Push) : Chip :=
  (p.entries.filter fun e => e.status == 0).foldl (fun d e =>
    match d.tileOf e.wdn with
    | none => d
    | some x => d.tileRead x.1 e.wdn Reg.CRIER_FAB_REL_TICK_LO 3)
    ((c.onPush fun q => { q with decided := true }).put .HALO_PUSH_STAT_STATE 2)

/-- With every set loaded no entry fails at the decision. -/
theorem Chip.pushDecide_due (ht : p.t ≤ c.lastIndex + 8) (hw : ∀ e ∈ p.entries, e.status = 0 → e.waits = 0) :
    c.pushDecide = if (p.all && p.entries.any fun e => e.status == 2 || e.status == 3) = true then c.pushAbort 0
      else c.tilesAsked p := by
  have early : ¬ c.lastIndex + 8 < p.t := Nat.not_lt.2 ht
  have none_late : (p.entries.filter fun e => e.status == 0 && !e.loaded) = [] :=
    List.filter_eq_nil_iff.2 fun e he => by simp [PushEntry.loaded_eq (hw e he)]
  have loaded : p.entries.filter PushEntry.loaded = p.entries.filter fun e => e.status == 0 :=
    List.filter_congr fun e he => PushEntry.loaded_eq (hw e he)
  have decided : ((c.onPush fun q => { q with decided := true }).put .HALO_PUSH_STAT_STATE 2).pushEntries = p.entries := by
    simp only [Chip.pushEntries, Chip.put_halo, Chip.onPush, Chip.onHalo_halo, hp, Option.map_some]
  simp only [Chip.pushDecide, hp, hd, early, decide_false, Bool.or_self, Bool.false_eq_true, if_false, none_late,
    Chip.each_nil, Chip.pushEntries_of hp, decided, loaded]
  rfl

end Open

/-! ### The confirmation (R263) -/

/-- Every loaded entry becomes SWITCHED or NOT_CONFIRMED. -/
def Chip.entriesConfirmed (c : Chip) (p : Push) : Chip :=
  (p.entries.filter fun e => e.status == 0).foldl (fun d e => d.entryEnds e (if d.pushConfirmed p e then 1 else 4) 0 0)
    (c.put .HALO_PUSH_STAT_STATE 3)

/-- A confirmed push none of whose entries asks for a panel card is done. -/
theorem Chip.pushConfirm_done (hd : p.decided = true) (ht : p.t + 2 ≤ c.lastIndex) (hs : c.get .HALO_PUSH_STAT_STATE ≠ 4)
    (hf : ∀ e ∈ p.entries, bitAt e.flags 0 = false) : c.pushConfirm = (c.entriesConfirmed p).pushFinish := by
  have due : ¬ c.lastIndex < p.t + 2 := Nat.not_lt.2 ht
  have flags : ∀ x ∈ (c.entriesConfirmed p).pushEntries, bitAt x.flags 0 = false := by
    refine List.foldlRecOn (p.entries.filter fun e => e.status == 0) _
      (motive := fun d : Chip => ∀ x ∈ d.pushEntries, bitAt x.flags 0 = false) ?_ fun d kept e he => ?_
    · exact fun x hx => hf x (Chip.pushEntries_of hp ▸ hx)
    · exact Chip.flags_entryEnds (hf e (List.mem_of_mem_filter he)) kept
  have no_cards : (c.entriesConfirmed p).pushEntries.filter (fun e => e.status == 1 && bitAt e.flags 0) = [] :=
    List.filter_eq_nil_iff.2 fun x hx => by simp [flags x hx]
  have cards : (((c.entriesConfirmed p).pushEntries.filter fun e => e.status == 1 && bitAt e.flags 0).map
      (·.idx)).isEmpty = true := by rw [no_cards]; rfl
  have waits : (!p.decided || decide (c.lastIndex < p.t + 2) || c.get .HALO_PUSH_STAT_STATE == 4) = false := by
    simp [hd, due, hs]
  simp only [Chip.pushConfirm, hp, waits, Bool.false_eq_true, if_false]
  exact if_pos cards

end PushEnds

/-! ### Panel cards (R270) -/

section Cards

variable {c : Chip}

theorem Chip.cardSpoilt_halo (c : Chip) (wdn : Nat) : (c.cardSpoilt wdn).halo = c.halo := by
  unfold Chip.cardSpoilt
  split <;> rfl

theorem Chip.cardWritten_halo (c : Chip) (i : Nat) : (c.cardWritten i).halo = c.halo := by
  unfold Chip.cardWritten
  split
  · rfl
  · split <;> rfl

/-- A card's write shows in the chain's pages alone. -/
theorem Chip.rd_cardWritten (c : Chip) (i : Nat) {a : Nat} (h : a % 0x1000 ≠ 0x44) : (c.cardWritten i).rd a = c.rd a := by
  have kept (n : Nat) (d : Dev) : (c.putDev n d).rd a = c.rd a :=
    Chip.rd_put_ne _ _ _ (by simp only [Reg.CHAIN_STATE]; omega)
  unfold Chip.cardWritten
  split
  · rfl
  · split
    · exact kept _ _
    · rfl

theorem Chip.cardWriteDone_absent {i : Nat} (h : i ∉ c.halo.cards) (ok : Bool) : c.cardWriteDone i ok = c := by
  simp [Chip.cardWriteDone, Chip.cardDone, h]

/-- The cards still to be written. -/
theorem Chip.cards_left {i : Nat} {l r : List Nat} (hc : c.halo.cards = l) (hr : l.filter (· != i) = r) :
    (c.onHalo fun h => { h with cards := h.cards.filter (· != i) }) = c.onHalo fun h => { h with cards := r } := by
  simp only [Chip.onHalo, hc, hr]

section More

variable {i k : Nat} (hk : i ≠ k) (hc : c.halo.cards = [i, k])

include hk hc

/-- A card write that fails is shown in its entry, and the card's record is gone. -/
theorem Chip.cardWriteDone_fails {p : Push} {e : PushEntry} (hp : c.halo.push = some p)
    (he : p.entries.find? (fun x => x.idx == i) = some e) : c.cardWriteDone i false =
      (((c.onHalo fun h => { h with cards := [k] }).putEntry' { e with cause := pushCause 6 }).cardSpoilt e.wdn).raise
        .HALO_CARD_FAIL := by
  have left := Chip.cards_left hc (r := [k]) (i := i) (by simp [hk.symm])
  have listed : c.halo.cards.contains i = true := by simp [hc]
  have entries : (c.onHalo fun h => { h with cards := [k] }).pushEntries = p.entries := Chip.pushEntries_of hp
  simp only [Chip.cardWriteDone, Chip.cardDone, listed, if_true, left, entries, he, Bool.false_eq_true, if_false,
    Chip.raise_halo, Chip.cardSpoilt_halo, Chip.cards_putEntry', Chip.onHalo_halo, List.isEmpty_cons, Chip.when_false]

theorem Chip.cardWriteDone_more : c.cardWriteDone i true = (c.onHalo fun h => { h with cards := [k] }).cardWritten i := by
  have left := Chip.cards_left hc (r := [k]) (i := i) (by simp [hk.symm])
  have listed : c.halo.cards.contains i = true := by simp [hc]
  simp only [Chip.cardWriteDone, Chip.cardDone, listed, if_true, left, Chip.cardWritten_halo, Chip.onHalo_halo,
    List.isEmpty_cons, Bool.false_eq_true, if_false, Chip.when_false]

end More

/-- The end of a push leaves the job's state. -/
theorem Chip.jobStat_pushFinish (c : Chip) : c.pushFinish.get .HALO_JOB_STAT_STATE = c.get .HALO_JOB_STAT_STATE := by
  have kept : c.pushFinish.rd Reg.HALO_JOB_STAT = c.rd Reg.HALO_JOB_STAT :=
    (Chip.rd_raise_above_header _ _ (by decide) (by decide)).trans
      ((Chip.rd_put_ne _ _ _ (by decide)).trans (Chip.rd_put_ne _ _ _ (by decide)))
  simp only [Chip.get, kept]

/-- The last card write ends the push; no job follows it that does not push. -/
theorem Chip.cardWriteDone_last {i : Nat} (hc : c.halo.cards = [i]) (hs : c.get .HALO_JOB_STAT_STATE ≠ 4) :
    c.cardWriteDone i true = ((c.onHalo fun h => { h with cards := [] }).cardWritten i).pushFinish := by
  have left := Chip.cards_left hc (r := []) (i := i) (by simp)
  have listed : c.halo.cards.contains i = true := by simp [hc]
  have state : ((c.onHalo fun h => { h with cards := [] }).cardWritten i).pushFinish.get .HALO_JOB_STAT_STATE ≠ 4 := by
    rw [Chip.jobStat_pushFinish, Chip.get, Chip.rd_cardWritten _ _ (by decide)]
    exact hs
  simp only [Chip.cardWriteDone, Chip.cardDone, listed, if_true, left, Chip.cardWritten_halo, Chip.onHalo_halo,
    List.isEmpty_nil, Chip.when_true, Chip.jobPushed, if_neg state]

end Cards

end Sys2Proof.Machine
end

section
/-!
PROOF. O52: accumulation runs, calibration jobs and pushes start, end and fail as their tables say.
-/

open Sys2Proof Sys2Proof.Machine Sys2Proof.Safety

namespace Sys2Proof.Proofs

section Controls

variable {s : State} {rq : Requester} {f : Chip → Chip}

theorem exec_accStart_part (ht : takes s.chip rq Reg.HALO_ACC_CTRL = true) (h : s.chip.accStart false = f s.chip) :
    exec (.accStart rq) s = .next (s.effect f) :=
  (exec_accStart ..).trans (State.run_next rfl ((Chip.regWrite_accCtrl 1 ht).trans h))

theorem exec_accAbort_part (ht : takes s.chip rq Reg.HALO_ACC_CTRL = true) (h : s.chip.accAbort 7 = f s.chip) :
    exec (.accAbort rq) s = .next (s.effect f) :=
  (exec_accAbort ..).trans (State.run_next rfl ((Chip.regWrite_accCtrl 2 ht).trans h))

theorem exec_jobStart_part (ht : takes s.chip rq Reg.HALO_JOB_CTRL = true) (h : s.chip.jobStart = f s.chip) :
    exec (.jobStart rq) s = .next (s.effect f) :=
  (exec_jobStart ..).trans (State.run_next rfl ((Chip.regWrite_jobCtrl 1 ht).trans h))

theorem exec_jobAbort_part (ht : takes s.chip rq Reg.HALO_JOB_CTRL = true) (h : s.chip.jobAbort = f s.chip) :
    exec (.jobAbort rq) s = .next (s.effect f) :=
  (exec_jobAbort ..).trans (State.run_next rfl ((Chip.regWrite_jobCtrl 2 ht).trans h))

theorem exec_pushStart_part {all : Bool} (ht : takes s.chip rq Reg.HALO_PUSH_CTRL = true)
    (h : (s.chip.pushStart (s.chip.nat Reg.HALO_PUSH_LIST_LO / 64 * 64 + 2 ^ 32 * s.chip.get .HALO_PUSH_LIST_HI_ADDR)
      (s.chip.get .HALO_PUSH_COUNT_COUNT) (s.chip.pair Reg.HALO_PUSH_TICK_LO Reg.HALO_PUSH_TICK_HI) all false).1 = f s.chip) :
    exec (.pushStart rq all) s = .next (s.effect f) :=
  (exec_pushStart ..).trans
    (State.run_next rfl ((Chip.regWrite_pushCtrl _ ht).trans ((Chip.pushCtrl_start _ all).trans h)))

theorem exec_pushAbort_part (ht : takes s.chip rq Reg.HALO_PUSH_CTRL = true) (h : s.chip.pushStop 3 = f s.chip) :
    exec (.pushAbort rq) s = .next (s.effect f) :=
  (exec_pushAbort ..).trans (State.run_next rfl ((Chip.regWrite_pushCtrl 2 ht).trans h))

end Controls

/-- Settles O52: each command is one case of what Halo does at the part. -/
theorem runsJobsAndPushes : Obligations.RunsJobsAndPushes := by
  unfold Obligations.RunsJobsAndPushes
  intro s rq
  refine ⟨fun ht => ?_, fun hz => ?_, fun hs hz => ?_, fun h1 h2 => ?_, fun ht => ?_, fun j fail sets hj => ?_,
    fun all ht => ?_, fun p hp hj => ?_, fun i ok hi => ?_⟩
  · refine ⟨fun busy => ?_, fun idle none => ⟨fun bad => ?_, fun good => ?_⟩, fun busy => ?_, fun idle => ?_⟩
    · exact exec_accStart_part ht (Chip.accStart_busy busy)
    · exact exec_accStart_part ht (Chip.accStart_refused idle none bad)
    · exact exec_accStart_part ht (Chip.accStart_begins idle none good)
    · exact exec_accAbort_part ht (Chip.accAbort_busy busy 7)
    · exact exec_accAbort_part ht (Chip.accAbort_idle idle 7)
  · refine ⟨fun on => ?_, fun off => ?_⟩
    · exact (exec_accZeroed s).trans (State.run_next rfl (congrArg Chip.domSync (Chip.accZeroed_arms hz on)))
    · exact (exec_accZeroed s).trans (State.run_next rfl (congrArg Chip.domSync (Chip.accZeroed_ends hz off)))
  · exact (exec_accNoFrames s).trans (State.run_next rfl (congrArg Chip.domSync (Chip.accNoFrames_ends hs hz)))
  · exact (exec_accNoFrames s).trans (State.run_next rfl (congrArg Chip.domSync (Chip.accNoFrames_idle h1 h2)))
  · refine ⟨fun busy => ?_, fun idle off => ?_, fun idle on mode => ?_, fun idle on mode bad => ?_,
      fun j idle on mode good => ?_, fun none => ?_, fun j hj hp => ?_⟩
    · exact exec_jobStart_part ht (Chip.jobStart_busy busy)
    · exact exec_jobStart_part ht (Chip.jobStart_disabled idle off)
    · exact exec_jobStart_part ht (Chip.jobStart_mode idle on mode)
    · exact exec_jobStart_part ht (Chip.jobStart_format idle on mode bad)
    · exact exec_jobStart_part ht (Chip.jobStart_begins idle on mode good)
    · exact exec_jobAbort_part ht (Chip.jobAbort_none none)
    · exact exec_jobAbort_part ht (Chip.jobAbort_measuring hj hp)
  · refine ⟨fun hf hs => ?_, fun hs => ?_⟩
    · exact (exec_jobComputeDone ..).trans
        (State.run_next rfl (congrArg Chip.domSync (Chip.jobComputed_fails hj hf hs sets)))
    · exact (exec_jobComputeDone ..).trans
        (State.run_next rfl (congrArg Chip.domSync (Chip.jobComputed_lists hj hs sets)))
  · refine ⟨fun busy => ?_, fun idle h0 => ?_, fun idle h0 late => ?_, fun idle h0 due => ⟨fun on => ?_, fun off => ?_⟩,
      fun none => ?_, fun p hp => ⟨fun hd => ?_, fun hd hj => ?_⟩⟩
    · exact exec_pushStart_part ht (Chip.pushStart_busy busy)
    · exact exec_pushStart_part ht (Chip.pushStart_empty idle h0)
    · exact exec_pushStart_part ht (Chip.pushStart_late idle h0 late)
    · exact exec_pushStart_part ht ((Chip.pushStart_begins idle h0 due).trans (if_pos on))
    · exact exec_pushStart_part ht ((Chip.pushStart_begins idle h0 due).trans (if_neg (by simp [off])))
    · exact exec_pushAbort_part ht (Chip.pushStop_none none 3)
    · exact exec_pushAbort_part ht (Chip.pushStop_decided hp hd 3)
    · exact exec_pushAbort_part ht ((Chip.pushStop_open hp hd hj 3).trans (Chip.pushAbort_open hp hd 3))
  · have decides {f : Chip → Chip} (h : s.chip.pushDecide.domSync = f s.chip) :
        exec .pushDecision s = .next (s.effect f) :=
      (exec_pushDecision s).trans (State.run_next rfl ((congrArg Chip.domSync (Chip.pushDecision_own hp hj)).trans h))
    have card {i : Nat} {ok : Bool} {f : Chip → Chip} (h : (s.chip.cardWriteDone i ok).domSync = f s.chip) :
        exec (.cardWriteDone i ok) s = .next (s.effect f) := (exec_cardWriteDone ..).trans (State.run_next rfl h)
    refine ⟨fun hd due hw => ⟨fun all bad => ?_, fun each => ?_⟩, fun hd early => ?_, fun hd ht hs hf => ?_,
      fun e i k hk hc he => ?_, fun i k hk hc => ?_, fun i hc hs => ?_⟩
    · have fails : (p.all && p.entries.any fun e => e.status == 2 || e.status == 3) = true := by simpa [all] using bad
      exact decides (congrArg Chip.domSync ((Chip.pushDecide_due hp hd due hw).trans (if_pos fails)))
    · exact decides (congrArg Chip.domSync ((Chip.pushDecide_due hp hd due hw).trans (if_neg (by simp [each]))))
    · exact decides (congrArg Chip.domSync (Chip.pushDecide_early hp hd early))
    · exact (exec_pushConfirm s).trans (State.run_next rfl (congrArg Chip.domSync
        ((Chip.pushConfirmation_own hp hj).trans (Chip.pushConfirm_done hp hd ht hs hf))))
    · exact card (congrArg Chip.domSync (Chip.cardWriteDone_fails hk hc hp he))
    · exact card (congrArg Chip.domSync (Chip.cardWriteDone_more hk hc))
    · exact card (congrArg Chip.domSync (Chip.cardWriteDone_last hc hs))
  · exact (exec_cardWriteDone ..).trans (State.run_next rfl (congrArg Chip.domSync (Chip.cardWriteDone_absent hi ok)))

end Sys2Proof.Proofs
end

section
/-!
SUPPORT. The Granary's accesses and regions (R277–R283, R287), its channels and refreshes (R284, R285), migration and
retirement (R288–R291), the arbiter (R292–R296).
-/

namespace Sys2Proof.Machine

open Safety

/-! ### The commands as effects -/

theorem exec_granaryRead (req a n : Nat) (e : Ecc) (s : State) : exec (.granaryRead req a n e) s =
    s.run (.granaryRead req a n e) fun c => c.granAsk fun c => c.gRead req a n e := rfl

theorem exec_granaryWrite (req a : Nat) (bs : List Byte) (e : Ecc) (s : State) : exec (.granaryWrite req a bs e) s =
    s.run (.granaryWrite req a bs e) fun c => c.granAsk fun c => c.gWriteReq req a bs e := rfl

theorem exec_regionFill (rq : Requester) (r : Nat) (s : State) : exec (.regionFill rq r) s =
    s.run (.regionFill rq r) fun c => c.regWrite rq Reg.GRAN_MGR_UNW (BitVec.ofNat 32 (0x40000000 + r)) noVerdict := rfl

theorem exec_regionClear (rq : Requester) (r : Nat) (s : State) : exec (.regionClear rq r) s =
    s.run (.regionClear rq r) fun c => c.regWrite rq Reg.GRAN_MGR_UNW (BitVec.ofNat 32 (0x80000000 + r)) noVerdict := rfl

theorem exec_regionFillDone (r : Nat) (s : State) : exec (.regionFillDone r) s =
    s.run (.regionFillDone r) fun c => c.granAsk fun c => c.regionFilled r := rfl

theorem exec_trainingDone (n : Nat) (ok : Bool) (rd wr ms : Nat) (s : State) : exec (.trainingDone n ok rd wr ms) s =
    s.run (.trainingDone n ok rd wr ms) fun c => (c.granAsk fun c => c.trained n ok rd wr ms).domSync := rfl

theorem exec_refresh (n : Nat) (hot : Bool) (fills : List Nat) (s : State) : exec (.refresh n hot fills) s =
    s.run (.refresh n hot fills) fun c => c.granAsk fun c =>
      (c.fillsSeen fills).refresh n hot ((c.urgencies fills).contains 2) := rfl

theorem exec_retrainingPause (n : Nat) (s : State) : exec (.retrainingPause n) s =
    s.run (.retrainingPause n) fun c => c.granAsk fun c => c.retrain n := rfl

theorem exec_patrolScrub (res : List (Nat × Ecc)) (dt : Nat) (s : State) : exec (.patrolScrub res dt) s =
    s.run (.patrolScrub res dt) fun c => (c.elapse dt).granAsk fun c => c.patrol res := rfl

theorem exec_migrationDone (bad : List Nat) (dt : Nat) (s : State) : exec (.migrationDone bad dt) s =
    s.run (.migrationDone bad dt) fun c => ((c.migElapse dt).granAsk fun c => c.migDone bad).deepAfterMigration := rfl

theorem exec_rankRetire (rq : Requester) (n rank : Nat) (s : State) : exec (.rankRetire rq n rank) s =
    s.run (.rankRetire rq n rank) fun c =>
      c.regWrite rq Reg.GRAN_MGR_CTRL (BitVec.ofNat 32 (0x80000000 + 4 * rank + n)) noVerdict := rfl

theorem exec_arbDecision (fills : List Nat) (n : Nat) (reqs : List Nat) (s : State) : exec (.arbDecision fills n reqs) s =
    s.run (.arbDecision fills n reqs) fun c => c.arbTurn fills n reqs := rfl

theorem exec_starve (n : Nat) (s : State) : exec (.starve n) s =
    s.run (.starve n) fun c => if c.isSender && c.granOn then c.starve n else c := rfl

theorem exec_compatSet (rq : Requester) (v : Word) (s : State) : exec (.compatSet rq v) s =
    s.run (.compatSet rq v) fun c => c.regWrite rq Reg.ARB_CFG v noVerdict := rfl

/-- At a sender a requester is heard, and what waited on the Granary follows (R292). -/
theorem Chip.granAsk_sender {c : Chip} (hs : c.isSender = true) (f : Chip → Chip) : c.granAsk f = (f c).granAfter := if_pos hs

/-! ### Accesses -/

/-- An access of at least one byte touches the line and the region of its first byte. -/
theorem first_mem_linesOf {a n : Nat} (h : n ≠ 0) : a / 64 ∈ linesOf a n := by
  rw [linesOf, if_neg h]
  exact List.mem_map.2 ⟨0, List.mem_range.2 (by omega), Nat.zero_add _⟩

theorem first_mem_regionsOf {a n : Nat} (h : n ≠ 0) : a / 2 ^ 20 ∈ regionsOf a n := by
  rw [regionsOf, if_neg h]
  exact List.mem_map.2 ⟨0, List.mem_range.2 (by omega), Nat.zero_add _⟩

section Accesses

variable {c : Chip} {req a n : Nat} {e : Ecc} {bs : List Byte}

/-- An access that lies in one region waits while that region is filled (R281). -/
theorem Chip.gBlocked_filling {r : Nat} (one : regionsOf a (c.belowTop a n) = [r]) (hf : r ∈ c.gran.filling) :
    c.gBlocked a n = true := by
  have some : c.belowTop a n ≠ 0 := fun h => by simp [h, regionsOf] at one
  have first : a / 2 ^ 20 = r := by simpa [one] using first_mem_regionsOf (a := a) some
  have line : a / 64 / 16384 = r := by rw [Nat.div_div_eq_div_mul]; exact first
  exact List.any_eq_true.2 ⟨a / 64, first_mem_linesOf some, by simp [line, hf]⟩

/-- Nothing blocked and nothing waiting, an access goes on at once (R281, R287). -/
theorem Chip.mustWait_free {x : GAcc} (hx : x.clear = false) (hw : c.gran.waiting = []) (hb : c.gBlocked x.addr x.size = false) :
    c.mustWait x = false := by simp [Chip.mustWait, Chip.standsBefore, hx, hw, hb]

theorem Chip.gPerform_read (c : Chip) (req a n : Nat) : c.gPerform ⟨req, a, false, [], n, false⟩ =
    ((c.onBus ⟨req, a, false, [], n, false⟩).gReadCount a n).emit
      (.mem req a ((c.onBus ⟨req, a, false, [], n, false⟩).gPeek a n).1 ((c.onBus ⟨req, a, false, [], n, false⟩).gPeek a n).2) :=
  rfl

section Live

variable (hon : c.granOn = true) (hw : c.gran.waiting = []) (hb : c.gBlocked a n = false) (hin : a < c.granTop)
  (hr : c.gran.written.contains (a / 2 ^ 20) = true)

include hon hw hb hin hr

/-- A read that reaches the DRAM and is answered with the data there, once its correction is counted (R278). -/
theorem Chip.gRead_answered {d : Chip} (h : c.eccMeet req a e = (d, none)) :
    c.gRead req a n e = d.gPerform ⟨req, a, false, [], n, false⟩ := by
  have free := Chip.mustWait_free (c := c) (x := ⟨req, a, false, [], n, false⟩) rfl hw hb
  simp only [Chip.gRead, hw, hon, free, hr, decide_eq_true hin, h]
  rfl

/-- A read that reaches the DRAM and cannot be corrected is answered with data marked poisoned, and its channel freezes (R287). -/
theorem Chip.gRead_failed {d : Chip} {k : Nat × Bool} (h : c.eccMeet req a e = (d, some k)) :
    c.gRead req a n e = ((d.onBus ⟨req, a, false, [], n, false⟩).emit (.mem req a (c.gPeek a n).1 true)).gFreeze
      (c.granMap a).1 req a k.1 k.2 := by
  have free := Chip.mustWait_free (c := c) (x := ⟨req, a, false, [], n, false⟩) rfl hw hb
  simp only [Chip.gRead, hw, hon, free, hr, decide_eq_true hin, h]
  rfl

end Live

theorem Chip.eccMeet_ok (c : Chip) (req a : Nat) : c.eccMeet req a .ok = (c, none) := rfl

theorem Chip.eccMeet_ue (c : Chip) (req a : Nat) (reread : Bool) : c.eccMeet req a (.ue reread) = (c, some (2, reread)) := rfl

/-- Where no device is erased a symbol error is corrected and counted (R278). -/
theorem Chip.eccMeet_ce (sym : Nat) (he : c.flag (.GRAN_CH_STAT_ERASED (c.granMap a).1) = false) :
    c.eccMeet req a (.ce sym) =
      (c.gCorrected (c.granMap a).1 req a (c.granMap a).2.1 (subChannel (c.granMap a).2.2) sym, none) := by
  simp [Chip.eccMeet, Chip.eccSeen, he]

/-- A write into written regions alone lands at once (R281). -/
theorem Chip.gWriteReq_written (hon : c.granOn = true) (hw : c.gran.waiting = []) (hb : c.gBlocked a bs.length = false)
    (hr : ∀ r ∈ regionsOf a (c.belowTop a bs.length), r ∈ c.gran.written) :
    c.gWriteReq req a bs .ok = (c.onBus ⟨req, a, true, bs, 0, false⟩).gWrite a bs := by
  have opened : (regionsOf a (c.belowTop a bs.length)).filter
      (fun r => !(c.gran.written.contains r) && !(c.gran.filling.contains r)) = [] :=
    List.filter_eq_nil_iff.2 fun r h => by simp [hr r h]
  have free := Chip.mustWait_free (c := c) (x := ⟨req, a, true, bs, 0, false⟩) rfl hw hb
  simp only [Chip.gWriteReq, hon, opened, List.append_nil, Bool.not_true, Bool.false_eq_true, if_false, Ecc.ofWrite,
    Chip.eccMeet_ok]
  exact if_neg (ne_true_of_eq_false free)

/-- The first write to a region starts its fill and waits for it (R281). -/
theorem Chip.gWriteReq_opens {r : Nat} (hon : c.granOn = true) (hf : c.gran.filling = [])
    (one : regionsOf a (c.belowTop a bs.length) = [r]) (hr : r ∉ c.gran.written) :
    c.gWriteReq req a bs e = c.onGran fun g => { g with
      filling := [r], waiting := g.waiting ++ [⟨req, a, true, bs, 0, false⟩] } := by
  have blocked : (c.onGran fun g => { g with filling := [r] }).gBlocked a bs.length = true :=
    Chip.gBlocked_filling (r := r) one (List.mem_singleton.2 rfl)
  have waits : (c.onGran fun g => { g with filling := [r] }).mustWait ⟨req, a, true, bs, 0, false⟩ = true := by
    simp [Chip.mustWait, GAcc.size, blocked]
  have opened : c.gran.filling ++ (regionsOf a (c.belowTop a bs.length)).filter
      (fun r => !(c.gran.written.contains r) && !(c.gran.filling.contains r)) = [r] := by simp [one, hf, hr]
  simp only [Chip.gWriteReq, hon, opened]
  exact if_pos waits

end Accesses

/-! ### Regions -/

section Regions

variable {c : Chip} {rq : Requester} {x : Verdict} {r : Nat}

theorem Chip.regWrite_unw (v : Word) (ht : takes c rq Reg.GRAN_MGR_UNW = true) :
    c.regWrite rq Reg.GRAN_MGR_UNW v x = c.granHook c Reg.GRAN_MGR_UNW v := by
  have row : rowOf Reg.GRAN_MGR_UNW = some ⟨0x050, 1, 0x0, .wo, 0x00000000, 0xc001ffff, .plain⟩ := by decide
  have page : classOf (Reg.GRAN_MGR_UNW / 0x1000) = some (.granMgr, 0) := by decide
  exact c.regWrite_wo rq _ v x _ ht row (by decide) (c.roleZero_other _ (by decide)) rfl page

/-- OP = FILL of a region: refused at or beyond TOP (R281). -/
theorem Chip.regWrite_unwFill (hr : r < 2 ^ 17) (ht : takes c rq Reg.GRAN_MGR_UNW = true) :
    c.regWrite rq Reg.GRAN_MGR_UNW (BitVec.ofNat 32 (0x40000000 + r)) x =
      if c.get .GRAN_MGR_TOP_MIB ≤ r then c.reject Reg.GRAN_MGR_UNW else c.regionFill r := by
  have op : bitsOf (BitVec.ofNat 32 (0x40000000 + r)) 31 30 = 1 := by simp only [bitsOf, BitVec.toNat_ofNat]; omega
  have region : bitsOf (BitVec.ofNat 32 (0x40000000 + r)) 16 0 = r := by simp only [bitsOf, BitVec.toNat_ofNat]; omega
  rw [Chip.regWrite_unw _ ht]
  simp [Chip.granHook, op, region]

/-- OP = CLEAR of a region: refused at or beyond TOP (R281). -/
theorem Chip.regWrite_unwClear (hr : r < 2 ^ 17) (ht : takes c rq Reg.GRAN_MGR_UNW = true) :
    c.regWrite rq Reg.GRAN_MGR_UNW (BitVec.ofNat 32 (0x80000000 + r)) x =
      if c.get .GRAN_MGR_TOP_MIB ≤ r then c.reject Reg.GRAN_MGR_UNW else c.regionClear r := by
  have op : bitsOf (BitVec.ofNat 32 (0x80000000 + r)) 31 30 = 2 := by simp only [bitsOf, BitVec.toNat_ofNat]; omega
  have region : bitsOf (BitVec.ofNat 32 (0x80000000 + r)) 16 0 = r := by simp only [bitsOf, BitVec.toNat_ofNat]; omega
  rw [Chip.regWrite_unw _ ht]
  simp [Chip.granHook, op, region]

theorem Chip.regionFill_starts (hw : c.gran.written.contains r = false) (hf : c.gran.filling.contains r = false) :
    c.regionFill r = c.onGran fun g => { g with filling := g.filling ++ [r] } :=
  if_neg (by rw [hw, hf]; decide)

theorem Chip.regionFill_written (hw : c.gran.written.contains r = true) : c.regionFill r = c := if_pos (by rw [hw]; rfl)

/-- A clear with nothing queued takes effect at once. -/
theorem Chip.regionClear_free (hw : c.gran.written.contains r = true) (hq : c.gran.waiting = []) :
    c.regionClear r = c.onGran fun g => { g with
      mem := spKeep (fun b => b / 2 ^ 20 != r) g.mem
      poison := g.poison.filter fun l => l / 16384 != r
      written := g.written.filter (· != r) } := by
  have free : c.mustWait ⟨15, r * 2 ^ 20, true, [], 0, true⟩ = false := by simp [Chip.mustWait, hq]
  exact (if_neg (ne_true_of_eq_false free)).trans (if_pos hw)

/-- A clear waits for the accesses queued to its region. -/
theorem Chip.regionClear_waits (hq : ∃ w ∈ c.gran.waiting, r ∈ regionsOf w.addr w.size) :
    c.regionClear r = c.onGran fun g => { g with
      waiting := g.waiting ++ [⟨15, r * 2 ^ 20, true, [], 0, true⟩] } := by
  have waits : c.mustWait ⟨15, r * 2 ^ 20, true, [], 0, true⟩ = true := by simpa [Chip.mustWait] using hq
  exact if_pos waits

theorem Chip.regionFilled_fills (hf : c.gran.filling.contains r = true) (hw : c.gran.written.contains r = false) :
    c.regionFilled r = (c.onGran fun g => { g with
      filling := g.filling.filter (· != r), written := r :: g.written }).gDrain := by
  simp only [Chip.regionFilled, hf, hw]
  rfl

end Regions

/-! ### What time, fills and events leave -/

@[simp] theorem Chip.elapseAge_gran (c : Chip) (t : Nat) : (c.elapseAge t).gran = c.gran := by
  obtain ⟨_, _, h⟩ := c.elapseAge_eq t
  rw [h]

@[simp] theorem Chip.get_elapseAge (c : Chip) (t : Nat) (f : Fld) : (c.elapseAge t).get f = c.get f := by
  simp only [Chip.get, Chip.rd, Chip.elapseAge_regs]

@[simp] theorem Chip.flag_elapseAge (c : Chip) (t : Nat) (f : Fld) : (c.elapseAge t).flag f = c.flag f := by
  rw [Chip.flag, Chip.get_elapseAge]
  rfl

@[simp] theorem Chip.gchan_elapseAge (c : Chip) (t n : Nat) : (c.elapseAge t).gchan n = c.gchan n := by
  simp only [Chip.gchan, Chip.elapseAge_gran]

@[simp] theorem Chip.raise_gran (c : Chip) (e : Ev) : (c.raise e).gran = c.gran := by
  obtain ⟨_, _, h⟩ := c.raise_eq e
  rw [h]

@[simp] theorem Chip.raise_age (c : Chip) (e : Ev) : (c.raise e).age = c.age := by
  obtain ⟨_, _, h⟩ := c.raise_eq e
  rw [h]

/-- The fills seen leave the Granary (R191). -/
@[simp] theorem Chip.fillsSeen_gran (c : Chip) (fills : List Nat) : (c.fillsSeen fills).gran = c.gran := by
  obtain ⟨⟨_, _, _, _, h⟩, _⟩ :=
    sameRaster_each _ (fun d g => d.fillSeen_sameRaster g (listAt fills g 1024)) ((List.range 4).take fills.length) c
  unfold Chip.fillsSeen
  rw [h]

/-- The fills seen show in SCAN's page, and in the return page of a tile (R130, R191). -/
theorem Chip.rd_fillsSeen (c : Chip) (fills : List Nat) {b : Nat} (h68 : b / 0x1000 ≠ 0x68) (h30 : b / 0x1000 ≠ 0x30) :
    (c.fillsSeen fills).rd b = c.rd b := by
  refine Chip.each_keeps (fun d => d.rd b) _ (fun d g => ?_) _ c
  have lowered (n : Nat) : (d.put ⟨Reg.SCAN_FILL_MIN, 8 * g + 7, 8 * g⟩ n).rd b = d.rd b :=
    Chip.rd_put_ne _ _ _ (show b ≠ Reg.SCAN_FILL_MIN by rintro rfl; exact h68 rfl)
  have told (e : Chip) : (e.raise .SCAN_WM_CRIT).rd b = e.rd b := Chip.rd_raise_page _ _ h68 h30
  simp only [Chip.fillSeen]
  split <;> split
  · exact (told _).trans (lowered _)
  · exact lowered _
  · exact (told _).trans (lowered _)
  · exact lowered _

theorem Chip.get_fillsSeen (c : Chip) (fills : List Nat) {f : Fld} (h68 : f.reg / 0x1000 ≠ 0x68) (h30 : f.reg / 0x1000 ≠ 0x30) :
    (c.fillsSeen fills).get f = c.get f := by simp only [Chip.get, c.rd_fillsSeen fills h68 h30]

@[simp] theorem Chip.gchan_fillsSeen (c : Chip) (fills : List Nat) (n : Nat) : (c.fillsSeen fills).gchan n = c.gchan n := by
  simp only [Chip.gchan, Chip.fillsSeen_gran]

/-! ### Refreshes, pauses, scrubs -/

section Channels

variable {c : Chip} {n : Nat}

/-- A refresh that has come shows what MR4 reports; HOT is told once while that lasts (R285). -/
def Chip.hotShown (c : Chip) (n : Nat) (hot : Bool) : Chip :=
  (c.put (.GRAN_CH_STAT_HOT n) (if hot then 1 else 0)).when (hot && !c.flag (.GRAN_CH_STAT_HOT n)) fun c => c.raise (.GRANCH_HOT n)

/-- The refresh is postponed, or made with or without the retraining pause that is due (R285). -/
def Chip.refreshMade (c : Chip) (n : Nat) (urgent : Bool) : Chip :=
  let g : GChan := { c.gchan n with refAt := c.age }
  if urgent && decide (g.postponed < 4) then c.setGchan n { g with postponed := g.postponed + 1 }
  else if c.pauseFits n urgent then c.setGchan n { g with postponed := 0, retrainDue := false, pauseAt := c.age }
  else c.setGchan n { g with postponed := 0 }

theorem Chip.refresh_made (h : c.chanState n = 2 ∨ c.chanState n = 3) (hot urgent : Bool) : c.refresh n hot urgent =
    ((c.elapseAge ((c.gchan n).refAt + c.refreshEvery n)).hotShown n hot).refreshMade n urgent := if_pos h

theorem Chip.hotShown_keeps (c : Chip) (n : Nat) (hot : Bool) :
    (c.hotShown n hot).gran = c.gran ∧ (c.hotShown n hot).age = c.age := by
  simp only [Chip.hotShown, Chip.when]
  split
  · exact ⟨Chip.raise_gran _ _, Chip.raise_age _ _⟩
  · exact ⟨rfl, rfl⟩

@[simp] theorem Chip.gchan_hotShown (c : Chip) (n m : Nat) (hot : Bool) : (c.hotShown n hot).gchan m = c.gchan m := by
  rw [Chip.gchan, (c.hotShown_keeps n hot).1]
  rfl

@[simp] theorem Chip.hotShown_age (c : Chip) (n : Nat) (hot : Bool) : (c.hotShown n hot).age = c.age := (c.hotShown_keeps n hot).2

/-- A refresh with the fills of the fetch buffers seen: what it reads of its channel is as it was before them. -/
theorem Chip.refresh_fillsSeen (hn : n < 4) (h : c.chanState n = 2 ∨ c.chanState n = 3) (hot urgent : Bool) (fills : List Nat) :
    (c.fillsSeen fills).refresh n hot urgent =
      let d := (c.fillsSeen fills).elapseAge ((c.gchan n).refAt + ns (if c.flag (.GRAN_CH_STAT_HOT n) then 1950 else 3900))
      let e := (d.put (.GRAN_CH_STAT_HOT n) (if hot then 1 else 0)).when
        (hot && !c.flag (.GRAN_CH_STAT_HOT n)) fun d => d.raise (.GRANCH_HOT n)
      let g : GChan := { c.gchan n with refAt := d.age }
      if urgent && decide (g.postponed < 4) then e.setGchan n { g with postponed := g.postponed + 1 }
      else if e.pauseFits n urgent then e.setGchan n { g with postponed := 0, retrainDue := false, pauseAt := d.age }
      else e.setGchan n { g with postponed := 0 } := by
  have page (k : Nat) (hk : k ≠ 0x70 + n) : Reg.GRAN_CH_STAT n / 0x1000 ≠ k := by simp only [Reg.GRAN_CH_STAT]; omega
  have state : (c.fillsSeen fills).chanState n = c.chanState n := c.get_fillsSeen fills (page _ (by omega)) (page _ (by omega))
  have wasHot : (c.fillsSeen fills).flag (.GRAN_CH_STAT_HOT n) = c.flag (.GRAN_CH_STAT_HOT n) :=
    congrArg (· == 1) (c.get_fillsSeen fills (page _ (by omega)) (page _ (by omega)))
  have every : (c.fillsSeen fills).refreshEvery n = ns (if c.flag (.GRAN_CH_STAT_HOT n) then 1950 else 3900) := by
    rw [Chip.refreshEvery, wasHot]
  rw [Chip.refresh_made (by rwa [state]), every, Chip.gchan_fillsSeen]
  simp only [Chip.refreshMade, Chip.gchan_hotShown, Chip.hotShown_age, Chip.gchan_elapseAge, Chip.gchan_fillsSeen]
  simp only [Chip.hotShown, Chip.flag_elapseAge, wasHot]

/-- A channel's next retraining pause falls due (R285). -/
theorem Chip.retrain_due (h : c.chanState n = 2) (ht : c.get (.GRAN_CH_RETRAIN_MS n) ≠ 0) : c.retrain n =
    (c.elapseAge ((c.gchan n).pauseAt + us (1000 * c.get (.GRAN_CH_RETRAIN_MS n)))).setGchan n
      { c.gchan n with retrainDue := true } := by
  simp only [Chip.retrain, if_pos (And.intro h ht), Chip.gchan, Chip.elapseAge_gran]

/-- A patrol scrub that meets no error counts the poisoned lines it reads (R279, R280). -/
theorem Chip.patrol_clean (hon : c.granOn = true) (hh : c.get .GRAN_MGR_SCRUB_HOURS ≠ 0) : c.patrol [] =
    let d := c.elapseAge (c.gran.scrubAt + us (3600000000 * c.get .GRAN_MGR_SCRUB_HOURS))
    (d.countBy Reg.GRAN_MGR_POISON_RD c.gran.poison.length).onGran fun g => { g with scrubAt := d.age } := by
  have due : (c.granOn && c.get .GRAN_MGR_SCRUB_HOURS != 0) = true := by simp [hon, hh]
  simp only [Chip.patrol, due, if_true, Chip.each_nil, Chip.elapseAge_gran]

end Channels

/-! ### Migration and retirement -/

/-- Two parts whose migration, spare and map of retired ranks are the same, with every READY channel of the first READY in the
second. -/
def sameManaged (c d : Chip) : Prop :=
  d.gran.migr = c.gran.migr ∧ d.gran.spareUsed = c.gran.spareUsed ∧ d.gran.disableWait = c.gran.disableWait ∧
    d.rd Reg.GRAN_MGR_STAT = c.rd Reg.GRAN_MGR_STAT ∧ ∀ k, c.chanState k = 2 → d.chanState k = 2

theorem sameManaged.refl (c : Chip) : sameManaged c c := ⟨rfl, rfl, rfl, rfl, fun _ h => h⟩

theorem sameManaged.trans {c d e : Chip} (h : sameManaged c d) (k : sameManaged d e) : sameManaged c e := by
  obtain ⟨hm, hs, hd, hr, hc⟩ := h
  obtain ⟨km, ks, kd, kr, kc⟩ := k
  exact ⟨km.trans hm, ks.trans hs, kd.trans hd, kr.trans hr, fun n h => kc n (hc n h)⟩

theorem sameManaged_ite {c d e : Chip} {q : Prop} [Decidable q] (h : sameManaged c d) (k : sameManaged c e) :
    sameManaged c (if q then d else e) := by
  split
  · exact h
  · exact k

theorem sameManaged_foldl {α : Type} (f : Chip → α → Chip) (hf : ∀ c x, sameManaged c (f c x)) (l : List α) (c : Chip) :
    sameManaged c (l.foldl f c) :=
  Chip.each_induct (sameManaged c) f l (fun d x h => h.trans (hf d x)) c (.refl c)

section Managed

variable (c : Chip)

theorem sameManaged_setNat {a : Nat} (n : Nat) (hm : a ≠ Reg.GRAN_MGR_STAT) (hc : a % 0x1000 ≠ 0x44) :
    sameManaged c (c.setNat a n) := by
  refine ⟨rfl, rfl, rfl, Chip.rd_wr_ne _ _ hm.symm, fun k h => ?_⟩
  have kept : (c.setNat a n).rd (Reg.GRAN_CH_STAT k) = c.rd (Reg.GRAN_CH_STAT k) :=
    Chip.rd_wr_ne _ _ (by rintro rfl; simp only [Reg.GRAN_CH_STAT] at hc; omega)
  rwa [Chip.chanState, Chip.get, kept]

theorem sameManaged_raise (e : Ev) : sameManaged c (c.raise e) := by
  refine ⟨by rw [Chip.raise_gran], by rw [Chip.raise_gran], by rw [Chip.raise_gran],
    Chip.rd_raise_above_header _ _ (by decide) (by decide), fun k h => ?_⟩
  have kept : (c.raise e).rd (Reg.GRAN_CH_STAT k) = c.rd (Reg.GRAN_CH_STAT k) :=
    Chip.rd_raise_above_header _ _ (by simp only [Reg.GRAN_CH_STAT]; omega) (by simp only [Reg.GRAN_CH_STAT]; omega)
  rwa [Chip.chanState, Chip.get, kept]

theorem sameManaged_emit (o : Out) : sameManaged c (c.emit o) := ⟨rfl, rfl, rfl, rfl, fun _ h => h⟩

theorem sameManaged_gran {g : Gran} (hm : g.migr = c.gran.migr) (hs : g.spareUsed = c.gran.spareUsed)
    (hd : g.disableWait = c.gran.disableWait) : sameManaged c { c with gran := g } := ⟨hm, hs, hd, rfl, fun _ h => h⟩

theorem sameManaged_setGchan (n : Nat) (g : GChan) : sameManaged c (c.setGchan n g) := sameManaged_gran c rfl rfl rfl

/-- A channel that becomes READY leaves the manager and the other channels. -/
theorem sameManaged_ready (n : Nat) : sameManaged c (c.put (.GRAN_CH_STAT_STATE n) 2) := by
  refine ⟨rfl, rfl, rfl, Chip.rd_put_ne _ _ _ ?_, fun k h => ?_⟩
  · simp only [Reg.GRAN_MGR_STAT, Reg.GRAN_CH_STAT]; omega
  · by_cases e : k = n
    · subst e
      exact Chip.get_put_same _ _ _ (show 2 < 32 by decide)
    · refine (Chip.get_put_other _ _ _ _ (.inl ?_)).trans h
      simp only [Reg.GRAN_CH_STAT]; omega

theorem sameManaged_oor (a n : Nat) : sameManaged c (c.oor a n) :=
  sameManaged_ite ((sameManaged_setNat _ _ (by decide) (by decide)).trans (sameManaged_raise _ _)) (.refl _)

theorem sameManaged_gReadCount (a n : Nat) : sameManaged c (c.gReadCount a n) :=
  (sameManaged_oor c a n).trans (sameManaged_ite (sameManaged_setNat _ _ (by decide) (by decide)) (.refl _))

theorem sameManaged_mirror (a : Nat) (bs : List Byte) : sameManaged c (c.mirror a bs) :=
  sameManaged_ite ((sameManaged_emit _ _).trans (sameManaged_setNat _ _ (by decide) (by decide))) (.refl _)

theorem sameManaged_gWrite (a : Nat) (bs : List Byte) : sameManaged c (c.gWrite a bs) :=
  sameManaged_ite ((sameManaged_oor c a bs.length).trans
    ((sameManaged_gran _ rfl rfl rfl).trans (sameManaged_mirror _ _ _))) (.refl _)

theorem sameManaged_gPerform (x : GAcc) : sameManaged c (c.gPerform x) := by
  have onBus : sameManaged c (c.onBus x) := sameManaged_ite (sameManaged_emit _ _) (.refl _)
  have cleared : sameManaged c (c.clearNow (x.addr / 2 ^ 20)) := sameManaged_ite (sameManaged_gran _ rfl rfl rfl) (.refl _)
  have answered (d : Chip) : sameManaged d ((d.gReadCount x.addr x.len).emit (.mem x.req x.addr
      (d.gPeek x.addr x.len).1 (d.gPeek x.addr x.len).2)) := (sameManaged_gReadCount _ _ _).trans (sameManaged_emit _ _)
  exact sameManaged_ite cleared (onBus.trans (sameManaged_ite (sameManaged_gWrite _ _ _) (answered _)))

/-- What waits and can go on does so; the manager and its channels stay as they are. -/
theorem sameManaged_gDrain : sameManaged c c.gDrain := by
  have emptied : sameManaged c { c with gran := { c.gran with waiting := [] } } := sameManaged_gran c rfl rfl rfl
  have waits (d : Chip) (x : GAcc) : sameManaged d (d.gWait x) := sameManaged_gran d rfl rfl rfl
  exact emptied.trans (sameManaged_foldl _ (fun d x => sameManaged_ite (waits d x) (sameManaged_gPerform d x)) _ _)

theorem sameManaged_poisonLine (l : Nat) : sameManaged c (c.poisonLine l) :=
  sameManaged_ite (.refl _) (sameManaged_gran _ rfl rfl rfl)

theorem sameManaged_noSpare (n addr : Nat) (reread : Bool) : sameManaged c (c.noSpare n addr reread) := by
  have line : sameManaged c (if reread then c else c.poisonLine (addr / 64)) :=
    sameManaged_ite (.refl _) (sameManaged_poisonLine _ _)
  have told (d : Chip) : sameManaged d ((d.put (.GRAN_CH_STAT_STATE n) 2).raise .GRANMGR_UE_NOSPARE) :=
    (sameManaged_ready d n).trans (sameManaged_raise _ _)
  have lost (d : Chip) (q : Bool) : sameManaged d (if q then d.raise .GRANMGR_SPARE_LOST else d) :=
    sameManaged_ite (sameManaged_raise _ _) (.refl _)
  exact ((line.trans (told _)).trans (lost _ _)).trans (sameManaged_gDrain _)

/-- A channel that froze during the migration becomes READY; the others stay as they are (R291). -/
theorem sameManaged_waitedUe (m : Nat) : sameManaged c (c.waitedUe m) := by
  unfold Chip.waitedUe
  split
  · exact .refl c
  · exact (sameManaged_setGchan c m _).trans (sameManaged_noSpare _ _ _ _)

end Managed

theorem bitAt_setBitAt_true (v n : Nat) : bitAt (setBitAt v n true) n = true := by
  unfold setBitAt
  split
  next h => simpa using h
  next h =>
    have clear : v.testBit n = false := by simpa [bitAt_eq_testBit] using h
    rw [if_pos rfl, bitAt_eq_testBit, Nat.add_comm, Nat.testBit_two_pow_add_eq, clear]
    rfl

/-- A field depends on its register alone. -/
theorem Chip.get_congr {c d : Chip} {f : Fld} (h : c.rd f.reg = d.rd f.reg) : c.get f = d.get f := by simp only [Chip.get, h]

section Shown

variable (c : Chip) (n rank since : Nat)

theorem Chip.chanState_migShow : (c.migShow n rank since).chanState n = 2 := by
  have shown (d : Chip) (k : Nat) : ((d.put (.GRAN_CH_STAT_STATE n) 2).setNat Reg.GRAN_MGR_MIG_MS k).chanState n = 2 := by
    have kept := Chip.rd_wr_ne (d.put (.GRAN_CH_STAT_STATE n) 2) (a := Reg.GRAN_MGR_MIG_MS) (b := Reg.GRAN_CH_STAT n)
      (BitVec.ofNat 32 k) (by simp only [Reg.GRAN_CH_STAT, Reg.GRAN_MGR_MIG_MS]; omega)
    rw [Chip.chanState, Chip.get, Chip.setNat, kept]
    exact Chip.get_put_same _ _ _ (show 2 < 32 by decide)
  exact shown _ _

/-- Of GRAN_MGR_STAT a finished migration's registers show the rank retired and the spare spent (R288). -/
theorem Chip.stat_migShow : (c.migShow n rank since).rd Reg.GRAN_MGR_STAT =
    (((c.put .GRAN_MGR_STAT_RETIRED (setBitAt (c.get .GRAN_MGR_STAT_RETIRED) (2 * n + rank) true)).put
      .GRAN_MGR_STAT_SPARE_AVAIL 0).put .GRAN_MGR_STAT_STATE 1).rd Reg.GRAN_MGR_STAT := by
  have channel (d : Chip) (hi lo v : Nat) : (d.put ⟨Reg.GRAN_CH_STAT n, hi, lo⟩ v).rd Reg.GRAN_MGR_STAT = d.rd Reg.GRAN_MGR_STAT :=
    Chip.rd_put_ne _ _ _ (by simp only [Reg.GRAN_MGR_STAT, Reg.GRAN_CH_STAT]; omega)
  have erased (d : Chip) (b : Bool) :
      (d.when b fun d => d.put (.GRAN_CH_STAT_ERASED n) 0).rd Reg.GRAN_MGR_STAT = d.rd Reg.GRAN_MGR_STAT := by
    cases b
    · rfl
    · exact channel d 15 15 0
  have timed (d : Chip) (k : Nat) : (d.setNat Reg.GRAN_MGR_MIG_MS k).rd Reg.GRAN_MGR_STAT = d.rd Reg.GRAN_MGR_STAT :=
    Chip.rd_wr_ne _ _ (by decide)
  simp only [Chip.migShow, timed, channel, erased, Chip.rd_put, if_true]

theorem Chip.retired_migShow (hn : 2 * n + rank < 8) :
    bitAt ((c.migShow n rank since).get .GRAN_MGR_STAT_RETIRED) (2 * n + rank) = true := by
  rw [Chip.get_congr (c.stat_migShow n rank since), Chip.get_put_other _ _ _ _ (.inr (.inr (show 2 < 4 by decide))),
    Chip.get_put_other _ _ _ _ (.inr (.inr (show 3 < 4 by decide))), Chip.get_put_same _ _ _ (show 11 < 32 by decide),
    bitAt_eq_testBit, Nat.testBit_mod_two_pow, ← bitAt_eq_testBit, bitAt_setBitAt_true]
  simpa using hn

theorem Chip.spare_migShow : (c.migShow n rank since).flag .GRAN_MGR_STAT_SPARE_AVAIL = false := by
  rw [Chip.flag, Chip.get_congr (c.stat_migShow n rank since), Chip.get_put_other _ _ _ _ (.inr (.inr (show 2 < 3 by decide))),
    Chip.get_put_same _ _ _ (show 3 < 32 by decide)]
  rfl

end Shown

/-- The rank's copy is done and shown, the spare spent (R288). -/
def Chip.rankMoved (c : Chip) (n rank since : Nat) (bad : List Nat) : Chip :=
  ((c.migPoison n rank bad).migShow n rank since).onGran fun g => { g with migr := none, spareUsed := true }

/-- RETIRED is told, scanout goes on, and what waited for the migration proceeds (R288, R291). -/
def Chip.migFreed (c : Chip) : Chip :=
  let c := c.raise .GRANMGR_RETIRED
  (c.when (c.scanHold == 1) fun c => { c with scanHold := 2 }).gDrain.each [0, 1, 2, 3] Chip.waitedUe

theorem Chip.migDone_freed {c : Chip} {m : Nat × Nat × Nat} (hm : c.gran.migr = some m) (bad : List Nat)
    (hd : (c.rankMoved m.1 m.2.1 m.2.2 bad).migFreed.gran.disableWait = false) :
    c.migDone bad = (c.rankMoved m.1 m.2.1 m.2.2 bad).migFreed := by
  simp only [Chip.migDone, hm]
  exact if_neg (ne_true_of_eq_false hd)

theorem sameManaged_migFreed (c : Chip) : sameManaged c c.migFreed := by
  have held (d : Chip) : sameManaged d (d.when (d.scanHold == 1) fun d => { d with scanHold := 2 }) :=
    sameManaged_ite ⟨rfl, rfl, rfl, rfl, fun _ h => h⟩ (.refl _)
  exact (((sameManaged_raise c .GRANMGR_RETIRED).trans (held _)).trans (sameManaged_gDrain _)).trans
    (sameManaged_foldl _ sameManaged_waitedUe _ _)

theorem sameManaged_migPoison (c : Chip) (n rank : Nat) (bad : List Nat) : sameManaged c (c.migPoison n rank bad) :=
  sameManaged_foldl _ (fun d l => ((sameManaged_poisonLine d l).trans (sameManaged_setNat _ _ (by decide) (by decide))).trans
    (sameManaged_raise _ _)) _ c

theorem Chip.migShow_gran (c : Chip) (n rank since : Nat) : (c.migShow n rank since).gran = c.gran := by
  simp only [Chip.migShow, Chip.when]
  split
  · rfl
  · rfl

theorem Chip.rankMoved_gran (c : Chip) (n rank since : Nat) (bad : List Nat) : (c.rankMoved n rank since bad).gran =
    { (c.migPoison n rank bad).gran with migr := none, spareUsed := true } := by
  rw [Chip.rankMoved, Chip.onGran_gran, Chip.migShow_gran]

/-- A migration that ends: the rank is retired, the spare spent and the channel READY; the manager goes on (R288). -/
theorem Chip.migDone_ends {c : Chip} {m : Nat × Nat × Nat} (hm : c.gran.migr = some m) (hi : 2 * m.1 + m.2.1 < 8)
    (hd : c.gran.disableWait = false) (bad : List Nat) :
    let d := c.migDone bad
    d.gran.migr = none ∧ d.gran.spareUsed = true ∧ d.flag .GRAN_MGR_STAT_SPARE_AVAIL = false ∧
      bitAt (d.get .GRAN_MGR_STAT_RETIRED) (2 * m.1 + m.2.1) = true ∧ d.chanState m.1 = 2 := by
  obtain ⟨-, -, poisoned, -⟩ := sameManaged_migPoison c m.1 m.2.1 bad
  have gran := c.rankMoved_gran m.1 m.2.1 m.2.2 bad
  have moved : (c.rankMoved m.1 m.2.1 m.2.2 bad).gran.disableWait = false := by rw [gran]; exact poisoned.trans hd
  obtain ⟨migr, spare, waits, stat, ready⟩ := sameManaged_migFreed (c.rankMoved m.1 m.2.1 m.2.2 bad)
  rw [Chip.migDone_freed hm bad (waits.trans moved)]
  refine ⟨by rw [migr, gran], by rw [spare, gran], ?_, ?_, ready _ (Chip.chanState_migShow ..)⟩
  · rw [Chip.flag, Chip.get_congr (f := .GRAN_MGR_STAT_SPARE_AVAIL) stat]
    exact (c.migPoison m.1 m.2.1 bad).spare_migShow m.1 m.2.1 m.2.2
  · rw [Chip.get_congr (f := .GRAN_MGR_STAT_RETIRED) stat]
    exact (c.migPoison m.1 m.2.1 bad).retired_migShow m.1 m.2.1 m.2.2 hi

/-- Without a migration time passes freely, with one no longer than it can take (R289). -/
theorem Chip.migElapse_none {c : Chip} (h : c.gran.migr = none) (dt : Nat) : c.migElapse dt = c.elapse dt := by
  simp only [Chip.migElapse, h]

theorem Chip.migElapse_some {c : Chip} {m : Nat × Nat × Nat} (h : c.gran.migr = some m) (dt : Nat) :
    c.migElapse dt = c.elapse (min dt (m.2.2 + c.migBound m.1 m.2.1 - c.age)) := by simp only [Chip.migElapse, h]

theorem Chip.migDone_none {c : Chip} (h : c.gran.migr = none) (bad : List Nat) : c.migDone bad = c := by
  simp only [Chip.migDone, h]

section Retire

variable {c : Chip} {rq : Requester} {x : Verdict} {n rank : Nat}

/-- A rank that may be retired is migrated to the spare, or stays in service without one (R290). -/
theorem Chip.retire_allowed (yes : (c.gran.migr.isSome || (c.sparing && n == c.get .GRAN_MGR_CFG_SPARE_CH && rank == 1) ||
      bitAt (c.get .GRAN_MGR_STAT_RETIRED) (2 * n + rank)) = false) (hon : c.granOn = true) (ready : c.chanState n = 2) :
    c.retire n rank = if c.spareFree then (c.put (.GRAN_CH_STAT_STATE n) 3).migStart n rank else c.raise .GRANMGR_UE_NOSPARE := by
  have serves : ¬ ((!c.granOn || c.chanState n ≠ 2) = true) := by simp [hon, ready]
  exact (if_neg (ne_true_of_eq_false yes)).trans (if_neg serves)

theorem Chip.regWrite_retire (hn : n < 4) (hk : rank < 2) (ht : takes c rq Reg.GRAN_MGR_CTRL = true) :
    c.regWrite rq Reg.GRAN_MGR_CTRL (BitVec.ofNat 32 (0x80000000 + 4 * rank + n)) x = c.retire n rank := by
  have row : rowOf Reg.GRAN_MGR_CTRL = some ⟨0x04c, 1, 0x0, .wo, 0x00000000, 0x80000007, .plain⟩ := by decide
  have page : classOf (Reg.GRAN_MGR_CTRL / 0x1000) = some (.granMgr, 0) := by decide
  have op : bitsOf (BitVec.ofNat 32 (0x80000000 + 4 * rank + n)) 31 31 = 1 := by simp only [bitsOf, BitVec.toNat_ofNat]; omega
  have channel : bitsOf (BitVec.ofNat 32 (0x80000000 + 4 * rank + n)) 1 0 = n := by simp only [bitsOf, BitVec.toNat_ofNat]; omega
  have named : bitsOf (BitVec.ofNat 32 (0x80000000 + 4 * rank + n)) 2 2 = rank := by simp only [bitsOf, BitVec.toNat_ofNat]; omega
  rw [c.regWrite_wo rq _ _ x _ ht row (by decide) (c.roleZero_other _ (by decide)) rfl page]
  simp [Chip.blockHook, Chip.granHook, op, channel, named]

end Retire

/-! ### The arbiter -/

/-- The member of a list that comes first by `f`, if the list has one. -/
def leastOf (f : Nat → Nat) (l : List Nat) (best : Option Nat) : Prop :=
  (l = [] ∧ best = none) ∨ ∃ o ∈ l, best = some o ∧ ∀ m ∈ l, f o ≤ f m

/-- What holds of the empty list and of one member more holds of a fold over a list. -/
theorem foldl_induct {α β : Type} (P : List α → β → Prop) (f : β → α → β) (b : β) (base : P [] b)
    (step : ∀ l x y, P l y → P (l ++ [x]) (f y x)) (l : List α) : P l (l.foldl f b) := by
  induction l using List.reverseRecOn with
  | nil => exact base
  | append_singleton l x ih => simpa using step l x _ ih

/-- The winner of a decision is one of those that ask with the lowest effective priority (R293). -/
theorem Chip.arbWinner_least (c : Chip) (urg : List Nat) (last : Nat) (reqs : List Nat) :
    leastOf (c.effPrio urg) (((List.range 16).map fun k => (last + 1 + k) % 16).filter reqs.contains)
      (c.arbWinner urg last reqs) := by
  refine foldl_induct (leastOf (c.effPrio urg)) _ none (.inl ⟨rfl, rfl⟩) (fun l x y h => ?_) _
  rcases h with ⟨rfl, rfl⟩ | ⟨o, ho, rfl, least⟩
  · exact .inr ⟨x, by simp, rfl, by simp⟩
  · refine .inr ?_
    by_cases lower : c.effPrio urg x < c.effPrio urg o
    · refine ⟨x, by simp, if_pos lower, fun m hm => ?_⟩
      rcases List.mem_append.1 hm with hm | hm
      · exact lower.le.trans (least m hm)
      · rw [List.mem_singleton.1 hm]
    · refine ⟨o, by simp [ho], if_neg lower, fun m hm => ?_⟩
      rcases List.mem_append.1 hm with hm | hm
      · exact least m hm
      · rw [List.mem_singleton.1 hm]
        exact Nat.not_lt.1 lower

/-- Round-robin from any index reaches every requester. -/
theorem mem_roundRobin {m : Nat} (hm : m < 16) (last : Nat) : m ∈ (List.range 16).map fun k => (last + 1 + k) % 16 :=
  List.mem_map.2 ⟨(m + 15 * (last + 1)) % 16, List.mem_range.2 (by omega), by omega⟩

theorem Chip.arbWinner_asks (c : Chip) (urg : List Nat) {reqs : List Nat} (last : Nat) (hr : reqs.all (· < 16) = true)
    (some : reqs ≠ []) : ∃ o ∈ reqs, c.arbWinner urg last reqs = .some o ∧ ∀ m ∈ reqs, c.effPrio urg o ≤ c.effPrio urg m := by
  have asked {m : Nat} (hm : m ∈ reqs) : m ∈ ((List.range 16).map fun k => (last + 1 + k) % 16).filter reqs.contains := by
    have lt : m < 16 := by simpa using List.all_eq_true.1 hr m hm
    exact List.mem_filter.2 ⟨mem_roundRobin lt last, by simpa using hm⟩
  rcases c.arbWinner_least urg last reqs with ⟨none, -⟩ | ⟨o, ho, won, least⟩
  · obtain ⟨m, hm⟩ := List.exists_mem_of_ne_nil reqs some
    exact absurd (asked hm) (by simp [none])
  · exact ⟨o, by simpa using (List.mem_filter.1 ho).2, won, fun m hm => least m (asked hm)⟩

section Turns

variable {c : Chip} {urg reqs : List Nat} {n o : Nat}

/-- A channel without an owner is granted to the winner (R293). -/
theorem Chip.arbDecide_grants (free : (c.gchan n).owner = none) (won : c.arbWinner urg (c.gchan n).last reqs = some o) :
    c.arbDecide urg n reqs =
      (((c.setGchan n { c.gchan n with owner := some o, done := 1, last := o }).arbAsks n reqs (some o)).put .ARB_GRANT_ACTIVE
        (setBitAt (c.get .ARB_GRANT_ACTIVE) n true)).put ⟨Reg.ARB_GRANT, 4 * n + 3, 4 * n⟩ o := by
  simp only [Chip.arbDecide, free, won]
  rfl

/-- A grant without a limit runs on while its owner asks (R293). -/
theorem Chip.arbDecide_stays (owned : (c.gchan n).owner = some o) (asks : o ∈ reqs) (free : c.get (.ARB_REQ_CFG_LIMIT o) = 0) :
    c.arbDecide urg n reqs = (c.setGchan n { c.gchan n with done := (c.gchan n).done + 1 }).arbAsks n reqs (some o) := by
  have stays : (reqs.contains o && (c.get (.ARB_REQ_CFG_LIMIT o) == 0 || decide ((c.gchan n).done < c.get (.ARB_REQ_CFG_LIMIT o)))) =
      true := by simp [asks, free]
  simp only [Chip.arbDecide, owned, stays, if_true]

/-- What a decision reads of its channel and of the arbiter's page is as it was before the fills were seen. -/
theorem Chip.arbDecide_fillsSeen_grants {fills : List Nat} (free : (c.gchan n).owner = none)
    (won : (c.fillsSeen fills).arbWinner urg (c.gchan n).last reqs = some o) :
    (c.fillsSeen fills).arbDecide urg n reqs =
      ((((c.fillsSeen fills).setGchan n { c.gchan n with owner := some o, done := 1, last := o }).arbAsks n reqs
        (some o)).put .ARB_GRANT_ACTIVE (setBitAt (c.get .ARB_GRANT_ACTIVE) n true)).put
          ⟨Reg.ARB_GRANT, 4 * n + 3, 4 * n⟩ o := by
  rw [← c.gchan_fillsSeen fills n] at free won ⊢
  rw [← c.get_fillsSeen fills (f := .ARB_GRANT_ACTIVE) (by decide) (by decide)]
  exact Chip.arbDecide_grants free won

theorem Chip.arbDecide_fillsSeen_stays {fills : List Nat} (hr : reqs.all (· < 16) = true) (owned : (c.gchan n).owner = some o)
    (asks : o ∈ reqs) (free : c.get (.ARB_REQ_CFG_LIMIT o) = 0) : (c.fillsSeen fills).arbDecide urg n reqs =
      ((c.fillsSeen fills).setGchan n { c.gchan n with done := (c.gchan n).done + 1 }).arbAsks n reqs (some o) := by
  have lt : o < 16 := by simpa using List.all_eq_true.1 hr o asks
  rw [← c.gchan_fillsSeen fills n] at owned ⊢
  rw [← c.get_fillsSeen fills (by simp only [Reg.ARB_REQ_CFG]; omega) (by simp only [Reg.ARB_REQ_CFG]; omega)] at free
  exact Chip.arbDecide_stays owned asks free

/-- While the Granary is on an arbiter decides among requesters that exist, with the fills seen (R191, R292). -/
theorem Chip.arbTurn_on (hs : c.isSender = true) (hon : c.granOn = true) (fills : List Nat) (hr : reqs.all (· < 16) = true) :
    c.arbTurn fills n reqs = (c.fillsSeen fills).arbDecide ((c.fillsSeen fills).urgencies fills) n reqs := by
  have all : reqs.filter (fun r => decide (r < 16)) = reqs := List.filter_eq_self.2 (List.all_eq_true.1 hr)
  simp only [Chip.arbTurn, hs, hon, all]
  rfl

/-- A requester that waited ARB_STARVE_TMO for a channel is shown, counted and told of (R295). -/
theorem Chip.starve_shows {r : Nat} (on : c.get .ARB_STARVE_TMO_US ≠ 0)
    (first : (List.range 4).find? (fun k => (c.starvesAt r k).isSome) = some n) : c.starve r =
      let d := (c.elapseAge ((c.starvesAt r n).getD 0)).setGchan n { c.gchan n with
        asks := (c.gchan n).asks.map fun x => if x.1 = r then (x.1, x.2.1, true) else x }
      ((d.put .ARB_STARVE_REQ (setBitAt (c.get .ARB_STARVE_REQ) r true)).count Reg.ARB_STARVE_CNT).raise .ARB_STARVE := by
  have shown (t : Nat) (g : GChan) : ((c.elapseAge t).setGchan n g).get .ARB_STARVE_REQ = c.get .ARB_STARVE_REQ :=
    c.get_elapseAge t .ARB_STARVE_REQ
  simp only [Chip.starve, if_neg on, first, shown, Chip.gchan_elapseAge]

theorem Chip.starve_none {r : Nat} (none : ∀ k < 4, c.starvesAt r k = none) : c.starve r = c := by
  have absent : (List.range 4).find? (fun k => (c.starvesAt r k).isSome) = .none :=
    List.find?_eq_none.2 fun k hk => by simp [none k (List.mem_range.1 hk)]
  simp only [Chip.starve, absent]
  exact ite_self c

end Turns

/-! ### COMPAT (R296) -/

section Compat

variable {c : Chip} {rq : Requester} {x : Verdict} (v : Word)

/-- ARB_CFG with its one bit written. -/
def Chip.compatStored (c : Chip) (v : Word) : Chip := c.wr Reg.ARB_CFG (c.rd Reg.ARB_CFG &&& ~~~1 ||| v &&& 1)

/-- COMPAT as it becomes 1 applies the arbiter's shadows; with no commit waiting PENDING is all that ends. -/
theorem Chip.regWrite_arbCfg (ht : takes c rq Reg.ARB_CFG = true) (hc : c.fab.commits = []) :
    c.regWrite rq Reg.ARB_CFG v x =
      if !c.flag .ARB_CFG_COMPAT && bitsOf v 0 0 == 1 then
        ((c.compatStored v).applyShadows 0x75).put (.PG_COMMIT_PENDING 0x75) 0
      else c.compatStored v := by
  have row : rowOf Reg.ARB_CFG = some ⟨0x040, 1, 0x0, .rw, 0x00000000, 0x00000001, .plain⟩ := by decide
  have page : classOf (Reg.ARB_CFG / 0x1000) = some (.arb, 0) := by decide
  have gone (d : Chip) (h : d.fab.commits = []) : d.commitGone 0x75 = d.put (.PG_COMMIT_PENDING 0x75) 0 := by
    have outside : within 0x75 0x51 0x60 = false := by decide
    have none : d.fab.commits.filter (fun y => y.page != 0x75) = d.fab.commits := by rw [h]; rfl
    simp only [Chip.commitGone, outside, Chip.onFab, Chip.put, Chip.wr, none]
    rfl
  rw [c.regWrite_rw rq _ v x _ ht row (by decide) (c.roleZero_other _ (by decide)) rfl page,
    ← gone ((c.compatStored v).applyShadows 0x75) hc, ← bitsOf_and_bit v 1 0 (by decide)]
  rfl

theorem Chip.compat_stored : bitsOf ((c.compatStored v).rd Reg.ARB_CFG) 0 0 = bitsOf v 0 0 := by
  have cleared : bitsOf (~~~(1 : Word)) 0 0 = 0 := by decide
  rw [Chip.compatStored, Chip.rd_wr_same, bitsOf_or, bitsOf_and_bit v 1 0 (by decide), bitsOf_and, cleared]
  simp

/-- A write of ARB_CFG changes registers of the arbiter's page alone, and COMPAT as it was written; once it becomes 1 no commit
is PENDING there. -/
theorem Chip.regWrite_arbCfg_effect (ht : takes c rq Reg.ARB_CFG = true) (hc : c.fab.commits = []) :
    let d := c.regWrite rq Reg.ARB_CFG v x
    d = { c with regs := d.regs } ∧ (∀ b, b / 0x1000 ≠ 0x75 → d.rd b = c.rd b) ∧ d.get .ARB_CFG_COMPAT = bitsOf v 0 0 ∧
      (c.flag .ARB_CFG_COMPAT = false → bitsOf v 0 0 = 1 → d.flag (.PG_COMMIT_PENDING 0x75) = false) := by
  have stored (b : Nat) (hb : b / 0x1000 ≠ 0x75) : (c.compatStored v).rd b = c.rd b :=
    Chip.rd_wr_ne _ _ (by rintro rfl; exact hb rfl)
  rw [Chip.regWrite_arbCfg v ht hc]
  split
  next _ =>
    refine ⟨rfl, fun b hb => ?_, ?_, fun _ _ => congrArg (· == 1) (Chip.get_put_same _ _ _ (show 0 < 32 by decide))⟩
    · rw [Chip.rd_put_page _ _ _ hb, Chip.rd_applyShadows, if_neg fun h => hb h.1]
      exact stored b hb
    · have plain : ¬ (Reg.ARB_CFG / 0x1000 = 0x75 ∧ isRws Reg.ARB_CFG = true) := by decide
      rw [Chip.get, Chip.rd_put_ne _ _ _ (by decide), Chip.rd_applyShadows, if_neg plain]
      exact Chip.compat_stored v
  next no =>
    refine ⟨rfl, stored, Chip.compat_stored v, fun h0 h1 => absurd ?_ no⟩
    simp [h0, h1]

end Compat

/-! ### Memory -/

section Memory

variable {c : Chip} {a : Nat} {bs : List Byte}

theorem Chip.mirror_eq (c : Chip) (a : Nat) (bs : List Byte) : ∃ regs out, c.mirror a bs = { c with regs := regs, out := out } := by
  unfold Chip.mirror
  split
  · exact ⟨_, _, rfl⟩
  · exact ⟨_, _, rfl⟩

theorem Chip.rd_mirror (c : Chip) (a : Nat) (bs : List Byte) {b : Nat} (h : b ≠ Reg.TWIN_MIRROR_LAG) :
    (c.mirror a bs).rd b = c.rd b := by
  unfold Chip.mirror
  split
  · exact Chip.rd_countBy_ne _ _ h
  · rfl

/-- A write that ends below TOP puts its bytes into the memory, and may go to the standby (R277, R336). -/
theorem Chip.gWrite_fits (hon : c.granOn = true) (h : a + bs.length ≤ c.granTop) :
    ∃ g : Gran, g.mem = memPut c.gran.mem a bs ∧ c.gWrite a bs = { c with gran := g }.mirror a bs := by
  have whole : c.belowTop a bs.length = bs.length := Nat.min_eq_left (by omega)
  have inside : c.oor a bs.length = c := if_neg (by simp [Nat.not_lt.2 h])
  have taken : bs.take bs.length = bs := List.take_length
  simp only [Chip.gWrite, hon, if_true, whole, inside, taken]
  exact ⟨_, rfl, rfl⟩

/-- A read below TOP returns the memory's bytes (R277). -/
theorem Chip.gPeek_fits {n : Nat} (hon : c.granOn = true) (h : a + n ≤ c.granTop) : (c.gPeek a n).1 = memBytes c.gran.mem a n := by
  have whole : c.belowTop a n = n := Nat.min_eq_left (by omega)
  simp [Chip.gPeek, hon, whole]

/-- What is written below TOP is read back, and no other byte changes (R277, R282). -/
theorem Chip.gPeek_gWrite (hon : c.granOn = true) (h : a + bs.length ≤ c.granTop) :
    ((c.gWrite a bs).gPeek a bs.length).1 = bs ∧
      ∀ b, b < a ∨ a + bs.length ≤ b → memRd (c.gWrite a bs).gran.mem b = memRd c.gran.mem b := by
  obtain ⟨g, mem, write⟩ := Chip.gWrite_fits hon h
  have gran : (c.gWrite a bs).gran.mem = memPut c.gran.mem a bs := by
    obtain ⟨_, _, sent⟩ := { c with gran := g }.mirror_eq a bs
    rw [write, sent, ← mem]
  have kept (f : Fld) (hf : f.reg ≠ Reg.TWIN_MIRROR_LAG) : (c.gWrite a bs).get f = c.get f := by
    rw [write]
    exact Chip.get_congr (Chip.rd_mirror _ _ _ hf)
  have on : (c.gWrite a bs).granOn = true := (congrArg (· == 1) (kept (.PG_STATUS_ENABLED 0x74) (by decide))).trans hon
  have top : (c.gWrite a bs).granTop = c.granTop := congrArg (· * 2 ^ 20) (kept .GRAN_MGR_TOP_MIB (by decide))
  refine ⟨?_, fun b hb => ?_⟩
  · rw [Chip.gPeek_fits on (by rwa [top]), gran, memBytes_memPut]
  · rw [gran, memRd_memPut, if_neg (by omega)]

end Memory

end Sys2Proof.Machine
end

section
/-!
PROOF. O53: the Granary answers its requesters, its channels and its manager go on, and the arbiter decides.
-/

open Sys2Proof Sys2Proof.Machine Sys2Proof.Safety

namespace Sys2Proof.Proofs

section Commands

variable {s : State} {rq : Requester} {f : Chip → Chip}

section Sender

variable (hs : s.chip.isSender = true)

include hs

theorem exec_granaryRead_part {req a n : Nat} {e : Ecc} (hr : req < 16) (ha : a < 2 ^ 40)
    (h : s.chip.gRead req a n e = f s.chip) :
    exec (.granaryRead req a n e) s = .next (s.effect fun c => (f c).granAfter) :=
  (exec_granaryRead ..).trans
    (State.run_next (decide_eq_true ⟨hr, ha⟩) ((Chip.granAsk_sender hs _).trans (congrArg Chip.granAfter h)))

theorem exec_granaryWrite_part {req a : Nat} {bs : List Byte} {e : Ecc} (hr : req < 16) (ha : a < 2 ^ 40)
    (h : s.chip.gWriteReq req a bs e = f s.chip) :
    exec (.granaryWrite req a bs e) s = .next (s.effect fun c => (f c).granAfter) :=
  (exec_granaryWrite ..).trans
    (State.run_next (decide_eq_true ⟨hr, ha⟩) ((Chip.granAsk_sender hs _).trans (congrArg Chip.granAfter h)))

theorem exec_regionFillDone_part {r : Nat} (hr : r < 2 ^ 17) (h : s.chip.regionFilled r = f s.chip) :
    exec (.regionFillDone r) s = .next (s.effect fun c => (f c).granAfter) :=
  (exec_regionFillDone ..).trans
    (State.run_next (decide_eq_true hr) ((Chip.granAsk_sender hs _).trans (congrArg Chip.granAfter h)))

theorem exec_trainingDone_part {n rd wr tms : Nat} {ok : Bool} (hn : n < 4) (hrd : rd < 65536) (hwr : wr < 65536)
    (ht : tms < 65536) (h : s.chip.trained n ok rd wr tms = f s.chip) :
    exec (.trainingDone n ok rd wr tms) s = .next (s.effect fun c => (f c).granAfter.domSync) :=
  (exec_trainingDone ..).trans (State.run_next (decide_eq_true ⟨hn, hrd, hwr, ht⟩)
    (congrArg Chip.domSync ((Chip.granAsk_sender hs _).trans (congrArg Chip.granAfter h))))

theorem exec_refresh_part {n : Nat} {hot : Bool} {fills : List Nat} (hn : n < 4) (hl : fills.length ≤ 4)
    (h : (s.chip.fillsSeen fills).refresh n hot ((s.chip.urgencies fills).contains 2) = f s.chip) :
    exec (.refresh n hot fills) s = .next (s.effect fun c => (f c).granAfter) :=
  (exec_refresh ..).trans (State.run_next (by simp [Instr.wf, hn, hl])
    ((Chip.granAsk_sender hs _).trans (congrArg Chip.granAfter h)))

theorem exec_retrainingPause_part {n : Nat} (hn : n < 4) (h : s.chip.retrain n = f s.chip) :
    exec (.retrainingPause n) s = .next (s.effect fun c => (f c).granAfter) :=
  (exec_retrainingPause ..).trans
    (State.run_next (decide_eq_true hn) ((Chip.granAsk_sender hs _).trans (congrArg Chip.granAfter h)))

theorem exec_patrolScrub_part {res : List (Nat × Ecc)} {dt : Nat} (h : (s.chip.elapse dt).patrol res = f s.chip) :
    exec (.patrolScrub res dt) s = .next (s.effect fun c => (f c).granAfter) :=
  (exec_patrolScrub ..).trans
    (State.run_next rfl ((Chip.granAsk_sender (c := s.chip.elapse dt) hs _).trans (congrArg Chip.granAfter h)))

theorem exec_migrationDone_part {bad : List Nat} {dt k : Nat} (hk : s.chip.migElapse dt = s.chip.elapse k)
    (h : (s.chip.elapse k).migDone bad = f s.chip) :
    exec (.migrationDone bad dt) s = .next (s.effect fun c => (f c).granAfter.deepAfterMigration) := by
  refine (exec_migrationDone ..).trans (State.run_next rfl (congrArg Chip.deepAfterMigration ?_))
  rw [hk]
  exact (Chip.granAsk_sender (c := s.chip.elapse k) hs _).trans (congrArg Chip.granAfter h)

theorem exec_arbDecision_part {fills reqs : List Nat} {n : Nat} (hon : s.chip.granOn = true) (hn : n < 4)
    (hr : reqs.all (· < 16) = true)
    (h : (s.chip.fillsSeen fills).arbDecide ((s.chip.fillsSeen fills).urgencies fills) n reqs = f s.chip) :
    exec (.arbDecision fills n reqs) s = .next (s.effect f) :=
  (exec_arbDecision ..).trans (State.run_next (decide_eq_true hn) ((Chip.arbTurn_on hs hon fills hr).trans h))

theorem exec_starve_part {m : Nat} (hon : s.chip.granOn = true) (hm : m < 16) (h : s.chip.starve m = f s.chip) :
    exec (.starve m) s = .next (s.effect f) :=
  (exec_starve ..).trans (State.run_next (decide_eq_true hm) ((if_pos (by simp [hs, hon])).trans h))

end Sender

theorem exec_regionFill_part {r : Nat} (hr : r < 2 ^ 17) (ht : takes s.chip rq Reg.GRAN_MGR_UNW = true)
    (h : (if s.chip.get .GRAN_MGR_TOP_MIB ≤ r then s.chip.reject Reg.GRAN_MGR_UNW else s.chip.regionFill r) = f s.chip) :
    exec (.regionFill rq r) s = .next (s.effect f) :=
  (exec_regionFill ..).trans (State.run_next (decide_eq_true hr) ((Chip.regWrite_unwFill hr ht).trans h))

theorem exec_regionClear_part {r : Nat} (hr : r < 2 ^ 17) (ht : takes s.chip rq Reg.GRAN_MGR_UNW = true)
    (h : (if s.chip.get .GRAN_MGR_TOP_MIB ≤ r then s.chip.reject Reg.GRAN_MGR_UNW else s.chip.regionClear r) = f s.chip) :
    exec (.regionClear rq r) s = .next (s.effect f) :=
  (exec_regionClear ..).trans (State.run_next (decide_eq_true hr) ((Chip.regWrite_unwClear hr ht).trans h))

theorem exec_rankRetire_part {n rank : Nat} (hn : n < 4) (hk : rank < 2) (ht : takes s.chip rq Reg.GRAN_MGR_CTRL = true)
    (h : s.chip.retire n rank = f s.chip) : exec (.rankRetire rq n rank) s = .next (s.effect f) :=
  (exec_rankRetire ..).trans (State.run_next (decide_eq_true ⟨hn, hk⟩) ((Chip.regWrite_retire hn hk ht).trans h))

end Commands

/-- Settles O53: each command is one case of what the Granary does at the part; the winner of a decision is the least of those
that ask, and what is written below TOP is what is read. -/
theorem granaryServesItsRequesters : Obligations.GranaryServesItsRequesters := by
  unfold Obligations.GranaryServesItsRequesters
  intro s rq req a n hs hreq ha
  refine ⟨fun hon hw hb hin hr => ?_, fun bs hon hw hb hr => ?_, fun bs r hon hf one hr => ?_, fun r hr ht => ?_,
    fun r hr hf hw => ?_, fun ch rd wr tms hch hrd hwr htms => ?_, fun dt hon hh => ?_, fun bad dt => ?_,
    fun ch rank hch hk ht => ?_, fun hon => ?_, fun v ht hc => ?_, fun c => ?_⟩
  · have answered {e : Ecc} {d : Chip} (h : s.chip.eccMeet req a e = (d, none)) :=
      (Chip.gRead_answered hon hw hb hin hr h).trans (d.gPerform_read req a n)
    refine ⟨?_, fun sym he => ?_, fun rr => ?_⟩
    · have read := answered (s.chip.eccMeet_ok req a)
      exact exec_granaryRead_part hs hreq ha read
    · have read := answered (Chip.eccMeet_ce sym he)
      exact exec_granaryRead_part hs hreq ha read
    · have read := Chip.gRead_failed hon hw hb hin hr (s.chip.eccMeet_ue req a rr)
      exact exec_granaryRead_part hs hreq ha read
  · exact exec_granaryWrite_part hs hreq ha (Chip.gWriteReq_written hon hw hb hr)
  · exact exec_granaryWrite_part hs hreq ha (Chip.gWriteReq_opens hon hf one hr)
  · refine ⟨fun top => ⟨?_, ?_⟩, fun top => ⟨fun hw hf => ?_, fun hw => ⟨?_, fun hq => ?_, fun hq => ?_⟩⟩⟩
    · exact exec_regionFill_part hr ht (if_pos top)
    · exact exec_regionClear_part hr ht (if_pos top)
    · exact exec_regionFill_part hr ht ((if_neg (Nat.not_le.2 top)).trans (Chip.regionFill_starts hw hf))
    · exact exec_regionFill_part hr ht ((if_neg (Nat.not_le.2 top)).trans (Chip.regionFill_written hw))
    · exact exec_regionClear_part hr ht ((if_neg (Nat.not_le.2 top)).trans (Chip.regionClear_free hw hq))
    · exact exec_regionClear_part hr ht ((if_neg (Nat.not_le.2 top)).trans (Chip.regionClear_waits hq))
  · exact exec_regionFillDone_part hs hr (Chip.regionFilled_fills hf hw)
  · refine ⟨fun training => ⟨?_, ?_⟩, fun live hot fills hl => ?_, fun ready due => ?_⟩
    · exact exec_trainingDone_part hs hch hrd hwr htms (if_pos training)
    · exact exec_trainingDone_part hs hch hrd hwr htms (if_pos training)
    · exact exec_refresh_part hs hch hl (Chip.refresh_fillsSeen hch live hot _ fills)
    · exact exec_retrainingPause_part hs hch (Chip.retrain_due ready due)
  · exact exec_patrolScrub_part hs (Chip.patrol_clean (c := s.chip.elapse dt) hon hh)
  · refine ⟨fun none => ?_, fun m hm h4 h2 hd => ⟨?_, Chip.migDone_ends hm (by omega) hd bad⟩⟩
    · exact exec_migrationDone_part hs (Chip.migElapse_none none dt) (Chip.migDone_none (c := s.chip.elapse dt) none bad)
    · exact exec_migrationDone_part hs (Chip.migElapse_some hm dt) rfl
  · refine ⟨fun no => ?_, fun yes hon ready => ⟨fun free => ?_, fun spent => ?_⟩⟩
    · exact exec_rankRetire_part hch hk ht (if_pos no)
    · exact exec_rankRetire_part hch hk ht ((Chip.retire_allowed yes hon ready).trans (if_pos free))
    · exact exec_rankRetire_part hch hk ht ((Chip.retire_allowed yes hon ready).trans (if_neg (ne_true_of_eq_false spent)))
  · refine ⟨fun fills reqs ch o hch hr => ⟨fun free won => ?_, fun owned asks limit => ?_⟩,
      fun m hm on => ⟨fun ch first => ?_, fun none => ?_⟩, fun m hm off => ?_⟩
    · exact exec_arbDecision_part hs hon hch hr (Chip.arbDecide_fillsSeen_grants free won)
    · exact exec_arbDecision_part hs hon hch hr (Chip.arbDecide_fillsSeen_stays hr owned asks limit)
    · exact exec_starve_part hs hon hm (Chip.starve_shows on first)
    · exact exec_starve_part hs hon hm (Chip.starve_none none)
    · exact exec_starve_part hs hon hm (if_pos off)
  · obtain ⟨frame, others, compat, pending⟩ := s.chip.regWrite_arbCfg_effect v (x := noVerdict) ht hc
    have settled : s.chip.after (fun c => c.regWrite rq Reg.ARB_CFG v noVerdict) =
        (s.chip.regWrite rq Reg.ARB_CFG v noVerdict).settle :=
      Chip.after_none _ _ ((congrArg (fun d => d.fab.commits) frame).trans hc)
    refine ⟨_, (exec_compatSet ..).trans (State.run_wf _ _ _ rfl), rfl, ?_⟩
    simp only [State.effect, settled, Chip.settle_rd, Chip.settle_get, Chip.flag]
    exact ⟨restSame_settle _ s.chip.out frame, others, compat, pending⟩
  · exact ⟨fun urg reqs last hr some => c.arbWinner_asks urg last hr some, fun bs hon fits => Chip.gPeek_gWrite hon fits⟩

end Sys2Proof.Proofs
end

section
/-!
SUPPORT. The PCIe link and BAR4 (R321–R323, R327), the management channel's requests and its session (R324, R325, R359).
-/

namespace Sys2Proof.Machine

open Safety

/-! ### The commands as effects -/

theorem exec_pcieLinkUp (gen width : Nat) (s : State) : exec (.pcieLinkUp gen width) s =
    s.run (.pcieLinkUp gen width) fun c => c.pcieUp gen width := rfl

theorem exec_pcieLinkDown (s : State) : exec .pcieLinkDown s = s.run .pcieLinkDown Chip.pcieLost := rfl

theorem exec_flr (s : State) : exec .flr s = s.run .flr Chip.flr := rfl

theorem exec_bar4Read (a n : Nat) (e : Ecc) (s : State) : exec (.bar4Read a n e) s =
    s.run (.bar4Read a n e) fun c => (c.bar4Read a n e).mgmtDrain 16 := rfl

theorem exec_bar4Write (a : Nat) (data : List (Option Byte)) (e : Ecc) (s : State) : exec (.bar4Write a data e) s =
    s.run (.bar4Write a data e) fun c => (c.bar4Write a data e).mgmtDrain 16 := rfl

theorem exec_pcieAerError (corr : Bool) (s : State) : exec (.pcieAerError corr) s =
    s.run (.pcieAerError corr) fun c => c.aer corr := rfl

theorem exec_mgmtRegRd (seq a n : Nat) (tag : Bool) (s : State) : exec (.mgmtRegRd seq a n tag) s =
    s.run (.mgmtRegRd seq a n tag) fun c => c.mgmtIn ⟨seq, 1, a, n, []⟩ tag := rfl

theorem exec_mgmtRegWr (seq a : Nat) (bs : List Byte) (tag : Bool) (s : State) : exec (.mgmtRegWr seq a bs tag) s =
    s.run (.mgmtRegWr seq a bs tag) fun c => c.mgmtIn ⟨seq, 2, a, 0, bs⟩ tag := rfl

theorem exec_mgmtMemRd (seq a n : Nat) (tag : Bool) (s : State) : exec (.mgmtMemRd seq a n tag) s =
    s.run (.mgmtMemRd seq a n tag) fun c => c.mgmtIn ⟨seq, 3, a, n, []⟩ tag := rfl

theorem exec_mgmtMemWr (seq a : Nat) (bs : List Byte) (tag : Bool) (s : State) : exec (.mgmtMemWr seq a bs tag) s =
    s.run (.mgmtMemWr seq a bs tag) fun c => c.mgmtIn ⟨seq, 4, a, 0, bs⟩ tag := rfl

theorem exec_mgmtDoorbell (seq off v : Nat) (tag : Bool) (s : State) : exec (.mgmtDoorbell seq off v tag) s =
    s.run (.mgmtDoorbell seq off v tag) fun c => c.mgmtIn ⟨seq, 5, off, v, []⟩ tag := rfl

theorem exec_mHello (peer : Nat) (data : List Byte) (ok : Bool) (s : State) : exec (.mHello peer data ok) s =
    s.run (.mHello peer data ok) fun c => c.mHello peer data ok := rfl

theorem exec_mFinish (seq : Nat) (ok : Bool) (s : State) : exec (.mFinish seq ok) s =
    s.run (.mFinish seq ok) fun c => c.mFinish seq ok := rfl

theorem exec_mClose (tag : Bool) (s : State) : exec (.mClose tag) s = s.run (.mClose tag) fun c => c.mClose tag := rfl

theorem exec_mgmtSessionSilence (s : State) : exec .mgmtSessionSilence s = s.run .mgmtSessionSilence fun c =>
    (if c.mgmt.session then c.elapseAge (c.mgmt.heardAt + ms 10000) else c).mgmtSilence := rfl

/-! ### The PCIe link -/

section Link

variable {c : Chip}

/-- A sender keeps its events to itself (R130). -/
theorem Chip.raise_sender (hs : c.isSender = true) (e : Ev) : c.raise e = c.setEvent e := by
  have tile : (c.setEvent e).isTile = false := by
    rw [Chip.isTile, Chip.get_setEvent_above _ _ (by decide)]
    exact c.isTile_of_isSender hs
  exact if_pos (by simp [tile])

/-- The part once its link is up at a generation and a width (R321). -/
def Chip.linkedAt (c : Chip) (g w : Nat) : Chip :=
  ((c.onPcie fun p => { p with up := true }).setNat Reg.PCIE_LINK (2 ^ 31 + w * 256 + g)).raise .PCIE_LINK_UP

/-- The link comes up at a generation and a width that PCIE_CFG and the partner allow (R321, R323). -/
theorem Chip.pcieUp_links (hs : c.isSender = true) (hp : c.enabled 0x81 = true) (hq : c.enabled 0x1b = true)
    (down : c.pcie.up = false) (gen width : Nat) : ∃ g w, c.pcieUp gen width = c.linkedAt g w ∧ 1 ≤ g ∧ g ≤ 4 ∧
      g ≤ max (c.get .PCIE_CFG_GEN) 1 ∧ g ≤ max gen 1 ∧ w ∈ [1, 2, 4] ∧ w ≤ max width 1 := by
  have goes : (!c.isSender || !c.enabled 0x81 || !c.enabled 0x1b || c.pcie.up) = false := by simp [hs, hp, hq, down]
  refine ⟨_, _, if_neg (ne_true_of_eq_false goes), by omega, by omega, by omega, by omega, ?_, ?_⟩
  · split
    · decide
    · split <;> decide
  · split
    · omega
    · split <;> omega

/-- A link that comes up shows in PCIE_LINK and is told in its page (R323). -/
theorem Chip.linkedAt_frame (hs : c.isSender = true) (g w : Nat) :
    (∀ b, b ∉ [Reg.PCIE_LINK, Reg.PG_EVENT 0x81, Fld.reg (.PG_EVENT_CNT_COUNT 0x81)] → (c.linkedAt g w).rd b = c.rd b) ∧
      c.linkedAt g w = { c.onPcie fun p => { p with up := true } with regs := (c.linkedAt g w).regs } := by
  have told : c.linkedAt g w = ((c.onPcie fun p => { p with up := true }).setNat Reg.PCIE_LINK
      (2 ^ 31 + w * 256 + g)).setEvent .PCIE_LINK_UP := by
    refine Chip.raise_sender ?_ _
    rw [Chip.isSender, Chip.setNat, Chip.get_wr_ne _ _ _ (by decide)]
    exact hs
  rw [told]
  refine ⟨fun b hb => ?_, rfl⟩
  simp only [List.mem_cons, List.not_mem_nil, or_false, not_or] at hb
  obtain ⟨link, event, count⟩ := hb
  rw [Chip.setEvent, Chip.countF, Chip.rd_put_ne _ _ _ count, Chip.rd_wr_ne _ _ event]
  exact Chip.rd_wr_ne _ _ link

theorem Chip.linkedAt_shows {g w : Nat} (hg : g ≤ 4) (hw : w ≤ 4) :
    (c.linkedAt g w).flag .PCIE_LINK_UP = true ∧ (c.linkedAt g w).get .PCIE_LINK_GEN = g ∧
      (c.linkedAt g w).get .PCIE_LINK_WIDTH = w := by
  have shown : (c.linkedAt g w).rd Reg.PCIE_LINK = BitVec.ofNat 32 (2 ^ 31 + w * 256 + g) :=
    (Chip.rd_raise_above_header _ _ (by decide) (by decide)).trans (Chip.rd_wr_same _ _ _)
  simp only [Chip.flag, Chip.get, shown, bitsOf, BitVec.toNat_ofNat]
  refine ⟨?_, ?_, ?_⟩
  · rw [beq_iff_eq]
    omega
  · omega
  · omega

end Link

/-- The enabled bytes of a write without gaps are one run (R322). -/
theorem byteRuns_whole {bs : List Byte} (some : bs ≠ []) (a : Nat) : byteRuns a (bs.map .some) = [(a, bs)] := by
  induction bs generalizing a with
  | nil => exact absurd rfl some
  | cons b r ih =>
    cases r with
    | nil => rfl
    | cons d r => simp only [List.map_cons, byteRuns] at ih ⊢; simp [ih (by simp) (a + 1)]

/-! ### Requests of the management channel's peer -/

section Requests

variable {c : Chip} {r : MgmtReq}

/-- A message whose tag fails is counted and told (R325). -/
theorem Chip.mgmtIn_untagged (hon : c.mgmtOn = true) (hses : c.mgmt.session = true) : c.mgmtIn r false = c.mgmtAuthFail := by
  simp [Chip.mgmtIn, hon, hses]

/-- A tagged message of the session has been heard (R359). -/
def Chip.mgmtHeard (c : Chip) : Chip := c.onMgmt fun m => { m with heardAt := c.age }

/-- The request whose turn it is is answered, and its answer is kept among the last 16 (R325). -/
theorem Chip.mgmtDrain_step (due : c.mgmt.held.find? (fun q => q.seq == (c.mgmt.lastSeq + 1) % 2 ^ 64) = some r)
    (free : c.mgmtWaits r = false) (n : Nat) : c.mgmtDrain (n + 1) =
      let x := c.mgmtDo r
      ((x.1.onMgmt fun m => { m with
        lastSeq := r.seq, held := m.held.filter (fun q => q.seq != r.seq), kept := ((r.seq, x.2.1, x.2.2) :: m.kept).take 16 }).emit
          (.mgmt (0x80 + r.kind) [r.seq, x.2.1] x.2.2)).mgmtDrain n := by
  simp only [Chip.mgmtDrain, due, free, Bool.false_eq_true, if_false]

section Tagged

variable (hon : c.mgmtOn = true) (hses : c.mgmt.session = true)

include hon hses

/-- One of the last 16 answered is answered again as kept. -/
theorem Chip.mgmtIn_kept {k : Nat × Nat × List Byte} (hk : c.mgmt.kept.find? (fun k => k.1 == r.seq) = some k) :
    c.mgmtIn r true = c.mgmtHeard.emit (.mgmt (0x80 + r.kind) [k.1, k.2.1] k.2.2) := by
  simp [Chip.mgmtIn, hon, hses, Chip.mgmtHeard, Chip.onMgmt, hk]

section Fresh

variable (hk : c.mgmt.kept.find? (fun k => k.1 == r.seq) = none)

include hk

/-- A new request is held where it is one of the next 16, and those whose turn it is are processed; another is dropped. -/
theorem Chip.mgmtIn_fresh : c.mgmtIn r true =
    let d := (r.seq + 2 ^ 64 - c.mgmt.lastSeq) % 2 ^ 64
    if d = 0 ∨ 16 < d then c.mgmtHeard
    else (if c.mgmt.held.any fun q => q.seq == r.seq then c.mgmtHeard
      else c.mgmtHeard.onMgmt fun m => { m with held := m.held ++ [r] }).mgmtDrain 16 := by
  simp only [Chip.mgmtIn, Chip.mgmtHeard, hon, hses, Chip.onMgmt_mgmt, hk, Bool.not_true, Bool.or_self, Bool.false_eq_true,
    if_false]

theorem Chip.mgmtIn_outside (hd : (r.seq + 2 ^ 64 - c.mgmt.lastSeq) % 2 ^ 64 = 0 ∨ 16 < (r.seq + 2 ^ 64 - c.mgmt.lastSeq) % 2 ^ 64) :
    c.mgmtIn r true = c.mgmtHeard := (Chip.mgmtIn_fresh hon hses hk).trans (if_pos hd)

theorem Chip.mgmtIn_held (h1 : 1 ≤ (r.seq + 2 ^ 64 - c.mgmt.lastSeq) % 2 ^ 64)
    (h16 : (r.seq + 2 ^ 64 - c.mgmt.lastSeq) % 2 ^ 64 ≤ 16) (new : (c.mgmt.held.any fun q => q.seq == r.seq) = false) :
    c.mgmtIn r true = (c.onMgmt fun m => { m with heardAt := c.age, held := m.held ++ [r] }).mgmtDrain 16 :=
  (Chip.mgmtIn_fresh hon hses hk).trans ((if_neg (by omega)).trans
    (congrArg (Chip.mgmtDrain · 16) (if_neg (ne_true_of_eq_false new))))

/-- The next request, with none held before it, is answered at once, and its answer kept (R325). -/
theorem Chip.mgmtIn_next (empty : c.mgmt.held = []) (hl : c.mgmt.lastSeq < 2 ^ 64) (hs : r.seq = (c.mgmt.lastSeq + 1) % 2 ^ 64)
    (free : c.mgmtWaits r = false) :
    c.mgmtIn r true =
      let x := (c.onMgmt fun m => { m with heardAt := c.age, held := [r] }).mgmtDo r
      ((x.1.onMgmt fun m => { m with
        lastSeq := r.seq, held := m.held.filter (fun q => q.seq != r.seq), kept := ((r.seq, x.2.1, x.2.2) :: m.kept).take 16 }).emit
          (.mgmt (0x80 + r.kind) [r.seq, x.2.1] x.2.2)).mgmtDrain 15 := by
  have one : (r.seq + 2 ^ 64 - c.mgmt.lastSeq) % 2 ^ 64 = 1 := by omega
  have alone : (c.onMgmt fun m => { m with heardAt := c.age, held := m.held ++ [r] }) =
      c.onMgmt fun m => { m with heardAt := c.age, held := [r] } := by simp only [Chip.onMgmt, empty, List.nil_append]
  rw [Chip.mgmtIn_held hon hses hk one.ge (by omega) (by simp [empty]), alone]
  exact Chip.mgmtDrain_step (c := c.onMgmt fun m => { m with heardAt := c.age, held := [r] })
    (List.find?_cons_of_pos (by simpa using hs)) free 15

end Fresh

end Tagged

/-- With no request held for the next SEQ nothing is processed. -/
theorem Chip.mgmtDrain_idle (h : c.mgmt.held.find? (fun q => q.seq == (c.mgmt.lastSeq + 1) % 2 ^ 64) = none) (n : Nat) :
    c.mgmtDrain n = c := by
  cases n with
  | zero => rfl
  | succ n => simp only [Chip.mgmtDrain, h]

end Requests

/-! ### What a request answers (R325) -/

section Answers

variable (c : Chip) {r : MgmtReq}

theorem Chip.wordReads_length (rq : Requester) (a n : Nat) : (c.wordReads rq a n).2.1.length = 4 * n := by
  induction n generalizing c a with
  | zero => rfl
  | succ n ih =>
    simp only [Chip.wordReads, List.length_append, leBytes_length, ih]
    omega

theorem Chip.mgmtDo_regRd (hk : r.kind = 1) : c.mgmtDo r =
    if r.b = 0 ∨ 256 < r.b then (c, 2, [])
    else ((c.wordReads .mgmt r.a r.b).1, if (c.wordReads .mgmt r.a r.b).2.2 then 1 else 0, (c.wordReads .mgmt r.a r.b).2.1) :=
  if_pos hk

theorem Chip.mgmtDo_regWr (hk : r.kind = 2) : c.mgmtDo r =
    if r.bytes.length % 4 ≠ 0 ∨ r.bytes = [] ∨ 1020 < r.bytes.length then (c, 2, [])
    else ((c.wordWrites .mgmt r.a (r.bytes.length / 4) r.bytes).1,
      if (c.wordWrites .mgmt r.a (r.bytes.length / 4) r.bytes).2 then 1 else 0, []) := by
  simp only [Chip.mgmtDo, hk]
  rfl

theorem Chip.mgmtDo_memRd (hk : r.kind = 3) : c.mgmtDo r =
    if r.b = 0 ∨ 1024 < r.b then (c, 2, [])
    else (c.gReadCount r.a r.b, if (c.gPeek r.a r.b).2 then 3 else 0, (c.gPeek r.a r.b).1) := by
  simp only [Chip.mgmtDo, hk]
  rfl

theorem Chip.mgmtDo_memWr (hk : r.kind = 4) : c.mgmtDo r =
    if r.bytes = [] ∨ 1016 < r.bytes.length then (c, 2, []) else (c.gWriteReq 11 r.a r.bytes .ok, 0, []) := by
  simp only [Chip.mgmtDo, hk]
  rfl

theorem Chip.mgmtDo_doorbell (hk : r.kind = 5) : c.mgmtDo r = (c.bar2Doorbell r.a r.b, 0, []) := by
  simp only [Chip.mgmtDo, hk]
  rfl

/-- A REG_WR of one word is one register write, DENIED where the policy denies it. -/
theorem Chip.mgmtDo_oneWord (hk : r.kind = 2) (v : Word) (hv : r.bytes = leBytes 4 v.toNat) : c.mgmtDo r =
    (c.regWriteAny .mgmt r.a v, if c.fabricCause .mgmt r.a true = 4 then 1 else 0, []) := by
  have size : r.bytes.length = 4 := by rw [hv, leBytes_length]
  have fits : ¬ (r.bytes.length % 4 ≠ 0 ∨ r.bytes = [] ∨ 1020 < r.bytes.length) := by
    rintro (h | h | h)
    · omega
    · simp [h] at size
    · omega
  have word : BitVec.ofNat 32 (leNat (r.bytes.take 4)) = v := by
    rw [List.take_of_length_le size.le, hv, leNat_leBytes]
    exact BitVec.eq_of_toNat_eq (by simp only [BitVec.toNat_ofNat]; omega)
  rw [Chip.mgmtDo_regWr c hk, if_neg fits, size]
  simp [Chip.wordWrites, word]

end Answers

/-! ### The session (R359) -/

section Session

variable {c : Chip}

/-- A handshake takes the place of one under way, and the write pending on the owner key's slot takes effect before it (R362). -/
def Chip.helloTaken (c : Chip) : Chip := (c.onMgmt fun m => { m with hello := none }).pendingWrite 3

section Hello

variable {peer : Nat} {data : List Byte} (hon : c.mgmtOn = true) (down : c.mgmt.session = false)

include hon down

/-- With no session held M_HELLO is answered where its signature, its certificate, the owner key and the lifecycle allow it. -/
theorem Chip.mHello_judged (ok : Bool) : c.mHello peer data ok =
    if !ok || !ownerCertOk data 1 (Config.sha384 (beBytes 97 (c.helloTaken.slot 3).key)) (secOf c.bell.time) ||
        (c.helloTaken.slot 3).state != 1 || c.fuses.lifecycle == 2 then c
    else
      let d := c.helloTaken
      let part := d.idCert ++ Config.public d.randomNow
      let e := d.mgmtEnd.onMgmt fun m => { m with hello := some peer, heardAt := d.age }
      (e.emit (.mgmt 0x31 [peer] (part ++ Config.sign (e.slot 0).key (data ++ part)))).redraw := by
  have goes : (!c.mgmtOn || (c.mgmt.session && !c.mgmtSilent)) = false := by simp [hon, down]
  rw [Chip.mHello, if_neg (ne_true_of_eq_false goes)]
  rfl

theorem Chip.mHello_refused : c.mHello peer data false = c := (Chip.mHello_judged hon down false).trans (if_pos rfl)

theorem Chip.mHello_noOwner (empty : (c.helloTaken.slot 3).state ≠ 1) : c.mHello peer data true = c :=
  (Chip.mHello_judged hon down true).trans (if_pos (by simp [empty]))

theorem Chip.mHello_accepted
    (cert : ownerCertOk data 1 (Config.sha384 (beBytes 97 (c.helloTaken.slot 3).key)) (secOf c.bell.time) = true)
    (owner : (c.helloTaken.slot 3).state = 1) (life : c.fuses.lifecycle ≠ 2) (still : c.helloTaken.mgmt.session = false) :
    c.mHello peer data true =
      let d := c.helloTaken
      let part := d.idCert ++ Config.public d.randomNow
      ((d.onMgmt fun m => { m with hello := some peer, heardAt := d.age }).emit
        (.mgmt 0x31 [peer] (part ++ Config.sign (d.slot 0).key (data ++ part)))).redraw := by
  have idle : c.helloTaken.mgmtEnd = c.helloTaken := if_neg (ne_true_of_eq_false still)
  rw [Chip.mHello_judged hon down, if_neg (by simp [cert, owner, life])]
  simp only [idle]
  rfl

end Hello

theorem Chip.mFinish_refused {peer : Nat} (hh : c.mgmt.hello = some peer) (seq : Nat) : c.mFinish seq false = c := by
  simp only [Chip.mFinish, hh]
  exact if_pos (by simp)

/-- M_FINISH begins the session, keyed by slot 5. -/
theorem Chip.mFinish_begins {peer : Nat} (hon : c.mgmtOn = true) (hh : c.mgmt.hello = some peer) (seq : Nat) :
    c.mFinish seq true =
      let d := (c.setSlot 5 (loadedSlot 1 (Config.kdf 7 [c.draws, peer]) 0 none)).onMgmt fun m => { m with
        session := true, hello := none, lastSeq := seq, kept := [], held := [], heardAt := c.age, notified := [] }
      ((d.put .WELL_MGMT_STAT_SESSION 1).setNat Reg.WELL_MGMT_PEER peer).raise .WELL_MGMT_UP := by
  simp only [Chip.mFinish, hh]
  exact if_neg (by simp [hon])

theorem Chip.mClose_tagged (hon : c.mgmtOn = true) (up : c.mgmt.session = true) (tag : Bool) :
    c.mClose tag = if tag then c.mgmtEnd else c.mgmtAuthFail := if_neg (by simp [hon, up])

/-- A session that ends keeps nothing, and reads as down. -/
theorem Chip.mgmtEnd_ends (c : Chip) : c.mgmtEnd.mgmt.session = false ∧ (c.mgmt.session = true →
    c.mgmtEnd.mgmt.held = [] ∧ c.mgmtEnd.mgmt.kept = [] ∧ c.mgmtEnd.flag .WELL_MGMT_STAT_SESSION = false) := by
  unfold Chip.mgmtEnd
  split
  next _ => exact ⟨rfl, fun _ => ⟨rfl, rfl, congrArg (· == 1) (Chip.get_put_same _ _ _ (show 30 < 32 by decide))⟩⟩
  next down => exact ⟨by simpa using down, fun up => absurd up down⟩

/-- Ten seconds after the last message the session ends. -/
theorem Chip.mgmtSilence_ends (up : c.mgmt.session = true) :
    (c.elapseAge (c.mgmt.heardAt + ms 10000)).mgmtSilence = (c.elapseAge (c.mgmt.heardAt + ms 10000)).mgmtEnd := by
  have kept : (c.elapseAge (c.mgmt.heardAt + ms 10000)).mgmt = c.mgmt := by
    obtain ⟨_, _, h⟩ := c.elapseAge_eq (c.mgmt.heardAt + ms 10000)
    rw [h]
  refine if_pos ?_
  rw [Chip.mgmtSilent, kept, up, decide_eq_true (c.le_age_elapseAge _)]
  rfl

end Session

end Sys2Proof.Machine
end

section
/-!
PROOF. O55: the PCIe link and its accesses, and the management channel's requests and session.
-/

open Sys2Proof Sys2Proof.Machine Sys2Proof.Safety

namespace Sys2Proof.Proofs

section Commands

variable {s : State}

/-- The five request commands of a SEQ end with what `f` makes of their requests. -/
def RequestsEnd (s : State) (seq a m n : Nat) (bs : List Byte) (tag : Bool) (f : MgmtReq → Chip → Chip) : Prop :=
  exec (.mgmtRegRd seq a n tag) s = .next (s.effect (f ⟨seq, 1, a, n, []⟩)) ∧
    exec (.mgmtRegWr seq a bs tag) s = .next (s.effect (f ⟨seq, 2, a, 0, bs⟩)) ∧
    exec (.mgmtMemRd seq m n tag) s = .next (s.effect (f ⟨seq, 3, m, n, []⟩)) ∧
    exec (.mgmtMemWr seq m bs tag) s = .next (s.effect (f ⟨seq, 4, m, 0, bs⟩)) ∧
    exec (.mgmtDoorbell seq a n tag) s = .next (s.effect (f ⟨seq, 5, a, n, []⟩))

section Requests

variable {seq a m n : Nat} {bs : List Byte} {tag : Bool} (ha : a < 2 ^ 32) (hm : m < 2 ^ 64)

include ha hm

/-- What the part does with a request of a SEQ, whatever its kind, each of the five request commands does. -/
theorem requestsEnd_of_mgmtIn (f : MgmtReq → Chip → Chip)
    (h : ∀ r : MgmtReq, r.seq = seq → (r.kind = 3 → r.a = m ∧ r.b = n) → s.chip.mgmtIn r tag = f r s.chip) :
    RequestsEnd s seq a m n bs tag f := by
  refine ⟨?_, ?_, ?_, ?_, ?_⟩
  · exact (exec_mgmtRegRd ..).trans (State.run_next (decide_eq_true ha) (h _ rfl nofun))
  · exact (exec_mgmtRegWr ..).trans (State.run_next (decide_eq_true ha) (h _ rfl nofun))
  · exact (exec_mgmtMemRd ..).trans (State.run_next (decide_eq_true hm) (h _ rfl fun _ => ⟨rfl, rfl⟩))
  · exact (exec_mgmtMemWr ..).trans (State.run_next (decide_eq_true hm) (h _ rfl nofun))
  · exact (exec_mgmtDoorbell ..).trans (State.run_next (decide_eq_true ha) (h _ rfl nofun))

variable (hon : s.chip.mgmtOn = true) (up : s.chip.mgmt.session = true)

include hon up

theorem requestsEnd_untagged : RequestsEnd s seq a m n bs false fun _ => Chip.mgmtAuthFail :=
  requestsEnd_of_mgmtIn ha hm _ fun _ _ _ => Chip.mgmtIn_untagged hon up

theorem requestsEnd_kept {k : Nat × Nat × List Byte} (hk : s.chip.mgmt.kept.find? (fun k => k.1 == seq) = some k) :
    RequestsEnd s seq a m n bs true fun r c => c.mgmtHeard.emit (.mgmt (0x80 + r.kind) [k.1, k.2.1] k.2.2) := by
  refine requestsEnd_of_mgmtIn ha hm _ fun r hr _ => ?_
  subst hr
  exact Chip.mgmtIn_kept hon up hk

variable (hk : s.chip.mgmt.kept.find? (fun k => k.1 == seq) = none)

include hk

theorem requestsEnd_outside (hd : (seq + 2 ^ 64 - s.chip.mgmt.lastSeq) % 2 ^ 64 = 0 ∨
    16 < (seq + 2 ^ 64 - s.chip.mgmt.lastSeq) % 2 ^ 64) : RequestsEnd s seq a m n bs true fun _ => Chip.mgmtHeard := by
  refine requestsEnd_of_mgmtIn ha hm _ fun r hr _ => ?_
  subst hr
  exact Chip.mgmtIn_outside hon up hk hd

theorem requestsEnd_held (h1 : 1 ≤ (seq + 2 ^ 64 - s.chip.mgmt.lastSeq) % 2 ^ 64)
    (h16 : (seq + 2 ^ 64 - s.chip.mgmt.lastSeq) % 2 ^ 64 ≤ 16) (new : (s.chip.mgmt.held.any fun q => q.seq == seq) = false) :
    RequestsEnd s seq a m n bs true fun r c =>
      (c.onMgmt fun x => { x with heardAt := c.age, held := x.held ++ [r] }).mgmtDrain 16 := by
  refine requestsEnd_of_mgmtIn ha hm _ fun r hr _ => ?_
  subst hr
  exact Chip.mgmtIn_held hon up hk h1 h16 new

/-- The next request is answered at once where no memory read of it waits for a migration. -/
theorem requestsEnd_next (empty : s.chip.mgmt.held = []) (hl : s.chip.mgmt.lastSeq < 2 ^ 64)
    (next : seq = (s.chip.mgmt.lastSeq + 1) % 2 ^ 64) (free : s.chip.granOn = true → s.chip.gBlocked m n = false) :
    RequestsEnd s seq a m n bs true fun r c =>
      let x := (c.onMgmt fun x => { x with heardAt := c.age, held := [r] }).mgmtDo r
      ((x.1.onMgmt fun y => { y with
        lastSeq := seq, held := y.held.filter (fun q => q.seq != seq), kept := ((seq, x.2.1, x.2.2) :: y.kept).take 16 }).emit
          (.mgmt (0x80 + r.kind) [seq, x.2.1] x.2.2)).mgmtDrain 15 := by
  refine requestsEnd_of_mgmtIn ha hm _ fun r hr read => ?_
  subst hr
  have ready : s.chip.mgmtWaits r = false := by
    by_cases hk3 : r.kind = 3
    · obtain ⟨ra, rb⟩ := read hk3
      simp only [Chip.mgmtWaits, ra, rb]
      cases on : s.chip.granOn
      · simp
      · simp [free on]
    · simp [Chip.mgmtWaits, hk3]
  exact Chip.mgmtIn_next hon up hk empty hl next ready

end Requests

theorem exec_mHello_part {peer : Nat} {data : List Byte} {ok : Bool} {f : Chip → Chip} (hp : peer < 2 ^ 32)
    (hl : data.length = 481) (h : s.chip.mHello peer data ok = f s.chip) :
    exec (.mHello peer data ok) s = .next (s.effect f) :=
  (exec_mHello ..).trans (State.run_next (Bool.and_eq_true_iff.mpr ⟨decide_eq_true hp, beq_of_eq hl⟩) h)

theorem exec_bar4Read_part {a n : Nat} {e : Ecc} (hs : s.chip.isSender = true) (up : s.chip.pcie.up = true) (ha : a < 2 ^ 40)
    (h1 : 1 ≤ n) (h4 : n ≤ 4096) :
    exec (.bar4Read a n e) s = .next (s.effect fun c => (c.gRead 10 a n e).mgmtDrain 16) :=
  (exec_bar4Read ..).trans (State.run_next (decide_eq_true ⟨ha, h1, h4⟩)
    (congrArg (Chip.mgmtDrain · 16) (if_pos (by simp [hs, up, h1, h4]))))

theorem exec_bar4Write_part {a : Nat} {data : List (Option Byte)} {e : Ecc} {f : Chip → Chip} (hs : s.chip.isSender = true)
    (up : s.chip.pcie.up = true) (ha : a < 2 ^ 40) (h1 : 1 ≤ data.length) (h5 : data.length ≤ 512)
    (h : (s.chip.each (byteRuns a data) fun c r => c.gWriteReq 10 r.1 r.2 e) = f s.chip) :
    exec (.bar4Write a data e) s = .next (s.effect fun c => (f c).mgmtDrain 16) :=
  (exec_bar4Write ..).trans (State.run_next (decide_eq_true ⟨ha, h1, h5⟩)
    (congrArg (Chip.mgmtDrain · 16) ((if_pos (by simp [hs, up, h5])).trans h)))

section Writes

variable {a : Nat} {bs : List Byte} {e : Ecc} (hs : s.chip.isSender = true) (up : s.chip.pcie.up = true) (ha : a < 2 ^ 40)
  (filled : bs ≠ []) (h5 : bs.length ≤ 512)

include hs up ha filled h5

/-- A write of which every byte is enabled is one request. -/
theorem exec_bar4Write_whole : exec (.bar4Write a (bs.map some) e) s =
    .next (s.effect fun c => (c.gWriteReq 10 a bs e).mgmtDrain 16) := by
  have bytes : 1 ≤ bs.length := List.length_pos_iff.mpr filled
  refine exec_bar4Write_part (f := fun c => c.gWriteReq 10 a bs e) hs up ha (by simpa using bytes) (by simpa using h5) ?_
  rw [byteRuns_whole filled]
  rfl

/-- A write whose first byte is not enabled leaves that byte out. -/
theorem exec_bar4Write_butFirst : exec (.bar4Write a (none :: (bs.drop 1).map some) e) s = .next (s.effect fun c =>
    (if bs.length = 1 then c else c.gWriteReq 10 (a + 1) (bs.drop 1) e).mgmtDrain 16) := by
  obtain ⟨b, r, rfl⟩ := List.exists_cons_of_ne_nil filled
  cases r with
  | nil =>
    simp only [List.length_singleton, if_true]
    exact exec_bar4Write_part (f := fun c => c) hs up ha (by simp) (by simp) rfl
  | cons d l =>
    have more : (b :: d :: l).length ≠ 1 := by simp
    simp only [if_neg more, List.drop_succ_cons, List.drop_zero]
    refine exec_bar4Write_part (f := fun c => c.gWriteReq 10 (a + 1) (d :: l) e) hs up ha (by simp) (by simpa using h5) ?_
    have rest : byteRuns a (none :: (d :: l).map some) = [(a + 1, d :: l)] := byteRuns_whole (List.cons_ne_nil d l) (a + 1)
    rw [rest]
    rfl

end Writes

/-- What PCIE_LINK_UP leaves at a sender whose link was down. -/
theorem exec_pcieLinkUp_part {gen width : Nat} (hs : s.chip.isSender = true) (hg : gen ≤ 4) (hw : width ≤ 4)
    (hp : s.chip.enabled 0x81 = true) (hq : s.chip.enabled 0x1b = true) (down : s.chip.pcie.up = false)
    (hc : s.chip.fab.commits = []) : ∃ t, exec (.pcieLinkUp gen width) s = .next t ∧ t.pending = s.pending ∧
      onlyRegs (s.chip.onPcie fun x => { x with up := true }) t.chip
        [Reg.PCIE_LINK, Reg.PG_EVENT 0x81, Fld.reg (.PG_EVENT_CNT_COUNT 0x81)] ∧
      t.chip.flag .PCIE_LINK_UP = true ∧ 1 ≤ t.chip.get .PCIE_LINK_GEN ∧
      t.chip.get .PCIE_LINK_GEN ≤ max (s.chip.get .PCIE_CFG_GEN) 1 ∧ t.chip.get .PCIE_LINK_GEN ≤ max gen 1 ∧
      t.chip.get .PCIE_LINK_WIDTH ∈ [1, 2, 4] ∧ t.chip.get .PCIE_LINK_WIDTH ≤ max width 1 ∧
      bitAt (t.chip.nat (Reg.PG_EVENT 0x81)) 0 = true := by
  obtain ⟨g, w, links, h1, h4, cfg, asked, widths, lanes⟩ := Chip.pcieUp_links hs hp hq down gen width
  have narrow : w ≤ 4 := by
    simp only [List.mem_cons, List.not_mem_nil, or_false] at widths
    omega
  obtain ⟨up, gens, lane⟩ := s.chip.linkedAt_shows h4 narrow
  have frame := s.chip.linkedAt_frame hs g w
  have settled : s.chip.after (fun c => c.pcieUp gen width) = (s.chip.linkedAt g w).settle := by
    rw [← links]
    exact Chip.after_none _ _ (by rw [links, frame.2]; exact hc)
  refine ⟨_, (exec_pcieLinkUp ..).trans (State.run_wf _ _ _ (decide_eq_true ⟨hg, hw⟩)), rfl, ?_⟩
  simp only [State.effect, settled, onlyRegs, Chip.settle_rd, Chip.settle_get, Chip.flag, Chip.nat, gens, lane]
  exact ⟨⟨frame.1, restSame_settle _ s.chip.out frame.2⟩, up, h1, cfg, asked, widths, lanes, Chip.raise_sets _ (by decide)⟩

end Commands

/-- Settles O55: each command is one case of what the endpoint or the management channel does at the part, and each kind of
request one case of what is answered. -/
theorem hostReachesThePart : Obligations.HostReachesThePart := by
  unfold Obligations.HostReachesThePart
  intro s hs
  refine ⟨fun gen width hg hw hp hq down hc => exec_pcieLinkUp_part hs hg hw hp hq down hc, fun up => ?_, fun down => ?_,
    fun hp => ?_, fun hp corr => ?_, fun hon => ?_, fun up => ?_, fun down => ?_, fun up awake he hen => ?_, fun c r => ?_⟩
  · refine ⟨?_, ?_, fun a n e ha h1 h4 => exec_bar4Read_part hs up ha h1 h4, fun a bs e ha filled h5 => ⟨?_, ?_⟩⟩
    · exact (exec_flr s).trans (State.run_next rfl (if_pos up))
    · exact (exec_pcieLinkDown s).trans (State.run_next rfl ((if_pos (by simp [hs, up])).trans (if_pos up)))
    · exact exec_bar4Write_whole hs up ha filled h5
    · exact exec_bar4Write_butFirst hs up ha filled h5
  · refine ⟨?_, ?_⟩
    · exact (exec_flr s).trans (State.run_next rfl (if_neg (by simp [down])))
    · exact (exec_pcieLinkDown s).trans (State.run_next rfl (if_neg (by simp [down])))
  · have on : ¬ ((!s.chip.isSender || !s.chip.enabled 0x81) = true) := by simp [hs, hp]
    refine ⟨?_, ?_⟩
    · exact (exec_pcieAerError ..).trans (State.run_next rfl (if_neg on))
    · exact (exec_pcieAerError ..).trans (State.run_next rfl (if_neg on))
  · exact (exec_pcieAerError ..).trans (State.run_next rfl (if_pos (by simp [hp])))
  · refine ⟨fun seq a m n bs tag ha hm up => ?_, fun peer data hpeer hl down => ?_, fun seq peer hseq hh => ?_, fun up => ?_⟩
    · intro ends heard d
      refine ⟨fun no => ?_, fun yes => ⟨fun k hk => ?_, fun hk => ⟨fun out => ?_, fun h1 h16 new => ?_,
        fun empty hl next free => ?_⟩⟩⟩
      · subst no
        exact requestsEnd_untagged ha hm hon up
      · subst yes
        exact requestsEnd_kept ha hm hon up hk
      · subst yes
        exact requestsEnd_outside ha hm hon up hk out
      · subst yes
        exact requestsEnd_held ha hm hon up hk h1 h16 new
      · subst yes
        exact requestsEnd_next ha hm hon up hk empty hl next free
    · refine ⟨?_, fun cert owner life still => ?_, fun empty => ?_⟩
      · exact exec_mHello_part hpeer hl (Chip.mHello_refused hon down)
      · exact exec_mHello_part hpeer hl (Chip.mHello_accepted hon down cert owner life still)
      · exact exec_mHello_part hpeer hl (Chip.mHello_noOwner hon down empty)
    · refine ⟨?_, ?_⟩
      · exact (exec_mFinish ..).trans (State.run_next (decide_eq_true hseq) (Chip.mFinish_refused hh seq))
      · exact (exec_mFinish ..).trans (State.run_next (decide_eq_true hseq) (Chip.mFinish_begins hon hh seq))
    · refine ⟨?_, ?_⟩
      · exact (exec_mClose ..).trans (State.run_next rfl (Chip.mClose_tagged hon up true))
      · exact (exec_mClose ..).trans (State.run_next rfl (Chip.mClose_tagged hon up false))
  · refine (exec_mgmtSessionSilence s).trans (State.run_next rfl ?_)
    rw [if_pos up]
    exact Chip.mgmtSilence_ends up
  · refine (exec_mgmtSessionSilence s).trans (State.run_next rfl ?_)
    rw [if_neg (ne_true_of_eq_false down)]
    exact if_neg (by simp [down])
  · exact (exec_laneMLink ..).trans (State.run_next rfl ((if_neg awake).trans (if_pos (by simp [hs, he, hen]))))
  · refine ⟨fun hk => ⟨fun bad => ?_, fun h1 h2 => ⟨?_, c.wordReads_length .mgmt r.a r.b⟩⟩, fun hk => ⟨fun bad => ?_, fun v hv => ?_⟩,
      fun hk => ⟨fun bad => ?_, fun h1 h2 => ?_⟩, fun hk => ⟨fun bad => ?_, fun h1 h2 => ?_⟩, fun hk => ?_, fun n idle => ?_, ?_⟩
    · exact (c.mgmtDo_regRd hk).trans (if_pos bad)
    · exact (c.mgmtDo_regRd hk).trans (if_neg (by omega))
    · exact (c.mgmtDo_regWr hk).trans (if_pos bad)
    · exact c.mgmtDo_oneWord hk v hv
    · exact (c.mgmtDo_memRd hk).trans (if_pos bad)
    · exact (c.mgmtDo_memRd hk).trans (if_neg (by omega))
    · exact (c.mgmtDo_memWr hk).trans (if_pos bad)
    · exact (c.mgmtDo_memWr hk).trans (if_neg (by simp [h1, h2]))
    · exact c.mgmtDo_doorbell hk
    · exact Chip.mgmtDrain_idle idle n
    · exact c.mgmtEnd_ends

end Sys2Proof.Proofs
end

section
/-!
PROOF. What a step is, which commands are carried out, that the queue drains, and what a power-on reset leaves (O1, O2, O4, O31).
-/

open Sys2Proof Sys2Proof.Machine Sys2Proof.Safety

namespace Sys2Proof.Proofs

/-- Settles O1: both clauses are the two branches of a step. -/
theorem stepRunsFrontCommand : Obligations.StepRunsFrontCommand := by
  unfold Obligations.StepRunsFrontCommand
  refine ⟨fun i s => rfl, fun s idle => ?_⟩
  simp only [step, idle]

/-- Settles O2: a command is carried out alike whatever its effect, and only where it is well formed. -/
theorem everyCommandCompletes : Obligations.EveryCommandCompletes := by
  unfold Obligations.EveryCommandCompletes
  intro i s
  obtain ⟨f, run⟩ := exec_run i s
  refine ⟨fun wf => ⟨s.effect f, run.trans (State.run_wf i f s wf), rfl⟩, fun bad => ?_⟩
  exact run.trans (State.run_bad i f s bad)

/-- A run begins with its first step. -/
theorem run_of_step {M : Host.Core} {s t : M.State} (h : M.step s = .next t) (k : Nat) : M.run (k + 1) s = M.run k t := by
  rw [Host.Core.run.eq_def]
  simp only [h]

/-- As many steps as commands wait carry out all of them, if each is well formed. -/
theorem run_drains (l : List Instr) (wf : l.all Instr.wf = true) (s : State) (waits : s.pending = l) :
    ∃ t, core.run l.length s = .next t ∧ t.pending = [] := by
  induction l generalizing s with
  | nil => exact ⟨s, rfl, waits⟩
  | cons i rest ih =>
    obtain ⟨hi, hrest⟩ : i.wf = true ∧ rest.all Instr.wf = true := by simpa using wf
    obtain ⟨f, done⟩ := exec_wf { s with pending := rest } hi
    have front : core.step s = .next (State.effect { s with pending := rest } f) := by
      refine Eq.trans ?_ done
      change step s = _
      simp only [step, waits]
    obtain ⟨t, run, empty⟩ := ih hrest (State.effect { s with pending := rest } f) rfl
    exact ⟨t, (run_of_step front rest.length).trans run, empty⟩

/-- Settles O4. -/
theorem queueDrains : Obligations.QueueDrains := by
  unfold Obligations.QueueDrains
  exact fun s wf => run_drains s.pending wf s rfl

/-- Settles O31: a power-on reset leaves the reset part with what lasts, no commit waits there, and the Crier's work adds no
register and no state of a block. -/
theorem powerOnResetClearsAll : Obligations.PowerOnResetClearsAll := by
  unfold Obligations.PowerOnResetClearsAll
  intro s cleared
  have off : cleared (s.effect Chip.powerOn) := by
    have settled : (s.effect Chip.powerOn).chip = s.chip.powerOn.settle := Chip.after_none _ _ rfl
    simp only [cleared, settled, Chip.settle_pwr, Chip.settle_rd, Chip.settle_rdS, Chip.settle_gran, Chip.settle_gate,
      Chip.settle_fuses, Chip.settle_store, Chip.settle_upd, Chip.settle_age]
    exact ⟨rfl, rfl, fun a => ⟨rfl, rfl⟩, rfl, rfl, rfl, rfl, rfl, rfl, rfl⟩
  exact ⟨⟨_, rfl, off⟩, _, rfl, off⟩

end Sys2Proof.Proofs
end

section
/-!
SUPPORT. The Well's rings: their operations, doorbells, descriptors taken, fences and notifies (R301–R309, R318).
-/

namespace Sys2Proof.Machine

open Safety

/-! ### The commands as effects -/

theorem exec_ringEnable (rq : Requester) (w : Nat) (s : State) : exec (.ringEnable rq w) s =
    s.run (.ringEnable rq w) fun c => c.regWrite rq Reg.WELL_RING_CTRL (ringWord 1 w) noVerdict := rfl

theorem exec_ringFlush (rq : Requester) (w : Nat) (s : State) : exec (.ringFlush rq w) s =
    s.run (.ringFlush rq w) fun c => c.regWrite rq Reg.WELL_RING_CTRL (ringWord 2 w) noVerdict := rfl

theorem exec_ringResume (rq : Requester) (w : Nat) (s : State) : exec (.ringResume rq w) s =
    s.run (.ringResume rq w) fun c => c.regWrite rq Reg.WELL_RING_CTRL (ringWord 3 w) noVerdict := rfl

theorem exec_ringDisable (rq : Requester) (w : Nat) (s : State) : exec (.ringDisable rq w) s =
    s.run (.ringDisable rq w) fun c => c.regWrite rq Reg.WELL_RING_CTRL (ringWord 4 w) noVerdict := rfl

theorem exec_sqDoorbell (w v : Nat) (s : State) : exec (.sqDoorbell w v) s =
    s.run (.sqDoorbell w v) fun c => c.pcieDoorbell (4 * w) v := rfl

theorem exec_cqDoorbell (w v : Nat) (s : State) : exec (.cqDoorbell w v) s =
    s.run (.cqDoorbell w v) fun c => c.pcieDoorbell (0x10000 + 4 * w) v := rfl

theorem exec_descriptorTake (w : Nat) (s : State) : exec (.descriptorTake w) s =
    s.run (.descriptorTake w) fun c => c.wellTake w := rfl

theorem exec_tickFence (w : Nat) (s : State) : exec (.tickFence w) s = s.run (.tickFence w) fun c => c.wellTake w := rfl

theorem exec_barrier (w : Nat) (s : State) : exec (.barrier w) s = s.run (.barrier w) fun c => c.unblock w 0x10 := rfl

theorem exec_tickFenceDone (s : State) : exec .tickFenceDone s = s.run .tickFenceDone Chip.fencesDone := rfl

theorem exec_notifyHoldoff (w dt : Nat) (s : State) : exec (.notifyHoldoff w dt) s =
    s.run (.notifyHoldoff w dt) fun c => (c.elapse dt).notifyHoldoff w := rfl

/-! ### WELL_RING_CTRL (R302, R309) -/

/-- The fields of a ring operation's word. -/
theorem bitsOf_ringWord {op w : Nat} (ho : op < 16) (hw : w < 16384) :
    bitsOf (ringWord op w) 31 28 = op ∧ bitsOf (ringWord op w) 13 0 = w := by
  simp only [bitsOf, ringWord, BitVec.toNat_ofNat]
  omega

section Operations

variable {c : Chip} {rq : Requester} {x : Verdict} {w : Nat}

theorem Chip.regWrite_ringCtrl (v : Word) (ht : takes c rq Reg.WELL_RING_CTRL = true) :
    c.regWrite rq Reg.WELL_RING_CTRL v x = c.ringCtrl v := by
  obtain ⟨r, row, acc⟩ : ∃ r, rowOf Reg.WELL_RING_CTRL = some r ∧ r.acc = .wo := Option.map_eq_some_iff.1 (by decide)
  have page : classOf (Reg.WELL_RING_CTRL / 0x1000) = some (.well, 0) := by decide
  exact c.regWrite_wo rq _ v x r ht row (by decide) (c.roleZero_other _ (by decide)) acc page

/-- With no operation in progress a word starts its own. -/
theorem Chip.ringCtrl_idle (idle : c.flag .WELL_RING_RES_BUSY = false) (hw : w < 16384) :
    c.ringCtrl (ringWord 1 w) = c.ringEnable w ∧ c.ringCtrl (ringWord 2 w) = c.ringFlush w ∧
      c.ringCtrl (ringWord 3 w) = c.ringResume w ∧ c.ringCtrl (ringWord 4 w) = c.ringDisable w := by
  have op (n : Nat) (hn : n < 16) : bitsOf (ringWord n w) 31 28 = n := (bitsOf_ringWord hn hw).1
  have ring (n : Nat) (hn : n < 16) : bitsOf (ringWord n w) 13 0 = w := (bitsOf_ringWord hn hw).2
  refine ⟨?_, ?_, ?_, ?_⟩ <;> simp [Chip.ringCtrl, idle, op, ring]

section Unknown

variable (hp : c.pairAt w = none)

include hp

/-- ENABLE of a pair not enabled reads its entry (R301, R302). -/
theorem Chip.ringEnable_new : c.ringEnable w =
    if c.entryOk (c.readPair w) then ((c.setPair' w (c.readPair w)).pairSync w).ringRes w 0 else c.ringRes w 1 := by
  simp [Chip.ringEnable, hp]

theorem Chip.ringFlush_unknown : c.ringFlush w = c.ringRes w 3 := by simp only [Chip.ringFlush, hp]

theorem Chip.ringResume_unknown : c.ringResume w = c.ringRes w 3 := by simp only [Chip.ringResume, hp]

theorem Chip.ringDisable_unknown : c.ringDisable w = c.ringRes w 3 := by simp only [Chip.ringDisable, hp]

theorem Chip.sqDoorbell_unknown (v : Nat) : c.sqDoorbell w v = c.dbErr := by simp only [Chip.sqDoorbell, hp]

theorem Chip.cqDoorbell_unknown (v : Nat) : c.cqDoorbell w v = c.dbErr := by simp only [Chip.cqDoorbell, hp]

theorem Chip.wellTake_unknown : c.wellTake w = c := by simp only [Chip.wellTake, hp]

end Unknown

section Known

variable {p : Pair} (hp : c.pairAt w = some p)

include hp

theorem Chip.ringEnable_again : c.ringEnable w = c.ringRes w 3 := by simp [Chip.ringEnable, hp]

/-- FLUSH acts on a halted ring alone (R309). -/
theorem Chip.ringFlush_known : c.ringFlush w =
    if p.state = 2 then
      let d := (c.setPair' w { p with state := 3, flushTo := some p.sqTail }).setNat Reg.WELL_RING_RES (2 ^ 31 + w % 16384)
      (d.pairSync w).flushAll w (d.flushLeft w)
    else c.ringRes w 3 := by simp only [Chip.ringFlush, hp]

theorem Chip.ringResume_known : c.ringResume w =
    if p.state = 2 then ((c.setPair' w { p with state := 1 }).pairSync w).ringRes w 0 else c.ringRes w 3 := by
  simp only [Chip.ringResume, Chip.onPair, hp]

/-- DISABLE waits for no flush, and takes a ring that is empty with nothing in flight (R309). -/
theorem Chip.ringDisable_known : c.ringDisable w =
    if p.state = 3 then c.ringRes w 3
    else if (c.takenOf w).isEmpty && p.sqHead == p.sqTail then
      (((c.setPair' w { p with state := 0 }).pairSync w).onWell fun x => { x with pairs := x.pairs.filter (·.1 != w) }).ringRes w 0
    else c.ringRes w 2 := by simp only [Chip.ringDisable, Chip.onPair, hp]

theorem Chip.sqDoorbell_known (v : Nat) : c.sqDoorbell w v =
    if 2 ^ p.sqLog < idxDist v p.sqHead then c.dbErr else c.setPair' w { p with sqTail := v % 65536 } := by
  simp only [Chip.sqDoorbell, hp]

theorem Chip.cqDoorbell_known (v : Nat) : c.cqDoorbell w v =
    if p.unconsumed < idxDist v p.cqHead then c.dbErr
    else
      let d := (c.setPair' w { p with cqHead := v % 65536, stamps := p.stamps.drop (idxDist v p.cqHead) }).putDrops w
      d.flushAll w (d.flushLeft w) := by simp only [Chip.cqDoorbell, hp]

end Known

/-! ### Doorbells (R303) -/

/-- With no mirror writes to wait for, a doorbell of a sender with its link up goes to its ring. -/
theorem Chip.pcieDoorbell_direct (hs : c.isSender = true) (up : c.pcie.up = true) (alone : c.twinHolds = false) {v : Nat}
    (hw : w < 16384) (hv : v < 65536) :
    c.pcieDoorbell (4 * w) v = c.sqDoorbell w v ∧ c.pcieDoorbell (0x10000 + 4 * w) v = c.cqDoorbell w v := by
  have rings (kind : Nat) : c.doorbell kind w v = if kind = 0 then c.sqDoorbell w v else c.cqDoorbell w v := by
    simp [Chip.doorbell, alone]
  have word : v % 65536 = v := Nat.mod_eq_of_lt hv
  have aligned : ¬ 4 * w % 4 ≠ 0 ∧ ¬ (0x10000 + 4 * w) % 4 ≠ 0 := by omega
  have low : 4 * w < 0x10000 ∧ ¬ 0x10000 + 4 * w < 0x10000 ∧ 0x10000 + 4 * w < 0x20000 := by omega
  have ring : 4 * w / 4 = w ∧ (0x10000 + 4 * w - 0x10000) / 4 = w := by omega
  obtain ⟨sq, cq⟩ := aligned
  obtain ⟨inSq, notSq, inCq⟩ := low
  obtain ⟨sqRing, cqRing⟩ := ring
  simp only [Chip.pcieDoorbell, hs, up, Bool.and_self, if_true, Chip.bar2Doorbell, if_neg sq, if_neg cq, if_pos inSq, if_neg notSq,
    if_pos inCq, sqRing, cqRing, word, rings, one_ne_zero, if_false, and_self]

end Operations

/-! ### Descriptors (R304–R310) -/

section Take

variable {c : Chip} {w : Nat} {p : Pair} (hp : c.pairAt w = some p)

include hp

theorem Chip.wellTake_stays (no : c.canTake w p = false) : c.wellTake w = c := by simp [Chip.wellTake, hp, no]

/-- The head of a ring that may be taken, and is no replay after a switchover, is acted on (R306, R341). -/
theorem Chip.wellTake_takes (hs : c.isSender = true) (may : c.canTake w p = true) (first : c.replaying w = false) :
    c.wellTake w = c.takeDesc w false := by simp [Chip.wellTake, hp, hs, may, first]

/-- A fence completes LATE where its tick has been executed, and holds its ring else (R308). -/
theorem Chip.takeDesc_fence (op : (c.headDesc p).op = 0x11) : c.takeDesc w false =
    let x := c.takeHead w p false
    if c.bell.tick.isSome && decide ((c.headDesc p).aux ≤ c.lastIndex) then x.1.complete x.2 { result 0 0 with late := true } 0
    else x.1.blockBy w x.2.num := by
  simp only [Chip.takeDesc, hp]
  exact if_pos op

/-- The part once the head of a ring is taken and the data it writes have been read. -/
def Chip.headRead (c : Chip) (w : Nat) (p : Pair) : Chip :=
  let d := c.headDesc p
  let x := c.takeHead w p false
  x.1.when (d.usesBuf && d.writes && decide (d.buf + d.count ≤ x.1.granTop)) fun c => c.gReadCount d.buf d.count

/-- A command is checked, and one that passes moves nothing, or has no tile to go to, or is sent (R305, R306). -/
theorem Chip.takeDesc_command (barrier : (c.headDesc p).op ≠ 0x10) (fence : (c.headDesc p).op ≠ 0x11) : c.takeDesc w false =
    let d := c.headDesc p
    let t := (c.takeHead w p false).2
    let y := c.headRead w p
    match y.descCause d with
    | some k => y.complete t (result 1 k) 0
    | none =>
      if d.count = 0 ∧ d.op ≤ 4 then y.complete t (result 0 0) 0
      else if d.tgt = 0 ∧ y.reachable p.wdn = false then y.complete t (result 1 13) 0
      else (y.when (bitAt d.dflags 0) fun c => c.blockBy w t.num).dispatch w t := by
  simp only [Chip.takeDesc, hp]
  exact (if_neg fence).trans (if_neg barrier)

end Take

/-! ### What holds a ring (R307, R308) -/

section Unblock

variable {c : Chip} {w : Nat} {p : Pair} {t : Taken} (hp : c.pairAt w = some p) (held : p.block = some t.num)
  (found : c.well.taken.find? (fun u => u.num == t.num) = some t)

include hp held found

theorem Chip.unblock_holder (op : Nat) : c.unblock w op =
    if t.desc.op = op ∧ op = 0x10 ∧ t.after = [] then c.complete t (result 0 0) 0
    else if t.desc.op = op ∧ op = 0x11 ∧ c.bell.tick.isSome = true ∧ t.desc.aux ≤ c.lastIndex then c.complete t (result 0 0) 0
    else c := by
  simp only [Chip.unblock, hp, held, Option.bind_some, found]

end Unblock

/-- With one fence taken, TICK_FENCE_DONE is a look at what holds its ring. -/
theorem Chip.fencesDone_one {c : Chip} {w : Nat} {t : Taken} (hw : t.pair = w)
    (only : (c.well.taken.filter fun u => u.desc.op == 0x11) = [t]) :
    c.fencesDone = c.unblock w 0x11 := by
  simp only [Chip.fencesDone, only, List.map_cons, List.map_nil, hw]
  rfl

/-! ### Notifies (R318) -/

/-- The pairs stay while time passes. -/
theorem Chip.pairAt_elapse (c : Chip) (dt w : Nat) : (c.elapse dt).pairAt w = c.pairAt w := rfl

/-- Time passes until the oldest entry not yet notified for has waited HOLDOFF, and its pair is notified. -/
theorem Chip.notifyHoldoff_due {c : Chip} {w at_ : Nat} {p : Pair} (hp : c.pairAt w = some p)
    (first : p.stamps.find? (fun x => !x.2) = some (at_, false)) : c.notifyHoldoff w =
      let h := us (c.get .WELL_NOTIFY_CFG_HOLDOFF)
      let d := c.elapseAge (at_ + h)
      let e := d.setPair' w { p with stamps := p.stamps.map fun y => (y.1, y.2 || decide (y.1 + h ≤ d.age)) }
      e.when (bitAt p.rflags 0) fun e =>
        (e.setNat Reg.WELL_NOTIFY (setBitAt (e.nat Reg.WELL_NOTIFY) (p.ngrp % 32) true)).raise .WELL_CQ_NOTIFY := by
  simp only [Chip.notifyHoldoff, hp, first]
  rfl

theorem Chip.notifyHoldoff_none {c : Chip} {w : Nat} {p : Pair} (hp : c.pairAt w = some p)
    (first : p.stamps.find? (fun x => !x.2) = none) : c.notifyHoldoff w = c := by
  simp only [Chip.notifyHoldoff, hp, first]

end Sys2Proof.Machine
end

section
/-!
PROOF. O54: ring operations, doorbells, descriptors, fences and notifies.
-/

open Sys2Proof Sys2Proof.Machine Sys2Proof.Safety

namespace Sys2Proof.Proofs

section Rings

variable {s : State} {rq : Requester} {w : Nat} (hw : w < 16384)

include hw

/-- Each ring command that is taken with no operation in progress is its operation on the ring. -/
theorem exec_ringOperations (ht : takes s.chip rq Reg.WELL_RING_CTRL = true) (idle : s.chip.flag .WELL_RING_RES_BUSY = false) :
    (∀ f : Chip → Chip, s.chip.ringEnable w = f s.chip → exec (.ringEnable rq w) s = .next (s.effect f)) ∧
      (∀ f : Chip → Chip, s.chip.ringFlush w = f s.chip → exec (.ringFlush rq w) s = .next (s.effect f)) ∧
      (∀ f : Chip → Chip, s.chip.ringResume w = f s.chip → exec (.ringResume rq w) s = .next (s.effect f)) ∧
      ∀ f : Chip → Chip, s.chip.ringDisable w = f s.chip → exec (.ringDisable rq w) s = .next (s.effect f) := by
  have ctrl (v : Word) := Chip.regWrite_ringCtrl (x := noVerdict) v ht
  obtain ⟨enable, flush, resume, disable⟩ := Chip.ringCtrl_idle idle hw
  refine ⟨fun f h => ?_, fun f h => ?_, fun f h => ?_, fun f h => ?_⟩
  · exact (exec_ringEnable ..).trans (State.run_next (decide_eq_true hw) ((ctrl _).trans (enable.trans h)))
  · exact (exec_ringFlush ..).trans (State.run_next (decide_eq_true hw) ((ctrl _).trans (flush.trans h)))
  · exact (exec_ringResume ..).trans (State.run_next (decide_eq_true hw) ((ctrl _).trans (resume.trans h)))
  · exact (exec_ringDisable ..).trans (State.run_next (decide_eq_true hw) ((ctrl _).trans (disable.trans h)))

/-- A doorbell that waits for no mirror writes is its ring's. -/
theorem exec_doorbells {v : Nat} (hv : v < 65536) (hs : s.chip.isSender = true) (up : s.chip.pcie.up = true)
    (alone : s.chip.twinHolds = false) :
    (∀ f : Chip → Chip, s.chip.sqDoorbell w v = f s.chip → exec (.sqDoorbell w v) s = .next (s.effect f)) ∧
      ∀ f : Chip → Chip, s.chip.cqDoorbell w v = f s.chip → exec (.cqDoorbell w v) s = .next (s.effect f) := by
  obtain ⟨sq, cq⟩ := Chip.pcieDoorbell_direct hs up alone hw hv
  refine ⟨fun f h => ?_, fun f h => ?_⟩
  · exact (exec_sqDoorbell ..).trans (State.run_next (decide_eq_true ⟨hw, hv⟩) (sq.trans h))
  · exact (exec_cqDoorbell ..).trans (State.run_next (decide_eq_true ⟨hw, hv⟩) (cq.trans h))

/-- DESCRIPTOR_TAKE and TICK_FENCE take the head of a ring alike. -/
theorem exec_takes {f : Chip → Chip} (h : s.chip.wellTake w = f s.chip) :
    exec (.descriptorTake w) s = .next (s.effect f) ∧ exec (.tickFence w) s = .next (s.effect f) :=
  ⟨(exec_descriptorTake ..).trans (State.run_next (decide_eq_true hw) h),
    (exec_tickFence ..).trans (State.run_next (decide_eq_true hw) h)⟩

end Rings

/-- Settles O54: each clause is the branch of its operation that the hypotheses of the clause choose. -/
theorem ringsTakeAndComplete : Obligations.RingsTakeAndComplete := by
  unfold Obligations.RingsTakeAndComplete
  intro s rq w hw hs
  refine ⟨fun ht idle => ?_, fun v hv up alone => ?_, ?_, fun p t hp held found hpair => ?_, fun dt => ?_⟩
  · obtain ⟨enable, flush, resume, disable⟩ := exec_ringOperations hw ht idle
    refine ⟨fun p hp => ⟨?_, fun halted => ⟨?_, ?_⟩, fun runs => ⟨?_, ?_⟩, fun open_ => ⟨fun none empty => ?_, fun busy => ?_⟩⟩,
      fun hp => ⟨?_, ?_, ?_, fun ok => ?_, fun bad => ?_⟩⟩
    · exact enable _ (Chip.ringEnable_again hp)
    · refine flush _ ((Chip.ringFlush_known hp).trans ((if_pos halted).trans ?_))
      rw [Nat.mod_eq_of_lt hw]
    · exact resume _ ((Chip.ringResume_known hp).trans (if_pos halted))
    · exact flush _ ((Chip.ringFlush_known hp).trans (if_neg runs))
    · exact resume _ ((Chip.ringResume_known hp).trans (if_neg runs))
    · exact disable _ ((Chip.ringDisable_known hp).trans ((if_neg open_).trans (if_pos (by simp [none, empty]))))
    · refine disable _ ((Chip.ringDisable_known hp).trans ((if_neg open_).trans (if_neg ?_)))
      rcases busy with h | h <;> simp [h]
    · exact flush _ (Chip.ringFlush_unknown hp)
    · exact resume _ (Chip.ringResume_unknown hp)
    · exact disable _ (Chip.ringDisable_unknown hp)
    · exact enable _ ((Chip.ringEnable_new hp).trans (if_pos ok))
    · exact enable _ ((Chip.ringEnable_new hp).trans (if_neg (ne_true_of_eq_false bad)))
  · obtain ⟨sq, cq⟩ := exec_doorbells hw hv hs up alone
    have word : v % 65536 = v := Nat.mod_eq_of_lt hv
    refine ⟨fun hp => ⟨?_, ?_⟩, fun p hp => ⟨fun beyond => ?_, fun fits => ?_, fun beyond => ?_, fun fits => ?_⟩⟩
    · exact sq _ (Chip.sqDoorbell_unknown hp v)
    · exact cq _ (Chip.cqDoorbell_unknown hp v)
    · exact sq _ ((Chip.sqDoorbell_known hp v).trans (if_pos beyond))
    · exact sq _ ((Chip.sqDoorbell_known hp v).trans ((if_neg fits.not_gt).trans (by rw [word])))
    · exact cq _ ((Chip.cqDoorbell_known hp v).trans (if_pos beyond))
    · exact cq _ ((Chip.cqDoorbell_known hp v).trans ((if_neg fits.not_gt).trans (by rw [word])))
  · refine ⟨fun hp => exec_takes hw (Chip.wellTake_unknown hp), fun p hp => ⟨fun no => ?_, fun may first => ?_⟩⟩
    · exact exec_takes hw (Chip.wellTake_stays hp no)
    · have took := Chip.wellTake_takes hp hs may first
      refine ⟨fun op => ⟨fun tick past => ?_, fun ahead => ?_⟩, fun barrier fence => ?_⟩
      · exact exec_takes hw (took.trans ((Chip.takeDesc_fence hp op).trans (if_pos (by simpa [tick] using past))))
      · exact exec_takes hw (took.trans ((Chip.takeDesc_fence hp op).trans (if_neg (by simpa using fun _ => ahead))))
      · have command := took.trans (Chip.takeDesc_command hp barrier fence)
        refine ⟨fun k fails => ?_, fun passes => ⟨fun empty op => ?_, fun some tgt far => ?_, fun some near => ?_⟩⟩
        · refine exec_takes hw (command.trans ?_)
          change (s.chip.headRead w p).descCause _ = _ at fails
          simp only [fails]
          rfl
        all_goals
          change (s.chip.headRead w p).descCause _ = _ at passes
          refine exec_takes hw (command.trans ?_)
          simp only [passes]
        · exact if_pos ⟨empty, op⟩
        · exact (if_neg fun h => some h.1).trans (if_pos ⟨tgt, far⟩)
        · refine (if_neg fun h => some h.1).trans (if_neg fun h => ?_)
          exact near.elim (fun k => k h.1) fun k => nomatch k.symm.trans h.2
  · have holder := Chip.unblock_holder hp held found
    refine ⟨fun op free => ?_, fun op waits => ?_, fun op only => ⟨fun tick past => ?_, fun ahead => ?_⟩⟩
    · exact (exec_barrier ..).trans (State.run_next (decide_eq_true hw) ((holder _).trans (if_pos ⟨op, rfl, free⟩)))
    · refine (exec_barrier ..).trans (State.run_next (decide_eq_true hw) ((holder _).trans ?_))
      exact (if_neg fun h => waits h.2.2).trans (if_neg fun h => nomatch h.2.1)
    · have done := (Chip.fencesDone_one hpair only).trans (holder _)
      exact (exec_tickFenceDone s).trans (State.run_next rfl
        (done.trans ((if_neg fun h => nomatch h.2.1).trans (if_pos ⟨op, rfl, tick, past⟩))))
    · have done := (Chip.fencesDone_one hpair only).trans (holder _)
      exact (exec_tickFenceDone s).trans (State.run_next rfl
        (done.trans ((if_neg fun h => nomatch h.2.1).trans (if_neg fun h => ahead.not_ge h.2.2.2))))
  · refine ⟨fun p at_ hp first => ?_, fun p hp first => ?_⟩
    · exact (exec_notifyHoldoff ..).trans (State.run_next (decide_eq_true hw) (Chip.notifyHoldoff_due hp first))
    · exact (exec_notifyHoldoff ..).trans (State.run_next (decide_eq_true hw) (Chip.notifyHoldoff_none hp first))

end Sys2Proof.Proofs
end

section
/-!
SUPPORT. The pair's handshake at a RETURNED part (R359), and the policy bits of the Reeve cores (R364).
-/

namespace Sys2Proof.Machine

open Safety

/-- With no commit waiting, two effects that answer the same next state make the same part, but for the Crier's work. -/
theorem State.effect_inj {s : State} {f g : Chip → Chip}
    (h : (Host.Outcome.next (s.effect f) : Host.Outcome State Fault Refusal) = .next (s.effect g))
    (hf : (f s.chip).fab.commits = []) (hg : (g s.chip).fab.commits = []) : (f s.chip).settle = (g s.chip).settle := by
  have same : (s.effect f).chip = (s.effect g).chip := congrArg State.chip (Host.Outcome.next.inj h)
  simpa only [State.effect, Chip.after_none _ _ hf, Chip.after_none _ _ hg] using same

theorem exec_twinPairHandshake (cert owner sig peer : Bool) (eph : Nat) (s : State) :
    exec (.twinPairHandshake cert owner sig peer eph) s =
      s.run (.twinPairHandshake cert owner sig peer eph) fun c => c.pairShake cert owner sig peer eph := rfl

/-- A part that is RETURNED signs nothing with its identity key: its handshake changes nothing (R359, log entry 115). -/
theorem Chip.pairShake_returned {c : Chip} (life : c.fuses.lifecycle = 2) (cert owner sig peer : Bool) (eph : Nat) :
    c.pairShake cert owner sig peer eph = c := if_neg (by simp [life])

theorem exec_polDataWrite (rq : Requester) (v : Word) (s : State) : exec (.polDataWrite rq v) s =
    s.run (.polDataWrite rq v) fun c => c.regWrite rq Reg.GATE_POL_DATA v noVerdict := rfl

/-- A write of GATE_POL_DATA stores its low half in the shadow policy, with the bits of the Reeve cores set (R364). -/
theorem Chip.regWrite_polData {c : Chip} {rq : Requester} {x : Verdict} (v : Word) (ht : takes c rq Reg.GATE_POL_DATA = true) :
    c.regWrite rq Reg.GATE_POL_DATA v x = c.polWrite (v &&& 0xffff) := by
  have row : rowOf Reg.GATE_POL_DATA = some ⟨0x068, 1, 0x0, .rw, 0x00000000, 0x0000ffff, .plain⟩ := by decide
  have page : classOf (Reg.GATE_POL_DATA / 0x1000) = some (.gate, 0) := by decide
  exact c.regWrite_rw rq _ v x _ ht row (by decide) (c.roleZero_other _ (by decide)) rfl page

end Sys2Proof.Machine
end

section
/-!
PROOF. O56 and O58: a part at which the pair's handshake does nothing, and a shadow policy entry that is not the word written.
-/

open Sys2Proof Sys2Proof.Machine Sys2Proof.Safety

namespace Sys2Proof.Proofs

/-- A sender whose part is RETURNED, with its twin link up and an owner key in slot 3. -/
def returnedTwin : Chip :=
  ((((({ chipReset with fuses := { chipReset.fuses with lifecycle := 2 } }.put .SYS_ROLE_ROLE 1).put (.PG_STATUS_ENABLED 0x90) 1).put
    .TWIN_CFG_EN 1).onTwin fun t => { t with up := true }).setSlot 3 (loadedSlot 4 7 0 none))

/-- Refutes O56: of the handshake the statement says that it draws a number and sends the part's certificate wherever the page, the
link and slot 3 allow it. The part `returnedTwin` is RETURNED, and there the handshake does nothing (`Chip.pairShake_returned`). -/
theorem not_twinLinkCarriesTheCopy : ¬ Obligations.TwinLinkCarriesTheCopy := by
  unfold Obligations.TwinLinkCarriesTheCopy
  intro claim
  obtain ⟨shake, -⟩ := claim ⟨returnedTwin, []⟩ .pcie (by decide)
  obtain ⟨-, unkeyed⟩ := shake false false false false 0 (by decide) (by decide) (by decide) (by decide)
  have nothing := (exec_twinPairHandshake false false false false 0 ⟨returnedTwin, []⟩).trans
    (State.run_next (g := fun c => c) rfl (Chip.pairShake_returned (c := returnedTwin) rfl false false false false 0))
  have same := State.effect_inj (nothing.symm.trans (unkeyed rfl)) rfl rfl
  have draws := congrArg Chip.draws same
  simp only [Chip.settle_draws] at draws
  exact absurd draws (by decide)

/-- A part with every power domain on, so that a write of the policy by a Reeve core reaches its register. -/
def policyPart : Chip := chipReset.onPwr fun p => { p with dom := 2 ^ 80 - 1 }

/-- Refutes O58: of a write of GATE_POL_DATA the statement says that the shadow entry takes the low half of the word as it is. At the
part `policyPart` a core writes 0 to entry 0, and the entry reads 0x3C3C: the bits of the Reeve cores always read 1
(`Chip.regWrite_polData`). -/
theorem not_keysPolicyAndTamper : ¬ Obligations.KeysPolicyAndTamper := by
  unfold Obligations.KeysPolicyAndTamper
  intro claim
  obtain ⟨-, -, -, -, -, write, -⟩ := claim ⟨policyPart, []⟩ (.core 0)
  have reached : takes policyPart (.core 0) Reg.GATE_POL_DATA = true := by decide
  have stores := (exec_polDataWrite (.core 0) 0 ⟨policyPart, []⟩).trans
    (State.run_next (g := fun c => c.polWrite 0) rfl (Chip.regWrite_polData 0 reached))
  have same := State.effect_inj (stores.symm.trans (write reached 0)) rfl rfl
  have entry := congrArg (fun c => spGet polReset c.gate.polShadow 0) same
  simp only [Chip.settle_gate] at entry
  exact absurd entry (by decide)

end Sys2Proof.Proofs
end

section
/-!
SUPPORT. A read of WEATHER_PEAK through the debug port (R32, R407).
-/

namespace Sys2Proof.Machine

open Safety

theorem exec_weatherPeakRead (rq : Requester) (s : State) :
    exec (.weatherPeakRead rq) s = s.run (.weatherPeakRead rq) fun c => c.readOut rq Reg.WEATHER_PEAK := rfl

/-- Through the debug port WEATHER_PEAK is read and not re-armed: what a read clears is cleared for other requesters alone (R32). -/
theorem Chip.readOut_peak_debug {c : Chip} (hr : reads c .debug Reg.WEATHER_PEAK = true) :
    c.readOut .debug Reg.WEATHER_PEAK =
      (c.unheld Reg.WEATHER_PEAK).emit (.read Reg.WEATHER_PEAK (c.regWord Reg.WEATHER_PEAK)) := by
  simp only [reads, Bool.and_eq_true, beq_iff_eq, Bool.not_eq_true', Option.isNone_iff_eq_none] at hr
  obtain ⟨⟨passes, answers⟩, -⟩ := hr
  have moves : c.readMoves Reg.WEATHER_PEAK = c.unheld Reg.WEATHER_PEAK := if_neg (by simp)
  rw [c.readOut_reached .debug passes (.inl answers), Chip.readEffect_eq, if_pos rfl, moves]

end Sys2Proof.Machine
end

section
/-!
PROOF. O60: a debugger's read of the peak temperature.
-/

open Sys2Proof Sys2Proof.Machine Sys2Proof.Safety

namespace Sys2Proof.Proofs

/-- A part with every power domain on, its debug port open, and a peak shown since WEATHER_PEAK was last read. -/
def debuggedPart : Chip :=
  ((chipReset.onPwr fun p => { p with dom := 2 ^ 80 - 1 }).onWx fun w => { w with peakNew := false }).put .GATE_LIFECYCLE_DEBUG_OPEN 1

/-- Refutes O60: the statement has a read of WEATHER_PEAK re-arm it whoever reads. At the part `debuggedPart` the debug port reads it, and
it is not re-armed (`Chip.readOut_peak_debug`). -/
theorem not_powerStatesAndTemperature : ¬ Obligations.PowerStatesAndTemperature := by
  unfold Obligations.PowerStatesAndTemperature
  intro claim
  obtain ⟨-, -, -, -, -, -, -, -, -, -, -, -, -, -, -, -, -, -, -, -, -, rearms⟩ := claim ⟨debuggedPart, []⟩ .debug
  have reached : reads debuggedPart .debug Reg.WEATHER_PEAK = true := by decide
  have keeps := (exec_weatherPeakRead .debug ⟨debuggedPart, []⟩).trans
    (State.run_next (g := fun c => (c.unheld Reg.WEATHER_PEAK).emit (.read Reg.WEATHER_PEAK (c.regWord Reg.WEATHER_PEAK))) rfl
      (Chip.readOut_peak_debug reached))
  have same := State.effect_inj (keeps.symm.trans (rearms reached)) rfl rfl
  have armed := congrArg (fun c => c.wx.peakNew) same
  simp only [Chip.settle_wx] at armed
  exact absurd armed (by decide)

end Sys2Proof.Proofs
end

section
/-!
SUPPORT. Rings that turn (R332), mandates that move (R339, R340), yields, split service and rejoin (R334, R335), isolation (R342).
-/

namespace Sys2Proof.Machine

open Safety

/-! ### The commands as effects -/

theorem exec_turnTrigger (s : State) : exec .turnTrigger s = s.run .turnTrigger fun c => c.silentElapse.turnTrigger := rfl

theorem exec_turnComplete (s : State) : exec .turnComplete s =
    s.run .turnComplete fun c => (c.turnElapse (us 10)).turnComplete := rfl

theorem exec_turnTimeout (s : State) : exec .turnTimeout s = s.run .turnTimeout fun c => (c.turnElapse (ms 2)).turnTimeout := rfl

theorem exec_mandateTransfer (s : State) : exec .mandateTransfer s = s.run .mandateTransfer fun c => c.holderElapse.mandateMove := rfl

theorem exec_presenceRecord (sidx : Nat) (silent eligible tag : Bool) (s : State) :
    exec (.presenceRecord sidx silent eligible tag) s =
      s.run (.presenceRecord sidx silent eligible tag) fun c => c.presenceIn sidx silent eligible tag := rfl

theorem exec_yieldIdleEnd (s : State) : exec .yieldIdleEnd s = s.run .yieldIdleEnd fun c => c.idleElapse.yieldEnd := rfl

theorem exec_elderSilent (k : Nat) (s : State) : exec (.elderSilent k) s = s.run (.elderSilent k) fun c => c.elderSilent k := rfl

theorem exec_isolated (s : State) : exec .isolated s = s.run .isolated fun c => (c.quietElapse (us 500)).isolated := rfl

theorem exec_rejoin (rq : Requester) (s : State) : exec (.rejoin rq) s =
    s.run (.rejoin rq) fun c => c.regWrite rq Reg.TWIN_CTRL 1 noVerdict := rfl

theorem exec_rejoinAtTick (ports t : Nat) (s : State) : exec (.rejoinAtTick ports t) s =
    s.run (.rejoinAtTick ports t) fun c => c.rejoinAtTick ports t := rfl

theorem exec_splitGrant (n : Nat) (on : Bool) (s : State) : exec (.splitGrant n on) s =
    s.run (.splitGrant n on) fun c => c.splitGrant n on := rfl

/-! ### What passing time leaves -/

section Elapse

variable (c : Chip) (t : Nat)

@[simp] theorem Chip.elapseAge_twin : (c.elapseAge t).twin = c.twin := by
  obtain ⟨_, _, h⟩ := c.elapseAge_eq t
  rw [h]

@[simp] theorem Chip.nat_elapseAge (a : Nat) : (c.elapseAge t).nat a = c.nat a := by
  simp only [Chip.nat, Chip.rd, Chip.elapseAge_regs]

@[simp] theorem Chip.linkUpAt_elapseAge (n : Nat) : (c.elapseAge t).linkUpAt n = c.linkUpAt n := by
  obtain ⟨_, _, h⟩ := c.elapseAge_eq t
  rw [h]
  rfl

@[simp] theorem Chip.isTile_elapseAge : (c.elapseAge t).isTile = c.isTile := by
  rw [Chip.isTile, Chip.get_elapseAge]
  rfl

@[simp] theorem Chip.upPort_elapseAge : (c.elapseAge t).upPort = c.upPort := by
  rw [Chip.upPort, Chip.elapseAge_tile]
  rfl

@[simp] theorem Chip.downPort_elapseAge : (c.elapseAge t).downPort = c.downPort := by
  rw [Chip.downPort, Chip.upPort_elapseAge]
  rfl

@[simp] theorem Chip.twinRole_elapseAge : (c.elapseAge t).twinRole = c.twinRole := c.get_elapseAge t _

@[simp] theorem Chip.twinOn_elapseAge : (c.elapseAge t).twinOn = c.twinOn := by
  obtain ⟨_, _, h⟩ := c.elapseAge_eq t
  rw [h]
  rfl

@[simp] theorem Chip.eldersHeard_elapseAge : (c.elapseAge t).eldersHeard = c.eldersHeard := by
  rw [Chip.eldersHeard, Chip.elapseAge_twin]
  rfl

/-- Passing time moves no beacon. -/
@[simp] theorem Chip.noBeaconSince_elapseAge : (c.elapseAge t).bell.noBeaconSince = c.bell.noBeaconSince := by
  simp only [Chip.elapseAge]
  split <;> rfl

end Elapse

/-! ### A ring's tile turns (R332) -/

section Turn

variable {c : Chip} {a : Nat}

/-- The part is a tile of a ring that knows its upstream. -/
def Chip.inRing (c : Chip) : Bool := c.isTile && c.flag .ELDER_T_CFG_RING && c.tile.up.isSome

theorem Chip.inRing_of (tile : c.isTile = true) (rings : c.flag .ELDER_T_CFG_RING = true) (known : c.tile.up.isSome = true) :
    c.inRing = true := by rw [Chip.inRing, tile, rings, known]; rfl

/-- No silence is waited for at a port that has left UP. -/
theorem Chip.silentElapse_lost (lost : c.linkUpAt c.upPort = false) : c.silentElapse = c := if_neg (by simp [lost])

section Trigger

variable (ring : c.inRing = true) (steady : c.get .ELDER_T_STAT_STATE = 0)

include ring steady

theorem Chip.silentElapse_up (up : c.linkUpAt c.upPort = true) : c.silentElapse = c.elapseAge (c.bell.noBeaconSince + us 500) := by
  simp only [Chip.inRing, Bool.and_eq_true] at ring
  obtain ⟨⟨tile, rings⟩, known⟩ := ring
  exact if_pos (by simp [tile, rings, known, steady, up])

/-- The downstream transmitter idles where the upstream left UP. -/
theorem Chip.turnTrigger_lost (lost : c.linkUpAt c.upPort = false) : c.turnTrigger =
    if c.tile.turnAt.any (fun a => decide (c.age < a + ms 100)) then c.put .ELDER_T_STAT_STATE 2
    else ((c.put .ELDER_T_STAT_STATE 1).onTile fun t => { t with trigAt := some c.age }).txStop 0 c.downPort := by
  simp only [Chip.inRing, Bool.and_eq_true] at ring
  obtain ⟨⟨tile, rings⟩, known⟩ := ring
  simp [Chip.turnTrigger, tile, rings, known, steady, lost]

/-- A silent upstream that is still UP is forced to DETECT, and the tile's turn begins. -/
theorem Chip.turnTrigger_silent (up : c.linkUpAt c.upPort = true) (silent : c.bell.noBeaconSince + us 500 ≤ c.age)
    (never : c.tile.turnAt = none) :
    c.turnTrigger = (((c.setPortState 0 c.upPort 1).put .ELDER_T_STAT_STATE 1).onTile fun t =>
      { t with trigAt := some (c.setPortState 0 c.upPort 1).age }).txStop 0 c.downPort := by
  simp only [Chip.inRing, Bool.and_eq_true] at ring
  obtain ⟨⟨tile, rings⟩, known⟩ := ring
  have goes : (c.isTile && c.flag .ELDER_T_CFG_RING && c.tile.up.isSome && c.get .ELDER_T_STAT_STATE == 0 &&
      (!c.linkUpAt c.upPort || decide (c.bell.noBeaconSince + us 500 ≤ c.age))) = true := by
    simp only [tile, rings, known, steady, decide_eq_true silent, Bool.or_true, Bool.and_self, beq_self_eq_true]
  have held : (c.setPortState 0 c.upPort 1).tile.turnAt = none := never
  rw [Chip.turnTrigger, if_pos goes]
  simp only [up, Bool.not_true, Bool.false_eq_true, if_false, held, Option.any_none]
  rfl

/-- Time passes to the silence, and then the turn begins. -/
theorem Chip.turnTrigger_afterSilence (up : c.linkUpAt c.upPort = true) (never : c.tile.turnAt = none) :
    c.silentElapse.turnTrigger =
      let d := (c.elapseAge (c.bell.noBeaconSince + us 500)).setPortState 0 c.upPort 1
      ((d.put .ELDER_T_STAT_STATE 1).onTile fun t => { t with trigAt := some d.age }).txStop 0 c.downPort := by
  rw [Chip.silentElapse_up ring steady up]
  have ring' : (c.elapseAge (c.bell.noBeaconSince + us 500)).inRing = true := by simpa [Chip.inRing] using ring
  have silent : (c.elapseAge (c.bell.noBeaconSince + us 500)).bell.noBeaconSince + us 500 ≤
      (c.elapseAge (c.bell.noBeaconSince + us 500)).age := by
    rw [Chip.noBeaconSince_elapseAge]
    exact Chip.le_age_elapseAge ..
  rw [Chip.turnTrigger_silent ring' (by simpa using steady) (by simpa using up) silent (by simpa using never),
    Chip.upPort_elapseAge, Chip.downPort_elapseAge]

end Trigger

section Turning

variable (triggered : c.tile.trigAt = some a) (turning : c.get .ELDER_T_STAT_STATE = 1)

include triggered turning

theorem Chip.turnElapse_turning (t : Nat) : c.turnElapse t = c.elapseAge (a + t) := by
  simp [Chip.turnElapse, triggered, turning]

/-- With its other port UP the tile turns once it has idled for 10 µs. -/
theorem Chip.turnComplete_idled (idled : a + us 10 ≤ c.age) : c.turnComplete =
    if c.linkUpAt c.downPort = true then ((c.turnTo c.downPort).txStart 0 c.downPort).raise .ELDER_TURNED else c := by
  rw [Chip.turnComplete, triggered]
  exact if_congr (by rw [turning, eq_self, true_and, and_iff_right idled]) rfl rfl

/-- With its other port not UP for 2 ms the tile holds. -/
theorem Chip.turnTimeout_idled (idled : a + ms 2 ≤ c.age) : c.turnTimeout =
    if c.linkUpAt c.downPort = false then
      (((c.put .ELDER_T_STAT_STATE 2).onTile fun t => { t with trigAt := none }).dropSession).setTileState 5
    else c := by
  rw [Chip.turnTimeout, triggered]
  exact if_congr (by rw [turning, eq_self, true_and, and_iff_right idled]) rfl rfl

theorem Chip.turnComplete_after : (c.turnElapse (us 10)).turnComplete =
    if c.linkUpAt c.downPort = true then
      (((c.elapseAge (a + us 10)).turnTo c.downPort).txStart 0 c.downPort).raise .ELDER_TURNED
    else c.elapseAge (a + us 10) := by
  have turns := Chip.turnComplete_idled (c := c.elapseAge (a + us 10)) (by rw [Chip.elapseAge_tile, triggered])
    (by rw [Chip.get_elapseAge, turning]) (Chip.le_age_elapseAge ..)
  rw [Chip.downPort_elapseAge, Chip.linkUpAt_elapseAge] at turns
  rw [Chip.turnElapse_turning triggered turning, turns]

theorem Chip.turnTimeout_after : (c.turnElapse (ms 2)).turnTimeout =
    if c.linkUpAt c.downPort = false then
      ((((c.elapseAge (a + ms 2)).put .ELDER_T_STAT_STATE 2).onTile fun t => { t with trigAt := none }).dropSession).setTileState 5
    else c.elapseAge (a + ms 2) := by
  have holds := Chip.turnTimeout_idled (c := c.elapseAge (a + ms 2)) (by rw [Chip.elapseAge_tile, triggered])
    (by rw [Chip.get_elapseAge, turning]) (Chip.le_age_elapseAge ..)
  rw [Chip.downPort_elapseAge, Chip.linkUpAt_elapseAge] at holds
  rw [Chip.turnElapse_turning triggered turning, holds]

end Turning

end Turn

/-! ### An Elder's mandate (R339) -/

section Elder

variable {c : Chip} {a : Nat}

/-- The Elder's last report is of the other sender, fresh, eligible and silent about the peer. -/
def Chip.wouldMove (c : Chip) : Prop :=
  c.get .ELDER_T_PEER_SIDX ≠ c.nat Reg.ELDER_T_HOLDER % 64 ∧ c.get .ELDER_T_PEER_AGE ≤ 2 ∧
    c.flag .ELDER_T_PEER_PEER_SILENT = true ∧ c.flag .ELDER_T_PEER_ELIGIBLE = true

/-- The mandate goes to the sender of the last report, with the next epoch. -/
def Chip.mandateMoved (c : Chip) : Chip :=
  ((c.setNat Reg.ELDER_T_HOLDER (c.get .ELDER_T_PEER_SIDX)).setNat Reg.ELDER_T_EPOCH (c.nat Reg.ELDER_T_EPOCH + 1)).raise
    .ELDER_MANDATE_MOVED

/-- 500 µs after a sender's last beacon the tile has not heard it. -/
theorem Chip.unheard_after {h : Nat} (heard : assoc c.tile.heard h = some a) : (c.elapseAge (a + us 500)).unheard h = true := by
  rw [Chip.unheard, Chip.elapseAge_tile, heard]
  exact decide_eq_true (Chip.le_age_elapseAge c (a + us 500))

variable (tile : c.isTile = true) (elder : c.flag .ELDER_T_CFG_ELDER = true)

include tile elder

section Holder

variable (heard : assoc c.tile.heard (c.nat Reg.ELDER_T_HOLDER % 64) = some a)

include heard

theorem Chip.holderElapse_heard : c.holderElapse = c.elapseAge (a + us 500) := by
  simp [Chip.holderElapse, tile, elder, heard]

theorem Chip.mandateMove_willing (willing : c.wouldMove) :
    c.holderElapse.mandateMove = (c.elapseAge (a + us 500)).mandateMoved := by
  obtain ⟨other, fresh, silent, eligible⟩ := willing
  rw [Chip.holderElapse_heard tile elder heard]
  exact if_pos (by simp [tile, elder, other, fresh, silent, eligible, Chip.unheard_after heard])

theorem Chip.mandateMove_unwilling (unwilling : ¬ c.wouldMove) : c.holderElapse.mandateMove = c.elapseAge (a + us 500) := by
  rw [Chip.holderElapse_heard tile elder heard]
  refine if_neg fun moves => unwilling ?_
  simp only [Chip.get_elapseAge, Chip.nat_elapseAge, Chip.flag_elapseAge, Bool.and_eq_true, bne_iff_ne, decide_eq_true_eq] at moves
  obtain ⟨⟨⟨⟨-, other⟩, fresh⟩, silent⟩, eligible⟩ := moves
  exact ⟨other, fresh, silent, eligible⟩

end Holder

/-- A presence record whose tag verifies is the Elder's latest report. -/
theorem Chip.presenceIn_tagged {sidx : Nat} (silent eligible : Bool) (known : sidx < 64) :
    c.presenceIn sidx silent eligible true = c.setNat Reg.ELDER_T_PEER
      ((if silent then 2 ^ 31 else 0) + (if eligible then 2 ^ 30 else 0) + sidx * 65536) := by
  simp [Chip.presenceIn, Chip.elderReport, tile, elder, Nat.mod_eq_of_lt known]

end Elder

theorem Chip.presenceIn_untagged (c : Chip) (sidx : Nat) (silent eligible : Bool) : c.presenceIn sidx silent eligible false = c :=
  if_neg (by simp)

/-! ### At a sender: the end of a yield, a silent Elder, isolation (R334, R340, R342) -/

section Sender

variable {c : Chip}

theorem Chip.yieldEnd_after (yields : c.twin.yieldPorts ≠ 0) : c.idleElapse.yieldEnd =
    let d := c.elapseAge (c.twin.yieldAt + ms 1)
    ((portsOf c.twin.yieldPorts).filter fun n => d.mayTransmit (n / 2) (n % 2)).foldl
      (fun d n => d.txStart (n / 2) (n % 2)) (d.onTwin fun t => { t with yieldPorts := 0 }) := by
  have elapsed : c.idleElapse = c.elapseAge (c.twin.yieldAt + ms 1) := if_neg yields
  rw [elapsed]
  have reached := Chip.le_age_elapseAge c (c.twin.yieldAt + ms 1)
  rw [Chip.yieldEnd, Chip.elapseAge_twin, if_pos ⟨yields, reached⟩]
  rfl

theorem Chip.yieldEnd_none (none : c.twin.yieldPorts = 0) : c.idleElapse.yieldEnd = c := by
  have same : c.idleElapse = c := if_pos none
  rw [same]
  exact if_neg (by simp [none])

/-- An Elder that is told of as silent counts among those heard as it did. -/
theorem Chip.eldersHeard_told {k : Nat} {m : Mandate} (hm : c.twin.mand[k]? = some m) (e : Ev) :
    ((c.onTwin fun t => { t with mand := listPut t.mand k { m with told := true } }).raise e).eldersHeard = c.eldersHeard := by
  obtain ⟨regs, tile, h⟩ := Chip.raise_eq (c.onTwin fun t => { t with mand := listPut t.mand k { m with told := true } }) e
  rw [h]
  obtain ⟨before, rest, hl, hk⟩ : ∃ l r, c.twin.mand = l ++ m :: r ∧ l.length = k := by
    obtain ⟨hk, he⟩ := List.getElem?_eq_some_iff.1 hm
    refine ⟨c.twin.mand.take k, c.twin.mand.drop (k + 1), ?_, List.length_take_of_le hk.le⟩
    rw [← he, List.getElem_cons_drop, List.take_append_drop]
  subst hk
  simp only [Chip.eldersHeard, Chip.onTwin, listPut_eq_set, hl, List.set_append_right _ _ (Nat.le_refl _), Nat.sub_self, List.set_cons_zero,
    List.filter_append, List.length_append, List.filter_cons]
  split <;> rfl

theorem Chip.elderSilent_told {k : Nat} {m : Mandate} (on : c.twinOn = true) (hm : c.twin.mand[k]? = some m) (old : 8 ≤ m.age)
    (untold : m.told = false) (others : 2 ≤ c.eldersHeard) : c.elderSilent k =
      (c.onTwin fun t => { t with mand := listPut t.mand k { m with told := true } }).raise .ELDER_ELDER_SILENT := by
  have many : decide (((c.onTwin fun t => { t with mand := listPut t.mand k { m with told := true } }).raise
      .ELDER_ELDER_SILENT).eldersHeard < 2) = false := by
    rw [Chip.eldersHeard_told hm]
    exact decide_eq_false (Nat.not_lt.2 others)
  simp only [Chip.elderSilent, hm, on, decide_eq_true old, untold, many]
  rfl

theorem Chip.elderSilent_quiet {k : Nat} {m : Mandate} (hm : c.twin.mand[k]? = some m) (quiet : m.age < 8 ∨ m.told = true) :
    c.elderSilent k = c := by
  have stays : ¬ (c.twinOn && decide (8 ≤ m.age) && !m.told) = true := by
    rcases quiet with young | told
    · simp [Nat.not_le.2 young]
    · simp [told]
  simp only [Chip.elderSilent, hm, if_neg stays]

/-- Silence of the link is waited for, and with no Elder heard it isolates the active sender. -/
theorem Chip.isolated_after (on : c.twinOn = true) (active : c.twinRole = 3) (up : c.twin.up = true) :
    (c.quietElapse (us 500)).isolated =
      if c.eldersHeard = 0 then ((c.elapseAge (c.twin.heardAt + us 500)).put .TWIN_STAT_ROLE 4).raise .TWIN_ISOLATED
      else c.elapseAge (c.twin.heardAt + us 500) := by
  have elapsed : c.quietElapse (us 500) = c.elapseAge (c.twin.heardAt + us 500) := if_pos (by simp [on, up])
  rw [elapsed]
  have quiet : (c.elapseAge (c.twin.heardAt + us 500)).peerQuiet (us 500) = true := by
    rw [Chip.peerQuiet, Chip.elapseAge_twin, decide_eq_true (Chip.le_age_elapseAge c (c.twin.heardAt + us 500)), Bool.or_true]
  simp [Chip.isolated, on, active, quiet]

/-! ### Rejoin and split service (R335) -/

theorem Chip.regWrite_rejoin {rq : Requester} {x : Verdict} (ht : takes c rq Reg.TWIN_CTRL = true) :
    c.regWrite rq Reg.TWIN_CTRL 1 x = c.rejoin := by
  obtain ⟨r, row, acc⟩ : ∃ r, rowOf Reg.TWIN_CTRL = some r ∧ r.acc = .wo := Option.map_eq_some_iff.1 (by decide)
  have page : classOf (Reg.TWIN_CTRL / 0x1000) = some (.twin, 0) := by decide
  exact c.regWrite_wo rq _ 1 x r ht row (by decide) (c.roleZero_other _ (by decide)) acc page

theorem Chip.splitGrant_serves {n : Nat} {on : Bool} (twin : c.twinOn = true) (standby : c.twinRole ≠ 3) (near : c.near n = true)
    (ringed : c.ringed n = true) (up : c.twin.up = true) : c.splitGrant n on =
      if on then ((c.port n).devs.filter fun d => d.st == .lost && d.count != 0).foldl (fun d x =>
        d.putDev n { x with st := .admitted, missed := 0, rseq := [] }) (c.setSplit n true)
      else c.setSplit n false := by
  have ports : (c.setSplit n true).ports = c.ports := by
    simp only [Chip.setSplit]
    split
    · rfl
    · obtain ⟨_, _, h⟩ := Chip.raise_eq (c.put .TWIN_PORTS_SPLIT (setBitAt (c.get .TWIN_PORTS_SPLIT) n true)) .TWIN_SPLIT_ON
      simp [h]
  cases on with
  | false => simp [Chip.splitGrant, twin, standby, near, ringed]
  | true => simp [Chip.splitGrant, twin, standby, near, ringed, up, Chip.each, Chip.port, ports]

end Sender

end Sys2Proof.Machine
end

section
/-!
SUPPORT. Split service withdrawn and ports yielded at the tick of a rejoin (R334, R335), and the count of mandates (R340, R341).
-/

namespace Sys2Proof.Machine

open Safety

/-! ### Sets of ports as bits -/

/-- The number whose bits below `k` are those that `p` names. -/
def bitsWhere (p : Nat → Bool) (k : Nat) : Nat := (List.range k).foldl (fun m n => if p n then m + 2 ^ n else m) 0

theorem bitsWhere_succ (p : Nat → Bool) (k : Nat) :
    bitsWhere p (k + 1) = if p k then 2 ^ k + bitsWhere p k else bitsWhere p k := by
  simp only [bitsWhere, List.range_succ, List.foldl_append, List.foldl_cons, List.foldl_nil, Nat.add_comm]

theorem portsLess_eq (a b : Nat) : portsLess a b = bitsWhere (fun n => bitAt a n && !bitAt b n) 16 := rfl

theorem maskOf_eq (l : List Nat) : maskOf l = bitsWhere l.contains 16 := rfl

theorem bitsWhere_lt (p : Nat → Bool) (k : Nat) : bitsWhere p k < 2 ^ k := by
  induction k with
  | zero => exact Nat.one_pos
  | succ k ih =>
    rw [bitsWhere_succ]
    split <;> omega

theorem bitAt_bitsWhere (p : Nat → Bool) {k n : Nat} (hn : n < k) : bitAt (bitsWhere p k) n = p n := by
  induction k with
  | zero => exact absurd hn (Nat.not_lt_zero n)
  | succ k ih =>
    have top : (bitsWhere p k).testBit k = false := Nat.testBit_lt_two_pow (bitsWhere_lt p k)
    rw [bitsWhere_succ, bitAt_eq_testBit]
    rcases Nat.lt_or_eq_of_le (Nat.le_of_lt_succ hn) with below | rfl
    · have kept := ih below
      rw [bitAt_eq_testBit] at kept
      split
      · rw [Nat.testBit_two_pow_add_gt below, kept]
      · exact kept
    · split
      next h => rw [Nat.testBit_two_pow_add_eq, top, h]; rfl
      next h => simp [top, h]

theorem portsLess_lt (a b : Nat) : portsLess a b < 2 ^ 16 := by
  rw [portsLess_eq]
  exact bitsWhere_lt ..

theorem bitAt_portsLess (a b : Nat) {n : Nat} (hn : n < 16) : bitAt (portsLess a b) n = (bitAt a n && !bitAt b n) := by
  rw [portsLess_eq, bitAt_bitsWhere _ hn]

theorem bitAt_maskOf (l : List Nat) {n : Nat} (hn : n < 16) : bitAt (maskOf l) n = l.contains n := by
  rw [maskOf_eq, bitAt_bitsWhere _ hn]

theorem mem_portsOf {ports n : Nat} : n ∈ portsOf ports ↔ n < 16 ∧ bitAt ports n = true := by
  simp [portsOf]

/-- A bit that is clear stays clear when another is cleared. -/
theorem bitAt_setBitAt_clear {v n j : Nat} (clear : bitAt v j = false) : bitAt (setBitAt v n false) j = false := by
  cases h : bitAt v n with
  | false => simpa [setBitAt, h] using clear
  | true =>
    have cleared : setBitAt v n false = v - 2 ^ n := by simp [setBitAt, h]
    have odd : v / 2 ^ n % 2 = 1 := by simpa [bitAt] using h
    have whole : v = 2 ^ n + (v - 2 ^ n) := by
      have : 2 ^ n ≤ v := by
        by_contra small
        rw [Nat.div_eq_of_lt (Nat.not_le.1 small)] at odd
        exact absurd odd (by decide)
      omega
    rcases Nat.lt_trichotomy j n with below | same | above
    · rw [cleared, bitAt_eq_testBit, ← Nat.testBit_two_pow_add_gt below, ← whole, ← bitAt_eq_testBit, clear]
    · rw [same, h] at clear
      exact absurd clear (by decide)
    · obtain ⟨k, rfl⟩ : ∃ k, j = n + 1 + k := ⟨j - (n + 1), by omega⟩
      have less : (v - 2 ^ n) / 2 ^ n = v / 2 ^ n - 1 := by simpa using Nat.sub_mul_div v (2 ^ n) 1
      have half : (v / 2 ^ n - 1) / 2 = v / 2 ^ n / 2 := by
        generalize v / 2 ^ n = x at odd
        omega
      have split (x : Nat) : x / 2 ^ (n + 1 + k) = x / 2 ^ n / 2 / 2 ^ k := by
        rw [Nat.pow_add, Nat.pow_add, Nat.pow_one, Nat.div_div_eq_div_mul, Nat.div_div_eq_div_mul, Nat.mul_assoc]
      rw [cleared, bitAt, split, less, half, ← split]
      exact clear

/-! ### What a sender gives up at the tick -/

/-- Two parts that differ in the twin's state, in lanes, in what was sent, in TWIN_PORTS, and in the flags and count of the twin
page's events. -/
def sameButYielded (c d : Chip) : Prop :=
  (∃ regs twin quads out, d = { c with regs := regs, twin := twin, quads := quads, out := out }) ∧
    ∀ a, a ∉ [Fld.TWIN_PORTS_NEAR.reg, Fld.TWIN_PORTS_SPLIT.reg, Reg.PG_EVENT 0x90, Fld.reg (.PG_EVENT_CNT_COUNT 0x90)] →
      d.rd a = c.rd a

theorem sameButYielded.refl (c : Chip) : sameButYielded c c := ⟨⟨c.regs, c.twin, c.quads, c.out, rfl⟩, fun _ _ => rfl⟩

theorem sameButYielded.trans {c d e : Chip} (h : sameButYielded c d) (k : sameButYielded d e) : sameButYielded c e := by
  obtain ⟨⟨_, _, _, _, rfl⟩, rd1⟩ := h
  obtain ⟨⟨_, _, _, _, rfl⟩, rd2⟩ := k
  exact ⟨⟨_, _, _, _, rfl⟩, fun a ha => (rd2 a ha).trans (rd1 a ha)⟩

theorem sameButYielded.isSender {c d : Chip} (h : sameButYielded c d) : d.isSender = c.isSender := by
  rw [Chip.isSender, Chip.get, h.2 _ (by decide)]
  rfl

/-- A field of TWIN_PORTS stored. -/
theorem sameButYielded_put (c : Chip) {f : Fld} (n : Nat) (hf : f.reg = Reg.TWIN_PORTS) : sameButYielded c (c.put f n) := by
  refine ⟨⟨_, _, _, _, rfl⟩, fun a ha => Chip.rd_put_ne _ _ _ ?_⟩
  rw [hf]
  rintro rfl
  exact ha (by decide)

/-- An event of the twin page at a sender. -/
theorem sameButYielded_raise {c : Chip} (hs : c.isSender = true) {e : Ev} (he : e.page = 0x90) : sameButYielded c (c.raise e) := by
  rw [Chip.raise_sender hs, Chip.setEvent, he]
  refine ⟨⟨_, _, _, _, rfl⟩, fun a ha => ?_⟩
  simp only [List.mem_cons, List.not_mem_nil, or_false, not_or] at ha
  obtain ⟨-, -, event, count⟩ := ha
  rw [Chip.countF, Chip.rd_put_ne _ _ _ count, Chip.rd_wr_ne _ _ event]

theorem sameButYielded_txStop (c : Chip) (q h : Nat) : sameButYielded c (c.txStop q h) := by
  unfold Chip.txStop
  split
  · exact ⟨⟨_, _, _, _, rfl⟩, fun _ _ => rfl⟩
  · exact .refl c

theorem Chip.setSplit_eq (c : Chip) (n : Nat) (on : Bool) : c.setSplit n on =
    if bitAt (c.get .TWIN_PORTS_SPLIT) n = on then c
    else (c.put .TWIN_PORTS_SPLIT (setBitAt (c.get .TWIN_PORTS_SPLIT) n on)).raise (if on then .TWIN_SPLIT_ON else .TWIN_SPLIT_OFF) :=
  rfl

theorem sameButYielded_setSplit {c : Chip} (hs : c.isSender = true) (n : Nat) (on : Bool) : sameButYielded c (c.setSplit n on) := by
  rw [Chip.setSplit_eq]
  by_cases same : bitAt (c.get .TWIN_PORTS_SPLIT) n = on
  · rw [if_pos same]
    exact .refl c
  · have stored := sameButYielded_put c (setBitAt (c.get .TWIN_PORTS_SPLIT) n on) (f := .TWIN_PORTS_SPLIT) rfl
    rw [if_neg same]
    exact stored.trans (sameButYielded_raise (stored.isSender.trans hs) (by cases on <;> rfl))

/-- Transmitters that stop change no register. -/
theorem Chip.rd_txStop (c : Chip) (q h a : Nat) : (c.txStop q h).rd a = c.rd a := by
  unfold Chip.txStop
  split <;> rfl

theorem sameButYielded_yieldOn (c : Chip) (mask : Nat) : sameButYielded c (c.yieldOn mask) := by
  have noted : sameButYielded c (c.onTwin fun t => { t with yieldPorts := mask, yieldAt := c.age }) :=
    ⟨⟨_, _, _, _, rfl⟩, fun _ _ => rfl⟩
  have idle := Chip.each_induct (sameButYielded c) (fun c n => c.txStop (n / 2) (n % 2)) (portsOf mask)
    (fun d n h => h.trans (sameButYielded_txStop d _ _)) _ noted
  exact (idle.trans (sameButYielded_put _ _ rfl)).trans (sameButYielded_put _ _ rfl)

section Yielded

variable (c : Chip) (mask : Nat)

/-- The ports near and the ports with SPLIT have 16 bits each. -/
theorem Chip.get_put_ports {x : Nat} (fits : x < 2 ^ 16) : (c.put .TWIN_PORTS_NEAR x).get .TWIN_PORTS_NEAR = x ∧
    (c.put .TWIN_PORTS_SPLIT x).get .TWIN_PORTS_SPLIT = x :=
  ⟨(Chip.get_put_same _ _ _ (by decide)).trans (Nat.mod_eq_of_lt fits),
    (Chip.get_put_same _ _ _ (by decide)).trans (Nat.mod_eq_of_lt fits)⟩

/-- Yielded ports are neither near nor split. -/
theorem Chip.get_yieldOn : (c.yieldOn mask).get .TWIN_PORTS_NEAR = portsLess (c.get .TWIN_PORTS_NEAR) mask ∧
    (c.yieldOn mask).get .TWIN_PORTS_SPLIT = portsLess (c.get .TWIN_PORTS_SPLIT) mask := by
  have silent (f : Fld) : ((c.onTwin fun t => { t with yieldPorts := mask, yieldAt := c.age }).each (portsOf mask) fun c n =>
      c.txStop (n / 2) (n % 2)).get f = c.get f :=
    Chip.each_keeps (fun d => d.get f) _ (fun d n => by simp only [Chip.get, Chip.rd_txStop]) _ _
  refine ⟨?_, ?_⟩
  · rw [Chip.yieldOn, Chip.setNear, Chip.get_put_other _ _ _ _ (by decide), (Chip.get_put_ports _ (portsLess_lt ..)).1, silent]
  · rw [Chip.yieldOn, (Chip.get_put_ports _ (portsLess_lt ..)).2, silent]

end Yielded

/-- What withdraws SPLIT leaves what is near, and grants it nowhere. -/
theorem Chip.get_setSplit_off (c : Chip) (n : Nat) :
    (c.setSplit n false).get .TWIN_PORTS_NEAR = c.get .TWIN_PORTS_NEAR ∧
      bitAt ((c.setSplit n false).get .TWIN_PORTS_SPLIT) n = false ∧
      ∀ j, bitAt (c.get .TWIN_PORTS_SPLIT) j = false → bitAt ((c.setSplit n false).get .TWIN_PORTS_SPLIT) j = false := by
  rw [Chip.setSplit_eq]
  by_cases off : bitAt (c.get .TWIN_PORTS_SPLIT) n = false
  · rw [if_pos off]
    exact ⟨rfl, off, fun _ h => h⟩
  · rw [if_neg off]
    have fits : setBitAt (c.get .TWIN_PORTS_SPLIT) n false < 2 ^ 16 := by
      refine Nat.lt_of_le_of_lt ?_ (Nat.mod_lt _ (by decide : 0 < 2 ^ 16) : c.get .TWIN_PORTS_SPLIT < 2 ^ 16)
      unfold setBitAt
      split
      · exact Nat.le_refl _
      · exact Nat.sub_le _ _
    have shows (f : Fld) (hf : f.reg = Reg.TWIN_PORTS) (d : Chip) (e : Ev) : (d.raise e).get f = d.get f :=
      Chip.get_congr (by rw [hf]; exact Chip.rd_raise_above_header _ _ (by decide) (by decide))
    rw [shows _ rfl, shows _ rfl, Chip.get_put_other _ _ _ _ (by decide), (Chip.get_put_ports _ fits).2]
    exact ⟨rfl, bitAt_setBitAt_false _ _, fun _ clear => bitAt_setBitAt_clear clear⟩

/-- After SPLIT is withdrawn from the ports of a list none of them has it, nor any that had it not. -/
theorem Chip.get_withdrawn (l : List Nat) (c : Chip) :
    (c.each l fun c n => c.setSplit n false).get .TWIN_PORTS_NEAR = c.get .TWIN_PORTS_NEAR ∧
      ∀ j, (j ∈ l ∨ bitAt (c.get .TWIN_PORTS_SPLIT) j = false) →
        bitAt ((c.each l fun c n => c.setSplit n false).get .TWIN_PORTS_SPLIT) j = false := by
  induction l generalizing c with
  | nil => exact ⟨rfl, fun j h => h.resolve_left List.not_mem_nil⟩
  | cons n l ih =>
    obtain ⟨near, cleared, stays⟩ := c.get_setSplit_off n
    obtain ⟨nears, clears⟩ := ih (c.setSplit n false)
    refine ⟨nears.trans near, fun j h => clears j ?_⟩
    rcases h with mem | clear
    · rcases List.mem_cons.1 mem with rfl | mem
      · exact .inr cleared
      · exact .inl mem
    · exact .inr (stays j clear)

section Rejoin

variable {c : Chip} {ports t : Nat}

/-- The ports named that have SPLIT. -/
def Chip.splitAmong (c : Chip) (ports : Nat) : List Nat := (portsOf ports).filter fun n => bitAt (c.get .TWIN_PORTS_SPLIT) n

/-- The ports named that are near. -/
def Chip.nearAmong (c : Chip) (ports : Nat) : Nat := maskOf ((portsOf ports).filter fun n => bitAt (c.get .TWIN_PORTS_NEAR) n)

/-- At the tick the sender that is not active withdraws SPLIT and yields. -/
theorem Chip.rejoinAtTick_standby (on : c.twinOn = true) (standby : c.twinRole ≠ 3) (due : t ≤ c.lastIndex) :
    c.rejoinAtTick ports t =
      (c.each (c.splitAmong ports) fun c n => c.setSplit n false).yieldOn
        ((c.each (c.splitAmong ports) fun c n => c.setSplit n false).nearAmong ports) := by
  rw [Chip.rejoinAtTick, if_neg standby, if_pos (by rw [on, decide_eq_true due]; rfl)]
  simp only [Chip.nearAmong, (c.get_withdrawn _).1]
  rfl

theorem sameButYielded_rejoinAtTick (on : c.twinOn = true) (standby : c.twinRole ≠ 3) (due : t ≤ c.lastIndex) :
    sameButYielded c (c.rejoinAtTick ports t) := by
  have sender : c.isSender = true := by
    simp only [Chip.twinOn, Bool.and_eq_true] at on
    exact on.1.1
  rw [Chip.rejoinAtTick_standby on standby due]
  exact (Chip.each_induct (sameButYielded c) (fun c n => c.setSplit n false) _
    (fun d n h => h.trans (sameButYielded_setSplit (h.isSender.trans sender) n false)) c (.refl c)).trans (sameButYielded_yieldOn _ _)

/-- Every port named is far and without SPLIT. -/
theorem Chip.rejoinAtTick_yields (on : c.twinOn = true) (standby : c.twinRole ≠ 3) (due : t ≤ c.lastIndex) {n : Nat} (hn : n < 16)
    (named : bitAt ports n = true) : bitAt ((c.rejoinAtTick ports t).get .TWIN_PORTS_NEAR) n = false ∧
      bitAt ((c.rejoinAtTick ports t).get .TWIN_PORTS_SPLIT) n = false := by
  have listed : n ∈ portsOf ports := mem_portsOf.2 ⟨hn, named⟩
  obtain ⟨near, withdrawn⟩ := c.get_withdrawn (c.splitAmong ports)
  rw [Chip.rejoinAtTick_standby on standby due, (Chip.get_yieldOn _ _).1, (Chip.get_yieldOn _ _).2, bitAt_portsLess _ _ hn,
    bitAt_portsLess _ _ hn]
  refine ⟨?_, ?_⟩
  · rw [Chip.nearAmong, bitAt_maskOf _ hn]
    simp [listed]
  · rw [withdrawn n, Bool.false_and]
    cases h : bitAt (c.get .TWIN_PORTS_SPLIT) n with
    | false => exact .inr rfl
    | true => exact .inl (List.mem_filter.2 ⟨listed, h⟩)

theorem Chip.rejoinAtTick_none (active : c.twinRole = 3) (none : c.twin.rejoin = none) : c.rejoinAtTick ports t = c := by
  rw [Chip.rejoinAtTick, if_pos active, none]

/-- A frame over the twin's state and the lanes, closed by the Crier's work. -/
theorem sameButYielded.onlyRegs {d : Chip} (h : sameButYielded c d) :
    onlyRegs { c with twin := d.settle.twin, quads := d.settle.quads } d.settle
      [Fld.TWIN_PORTS_NEAR.reg, Fld.TWIN_PORTS_SPLIT.reg, Reg.PG_EVENT 0x90, Fld.reg (.PG_EVENT_CNT_COUNT 0x90)] := by
  obtain ⟨⟨regs, twin, quads, out, whole⟩, same⟩ := h
  refine ⟨fun a ha => (d.settle_rd a).trans (same a ha), restSame_settle regs out ?_⟩
  rw [Chip.settle_twin, Chip.settle_quads, whole]

end Rejoin

/-! ### Mandates (R339 to R341) -/

section Mandates

variable {m : Mandate} {holder epoch : Nat}

theorem Mandate.take_new (new : m.known = false ∨ m.epoch < epoch) : m.take holder epoch = ⟨true, holder, epoch, false, 0, false⟩ :=
  if_pos new

theorem Mandate.take_differs (known : m.known = true) (same : m.epoch = epoch) (other : m.holder ≠ holder) :
    (m.take holder epoch).split = true := by
  simp [Mandate.take, known, same, other]

theorem Mandate.take_old (known : m.known = true) (old : epoch < m.epoch) :
    (m.take holder epoch).holder = m.holder ∧ (m.take holder epoch).epoch = m.epoch := by
  have notNew : ¬ (m.known = false ∨ m.epoch < epoch) := by simp [known, old.le]
  have notSame : ¬ (m.epoch = epoch ∧ m.holder ≠ holder) := fun h => old.ne' h.1
  simp only [Mandate.take, if_neg notNew, if_neg notSame, and_self]

variable {c : Chip}

theorem Chip.mandateEval_gained (two : 2 ≤ c.mandates) (far : c.twinRole ≠ 3) (heard : c.twinRole ≠ 4) :
    c.mandateEval = c.activate := by
  simp only [Chip.mandateEval, two, far, heard, ne_eq, not_false_iff, and_self, if_true, if_false]

theorem Chip.mandateEval_lost (few : c.mandates < 2) (active : c.twinRole = 3) : c.mandateEval = c.yield := by
  simp [Chip.mandateEval, Nat.not_le.2 few, few, active]

/-- TWIN_STAT.ROLE stands above the header, where no event writes. -/
theorem Chip.twinRole_raise (c : Chip) (e : Ev) : (c.raise e).twinRole = c.twinRole :=
  Chip.get_congr (Chip.rd_raise_above_header _ _ (by decide) (by decide))

theorem Chip.twinRole_put_other (c : Chip) (f : Fld) (n : Nat) (h : Reg.TWIN_STAT ≠ f.reg ∨ f.hi < 29) :
    (c.put f n).twinRole = c.twinRole := by
  refine Chip.get_put_other _ _ _ _ ?_
  rcases h with h | h
  · exact .inl h
  · exact .inr (.inr h)

theorem Chip.twinRole_count (c : Chip) {a : Nat} (h : Reg.TWIN_STAT ≠ a) : (c.count a).twinRole = c.twinRole :=
  Chip.get_congr (Chip.rd_countBy_ne _ _ h)

theorem Chip.twinRole_when (c : Chip) (b : Bool) {f : Chip → Chip} (h : (f c).twinRole = c.twinRole) :
    (c.when b f).twinRole = c.twinRole := by
  cases b
  · rfl
  · exact h

/-- What ends Halo's work leaves the twin's role. -/
theorem Chip.twinRole_haloEnds (c : Chip) : c.haloEnds.twinRole = c.twinRole := by
  unfold Chip.haloEnds
  split
  · rfl
  · refine (Chip.twinRole_when _ _ ?_).trans (Chip.twinRole_when _ _ ?_)
    · rw [Chip.twinRole_raise, Chip.twinRole_put_other _ _ _ (by decide), Chip.setJob, Chip.twinRole_put_other _ _ _ (by decide),
        Chip.twinRole_put_other _ _ _ (by decide)]
    · rw [Chip.twinRole_raise, Chip.twinRole_put_other _ _ _ (by decide), Chip.twinRole_put_other _ _ _ (by decide)]

theorem Chip.raise_well (c : Chip) (e : Ev) : (c.raise e).well = c.well := by
  obtain ⟨_, _, h⟩ := c.raise_eq e
  rw [h]

/-- The field of the twin's role takes the roles' codes. -/
theorem Chip.twinRole_put {n : Nat} (fits : n < 8) : (c.put .TWIN_STAT_ROLE n).twinRole = n :=
  (Chip.get_put_same _ _ _ (by decide)).trans (Nat.mod_eq_of_lt fits)

/-- A sender that gains its second mandate with nothing in flight is active. -/
theorem Chip.twinRole_activate (idle : c.well.taken = []) : c.activate.twinRole = 3 := by
  obtain ⟨e, resumed, active, taken⟩ : ∃ e : Chip, c.activate = (e.each e.well.taken Chip.resend).haloEnds ∧ e.twinRole = 3 ∧
      e.well.taken = c.well.taken := by
    refine ⟨_, rfl, ?_, ?_⟩
    · refine (Chip.twinRole_raise _ .TWIN_ACTIVE_ON).trans ?_
      rw [Chip.twinRole_count _ (by decide), Chip.setNear, Chip.twinRole_put_other _ _ _ (by decide),
        Chip.twinRole_put_other _ _ _ (by decide), Chip.twinRole_put_other _ _ _ (by decide)]
      exact Chip.twinRole_put (by decide)
    · change (Chip.raise _ .TWIN_ACTIVE_ON).well.taken = _
      rw [Chip.raise_well]
      rfl
  rw [resumed, Chip.twinRole_haloEnds, taken, idle, Chip.each_nil, active]

theorem Chip.twinRole_yieldOn (c : Chip) (mask : Nat) : (c.yieldOn mask).twinRole = c.twinRole :=
  Chip.get_congr ((sameButYielded_yieldOn c mask).2 _ (by decide))

/-- A sender that has yielded is the standby. -/
theorem Chip.twinRole_yield (c : Chip) : c.yield.twinRole = 2 := by
  refine (Chip.twinRole_raise _ .TWIN_YIELDED).trans ((Chip.twinRole_put_other _ _ _ (by decide)).trans ?_)
  refine (Chip.twinRole_yieldOn _ _).trans ((Chip.twinRole_put_other _ _ _ (by decide)).trans ?_)
  exact Chip.twinRole_put (by decide)

/-- Nothing is in flight or held at a sender that has yielded. -/
theorem Chip.well_yield (c : Chip) : c.yield.well.taken = [] ∧ c.yield.well.held = [] := by
  rw [Chip.yield, Chip.raise_well]
  exact ⟨rfl, rfl⟩

end Mandates

end Sys2Proof.Machine
end

section
/-!
PROOF. O57: a ring's turn, an Elder's mandate, a yield, split service and the count of mandates, in parts.
-/

open Sys2Proof Sys2Proof.Machine Sys2Proof.Safety

namespace Sys2Proof.Proofs

/-- Settles O57. Each operation's case is a lemma of the section above; the time a command waits for is passed first, and what a part
shows does not change with it. At the tick of a rejoin the ports named lose SPLIT one by one, and those near are yielded. -/
theorem ringsTurnAndMandatesMove : Obligations.RingsTurnAndMandatesMove := by
  unfold Obligations.RingsTurnAndMandatesMove
  intro s
  refine ⟨fun tile rings known => ⟨fun steady lost => ⟨fun never => ?trigger, fun a turned recent => ?hold⟩,
      fun steady up never => ?silent,
      fun a triggered turning => ⟨fun up => ⟨?turns, ?waits⟩, fun down => ⟨?idles, ?timeout⟩⟩⟩,
    fun tile elder => ⟨fun a heard => ⟨fun willing => ?moves, fun unwilling => ?keeps⟩,
      fun sidx silent eligible known => ⟨?tagged, ?untagged⟩⟩,
    fun yields => ?yieldEnds, fun none => ?noYield,
    fun on => ⟨fun k m hk hm => ⟨fun old untold others _ => ?told, fun quiet => ?quiet⟩,
      fun active up none => ?isolated, fun active up some => ?heard⟩,
    fun rq _ reached active some => ⟨fun refused => ?refused, fun near ahead => ?captured⟩,
    fun ports t hp => ⟨fun on standby due commits => ?rejoins, fun active none => ?noRejoin⟩,
    fun n hn on standby near ringed up => ⟨?granted, ?withdrawn⟩,
    fun m holder epoch => ⟨Mandate.take_new, Mandate.take_differs, Mandate.take_old⟩,
    fun c => ⟨Chip.mandateEval_gained, Chip.mandateEval_lost, Chip.twinRole_activate, c.twinRole_yield, c.well_yield⟩⟩
  case trigger =>
    rw [exec_turnTrigger]
    refine State.run_next rfl ?_
    rw [Chip.silentElapse_lost lost, Chip.turnTrigger_lost (Chip.inRing_of tile rings known) steady lost, never]
    rfl
  case hold =>
    have soon : (s.chip.tile.turnAt.any fun a => decide (s.chip.age < a + ms 100)) = true := by
      rw [turned, Option.any_some, decide_eq_true recent]
    rw [exec_turnTrigger]
    refine State.run_next rfl ?_
    rw [Chip.silentElapse_lost lost, Chip.turnTrigger_lost (Chip.inRing_of tile rings known) steady lost, if_pos soon]
  case silent =>
    rw [exec_turnTrigger]
    exact State.run_next rfl (Chip.turnTrigger_afterSilence (Chip.inRing_of tile rings known) steady up never)
  case turns =>
    rw [exec_turnComplete]
    exact State.run_next rfl ((Chip.turnComplete_after triggered turning).trans (if_pos up))
  case waits =>
    rw [exec_turnTimeout]
    exact State.run_next rfl ((Chip.turnTimeout_after triggered turning).trans (if_neg (by simp [up])))
  case idles =>
    rw [exec_turnComplete]
    exact State.run_next rfl ((Chip.turnComplete_after triggered turning).trans (if_neg (by simp [down])))
  case timeout =>
    rw [exec_turnTimeout]
    exact State.run_next rfl ((Chip.turnTimeout_after triggered turning).trans (if_pos down))
  case moves =>
    rw [exec_mandateTransfer]
    exact State.run_next rfl (Chip.mandateMove_willing tile elder heard willing)
  case keeps =>
    rw [exec_mandateTransfer]
    exact State.run_next rfl (Chip.mandateMove_unwilling tile elder heard unwilling)
  case tagged =>
    rw [exec_presenceRecord]
    exact State.run_next (decide_eq_true known) (Chip.presenceIn_tagged tile elder silent eligible known)
  case untagged =>
    rw [exec_presenceRecord]
    exact State.run_next (decide_eq_true known) (Chip.presenceIn_untagged ..)
  case yieldEnds =>
    rw [exec_yieldIdleEnd]
    exact State.run_next rfl (Chip.yieldEnd_after yields)
  case noYield =>
    rw [exec_yieldIdleEnd]
    exact State.run_next rfl (Chip.yieldEnd_none none)
  case told =>
    rw [exec_elderSilent]
    exact State.run_next (decide_eq_true hk) (Chip.elderSilent_told on hm old untold others)
  case quiet =>
    rw [exec_elderSilent]
    exact State.run_next (decide_eq_true hk) (Chip.elderSilent_quiet hm quiet)
  case isolated =>
    rw [exec_isolated]
    exact State.run_next rfl ((Chip.isolated_after on active up).trans (if_pos none))
  case heard =>
    rw [exec_isolated]
    exact State.run_next rfl ((Chip.isolated_after on active up).trans (if_neg some))
  case refused =>
    rw [exec_rejoin]
    refine State.run_next rfl ((Chip.regWrite_rejoin reached).trans ?_)
    exact (if_neg (not_or.2 ⟨some, not_not.2 active⟩)).trans (if_pos refused)
  case captured =>
    rw [exec_rejoin]
    refine State.run_next rfl ((Chip.regWrite_rejoin reached).trans ?_)
    exact (if_neg (not_or.2 ⟨some, not_not.2 active⟩)).trans (if_neg (not_or.2 ⟨not_not.2 near, Nat.not_lt.2 ahead⟩))
  case rejoins =>
    have yielded := sameButYielded_rejoinAtTick (ports := ports) on standby due
    have noCommit : (s.chip.rejoinAtTick ports t).fab.commits = [] := by
      obtain ⟨⟨_, _, _, _, whole⟩, -⟩ := yielded
      rw [whole, commits]
    obtain ⟨u, answers, pending, part⟩ := exec_answers ((exec_rejoinAtTick ports t s).trans
      (State.run_wf (.rejoinAtTick ports t) _ s (decide_eq_true hp))) noCommit
    refine ⟨u, answers, pending, ?_, fun n hn named => ?_⟩
    · rw [part]
      exact yielded.onlyRegs
    · rw [part, Chip.settle_get, Chip.settle_get]
      exact Chip.rejoinAtTick_yields on standby due hn named
  case noRejoin =>
    rw [exec_rejoinAtTick]
    exact State.run_next (decide_eq_true hp) (Chip.rejoinAtTick_none active none)
  case granted =>
    rw [exec_splitGrant]
    exact State.run_next (decide_eq_true hn) ((Chip.splitGrant_serves on standby near ringed up).trans (if_pos rfl))
  case withdrawn =>
    rw [exec_splitGrant]
    exact State.run_next (decide_eq_true hn) ((Chip.splitGrant_serves on standby near ringed up).trans (if_neg Bool.false_ne_true))

end Sys2Proof.Proofs
end

section
/-!
SUPPORT. The tick of a release at a sender (R383).
-/

namespace Sys2Proof.Machine

/-- At a sender the release's tick is the sender's own activation (R383). -/
theorem exec_releaseActivation_sender {s : State} (sender : s.chip.isSender = true) :
    exec .releaseActivation s = .next (s.effect Chip.relActivate) :=
  (State.run_wf .releaseActivation _ s rfl).trans (congrArg _ (State.effect_congr (if_pos sender)))

end Sys2Proof.Machine
end

section
/-!
PROOF. O59: a release whose settings rename a tile draws a token of the Well.
-/

open Sys2Proof Sys2Proof.Machine Sys2Proof.Safety

namespace Sys2Proof.Proofs

/-- A decided release for tick 0 that covers no tile. -/
def decidedRelease : Rel :=
  { t := 0, image := 0, fallback := false, covered := [], acked := [], gone := [], alone := true, go := true, decided := true }

/-- A sender at the tick of a release that changes its settings: the tile with serial 1 holds its slot under WDN 5, and the settings
that come into force give it WDN 7. -/
def renamingSender : Chip :=
  ((((chipReset.put .SYS_ROLE_ROLE 1).onStore fun x => { x with wdns := [(1, 7)] }).onPort 0 fun p =>
    { p with devs := [{ newDev 1 with st := .admitted, wdn := 5, count := 1 }] }).onUpd fun u =>
      { u with rel := some decidedRelease, oldSections := [(0, [])] })

/-- Refutes O59: of a release's tick at a sender the statement says that the Well stays as it was. At the part `renamingSender` new
settings come into force with the release and give a tile another WDN, and its ASSIGN (`Chip.renameDev`) draws a
token of the Well. -/
theorem not_bundlesStageAndReleasesRun : ¬ Obligations.BundlesStageAndReleasesRun := by
  unfold Obligations.BundlesStageAndReleasesRun
  intro claim
  obtain ⟨atSender, -⟩ := claim ⟨renamingSender, []⟩ .pcie
  have sender : renamingSender.isSender = true := by decide
  obtain ⟨-, -, released, -⟩ := atSender sender
  obtain ⟨-, -, -, activates⟩ := released decidedRelease rfl
  obtain ⟨t, answers, -, -, -, well, -⟩ := activates rfl (Nat.zero_le _) rfl
  have answered := Host.Outcome.next.inj ((exec_releaseActivation_sender sender).symm.trans answers)
  have noCommit : renamingSender.relActivate.fab.commits = [] := by decide
  have part : t.chip = renamingSender.relActivate.settle :=
    (congrArg State.chip answered).symm.trans (Chip.after_none _ _ noCommit)
  have tokens := congrArg Well.fwToken well
  rw [part, Chip.settle_well] at tokens
  exact absurd tokens (by decide)

end Sys2Proof.Proofs
end
